-- ==== Sys2Proof/Word.lean ====
section
/-! DEFINITION. The word types of the machine and their plainest arithmetic (00 R3-R5, 03 R56). -/

namespace Sys2Proof

/-- A byte of any memory of the device (00 R4). -/
abbrev Byte := BitVec 8

/-- A 32-bit instruction word or register value (03 R56, 02 R40). -/
abbrev Word := BitVec 32

/-- A 64-bit engine register or register pair (11 R236, 02 R40). -/
abbrev DWord := BitVec 64

/-- A set of lanes of a group: lane `l` is bit `l` (02 R40). -/
abbrev LaneMask := BitVec 64

/-- The value of a word read in two's complement (05 R92). -/
def sval (w : Word) : Int := w.toInt

/-- An exact integer written modulo 2^32 (05 R92). -/
def wrap32 (i : Int) : Word := BitVec.ofInt 32 i

/-- A Boolean as the word 0 or 1. -/
def boolWord (b : Bool) : Word := if b then 1#32 else 0#32

/-- A 64-bit value from its low and high word (02 R40). -/
def dword (lo hi : Word) : DWord := hi ++ lo

/-- The low word of a 64-bit value. -/
def loWord (v : DWord) : Word := v.setWidth 32

/-- The high word of a 64-bit value. -/
def hiWord (v : DWord) : Word := (v >>> 32).setWidth 32

end Sys2Proof
end

