-- ==== Sys2Proof/Machine/Table.lean ====
section
/-! DEFINITION. Finite maps with Nat keys, held as lists sorted by key: the one shape of every numbered collection in
State (register files, groups, pages). An absent key reads as the default its reader names. -/

namespace Sys2Proof.Machine

/-- A finite map from numbers. -/
abbrev Table (α : Type) := List (Nat × α)

/-- The entry of a key. -/
def tget {α : Type} (t : Table α) (k : Nat) : Option α :=
  match t with
  | [] => none
  | (j, a) :: rest => if j = k then some a else tget rest k

/-- The entry of a key, or the default. -/
def tgetD {α : Type} (t : Table α) (k : Nat) (d : α) : α := (tget t k).getD d

/-- Sets the entry of a key, keeping the keys in rising order. -/
def tput {α : Type} (t : Table α) (k : Nat) (a : α) : Table α :=
  match t with
  | [] => [(k, a)]
  | (j, b) :: rest =>
    if k < j then (k, a) :: (j, b) :: rest
    else if k = j then (k, a) :: rest
    else (j, b) :: tput rest k a

/-- Removes the entry of a key. -/
def tdel {α : Type} (t : Table α) (k : Nat) : Table α := t.filter (fun e => e.1 != k)

/-- Changes the entry of a key, when there is one. -/
def tmod {α : Type} (t : Table α) (k : Nat) (f : α → α) : Table α :=
  t.map (fun e => if e.1 = k then (e.1, f e.2) else e)

/-- Changes the entry of a key, starting from the default when there is none. -/
def tupd {α : Type} (t : Table α) (k : Nat) (d : α) (f : α → α) : Table α := tput t k (f (tgetD t k d))

/-- The keys in rising order. -/
def tkeys {α : Type} (t : Table α) : List Nat := t.map (·.1)

/-- The values in rising order of their keys. -/
def tvals {α : Type} (t : Table α) : List α := t.map (·.2)

/-- Changes every entry. -/
def tmap {α : Type} (t : Table α) (f : Nat → α → α) : Table α := t.map (fun e => (e.1, f e.1 e.2))

/-- The numbers 0 to n - 1. -/
def upto (n : Nat) : List Nat := List.range n

/-- The lanes of a mask, lowest first, among the first `w` lanes. -/
def lanesOf (m : LaneMask) (w : Nat) : List Nat := (upto w).filter (fun l => m.getLsbD l)

/-- The mask of a list of lanes. -/
def maskOf (ls : List Nat) : LaneMask := ls.foldl (fun m l => m ||| (1#64 <<< l)) 0#64

/-- The least number of a list, or the default. -/
def leastD (l : List Nat) (d : Nat) : Nat :=
  match l with
  | [] => d
  | a :: rest => rest.foldl min a

/-- The sum of a list. -/
def total (l : List Nat) : Nat := l.foldl (· + ·) 0

/-- Inserts into a list sorted by a strict order, after entries that are not above it. -/
def insertBy {α : Type} (lt : α → α → Bool) (a : α) (l : List α) : List α :=
  match l with
  | [] => [a]
  | b :: rest => if lt a b then a :: b :: rest else b :: insertBy lt a rest

/-- A list sorted by a strict order; equal entries keep their order. -/
def sortBy {α : Type} (lt : α → α → Bool) (l : List α) : List α :=
  l.foldl (fun acc a => insertBy lt a acc) []

/-- Field-by-field order of equal-length keys (00 R2, 10 R224). -/
def lexLt (a b : List Nat) : Bool :=
  match a, b with
  | [], [] => false
  | [], _ :: _ => true
  | _ :: _, [] => false
  | x :: xs, y :: ys => if x < y then true else if x = y then lexLt xs ys else false

/-- A list with each entry once, first occurrences kept. -/
def once (l : List Nat) : List Nat :=
  (l.foldl (fun acc a => if acc.contains a then acc else a :: acc) []).reverse

/-- The chunks of a list, `n` entries each, the last one possibly shorter; `fuel` bounds their number. -/
def groupsOf {α : Type} (fuel n : Nat) (l : List α) : List (List α) :=
  match fuel with
  | 0 => []
  | f + 1 => if l.isEmpty then [] else l.take n :: groupsOf f n (l.drop n)

end Sys2Proof.Machine
end

