-- ==== Sys2Proof/Machine/Numbers.lean ====
section
/-! DEFINITION. Number formats, ROUND and the exact arithmetic behind every floating-point result (14 R269-R278, 15
R292-R303). A finite value is held exactly as a sign, a natural number and a power of two. -/

namespace Sys2Proof.Machine

/-- The floating-point formats, in the order of the event counters (14 R269, R281). -/
inductive Fmt where
  | fp32
  | bf16
  | fp16
  | e4m3
  | e5m2
  | e2m1
  deriving DecidableEq, Repr

/-- A rounding mode (14 R274). -/
inductive RMode where
  | rne
  | rtz
  | rup
  | rdn
  deriving DecidableEq, Repr

/-- The index of a format in the event counters (14 R281). -/
def Fmt.index (f : Fmt) : Nat :=
  match f with
  | .fp32 => 0
  | .bf16 => 1
  | .fp16 => 2
  | .e4m3 => 3
  | .e5m2 => 4
  | .e2m1 => 5

/-- Fraction width m (14 R269). -/
def Fmt.frac (f : Fmt) : Nat :=
  match f with
  | .fp32 => 23
  | .bf16 => 7
  | .fp16 => 10
  | .e4m3 => 3
  | .e5m2 => 2
  | .e2m1 => 1

/-- Exponent width (14 R269). -/
def Fmt.expw (f : Fmt) : Nat :=
  match f with
  | .fp32 => 8
  | .bf16 => 8
  | .fp16 => 5
  | .e4m3 => 4
  | .e5m2 => 5
  | .e2m1 => 2

/-- Exponent bias (14 R269). -/
def Fmt.bias (f : Fmt) : Nat :=
  match f with
  | .fp32 => 127
  | .bf16 => 127
  | .fp16 => 15
  | .e4m3 => 7
  | .e5m2 => 15
  | .e2m1 => 1

/-- The encoding of the largest finite magnitude (14 R269). -/
def Fmt.maxCode (f : Fmt) : Nat :=
  match f with
  | .fp32 => 0x7F7FFFFF
  | .bf16 => 0x7F7F
  | .fp16 => 0x7BFF
  | .e4m3 => 0x7E
  | .e5m2 => 0x7B
  | .e2m1 => 0x7

/-- Whether the format has infinities (14 R269). -/
def Fmt.hasInf (f : Fmt) : Bool :=
  match f with
  | .e4m3 => false
  | .e2m1 => false
  | _ => true

/-- The canonical NaN; E2M1 has none and takes +0 (14 R272, R276). -/
def Fmt.nanCode (f : Fmt) : Nat :=
  match f with
  | .fp32 => 0x7FC00000
  | .bf16 => 0x7FC0
  | .fp16 => 0x7E00
  | .e4m3 => 0x7F
  | .e5m2 => 0x7E
  | .e2m1 => 0

/-- The sign bit of an encoding. -/
def Fmt.signBit (f : Fmt) : Nat := 2 ^ (f.expw + f.frac)

/-- The least exponent of a normal number, 1 - bias (14 R269). -/
def Fmt.emin (f : Fmt) : Int := 1 - (f.bias : Int)

/-- A floating-point value: a NaN, an infinity, or exactly (-1)^neg * m * 2^e. -/
inductive Fp where
  | nan (signalling : Bool)
  | inf (neg : Bool)
  | fin (neg : Bool) (m : Nat) (e : Int)
  deriving DecidableEq, Repr

/-- The value of an encoding (14 R269, R272). -/
def decodeFp (f : Fmt) (code : Nat) : Fp :=
  let neg := decide (code / f.signBit % 2 = 1)
  let ex := code / 2 ^ f.frac % 2 ^ f.expw
  let fr := code % 2 ^ f.frac
  let top := decide (ex = 2 ^ f.expw - 1)
  let value : Fp :=
    if ex = 0 then .fin neg fr (f.emin - f.frac)
    else .fin neg (2 ^ f.frac + fr) ((ex : Int) - f.bias - f.frac)
  match f with
  | .e2m1 => value
  | .e4m3 => if top && decide (fr = 7) then .nan false else value
  | .e5m2 => if top then (if fr = 0 then .inf neg else .nan false) else value
  | _ => if top then (if fr = 0 then .inf neg else .nan (decide (fr < 2 ^ (f.frac - 1)))) else value

/-- The value of an FP32 word. -/
def fpOf (w : Word) : Fp := decodeFp .fp32 w.toNat

/-- What a floating-point operation delivers: the encoding, the event counters it counts in (14 R282), and what it
signals: invalid, division by zero, an overflow that may trap (14 R286). -/
structure FpOut where
  code : Nat
  counts : List Nat := []
  invalid : Bool := false
  divZero : Bool := false
  overflow : Bool := false
  deriving DecidableEq, Repr

/-- The encoding of a sign and a magnitude. -/
def withSign (f : Fmt) (neg : Bool) (code : Nat) : Nat := if neg then f.signBit + code else code

/-- The value of an overflow (14 R276): the largest finite number or an infinity. -/
def overflowCode (f : Fmt) (mode : RMode) (sat neg : Bool) : Nat :=
  let toInf := f.hasInf && !sat &&
    (match mode with
      | .rne => true
      | .rtz => false
      | .rup => !neg
      | .rdn => neg)
  withSign f neg (if toInf then f.maxCode + 1 else f.maxCode)

/-- A rounded magnitude: the quotient in units of u and whether bits were lost (14 R274). `sticky` says that the exact
value lies strictly above m and below m + 1 units of 2^e. -/
def roundUnits (mode : RMode) (neg : Bool) (m : Nat) (e : Int) (sticky : Bool) (ue : Int) : Nat × Bool :=
  if ue ≤ e then (m * 2 ^ (e - ue).toNat, sticky)
  else
    let sh := (ue - e).toNat
    let q := m / 2 ^ sh
    let r := m % 2 ^ sh
    let half := 2 ^ (sh - 1)
    let exact := decide (r = 0) && !sticky
    let up :=
      match mode with
      | .rne => decide (half < r) || (decide (r = half) && (sticky || decide (q % 2 = 1)))
      | .rtz => false
      | .rup => !neg && !exact
      | .rdn => neg && !exact
    (if up then q + 1 else q, !exact)

/-- ROUND of 14 R274 for a nonzero exact value, with its counts (14 R282): overflow (kind 2) and infinity (kind 1) when
it overflows, underflow (kind 3) when it is tiny and inexact. -/
def roundTo (f : Fmt) (mode : RMode) (sat : Bool) (neg : Bool) (m : Nat) (e : Int) (sticky : Bool) : FpOut :=
  let lg : Int := (Nat.log2 m : Int) + e
  let e0 := max lg f.emin
  let ue := e0 - f.frac
  let r := roundUnits mode neg m e sticky ue
  let code := r.1 + (ue - (f.emin - f.frac)).toNat * 2 ^ f.frac
  let k := 4 * f.index
  if code > f.maxCode then
    let out := overflowCode f mode sat neg
    let isInf := f.hasInf && out % f.signBit == f.maxCode + 1
    { code := out, counts := if isInf then [k + 1, k + 2] else [k + 2], overflow := !sat && f.hasInf }
  else
    { code := withSign f neg code, counts := if lg < f.emin && r.2 then [k + 3] else [] }

/-- The canonical NaN as a result, counted as a NaN (14 R282). -/
def nanOut (f : Fmt) : FpOut := { code := f.nanCode, counts := [4 * f.index] }

/-- The canonical NaN of an invalid operation (14 R282): counter 27 counts too. -/
def invalidOut (f : Fmt) : FpOut := { code := f.nanCode, counts := [4 * f.index, 27], invalid := true }

/-- An infinity as a result (14 R282). -/
def infOut (f : Fmt) (neg : Bool) : FpOut := { code := withSign f neg (f.maxCode + 1), counts := [4 * f.index + 1] }

/-- The infinity of a division by zero: counter 28 counts too. -/
def divZeroOut (f : Fmt) (neg : Bool) : FpOut :=
  { code := withSign f neg (f.maxCode + 1), counts := [4 * f.index + 1, 28], divZero := true }

/-- A zero. -/
def zeroOut (f : Fmt) (neg : Bool) : FpOut := { code := withSign f neg 0 }

/-- A signalling NaN operand signals invalid (14 R272, R282). -/
def isSnan (x : Fp) : Bool := x == .nan true

/-- A NaN. -/
def isNan (x : Fp) : Bool :=
  match x with
  | .nan _ => true
  | _ => false

/-- Rules 1 and 2 of 15 R292 over the operands: the NaN result, when one applies. -/
def nanRule (f : Fmt) (xs : List Fp) : Option FpOut :=
  if xs.any isSnan then some (invalidOut f)
  else if xs.any isNan then some (nanOut f)
  else none

/-- A finite value as an integer in units of 2^e0, for e0 at or below its exponent. -/
def scaled (neg : Bool) (m : Nat) (e e0 : Int) : Int :=
  let v : Int := (m * 2 ^ (e - e0).toNat : Nat)
  if neg then -v else v

/-- The sign of an exact zero sum (14 R273). -/
def zeroSumNeg (mode : RMode) (signs : List Bool) : Bool :=
  if signs.all (fun b => b) then !signs.isEmpty else if signs.any (fun b => b) then mode == .rdn else false

/-- The exact sum of finite terms, rounded once (14 R273, R274). -/
def sumOut (f : Fmt) (mode : RMode) (sat : Bool) (ts : List (Bool × Nat × Int)) : FpOut :=
  let nz := ts.filter (fun t => t.2.1 != 0)
  match nz with
  | [] => zeroOut f (zeroSumNeg mode (ts.map (·.1)))
  | t0 :: rest =>
    let e0 := rest.foldl (fun a t => min a t.2.2) t0.2.2
    let v := nz.foldl (fun (a : Int) t => a + scaled t.1 t.2.1 t.2.2 e0) 0
    if v = 0 then zeroOut f (zeroSumNeg mode (ts.map (·.1)))
    else roundTo f mode sat (decide (v < 0)) v.natAbs e0 false

/-- The sum of values that are no NaN: an infinite term, an invalid pair of them, or the exact sum. -/
def addTerms (f : Fmt) (mode : RMode) (sat : Bool) (xs : List Fp) : FpOut :=
  let infs := xs.filterMap (fun x => match x with | .inf n => some n | _ => none)
  match infs with
  | [] => sumOut f mode sat (xs.filterMap (fun x => match x with | .fin n m e => some (n, m, e) | _ => none))
  | n :: rest => if rest.all (fun k => k == n) then infOut f n else invalidOut f

/-- The negation of a value. -/
def negFp (x : Fp) : Fp :=
  match x with
  | .nan s => .nan s
  | .inf n => .inf (!n)
  | .fin n m e => .fin (!n) m e

/-- The exact product of values that are no NaN; none for 0 times an infinity. -/
def mulExact (x y : Fp) : Option Fp :=
  match x, y with
  | .fin n m e, .fin n' m' e' => some (.fin (n != n') (m * m') (e + e'))
  | .inf n, .inf n' => some (.inf (n != n'))
  | .inf n, .fin n' m _ => if m = 0 then none else some (.inf (n != n'))
  | .fin n m _, .inf n' => if m = 0 then none else some (.inf (n != n'))
  | _, _ => none

/-- Delivers one exact value that is no NaN. -/
def deliver (f : Fmt) (mode : RMode) (sat : Bool) (x : Fp) : FpOut := addTerms f mode sat [x]

/-- x + y (15 R294). -/
def fpAdd (f : Fmt) (mode : RMode) (sat : Bool) (x y : Fp) : FpOut :=
  (nanRule f [x, y]).getD (addTerms f mode sat [x, y])

/-- x - y (15 R294). -/
def fpSub (f : Fmt) (mode : RMode) (sat : Bool) (x y : Fp) : FpOut :=
  (nanRule f [x, y]).getD (addTerms f mode sat [x, negFp y])

/-- x * y (15 R294). -/
def fpMul (f : Fmt) (mode : RMode) (sat : Bool) (x y : Fp) : FpOut :=
  (nanRule f [x, y]).getD
    (match mulExact x y with
      | some p => deliver f mode sat p
      | none => invalidOut f)

/-- x * y + d rounded once (15 R294): 0 times an infinity is invalid even when d is a quiet NaN. -/
def fpFma (f : Fmt) (mode : RMode) (sat : Bool) (x y d : Fp) : FpOut :=
  if [x, y, d].any isSnan then invalidOut f
  else if [x, y].any isNan then nanOut f
  else
    match mulExact x y with
    | none => invalidOut f
    | some p => if isNan d then nanOut f else addTerms f mode sat [p, d]

/-- x / y (15 R294). -/
def fpDiv (f : Fmt) (mode : RMode) (sat : Bool) (x y : Fp) : FpOut :=
  (nanRule f [x, y]).getD
    (match x, y with
      | .inf _, .inf _ => invalidOut f
      | .inf n, .fin n' _ _ => infOut f (n != n')
      | .fin n _ _, .inf n' => zeroOut f (n != n')
      | .fin n m e, .fin n' m' e' =>
        if m' = 0 then (if m = 0 then invalidOut f else divZeroOut f (n != n'))
        else if m = 0 then zeroOut f (n != n')
        else
          let num := m * 2 ^ 64
          roundTo f mode sat (n != n') (num / m') (e - 64 - e') (decide (num % m' ≠ 0))
      | _, _ => nanOut f)

/-- The square root of an even-exponent value, with 2 * extra more bits, and whether bits were lost. -/
def rootUnits (m : Nat) (e : Int) (extra : Nat) : Nat × Int × Bool :=
  let odd := decide (e % 2 ≠ 0)
  let m1 := if odd then 2 * m else m
  let e1 := if odd then e - 1 else e
  let big := m1 * 2 ^ (2 * extra)
  let q := Nat.sqrt big
  (q, e1 / 2 - extra, decide (q * q ≠ big))

/-- The square root (15 R294). -/
def fpSqrt (f : Fmt) (mode : RMode) (x : Fp) : FpOut :=
  (nanRule f [x]).getD
    (match x with
      | .inf n => if n then invalidOut f else infOut f false
      | .fin n m e =>
        if m = 0 then zeroOut f n
        else if n then invalidOut f
        else
          let r := rootUnits m e 40
          roundTo f mode false false r.1 r.2.1 r.2.2
      | .nan _ => nanOut f)

/-- Whether x is below y, for values that are no NaN. -/
def fpLt (x y : Fp) : Bool :=
  match x, y with
  | .inf n, .inf n' => n && !n'
  | .inf n, .fin _ _ _ => n
  | .fin _ _ _, .inf n' => !n'
  | .fin n m e, .fin n' m' e' =>
    let e0 := min e e'
    decide (scaled n m e e0 < scaled n' m' e' e0)
  | _, _ => false

/-- Whether two values that are no NaN are equal; +0 equals -0 (05 R101). -/
def fpEq (x y : Fp) : Bool := !isNan x && !isNan y && !fpLt x y && !fpLt y x

/-- The sign of a value. -/
def fpNeg (x : Fp) : Bool :=
  match x with
  | .inf n => n
  | .fin n _ _ => n
  | .nan _ => false

/-- FMIN and FMAX on encodings (15 R295): a NaN yields the other operand's bits, two NaNs the canonical NaN, -0 orders
below +0. -/
def fpPick (f : Fmt) (greater : Bool) (a b : Nat) : Nat :=
  let x := decodeFp f a
  let y := decodeFp f b
  match isNan x, isNan y with
  | true, true => f.nanCode
  | true, false => b
  | false, true => a
  | false, false =>
    let below := fpLt x y || (!fpLt y x && fpNeg x && !fpNeg y)
    if greater then (if below then b else a) else (if below then a else b)

/-- FMIN or FMAX with its signals and counts (15 R295). -/
def fpMinMax (f : Fmt) (greater : Bool) (a b : Nat) : FpOut :=
  let x := decodeFp f a
  let y := decodeFp f b
  let r := fpPick f greater a b
  let inv := isSnan x || isSnan y
  let kind :=
    match decodeFp f r with
    | .nan _ => [4 * f.index]
    | .inf _ => [4 * f.index + 1]
    | .fin _ _ _ => []
  { code := r, counts := kind ++ (if inv then [27] else []), invalid := inv }

/-- A value rounded to an integer in units of 1: sign and magnitude (14 R274, R278, 15 R296). -/
def roundInt (mode : RMode) (neg : Bool) (m : Nat) (e : Int) : Nat :=
  if e < -400 then (roundUnits mode neg (if m = 0 then 0 else 1) (-2) false 0).1
  else (roundUnits mode neg m e false 0).1

/-- FRINT (15 R296). -/
def fpRint (mode : RMode) (x : Fp) : FpOut :=
  (nanRule .fp32 [x]).getD
    (match x with
      | .inf n => infOut .fp32 n
      | .fin n m e =>
        if 0 ≤ e || m = 0 then deliver .fp32 .rne false x
        else
          let r := roundInt mode n m e
          if r = 0 then zeroOut .fp32 n else roundTo .fp32 .rne false n r 0 false
      | .nan _ => nanOut .fp32)

/-- FFRAC (15 R296): the exact fractional part, with the sign of x. -/
def fpFrac (x : Fp) : FpOut :=
  (nanRule .fp32 [x]).getD
    (match x with
      | .inf _ => invalidOut .fp32
      | .fin n m e =>
        if 0 ≤ e || m = 0 then zeroOut .fp32 n
        else
          let r := m % 2 ^ (-e).toNat
          if r = 0 then zeroOut .fp32 n else roundTo .fp32 .rne false n r e false
      | .nan _ => nanOut .fp32)

/-- FCLASS (15 R297). -/
def fpClass (w : Word) : Word :=
  let b : Nat :=
    match fpOf w with
    | .nan s => if s then 8 else 9
    | .inf n => if n then 0 else 7
    | .fin n m _ =>
      if m = 0 then (if n then 3 else 4)
      else if m < 2 ^ 23 then (if n then 2 else 5)
      else (if n then 1 else 6)
  1#32 <<< b

/-- An exponent shift that leaves every result the same: beyond plus or minus 1,000 a finite nonzero value of any
format overflows or is tiny alike. -/
def clampShift (k : Int) : Int := max (-1000) (min 1000 k)

/-- A finite value times a power of two. -/
def scaleFp (x : Fp) (k : Int) : Fp :=
  match x with
  | .fin n m e => .fin n m (e + clampShift k)
  | y => y

/-- FSCALE (15 R294). -/
def fpScale (mode : RMode) (sat : Bool) (x : Fp) (k : Int) : FpOut :=
  (nanRule .fp32 [x]).getD (deliver .fp32 mode sat (scaleFp x k))

/-- HDOT2 (15 R299): two products and an FP32 addend, rounded once. -/
def fpDot2 (mode : RMode) (sat : Bool) (a b c d dv : Fp) : FpOut :=
  if [a, b, c, d, dv].any isSnan then invalidOut .fp32
  else if [a, b, c, d, dv].any isNan then nanOut .fp32
  else
    match mulExact a b, mulExact c d with
    | some p, some q => addTerms .fp32 mode sat [p, q, dv]
    | _, _ => invalidOut .fp32

/-- CVF2I and CVF2N (14 R278). -/
def fpToInt (signed : Bool) (mode : RMode) (x : Fp) : FpOut :=
  let lo : Int := if signed then -(2 ^ 31) else 0
  let hi : Int := if signed then 2 ^ 31 - 1 else 2 ^ 32 - 1
  let bad := fun (c : Nat) => ({ code := c, counts := [27], invalid := true } : FpOut)
  let above := if signed then 0x7FFFFFFF else 0xFFFFFFFF
  let below := if signed then 0x80000000 else 0
  match x with
  | .nan _ => bad 0
  | .inf n => if n then bad below else bad above
  | .fin n m e =>
    let r := roundInt mode n m e
    let v : Int := if n then -(r : Int) else r
    if v < lo then bad below else if v > hi then bad above else { code := (wrap32 v).toNat }

/-- An integer converted to FP32 (15 R300). -/
def intToFp (mode : RMode) (v : Int) : FpOut :=
  if v = 0 then zeroOut .fp32 false else roundTo .fp32 mode false (decide (v < 0)) v.natAbs 0 false

/-- A conversion between formats of 16 and 32 bits (15 R300). -/
def fpConvert (f : Fmt) (mode : RMode) (sat : Bool) (x : Fp) : FpOut :=
  (nanRule f [x]).getD (deliver f mode sat x)

/-- A scaled FP32 value converted to an 8-bit or 4-bit format (15 R301): always saturating. `invalid` counts a
signalling NaN. -/
def fpNarrow (f : Fmt) (mode : RMode) (x : Fp) (scale : Nat) : FpOut :=
  let k := 4 * f.index
  match x with
  | .nan s => if s then { invalidOut f with invalid := true } else nanOut f
  | .inf n =>
    if scale = 255 then nanOut f else { code := withSign f n f.maxCode, counts := [k + 2] }
  | .fin n m e =>
    if scale = 255 then nanOut f
    else if m = 0 then zeroOut f n
    else roundTo f mode true n m (e + 127 - scale) false

/-- An 8-bit or 4-bit element with a scale converted to FP32 (15 R302). -/
def fpWiden (f : Fmt) (mode : RMode) (sat : Bool) (code scale : Nat) : FpOut :=
  match decodeFp f code with
  | .nan _ => nanOut .fp32
  | .inf n => if scale = 255 then nanOut .fp32 else infOut .fp32 n
  | .fin n m e =>
    if scale = 255 then nanOut .fp32 else deliver .fp32 mode sat (.fin n m (e + scale - 127))

/-- The word of a result. -/
def outWord (o : FpOut) : Word := BitVec.ofNat 32 o.code

/-- The FP32 sum rounded to nearest even with no signals kept: folds, reductions and atomics (09 R206, R207). -/
def fadd32 (a b : Word) : Word := BitVec.ofNat 32 (fpAdd .fp32 .rne false (fpOf a) (fpOf b)).code

end Sys2Proof.Machine
end

