-- ==== Sys2Proof/Syntax.lean ====
section
/-! DEFINITION. The instruction set: hints, operands and the one inductive `Instr` with a constructor for every row
of spec/opcode_table.json. Words are decoded to it by Decode.lean; an event row carries what the world outside the
step decides as its operands. -/

namespace Sys2Proof

/-- The use code of a source field (03 R60). -/
inductive Use where
  | plain
  | last
  | keep
  | routed
  deriving DecidableEq, Repr

/-- A source field: a register number and its use code (03 R60). -/
structure Src where
  reg : BitVec 6
  use : Use
  deriving DecidableEq, Repr

/-- The route of one source (03 R67). -/
structure Route where
  last : Bool
  kind : BitVec 3
  par : BitVec 8
  deriving DecidableEq, Repr

/-- The hints (03 R65-R69). -/
inductive Hint where
  /-- HINT.IMM: bits [31:8] of an immediate or offset (R66). -/
  | imm (payload : BitVec 24)
  /-- HINT.ROUTE: the routes of the x and y sources (R67). -/
  | route (x y : Route)
  /-- HINT.MOD: rounding, saturation, guard predicate, auxiliary register (R68). -/
  | mod (round : BitVec 3) (sat : Bool) (pred : BitVec 3) (aux : BitVec 6)
  /-- HINT.SCHED: chunk end, yield, priority (R69). -/
  | sched (chunkEnd yld : Bool) (prio : BitVec 2)
  deriving DecidableEq, Repr

/-- The hint run before a target: at most one hint of each kind (03 R65). -/
structure Hints where
  imm : Option (BitVec 24) := none
  route : Option (Route × Route) := none
  mod : Option (BitVec 3 × Bool × BitVec 3 × BitVec 6) := none
  sched : Option (Bool × Bool × BitVec 2) := none
  deriving DecidableEq, Repr

/-- What a Plagan message brings besides its payload (21 R381): session, sequence numbers and the sender's address and
port; the VLAN ID of its frame's tag and the address that its datagram is for, none for the port's link-local one (01
R20); its type and its operation code where they are none of those that 21 R383
names and not the ones of its row, and whether the other fields of the header keep the limits of R381 (21 R384). -/
structure MsgHdr where
  session : Nat
  seq : Nat
  ack : Nat
  peer : Nat
  port : Nat
  vlan : Option Nat := none
  dest : Option Nat := none
  type : Option Nat := none
  op : Option Nat := none
  fits : Bool := true
  deriving DecidableEq, Repr

/-- A fabric write arriving at the home (10 R231, 11 R250): sender device, source tag, the run of words and, when the
sender belongs to a span of the receiver, the count of the boundary in whose exchange it was sent. -/
structure FabWrite where
  device : Nat
  tag : List Nat
  part : Nat
  window : Nat
  offset : Nat
  data : List Word
  sent : Option Nat := none
  deriving DecidableEq, Repr

/-- A strike region (23 R408). -/
inductive Region where
  | cores (cluster j : Nat)
  | control (cluster : Nat)
  | banks (die : Nat)
  | io (die : Nat)
  deriving DecidableEq, Repr

/-- What a scrub or a read through the codes finds (23 R411, R412). -/
inductive Finding where
  /-- Nothing, or an error corrected in place. -/
  | corrected
  | clean
  /-- A DUE in a line of local memory, by its physical line address. -/
  | localLine (line : Nat)
  /-- A DUE consumed by a group instruction or a compute-phase engine operation, by team, and the core whose line or shadow
  failed. -/
  | consumed (team core : Nat)
  /-- A DUE or residue mismatch found late in a team's state. -/
  | late (team : Nat)
  /-- A DUE in state that a squash replaces, by group. -/
  | shadowed (group : Nat)
  /-- A DUE in a word of global memory, by unified address. -/
  | globalWord (addr : Nat)
  /-- A DUE in a word of control memory that the control core reads. -/
  | controlWord (cluster addr : Nat)
  /-- A DUE in the snapshot region of a team. -/
  | snapshot (team : Nat)
  deriving DecidableEq, Repr

/-- The unit a path-delay monitor sits in (24 R437). -/
inductive DelayUnit where
  | core (cluster core : Nat)
  | lattice (cluster core l : Nat)
  | stack (n : Nat)
  | ioDie (n : Nat)
  deriving DecidableEq, Repr

/-- What a start meets on the part (24 R443, R444): the strap, failing units of BIST and training, the step that fails
(0 for none) with its unit, and the step at which the start is held or cut (0 for none). -/
structure StartFacts where
  strap : Bool := false
  coreFail : List Nat := []
  stackFail : List Nat := []
  moduleFail : List Nat := []
  portFail : List Nat := []
  failStep : Nat := 0
  failUnit : Nat := 0
  holdAt : Nat := 0
  deriving DecidableEq, Repr, Inhabited

/-- An IPv6 neighbour solicitation (01 R19): the address asked for, and the VLAN ID of its frame's tag. -/
structure Solicitation where
  address : Nat
  vlan : Option Nat := none
  deriving DecidableEq, Repr, Inhabited

/-- Every instruction word, test-access instruction and event of the opcode table. In a word, `sw` is the switch
marker (03 R56), operand fields have the width that the table leaves them, and a multi-register field holds its
number divided by the multiple that the instruction requires. -/
inductive Instr where
  /-- IADD (R93): Adds two vector registers modulo 2^32 in each active lane. -/
  | iadd (sw : Bool) (d : BitVec 6) (x : Src) (y : Src)
  /-- ISUB (R93): Subtracts two vector registers modulo 2^32. -/
  | isub (sw : Bool) (d : BitVec 6) (x : Src) (y : Src)
  /-- IMUL (R93): Writes the low 32 bits of the product. -/
  | imul (sw : Bool) (d : BitVec 6) (x : Src) (y : Src)
  /-- IMULH (R93): Writes the high 32 bits of the signed product. -/
  | imulh (sw : Bool) (d : BitVec 6) (x : Src) (y : Src)
  /-- UMULH (R93): Writes the high 32 bits of the unsigned product. -/
  | umulh (sw : Bool) (d : BitVec 6) (x : Src) (y : Src)
  /-- IMIN (R93): Writes the signed minimum. -/
  | imin (sw : Bool) (d : BitVec 6) (x : Src) (y : Src)
  /-- IMAX (R93): Writes the signed maximum. -/
  | imax (sw : Bool) (d : BitVec 6) (x : Src) (y : Src)
  /-- UMIN (R93): Writes the unsigned minimum. -/
  | umin (sw : Bool) (d : BitVec 6) (x : Src) (y : Src)
  /-- UMAX (R93): Writes the unsigned maximum. -/
  | umax (sw : Bool) (d : BitVec 6) (x : Src) (y : Src)
  /-- AND (R93): Writes the bitwise AND. -/
  | vand (sw : Bool) (d : BitVec 6) (x : Src) (y : Src)
  /-- OR (R93): Writes the bitwise OR. -/
  | vor (sw : Bool) (d : BitVec 6) (x : Src) (y : Src)
  /-- XOR (R93): Writes the bitwise exclusive OR. -/
  | vxor (sw : Bool) (d : BitVec 6) (x : Src) (y : Src)
  /-- SHL (R93): Shifts left by the whole unsigned count, giving 0 for counts of 32 or more. -/
  | shl (sw : Bool) (d : BitVec 6) (x : Src) (y : Src)
  /-- SHR (R93): Shifts right logically by the whole unsigned count. -/
  | shr (sw : Bool) (d : BitVec 6) (x : Src) (y : Src)
  /-- SRA (R93): Shifts right arithmetically by the whole unsigned count. -/
  | sra (sw : Bool) (d : BitVec 6) (x : Src) (y : Src)
  /-- IADDC (R94): Adds with carry in and out through p6. -/
  | iaddc (sw : Bool) (d : BitVec 6) (x : Src) (y : Src)
  /-- IADDI (R95): Adds an immediate. -/
  | iaddi (sw : Bool) (d : BitVec 6) (x : Src) (i : BitVec 8)
  /-- ISUBI (R95): Subtracts an immediate. -/
  | isubi (sw : Bool) (d : BitVec 6) (x : Src) (i : BitVec 8)
  /-- IMULI (R95): Multiplies by an immediate, low word. -/
  | imuli (sw : Bool) (d : BitVec 6) (x : Src) (i : BitVec 8)
  /-- IMULHI (R95): Signed high product with an immediate. -/
  | imulhi (sw : Bool) (d : BitVec 6) (x : Src) (i : BitVec 8)
  /-- UMULHI (R95): Unsigned high product with an immediate. -/
  | umulhi (sw : Bool) (d : BitVec 6) (x : Src) (i : BitVec 8)
  /-- IMINI (R95): Signed minimum with an immediate. -/
  | imini (sw : Bool) (d : BitVec 6) (x : Src) (i : BitVec 8)
  /-- IMAXI (R95): Signed maximum with an immediate. -/
  | imaxi (sw : Bool) (d : BitVec 6) (x : Src) (i : BitVec 8)
  /-- UMINI (R95): Unsigned minimum with an immediate. -/
  | umini (sw : Bool) (d : BitVec 6) (x : Src) (i : BitVec 8)
  /-- UMAXI (R95): Unsigned maximum with an immediate. -/
  | umaxi (sw : Bool) (d : BitVec 6) (x : Src) (i : BitVec 8)
  /-- ANDI (R95): Bitwise AND with an immediate. -/
  | andi (sw : Bool) (d : BitVec 6) (x : Src) (i : BitVec 8)
  /-- ORI (R95): Bitwise OR with an immediate. -/
  | ori (sw : Bool) (d : BitVec 6) (x : Src) (i : BitVec 8)
  /-- XORI (R95): Bitwise exclusive OR with an immediate. -/
  | xori (sw : Bool) (d : BitVec 6) (x : Src) (i : BitVec 8)
  /-- SHLI (R95): Shifts left by an immediate taken as an unsigned count. -/
  | shli (sw : Bool) (d : BitVec 6) (x : Src) (i : BitVec 8)
  /-- SHRI (R95): Shifts right logically by an immediate. -/
  | shri (sw : Bool) (d : BitVec 6) (x : Src) (i : BitVec 8)
  /-- SRAI (R95): Shifts right arithmetically by an immediate. -/
  | srai (sw : Bool) (d : BitVec 6) (x : Src) (i : BitVec 8)
  /-- MOVI (R95): Writes an immediate to a vector register. -/
  | movi (sw : Bool) (d : BitVec 6) (i : BitVec 8)
  /-- ISUBB (R96): Subtracts with borrow in and out through p6. -/
  | isubb (sw : Bool) (d : BitVec 6) (x : Src) (y : Src)
  /-- IABS (R96): Writes the absolute value, saturating under .sat. -/
  | iabs (sw : Bool) (d : BitVec 6) (x : Src)
  /-- INEG (R96): Writes the negation, saturating under .sat. -/
  | ineg (sw : Bool) (d : BitVec 6) (x : Src)
  /-- NOT (R96): Writes the bitwise complement. -/
  | vnot (sw : Bool) (d : BitVec 6) (x : Src)
  /-- CLZ (R96): Counts leading zero bits. -/
  | clz (sw : Bool) (d : BitVec 6) (x : Src)
  /-- POPC (R96): Counts set bits. -/
  | popc (sw : Bool) (d : BitVec 6) (x : Src)
  /-- BREV (R96): Reverses the bit order. -/
  | brev (sw : Bool) (d : BitVec 6) (x : Src)
  /-- BFE (R97): Extracts a bit field, optionally sign-extended. -/
  | bfe (sw : Bool) (d : BitVec 6) (x : Src) (y : Src)
  /-- BFI (R97): Inserts a bit field into the destination. -/
  | bfi (sw : Bool) (d : BitVec 6) (x : Src) (y : Src)
  /-- IADDS (R96): Signed saturating add. -/
  | iadds (sw : Bool) (d : BitVec 6) (x : Src) (y : Src)
  /-- ISUBS (R96): Signed saturating subtract. -/
  | isubs (sw : Bool) (d : BitVec 6) (x : Src) (y : Src)
  /-- UADDS (R96): Unsigned saturating add. -/
  | uadds (sw : Bool) (d : BitVec 6) (x : Src) (y : Src)
  /-- IMAD (R96): Multiplies and adds the destination. -/
  | imad (sw : Bool) (d : BitVec 6) (x : Src) (y : Src)
  /-- SAD (R96): Adds the absolute signed difference to the destination. -/
  | sad (sw : Bool) (d : BitVec 6) (x : Src) (y : Src)
  /-- ROTL (R96): Rotates left by y mod 32. -/
  | rotl (sw : Bool) (d : BitVec 6) (x : Src) (y : Src)
  /-- LEA2 (R96): Writes x plus four times y. -/
  | lea2 (sw : Bool) (d : BitVec 6) (x : Src) (y : Src)
  /-- FADD (R294): FP32 addition rounded by ROUND. -/
  | fadd (sw : Bool) (d : BitVec 6) (x : Src) (y : Src)
  /-- FSUB (R294): FP32 subtraction. -/
  | fsub (sw : Bool) (d : BitVec 6) (x : Src) (y : Src)
  /-- FMUL (R294): FP32 multiplication. -/
  | fmul (sw : Bool) (d : BitVec 6) (x : Src) (y : Src)
  /-- FFMA (R294): FP32 fused multiply-add rounded once. -/
  | ffma (sw : Bool) (d : BitVec 6) (x : Src) (y : Src)
  /-- FFNMA (R294): FP32 fused negated multiply-add rounded once. -/
  | ffnma (sw : Bool) (d : BitVec 6) (x : Src) (y : Src)
  /-- FMIN (R295): FP32 minimum with the NaN and zero rules. -/
  | fmin (sw : Bool) (d : BitVec 6) (x : Src) (y : Src)
  /-- FMAX (R295): FP32 maximum with the NaN and zero rules. -/
  | fmax (sw : Bool) (d : BitVec 6) (x : Src) (y : Src)
  /-- FABS (R294): Clears the sign bit. -/
  | fabs (sw : Bool) (d : BitVec 6) (x : Src)
  /-- FNEG (R294): Flips the sign bit. -/
  | fneg (sw : Bool) (d : BitVec 6) (x : Src)
  /-- FCPYS (R294): Copies the sign of y onto x. -/
  | fcpys (sw : Bool) (d : BitVec 6) (x : Src) (y : Src)
  /-- FDIV (R294): FP32 division. -/
  | fdiv (sw : Bool) (d : BitVec 6) (x : Src) (y : Src)
  /-- FSQRT (R294): FP32 square root. -/
  | fsqrt (sw : Bool) (d : BitVec 6) (x : Src)
  /-- FRINT (R296): Rounds to an integral FP32 value in the encoded mode. -/
  | frint (sw : Bool) (d : BitVec 6) (x : Src) (m : BitVec 2)
  /-- FCLASS (R297): Writes a one-hot class of the FP32 operand. -/
  | fclass (sw : Bool) (d : BitVec 6) (x : Src)
  /-- FSCALE (R294): Multiplies x by 2 to the signed integer y. -/
  | fscale (sw : Bool) (d : BitVec 6) (x : Src) (y : Src)
  /-- FFRAC (R296): Writes the exact fractional part. -/
  | ffrac (sw : Bool) (d : BitVec 6) (x : Src)
  /-- HADD (R298): Packed 16-bit addition per half in BF16 or FP16. -/
  | hadd (sw : Bool) (d : BitVec 6) (x : Src) (y : Src) (f : BitVec 1)
  /-- HSUB (R298): Packed 16-bit subtraction. -/
  | hsub (sw : Bool) (d : BitVec 6) (x : Src) (y : Src) (f : BitVec 1)
  /-- HMUL (R298): Packed 16-bit multiplication. -/
  | hmul (sw : Bool) (d : BitVec 6) (x : Src) (y : Src) (f : BitVec 1)
  /-- HFMA (R298): Packed 16-bit fused multiply-add. -/
  | hfma (sw : Bool) (d : BitVec 6) (x : Src) (y : Src) (f : BitVec 1)
  /-- HMIN (R298): Packed 16-bit minimum. -/
  | hmin (sw : Bool) (d : BitVec 6) (x : Src) (y : Src) (f : BitVec 1)
  /-- HMAX (R298): Packed 16-bit maximum. -/
  | hmax (sw : Bool) (d : BitVec 6) (x : Src) (y : Src) (f : BitVec 1)
  /-- HNEG (R298): Flips both 16-bit sign bits. -/
  | hneg (sw : Bool) (d : BitVec 6) (x : Src) (f : BitVec 1)
  /-- HDOT2 (R299): Two-element 16-bit dot product added to FP32, rounded once. -/
  | hdot2 (sw : Bool) (d : BitVec 6) (x : Src) (y : Src) (f : BitVec 1)
  /-- CVF2I (R278): Converts FP32 to INT32. -/
  | cvf2i (sw : Bool) (d : BitVec 6) (x : Src)
  /-- CVI2F (R300): Converts INT32 to FP32. -/
  | cvi2f (sw : Bool) (d : BitVec 6) (x : Src)
  /-- CVN2F (R300): Converts UINT32 to FP32. -/
  | cvn2f (sw : Bool) (d : BitVec 6) (x : Src)
  /-- CVF2N (R278): Converts FP32 to UINT32. -/
  | cvf2n (sw : Bool) (d : BitVec 6) (x : Src)
  /-- CVF2B (R300): Converts FP32 to BF16. -/
  | cvf2b (sw : Bool) (d : BitVec 6) (x : Src)
  /-- CVB2F (R300): Converts BF16 to FP32 exactly. -/
  | cvb2f (sw : Bool) (d : BitVec 6) (x : Src)
  /-- CVF2H (R300): Converts FP32 to FP16. -/
  | cvf2h (sw : Bool) (d : BitVec 6) (x : Src)
  /-- CVH2F (R300): Converts FP16 to FP32 exactly. -/
  | cvh2f (sw : Bool) (d : BitVec 6) (x : Src)
  /-- CVF2E4 (R301): Converts scaled FP32 to E4M3 and updates amax. -/
  | cvf2e4 (sw : Bool) (d : BitVec 6) (x : Src) (y : Src)
  /-- CVF2E5 (R301): Converts scaled FP32 to E5M2 and updates amax. -/
  | cvf2e5 (sw : Bool) (d : BitVec 6) (x : Src) (y : Src)
  /-- CVF2E2 (R301): Converts scaled FP32 to E2M1 and updates amax. -/
  | cvf2e2 (sw : Bool) (d : BitVec 6) (x : Src) (y : Src)
  /-- CVE42F (R302): Converts scaled E4M3 to FP32. -/
  | cve42f (sw : Bool) (d : BitVec 6) (x : Src) (y : Src)
  /-- CVE52F (R302): Converts scaled E5M2 to FP32. -/
  | cve52f (sw : Bool) (d : BitVec 6) (x : Src) (y : Src)
  /-- CVE22F (R302): Converts scaled E2M1 to FP32. -/
  | cve22f (sw : Bool) (d : BitVec 6) (x : Src) (y : Src)
  /-- PK2H (R303): Packs two 16-bit fields into a word. -/
  | pk2h (sw : Bool) (d : BitVec 6) (x : Src) (y : Src)
  /-- PK4B (R303): Shifts the destination up and packs two bytes below it. -/
  | pk4b (sw : Bool) (d : BitVec 6) (x : Src) (y : Src)
  /-- EXP2 (R304): Correctly rounded 2^x, variable latency. -/
  | exp2 (sw : Bool) (d : BitVec 6) (x : Src)
  /-- LOG2 (R304): Correctly rounded log2 x. -/
  | log2 (sw : Bool) (d : BitVec 6) (x : Src)
  /-- RCP (R304): Correctly rounded reciprocal. -/
  | rcp (sw : Bool) (d : BitVec 6) (x : Src)
  /-- RSQRT (R304): Correctly rounded reciprocal square root. -/
  | rsqrt (sw : Bool) (d : BitVec 6) (x : Src)
  /-- SINPI (R304): Correctly rounded sin(pi x). -/
  | sinpi (sw : Bool) (d : BitVec 6) (x : Src)
  /-- COSPI (R304): Correctly rounded cos(pi x). -/
  | cospi (sw : Bool) (d : BitVec 6) (x : Src)
  /-- TANH (R304): Correctly rounded tanh. -/
  | tanh (sw : Bool) (d : BitVec 6) (x : Src)
  /-- SIGM (R304): Correctly rounded logistic sigmoid. -/
  | sigm (sw : Bool) (d : BitVec 6) (x : Src)
  /-- ICMP_EQ (R100): Compares for integer equality and combines into a predicate. -/
  | icmpEq (sw : Bool) (c : BitVec 3) (p : BitVec 3) (x : Src) (y : Src)
  /-- ICMP_NE (R100): Compares for integer inequality. -/
  | icmpNe (sw : Bool) (c : BitVec 3) (p : BitVec 3) (x : Src) (y : Src)
  /-- ICMP_LT (R100): Signed less-than compare. -/
  | icmpLt (sw : Bool) (c : BitVec 3) (p : BitVec 3) (x : Src) (y : Src)
  /-- ICMP_LE (R100): Signed less-or-equal compare. -/
  | icmpLe (sw : Bool) (c : BitVec 3) (p : BitVec 3) (x : Src) (y : Src)
  /-- ICMP_GT (R100): Signed greater-than compare. -/
  | icmpGt (sw : Bool) (c : BitVec 3) (p : BitVec 3) (x : Src) (y : Src)
  /-- ICMP_GE (R100): Signed greater-or-equal compare. -/
  | icmpGe (sw : Bool) (c : BitVec 3) (p : BitVec 3) (x : Src) (y : Src)
  /-- ICMP_LTN (R100): Unsigned less-than compare. -/
  | icmpLtn (sw : Bool) (c : BitVec 3) (p : BitVec 3) (x : Src) (y : Src)
  /-- ICMP_LEN (R100): Unsigned less-or-equal compare. -/
  | icmpLen (sw : Bool) (c : BitVec 3) (p : BitVec 3) (x : Src) (y : Src)
  /-- ICMP_GTN (R100): Unsigned greater-than compare. -/
  | icmpGtn (sw : Bool) (c : BitVec 3) (p : BitVec 3) (x : Src) (y : Src)
  /-- ICMP_GEN (R100): Unsigned greater-or-equal compare. -/
  | icmpGen (sw : Bool) (c : BitVec 3) (p : BitVec 3) (x : Src) (y : Src)
  /-- ICMP_FEQ (R100): FP32 ordered equal compare. -/
  | icmpFeq (sw : Bool) (c : BitVec 3) (p : BitVec 3) (x : Src) (y : Src)
  /-- ICMP_FNE (R100): FP32 unordered or not-equal compare. -/
  | icmpFne (sw : Bool) (c : BitVec 3) (p : BitVec 3) (x : Src) (y : Src)
  /-- ICMP_FLT (R100): FP32 ordered less-than compare. -/
  | icmpFlt (sw : Bool) (c : BitVec 3) (p : BitVec 3) (x : Src) (y : Src)
  /-- ICMP_FLE (R100): FP32 ordered less-or-equal compare. -/
  | icmpFle (sw : Bool) (c : BitVec 3) (p : BitVec 3) (x : Src) (y : Src)
  /-- ICMP_FUNO (R100): FP32 unordered test. -/
  | icmpFuno (sw : Bool) (c : BitVec 3) (p : BitVec 3) (x : Src) (y : Src)
  /-- ICMP_FORD (R100): FP32 ordered test. -/
  | icmpFord (sw : Bool) (c : BitVec 3) (p : BitVec 3) (x : Src) (y : Src)
  /-- SHFL (R311): Reads x from the lane named by y. -/
  | shfl (sw : Bool) (d : BitVec 6) (x : Src) (y : Src)
  /-- BALLOT (R311): Writes the lane mask of active lanes whose predicate is set. -/
  | ballot (sw : Bool) (d : BitVec 5) (x : BitVec 3)
  /-- VANY (R311): Sets a predicate if any active lane's predicate is set. -/
  | vany (sw : Bool) (d : BitVec 3) (x : BitVec 3)
  /-- VALL (R311): Sets a predicate if every active lane's predicate is set. -/
  | vall (sw : Bool) (d : BitVec 3) (x : BitVec 3)
  /-- RSUMI (R311): Integer sum over active lanes. -/
  | rsumi (sw : Bool) (d : BitVec 6) (x : Src)
  /-- RMINI (R311): Signed minimum over active lanes. -/
  | rmini (sw : Bool) (d : BitVec 6) (x : Src)
  /-- RMAXI (R311): Signed maximum over active lanes. -/
  | rmaxi (sw : Bool) (d : BitVec 6) (x : Src)
  /-- RSUMF (R312): FP32 tree sum over active lanes. -/
  | rsumf (sw : Bool) (d : BitVec 6) (x : Src)
  /-- SCANI (R311): Inclusive integer prefix sum over active lanes. -/
  | scani (sw : Bool) (d : BitVec 6) (x : Src)
  /-- SCANF (R312): Sequential FP32 prefix sum over active lanes. -/
  | scanf (sw : Bool) (d : BitVec 6) (x : Src)
  /-- SCANXI (R311): Exclusive integer prefix sum over active lanes. -/
  | scanxi (sw : Bool) (d : BitVec 6) (x : Src)
  /-- MATCH (R311): Writes the mask of active lanes with an equal value. -/
  | matchx (sw : Bool) (d : BitVec 5) (x : Src)
  /-- POPM (R311): Counts active lanes with the predicate set. -/
  | popm (sw : Bool) (d : BitVec 6) (x : BitVec 3)
  /-- FIRST (R311): Broadcasts x of the lowest active lane. -/
  | first (sw : Bool) (d : BitVec 6) (x : Src)
  /-- CMPCT (R313): Writes each lane's compaction slot. -/
  | cmpct (sw : Bool) (d : BitVec 6) (x : BitVec 3)
  /-- SADD (R98): Uniform add, once per issue. -/
  | sadd (sw : Bool) (d : BitVec 6) (x : Src) (y : Src)
  /-- SSUB (R98): Uniform subtract. -/
  | ssub (sw : Bool) (d : BitVec 6) (x : Src) (y : Src)
  /-- SMUL (R98): Uniform multiply. -/
  | smul (sw : Bool) (d : BitVec 6) (x : Src) (y : Src)
  /-- SMULH (R98): Uniform signed high multiply. -/
  | smulh (sw : Bool) (d : BitVec 6) (x : Src) (y : Src)
  /-- SUMULH (R98): Uniform unsigned high multiply. -/
  | sumulh (sw : Bool) (d : BitVec 6) (x : Src) (y : Src)
  /-- SMIN (R98): Uniform signed minimum. -/
  | smin (sw : Bool) (d : BitVec 6) (x : Src) (y : Src)
  /-- SMAX (R98): Uniform signed maximum. -/
  | smax (sw : Bool) (d : BitVec 6) (x : Src) (y : Src)
  /-- SUMIN (R98): Uniform unsigned minimum. -/
  | sumin (sw : Bool) (d : BitVec 6) (x : Src) (y : Src)
  /-- SUMAX (R98): Uniform unsigned maximum. -/
  | sumax (sw : Bool) (d : BitVec 6) (x : Src) (y : Src)
  /-- SAND (R98): Uniform bitwise AND. -/
  | sand (sw : Bool) (d : BitVec 6) (x : Src) (y : Src)
  /-- SOR (R98): Uniform bitwise OR. -/
  | sor (sw : Bool) (d : BitVec 6) (x : Src) (y : Src)
  /-- SXOR (R98): Uniform bitwise exclusive OR. -/
  | sxor (sw : Bool) (d : BitVec 6) (x : Src) (y : Src)
  /-- SSHL (R98): Uniform shift left. -/
  | sshl (sw : Bool) (d : BitVec 6) (x : Src) (y : Src)
  /-- SSHR (R98): Uniform logical shift right. -/
  | sshr (sw : Bool) (d : BitVec 6) (x : Src) (y : Src)
  /-- SSRA (R98): Uniform arithmetic shift right. -/
  | ssra (sw : Bool) (d : BitVec 6) (x : Src) (y : Src)
  /-- SMOV (R98): Uniform register move. -/
  | smov (sw : Bool) (d : BitVec 6) (x : Src)
  /-- SADDI (R98): Uniform add immediate. -/
  | saddi (sw : Bool) (d : BitVec 6) (x : Src) (i : BitVec 8)
  /-- SSUBI (R98): Uniform subtract immediate. -/
  | ssubi (sw : Bool) (d : BitVec 6) (x : Src) (i : BitVec 8)
  /-- SMULI (R98): Uniform multiply immediate. -/
  | smuli (sw : Bool) (d : BitVec 6) (x : Src) (i : BitVec 8)
  /-- SMULHI (R98): Uniform signed high multiply immediate. -/
  | smulhi (sw : Bool) (d : BitVec 6) (x : Src) (i : BitVec 8)
  /-- SUMULHI (R98): Uniform unsigned high multiply immediate. -/
  | sumulhi (sw : Bool) (d : BitVec 6) (x : Src) (i : BitVec 8)
  /-- SMINI (R98): Uniform signed minimum immediate. -/
  | smini (sw : Bool) (d : BitVec 6) (x : Src) (i : BitVec 8)
  /-- SMAXI (R98): Uniform signed maximum immediate. -/
  | smaxi (sw : Bool) (d : BitVec 6) (x : Src) (i : BitVec 8)
  /-- SUMINI (R98): Uniform unsigned minimum immediate. -/
  | sumini (sw : Bool) (d : BitVec 6) (x : Src) (i : BitVec 8)
  /-- SUMAXI (R98): Uniform unsigned maximum immediate. -/
  | sumaxi (sw : Bool) (d : BitVec 6) (x : Src) (i : BitVec 8)
  /-- SANDI (R98): Uniform AND immediate. -/
  | sandi (sw : Bool) (d : BitVec 6) (x : Src) (i : BitVec 8)
  /-- SORI (R98): Uniform OR immediate. -/
  | sori (sw : Bool) (d : BitVec 6) (x : Src) (i : BitVec 8)
  /-- SXORI (R98): Uniform XOR immediate. -/
  | sxori (sw : Bool) (d : BitVec 6) (x : Src) (i : BitVec 8)
  /-- SSHLI (R98): Uniform shift left immediate. -/
  | sshli (sw : Bool) (d : BitVec 6) (x : Src) (i : BitVec 8)
  /-- SSHRI (R98): Uniform logical shift right immediate. -/
  | sshri (sw : Bool) (d : BitVec 6) (x : Src) (i : BitVec 8)
  /-- SSRAI (R98): Uniform arithmetic shift right immediate. -/
  | ssrai (sw : Bool) (d : BitVec 6) (x : Src) (i : BitVec 8)
  /-- SMOVI (R98): Writes an immediate to a uniform register. -/
  | smovi (sw : Bool) (d : BitVec 6) (i : BitVec 8)
  /-- MOV (R102): Copies a vector register. -/
  | mov (sw : Bool) (d : BitVec 6) (x : Src)
  /-- VFROMS (R102): Copies a uniform register to every active lane. -/
  | vfroms (sw : Bool) (d : BitVec 6) (x : Src)
  /-- SFROMV (R103): Copies x of the lowest active lane to a uniform register. -/
  | sfromv (sw : Bool) (d : BitVec 6) (x : Src)
  /-- SEL (R103): Selects x or y by the selector predicate. -/
  | sel (sw : Bool) (d : BitVec 6) (x : Src) (y : Src)
  /-- PAND (R102): Predicate AND. -/
  | pand (sw : Bool) (d : BitVec 3) (x : BitVec 3) (y : BitVec 3)
  /-- POR (R102): Predicate OR. -/
  | por (sw : Bool) (d : BitVec 3) (x : BitVec 3) (y : BitVec 3)
  /-- PXOR (R102): Predicate exclusive OR. -/
  | pxor (sw : Bool) (d : BitVec 3) (x : BitVec 3) (y : BitVec 3)
  /-- PNOT (R102): Predicate complement. -/
  | pnot (sw : Bool) (d : BitVec 3) (x : BitVec 3)
  /-- PTOV (R102): Writes a predicate as 0 or 1 to a vector register. -/
  | ptov (sw : Bool) (d : BitVec 6) (x : BitVec 3)
  /-- VTOP (R102): Sets a predicate if the vector value is nonzero. -/
  | vtop (sw : Bool) (d : BitVec 3) (x : Src)
  /-- RDID (R104): Reads the identifier selected by code. -/
  | rdid (sw : Bool) (d : BitVec 6) (c : BitVec 8)
  /-- RDST (R105): Reads a state register. -/
  | rdst (sw : Bool) (d : BitVec 6) (n : BitVec 8)
  /-- WRST (R105): Writes a state register from the lowest active lane, taking effect at commit. -/
  | wrst (sw : Bool) (n : BitVec 8) (y : Src)
  /-- CLOCK (R107): Reads the low word of the device cycle counter. -/
  | clock (sw : Bool) (d : BitVec 6)
  /-- ADR (R108): Writes a PC-relative instruction address. -/
  | adr (sw : Bool) (d : BitVec 6) (o : BitVec 16)
  /-- NOP (R109): Retires with no effect. -/
  | nop (sw : Bool)
  /-- LD8 (R197): Loads a byte zero-extended. -/
  | ld8 (sw : Bool) (d : BitVec 6) (x : Src) (o : BitVec 8)
  /-- LD8S (R197): Loads a byte sign-extended. -/
  | ld8s (sw : Bool) (d : BitVec 6) (x : Src) (o : BitVec 8)
  /-- LD16 (R197): Loads a half-word zero-extended. -/
  | ld16 (sw : Bool) (d : BitVec 6) (x : Src) (o : BitVec 8)
  /-- LD16S (R197): Loads a half-word sign-extended. -/
  | ld16s (sw : Bool) (d : BitVec 6) (x : Src) (o : BitVec 8)
  /-- LD32 (R197): Loads a word from cluster-local memory. -/
  | ld32 (sw : Bool) (d : BitVec 6) (x : Src) (o : BitVec 8)
  /-- LD64 (R197): Loads two words into a register pair. -/
  | ld64 (sw : Bool) (d : BitVec 5) (x : Src) (o : BitVec 8)
  /-- LD128 (R197): Loads four words into four registers. -/
  | ld128 (sw : Bool) (d : BitVec 4) (x : Src) (o : BitVec 8)
  /-- LDFE (R199): Loads a full word, waiting while it is empty. -/
  | ldfe (sw : Bool) (d : BitVec 6) (x : Src) (o : BitVec 8)
  /-- LDFT (R199): Loads a full word, trapping with EMPTY_WORD if empty. -/
  | ldft (sw : Bool) (d : BitVec 6) (x : Src) (o : BitVec 8)
  /-- LDFC (R199): Loads a full word and marks it empty, waiting while empty. -/
  | ldfc (sw : Bool) (d : BitVec 6) (x : Src) (o : BitVec 8)
  /-- LDS32 (R202): Loads a word into a uniform register once per issue. -/
  | lds32 (sw : Bool) (d : BitVec 6) (x : Src) (o : BitVec 8)
  /-- LDTAG (R200): Reads the full/empty and dirty bits of a word. -/
  | ldtag (sw : Bool) (d : BitVec 6) (x : Src) (o : BitVec 8)
  /-- ST8 (R197): Stores a byte. -/
  | st8 (sw : Bool) (d : BitVec 6) (x : Src) (o : BitVec 8)
  /-- ST16 (R197): Stores a half-word. -/
  | st16 (sw : Bool) (d : BitVec 6) (x : Src) (o : BitVec 8)
  /-- ST32 (R197): Stores a word into the chunk's store buffer. -/
  | st32 (sw : Bool) (d : BitVec 6) (x : Src) (o : BitVec 8)
  /-- ST64 (R197): Stores a register pair. -/
  | st64 (sw : Bool) (d : BitVec 5) (x : Src) (o : BitVec 8)
  /-- ST128 (R197): Stores four registers. -/
  | st128 (sw : Bool) (d : BitVec 4) (x : Src) (o : BitVec 8)
  /-- STF (R201): Stores a word and marks it full and dirty. -/
  | stf (sw : Bool) (d : BitVec 6) (x : Src) (o : BitVec 8)
  /-- STE (R201): Marks a word empty. -/
  | ste (sw : Bool) (x : Src) (o : BitVec 8)
  /-- STS32 (R202): Stores a uniform register once per issue. -/
  | sts32 (sw : Bool) (d : BitVec 6) (x : Src) (o : BitVec 8)
  /-- STCD (R201): Clears a word's dirty bit. -/
  | stcd (sw : Bool) (x : Src) (o : BitVec 8)
  /-- AADD (R205): Atomic add as a chunk of its own. -/
  | aadd (sw : Bool) (d : BitVec 6) (x : Src) (y : Src)
  /-- AMIN (R205): Atomic signed minimum. -/
  | amin (sw : Bool) (d : BitVec 6) (x : Src) (y : Src)
  /-- AMAX (R205): Atomic signed maximum. -/
  | amax (sw : Bool) (d : BitVec 6) (x : Src) (y : Src)
  /-- AMINN (R205): Atomic unsigned minimum. -/
  | aminn (sw : Bool) (d : BitVec 6) (x : Src) (y : Src)
  /-- AMAXN (R205): Atomic unsigned maximum. -/
  | amaxn (sw : Bool) (d : BitVec 6) (x : Src) (y : Src)
  /-- AAND (R205): Atomic AND. -/
  | aand (sw : Bool) (d : BitVec 6) (x : Src) (y : Src)
  /-- AOR (R205): Atomic OR. -/
  | aor (sw : Bool) (d : BitVec 6) (x : Src) (y : Src)
  /-- AXOR (R205): Atomic exclusive OR. -/
  | axor (sw : Bool) (d : BitVec 6) (x : Src) (y : Src)
  /-- AXCH (R205): Atomic exchange. -/
  | axch (sw : Bool) (d : BitVec 6) (x : Src) (y : Src)
  /-- ACAS (R205): Atomic compare-and-swap against the prior destination. -/
  | acas (sw : Bool) (d : BitVec 6) (x : Src) (y : Src)
  /-- AFADD (R205): Atomic FP32 add. -/
  | afadd (sw : Bool) (d : BitVec 6) (x : Src) (y : Src)
  /-- AINCW (R205): Atomic increment with wrap to 0 at the bound. -/
  | aincw (sw : Bool) (d : BitVec 6) (x : Src) (y : Src)
  /-- GRED_RADDI (R207): Contributes an integer add to a global extent word via the atomic buffer. -/
  | gredRaddi (sw : Bool) (n : BitVec 4) (x : Src) (y : Src)
  /-- GRED_RADDF (R207): Contributes an FP32 add reduction. -/
  | gredRaddf (sw : Bool) (n : BitVec 4) (x : Src) (y : Src)
  /-- GRED_RMINI (R207): Contributes a signed minimum reduction. -/
  | gredRmini (sw : Bool) (n : BitVec 4) (x : Src) (y : Src)
  /-- GRED_RMAXI (R207): Contributes a signed maximum reduction. -/
  | gredRmaxi (sw : Bool) (n : BitVec 4) (x : Src) (y : Src)
  /-- GRED_RMINF (R207): Contributes an FP32 minimum reduction. -/
  | gredRminf (sw : Bool) (n : BitVec 4) (x : Src) (y : Src)
  /-- GRED_RMAXF (R207): Contributes an FP32 maximum reduction. -/
  | gredRmaxf (sw : Bool) (n : BitVec 4) (x : Src) (y : Src)
  /-- GRED_RAND (R207): Contributes an AND reduction. -/
  | gredRand (sw : Bool) (n : BitVec 4) (x : Src) (y : Src)
  /-- GRED_ROR (R207): Contributes an OR reduction. -/
  | gredRor (sw : Bool) (n : BitVec 4) (x : Src) (y : Src)
  /-- GRED_RXOR (R207): Contributes an XOR reduction. -/
  | gredRxor (sw : Bool) (n : BitVec 4) (x : Src) (y : Src)
  /-- GRED_RADDB2 (R207): Contributes a packed BF16 add reduction. -/
  | gredRaddb2 (sw : Bool) (n : BitVec 4) (x : Src) (y : Src)
  /-- GRED_RADDI64 (R207): Contributes a 64-bit integer add reduction. -/
  | gredRaddi64 (sw : Bool) (n : BitVec 4) (x : Src) (y : BitVec 5) (uy : Use)
  /-- BR (R117): Branches unconditionally. -/
  | br (sw : Bool) (o : BitVec 19)
  /-- BRT (R117): Branches in threads whose predicate is 1. -/
  | brt (sw : Bool) (p : BitVec 3) (o : BitVec 19)
  /-- BRF (R117): Branches in threads whose predicate is 0. -/
  | brf (sw : Bool) (p : BitVec 3) (o : BitVec 19)
  /-- BRANY (R117): Branches the issue set if any thread's predicate is 1. -/
  | brany (sw : Bool) (p : BitVec 3) (o : BitVec 19)
  /-- BRALL (R117): Branches the issue set if every thread's predicate is 1. -/
  | brall (sw : Bool) (p : BitVec 3) (o : BitVec 19)
  /-- CALL (R117): Links in v63 and branches. -/
  | call (sw : Bool) (o : BitVec 19)
  /-- JR (R119): Jumps to each lane's register target. -/
  | jr (sw : Bool) (x : Src)
  /-- CALLR (R119): Links in v63 and jumps to each lane's register target. -/
  | callr (sw : Bool) (x : Src)
  /-- RET (R119): Jumps to each lane's v63. -/
  | ret (sw : Bool)
  /-- MJOIN (R121): Makes the issue set's threads members of a mask. -/
  | mjoin (sw : Bool) (m : BitVec 4)
  /-- MLEAVE (R121): Removes the issue set's threads from a mask and re-evaluates release. -/
  | mleave (sw : Bool) (m : BitVec 4)
  /-- MWAIT (R122): Waits on a reconvergence mask until every member waits. -/
  | mwait (sw : Bool) (m : BitVec 4)
  /-- MSET (R121): Sets mask members from a uniform register pair. -/
  | mset (sw : Bool) (m : BitVec 4) (j : BitVec 5)
  /-- MGET (R121): Reads mask members into a uniform register pair. -/
  | mget (sw : Bool) (m : BitVec 4) (j : BitVec 5)
  /-- MCLR (R121): Empties a mask. -/
  | mclr (sw : Bool) (m : BitVec 4)
  /-- MTEST (R121): Sets a predicate per thread if its lane is a member. -/
  | mtest (sw : Bool) (m : BitVec 4) (d : BitVec 3)
  /-- BART (R211): Team barrier; ends the part. -/
  | bart (sw : Bool)
  /-- BARG (R211): Gang barrier; ends the part. -/
  | barg (sw : Bool)
  /-- PHASE (R213): Arrives the thread at the coming boundary naming an exchange program. -/
  | phase (sw : Bool) (e : BitVec 18)
  /-- CHEND (R214): Ends the thread's chunk part. -/
  | chend (sw : Bool)
  /-- FENL (R214): Ends the part and waits until the group's earlier chunks commit. -/
  | fenl (sw : Bool)
  /-- BARTC (R212): Counted team barrier releasing generations of c threads. -/
  | bartc (sw : Bool) (k : BitVec 4) (c : BitVec 18)
  /-- SPAWN (R129): Reserves a spawn record per active lane, blocking when none is free. -/
  | spawn (sw : Bool) (x : Src) (y : Src)
  /-- EXIT (R131): Ends each active lane's thread. -/
  | exit (sw : Bool)
  /-- YIELD (R133): Gives up the issue slot for at least one cycle. -/
  | yield (sw : Bool)
  /-- SLEEP (R133): Stops the issue set issuing for a number of cycles. -/
  | sleep (sw : Bool) (x : Src)
  /-- MMA (R330): Multiplies an A fragment by a tile and accumulates into an accumulator. -/
  | mma (sw : Bool) (a : BitVec 4) (b : BitVec 3) (t : BitVec 4) (r : BitVec 1) (p : BitVec 3) (c : BitVec 4) (k : BitVec 4)
  /-- TLD (R336): Loads 2,048 bytes into a tile. -/
  | tld (sw : Bool) (x : Src) (i : BitVec 4)
  /-- TLDT8 (R338): Loads a tile transposed through a handle, 1-byte elements. -/
  | tldt8 (sw : Bool) (d : BitVec 6) (x : Src) (i : BitVec 4)
  /-- TLDT16 (R338): Loads a tile transposed through a handle, 2-byte elements. -/
  | tldt16 (sw : Bool) (d : BitVec 6) (x : Src) (i : BitVec 4)
  /-- TST (R337): Stores half a tile's data or its sidecar. -/
  | tst (sw : Bool) (x : Src) (i : BitVec 4) (q : BitVec 4)
  /-- TZERO (R336): Zeroes a tile and sets its sidecar to 0x7F. -/
  | tzero (sw : Bool) (i : BitVec 4)
  /-- TSCL (R336): Loads a tile's sidecar. -/
  | tscl (sw : Bool) (x : Src) (i : BitVec 4)
  /-- AZERO (R336): Zeroes an accumulator. -/
  | azero (sw : Bool) (i : BitVec 4)
  /-- ARD (R336): Reads eight accumulator elements per lane into vector registers. -/
  | ard (sw : Bool) (d : BitVec 3) (i : BitVec 4) (q : BitVec 3)
  /-- AWR (R336): Writes eight accumulator elements per lane from vector registers. -/
  | awr (sw : Bool) (x : BitVec 3) (ux : Use) (i : BitVec 4) (q : BitVec 3)
  /-- ALD (R336): Loads four accumulator elements per lane from memory. -/
  | ald (sw : Bool) (x : Src) (i : BitVec 4) (q : BitVec 4)
  /-- AST (R336): Stores four accumulator elements per lane to memory. -/
  | ast (sw : Bool) (x : Src) (i : BitVec 4) (q : BitVec 4)
  /-- ACVB (R339): Converts accumulator elements to packed BF16. -/
  | acvb (sw : Bool) (d : BitVec 4) (i : BitVec 4) (q : BitVec 3)
  /-- ACV8 (R339): Converts accumulator elements to scaled FP8 and updates amax. -/
  | acv8 (sw : Bool) (d : BitVec 5) (i : BitVec 4) (q : BitVec 4)
  /-- TMOV (R336): Copies one tile to another. -/
  | tmov (sw : Bool) (i : BitVec 4) (q : BitVec 4)
  /-- RNG (R316): Writes CHX of the team key, stream and counter. -/
  | rng (sw : Bool) (d : BitVec 6) (x : Src)
  /-- RNG2 (R316): Writes CHX with an explicit high counter word. -/
  | rng2 (sw : Bool) (d : BitVec 6) (x : Src) (y : Src)
  /-- UNIF (R316): Writes a uniform FP32 value in [0, 1). -/
  | unif (sw : Bool) (d : BitVec 6) (x : Src)
  /-- BERN (R316): Writes a Bernoulli draw to a vector register. -/
  | bern (sw : Bool) (d : BitVec 6) (x : Src) (y : Src)
  /-- BERNP (R316): Writes a Bernoulli draw to a predicate. -/
  | bernp (sw : Bool) (d : BitVec 3) (x : Src) (y : Src)
  /-- SRBF (R317): Stochastically rounds FP32 to BF16. -/
  | srbf (sw : Bool) (d : BitVec 6) (x : Src) (y : Src)
  /-- SRF16 (R318): Stochastically rounds FP32 to FP16. -/
  | srf16 (sw : Bool) (d : BitVec 6) (x : Src) (y : Src)
  /-- SRE4 (R318): Stochastically rounds scaled FP32 to E4M3. -/
  | sre4 (sw : Bool) (d : BitVec 6) (x : Src) (y : Src)
  /-- SRE5 (R318): Stochastically rounds scaled FP32 to E5M2. -/
  | sre5 (sw : Bool) (d : BitVec 6) (x : Src) (y : Src)
  /-- SAMPLE (R321): Samples one index from logits under temperature, top-k and top-p. -/
  | sample (sw : Bool) (d : BitVec 6) (x : Src) (y : Src)
  /-- TOPK (R323): Writes the indices of the largest logits. -/
  | topk (sw : Bool) (d : BitVec 6) (x : Src) (y : Src)
  /-- ARGMAX (R322): Returns the first maximal logit index. -/
  | argmax (sw : Bool) (d : BitVec 6) (x : Src) (y : Src)
  /-- FORKC (R239): Forks a copy program on a queue at commit. -/
  | forkc (sw : Bool) (q : BitVec 2) (x : Src)
  /-- FORKL (R239): Forks a lattice program at commit. -/
  | forkl (sw : Bool) (l : BitVec 1) (x : Src)
  /-- RDV (R239): Waits for the group's committed forks on a unit to end. -/
  | rdv (sw : Bool) (u : BitVec 3)
  /-- ERSET (R240): Writes an engine register of a queue at commit. -/
  | erset (sw : Bool) (n : BitVec 5) (q : BitVec 2) (y : BitVec 5) (uy : Use)
  /-- ERGET (R240): Reads an engine register into a vector pair. -/
  | erget (sw : Bool) (d : BitVec 5) (q : BitVec 2) (n : BitVec 5)
  /-- HLOAD (R259): Loads a shape record into a handle-table slot. -/
  | hload (sw : Bool) (d : BitVec 6) (x : Src) (y : Src)
  /-- HDROP (R260): Frees a handle's slot at commit. -/
  | hdrop (sw : Bool) (x : Src)
  /-- ESTAT (R241): Reads the status of the group's latest fork on a unit. -/
  | estat (sw : Bool) (d : BitVec 6) (u : BitVec 3)
  /-- LCFG (R354): Loads the lattice configuration at commit. -/
  | lcfg (sw : Bool) (x : BitVec 4)
  /-- LNLD (R355): Loads node descriptors. -/
  | lnld (sw : Bool) (d : BitVec 4) (x : BitVec 4) (y : BitVec 4)
  /-- LJLD (R355): Loads couplings J. -/
  | ljld (sw : Bool) (d : BitVec 4) (x : BitVec 4) (y : BitVec 4)
  /-- LHLD (R355): Loads biases h. -/
  | lhld (sw : Bool) (d : BitVec 4) (x : BitVec 4) (y : BitVec 4)
  /-- LSLD (R355): Loads node states. -/
  | lsld (sw : Bool) (d : BitVec 4) (x : BitVec 4) (y : BitVec 4)
  /-- LSST (R355): Stores node states to local memory. -/
  | lsst (sw : Bool) (d : BitVec 4) (x : BitVec 4) (y : BitVec 4)
  /-- LCLMP (R355): Loads node clamps. -/
  | lclmp (sw : Bool) (d : BitVec 4) (x : BitVec 4) (y : BitVec 4)
  /-- LSWP (R356): Runs a number of lattice sweeps. -/
  | lswp (sw : Bool) (d : BitVec 4) (x : BitVec 4)
  /-- LCNT (R355): Stores node counts to local memory. -/
  | lcnt (sw : Bool) (d : BitVec 4) (x : BitVec 4) (y : BitVec 4)
  /-- LRSTC (R353): Clears counts and sets sweep_ctr. -/
  | lrstc (sw : Bool) (x : BitVec 4)
  /-- LGMAP (R355): Loads stencils. -/
  | lgmap (sw : Bool) (d : BitVec 4) (x : BitVec 4) (y : BitVec 4)
  /-- LGREF (R355): Sets ghost slot sources. -/
  | lgref (sw : Bool) (d : BitVec 4) (x : BitVec 4) (y : BitVec 4)
  /-- LHLTH (R358): Runs the physical health test and writes a report. -/
  | lhlth (sw : Bool) (x : BitVec 4) (y : BitVec 4)
  /-- LKEY (R353): Loads the lattice key. -/
  | lkey (sw : Bool) (x : BitVec 4)
  /-- LALU_LI (R360): Loads a 12-bit immediate into a lattice register. -/
  | laluLi (sw : Bool) (d : BitVec 4) (imm : BitVec 12)
  /-- LALU_ADD (R360): Adds lattice registers. -/
  | laluAdd (sw : Bool) (d : BitVec 4) (x : BitVec 4)
  /-- LBRC_LOOP (R361): Pushes a lattice loop address. -/
  | lbrcLoop (sw : Bool)
  /-- LBRC_NEXT (R361): Decrements and loops or pops. -/
  | lbrcNext (sw : Bool) (d : BitVec 4)
  /-- LBRC_SIG (R361): Posts an LSIG record after earlier operations commit. -/
  | lbrcSig (sw : Bool) (x : BitVec 4)
  /-- LBRC_END (R361): Ends the lattice program with DONE. -/
  | lbrcEnd (sw : Bool)
  /-- XCP (R245): Copies bytes within local memory. -/
  | xcp (sw : Bool) (d : BitVec 5) (x : BitVec 5) (y : BitVec 5)
  /-- XCPT (R246): Transposing copy through a handle. -/
  | xcpt (sw : Bool) (d : BitVec 5) (x : BitVec 5)
  /-- XGET (R245): Copies global to local memory in an exchange. -/
  | xget (sw : Bool) (d : BitVec 5) (x : BitVec 5) (y : BitVec 5)
  /-- XPUT (R245): Copies local to global memory in an exchange. -/
  | xput (sw : Bool) (d : BitVec 5) (x : BitVec 5) (y : BitVec 5)
  /-- XPUTD (R245): Copies only dirty local words to global memory. -/
  | xputd (sw : Bool) (d : BitVec 5) (x : BitVec 5) (y : BitVec 5)
  /-- XRED (R247): Contributes words to be folded into global memory at step 3. -/
  | xred (sw : Bool) (d : BitVec 5) (x : BitVec 5) (y : BitVec 5)
  /-- XGTH (R248): Gathers global elements by index. -/
  | xgth (sw : Bool) (d : BitVec 5) (x : BitVec 5) (y : BitVec 5)
  /-- XSCT (R248): Scatters elements to global memory by index. -/
  | xsct (sw : Bool) (d : BitVec 5) (x : BitVec 5) (y : BitVec 5)
  /-- XBC (R249): Broadcasts global bytes to local memory of selected clusters. -/
  | xbc (sw : Bool) (d : BitVec 5) (x : BitVec 5) (y : BitVec 5)
  /-- XLAT (R249): Copies lattice node states into ghost slots. -/
  | xlat (sw : Bool) (d : BitVec 5) (x : BitVec 5) (y : BitVec 5)
  /-- XFAB (R250): Sends a fabric write to another device's window. -/
  | xfab (sw : Bool) (d : BitVec 5) (x : BitVec 5) (y : BitVec 5)
  /-- XFEN (R252): Waits for a queue's programs to end and joins it. -/
  | xfen (sw : Bool) (x : BitVec 5)
  /-- XSIG (R253): Increments an event counter after earlier operations perform. -/
  | xsig (sw : Bool) (x : BitVec 5) (y : BitVec 5)
  /-- XWTE (R253): Waits until an event counter reaches a threshold. -/
  | xwte (sw : Bool) (x : BitVec 5) (y : BitVec 5)
  /-- XALU_LI (R254): Loads a sign-extended 12-bit immediate into an engine register. -/
  | xaluLi (sw : Bool) (d : BitVec 5) (imm : BitVec 12)
  /-- XALU_ADD (R254): Adds engine registers. -/
  | xaluAdd (sw : Bool) (d : BitVec 5) (x : BitVec 5)
  /-- XALU_SHL (R254): Shifts an engine register left. -/
  | xaluShl (sw : Bool) (d : BitVec 5) (imm : BitVec 12)
  /-- XALU_MUL (R254): Multiplies engine registers. -/
  | xaluMul (sw : Bool) (d : BitVec 5) (x : BitVec 5)
  /-- XBRC_LOOP (R255): Pushes a copy-program loop address. -/
  | xbrcLoop (sw : Bool)
  /-- XBRC_NEXT (R255): Decrements and loops or pops. -/
  | xbrcNext (sw : Bool) (d : BitVec 5)
  /-- XBRC_END (R255): Ends the copy or exchange program with DONE. -/
  | xbrcEnd (sw : Bool)
  /-- TRAP (R390): Raises USER_TRAP in active lanes. -/
  | trap (sw : Bool) (c : BitVec 8)
  /-- TRET (R391): Returns delivered lanes from the handler, reissuing or resuming. -/
  | tret (sw : Bool)
  /-- BRK (R390): Raises BREAKPOINT in active lanes. -/
  | brk (sw : Bool) (c : BitVec 8)
  /-- SETKEY (R393): Writes keylo and keyhi together. -/
  | setkey (sw : Bool) (x : Src) (y : Src)
  /-- SETSTRM (R393): Writes the stream word. -/
  | setstrm (sw : Bool) (x : Src)
  /-- RDCNT (R394): Reads a launch FP event counter. -/
  | rdcnt (sw : Bool) (d : BitVec 5) (n : BitVec 5)
  /-- AMAXR (R395): Reads and clears amax in one instruction. -/
  | amaxr (sw : Bool) (d : BitVec 6)
  /-- RDTRAP (R396): Reads a field of the FP trap report. -/
  | rdtrap (sw : Bool) (d : BitVec 6) (k : BitVec 2)
  /-- WRTRAP (R392): Sets trap_pc for the resume point. -/
  | wrtrap (sw : Bool) (y : Src)
  /-- SETHND (R393): Writes trap_handler. -/
  | sethnd (sw : Bool) (x : Src)
  /-- KILLT (R397): Kills the executing team. -/
  | killt (sw : Bool)
  /-- LAUNCH (R140): Validates a launch record and enqueues it with a launch number. -/
  | launch (sw : Bool) (d : BitVec 6) (x : BitVec 6)
  /-- EVWAIT (R147): Waits for an event record or a time-out. -/
  | evwait (sw : Bool) (d : BitVec 6) (x : BitVec 6)
  /-- EVPOP (R147): Removes the oldest event record into control memory. -/
  | evpop (sw : Bool) (d : BitVec 6) (x : BitVec 6)
  /-- EVSIG (R147): Posts a USER record to a cluster or the host. -/
  | evsig (sw : Bool) (d : BitVec 6) (x : BitVec 6) (y : BitVec 6)
  /-- QCFG (R148): Configures a queue or a class. -/
  | qcfg (sw : Bool) (d : BitVec 6) (x : BitVec 6) (y : BitVec 6)
  /-- QFENCE (R154): Waits until earlier launches of a queue have ended and been chained. -/
  | qfence (sw : Bool) (d : BitVec 6) (x : BitVec 6)
  /-- QDIG (R154): Reads a queue's running hash. -/
  | qdig (sw : Bool) (d : BitVec 5) (x : BitVec 6)
  /-- PREEMPT (R155): Requests a launch to be saved out at the next boundary. -/
  | preempt (sw : Bool) (d : BitVec 6) (x : BitVec 6)
  /-- KILL (R156): Aborts a launch or kills its late teams. -/
  | kill (sw : Bool) (d : BitVec 6) (x : BitVec 6) (y : BitVec 6)
  /-- PTOUT (R158): Sets or extends the straggler or exchange time-out. -/
  | ptout (sw : Bool) (d : BitVec 6) (x : BitVec 6) (y : BitVec 6)
  /-- CKPT (R421): Starts, waits for or polls a partition checkpoint. -/
  | ckpt (sw : Bool) (d : BitVec 6) (x : BitVec 6) (y : BitVec 6)
  /-- RSTOR (R423): Restores the partition from a checkpoint image. -/
  | rstor (sw : Bool) (d : BitVec 6) (x : BitVec 6)
  /-- PHASEC (R159): Reads a boundary or phase counter or the partition state. -/
  | phasec (sw : Bool) (d : BitVec 5) (x : BitVec 6)
  /-- ILLEGAL_INSTRUCTION (R88): A group issues a word that is not an instruction for it and its threads trap. -/
  | illegalInstruction
  /-- CTL_ILLEGAL (R89): A control core issues an illegal word and stops its program, posting an event. -/
  | ctlIllegal
  /-- ENGINE_ILLEGAL (R90): A sequencer meets an illegal word and ends the program, posting an event. -/
  | engineIllegal
  /-- RESULT_RETURN (R46): A variable-latency result returns and is written or dropped by its generation tag. -/
  | resultReturn (group flight : Nat)
  /-- CHUNK_COMMIT (R178): The commit arbiter commits a set of ended chunks, making their effects visible. -/
  | chunkCommit (cluster : Nat)
  /-- SPAWN_BIN_TIMER (R34): A spawn bin's timer expires in throughput mode and flushes the team's records into a group. -/
  | spawnBinTimer (core bin : Nat)
  /-- SLEEP_EXPIRY (R133): A sleeping issue set's count elapses and it may issue again. -/
  | sleepExpiry (group set : Nat)
  /-- REPLAY_DIVERGE (R190): A replayed chunk is not ready within 2^20 cycles, or its group has passed it, and the launch aborts. -/
  | replayDiverge (launch cluster : Nat)
  /-- BOUNDARY_OPEN (R162): A boundary opens at a first arrival or, in an idle partition, for boundary work. -/
  | boundaryOpen (part : Nat)
  /-- EXCHANGE_OPEN (R165): All cores and span members have arrived; held fabric writes apply, GRED buffers drain and exchange programs start. -/
  | exchangeOpen (part : Nat)
  /-- BOUNDARY_CLOSE (R165): Every exchange program has ended; XRED folds, counters increment, saves, snapshots and placement run, and compute resumes. -/
  | boundaryClose (part : Nat)
  /-- BOUNDARY_MESSAGE (R167): A span member's arrival or end message is received. -/
  | boundaryMessage (part member plane count : Nat) (atEnd : Bool)
  /-- STRAGGLER (R157): The straggler time-out expires, late cores are reported and it re-arms. -/
  | straggler (part : Nat)
  /-- EXCHANGE_LATE (R157): The exchange time-out expires, late cores are reported and it re-arms. -/
  | exchangeLate (part : Nat)
  /-- PHASE_MAX_EXPIRY (R400): A core has not arrived phase_max cycles after compute begin and is reported late. -/
  | phaseMaxExpiry (launch : Nat)
  /-- EVWAIT_TIMEOUT (R147): An EVWAIT's cycle count elapses and it returns the record count. -/
  | evwaitTimeout (cluster : Nat)
  /-- ENGINE_PROGRAM_START (R235): A unit becomes free and the program at the head of its list starts with its register copy. -/
  | engineProgramStart (core unit : Nat)
  /-- FABRIC_WRITE_ARRIVAL (R231): An XFAB write arrives at its home and is held or refused. -/
  | fabricWriteArrival (w : FabWrite)
  /-- TRAP_DELIVERY (R388): A parked sub-group is sent to the handler, or the team is killed without one. -/
  | trapDelivery (group : Nat)
  /-- FP_TRAP_WINDOW_CLOSE (R287): An FP trap window closes after 256 cycles or at the quantum's commit. -/
  | fpTrapWindowClose (team : Nat)
  /-- STRIKE_REPORT (R409): A strike report for a region squashes or re-runs the affected work. -/
  | strikeReport (region : Region)
  /-- SCRUB (R411): The scrubber reads local and shared memory words through their codes. -/
  | scrub (find : Finding)
  /-- CHECKPOINT_DRAIN_END (R422): The last checkpoint byte is acknowledged and the complete flag written. -/
  | checkpointDrainEnd (part : Nat)
  /-- CHECKPOINT_DRAIN_TIMEOUT (R422): The checkpoint target refuses or stays unreachable for 2^24 cycles and the drain fails. -/
  | checkpointDrainTimeout (part : Nat)
  /-- THROTTLE (R24): Power or temperature reaches its limit and issue stalls start. -/
  | throttle
  /-- THROTTLE_END (R24): Power and temperature fall below their release values and throttling ends. -/
  | throttleEnd
  /-- THERMAL_TRIP (R425): A junction temperature reaches 110 C and the device freezes. -/
  | thermalTrip
  /-- FRZ_N_FALL (R425): FRZ_N goes low and every clock stops within 8 cycles. -/
  | frzNFall
  /-- FRZ_N_RISE (R427): A rising edge on FRZ_N resumes a frozen device. -/
  | frzNRise
  /-- IDCODE (R426): Test access port instruction that shifts out the device identifier. -/
  | idcode
  /-- SEGSEL (R426): Test access port instruction that selects a segment. -/
  | segsel (segment : Nat)
  /-- SEGREAD (R426): Test access port instruction that shifts the selected segment out. -/
  | segread
  /-- BYPASS (R426): Test access port bypass instruction. -/
  | bypass
  /-- POWER_UP (R442): Power is applied and a cold start begins. -/
  | powerUp (facts : StartFacts)
  /-- POWER_LOSS (R444): Power is lost, cutting off any start or wear-record write. -/
  | powerLoss
  /-- PORST_N (R442): PORST_N held low gives a cold start. -/
  | porstN (facts : StartFacts)
  /-- SRST_N (R442): SRST_N low gives a warm start. -/
  | srstN (facts : StartFacts)
  /-- FREEZE (R432): Management command 1 freezes the device. -/
  | freeze (h : MsgHdr)
  /-- WARM_START (R432): Management command 2 starts a warm start. -/
  | warmStart (h : MsgHdr) (facts : StartFacts)
  /-- COLD_START (R432): Management command 3 starts a cold start, optionally clearing the attempt counter. -/
  | coldStart (h : MsgHdr) (clear : Bool) (facts : StartFacts)
  /-- CLEAR_MONITOR (R432): Management command 4 clears one or all monitors. -/
  | clearMonitor (h : MsgHdr) (index : BitVec 12)
  /-- SET_BINNING (R436): Management command 5 sets a monitor's binning and clears it. -/
  | setBinning (h : MsgHdr) (index : BitVec 12) (log2 : Bool) (base : BitVec 16) (width : BitVec 5)
  /-- RECALIBRATE (R439): Management command 6 recalibrates the lattices of unassigned clusters. -/
  | recalibrate (h : MsgHdr)
  /-- RECALIBRATE_DONE (R439): The recalibration ends, with what each lattice's health test counted, and waiting clusters join their partitions. -/
  | recalibrateDone (counts : List (List Nat))
  /-- PATH_DELAY_MEASUREMENT (R437): A path-delay monitor measures slack every 2^20 cycles. -/
  | pathDelayMeasurement (unit : DelayUnit) (low : Bool)
  /-- TEMPERATURE_SAMPLE (R434): Temperature monitors take a sample every 2^16 cycles. -/
  | temperatureSample (sensor value : Nat)
  /-- HELLO (R383): Opens a Plagan session in the administrator or partition role. -/
  | hello (h : MsgHdr) (role part flags : Nat)
  /-- HELLO_CREATE (R374): An administrator HELLO creates a partition from its descriptor. -/
  | helloCreate (h : MsgHdr) (role flags : Nat) (desc : List Byte)
  /-- HELLO_DESTROY (R374): An administrator HELLO destroys a partition. -/
  | helloDestroy (h : MsgHdr) (role part flags : Nat)
  /-- LOAD (R383): Writes data to unified or control memory. -/
  | load (h : MsgHdr) (space addr : Nat) (data : List Byte)
  /-- LOAD_HOST_PORT_RECORD (R20): An administrator LOAD writes the host-port record for the next start. -/
  | loadHostPortRecord (h : MsgHdr) (data : List Byte)
  /-- READ (R383): Reads unified, control or management memory. -/
  | read (h : MsgHdr) (space addr len : Nat)
  /-- START (R134): Copies a control section into control memory and starts a control program. -/
  | start (h : MsgHdr) (cluster entry replace base image : Nat) (args : List Word)
  /-- XLATE_QUERY (R385): Reports a page's owner, permission, attributes and home. -/
  | xlateQuery (h : MsgHdr) (addr len arg : Nat)
  /-- XLATE_MAP (R378): Maps a range from the quota, zeroing its pages. -/
  | xlateMap (h : MsgHdr) (addr len arg : Nat)
  /-- XLATE_UNMAP (R385): Unmaps a range. -/
  | xlateUnmap (h : MsgHdr) (addr len arg : Nat)
  /-- XLATE_SET_ATTRIBUTES (R385): Changes the page attributes of a range. -/
  | xlateSetAttributes (h : MsgHdr) (addr len arg : Nat)
  /-- XLATE_BIND_FABRIC_WINDOW (R380): Binds or unbinds a fabric window. -/
  | xlateBindFabricWindow (h : MsgHdr) (addr len arg : Nat)
  /-- XLATE_MIGRATE (R227): Requests a range's migration at the next boundary. -/
  | xlateMigrate (h : MsgHdr) (addr len arg : Nat)
  /-- ATOMIC_ADD32 (R230): Host 32-bit atomic add. -/
  | atomicAdd32 (h : MsgHdr) (addr : Nat) (operand compare : DWord)
  /-- ATOMIC_ADD64 (R230): Host 64-bit atomic add. -/
  | atomicAdd64 (h : MsgHdr) (addr : Nat) (operand compare : DWord)
  /-- ATOMIC_SWAP32 (R230): Host 32-bit atomic swap. -/
  | atomicSwap32 (h : MsgHdr) (addr : Nat) (operand compare : DWord)
  /-- ATOMIC_CAS32 (R230): Host 32-bit compare-and-swap. -/
  | atomicCas32 (h : MsgHdr) (addr : Nat) (operand compare : DWord)
  /-- ATOMIC_CAS64 (R230): Host 64-bit compare-and-swap. -/
  | atomicCas64 (h : MsgHdr) (addr : Nat) (operand compare : DWord)
  /-- CKPT_MSG_START (R424): Host Plagan CKPT op 0 starts a checkpoint. -/
  | ckptMsgStart (h : MsgHdr) (desc : List Byte)
  /-- CKPT_MSG_WAIT (R424): Host Plagan CKPT op 1 waits for the drain. -/
  | ckptMsgWait (h : MsgHdr) (desc : List Byte)
  /-- CKPT_MSG_POLL (R424): Host Plagan CKPT op 2 polls the drain. -/
  | ckptMsgPoll (h : MsgHdr) (desc : List Byte)
  /-- CKPT_MSG_RSTOR (R424): Host Plagan CKPT op 3 restores from a checkpoint. -/
  | ckptMsgRstor (h : MsgHdr) (desc : List Byte)
  /-- PLAGAN_ACK (R382): An acknowledgement from the host retires unacknowledged device messages. -/
  | plaganAck (h : MsgHdr)
  /-- RETRANSMIT (R382): An unacknowledged message's timer expires and it is resent. -/
  | retransmit (session : Nat)
  /-- NEIGHBOUR_SOLICITATION (R19): The port answers an IPv6 neighbour solicitation for its addresses. -/
  | neighbourSolicitation (target : Solicitation)
  /-- NON_PLAGAN_FRAME (R19): A frame that is not a Plagan datagram for the device is dropped and counted. -/
  | nonPlaganFrame
  /-- FABRIC_PORT_DOWN (R22): A fabric port goes down and span messages and fabric transfers continue on the remaining planes. -/
  | fabricPortDown (port : Nat)
  /-- FABRIC_PORT_UP (R22): A fabric port that was down becomes usable again and rejoins the live planes. -/
  | fabricPortUp (port : Nat)
  /-- STOP_SIGNAL (R250): A destination lane raises or clears its stop signal, stalling or releasing the XFAB sender. -/
  | stopSignal (port : Nat) (stop : Bool)
  /-- FABRIC_ACKNOWLEDGEMENT (R232): The remote home acknowledges a fabric write or checkpoint drain data, letting XSIG post and waiting writers proceed. -/
  | fabricAcknowledgement (core unit : Nat) (refused : Bool)
  /-- SWEEP_END (R348): A lattice sweep, or the health test, finishes and counts, ghost refresh and sweep_ctr advance. -/
  | sweepEnd (core lattice : Nat)
  /-- MATRIX_OPERATION_COMPLETE (R44): An outstanding MMA or tile operation completes, releasing instructions interlocked on its tile or accumulator. -/
  | matrixOperationComplete (group op : Nat)
  /-- RSTOR_COMPLETE (R423): Every page of the checkpoint image has been read, with the bytes that its target has changed, or could not be (none), and RSTOR or the Plagan CKPT reply returns. -/
  | rstorComplete (part : Nat) (read : Option (List (Nat × Byte)))
  /-- CORRUPT_PLAGAN_MESSAGE (R381): A Plagan message that fails magic, version or check, or names an unheld session, is dropped and counted. -/
  | corruptPlaganMessage
  /-- TRIP_COOLDOWN (R427): After a thermal trip the junction temperature falls 5 K below the trip limit, allowing a pending resume. -/
  | tripCooldown
  /-- CALIBRATION_EXPIRY (R439): A cluster's powered hours exceed its last calibration by 2,160, and its lattice calibration stops being valid. -/
  | calibrationExpiry (hours : Nat)
  deriving DecidableEq, Repr, Inhabited

/-- The next thing that happens in the device: an executor issues its next word, or an event of the opcode table
takes place. -/
inductive Move where
  /-- An issue set of a group issues (06 R110). -/
  | issue (group set : Nat)
  /-- The control core of a cluster issues (04 R85). -/
  | control (cluster : Nat)
  /-- A copy or lattice sequencer issues: unit 0 to 3 a copy queue, 4 and 5 a lattice (11 R238). -/
  | sequencer (core unit : Nat)
  /-- An event. -/
  | event (i : Instr)
  deriving DecidableEq, Repr, Inhabited

end Sys2Proof
end

