-- ==== Sys2Proof/WellFormed.lean ====
section
/-! DEFINITION. Well-formed instructions: the fixed legal values of operand fields that depend on nothing but the
word itself (03 R60, R64, 04 R83, R84 and the instruction chapters). What depends on the kernel's allocation, on the
hints of the run or on the executor is checked when the word issues. -/

namespace Sys2Proof

/-- A source whose use code is not routed (03 R60). -/
def unrouted (x : Src) : Bool := x.use != .routed

/-- The use codes a TILE source accepts: plain and keep (17 R335). -/
def tileUse (u : Use) : Bool := u == .plain || u == .keep

/-- The state registers that WRST may write (02 R49). -/
def wrstLegal (n : Nat) : Bool := n ≤ 4 || n == 8 || n == 9 || n == 10 || n == 17

/-- The checks that hold of every instruction word the decoder accepts; an event has none. -/
def wellFormed (i : Instr) : Bool :=
  match i with
  | .iadd _ _ _ _ => true
  | .isub _ _ _ _ => true
  | .imul _ _ _ _ => true
  | .imulh _ _ _ _ => true
  | .umulh _ _ _ _ => true
  | .imin _ _ _ _ => true
  | .imax _ _ _ _ => true
  | .umin _ _ _ _ => true
  | .umax _ _ _ _ => true
  | .vand _ _ _ _ => true
  | .vor _ _ _ _ => true
  | .vxor _ _ _ _ => true
  | .shl _ _ _ _ => true
  | .shr _ _ _ _ => true
  | .sra _ _ _ _ => true
  | .iaddc _ _ _ _ => true
  | .iaddi _ _ _ _ => true
  | .isubi _ _ _ _ => true
  | .imuli _ _ _ _ => true
  | .imulhi _ _ _ _ => true
  | .umulhi _ _ _ _ => true
  | .imini _ _ _ _ => true
  | .imaxi _ _ _ _ => true
  | .umini _ _ _ _ => true
  | .umaxi _ _ _ _ => true
  | .andi _ _ _ _ => true
  | .ori _ _ _ _ => true
  | .xori _ _ _ _ => true
  | .shli _ _ _ _ => true
  | .shri _ _ _ _ => true
  | .srai _ _ _ _ => true
  | .movi _ _ _ => true
  | .isubb _ _ _ _ => true
  | .iabs _ _ _ => true
  | .ineg _ _ _ => true
  | .vnot _ _ _ => true
  | .clz _ _ _ => true
  | .popc _ _ _ => true
  | .brev _ _ _ => true
  | .bfe _ _ _ _ => true
  | .bfi _ _ _ _ => true
  | .iadds _ _ _ _ => true
  | .isubs _ _ _ _ => true
  | .uadds _ _ _ _ => true
  | .imad _ _ _ _ => true
  | .sad _ _ _ _ => true
  | .rotl _ _ _ _ => true
  | .lea2 _ _ _ _ => true
  | .fadd _ _ _ _ => true
  | .fsub _ _ _ _ => true
  | .fmul _ _ _ _ => true
  | .ffma _ _ _ _ => true
  | .ffnma _ _ _ _ => true
  | .fmin _ _ _ _ => true
  | .fmax _ _ _ _ => true
  | .fabs _ _ _ => true
  | .fneg _ _ _ => true
  | .fcpys _ _ _ _ => true
  | .fdiv _ _ _ _ => true
  | .fsqrt _ _ _ => true
  | .frint _ _ _ _ => true
  | .fclass _ _ _ => true
  | .fscale _ _ _ _ => true
  | .ffrac _ _ _ => true
  | .hadd _ _ _ _ _ => true
  | .hsub _ _ _ _ _ => true
  | .hmul _ _ _ _ _ => true
  | .hfma _ _ _ _ _ => true
  | .hmin _ _ _ _ _ => true
  | .hmax _ _ _ _ _ => true
  | .hneg _ _ _ _ => true
  | .hdot2 _ _ _ _ _ => true
  | .cvf2i _ _ _ => true
  | .cvi2f _ _ _ => true
  | .cvn2f _ _ _ => true
  | .cvf2n _ _ _ => true
  | .cvf2b _ _ _ => true
  | .cvb2f _ _ _ => true
  | .cvf2h _ _ _ => true
  | .cvh2f _ _ _ => true
  | .cvf2e4 _ _ _ _ => true
  | .cvf2e5 _ _ _ _ => true
  | .cvf2e2 _ _ _ _ => true
  | .cve42f _ _ _ _ => true
  | .cve52f _ _ _ _ => true
  | .cve22f _ _ _ _ => true
  | .pk2h _ _ _ _ => true
  | .pk4b _ _ _ _ => true
  | .exp2 _ _ _ => true
  | .log2 _ _ _ => true
  | .rcp _ _ _ => true
  | .rsqrt _ _ _ => true
  | .sinpi _ _ _ => true
  | .cospi _ _ _ => true
  | .tanh _ _ _ => true
  | .sigm _ _ _ => true
  | .icmpEq _ c _ _ _ => decide (c.toNat ≤ 3)
  | .icmpNe _ c _ _ _ => decide (c.toNat ≤ 3)
  | .icmpLt _ c _ _ _ => decide (c.toNat ≤ 3)
  | .icmpLe _ c _ _ _ => decide (c.toNat ≤ 3)
  | .icmpGt _ c _ _ _ => decide (c.toNat ≤ 3)
  | .icmpGe _ c _ _ _ => decide (c.toNat ≤ 3)
  | .icmpLtn _ c _ _ _ => decide (c.toNat ≤ 3)
  | .icmpLen _ c _ _ _ => decide (c.toNat ≤ 3)
  | .icmpGtn _ c _ _ _ => decide (c.toNat ≤ 3)
  | .icmpGen _ c _ _ _ => decide (c.toNat ≤ 3)
  | .icmpFeq _ c _ _ _ => decide (c.toNat ≤ 3)
  | .icmpFne _ c _ _ _ => decide (c.toNat ≤ 3)
  | .icmpFlt _ c _ _ _ => decide (c.toNat ≤ 3)
  | .icmpFle _ c _ _ _ => decide (c.toNat ≤ 3)
  | .icmpFuno _ c _ _ _ => decide (c.toNat ≤ 3)
  | .icmpFord _ c _ _ _ => decide (c.toNat ≤ 3)
  | .shfl _ _ x _ => unrouted x
  | .ballot _ _ _ => true
  | .vany _ _ _ => true
  | .vall _ _ _ => true
  | .rsumi _ _ _ => true
  | .rmini _ _ _ => true
  | .rmaxi _ _ _ => true
  | .rsumf _ _ _ => true
  | .scani _ _ _ => true
  | .scanf _ _ _ => true
  | .scanxi _ _ _ => true
  | .matchx _ _ _ => true
  | .popm _ _ _ => true
  | .first _ _ _ => true
  | .cmpct _ _ _ => true
  | .sadd _ _ x y => unrouted x && unrouted y
  | .ssub _ _ x y => unrouted x && unrouted y
  | .smul _ _ x y => unrouted x && unrouted y
  | .smulh _ _ x y => unrouted x && unrouted y
  | .sumulh _ _ x y => unrouted x && unrouted y
  | .smin _ _ x y => unrouted x && unrouted y
  | .smax _ _ x y => unrouted x && unrouted y
  | .sumin _ _ x y => unrouted x && unrouted y
  | .sumax _ _ x y => unrouted x && unrouted y
  | .sand _ _ x y => unrouted x && unrouted y
  | .sor _ _ x y => unrouted x && unrouted y
  | .sxor _ _ x y => unrouted x && unrouted y
  | .sshl _ _ x y => unrouted x && unrouted y
  | .sshr _ _ x y => unrouted x && unrouted y
  | .ssra _ _ x y => unrouted x && unrouted y
  | .smov _ _ x => unrouted x
  | .saddi _ _ x _ => unrouted x
  | .ssubi _ _ x _ => unrouted x
  | .smuli _ _ x _ => unrouted x
  | .smulhi _ _ x _ => unrouted x
  | .sumulhi _ _ x _ => unrouted x
  | .smini _ _ x _ => unrouted x
  | .smaxi _ _ x _ => unrouted x
  | .sumini _ _ x _ => unrouted x
  | .sumaxi _ _ x _ => unrouted x
  | .sandi _ _ x _ => unrouted x
  | .sori _ _ x _ => unrouted x
  | .sxori _ _ x _ => unrouted x
  | .sshli _ _ x _ => unrouted x
  | .sshri _ _ x _ => unrouted x
  | .ssrai _ _ x _ => unrouted x
  | .smovi _ _ _ => true
  | .mov _ _ _ => true
  | .vfroms _ _ x => unrouted x
  | .sfromv _ _ _ => true
  | .sel _ _ _ _ => true
  | .pand _ _ _ _ => true
  | .por _ _ _ _ => true
  | .pxor _ _ _ _ => true
  | .pnot _ _ _ => true
  | .ptov _ _ _ => true
  | .vtop _ _ _ => true
  | .rdid _ _ c => decide (c.toNat ≤ 16)
  | .rdst _ _ n => decide (n.toNat ≤ 63)
  | .wrst _ n _ => wrstLegal n.toNat
  | .clock _ _ => true
  | .adr _ _ _ => true
  | .nop _ => true
  | .ld8 _ _ _ _ => true
  | .ld8s _ _ _ _ => true
  | .ld16 _ _ _ _ => true
  | .ld16s _ _ _ _ => true
  | .ld32 _ _ _ _ => true
  | .ld64 _ _ _ _ => true
  | .ld128 _ _ _ _ => true
  | .ldfe _ _ _ _ => true
  | .ldft _ _ _ _ => true
  | .ldfc _ _ _ _ => true
  | .lds32 _ _ x _ => unrouted x
  | .ldtag _ _ _ _ => true
  | .st8 _ _ _ _ => true
  | .st16 _ _ _ _ => true
  | .st32 _ _ _ _ => true
  | .st64 _ _ _ _ => true
  | .st128 _ _ _ _ => true
  | .stf _ _ _ _ => true
  | .ste _ _ _ => true
  | .sts32 _ _ x _ => unrouted x
  | .stcd _ _ _ => true
  | .aadd _ _ _ _ => true
  | .amin _ _ _ _ => true
  | .amax _ _ _ _ => true
  | .aminn _ _ _ _ => true
  | .amaxn _ _ _ _ => true
  | .aand _ _ _ _ => true
  | .aor _ _ _ _ => true
  | .axor _ _ _ _ => true
  | .axch _ _ _ _ => true
  | .acas _ _ _ _ => true
  | .afadd _ _ _ _ => true
  | .aincw _ _ _ _ => true
  | .gredRaddi _ _ _ _ => true
  | .gredRaddf _ _ _ _ => true
  | .gredRmini _ _ _ _ => true
  | .gredRmaxi _ _ _ _ => true
  | .gredRminf _ _ _ _ => true
  | .gredRmaxf _ _ _ _ => true
  | .gredRand _ _ _ _ => true
  | .gredRor _ _ _ _ => true
  | .gredRxor _ _ _ _ => true
  | .gredRaddb2 _ _ _ _ => true
  | .gredRaddi64 _ _ _ _ _ => true
  | .br _ _ => true
  | .brt _ _ _ => true
  | .brf _ _ _ => true
  | .brany _ _ _ => true
  | .brall _ _ _ => true
  | .call _ _ => true
  | .jr _ _ => true
  | .callr _ _ => true
  | .ret _ => true
  | .mjoin _ m => decide (m.toNat ≤ 11)
  | .mleave _ m => decide (m.toNat ≤ 11)
  | .mwait _ m => decide (m.toNat ≤ 11)
  | .mset _ m _ => decide (m.toNat ≤ 11)
  | .mget _ m _ => decide (m.toNat ≤ 11)
  | .mclr _ m => decide (m.toNat ≤ 11)
  | .mtest _ m _ => decide (m.toNat ≤ 11)
  | .bart _ => true
  | .barg _ => true
  | .phase _ _ => true
  | .chend _ => true
  | .fenl _ => true
  | .bartc _ _ c => c.toNat != 0
  | .spawn _ _ _ => true
  | .exit _ => true
  | .yield _ => true
  | .sleep _ _ => true
  | .mma _ _ _ _ _ _ _ k => decide (k.toNat ≤ 10)
  | .tld _ x _ => tileUse x.use
  | .tldt8 _ _ x _ => tileUse x.use
  | .tldt16 _ _ x _ => tileUse x.use
  | .tst _ x _ q => tileUse x.use && decide (q.toNat ≤ 2)
  | .tzero _ _ => true
  | .tscl _ x _ => tileUse x.use
  | .azero _ _ => true
  | .ard _ _ _ _ => true
  | .awr _ _ ux _ _ => tileUse ux
  | .ald _ x _ _ => tileUse x.use
  | .ast _ x _ _ => tileUse x.use
  | .acvb _ _ _ _ => true
  | .acv8 _ _ _ _ => true
  | .tmov _ _ _ => true
  | .rng _ _ _ => true
  | .rng2 _ _ _ _ => true
  | .unif _ _ _ => true
  | .bern _ _ _ _ => true
  | .bernp _ _ _ _ => true
  | .srbf _ _ _ _ => true
  | .srf16 _ _ _ _ => true
  | .sre4 _ _ _ _ => true
  | .sre5 _ _ _ _ => true
  | .sample _ _ _ _ => true
  | .topk _ _ _ _ => true
  | .argmax _ _ _ _ => true
  | .forkc _ _ x => unrouted x
  | .forkl _ _ x => unrouted x
  | .rdv _ u => decide (u.toNat ≤ 5)
  | .erset _ _ _ _ uy => uy != .routed
  | .erget _ _ _ _ => true
  | .hload _ _ x y => unrouted x && unrouted y
  | .hdrop _ x => unrouted x
  | .estat _ _ u => decide (u.toNat ≤ 5)
  | .lcfg _ _ => true
  | .lnld _ _ _ _ => true
  | .ljld _ _ _ _ => true
  | .lhld _ _ _ _ => true
  | .lsld _ _ _ _ => true
  | .lsst _ _ _ _ => true
  | .lclmp _ _ _ _ => true
  | .lswp _ _ _ => true
  | .lcnt _ _ _ _ => true
  | .lrstc _ _ => true
  | .lgmap _ _ _ _ => true
  | .lgref _ _ _ _ => true
  | .lhlth _ _ _ => true
  | .lkey _ _ => true
  | .laluLi _ _ _ => true
  | .laluAdd _ _ _ => true
  | .lbrcLoop _ => true
  | .lbrcNext _ _ => true
  | .lbrcSig _ _ => true
  | .lbrcEnd _ => true
  | .xcp _ _ _ _ => true
  | .xcpt _ _ _ => true
  | .xget _ _ _ _ => true
  | .xput _ _ _ _ => true
  | .xputd _ _ _ _ => true
  | .xred _ _ _ _ => true
  | .xgth _ _ _ _ => true
  | .xsct _ _ _ _ => true
  | .xbc _ _ _ _ => true
  | .xlat _ _ _ _ => true
  | .xfab _ _ _ _ => true
  | .xfen _ _ => true
  | .xsig _ _ _ => true
  | .xwte _ _ _ => true
  | .xaluLi _ _ _ => true
  | .xaluAdd _ _ _ => true
  | .xaluShl _ _ imm => decide (imm.toNat ≤ 63)
  | .xaluMul _ _ _ => true
  | .xbrcLoop _ => true
  | .xbrcNext _ _ => true
  | .xbrcEnd _ => true
  | .trap _ _ => true
  | .tret _ => true
  | .brk _ _ => true
  | .setkey _ _ _ => true
  | .setstrm _ _ => true
  | .rdcnt _ _ _ => true
  | .amaxr _ _ => true
  | .rdtrap _ _ _ => true
  | .wrtrap _ _ => true
  | .sethnd _ _ => true
  | .killt _ => true
  | .launch _ _ _ => true
  | .evwait _ _ _ => true
  | .evpop _ _ _ => true
  | .evsig _ _ _ _ => true
  | .qcfg _ _ _ _ => true
  | .qfence _ _ _ => true
  | .qdig _ _ _ => true
  | .preempt _ _ _ => true
  | .kill _ _ _ _ => true
  | .ptout _ _ _ _ => true
  | .ckpt _ _ _ _ => true
  | .rstor _ _ _ => true
  | .phasec _ _ _ => true
  | .illegalInstruction => true
  | .ctlIllegal => true
  | .engineIllegal => true
  | .resultReturn _ _ => true
  | .chunkCommit _ => true
  | .spawnBinTimer _ _ => true
  | .sleepExpiry _ _ => true
  | .replayDiverge _ _ => true
  | .boundaryOpen _ => true
  | .exchangeOpen _ => true
  | .boundaryClose _ => true
  | .boundaryMessage _ _ _ _ _ => true
  | .straggler _ => true
  | .exchangeLate _ => true
  | .phaseMaxExpiry _ => true
  | .evwaitTimeout _ => true
  | .engineProgramStart _ _ => true
  | .fabricWriteArrival _ => true
  | .trapDelivery _ => true
  | .fpTrapWindowClose _ => true
  | .strikeReport _ => true
  | .scrub _ => true
  | .checkpointDrainEnd _ => true
  | .checkpointDrainTimeout _ => true
  | .throttle => true
  | .throttleEnd => true
  | .thermalTrip => true
  | .frzNFall => true
  | .frzNRise => true
  | .idcode => true
  | .segsel _ => true
  | .segread => true
  | .bypass => true
  | .powerUp _ => true
  | .powerLoss => true
  | .porstN _ => true
  | .srstN _ => true
  | .freeze _ => true
  | .warmStart _ _ => true
  | .coldStart _ _ _ => true
  | .clearMonitor _ _ => true
  | .setBinning _ _ _ _ _ => true
  | .recalibrate _ => true
  | .recalibrateDone counts => counts.all (fun t => t.all (fun c => decide (c ≤ 65536)))
  | .pathDelayMeasurement _ _ => true
  | .temperatureSample _ _ => true
  | .hello _ _ _ _ => true
  | .helloCreate _ _ _ _ => true
  | .helloDestroy _ _ _ _ => true
  | .load _ _ _ _ => true
  | .loadHostPortRecord _ _ => true
  | .read _ _ _ _ => true
  | .start _ _ _ _ _ _ _ => true
  | .xlateQuery _ _ _ _ => true
  | .xlateMap _ _ _ _ => true
  | .xlateUnmap _ _ _ _ => true
  | .xlateSetAttributes _ _ _ _ => true
  | .xlateBindFabricWindow _ _ _ _ => true
  | .xlateMigrate _ _ _ _ => true
  | .atomicAdd32 _ _ _ _ => true
  | .atomicAdd64 _ _ _ _ => true
  | .atomicSwap32 _ _ _ _ => true
  | .atomicCas32 _ _ _ _ => true
  | .atomicCas64 _ _ _ _ => true
  | .ckptMsgStart _ _ => true
  | .ckptMsgWait _ _ => true
  | .ckptMsgPoll _ _ => true
  | .ckptMsgRstor _ _ => true
  | .plaganAck _ => true
  | .retransmit _ => true
  | .neighbourSolicitation _ => true
  | .nonPlaganFrame => true
  | .fabricPortDown _ => true
  | .fabricPortUp _ => true
  | .stopSignal _ _ => true
  | .fabricAcknowledgement _ _ _ => true
  | .sweepEnd _ _ => true
  | .matrixOperationComplete _ _ => true
  | .rstorComplete _ _ => true
  | .corruptPlaganMessage => true
  | .tripCooldown => true
  | .calibrationExpiry _ => true

end Sys2Proof
end

