-- ==== Sys2Proof/Decode.lean ====
section
/-! DEFINITION. The decoder and the encoder, both written from the encoding tables (03 R56-R69, 04 R80-R84, 23 R426).
A word is read by its major and function field, its operand fields are extracted, and it is accepted only when
encoding the result gives the word back: so a nonzero unused or reserved field, which no instruction encodes, is
rejected by name. -/

namespace Sys2Proof

/-- Why a word is not an instruction (04 R87). -/
inductive Reject where
  /-- Major 0 with payload 0 of kind IMM: the all-zero word (03 R66). -/
  | zeroWord
  /-- Major 31 (04 R82). -/
  | reservedMajor
  /-- A hint word where an instruction was expected (03 R65). -/
  | hintWord
  /-- A function value that no table lists (04 R82, R83). -/
  | unassignedFunction
  /-- A nonzero unused or reserved field (03 R60, R64). -/
  | nonzeroField
  /-- A field value outside its legal values (04 R83, R84). -/
  | illegalValue
  /-- A hint with S set, a reserved payload bit, round 5 to 7 or route kind 7 (03 R70). -/
  | badHint
  deriving DecidableEq, Repr

/-- The two bits of a use code (03 R60). -/
def useCode (u : Use) : Nat :=
  match u with
  | .plain => 0
  | .last => 1
  | .keep => 2
  | .routed => 3

/-- The use code of two bits (03 R60). -/
def useOf (n : Nat) : Use :=
  match n % 4 with
  | 0 => .plain
  | 1 => .last
  | 2 => .keep
  | _ => .routed

/-- The 8 bits of a source field: register in [7:2], use code in [1:0] (03 R60). -/
def srcCode (x : Src) : Nat := x.reg.toNat * 4 + useCode x.use

/-- The source field whose low bit is bit `lo` of the word. -/
def srcAt (w lo : Nat) : Src := { reg := BitVec.ofNat 6 (w / (2 ^ lo * 4)), use := useOf (w / 2 ^ lo) }

/-- The field of `n` bits whose low bit is bit `lo` of the word (00 R4). -/
def fieldAt (n w lo : Nat) : BitVec n := BitVec.ofNat n (w / 2 ^ lo)

/-- Bit `lo` of the word. -/
def flagAt (w lo : Nat) : Bool := w / 2 ^ lo % 2 == 1

/-- The 12-bit immediate of the sequencers: bits [19:12] above bits [7:4] (11 R254, 18 R360). -/
def imm12At (w : Nat) : BitVec 12 := BitVec.ofNat 12 (w / 2 ^ 12 % 256 * 16 + w / 2 ^ 4 % 16)

/-- A template with S and the fields added, each given with the number of its low bit (04 R80). -/
def pack (base : Nat) (sw : Bool) (fs : List (Nat × Nat)) : Nat :=
  fs.foldl (fun a f => a + f.1 * 2 ^ f.2) (base + sw.toNat * 2 ^ 31)

/-- The word of an instruction; an event has none. Bit 31 is S (03 R56). -/
def encode (i : Instr) : Option Nat :=
  match i with
  | .iadd sw d x y => some (pack 0x04000000 sw [(d.toNat, 20), (srcCode x, 12), (srcCode y, 4)])
  | .isub sw d x y => some (pack 0x04000001 sw [(d.toNat, 20), (srcCode x, 12), (srcCode y, 4)])
  | .imul sw d x y => some (pack 0x04000002 sw [(d.toNat, 20), (srcCode x, 12), (srcCode y, 4)])
  | .imulh sw d x y => some (pack 0x04000003 sw [(d.toNat, 20), (srcCode x, 12), (srcCode y, 4)])
  | .umulh sw d x y => some (pack 0x04000004 sw [(d.toNat, 20), (srcCode x, 12), (srcCode y, 4)])
  | .imin sw d x y => some (pack 0x04000005 sw [(d.toNat, 20), (srcCode x, 12), (srcCode y, 4)])
  | .imax sw d x y => some (pack 0x04000006 sw [(d.toNat, 20), (srcCode x, 12), (srcCode y, 4)])
  | .umin sw d x y => some (pack 0x04000007 sw [(d.toNat, 20), (srcCode x, 12), (srcCode y, 4)])
  | .umax sw d x y => some (pack 0x04000008 sw [(d.toNat, 20), (srcCode x, 12), (srcCode y, 4)])
  | .vand sw d x y => some (pack 0x04000009 sw [(d.toNat, 20), (srcCode x, 12), (srcCode y, 4)])
  | .vor sw d x y => some (pack 0x0400000a sw [(d.toNat, 20), (srcCode x, 12), (srcCode y, 4)])
  | .vxor sw d x y => some (pack 0x0400000b sw [(d.toNat, 20), (srcCode x, 12), (srcCode y, 4)])
  | .shl sw d x y => some (pack 0x0400000c sw [(d.toNat, 20), (srcCode x, 12), (srcCode y, 4)])
  | .shr sw d x y => some (pack 0x0400000d sw [(d.toNat, 20), (srcCode x, 12), (srcCode y, 4)])
  | .sra sw d x y => some (pack 0x0400000e sw [(d.toNat, 20), (srcCode x, 12), (srcCode y, 4)])
  | .iaddc sw d x y => some (pack 0x0400000f sw [(d.toNat, 20), (srcCode x, 12), (srcCode y, 4)])
  | .iaddi sw d x i => some (pack 0x08000000 sw [(d.toNat, 20), (srcCode x, 12), (i.toNat, 0)])
  | .isubi sw d x i => some (pack 0x08000100 sw [(d.toNat, 20), (srcCode x, 12), (i.toNat, 0)])
  | .imuli sw d x i => some (pack 0x08000200 sw [(d.toNat, 20), (srcCode x, 12), (i.toNat, 0)])
  | .imulhi sw d x i => some (pack 0x08000300 sw [(d.toNat, 20), (srcCode x, 12), (i.toNat, 0)])
  | .umulhi sw d x i => some (pack 0x08000400 sw [(d.toNat, 20), (srcCode x, 12), (i.toNat, 0)])
  | .imini sw d x i => some (pack 0x08000500 sw [(d.toNat, 20), (srcCode x, 12), (i.toNat, 0)])
  | .imaxi sw d x i => some (pack 0x08000600 sw [(d.toNat, 20), (srcCode x, 12), (i.toNat, 0)])
  | .umini sw d x i => some (pack 0x08000700 sw [(d.toNat, 20), (srcCode x, 12), (i.toNat, 0)])
  | .umaxi sw d x i => some (pack 0x08000800 sw [(d.toNat, 20), (srcCode x, 12), (i.toNat, 0)])
  | .andi sw d x i => some (pack 0x08000900 sw [(d.toNat, 20), (srcCode x, 12), (i.toNat, 0)])
  | .ori sw d x i => some (pack 0x08000a00 sw [(d.toNat, 20), (srcCode x, 12), (i.toNat, 0)])
  | .xori sw d x i => some (pack 0x08000b00 sw [(d.toNat, 20), (srcCode x, 12), (i.toNat, 0)])
  | .shli sw d x i => some (pack 0x08000c00 sw [(d.toNat, 20), (srcCode x, 12), (i.toNat, 0)])
  | .shri sw d x i => some (pack 0x08000d00 sw [(d.toNat, 20), (srcCode x, 12), (i.toNat, 0)])
  | .srai sw d x i => some (pack 0x08000e00 sw [(d.toNat, 20), (srcCode x, 12), (i.toNat, 0)])
  | .movi sw d i => some (pack 0x08000f00 sw [(d.toNat, 20), (i.toNat, 0)])
  | .isubb sw d x y => some (pack 0x0c000000 sw [(d.toNat, 20), (srcCode x, 12), (srcCode y, 4)])
  | .iabs sw d x => some (pack 0x0c000001 sw [(d.toNat, 20), (srcCode x, 12)])
  | .ineg sw d x => some (pack 0x0c000002 sw [(d.toNat, 20), (srcCode x, 12)])
  | .vnot sw d x => some (pack 0x0c000003 sw [(d.toNat, 20), (srcCode x, 12)])
  | .clz sw d x => some (pack 0x0c000004 sw [(d.toNat, 20), (srcCode x, 12)])
  | .popc sw d x => some (pack 0x0c000005 sw [(d.toNat, 20), (srcCode x, 12)])
  | .brev sw d x => some (pack 0x0c000006 sw [(d.toNat, 20), (srcCode x, 12)])
  | .bfe sw d x y => some (pack 0x0c000007 sw [(d.toNat, 20), (srcCode x, 12), (srcCode y, 4)])
  | .bfi sw d x y => some (pack 0x0c000008 sw [(d.toNat, 20), (srcCode x, 12), (srcCode y, 4)])
  | .iadds sw d x y => some (pack 0x0c000009 sw [(d.toNat, 20), (srcCode x, 12), (srcCode y, 4)])
  | .isubs sw d x y => some (pack 0x0c00000a sw [(d.toNat, 20), (srcCode x, 12), (srcCode y, 4)])
  | .uadds sw d x y => some (pack 0x0c00000b sw [(d.toNat, 20), (srcCode x, 12), (srcCode y, 4)])
  | .imad sw d x y => some (pack 0x0c00000c sw [(d.toNat, 20), (srcCode x, 12), (srcCode y, 4)])
  | .sad sw d x y => some (pack 0x0c00000d sw [(d.toNat, 20), (srcCode x, 12), (srcCode y, 4)])
  | .rotl sw d x y => some (pack 0x0c00000e sw [(d.toNat, 20), (srcCode x, 12), (srcCode y, 4)])
  | .lea2 sw d x y => some (pack 0x0c00000f sw [(d.toNat, 20), (srcCode x, 12), (srcCode y, 4)])
  | .fadd sw d x y => some (pack 0x10000000 sw [(d.toNat, 20), (srcCode x, 12), (srcCode y, 4)])
  | .fsub sw d x y => some (pack 0x10000001 sw [(d.toNat, 20), (srcCode x, 12), (srcCode y, 4)])
  | .fmul sw d x y => some (pack 0x10000002 sw [(d.toNat, 20), (srcCode x, 12), (srcCode y, 4)])
  | .ffma sw d x y => some (pack 0x10000003 sw [(d.toNat, 20), (srcCode x, 12), (srcCode y, 4)])
  | .ffnma sw d x y => some (pack 0x10000004 sw [(d.toNat, 20), (srcCode x, 12), (srcCode y, 4)])
  | .fmin sw d x y => some (pack 0x10000005 sw [(d.toNat, 20), (srcCode x, 12), (srcCode y, 4)])
  | .fmax sw d x y => some (pack 0x10000006 sw [(d.toNat, 20), (srcCode x, 12), (srcCode y, 4)])
  | .fabs sw d x => some (pack 0x10000007 sw [(d.toNat, 20), (srcCode x, 12)])
  | .fneg sw d x => some (pack 0x10000008 sw [(d.toNat, 20), (srcCode x, 12)])
  | .fcpys sw d x y => some (pack 0x10000009 sw [(d.toNat, 20), (srcCode x, 12), (srcCode y, 4)])
  | .fdiv sw d x y => some (pack 0x1000000a sw [(d.toNat, 20), (srcCode x, 12), (srcCode y, 4)])
  | .fsqrt sw d x => some (pack 0x1000000b sw [(d.toNat, 20), (srcCode x, 12)])
  | .frint sw d x m => some (pack 0x1000000c sw [(d.toNat, 20), (srcCode x, 12), (m.toNat, 8)])
  | .fclass sw d x => some (pack 0x1000000d sw [(d.toNat, 20), (srcCode x, 12)])
  | .fscale sw d x y => some (pack 0x1000000e sw [(d.toNat, 20), (srcCode x, 12), (srcCode y, 4)])
  | .ffrac sw d x => some (pack 0x1000000f sw [(d.toNat, 20), (srcCode x, 12)])
  | .hadd sw d x y f => some (pack 0x14000000 sw [(d.toNat, 20), (srcCode x, 12), (srcCode y, 4), (f.toNat, 3)])
  | .hsub sw d x y f => some (pack 0x14000001 sw [(d.toNat, 20), (srcCode x, 12), (srcCode y, 4), (f.toNat, 3)])
  | .hmul sw d x y f => some (pack 0x14000002 sw [(d.toNat, 20), (srcCode x, 12), (srcCode y, 4), (f.toNat, 3)])
  | .hfma sw d x y f => some (pack 0x14000003 sw [(d.toNat, 20), (srcCode x, 12), (srcCode y, 4), (f.toNat, 3)])
  | .hmin sw d x y f => some (pack 0x14000004 sw [(d.toNat, 20), (srcCode x, 12), (srcCode y, 4), (f.toNat, 3)])
  | .hmax sw d x y f => some (pack 0x14000005 sw [(d.toNat, 20), (srcCode x, 12), (srcCode y, 4), (f.toNat, 3)])
  | .hneg sw d x f => some (pack 0x14000006 sw [(d.toNat, 20), (srcCode x, 12), (f.toNat, 3)])
  | .hdot2 sw d x y f => some (pack 0x14000007 sw [(d.toNat, 20), (srcCode x, 12), (srcCode y, 4), (f.toNat, 3)])
  | .cvf2i sw d x => some (pack 0x18000000 sw [(d.toNat, 20), (srcCode x, 12)])
  | .cvi2f sw d x => some (pack 0x18000001 sw [(d.toNat, 20), (srcCode x, 12)])
  | .cvn2f sw d x => some (pack 0x18000002 sw [(d.toNat, 20), (srcCode x, 12)])
  | .cvf2n sw d x => some (pack 0x18000003 sw [(d.toNat, 20), (srcCode x, 12)])
  | .cvf2b sw d x => some (pack 0x18000004 sw [(d.toNat, 20), (srcCode x, 12)])
  | .cvb2f sw d x => some (pack 0x18000005 sw [(d.toNat, 20), (srcCode x, 12)])
  | .cvf2h sw d x => some (pack 0x18000006 sw [(d.toNat, 20), (srcCode x, 12)])
  | .cvh2f sw d x => some (pack 0x18000007 sw [(d.toNat, 20), (srcCode x, 12)])
  | .cvf2e4 sw d x y => some (pack 0x18000008 sw [(d.toNat, 20), (srcCode x, 12), (srcCode y, 4)])
  | .cvf2e5 sw d x y => some (pack 0x18000009 sw [(d.toNat, 20), (srcCode x, 12), (srcCode y, 4)])
  | .cvf2e2 sw d x y => some (pack 0x1800000a sw [(d.toNat, 20), (srcCode x, 12), (srcCode y, 4)])
  | .cve42f sw d x y => some (pack 0x1800000b sw [(d.toNat, 20), (srcCode x, 12), (srcCode y, 4)])
  | .cve52f sw d x y => some (pack 0x1800000c sw [(d.toNat, 20), (srcCode x, 12), (srcCode y, 4)])
  | .cve22f sw d x y => some (pack 0x1800000d sw [(d.toNat, 20), (srcCode x, 12), (srcCode y, 4)])
  | .pk2h sw d x y => some (pack 0x1800000e sw [(d.toNat, 20), (srcCode x, 12), (srcCode y, 4)])
  | .pk4b sw d x y => some (pack 0x1800000f sw [(d.toNat, 20), (srcCode x, 12), (srcCode y, 4)])
  | .exp2 sw d x => some (pack 0x1c000000 sw [(d.toNat, 20), (srcCode x, 12)])
  | .log2 sw d x => some (pack 0x1c000001 sw [(d.toNat, 20), (srcCode x, 12)])
  | .rcp sw d x => some (pack 0x1c000002 sw [(d.toNat, 20), (srcCode x, 12)])
  | .rsqrt sw d x => some (pack 0x1c000003 sw [(d.toNat, 20), (srcCode x, 12)])
  | .sinpi sw d x => some (pack 0x1c000004 sw [(d.toNat, 20), (srcCode x, 12)])
  | .cospi sw d x => some (pack 0x1c000005 sw [(d.toNat, 20), (srcCode x, 12)])
  | .tanh sw d x => some (pack 0x1c000006 sw [(d.toNat, 20), (srcCode x, 12)])
  | .sigm sw d x => some (pack 0x1c000007 sw [(d.toNat, 20), (srcCode x, 12)])
  | .icmpEq sw c p x y => some (pack 0x20000000 sw [(c.toNat, 23), (p.toNat, 20), (srcCode x, 12), (srcCode y, 4)])
  | .icmpNe sw c p x y => some (pack 0x20000001 sw [(c.toNat, 23), (p.toNat, 20), (srcCode x, 12), (srcCode y, 4)])
  | .icmpLt sw c p x y => some (pack 0x20000002 sw [(c.toNat, 23), (p.toNat, 20), (srcCode x, 12), (srcCode y, 4)])
  | .icmpLe sw c p x y => some (pack 0x20000003 sw [(c.toNat, 23), (p.toNat, 20), (srcCode x, 12), (srcCode y, 4)])
  | .icmpGt sw c p x y => some (pack 0x20000004 sw [(c.toNat, 23), (p.toNat, 20), (srcCode x, 12), (srcCode y, 4)])
  | .icmpGe sw c p x y => some (pack 0x20000005 sw [(c.toNat, 23), (p.toNat, 20), (srcCode x, 12), (srcCode y, 4)])
  | .icmpLtn sw c p x y => some (pack 0x20000006 sw [(c.toNat, 23), (p.toNat, 20), (srcCode x, 12), (srcCode y, 4)])
  | .icmpLen sw c p x y => some (pack 0x20000007 sw [(c.toNat, 23), (p.toNat, 20), (srcCode x, 12), (srcCode y, 4)])
  | .icmpGtn sw c p x y => some (pack 0x20000008 sw [(c.toNat, 23), (p.toNat, 20), (srcCode x, 12), (srcCode y, 4)])
  | .icmpGen sw c p x y => some (pack 0x20000009 sw [(c.toNat, 23), (p.toNat, 20), (srcCode x, 12), (srcCode y, 4)])
  | .icmpFeq sw c p x y => some (pack 0x2000000a sw [(c.toNat, 23), (p.toNat, 20), (srcCode x, 12), (srcCode y, 4)])
  | .icmpFne sw c p x y => some (pack 0x2000000b sw [(c.toNat, 23), (p.toNat, 20), (srcCode x, 12), (srcCode y, 4)])
  | .icmpFlt sw c p x y => some (pack 0x2000000c sw [(c.toNat, 23), (p.toNat, 20), (srcCode x, 12), (srcCode y, 4)])
  | .icmpFle sw c p x y => some (pack 0x2000000d sw [(c.toNat, 23), (p.toNat, 20), (srcCode x, 12), (srcCode y, 4)])
  | .icmpFuno sw c p x y => some (pack 0x2000000e sw [(c.toNat, 23), (p.toNat, 20), (srcCode x, 12), (srcCode y, 4)])
  | .icmpFord sw c p x y => some (pack 0x2000000f sw [(c.toNat, 23), (p.toNat, 20), (srcCode x, 12), (srcCode y, 4)])
  | .shfl sw d x y => some (pack 0x24000000 sw [(d.toNat, 20), (srcCode x, 12), (srcCode y, 4)])
  | .ballot sw d x => some (pack 0x24000001 sw [(d.toNat, 21), (x.toNat, 14)])
  | .vany sw d x => some (pack 0x24000002 sw [(d.toNat, 20), (x.toNat, 14)])
  | .vall sw d x => some (pack 0x24000003 sw [(d.toNat, 20), (x.toNat, 14)])
  | .rsumi sw d x => some (pack 0x24000004 sw [(d.toNat, 20), (srcCode x, 12)])
  | .rmini sw d x => some (pack 0x24000005 sw [(d.toNat, 20), (srcCode x, 12)])
  | .rmaxi sw d x => some (pack 0x24000006 sw [(d.toNat, 20), (srcCode x, 12)])
  | .rsumf sw d x => some (pack 0x24000007 sw [(d.toNat, 20), (srcCode x, 12)])
  | .scani sw d x => some (pack 0x24000008 sw [(d.toNat, 20), (srcCode x, 12)])
  | .scanf sw d x => some (pack 0x24000009 sw [(d.toNat, 20), (srcCode x, 12)])
  | .scanxi sw d x => some (pack 0x2400000a sw [(d.toNat, 20), (srcCode x, 12)])
  | .matchx sw d x => some (pack 0x2400000b sw [(d.toNat, 21), (srcCode x, 12)])
  | .popm sw d x => some (pack 0x2400000c sw [(d.toNat, 20), (x.toNat, 14)])
  | .first sw d x => some (pack 0x2400000d sw [(d.toNat, 20), (srcCode x, 12)])
  | .cmpct sw d x => some (pack 0x2400000e sw [(d.toNat, 20), (x.toNat, 14)])
  | .sadd sw d x y => some (pack 0x28000000 sw [(d.toNat, 20), (srcCode x, 12), (srcCode y, 4)])
  | .ssub sw d x y => some (pack 0x28000001 sw [(d.toNat, 20), (srcCode x, 12), (srcCode y, 4)])
  | .smul sw d x y => some (pack 0x28000002 sw [(d.toNat, 20), (srcCode x, 12), (srcCode y, 4)])
  | .smulh sw d x y => some (pack 0x28000003 sw [(d.toNat, 20), (srcCode x, 12), (srcCode y, 4)])
  | .sumulh sw d x y => some (pack 0x28000004 sw [(d.toNat, 20), (srcCode x, 12), (srcCode y, 4)])
  | .smin sw d x y => some (pack 0x28000005 sw [(d.toNat, 20), (srcCode x, 12), (srcCode y, 4)])
  | .smax sw d x y => some (pack 0x28000006 sw [(d.toNat, 20), (srcCode x, 12), (srcCode y, 4)])
  | .sumin sw d x y => some (pack 0x28000007 sw [(d.toNat, 20), (srcCode x, 12), (srcCode y, 4)])
  | .sumax sw d x y => some (pack 0x28000008 sw [(d.toNat, 20), (srcCode x, 12), (srcCode y, 4)])
  | .sand sw d x y => some (pack 0x28000009 sw [(d.toNat, 20), (srcCode x, 12), (srcCode y, 4)])
  | .sor sw d x y => some (pack 0x2800000a sw [(d.toNat, 20), (srcCode x, 12), (srcCode y, 4)])
  | .sxor sw d x y => some (pack 0x2800000b sw [(d.toNat, 20), (srcCode x, 12), (srcCode y, 4)])
  | .sshl sw d x y => some (pack 0x2800000c sw [(d.toNat, 20), (srcCode x, 12), (srcCode y, 4)])
  | .sshr sw d x y => some (pack 0x2800000d sw [(d.toNat, 20), (srcCode x, 12), (srcCode y, 4)])
  | .ssra sw d x y => some (pack 0x2800000e sw [(d.toNat, 20), (srcCode x, 12), (srcCode y, 4)])
  | .smov sw d x => some (pack 0x2800000f sw [(d.toNat, 20), (srcCode x, 12)])
  | .saddi sw d x i => some (pack 0x2c000000 sw [(d.toNat, 20), (srcCode x, 12), (i.toNat, 0)])
  | .ssubi sw d x i => some (pack 0x2c000100 sw [(d.toNat, 20), (srcCode x, 12), (i.toNat, 0)])
  | .smuli sw d x i => some (pack 0x2c000200 sw [(d.toNat, 20), (srcCode x, 12), (i.toNat, 0)])
  | .smulhi sw d x i => some (pack 0x2c000300 sw [(d.toNat, 20), (srcCode x, 12), (i.toNat, 0)])
  | .sumulhi sw d x i => some (pack 0x2c000400 sw [(d.toNat, 20), (srcCode x, 12), (i.toNat, 0)])
  | .smini sw d x i => some (pack 0x2c000500 sw [(d.toNat, 20), (srcCode x, 12), (i.toNat, 0)])
  | .smaxi sw d x i => some (pack 0x2c000600 sw [(d.toNat, 20), (srcCode x, 12), (i.toNat, 0)])
  | .sumini sw d x i => some (pack 0x2c000700 sw [(d.toNat, 20), (srcCode x, 12), (i.toNat, 0)])
  | .sumaxi sw d x i => some (pack 0x2c000800 sw [(d.toNat, 20), (srcCode x, 12), (i.toNat, 0)])
  | .sandi sw d x i => some (pack 0x2c000900 sw [(d.toNat, 20), (srcCode x, 12), (i.toNat, 0)])
  | .sori sw d x i => some (pack 0x2c000a00 sw [(d.toNat, 20), (srcCode x, 12), (i.toNat, 0)])
  | .sxori sw d x i => some (pack 0x2c000b00 sw [(d.toNat, 20), (srcCode x, 12), (i.toNat, 0)])
  | .sshli sw d x i => some (pack 0x2c000c00 sw [(d.toNat, 20), (srcCode x, 12), (i.toNat, 0)])
  | .sshri sw d x i => some (pack 0x2c000d00 sw [(d.toNat, 20), (srcCode x, 12), (i.toNat, 0)])
  | .ssrai sw d x i => some (pack 0x2c000e00 sw [(d.toNat, 20), (srcCode x, 12), (i.toNat, 0)])
  | .smovi sw d i => some (pack 0x2c000f00 sw [(d.toNat, 20), (i.toNat, 0)])
  | .mov sw d x => some (pack 0x30000000 sw [(d.toNat, 20), (srcCode x, 12)])
  | .vfroms sw d x => some (pack 0x30000001 sw [(d.toNat, 20), (srcCode x, 12)])
  | .sfromv sw d x => some (pack 0x30000002 sw [(d.toNat, 20), (srcCode x, 12)])
  | .sel sw d x y => some (pack 0x30000003 sw [(d.toNat, 20), (srcCode x, 12), (srcCode y, 4)])
  | .pand sw d x y => some (pack 0x30000004 sw [(d.toNat, 20), (x.toNat, 14), (y.toNat, 6)])
  | .por sw d x y => some (pack 0x30000005 sw [(d.toNat, 20), (x.toNat, 14), (y.toNat, 6)])
  | .pxor sw d x y => some (pack 0x30000006 sw [(d.toNat, 20), (x.toNat, 14), (y.toNat, 6)])
  | .pnot sw d x => some (pack 0x30000007 sw [(d.toNat, 20), (x.toNat, 14)])
  | .ptov sw d x => some (pack 0x30000008 sw [(d.toNat, 20), (x.toNat, 14)])
  | .vtop sw d x => some (pack 0x30000009 sw [(d.toNat, 20), (srcCode x, 12)])
  | .rdid sw d c => some (pack 0x3000000a sw [(d.toNat, 20), (c.toNat, 4)])
  | .rdst sw d n => some (pack 0x3000000b sw [(d.toNat, 20), (n.toNat, 12)])
  | .wrst sw n y => some (pack 0x3000000c sw [(n.toNat, 12), (srcCode y, 4)])
  | .clock sw d => some (pack 0x3000000d sw [(d.toNat, 20)])
  | .adr sw d o => some (pack 0x3000000e sw [(d.toNat, 20), (o.toNat, 4)])
  | .nop sw => some (pack 0x3000000f sw [])
  | .ld8 sw d x o => some (pack 0x34000000 sw [(d.toNat, 20), (srcCode x, 12), (o.toNat, 4)])
  | .ld8s sw d x o => some (pack 0x34000001 sw [(d.toNat, 20), (srcCode x, 12), (o.toNat, 4)])
  | .ld16 sw d x o => some (pack 0x34000002 sw [(d.toNat, 20), (srcCode x, 12), (o.toNat, 4)])
  | .ld16s sw d x o => some (pack 0x34000003 sw [(d.toNat, 20), (srcCode x, 12), (o.toNat, 4)])
  | .ld32 sw d x o => some (pack 0x34000004 sw [(d.toNat, 20), (srcCode x, 12), (o.toNat, 4)])
  | .ld64 sw d x o => some (pack 0x34000005 sw [(d.toNat, 21), (srcCode x, 12), (o.toNat, 4)])
  | .ld128 sw d x o => some (pack 0x34000006 sw [(d.toNat, 22), (srcCode x, 12), (o.toNat, 4)])
  | .ldfe sw d x o => some (pack 0x34000007 sw [(d.toNat, 20), (srcCode x, 12), (o.toNat, 4)])
  | .ldft sw d x o => some (pack 0x34000008 sw [(d.toNat, 20), (srcCode x, 12), (o.toNat, 4)])
  | .ldfc sw d x o => some (pack 0x34000009 sw [(d.toNat, 20), (srcCode x, 12), (o.toNat, 4)])
  | .lds32 sw d x o => some (pack 0x3400000a sw [(d.toNat, 20), (srcCode x, 12), (o.toNat, 4)])
  | .ldtag sw d x o => some (pack 0x3400000b sw [(d.toNat, 20), (srcCode x, 12), (o.toNat, 4)])
  | .st8 sw d x o => some (pack 0x38000000 sw [(d.toNat, 20), (srcCode x, 12), (o.toNat, 4)])
  | .st16 sw d x o => some (pack 0x38000001 sw [(d.toNat, 20), (srcCode x, 12), (o.toNat, 4)])
  | .st32 sw d x o => some (pack 0x38000002 sw [(d.toNat, 20), (srcCode x, 12), (o.toNat, 4)])
  | .st64 sw d x o => some (pack 0x38000003 sw [(d.toNat, 21), (srcCode x, 12), (o.toNat, 4)])
  | .st128 sw d x o => some (pack 0x38000004 sw [(d.toNat, 22), (srcCode x, 12), (o.toNat, 4)])
  | .stf sw d x o => some (pack 0x38000005 sw [(d.toNat, 20), (srcCode x, 12), (o.toNat, 4)])
  | .ste sw x o => some (pack 0x38000006 sw [(srcCode x, 12), (o.toNat, 4)])
  | .sts32 sw d x o => some (pack 0x38000007 sw [(d.toNat, 20), (srcCode x, 12), (o.toNat, 4)])
  | .stcd sw x o => some (pack 0x38000008 sw [(srcCode x, 12), (o.toNat, 4)])
  | .aadd sw d x y => some (pack 0x3c000000 sw [(d.toNat, 20), (srcCode x, 12), (srcCode y, 4)])
  | .amin sw d x y => some (pack 0x3c000001 sw [(d.toNat, 20), (srcCode x, 12), (srcCode y, 4)])
  | .amax sw d x y => some (pack 0x3c000002 sw [(d.toNat, 20), (srcCode x, 12), (srcCode y, 4)])
  | .aminn sw d x y => some (pack 0x3c000003 sw [(d.toNat, 20), (srcCode x, 12), (srcCode y, 4)])
  | .amaxn sw d x y => some (pack 0x3c000004 sw [(d.toNat, 20), (srcCode x, 12), (srcCode y, 4)])
  | .aand sw d x y => some (pack 0x3c000005 sw [(d.toNat, 20), (srcCode x, 12), (srcCode y, 4)])
  | .aor sw d x y => some (pack 0x3c000006 sw [(d.toNat, 20), (srcCode x, 12), (srcCode y, 4)])
  | .axor sw d x y => some (pack 0x3c000007 sw [(d.toNat, 20), (srcCode x, 12), (srcCode y, 4)])
  | .axch sw d x y => some (pack 0x3c000008 sw [(d.toNat, 20), (srcCode x, 12), (srcCode y, 4)])
  | .acas sw d x y => some (pack 0x3c000009 sw [(d.toNat, 20), (srcCode x, 12), (srcCode y, 4)])
  | .afadd sw d x y => some (pack 0x3c00000a sw [(d.toNat, 20), (srcCode x, 12), (srcCode y, 4)])
  | .aincw sw d x y => some (pack 0x3c00000b sw [(d.toNat, 20), (srcCode x, 12), (srcCode y, 4)])
  | .gredRaddi sw n x y => some (pack 0x40000000 sw [(n.toNat, 20), (srcCode x, 12), (srcCode y, 4)])
  | .gredRaddf sw n x y => some (pack 0x40000001 sw [(n.toNat, 20), (srcCode x, 12), (srcCode y, 4)])
  | .gredRmini sw n x y => some (pack 0x40000002 sw [(n.toNat, 20), (srcCode x, 12), (srcCode y, 4)])
  | .gredRmaxi sw n x y => some (pack 0x40000003 sw [(n.toNat, 20), (srcCode x, 12), (srcCode y, 4)])
  | .gredRminf sw n x y => some (pack 0x40000004 sw [(n.toNat, 20), (srcCode x, 12), (srcCode y, 4)])
  | .gredRmaxf sw n x y => some (pack 0x40000005 sw [(n.toNat, 20), (srcCode x, 12), (srcCode y, 4)])
  | .gredRand sw n x y => some (pack 0x40000006 sw [(n.toNat, 20), (srcCode x, 12), (srcCode y, 4)])
  | .gredRor sw n x y => some (pack 0x40000007 sw [(n.toNat, 20), (srcCode x, 12), (srcCode y, 4)])
  | .gredRxor sw n x y => some (pack 0x40000008 sw [(n.toNat, 20), (srcCode x, 12), (srcCode y, 4)])
  | .gredRaddb2 sw n x y => some (pack 0x40000009 sw [(n.toNat, 20), (srcCode x, 12), (srcCode y, 4)])
  | .gredRaddi64 sw n x y uy => some (pack 0x4000000a sw [(n.toNat, 20), (srcCode x, 12), (y.toNat, 7), (useCode uy, 4)])
  | .br sw o => some (pack 0x44000000 sw [(o.toNat, 0)])
  | .brt sw p o => some (pack 0x44400000 sw [(p.toNat, 19), (o.toNat, 0)])
  | .brf sw p o => some (pack 0x44800000 sw [(p.toNat, 19), (o.toNat, 0)])
  | .brany sw p o => some (pack 0x44c00000 sw [(p.toNat, 19), (o.toNat, 0)])
  | .brall sw p o => some (pack 0x45000000 sw [(p.toNat, 19), (o.toNat, 0)])
  | .call sw o => some (pack 0x45400000 sw [(o.toNat, 0)])
  | .jr sw x => some (pack 0x48000000 sw [(srcCode x, 12)])
  | .callr sw x => some (pack 0x48000001 sw [(srcCode x, 12)])
  | .ret sw => some (pack 0x48000002 sw [])
  | .mjoin sw m => some (pack 0x4c000000 sw [(m.toNat, 18)])
  | .mleave sw m => some (pack 0x4c400000 sw [(m.toNat, 18)])
  | .mwait sw m => some (pack 0x4c800000 sw [(m.toNat, 18)])
  | .mset sw m j => some (pack 0x4cc00000 sw [(m.toNat, 18), (j.toNat, 0)])
  | .mget sw m j => some (pack 0x4d000000 sw [(m.toNat, 18), (j.toNat, 0)])
  | .mclr sw m => some (pack 0x4d400000 sw [(m.toNat, 18)])
  | .mtest sw m d => some (pack 0x4d800000 sw [(m.toNat, 18), (d.toNat, 0)])
  | .bart sw => some (pack 0x50000000 sw [])
  | .barg sw => some (pack 0x50400000 sw [])
  | .phase sw e => some (pack 0x50800000 sw [(e.toNat, 0)])
  | .chend sw => some (pack 0x50c00000 sw [])
  | .fenl sw => some (pack 0x51000000 sw [])
  | .bartc sw k c => some (pack 0x51400000 sw [(k.toNat, 18), (c.toNat, 0)])
  | .spawn sw x y => some (pack 0x54000000 sw [(srcCode x, 12), (srcCode y, 4)])
  | .exit sw => some (pack 0x54000001 sw [])
  | .yield sw => some (pack 0x54000002 sw [])
  | .sleep sw x => some (pack 0x54000003 sw [(srcCode x, 12)])
  | .mma sw a b t r p c k => some (pack 0x58000000 sw [(a.toNat, 22), (b.toNat, 19), (t.toNat, 12), (r.toNat, 11), (p.toNat, 8), (c.toNat, 4), (k.toNat, 0)])
  | .tld sw x i => some (pack 0x5c000000 sw [(srcCode x, 12), (i.toNat, 8)])
  | .tldt8 sw d x i => some (pack 0x5c000001 sw [(d.toNat, 20), (srcCode x, 12), (i.toNat, 8)])
  | .tldt16 sw d x i => some (pack 0x5c000002 sw [(d.toNat, 20), (srcCode x, 12), (i.toNat, 8)])
  | .tst sw x i q => some (pack 0x5c000003 sw [(srcCode x, 12), (i.toNat, 8), (q.toNat, 4)])
  | .tzero sw i => some (pack 0x5c000004 sw [(i.toNat, 8)])
  | .tscl sw x i => some (pack 0x5c000005 sw [(srcCode x, 12), (i.toNat, 8)])
  | .azero sw i => some (pack 0x5c000006 sw [(i.toNat, 8)])
  | .ard sw d i q => some (pack 0x5c000007 sw [(d.toNat, 23), (i.toNat, 8), (q.toNat, 4)])
  | .awr sw x ux i q => some (pack 0x5c000008 sw [(x.toNat, 17), (useCode ux, 12), (i.toNat, 8), (q.toNat, 4)])
  | .ald sw x i q => some (pack 0x5c000009 sw [(srcCode x, 12), (i.toNat, 8), (q.toNat, 4)])
  | .ast sw x i q => some (pack 0x5c00000a sw [(srcCode x, 12), (i.toNat, 8), (q.toNat, 4)])
  | .acvb sw d i q => some (pack 0x5c00000b sw [(d.toNat, 22), (i.toNat, 8), (q.toNat, 4)])
  | .acv8 sw d i q => some (pack 0x5c00000c sw [(d.toNat, 21), (i.toNat, 8), (q.toNat, 4)])
  | .tmov sw i q => some (pack 0x5c00000d sw [(i.toNat, 8), (q.toNat, 4)])
  | .rng sw d x => some (pack 0x60000000 sw [(d.toNat, 20), (srcCode x, 12)])
  | .rng2 sw d x y => some (pack 0x60000001 sw [(d.toNat, 20), (srcCode x, 12), (srcCode y, 4)])
  | .unif sw d x => some (pack 0x60000002 sw [(d.toNat, 20), (srcCode x, 12)])
  | .bern sw d x y => some (pack 0x60000003 sw [(d.toNat, 20), (srcCode x, 12), (srcCode y, 4)])
  | .bernp sw d x y => some (pack 0x60000004 sw [(d.toNat, 20), (srcCode x, 12), (srcCode y, 4)])
  | .srbf sw d x y => some (pack 0x60000005 sw [(d.toNat, 20), (srcCode x, 12), (srcCode y, 4)])
  | .srf16 sw d x y => some (pack 0x60000006 sw [(d.toNat, 20), (srcCode x, 12), (srcCode y, 4)])
  | .sre4 sw d x y => some (pack 0x60000007 sw [(d.toNat, 20), (srcCode x, 12), (srcCode y, 4)])
  | .sre5 sw d x y => some (pack 0x60000008 sw [(d.toNat, 20), (srcCode x, 12), (srcCode y, 4)])
  | .sample sw d x y => some (pack 0x64000000 sw [(d.toNat, 20), (srcCode x, 12), (srcCode y, 4)])
  | .topk sw d x y => some (pack 0x64000001 sw [(d.toNat, 20), (srcCode x, 12), (srcCode y, 4)])
  | .argmax sw d x y => some (pack 0x64000002 sw [(d.toNat, 20), (srcCode x, 12), (srcCode y, 4)])
  | .forkc sw q x => some (pack 0x68000000 sw [(q.toNat, 20), (srcCode x, 12)])
  | .forkl sw l x => some (pack 0x68000001 sw [(l.toNat, 20), (srcCode x, 12)])
  | .rdv sw u => some (pack 0x68000002 sw [(u.toNat, 20)])
  | .erset sw n q y uy => some (pack 0x68000003 sw [(n.toNat, 20), (q.toNat, 12), (y.toNat, 7), (useCode uy, 4)])
  | .erget sw d q n => some (pack 0x68000004 sw [(d.toNat, 21), (q.toNat, 12), (n.toNat, 4)])
  | .hload sw d x y => some (pack 0x68000005 sw [(d.toNat, 20), (srcCode x, 12), (srcCode y, 4)])
  | .hdrop sw x => some (pack 0x68000006 sw [(srcCode x, 12)])
  | .estat sw d u => some (pack 0x68000007 sw [(d.toNat, 20), (u.toNat, 12)])
  | .lcfg sw x => some (pack 0x6c000000 sw [(x.toNat, 14)])
  | .lnld sw d x y => some (pack 0x6c000001 sw [(d.toNat, 20), (x.toNat, 14), (y.toNat, 6)])
  | .ljld sw d x y => some (pack 0x6c000002 sw [(d.toNat, 20), (x.toNat, 14), (y.toNat, 6)])
  | .lhld sw d x y => some (pack 0x6c000003 sw [(d.toNat, 20), (x.toNat, 14), (y.toNat, 6)])
  | .lsld sw d x y => some (pack 0x6c000004 sw [(d.toNat, 20), (x.toNat, 14), (y.toNat, 6)])
  | .lsst sw d x y => some (pack 0x6c000005 sw [(d.toNat, 20), (x.toNat, 14), (y.toNat, 6)])
  | .lclmp sw d x y => some (pack 0x6c000006 sw [(d.toNat, 20), (x.toNat, 14), (y.toNat, 6)])
  | .lswp sw d x => some (pack 0x6c000007 sw [(d.toNat, 20), (x.toNat, 14)])
  | .lcnt sw d x y => some (pack 0x6c000008 sw [(d.toNat, 20), (x.toNat, 14), (y.toNat, 6)])
  | .lrstc sw x => some (pack 0x6c000009 sw [(x.toNat, 14)])
  | .lgmap sw d x y => some (pack 0x6c00000a sw [(d.toNat, 20), (x.toNat, 14), (y.toNat, 6)])
  | .lgref sw d x y => some (pack 0x6c00000b sw [(d.toNat, 20), (x.toNat, 14), (y.toNat, 6)])
  | .lhlth sw x y => some (pack 0x6c00000c sw [(x.toNat, 14), (y.toNat, 6)])
  | .lkey sw x => some (pack 0x6c00000d sw [(x.toNat, 14)])
  | .laluLi sw d imm => some (pack 0x6c00000e sw [(d.toNat, 20), (imm.toNat / 16, 12), (imm.toNat % 16, 4)])
  | .laluAdd sw d x => some (pack 0x6c00010e sw [(d.toNat, 20), (x.toNat, 14)])
  | .lbrcLoop sw => some (pack 0x6c00000f sw [])
  | .lbrcNext sw d => some (pack 0x6c00010f sw [(d.toNat, 20)])
  | .lbrcSig sw x => some (pack 0x6c00020f sw [(x.toNat, 14)])
  | .lbrcEnd sw => some (pack 0x6c00030f sw [])
  | .xcp sw d x y => some (pack 0x70000000 sw [(d.toNat, 20), (x.toNat, 14), (y.toNat, 6)])
  | .xcpt sw d x => some (pack 0x70000001 sw [(d.toNat, 20), (x.toNat, 14)])
  | .xget sw d x y => some (pack 0x70000002 sw [(d.toNat, 20), (x.toNat, 14), (y.toNat, 6)])
  | .xput sw d x y => some (pack 0x70000003 sw [(d.toNat, 20), (x.toNat, 14), (y.toNat, 6)])
  | .xputd sw d x y => some (pack 0x70000004 sw [(d.toNat, 20), (x.toNat, 14), (y.toNat, 6)])
  | .xred sw d x y => some (pack 0x70000005 sw [(d.toNat, 20), (x.toNat, 14), (y.toNat, 6)])
  | .xgth sw d x y => some (pack 0x70000006 sw [(d.toNat, 20), (x.toNat, 14), (y.toNat, 6)])
  | .xsct sw d x y => some (pack 0x70000007 sw [(d.toNat, 20), (x.toNat, 14), (y.toNat, 6)])
  | .xbc sw d x y => some (pack 0x70000008 sw [(d.toNat, 20), (x.toNat, 14), (y.toNat, 6)])
  | .xlat sw d x y => some (pack 0x70000009 sw [(d.toNat, 20), (x.toNat, 14), (y.toNat, 6)])
  | .xfab sw d x y => some (pack 0x7000000a sw [(d.toNat, 20), (x.toNat, 14), (y.toNat, 6)])
  | .xfen sw x => some (pack 0x7000000b sw [(x.toNat, 14)])
  | .xsig sw x y => some (pack 0x7000000c sw [(x.toNat, 14), (y.toNat, 6)])
  | .xwte sw x y => some (pack 0x7000000d sw [(x.toNat, 14), (y.toNat, 6)])
  | .xaluLi sw d imm => some (pack 0x7000000e sw [(d.toNat, 20), (imm.toNat / 16, 12), (imm.toNat % 16, 4)])
  | .xaluAdd sw d x => some (pack 0x7000010e sw [(d.toNat, 20), (x.toNat, 14)])
  | .xaluShl sw d imm => some (pack 0x7000020e sw [(d.toNat, 20), (imm.toNat / 16, 12), (imm.toNat % 16, 4)])
  | .xaluMul sw d x => some (pack 0x7000030e sw [(d.toNat, 20), (x.toNat, 14)])
  | .xbrcLoop sw => some (pack 0x7000000f sw [])
  | .xbrcNext sw d => some (pack 0x7000010f sw [(d.toNat, 20)])
  | .xbrcEnd sw => some (pack 0x7000020f sw [])
  | .trap sw c => some (pack 0x74000000 sw [(c.toNat, 4)])
  | .tret sw => some (pack 0x74000001 sw [])
  | .brk sw c => some (pack 0x74000002 sw [(c.toNat, 4)])
  | .setkey sw x y => some (pack 0x74000003 sw [(srcCode x, 12), (srcCode y, 4)])
  | .setstrm sw x => some (pack 0x74000004 sw [(srcCode x, 12)])
  | .rdcnt sw d n => some (pack 0x74000005 sw [(d.toNat, 21), (n.toNat, 12)])
  | .amaxr sw d => some (pack 0x74000006 sw [(d.toNat, 20)])
  | .rdtrap sw d k => some (pack 0x74000007 sw [(d.toNat, 20), (k.toNat, 12)])
  | .wrtrap sw y => some (pack 0x74000008 sw [(srcCode y, 4)])
  | .sethnd sw x => some (pack 0x74000009 sw [(srcCode x, 12)])
  | .killt sw => some (pack 0x7400000a sw [])
  | .launch sw d x => some (pack 0x78000000 sw [(d.toNat, 20), (x.toNat, 14)])
  | .evwait sw d x => some (pack 0x78000001 sw [(d.toNat, 20), (x.toNat, 14)])
  | .evpop sw d x => some (pack 0x78000002 sw [(d.toNat, 20), (x.toNat, 14)])
  | .evsig sw d x y => some (pack 0x78000003 sw [(d.toNat, 20), (x.toNat, 14), (y.toNat, 6)])
  | .qcfg sw d x y => some (pack 0x78000004 sw [(d.toNat, 20), (x.toNat, 14), (y.toNat, 6)])
  | .qfence sw d x => some (pack 0x78000005 sw [(d.toNat, 20), (x.toNat, 14)])
  | .qdig sw d x => some (pack 0x78000006 sw [(d.toNat, 21), (x.toNat, 14)])
  | .preempt sw d x => some (pack 0x78000007 sw [(d.toNat, 20), (x.toNat, 14)])
  | .kill sw d x y => some (pack 0x78000008 sw [(d.toNat, 20), (x.toNat, 14), (y.toNat, 6)])
  | .ptout sw d x y => some (pack 0x78000009 sw [(d.toNat, 20), (x.toNat, 14), (y.toNat, 6)])
  | .ckpt sw d x y => some (pack 0x7800000a sw [(d.toNat, 20), (x.toNat, 14), (y.toNat, 6)])
  | .rstor sw d x => some (pack 0x7800000b sw [(d.toNat, 20), (x.toNat, 14)])
  | .phasec sw d x => some (pack 0x7800000c sw [(d.toNat, 21), (x.toNat, 14)])
  | .illegalInstruction => none
  | .ctlIllegal => none
  | .engineIllegal => none
  | .resultReturn _ _ => none
  | .chunkCommit _ => none
  | .spawnBinTimer _ _ => none
  | .sleepExpiry _ _ => none
  | .replayDiverge _ _ => none
  | .boundaryOpen _ => none
  | .exchangeOpen _ => none
  | .boundaryClose _ => none
  | .boundaryMessage _ _ _ _ _ => none
  | .straggler _ => none
  | .exchangeLate _ => none
  | .phaseMaxExpiry _ => none
  | .evwaitTimeout _ => none
  | .engineProgramStart _ _ => none
  | .fabricWriteArrival _ => none
  | .trapDelivery _ => none
  | .fpTrapWindowClose _ => none
  | .strikeReport _ => none
  | .scrub _ => none
  | .checkpointDrainEnd _ => none
  | .checkpointDrainTimeout _ => none
  | .throttle => none
  | .throttleEnd => none
  | .thermalTrip => none
  | .frzNFall => none
  | .frzNRise => none
  | .idcode => some 0x01
  | .segsel segment => some (0x20 + segment * 2 ^ 8)
  | .segread => some 0x21
  | .bypass => some 0xFF
  | .powerUp _ => none
  | .powerLoss => none
  | .porstN _ => none
  | .srstN _ => none
  | .freeze _ => none
  | .warmStart _ _ => none
  | .coldStart _ _ _ => none
  | .clearMonitor _ _ => none
  | .setBinning _ _ _ _ _ => none
  | .recalibrate _ => none
  | .recalibrateDone _ => none
  | .pathDelayMeasurement _ _ => none
  | .temperatureSample _ _ => none
  | .hello _ _ _ _ => none
  | .helloCreate _ _ _ _ => none
  | .helloDestroy _ _ _ _ => none
  | .load _ _ _ _ => none
  | .loadHostPortRecord _ _ => none
  | .read _ _ _ _ => none
  | .start _ _ _ _ _ _ _ => none
  | .xlateQuery _ _ _ _ => none
  | .xlateMap _ _ _ _ => none
  | .xlateUnmap _ _ _ _ => none
  | .xlateSetAttributes _ _ _ _ => none
  | .xlateBindFabricWindow _ _ _ _ => none
  | .xlateMigrate _ _ _ _ => none
  | .atomicAdd32 _ _ _ _ => none
  | .atomicAdd64 _ _ _ _ => none
  | .atomicSwap32 _ _ _ _ => none
  | .atomicCas32 _ _ _ _ => none
  | .atomicCas64 _ _ _ _ => none
  | .ckptMsgStart _ _ => none
  | .ckptMsgWait _ _ => none
  | .ckptMsgPoll _ _ => none
  | .ckptMsgRstor _ _ => none
  | .plaganAck _ => none
  | .retransmit _ => none
  | .neighbourSolicitation _ => none
  | .nonPlaganFrame => none
  | .fabricPortDown _ => none
  | .fabricPortUp _ => none
  | .stopSignal _ _ => none
  | .fabricAcknowledgement _ _ _ => none
  | .sweepEnd _ _ => none
  | .matrixOperationComplete _ _ => none
  | .rstorComplete _ _ => none
  | .corruptPlaganMessage => none
  | .tripCooldown => none
  | .calibrationExpiry _ => none

/-- The instruction that a word of major 1 selects by its function field (04 R82, R83). -/
noncomputable def candidate1 (w : Nat) : Option Instr :=
  match w % 16 with
  | 0 => some (.iadd (flagAt w 31) (fieldAt 6 w 20) (srcAt w 12) (srcAt w 4))
  | 1 => some (.isub (flagAt w 31) (fieldAt 6 w 20) (srcAt w 12) (srcAt w 4))
  | 2 => some (.imul (flagAt w 31) (fieldAt 6 w 20) (srcAt w 12) (srcAt w 4))
  | 3 => some (.imulh (flagAt w 31) (fieldAt 6 w 20) (srcAt w 12) (srcAt w 4))
  | 4 => some (.umulh (flagAt w 31) (fieldAt 6 w 20) (srcAt w 12) (srcAt w 4))
  | 5 => some (.imin (flagAt w 31) (fieldAt 6 w 20) (srcAt w 12) (srcAt w 4))
  | 6 => some (.imax (flagAt w 31) (fieldAt 6 w 20) (srcAt w 12) (srcAt w 4))
  | 7 => some (.umin (flagAt w 31) (fieldAt 6 w 20) (srcAt w 12) (srcAt w 4))
  | 8 => some (.umax (flagAt w 31) (fieldAt 6 w 20) (srcAt w 12) (srcAt w 4))
  | 9 => some (.vand (flagAt w 31) (fieldAt 6 w 20) (srcAt w 12) (srcAt w 4))
  | 10 => some (.vor (flagAt w 31) (fieldAt 6 w 20) (srcAt w 12) (srcAt w 4))
  | 11 => some (.vxor (flagAt w 31) (fieldAt 6 w 20) (srcAt w 12) (srcAt w 4))
  | 12 => some (.shl (flagAt w 31) (fieldAt 6 w 20) (srcAt w 12) (srcAt w 4))
  | 13 => some (.shr (flagAt w 31) (fieldAt 6 w 20) (srcAt w 12) (srcAt w 4))
  | 14 => some (.sra (flagAt w 31) (fieldAt 6 w 20) (srcAt w 12) (srcAt w 4))
  | 15 => some (.iaddc (flagAt w 31) (fieldAt 6 w 20) (srcAt w 12) (srcAt w 4))
  | _ => none

/-- The instruction that a word of major 2 selects by its function field (04 R82, R83). -/
noncomputable def candidate2 (w : Nat) : Option Instr :=
  match w / 2 ^ 8 % 16 with
  | 0 => some (.iaddi (flagAt w 31) (fieldAt 6 w 20) (srcAt w 12) (fieldAt 8 w 0))
  | 1 => some (.isubi (flagAt w 31) (fieldAt 6 w 20) (srcAt w 12) (fieldAt 8 w 0))
  | 2 => some (.imuli (flagAt w 31) (fieldAt 6 w 20) (srcAt w 12) (fieldAt 8 w 0))
  | 3 => some (.imulhi (flagAt w 31) (fieldAt 6 w 20) (srcAt w 12) (fieldAt 8 w 0))
  | 4 => some (.umulhi (flagAt w 31) (fieldAt 6 w 20) (srcAt w 12) (fieldAt 8 w 0))
  | 5 => some (.imini (flagAt w 31) (fieldAt 6 w 20) (srcAt w 12) (fieldAt 8 w 0))
  | 6 => some (.imaxi (flagAt w 31) (fieldAt 6 w 20) (srcAt w 12) (fieldAt 8 w 0))
  | 7 => some (.umini (flagAt w 31) (fieldAt 6 w 20) (srcAt w 12) (fieldAt 8 w 0))
  | 8 => some (.umaxi (flagAt w 31) (fieldAt 6 w 20) (srcAt w 12) (fieldAt 8 w 0))
  | 9 => some (.andi (flagAt w 31) (fieldAt 6 w 20) (srcAt w 12) (fieldAt 8 w 0))
  | 10 => some (.ori (flagAt w 31) (fieldAt 6 w 20) (srcAt w 12) (fieldAt 8 w 0))
  | 11 => some (.xori (flagAt w 31) (fieldAt 6 w 20) (srcAt w 12) (fieldAt 8 w 0))
  | 12 => some (.shli (flagAt w 31) (fieldAt 6 w 20) (srcAt w 12) (fieldAt 8 w 0))
  | 13 => some (.shri (flagAt w 31) (fieldAt 6 w 20) (srcAt w 12) (fieldAt 8 w 0))
  | 14 => some (.srai (flagAt w 31) (fieldAt 6 w 20) (srcAt w 12) (fieldAt 8 w 0))
  | 15 => some (.movi (flagAt w 31) (fieldAt 6 w 20) (fieldAt 8 w 0))
  | _ => none

/-- The instruction that a word of major 3 selects by its function field (04 R82, R83). -/
noncomputable def candidate3 (w : Nat) : Option Instr :=
  match w % 16 with
  | 0 => some (.isubb (flagAt w 31) (fieldAt 6 w 20) (srcAt w 12) (srcAt w 4))
  | 1 => some (.iabs (flagAt w 31) (fieldAt 6 w 20) (srcAt w 12))
  | 2 => some (.ineg (flagAt w 31) (fieldAt 6 w 20) (srcAt w 12))
  | 3 => some (.vnot (flagAt w 31) (fieldAt 6 w 20) (srcAt w 12))
  | 4 => some (.clz (flagAt w 31) (fieldAt 6 w 20) (srcAt w 12))
  | 5 => some (.popc (flagAt w 31) (fieldAt 6 w 20) (srcAt w 12))
  | 6 => some (.brev (flagAt w 31) (fieldAt 6 w 20) (srcAt w 12))
  | 7 => some (.bfe (flagAt w 31) (fieldAt 6 w 20) (srcAt w 12) (srcAt w 4))
  | 8 => some (.bfi (flagAt w 31) (fieldAt 6 w 20) (srcAt w 12) (srcAt w 4))
  | 9 => some (.iadds (flagAt w 31) (fieldAt 6 w 20) (srcAt w 12) (srcAt w 4))
  | 10 => some (.isubs (flagAt w 31) (fieldAt 6 w 20) (srcAt w 12) (srcAt w 4))
  | 11 => some (.uadds (flagAt w 31) (fieldAt 6 w 20) (srcAt w 12) (srcAt w 4))
  | 12 => some (.imad (flagAt w 31) (fieldAt 6 w 20) (srcAt w 12) (srcAt w 4))
  | 13 => some (.sad (flagAt w 31) (fieldAt 6 w 20) (srcAt w 12) (srcAt w 4))
  | 14 => some (.rotl (flagAt w 31) (fieldAt 6 w 20) (srcAt w 12) (srcAt w 4))
  | 15 => some (.lea2 (flagAt w 31) (fieldAt 6 w 20) (srcAt w 12) (srcAt w 4))
  | _ => none

/-- The instruction that a word of major 4 selects by its function field (04 R82, R83). -/
noncomputable def candidate4 (w : Nat) : Option Instr :=
  match w % 16 with
  | 0 => some (.fadd (flagAt w 31) (fieldAt 6 w 20) (srcAt w 12) (srcAt w 4))
  | 1 => some (.fsub (flagAt w 31) (fieldAt 6 w 20) (srcAt w 12) (srcAt w 4))
  | 2 => some (.fmul (flagAt w 31) (fieldAt 6 w 20) (srcAt w 12) (srcAt w 4))
  | 3 => some (.ffma (flagAt w 31) (fieldAt 6 w 20) (srcAt w 12) (srcAt w 4))
  | 4 => some (.ffnma (flagAt w 31) (fieldAt 6 w 20) (srcAt w 12) (srcAt w 4))
  | 5 => some (.fmin (flagAt w 31) (fieldAt 6 w 20) (srcAt w 12) (srcAt w 4))
  | 6 => some (.fmax (flagAt w 31) (fieldAt 6 w 20) (srcAt w 12) (srcAt w 4))
  | 7 => some (.fabs (flagAt w 31) (fieldAt 6 w 20) (srcAt w 12))
  | 8 => some (.fneg (flagAt w 31) (fieldAt 6 w 20) (srcAt w 12))
  | 9 => some (.fcpys (flagAt w 31) (fieldAt 6 w 20) (srcAt w 12) (srcAt w 4))
  | 10 => some (.fdiv (flagAt w 31) (fieldAt 6 w 20) (srcAt w 12) (srcAt w 4))
  | 11 => some (.fsqrt (flagAt w 31) (fieldAt 6 w 20) (srcAt w 12))
  | 12 => some (.frint (flagAt w 31) (fieldAt 6 w 20) (srcAt w 12) (fieldAt 2 w 8))
  | 13 => some (.fclass (flagAt w 31) (fieldAt 6 w 20) (srcAt w 12))
  | 14 => some (.fscale (flagAt w 31) (fieldAt 6 w 20) (srcAt w 12) (srcAt w 4))
  | 15 => some (.ffrac (flagAt w 31) (fieldAt 6 w 20) (srcAt w 12))
  | _ => none

/-- The instruction that a word of major 5 selects by its function field (04 R82, R83). -/
noncomputable def candidate5 (w : Nat) : Option Instr :=
  match w % 8 with
  | 0 => some (.hadd (flagAt w 31) (fieldAt 6 w 20) (srcAt w 12) (srcAt w 4) (fieldAt 1 w 3))
  | 1 => some (.hsub (flagAt w 31) (fieldAt 6 w 20) (srcAt w 12) (srcAt w 4) (fieldAt 1 w 3))
  | 2 => some (.hmul (flagAt w 31) (fieldAt 6 w 20) (srcAt w 12) (srcAt w 4) (fieldAt 1 w 3))
  | 3 => some (.hfma (flagAt w 31) (fieldAt 6 w 20) (srcAt w 12) (srcAt w 4) (fieldAt 1 w 3))
  | 4 => some (.hmin (flagAt w 31) (fieldAt 6 w 20) (srcAt w 12) (srcAt w 4) (fieldAt 1 w 3))
  | 5 => some (.hmax (flagAt w 31) (fieldAt 6 w 20) (srcAt w 12) (srcAt w 4) (fieldAt 1 w 3))
  | 6 => some (.hneg (flagAt w 31) (fieldAt 6 w 20) (srcAt w 12) (fieldAt 1 w 3))
  | 7 => some (.hdot2 (flagAt w 31) (fieldAt 6 w 20) (srcAt w 12) (srcAt w 4) (fieldAt 1 w 3))
  | _ => none

/-- The instruction that a word of major 6 selects by its function field (04 R82, R83). -/
noncomputable def candidate6 (w : Nat) : Option Instr :=
  match w % 16 with
  | 0 => some (.cvf2i (flagAt w 31) (fieldAt 6 w 20) (srcAt w 12))
  | 1 => some (.cvi2f (flagAt w 31) (fieldAt 6 w 20) (srcAt w 12))
  | 2 => some (.cvn2f (flagAt w 31) (fieldAt 6 w 20) (srcAt w 12))
  | 3 => some (.cvf2n (flagAt w 31) (fieldAt 6 w 20) (srcAt w 12))
  | 4 => some (.cvf2b (flagAt w 31) (fieldAt 6 w 20) (srcAt w 12))
  | 5 => some (.cvb2f (flagAt w 31) (fieldAt 6 w 20) (srcAt w 12))
  | 6 => some (.cvf2h (flagAt w 31) (fieldAt 6 w 20) (srcAt w 12))
  | 7 => some (.cvh2f (flagAt w 31) (fieldAt 6 w 20) (srcAt w 12))
  | 8 => some (.cvf2e4 (flagAt w 31) (fieldAt 6 w 20) (srcAt w 12) (srcAt w 4))
  | 9 => some (.cvf2e5 (flagAt w 31) (fieldAt 6 w 20) (srcAt w 12) (srcAt w 4))
  | 10 => some (.cvf2e2 (flagAt w 31) (fieldAt 6 w 20) (srcAt w 12) (srcAt w 4))
  | 11 => some (.cve42f (flagAt w 31) (fieldAt 6 w 20) (srcAt w 12) (srcAt w 4))
  | 12 => some (.cve52f (flagAt w 31) (fieldAt 6 w 20) (srcAt w 12) (srcAt w 4))
  | 13 => some (.cve22f (flagAt w 31) (fieldAt 6 w 20) (srcAt w 12) (srcAt w 4))
  | 14 => some (.pk2h (flagAt w 31) (fieldAt 6 w 20) (srcAt w 12) (srcAt w 4))
  | 15 => some (.pk4b (flagAt w 31) (fieldAt 6 w 20) (srcAt w 12) (srcAt w 4))
  | _ => none

/-- The instruction that a word of major 7 selects by its function field (04 R82, R83). -/
noncomputable def candidate7 (w : Nat) : Option Instr :=
  match w % 16 with
  | 0 => some (.exp2 (flagAt w 31) (fieldAt 6 w 20) (srcAt w 12))
  | 1 => some (.log2 (flagAt w 31) (fieldAt 6 w 20) (srcAt w 12))
  | 2 => some (.rcp (flagAt w 31) (fieldAt 6 w 20) (srcAt w 12))
  | 3 => some (.rsqrt (flagAt w 31) (fieldAt 6 w 20) (srcAt w 12))
  | 4 => some (.sinpi (flagAt w 31) (fieldAt 6 w 20) (srcAt w 12))
  | 5 => some (.cospi (flagAt w 31) (fieldAt 6 w 20) (srcAt w 12))
  | 6 => some (.tanh (flagAt w 31) (fieldAt 6 w 20) (srcAt w 12))
  | 7 => some (.sigm (flagAt w 31) (fieldAt 6 w 20) (srcAt w 12))
  | _ => none

/-- The instruction that a word of major 8 selects by its function field (04 R82, R83). -/
noncomputable def candidate8 (w : Nat) : Option Instr :=
  match w % 16 with
  | 0 => some (.icmpEq (flagAt w 31) (fieldAt 3 w 23) (fieldAt 3 w 20) (srcAt w 12) (srcAt w 4))
  | 1 => some (.icmpNe (flagAt w 31) (fieldAt 3 w 23) (fieldAt 3 w 20) (srcAt w 12) (srcAt w 4))
  | 2 => some (.icmpLt (flagAt w 31) (fieldAt 3 w 23) (fieldAt 3 w 20) (srcAt w 12) (srcAt w 4))
  | 3 => some (.icmpLe (flagAt w 31) (fieldAt 3 w 23) (fieldAt 3 w 20) (srcAt w 12) (srcAt w 4))
  | 4 => some (.icmpGt (flagAt w 31) (fieldAt 3 w 23) (fieldAt 3 w 20) (srcAt w 12) (srcAt w 4))
  | 5 => some (.icmpGe (flagAt w 31) (fieldAt 3 w 23) (fieldAt 3 w 20) (srcAt w 12) (srcAt w 4))
  | 6 => some (.icmpLtn (flagAt w 31) (fieldAt 3 w 23) (fieldAt 3 w 20) (srcAt w 12) (srcAt w 4))
  | 7 => some (.icmpLen (flagAt w 31) (fieldAt 3 w 23) (fieldAt 3 w 20) (srcAt w 12) (srcAt w 4))
  | 8 => some (.icmpGtn (flagAt w 31) (fieldAt 3 w 23) (fieldAt 3 w 20) (srcAt w 12) (srcAt w 4))
  | 9 => some (.icmpGen (flagAt w 31) (fieldAt 3 w 23) (fieldAt 3 w 20) (srcAt w 12) (srcAt w 4))
  | 10 => some (.icmpFeq (flagAt w 31) (fieldAt 3 w 23) (fieldAt 3 w 20) (srcAt w 12) (srcAt w 4))
  | 11 => some (.icmpFne (flagAt w 31) (fieldAt 3 w 23) (fieldAt 3 w 20) (srcAt w 12) (srcAt w 4))
  | 12 => some (.icmpFlt (flagAt w 31) (fieldAt 3 w 23) (fieldAt 3 w 20) (srcAt w 12) (srcAt w 4))
  | 13 => some (.icmpFle (flagAt w 31) (fieldAt 3 w 23) (fieldAt 3 w 20) (srcAt w 12) (srcAt w 4))
  | 14 => some (.icmpFuno (flagAt w 31) (fieldAt 3 w 23) (fieldAt 3 w 20) (srcAt w 12) (srcAt w 4))
  | 15 => some (.icmpFord (flagAt w 31) (fieldAt 3 w 23) (fieldAt 3 w 20) (srcAt w 12) (srcAt w 4))
  | _ => none

/-- The instruction that a word of major 9 selects by its function field (04 R82, R83). -/
noncomputable def candidate9 (w : Nat) : Option Instr :=
  match w % 16 with
  | 0 => some (.shfl (flagAt w 31) (fieldAt 6 w 20) (srcAt w 12) (srcAt w 4))
  | 1 => some (.ballot (flagAt w 31) (fieldAt 5 w 21) (fieldAt 3 w 14))
  | 2 => some (.vany (flagAt w 31) (fieldAt 3 w 20) (fieldAt 3 w 14))
  | 3 => some (.vall (flagAt w 31) (fieldAt 3 w 20) (fieldAt 3 w 14))
  | 4 => some (.rsumi (flagAt w 31) (fieldAt 6 w 20) (srcAt w 12))
  | 5 => some (.rmini (flagAt w 31) (fieldAt 6 w 20) (srcAt w 12))
  | 6 => some (.rmaxi (flagAt w 31) (fieldAt 6 w 20) (srcAt w 12))
  | 7 => some (.rsumf (flagAt w 31) (fieldAt 6 w 20) (srcAt w 12))
  | 8 => some (.scani (flagAt w 31) (fieldAt 6 w 20) (srcAt w 12))
  | 9 => some (.scanf (flagAt w 31) (fieldAt 6 w 20) (srcAt w 12))
  | 10 => some (.scanxi (flagAt w 31) (fieldAt 6 w 20) (srcAt w 12))
  | 11 => some (.matchx (flagAt w 31) (fieldAt 5 w 21) (srcAt w 12))
  | 12 => some (.popm (flagAt w 31) (fieldAt 6 w 20) (fieldAt 3 w 14))
  | 13 => some (.first (flagAt w 31) (fieldAt 6 w 20) (srcAt w 12))
  | 14 => some (.cmpct (flagAt w 31) (fieldAt 6 w 20) (fieldAt 3 w 14))
  | _ => none

/-- The instruction that a word of major 10 selects by its function field (04 R82, R83). -/
noncomputable def candidate10 (w : Nat) : Option Instr :=
  match w % 16 with
  | 0 => some (.sadd (flagAt w 31) (fieldAt 6 w 20) (srcAt w 12) (srcAt w 4))
  | 1 => some (.ssub (flagAt w 31) (fieldAt 6 w 20) (srcAt w 12) (srcAt w 4))
  | 2 => some (.smul (flagAt w 31) (fieldAt 6 w 20) (srcAt w 12) (srcAt w 4))
  | 3 => some (.smulh (flagAt w 31) (fieldAt 6 w 20) (srcAt w 12) (srcAt w 4))
  | 4 => some (.sumulh (flagAt w 31) (fieldAt 6 w 20) (srcAt w 12) (srcAt w 4))
  | 5 => some (.smin (flagAt w 31) (fieldAt 6 w 20) (srcAt w 12) (srcAt w 4))
  | 6 => some (.smax (flagAt w 31) (fieldAt 6 w 20) (srcAt w 12) (srcAt w 4))
  | 7 => some (.sumin (flagAt w 31) (fieldAt 6 w 20) (srcAt w 12) (srcAt w 4))
  | 8 => some (.sumax (flagAt w 31) (fieldAt 6 w 20) (srcAt w 12) (srcAt w 4))
  | 9 => some (.sand (flagAt w 31) (fieldAt 6 w 20) (srcAt w 12) (srcAt w 4))
  | 10 => some (.sor (flagAt w 31) (fieldAt 6 w 20) (srcAt w 12) (srcAt w 4))
  | 11 => some (.sxor (flagAt w 31) (fieldAt 6 w 20) (srcAt w 12) (srcAt w 4))
  | 12 => some (.sshl (flagAt w 31) (fieldAt 6 w 20) (srcAt w 12) (srcAt w 4))
  | 13 => some (.sshr (flagAt w 31) (fieldAt 6 w 20) (srcAt w 12) (srcAt w 4))
  | 14 => some (.ssra (flagAt w 31) (fieldAt 6 w 20) (srcAt w 12) (srcAt w 4))
  | 15 => some (.smov (flagAt w 31) (fieldAt 6 w 20) (srcAt w 12))
  | _ => none

/-- The instruction that a word of major 11 selects by its function field (04 R82, R83). -/
noncomputable def candidate11 (w : Nat) : Option Instr :=
  match w / 2 ^ 8 % 16 with
  | 0 => some (.saddi (flagAt w 31) (fieldAt 6 w 20) (srcAt w 12) (fieldAt 8 w 0))
  | 1 => some (.ssubi (flagAt w 31) (fieldAt 6 w 20) (srcAt w 12) (fieldAt 8 w 0))
  | 2 => some (.smuli (flagAt w 31) (fieldAt 6 w 20) (srcAt w 12) (fieldAt 8 w 0))
  | 3 => some (.smulhi (flagAt w 31) (fieldAt 6 w 20) (srcAt w 12) (fieldAt 8 w 0))
  | 4 => some (.sumulhi (flagAt w 31) (fieldAt 6 w 20) (srcAt w 12) (fieldAt 8 w 0))
  | 5 => some (.smini (flagAt w 31) (fieldAt 6 w 20) (srcAt w 12) (fieldAt 8 w 0))
  | 6 => some (.smaxi (flagAt w 31) (fieldAt 6 w 20) (srcAt w 12) (fieldAt 8 w 0))
  | 7 => some (.sumini (flagAt w 31) (fieldAt 6 w 20) (srcAt w 12) (fieldAt 8 w 0))
  | 8 => some (.sumaxi (flagAt w 31) (fieldAt 6 w 20) (srcAt w 12) (fieldAt 8 w 0))
  | 9 => some (.sandi (flagAt w 31) (fieldAt 6 w 20) (srcAt w 12) (fieldAt 8 w 0))
  | 10 => some (.sori (flagAt w 31) (fieldAt 6 w 20) (srcAt w 12) (fieldAt 8 w 0))
  | 11 => some (.sxori (flagAt w 31) (fieldAt 6 w 20) (srcAt w 12) (fieldAt 8 w 0))
  | 12 => some (.sshli (flagAt w 31) (fieldAt 6 w 20) (srcAt w 12) (fieldAt 8 w 0))
  | 13 => some (.sshri (flagAt w 31) (fieldAt 6 w 20) (srcAt w 12) (fieldAt 8 w 0))
  | 14 => some (.ssrai (flagAt w 31) (fieldAt 6 w 20) (srcAt w 12) (fieldAt 8 w 0))
  | 15 => some (.smovi (flagAt w 31) (fieldAt 6 w 20) (fieldAt 8 w 0))
  | _ => none

/-- The instruction that a word of major 12 selects by its function field (04 R82, R83). -/
noncomputable def candidate12 (w : Nat) : Option Instr :=
  match w % 16 with
  | 0 => some (.mov (flagAt w 31) (fieldAt 6 w 20) (srcAt w 12))
  | 1 => some (.vfroms (flagAt w 31) (fieldAt 6 w 20) (srcAt w 12))
  | 2 => some (.sfromv (flagAt w 31) (fieldAt 6 w 20) (srcAt w 12))
  | 3 => some (.sel (flagAt w 31) (fieldAt 6 w 20) (srcAt w 12) (srcAt w 4))
  | 4 => some (.pand (flagAt w 31) (fieldAt 3 w 20) (fieldAt 3 w 14) (fieldAt 3 w 6))
  | 5 => some (.por (flagAt w 31) (fieldAt 3 w 20) (fieldAt 3 w 14) (fieldAt 3 w 6))
  | 6 => some (.pxor (flagAt w 31) (fieldAt 3 w 20) (fieldAt 3 w 14) (fieldAt 3 w 6))
  | 7 => some (.pnot (flagAt w 31) (fieldAt 3 w 20) (fieldAt 3 w 14))
  | 8 => some (.ptov (flagAt w 31) (fieldAt 6 w 20) (fieldAt 3 w 14))
  | 9 => some (.vtop (flagAt w 31) (fieldAt 3 w 20) (srcAt w 12))
  | 10 => some (.rdid (flagAt w 31) (fieldAt 6 w 20) (fieldAt 8 w 4))
  | 11 => some (.rdst (flagAt w 31) (fieldAt 6 w 20) (fieldAt 8 w 12))
  | 12 => some (.wrst (flagAt w 31) (fieldAt 8 w 12) (srcAt w 4))
  | 13 => some (.clock (flagAt w 31) (fieldAt 6 w 20))
  | 14 => some (.adr (flagAt w 31) (fieldAt 6 w 20) (fieldAt 16 w 4))
  | 15 => some (.nop (flagAt w 31))
  | _ => none

/-- The instruction that a word of major 13 selects by its function field (04 R82, R83). -/
noncomputable def candidate13 (w : Nat) : Option Instr :=
  match w % 16 with
  | 0 => some (.ld8 (flagAt w 31) (fieldAt 6 w 20) (srcAt w 12) (fieldAt 8 w 4))
  | 1 => some (.ld8s (flagAt w 31) (fieldAt 6 w 20) (srcAt w 12) (fieldAt 8 w 4))
  | 2 => some (.ld16 (flagAt w 31) (fieldAt 6 w 20) (srcAt w 12) (fieldAt 8 w 4))
  | 3 => some (.ld16s (flagAt w 31) (fieldAt 6 w 20) (srcAt w 12) (fieldAt 8 w 4))
  | 4 => some (.ld32 (flagAt w 31) (fieldAt 6 w 20) (srcAt w 12) (fieldAt 8 w 4))
  | 5 => some (.ld64 (flagAt w 31) (fieldAt 5 w 21) (srcAt w 12) (fieldAt 8 w 4))
  | 6 => some (.ld128 (flagAt w 31) (fieldAt 4 w 22) (srcAt w 12) (fieldAt 8 w 4))
  | 7 => some (.ldfe (flagAt w 31) (fieldAt 6 w 20) (srcAt w 12) (fieldAt 8 w 4))
  | 8 => some (.ldft (flagAt w 31) (fieldAt 6 w 20) (srcAt w 12) (fieldAt 8 w 4))
  | 9 => some (.ldfc (flagAt w 31) (fieldAt 6 w 20) (srcAt w 12) (fieldAt 8 w 4))
  | 10 => some (.lds32 (flagAt w 31) (fieldAt 6 w 20) (srcAt w 12) (fieldAt 8 w 4))
  | 11 => some (.ldtag (flagAt w 31) (fieldAt 6 w 20) (srcAt w 12) (fieldAt 8 w 4))
  | _ => none

/-- The instruction that a word of major 14 selects by its function field (04 R82, R83). -/
noncomputable def candidate14 (w : Nat) : Option Instr :=
  match w % 16 with
  | 0 => some (.st8 (flagAt w 31) (fieldAt 6 w 20) (srcAt w 12) (fieldAt 8 w 4))
  | 1 => some (.st16 (flagAt w 31) (fieldAt 6 w 20) (srcAt w 12) (fieldAt 8 w 4))
  | 2 => some (.st32 (flagAt w 31) (fieldAt 6 w 20) (srcAt w 12) (fieldAt 8 w 4))
  | 3 => some (.st64 (flagAt w 31) (fieldAt 5 w 21) (srcAt w 12) (fieldAt 8 w 4))
  | 4 => some (.st128 (flagAt w 31) (fieldAt 4 w 22) (srcAt w 12) (fieldAt 8 w 4))
  | 5 => some (.stf (flagAt w 31) (fieldAt 6 w 20) (srcAt w 12) (fieldAt 8 w 4))
  | 6 => some (.ste (flagAt w 31) (srcAt w 12) (fieldAt 8 w 4))
  | 7 => some (.sts32 (flagAt w 31) (fieldAt 6 w 20) (srcAt w 12) (fieldAt 8 w 4))
  | 8 => some (.stcd (flagAt w 31) (srcAt w 12) (fieldAt 8 w 4))
  | _ => none

/-- The instruction that a word of major 15 selects by its function field (04 R82, R83). -/
noncomputable def candidate15 (w : Nat) : Option Instr :=
  match w % 16 with
  | 0 => some (.aadd (flagAt w 31) (fieldAt 6 w 20) (srcAt w 12) (srcAt w 4))
  | 1 => some (.amin (flagAt w 31) (fieldAt 6 w 20) (srcAt w 12) (srcAt w 4))
  | 2 => some (.amax (flagAt w 31) (fieldAt 6 w 20) (srcAt w 12) (srcAt w 4))
  | 3 => some (.aminn (flagAt w 31) (fieldAt 6 w 20) (srcAt w 12) (srcAt w 4))
  | 4 => some (.amaxn (flagAt w 31) (fieldAt 6 w 20) (srcAt w 12) (srcAt w 4))
  | 5 => some (.aand (flagAt w 31) (fieldAt 6 w 20) (srcAt w 12) (srcAt w 4))
  | 6 => some (.aor (flagAt w 31) (fieldAt 6 w 20) (srcAt w 12) (srcAt w 4))
  | 7 => some (.axor (flagAt w 31) (fieldAt 6 w 20) (srcAt w 12) (srcAt w 4))
  | 8 => some (.axch (flagAt w 31) (fieldAt 6 w 20) (srcAt w 12) (srcAt w 4))
  | 9 => some (.acas (flagAt w 31) (fieldAt 6 w 20) (srcAt w 12) (srcAt w 4))
  | 10 => some (.afadd (flagAt w 31) (fieldAt 6 w 20) (srcAt w 12) (srcAt w 4))
  | 11 => some (.aincw (flagAt w 31) (fieldAt 6 w 20) (srcAt w 12) (srcAt w 4))
  | _ => none

/-- The instruction that a word of major 16 selects by its function field (04 R82, R83). -/
noncomputable def candidate16 (w : Nat) : Option Instr :=
  match w % 16 with
  | 0 => some (.gredRaddi (flagAt w 31) (fieldAt 4 w 20) (srcAt w 12) (srcAt w 4))
  | 1 => some (.gredRaddf (flagAt w 31) (fieldAt 4 w 20) (srcAt w 12) (srcAt w 4))
  | 2 => some (.gredRmini (flagAt w 31) (fieldAt 4 w 20) (srcAt w 12) (srcAt w 4))
  | 3 => some (.gredRmaxi (flagAt w 31) (fieldAt 4 w 20) (srcAt w 12) (srcAt w 4))
  | 4 => some (.gredRminf (flagAt w 31) (fieldAt 4 w 20) (srcAt w 12) (srcAt w 4))
  | 5 => some (.gredRmaxf (flagAt w 31) (fieldAt 4 w 20) (srcAt w 12) (srcAt w 4))
  | 6 => some (.gredRand (flagAt w 31) (fieldAt 4 w 20) (srcAt w 12) (srcAt w 4))
  | 7 => some (.gredRor (flagAt w 31) (fieldAt 4 w 20) (srcAt w 12) (srcAt w 4))
  | 8 => some (.gredRxor (flagAt w 31) (fieldAt 4 w 20) (srcAt w 12) (srcAt w 4))
  | 9 => some (.gredRaddb2 (flagAt w 31) (fieldAt 4 w 20) (srcAt w 12) (srcAt w 4))
  | 10 => some (.gredRaddi64 (flagAt w 31) (fieldAt 4 w 20) (srcAt w 12) (fieldAt 5 w 7) (useOf (w / 2 ^ 4)))
  | _ => none

/-- The instruction that a word of major 17 selects by its function field (04 R82, R83). -/
noncomputable def candidate17 (w : Nat) : Option Instr :=
  match w / 2 ^ 22 % 16 with
  | 0 => some (.br (flagAt w 31) (fieldAt 19 w 0))
  | 1 => some (.brt (flagAt w 31) (fieldAt 3 w 19) (fieldAt 19 w 0))
  | 2 => some (.brf (flagAt w 31) (fieldAt 3 w 19) (fieldAt 19 w 0))
  | 3 => some (.brany (flagAt w 31) (fieldAt 3 w 19) (fieldAt 19 w 0))
  | 4 => some (.brall (flagAt w 31) (fieldAt 3 w 19) (fieldAt 19 w 0))
  | 5 => some (.call (flagAt w 31) (fieldAt 19 w 0))
  | _ => none

/-- The instruction that a word of major 18 selects by its function field (04 R82, R83). -/
noncomputable def candidate18 (w : Nat) : Option Instr :=
  match w % 16 with
  | 0 => some (.jr (flagAt w 31) (srcAt w 12))
  | 1 => some (.callr (flagAt w 31) (srcAt w 12))
  | 2 => some (.ret (flagAt w 31))
  | _ => none

/-- The instruction that a word of major 19 selects by its function field (04 R82, R83). -/
noncomputable def candidate19 (w : Nat) : Option Instr :=
  match w / 2 ^ 22 % 16 with
  | 0 => some (.mjoin (flagAt w 31) (fieldAt 4 w 18))
  | 1 => some (.mleave (flagAt w 31) (fieldAt 4 w 18))
  | 2 => some (.mwait (flagAt w 31) (fieldAt 4 w 18))
  | 3 => some (.mset (flagAt w 31) (fieldAt 4 w 18) (fieldAt 5 w 0))
  | 4 => some (.mget (flagAt w 31) (fieldAt 4 w 18) (fieldAt 5 w 0))
  | 5 => some (.mclr (flagAt w 31) (fieldAt 4 w 18))
  | 6 => some (.mtest (flagAt w 31) (fieldAt 4 w 18) (fieldAt 3 w 0))
  | _ => none

/-- The instruction that a word of major 20 selects by its function field (04 R82, R83). -/
noncomputable def candidate20 (w : Nat) : Option Instr :=
  match w / 2 ^ 22 % 16 with
  | 0 => some (.bart (flagAt w 31))
  | 1 => some (.barg (flagAt w 31))
  | 2 => some (.phase (flagAt w 31) (fieldAt 18 w 0))
  | 3 => some (.chend (flagAt w 31))
  | 4 => some (.fenl (flagAt w 31))
  | 5 => some (.bartc (flagAt w 31) (fieldAt 4 w 18) (fieldAt 18 w 0))
  | _ => none

/-- The instruction that a word of major 21 selects by its function field (04 R82, R83). -/
noncomputable def candidate21 (w : Nat) : Option Instr :=
  match w % 16 with
  | 0 => some (.spawn (flagAt w 31) (srcAt w 12) (srcAt w 4))
  | 1 => some (.exit (flagAt w 31))
  | 2 => some (.yield (flagAt w 31))
  | 3 => some (.sleep (flagAt w 31) (srcAt w 12))
  | _ => none

/-- The instruction that a word of major 22 selects by its function field (04 R82, R83). -/
noncomputable def candidate22 (w : Nat) : Option Instr :=
  some (.mma (flagAt w 31) (fieldAt 4 w 22) (fieldAt 3 w 19) (fieldAt 4 w 12) (fieldAt 1 w 11) (fieldAt 3 w 8) (fieldAt 4 w 4) (fieldAt 4 w 0))

/-- The instruction that a word of major 23 selects by its function field (04 R82, R83). -/
noncomputable def candidate23 (w : Nat) : Option Instr :=
  match w % 16 with
  | 0 => some (.tld (flagAt w 31) (srcAt w 12) (fieldAt 4 w 8))
  | 1 => some (.tldt8 (flagAt w 31) (fieldAt 6 w 20) (srcAt w 12) (fieldAt 4 w 8))
  | 2 => some (.tldt16 (flagAt w 31) (fieldAt 6 w 20) (srcAt w 12) (fieldAt 4 w 8))
  | 3 => some (.tst (flagAt w 31) (srcAt w 12) (fieldAt 4 w 8) (fieldAt 4 w 4))
  | 4 => some (.tzero (flagAt w 31) (fieldAt 4 w 8))
  | 5 => some (.tscl (flagAt w 31) (srcAt w 12) (fieldAt 4 w 8))
  | 6 => some (.azero (flagAt w 31) (fieldAt 4 w 8))
  | 7 => some (.ard (flagAt w 31) (fieldAt 3 w 23) (fieldAt 4 w 8) (fieldAt 3 w 4))
  | 8 => some (.awr (flagAt w 31) (fieldAt 3 w 17) (useOf (w / 2 ^ 12)) (fieldAt 4 w 8) (fieldAt 3 w 4))
  | 9 => some (.ald (flagAt w 31) (srcAt w 12) (fieldAt 4 w 8) (fieldAt 4 w 4))
  | 10 => some (.ast (flagAt w 31) (srcAt w 12) (fieldAt 4 w 8) (fieldAt 4 w 4))
  | 11 => some (.acvb (flagAt w 31) (fieldAt 4 w 22) (fieldAt 4 w 8) (fieldAt 3 w 4))
  | 12 => some (.acv8 (flagAt w 31) (fieldAt 5 w 21) (fieldAt 4 w 8) (fieldAt 4 w 4))
  | 13 => some (.tmov (flagAt w 31) (fieldAt 4 w 8) (fieldAt 4 w 4))
  | _ => none

/-- The instruction that a word of major 24 selects by its function field (04 R82, R83). -/
noncomputable def candidate24 (w : Nat) : Option Instr :=
  match w % 16 with
  | 0 => some (.rng (flagAt w 31) (fieldAt 6 w 20) (srcAt w 12))
  | 1 => some (.rng2 (flagAt w 31) (fieldAt 6 w 20) (srcAt w 12) (srcAt w 4))
  | 2 => some (.unif (flagAt w 31) (fieldAt 6 w 20) (srcAt w 12))
  | 3 => some (.bern (flagAt w 31) (fieldAt 6 w 20) (srcAt w 12) (srcAt w 4))
  | 4 => some (.bernp (flagAt w 31) (fieldAt 3 w 20) (srcAt w 12) (srcAt w 4))
  | 5 => some (.srbf (flagAt w 31) (fieldAt 6 w 20) (srcAt w 12) (srcAt w 4))
  | 6 => some (.srf16 (flagAt w 31) (fieldAt 6 w 20) (srcAt w 12) (srcAt w 4))
  | 7 => some (.sre4 (flagAt w 31) (fieldAt 6 w 20) (srcAt w 12) (srcAt w 4))
  | 8 => some (.sre5 (flagAt w 31) (fieldAt 6 w 20) (srcAt w 12) (srcAt w 4))
  | _ => none

/-- The instruction that a word of major 25 selects by its function field (04 R82, R83). -/
noncomputable def candidate25 (w : Nat) : Option Instr :=
  match w % 16 with
  | 0 => some (.sample (flagAt w 31) (fieldAt 6 w 20) (srcAt w 12) (srcAt w 4))
  | 1 => some (.topk (flagAt w 31) (fieldAt 6 w 20) (srcAt w 12) (srcAt w 4))
  | 2 => some (.argmax (flagAt w 31) (fieldAt 6 w 20) (srcAt w 12) (srcAt w 4))
  | _ => none

/-- The instruction that a word of major 26 selects by its function field (04 R82, R83). -/
noncomputable def candidate26 (w : Nat) : Option Instr :=
  match w % 16 with
  | 0 => some (.forkc (flagAt w 31) (fieldAt 2 w 20) (srcAt w 12))
  | 1 => some (.forkl (flagAt w 31) (fieldAt 1 w 20) (srcAt w 12))
  | 2 => some (.rdv (flagAt w 31) (fieldAt 3 w 20))
  | 3 => some (.erset (flagAt w 31) (fieldAt 5 w 20) (fieldAt 2 w 12) (fieldAt 5 w 7) (useOf (w / 2 ^ 4)))
  | 4 => some (.erget (flagAt w 31) (fieldAt 5 w 21) (fieldAt 2 w 12) (fieldAt 5 w 4))
  | 5 => some (.hload (flagAt w 31) (fieldAt 6 w 20) (srcAt w 12) (srcAt w 4))
  | 6 => some (.hdrop (flagAt w 31) (srcAt w 12))
  | 7 => some (.estat (flagAt w 31) (fieldAt 6 w 20) (fieldAt 3 w 12))
  | _ => none

/-- The instruction that a word of major 27 selects by its function field (04 R82, R83). -/
noncomputable def candidate27 (w : Nat) : Option Instr :=
  match w % 16 with
  | 0 => some (.lcfg (flagAt w 31) (fieldAt 4 w 14))
  | 1 => some (.lnld (flagAt w 31) (fieldAt 4 w 20) (fieldAt 4 w 14) (fieldAt 4 w 6))
  | 2 => some (.ljld (flagAt w 31) (fieldAt 4 w 20) (fieldAt 4 w 14) (fieldAt 4 w 6))
  | 3 => some (.lhld (flagAt w 31) (fieldAt 4 w 20) (fieldAt 4 w 14) (fieldAt 4 w 6))
  | 4 => some (.lsld (flagAt w 31) (fieldAt 4 w 20) (fieldAt 4 w 14) (fieldAt 4 w 6))
  | 5 => some (.lsst (flagAt w 31) (fieldAt 4 w 20) (fieldAt 4 w 14) (fieldAt 4 w 6))
  | 6 => some (.lclmp (flagAt w 31) (fieldAt 4 w 20) (fieldAt 4 w 14) (fieldAt 4 w 6))
  | 7 => some (.lswp (flagAt w 31) (fieldAt 4 w 20) (fieldAt 4 w 14))
  | 8 => some (.lcnt (flagAt w 31) (fieldAt 4 w 20) (fieldAt 4 w 14) (fieldAt 4 w 6))
  | 9 => some (.lrstc (flagAt w 31) (fieldAt 4 w 14))
  | 10 => some (.lgmap (flagAt w 31) (fieldAt 4 w 20) (fieldAt 4 w 14) (fieldAt 4 w 6))
  | 11 => some (.lgref (flagAt w 31) (fieldAt 4 w 20) (fieldAt 4 w 14) (fieldAt 4 w 6))
  | 12 => some (.lhlth (flagAt w 31) (fieldAt 4 w 14) (fieldAt 4 w 6))
  | 13 => some (.lkey (flagAt w 31) (fieldAt 4 w 14))
  | 14 =>
    match w / 2 ^ 8 % 16 with
    | 0 => some (.laluLi (flagAt w 31) (fieldAt 4 w 20) (imm12At w))
    | 1 => some (.laluAdd (flagAt w 31) (fieldAt 4 w 20) (fieldAt 4 w 14))
    | _ => none
  | 15 =>
    match w / 2 ^ 8 % 16 with
    | 0 => some (.lbrcLoop (flagAt w 31))
    | 1 => some (.lbrcNext (flagAt w 31) (fieldAt 4 w 20))
    | 2 => some (.lbrcSig (flagAt w 31) (fieldAt 4 w 14))
    | 3 => some (.lbrcEnd (flagAt w 31))
    | _ => none
  | _ => none

/-- The instruction that a word of major 28 selects by its function field (04 R82, R83). -/
noncomputable def candidate28 (w : Nat) : Option Instr :=
  match w % 16 with
  | 0 => some (.xcp (flagAt w 31) (fieldAt 5 w 20) (fieldAt 5 w 14) (fieldAt 5 w 6))
  | 1 => some (.xcpt (flagAt w 31) (fieldAt 5 w 20) (fieldAt 5 w 14))
  | 2 => some (.xget (flagAt w 31) (fieldAt 5 w 20) (fieldAt 5 w 14) (fieldAt 5 w 6))
  | 3 => some (.xput (flagAt w 31) (fieldAt 5 w 20) (fieldAt 5 w 14) (fieldAt 5 w 6))
  | 4 => some (.xputd (flagAt w 31) (fieldAt 5 w 20) (fieldAt 5 w 14) (fieldAt 5 w 6))
  | 5 => some (.xred (flagAt w 31) (fieldAt 5 w 20) (fieldAt 5 w 14) (fieldAt 5 w 6))
  | 6 => some (.xgth (flagAt w 31) (fieldAt 5 w 20) (fieldAt 5 w 14) (fieldAt 5 w 6))
  | 7 => some (.xsct (flagAt w 31) (fieldAt 5 w 20) (fieldAt 5 w 14) (fieldAt 5 w 6))
  | 8 => some (.xbc (flagAt w 31) (fieldAt 5 w 20) (fieldAt 5 w 14) (fieldAt 5 w 6))
  | 9 => some (.xlat (flagAt w 31) (fieldAt 5 w 20) (fieldAt 5 w 14) (fieldAt 5 w 6))
  | 10 => some (.xfab (flagAt w 31) (fieldAt 5 w 20) (fieldAt 5 w 14) (fieldAt 5 w 6))
  | 11 => some (.xfen (flagAt w 31) (fieldAt 5 w 14))
  | 12 => some (.xsig (flagAt w 31) (fieldAt 5 w 14) (fieldAt 5 w 6))
  | 13 => some (.xwte (flagAt w 31) (fieldAt 5 w 14) (fieldAt 5 w 6))
  | 14 =>
    match w / 2 ^ 8 % 16 with
    | 0 => some (.xaluLi (flagAt w 31) (fieldAt 5 w 20) (imm12At w))
    | 1 => some (.xaluAdd (flagAt w 31) (fieldAt 5 w 20) (fieldAt 5 w 14))
    | 2 => some (.xaluShl (flagAt w 31) (fieldAt 5 w 20) (imm12At w))
    | 3 => some (.xaluMul (flagAt w 31) (fieldAt 5 w 20) (fieldAt 5 w 14))
    | _ => none
  | 15 =>
    match w / 2 ^ 8 % 16 with
    | 0 => some (.xbrcLoop (flagAt w 31))
    | 1 => some (.xbrcNext (flagAt w 31) (fieldAt 5 w 20))
    | 2 => some (.xbrcEnd (flagAt w 31))
    | _ => none
  | _ => none

/-- The instruction that a word of major 29 selects by its function field (04 R82, R83). -/
noncomputable def candidate29 (w : Nat) : Option Instr :=
  match w % 16 with
  | 0 => some (.trap (flagAt w 31) (fieldAt 8 w 4))
  | 1 => some (.tret (flagAt w 31))
  | 2 => some (.brk (flagAt w 31) (fieldAt 8 w 4))
  | 3 => some (.setkey (flagAt w 31) (srcAt w 12) (srcAt w 4))
  | 4 => some (.setstrm (flagAt w 31) (srcAt w 12))
  | 5 => some (.rdcnt (flagAt w 31) (fieldAt 5 w 21) (fieldAt 5 w 12))
  | 6 => some (.amaxr (flagAt w 31) (fieldAt 6 w 20))
  | 7 => some (.rdtrap (flagAt w 31) (fieldAt 6 w 20) (fieldAt 2 w 12))
  | 8 => some (.wrtrap (flagAt w 31) (srcAt w 4))
  | 9 => some (.sethnd (flagAt w 31) (srcAt w 12))
  | 10 => some (.killt (flagAt w 31))
  | _ => none

/-- The instruction that a word of major 30 selects by its function field (04 R82, R83). -/
noncomputable def candidate30 (w : Nat) : Option Instr :=
  match w % 16 with
  | 0 => some (.launch (flagAt w 31) (fieldAt 6 w 20) (fieldAt 6 w 14))
  | 1 => some (.evwait (flagAt w 31) (fieldAt 6 w 20) (fieldAt 6 w 14))
  | 2 => some (.evpop (flagAt w 31) (fieldAt 6 w 20) (fieldAt 6 w 14))
  | 3 => some (.evsig (flagAt w 31) (fieldAt 6 w 20) (fieldAt 6 w 14) (fieldAt 6 w 6))
  | 4 => some (.qcfg (flagAt w 31) (fieldAt 6 w 20) (fieldAt 6 w 14) (fieldAt 6 w 6))
  | 5 => some (.qfence (flagAt w 31) (fieldAt 6 w 20) (fieldAt 6 w 14))
  | 6 => some (.qdig (flagAt w 31) (fieldAt 5 w 21) (fieldAt 6 w 14))
  | 7 => some (.preempt (flagAt w 31) (fieldAt 6 w 20) (fieldAt 6 w 14))
  | 8 => some (.kill (flagAt w 31) (fieldAt 6 w 20) (fieldAt 6 w 14) (fieldAt 6 w 6))
  | 9 => some (.ptout (flagAt w 31) (fieldAt 6 w 20) (fieldAt 6 w 14) (fieldAt 6 w 6))
  | 10 => some (.ckpt (flagAt w 31) (fieldAt 6 w 20) (fieldAt 6 w 14) (fieldAt 6 w 6))
  | 11 => some (.rstor (flagAt w 31) (fieldAt 6 w 20) (fieldAt 6 w 14))
  | 12 => some (.phasec (flagAt w 31) (fieldAt 5 w 21) (fieldAt 6 w 14))
  | _ => none

/-- The instruction that a word selects by its major and function field, none where the map leaves the value
unassigned (04 R82). -/
noncomputable def candidate (w : Nat) : Option Instr :=
  match w / 2 ^ 26 % 32 with
  | 1 => candidate1 w
  | 2 => candidate2 w
  | 3 => candidate3 w
  | 4 => candidate4 w
  | 5 => candidate5 w
  | 6 => candidate6 w
  | 7 => candidate7 w
  | 8 => candidate8 w
  | 9 => candidate9 w
  | 10 => candidate10 w
  | 11 => candidate11 w
  | 12 => candidate12 w
  | 13 => candidate13 w
  | 14 => candidate14 w
  | 15 => candidate15 w
  | 16 => candidate16 w
  | 17 => candidate17 w
  | 18 => candidate18 w
  | 19 => candidate19 w
  | 20 => candidate20 w
  | 21 => candidate21 w
  | 22 => candidate22 w
  | 23 => candidate23 w
  | 24 => candidate24 w
  | 25 => candidate25 w
  | 26 => candidate26 w
  | 27 => candidate27 w
  | 28 => candidate28 w
  | 29 => candidate29 w
  | 30 => candidate30 w
  | _ => none

/-- The instruction of a 32-bit word, or why it is none (04 R87). -/
noncomputable def decodeWord (w : Nat) : Except Reject Instr :=
  if w == 0 then .error .zeroWord
  else if w / 2 ^ 26 % 32 == 0 then .error .hintWord
  else if w / 2 ^ 26 % 32 == 31 then .error .reservedMajor
  else
    match candidate w with
    | none => .error .unassignedFunction
    | some i =>
      if encode i != some w then .error .nonzeroField
      else if wellFormed i then .ok i
      else .error .illegalValue

/-- The test-access instruction of an 8-bit code with the segment number that follows it (23 R426). -/
noncomputable def decodeTap (w : Nat) : Except Reject Instr :=
  match w % 256 with
  | 0x01 => .ok .idcode
  | 0x20 => .ok (.segsel (w / 2 ^ 8))
  | 0x21 => .ok .segread
  | 0xFF => .ok .bypass
  | _ => .error .unassignedFunction

/-- A route's 12 bits (03 R67). -/
def routeCode (r : Route) : Nat := r.last.toNat * 2 ^ 11 + r.kind.toNat * 2 ^ 8 + r.par.toNat

/-- The route in 12 bits (03 R67). -/
def routeAt (w lo : Nat) : Route :=
  { last := flagAt w (lo + 11), kind := fieldAt 3 w (lo + 8), par := fieldAt 8 w lo }

/-- The word of a hint (03 R66-R69). -/
def encodeHint (h : Hint) : Nat :=
  match h with
  | .imm p => p.toNat
  | .route x y => 0x1000000 + routeCode x * 2 ^ 12 + routeCode y
  | .mod r s p a => 0x2000000 + r.toNat * 2 ^ 21 + s.toNat * 2 ^ 20 + p.toNat * 2 ^ 17 + a.toNat * 2 ^ 11
  | .sched c y p => 0x3000000 + c.toNat * 2 ^ 23 + y.toNat * 2 ^ 22 + p.toNat * 2 ^ 20

/-- The hint a word of major 0 holds by its kind, before its limits are checked (03 R66-R69). -/
def hintCandidate (w : Nat) : Hint :=
  match w / 2 ^ 24 % 4 with
  | 0 => .imm (fieldAt 24 w 0)
  | 1 => .route (routeAt w 12) (routeAt w 0)
  | 2 => .mod (fieldAt 3 w 21) (flagAt w 20) (fieldAt 3 w 17) (fieldAt 6 w 11)
  | _ => .sched (flagAt w 23) (flagAt w 22) (fieldAt 2 w 20)

/-- The limits of a hint's payload: IMM payload 0 is the all-zero word, route kind 7 and round 5 to 7 are illegal
(03 R66-R70). -/
def hintLegal (h : Hint) : Bool :=
  match h with
  | .imm p => p != 0#24
  | .route x y => x.kind != 7#3 && y.kind != 7#3
  | .mod r _ _ _ => decide (r.toNat ≤ 4)
  | .sched _ _ _ => true

/-- The hint of a word of major 0, or why it is none (03 R70). -/
def decodeHint (w : Nat) : Except Reject Hint :=
  if w == 0 then .error .zeroWord
  else if encodeHint (hintCandidate w) == w && hintLegal (hintCandidate w) then .ok (hintCandidate w)
  else .error .badHint

/-- A hint joins the run, none when its kind is already there (03 R65). -/
def addHint (hs : Hints) (h : Hint) : Option Hints :=
  match h with
  | .imm p => if hs.imm.isSome then none else some { hs with imm := some p }
  | .route x y => if hs.route.isSome then none else some { hs with route := some (x, y) }
  | .mod r s p a => if hs.mod.isSome then none else some { hs with mod := some (r, s, p, a) }
  | .sched c y p => if hs.sched.isSome then none else some { hs with sched := some (c, y, p) }

/-- What the words from a run's first word on hold (03 R65): the hints, the offset of the target in words, the
target, or the reject that makes the run illegal. At most four hints can precede a target. -/
structure Run where
  hints : Hints
  offset : Nat
  word : Nat
  instr : Except Reject Instr
  deriving Repr

/-- Reads a run from a list of words; `fuel` bounds the hints. -/
noncomputable def decodeRun (fuel : Nat) (ws : List Nat) (hs : Hints) (k : Nat) : Run :=
  match ws with
  | [] => { hints := hs, offset := k, word := 0, instr := .error .zeroWord }
  | w :: rest =>
    if w / 2 ^ 26 % 32 == 0 then
      match fuel, decodeHint w with
      | 0, _ => { hints := hs, offset := k, word := w, instr := .error .badHint }
      | _, .error e => { hints := hs, offset := k, word := w, instr := .error e }
      | fuel' + 1, .ok h =>
        match addHint hs h with
        | none => { hints := hs, offset := k, word := w, instr := .error .badHint }
        | some hs' => decodeRun fuel' rest hs' (k + 1)
    else { hints := hs, offset := k, word := w, instr := decodeWord w }

/-- The instruction the decoder reads from the bits of an opcode-table row: a 32-bit word, or a test-access
instruction with the segment number above its code. -/
noncomputable def decodeTableWord (nbits w : Nat) : Option Instr :=
  match (if nbits == 32 then decodeWord w else if nbits == 8 then decodeTap w else .error .unassignedFunction) with
  | .ok i => some i
  | .error _ => none

end Sys2Proof
end

