-- ==== Sys2Proof/Config.lean ====
section
/-! DEFINITION. What the part fixes, and the free values: constants without a body, which no proof can see. -/

namespace Sys2Proof

/-- D, the cycles between a chunk's end and its earliest commit (08 R178). -/
def Config.dCycles : Nat := 1024

/-- Lattice nodes (18 R341). -/
def Config.nodes : Nat := 4096

/-- The bytes of one core's local memory (09 R193). -/
def Config.localBytes : Nat := 0x200000

/-- The bytes of one cluster's control memory (04 R85). -/
def Config.controlBytes : Nat := 0x100000

/-- A page of unified address space (21 R378). -/
def Config.pageBytes : Nat := 0x200000

/-- Pages of chip shared memory, 480 MiB (01 R15). -/
def Config.sharedPages : Nat := 240

/-- HBM pages of one stack, 48 GiB (01 R14). -/
def Config.stackPages : Nat := 24576

/-- FREE VALUE. A number the spec leaves open, read at State.freeCount: the choice of a lagging replica (10 R226),
check bits of the test access port (23 R426). -/
opaque Config.freeNat : Nat → Nat

/-- FREE VALUE. The physical draw of one update of a lattice in physical mode (18 R346): whether the node takes +1. -/
opaque Config.freeDraw : Nat → Bool

/-- FREE VALUE. How many of the 65,536 sweeps of a health test a node held +1 (18 R358), read modulo 65,537. -/
opaque Config.freeCount : Nat → Nat

/-- FREE VALUE. How many of the counts that other groups and engines raised in the current phase an RDCNT includes
(21 R394), by its group's chunk, lane and place in it, read modulo one more than those counts. -/
opaque Config.freeSeen : Nat → Nat → Nat → Nat

/-- FREE VALUE. The unified address that a fabric reference (device, window, offset) has at its destination, which the
sender's digest names (08 R191, 11 R250): the sender does not know it. -/
opaque Config.fabricAddress : Nat → Nat

/-- FREE VALUE. The cycles that pass and the move that comes next when the agenda names none (06 R114, R116). -/
opaque Config.freeMove : Nat → Nat × Move

/-- FREE VALUE. How a launch ended that no restored checkpoint holds, by partition and number: with status 0 or not
(07 R142, 23 R419). -/
opaque Config.freeEnding : Nat → Nat → Bool

/-- FREE VALUE. The kind code of a notice (24 R433): the spec names the kinds and gives them no number. -/
opaque Config.noticeKind : Nat → Nat

/-- FREE VALUE. Bits that the test access port shifts out after word k of an array of a segment, by the reading and the
array: its check bits, and state of unstated layout (23 R426). -/
opaque Config.freeBits : Nat → Nat → Nat → List Bool

/-- FREE VALUE. What HBM holds after a cold start or a loss of power (24 R442), as writes of bytes. -/
opaque Config.freeCells : Nat → List (Nat × Byte)

/-- FREE VALUE. The bytes of a section of a checkpoint image whose layout is open (23 R419). -/
opaque Config.freeBytes : Nat → List Byte

/-- FREE VALUE. The HBM read latencies that a stack's monitor has sampled since they were last taken in (24 R434). -/
opaque Config.freeSamples : Nat → List Nat

/-- FREE VALUE. How many cycles the write of a copy in non-volatile storage takes (24 R438). -/
opaque Config.writeCycles : Nat → Nat

/-- FREE VALUE. What a start that a LOAD to the command word asks for meets on the part (24 R443). -/
opaque Config.freeFacts : Nat → StartFacts

end Sys2Proof
end

