-- ==== Sys2Proof/Machine/Memory.lean ====
section
/-! DEFINITION. Byte memories in one canonical form: addresses strictly rising, no byte listed that is 0. An address
that is not listed reads 0: every SRAM is zeroed at a start (24 R442) and every page is zeroed when it is mapped
(21 R378). Multi-byte values are little-endian (00 R4). -/

namespace Sys2Proof.Machine

/-- A byte memory. -/
abbrev Memory := List Host.Cell

/-- What an address reads. -/
def mread (m : Memory) (a : Nat) : Byte :=
  match m with
  | [] => 0#8
  | (b, v) :: rest => if b = a then v else mread rest a

/-- Writes one byte; writing 0 removes the entry. -/
def mwrite (m : Memory) (a : Nat) (v : Byte) : Memory :=
  match m with
  | [] => if v = 0#8 then [] else [(a, v)]
  | (b, w) :: rest =>
    if a < b then (if v = 0#8 then (b, w) :: rest else (a, v) :: (b, w) :: rest)
    else if a = b then (if v = 0#8 then rest else (a, v) :: rest)
    else (b, w) :: mwrite rest a v

/-- The canonical form: every listed address is above `lo`, they rise, and no listed byte is 0. -/
def mwfFrom (lo : Option Nat) (m : Memory) : Bool :=
  match m with
  | [] => true
  | (b, v) :: rest =>
    (match lo with
      | none => true
      | some l => decide (l < b)) && v != 0#8 && mwfFrom (some b) rest

/-- The canonical form of a memory. -/
def Memory.wf (m : Memory) : Bool := mwfFrom none m

/-- The n bytes from an address on. -/
def mbytes (m : Memory) (a n : Nat) : List Byte := (upto n).map (fun k => mread m (a + k))

/-- The number that bytes hold, lowest byte first (00 R4). -/
def leNat (bs : List Byte) : Nat :=
  match bs with
  | [] => 0
  | b :: rest => b.toNat + 256 * leNat rest

/-- The lowest n bytes of a number, lowest first (00 R4). -/
def natLE (n v : Nat) : List Byte :=
  match n with
  | 0 => []
  | k + 1 => BitVec.ofNat 8 v :: natLE k (v / 256)

/-- The number in n bytes from an address on. -/
def mreadN (m : Memory) (a n : Nat) : Nat := leNat (mbytes m a n)

/-- Writes bytes at ascending addresses. -/
def mwrites (m : Memory) (a : Nat) (bs : List Byte) : Memory :=
  match bs with
  | [] => m
  | b :: rest => mwrites (mwrite m a b) (a + 1) rest

/-- Writes a number in n bytes. -/
def mwriteN (m : Memory) (a n v : Nat) : Memory := mwrites m a (natLE n v)

/-- The word at an address. -/
def mword (m : Memory) (a : Nat) : Word := BitVec.ofNat 32 (mreadN m a 4)

/-- Sets every byte of a range to 0. -/
def mclear (m : Memory) (a n : Nat) : Memory := m.filter (fun c => c.1 < a || a + n ≤ c.1)

/-- The bytes of a word, lowest first. -/
def wordBytes (w : Word) : List Byte := natLE 4 w.toNat

/-- Bytes as words, lowest byte first; a last partial word is padded with zeros. -/
def bytesWords (fuel : Nat) (bs : List Byte) : List Word :=
  (groupsOf fuel 4 bs).map (fun g => BitVec.ofNat 32 (leNat g))

/-- One step of the bitwise IEEE 802.3 CRC-32, reflected polynomial. -/
def crcBit (c : Word) : Word := if c.getLsbD 0 then (c >>> 1) ^^^ 0xEDB88320#32 else c >>> 1

/-- One byte of the IEEE 802.3 CRC-32. -/
def crcByte (c : Word) (b : Byte) : Word := (upto 8).foldl (fun x _ => crcBit x) (c ^^^ b.setWidth 32)

/-- The IEEE 802.3 CRC-32 of bytes (01 R20, 03 R78, 21 R381). -/
def crc32 (bs : List Byte) : Word := bs.foldl crcByte 0xFFFFFFFF#32 ^^^ 0xFFFFFFFF#32

end Sys2Proof.Machine
end

