-- ==== Sys2Proof/Machine/Random.lean ====
section
/-! DEFINITION. MIX, CHX and CHX64 (16 R314, 08 R191) and the bits that a line sets in a signature (08 R176). -/

namespace Sys2Proof.Machine

/-- MIX (16 R314). -/
def mix (x : Word) : Word :=
  let a := (x ^^^ (x >>> 16)) * 0x7FEB352D#32
  let b := (a ^^^ (a >>> 15)) * 0x846CA68B#32
  b ^^^ (b >>> 16)

/-- CHX of a key and a counter, each as high and low word (16 R314). -/
def chx (khi klo chi clo : Word) : Word := mix (mix (clo ^^^ klo) ^^^ chi ^^^ khi)

/-- CHX64 of a 64-bit key and a word (08 R191). -/
def chx64 (k : DWord) (x : Word) : DWord :=
  dword (chx (hiWord k) (loWord k) 0#32 x) (chx (hiWord k) (loWord k) 1#32 x)

/-- The constants of the four signature banks (08 R176). -/
def sigConst (i : Nat) : Word :=
  match i with
  | 0 => 0x00000000#32
  | 1 => 0x9E3779B9#32
  | 2 => 0x3C6EF372#32
  | _ => 0xDAA66D2B#32

/-- The hash of an input in a bank, divided by 1024 (08 R176). -/
def sigHash (a i : Nat) : Nat := (mix (BitVec.ofNat 32 a ^^^ sigConst i)).toNat / 1024

/-- The four read bits of an input (08 R176). -/
def readBits (a : Nat) : List Nat := (upto 4).map (fun i => 256 * i + sigHash a i % 256)

/-- The four write bits of an input (08 R176). -/
def writeBits (a : Nat) : List Nat := (upto 4).map (fun i => 128 * i + sigHash a i % 128)

end Sys2Proof.Machine
end

