-- ==== Sys2Proof/Machine/State.lean ====
section
/-! DEFINITION. The state of the whole device as plain data, the reasons a step can stop, and the state after reset.
Each structure names the rules that give its fields; INVENTORY.md lists them with their reset values. -/

namespace Sys2Proof.Machine

/-- Why a step stops with a fault. The spec gives the device no such stop; these belong to ill-formed states only. -/
inductive Fault where
  /-- Raised by the shared operations when a table has no entry that every reachable state has (a group of no team,
  a team of no launch). Safe: no reachable state meets it. -/
  | brokenState (what : String)
  deriving DecidableEq, Repr

/-- Why a step is refused. -/
inductive Refusal where
  /-- Raised by an arm of exec that has no meaning yet. Safe. -/
  | notModelled (mnemonic : String)
  /-- Raised by every instruction word when State.issue names no executor that issues it: exec was asked for a word
  that nothing is issuing, which no step does. Safe. -/
  | noIssuer
  deriving DecidableEq, Repr

/-- One register: value, generation tag, pending bit, released mark (02 R43-R47). A predicate holds 0 or 1. -/
structure Reg where
  val : Word := 0#32
  tag : Nat := 0
  pending : Bool := false
  released : Bool := false
  deriving DecidableEq, Repr, Inhabited

/-- Whether a lane holds a thread (02 R25, R26, 06 R131). -/
inductive LaneStatus where
  | never
  | live
  | exited
  deriving DecidableEq, Repr, Inhabited

/-- The waits of 06 R115 besides the switch wait and an ended part. -/
inductive Wait where
  | ready
  /-- At MWAIT on a mask, with the address after it and whether its run ends the part or carries S (06 R122). -/
  | mask (k : Nat) (after : Word) (ends sw : Bool)
  /-- Arrived or arriving at BART, BARG, BARTC, PHASE (09 R210-R213); BARTC keeps the PC of its run and the chunk that
  holds it. -/
  | bart
  | barg
  | bartc (k c : Nat) (pc : Word) (chunk : Nat)
  | phase (e : Nat)
  /-- In FENL until no chunk of the group is in flight; the chunk that held it (09 R214). -/
  | fenl (chunk : Nat)
  /-- In LDFE or LDFC until the word at this physical address is full in committed state (09 R199). -/
  | full (addr : Nat)
  /-- Blocked in SPAWN, with the entry address of the record the lane asks for (06 R129). -/
  | spawn (entry : Word)
  /-- In SLEEP until this cycle (06 R133). -/
  | sleep (till : Nat)
  /-- At a LATM word until the group's chunk has ended (09 R204). -/
  | latm
  /-- Parked by a trap (06 R127). -/
  | parked
  deriving DecidableEq, Repr, Inhabited

/-- One lane of a group (02 R25, 06 R110-R115, 08 R172). -/
structure Lane where
  status : LaneStatus := .never
  pc : Word := 0#32
  set : Nat := 0
  ltid : Nat := 0
  arg : Word := 0#32
  parent : Word := 0xFFFFFFFF#32
  /-- Instructions retired in the part of the current chunk. -/
  count : Nat := 0
  /-- The part of the current chunk has ended. -/
  ended : Bool := false
  /-- In the switch wait of 03 R57. -/
  switch : Bool := false
  wait : Wait := .ready
  /-- The least quantum in which a wait that a commit ended is left (08 R183). -/
  readyQ : Nat := 0
  /-- In a delivered sub-group (21 R388). -/
  handler : Bool := false
  /-- FP traps suppressed for the next execution (14 R288). -/
  quiet : Bool := false
  /-- At a SPAWN word: 1 blocked there, 2 blocked and with a record reserved (06 R129). -/
  block : Nat := 0
  /-- High words latched by RDST of phaselo and cycle_lo in this chunk (02 R50). -/
  latchPhase : Option Word := none
  latchCycle : Option Word := none
  deriving DecidableEq, Repr, Inhabited

/-- A tile: the data bytes that are not 0 and the sidecar bytes that are not 0x7F (17 R325). -/
structure Tile where
  data : Table Byte := []
  side : Table Byte := []
  deriving DecidableEq, Repr, Inhabited

/-- A parked sub-group (06 R127, 21 R386-R388): its lanes, the pc of the run, the address after the target, the
cause, the address, the done mask and the chunk that the trap ended. -/
structure Park where
  lanes : LaneMask
  pc : Word
  after : Word
  cause : Nat
  addr : Word
  done : LaneMask
  chunk : Nat
  /-- Quantum of that chunk, FP causes raised per lane as the mask of 14 R287, and the FP window it belongs to. -/
  quantum : Nat := 0
  causes : Table Nat := []
  win : Option Nat := none
  deriving DecidableEq, Repr, Inhabited

/-- The trap registers and slot of a group (02 R49, 21 R388, R391). -/
structure TrapState where
  cause : Nat := 0
  pc : Word := 0#32
  addr : Word := 0#32
  done : LaneMask := 0#64
  /-- The address after the trapped target, where TRET resumes after TRAP and BRK. -/
  after : Word := 0#32
  inService : Bool := false
  /-- WRTRAP has written trap_pc since delivery. -/
  written : Bool := false
  /-- The FP window of the sub-group in service. -/
  win : Option Nat := none
  parks : List Park := []
  /-- A thread of the handler has trapped, or waits at a barrier, in this chunk: its commit kills the team (21 R388). -/
  doom : Option Nat := none
  deriving DecidableEq, Repr, Inhabited

/-- What a squash restores (02 R48): registers, predicates, masks, tiles, accumulators, PCs and waits. Vector
register r of lane l has key 64 l + r, predicate k of lane l has key 8 l + k, accumulator element (i, c) has key 64 i + c. -/
structure GroupCore where
  lanes : Table Lane := []
  v : Table Reg := []
  s : Table Reg := []
  p : Table Reg := []
  masks : Table LaneMask := []
  tiles : Table Tile := []
  accs : Table (Table Word) := []
  trap : TrapState := {}
  /-- Lattices whose forked program has not been joined (08 R164). -/
  unjoined : List Nat := []
  /-- What RDVs join before the group's next chunk starts: a unit and how many of the group's forks on it came before
  (11 R239). -/
  joining : List (Nat × Nat) := []
  deriving DecidableEq, Repr, Inhabited

/-- A signature: the set bit positions in rising order, or every bit (08 R174, R176). -/
structure Sig where
  bits : List Nat := []
  all : Bool := false
  deriving DecidableEq, Repr, Inhabited

/-- A change of the bits of a word of local memory (09 R196). -/
structure TagStore where
  addr : Nat
  full : Option Bool
  dirty : Option Bool
  deriving DecidableEq, Repr, Inhabited

/-- A tensor shape record (11 R258). -/
structure Shape where
  type : Nat
  ndim : Nat
  space : Nat
  extent : Nat
  dims : List Nat
  strides : List Int
  base : Nat
  deriving DecidableEq, Repr, Inhabited

/-- What a chunk holds until it commits, in program order (08 R178). -/
inductive Eff where
  /-- A write of a team-scoped state register (02 R50, 05 R106). -/
  | wrst (n : Nat) (v : Word)
  /-- An amax update (14 R280). -/
  | amax (a : Word)
  /-- Counts of an FP event counter (14 R283). -/
  | count (i n : Nat)
  /-- A GRED contribution: extent, byte offset, function, value (09 R207). -/
  | gred (n off fn : Nat) (v : DWord)
  /-- A spawn reservation in a bin (02 R33): entry, argument, parent. -/
  | spawn (bin : Nat) (entry arg : Word) (parent : Nat)
  /-- A fork on a unit at a section offset (11 R239). -/
  | fork (unit offset : Nat)
  /-- A write of engine register n of queue q (11 R240). -/
  | erset (q n : Nat) (v : DWord)
  /-- A load of a handle slot (11 R259) and its release (11 R260). -/
  | hload (slot gen : Nat) (shape : Shape)
  | hdrop (slot : Nat)
  /-- The team's exchange name (09 R213). -/
  | exname (e : Nat)
  /-- A load of a lattice program into its lattice (18 R352): fn, first item, count, the bytes read as a number. -/
  | lat (fn first count raw : Nat)
  deriving DecidableEq, Repr, Inhabited

/-- What a chunk of an ordered launch has found in its turn to reserve, which must still stand when it commits (06 R129,
08 R184). -/
inductive Judged where
  /-- A record for an entry address: the bin, or none where the thread blocked (02 R33). -/
  | record (entry : Word) (bin : Option Nat)
  /-- An entry of the atomic buffer for a new key: whether it fits (09 R209). -/
  | entry (fits : Bool)
  deriving DecidableEq, Repr, Inhabited

/-- What kind of chunk it is (08 R172, R183, 09 R204). -/
inductive ChunkKind where
  | group
  | latm (set : Nat)
  | empty
  | engine
  deriving DecidableEq, Repr, Inhabited

/-- A chunk (08 R172-R178): the shadow taken at its start, its stores (newest first), its bits, its other effects
(in program order) and its signatures. -/
structure Chunk where
  uid : Nat := 0
  kind : ChunkKind := .group
  start : GroupCore := {}
  stores : List Host.Cell := []
  tags : List TagStore := []
  effs : List Eff := []
  rsig : Sig := {}
  wsig : Sig := {}
  /-- An access that saturated a signature, or that performed in its first lanes only, has performed in it: the chunk
  ends with that word (08 R174). -/
  saturated : Bool := false
  judged : List Judged := []
  endCycle : Nat := 0
  quantum : Nat := 0
  deriving DecidableEq, Repr, Inhabited

/-- An outstanding variable-latency result (02 R43, R46): class 0 vector, 1 uniform, 2 predicate; register key; tag. -/
structure Flight where
  uid : Nat
  cls : Nat
  key : Nat
  tag : Nat
  val : Word
  chunk : Nat
  deriving DecidableEq, Repr, Inhabited

/-- A committed fork of a group (11 R239, R241). -/
structure Fork where
  unit : Nat
  prog : Nat
  status : Nat
  deriving DecidableEq, Repr, Inhabited

/-- An outstanding matrix or tile operation with the tiles and accumulators it holds (02 R44, 17 R334). -/
structure BusyOp where
  op : Nat
  tiles : List Nat
  accs : List Nat
  deriving DecidableEq, Repr, Inhabited

/-- The counts a kernel allocates (02 R41). -/
structure Alloc where
  w : Nat := 16
  v : Nat := 8
  s : Nat := 8
  t : Nat := 0
  a : Nat := 0
  deriving DecidableEq, Repr, Inhabited

/-- A resident group (02 R26, 08 R172-R183). `core` is the physical core 64 c + k. -/
structure Group where
  team : Nat
  index : Nat
  alloc : Alloc
  core : Nat
  slot : Nat
  regs : GroupCore := {}
  inflight : List Chunk := []
  /-- The open chunk; none between chunks. -/
  cur : Option Chunk := none
  /-- The issue set that a deterministic group runs (06 R114). -/
  running : Option Nat := none
  nextSet : Nat := 1
  nextQuantum : Nat := 0
  flights : List Flight := []
  forks : List Fork := []
  busy : List BusyOp := []
  /-- Conflict squashes and strike squashes in a row (07 R161, 23 R410). -/
  conflicts : Nat := 0
  strikes : Nat := 0
  /-- Formation order in the cluster, for the commit log (08 R188). -/
  ordinal : Nat := 0
  /-- FP counts of this compute phase that its commits have applied (21 R394). -/
  counted : Table Nat := []
  deriving DecidableEq, Repr, Inhabited

/-- The FP trap report of a team (14 R287) and where its latest window, number n, stands: open until a cycle or quantum,
in service, or over. -/
structure FpWindow where
  n : Nat := 0
  isOpen : Bool := false
  service : Bool := false
  closeAt : Nat := 0
  quantum : Nat := 0
  /-- In deterministic mode, the quantum from which its handlers run: the one after the round in which it could close
  (08 R183). -/
  runsAt : Option Nat := none
  ltid : Nat := 0
  pc : Word := 0#32
  count : Nat := 0
  causes : Nat := 0
  deriving DecidableEq, Repr, Inhabited

/-- A team's counted barrier (09 R212): c of the generation and its arrivals (group, lane) in commit order. -/
structure Counted where
  c : Nat
  arrived : List (Nat × Nat)
  deriving DecidableEq, Repr, Inhabited

/-- A saved group: its save area (02 R52, R53), byte by offset with zeros left out, and what the area has no place for:
the side of the team's cores it is on, each lane's thread, the quantum, the forks and the formation ordinal. -/
structure GroupSave where
  index : Nat
  side : Nat
  area : List Host.Cell
  lanes : Table Lane
  quantum : Nat
  forks : List Fork
  ordinal : Nat
  deriving DecidableEq, Repr, Inhabited

/-- A spawn record (02 R33). -/
structure SpawnRec where
  team : Nat
  arg : Word
  parent : Nat
  ltid : Nat
  deriving DecidableEq, Repr, Inhabited

/-- A handle slot: owner team (none when free), generation of its last load, record (11 R257). -/
structure Slot where
  owner : Option Nat := none
  gen : Nat := 0
  shape : Option Shape := none
  /-- The loads of this phase that have committed: team and generation (11 R260, 23 R415). -/
  loads : List (Nat × Nat) := []
  deriving DecidableEq, Repr, Inhabited

/-- A team context: boundary snapshot or pre-emption save (21 R398, 23 R413). The team save area (02 R54) is held in
three parts: all but the image, the bytes of the local-memory image, and its packed bits, each by offset in its part,
without the zeros, for the bits without the bytes of four full and clean words. The rest has no place in the area. -/
structure TeamSave where
  groups : List GroupSave
  area : List Host.Cell
  image : List Host.Cell
  bits : List Host.Cell
  /-- Of each spawn record, the index of its core and the logical thread identifier. -/
  recordIds : List (Nat × Nat) := []
  /-- The generations of the slots that the team may load, for a rollback (11 R257, 23 R415). -/
  gens : Table Nat := []
  nextLtid : Nat
  nextGroup : Nat
  /-- A DUE has made the copy unusable (23 R412). -/
  bad : Bool := false
  deriving DecidableEq, Repr, Inhabited

/-- A placed, saved or ended team (02 R27, R49, 11 R236). Lists named per core have one entry, or two for a pair. -/
structure Team where
  launch : Nat
  gang : Nat
  index : Nat
  gangSize : Nat
  cluster : Nat
  /-- Physical cores 64 c + k per core. -/
  cores : List Nat
  /-- RDID codes 10 and 11 (02 R39). -/
  logicalCore : Nat
  logicalCluster : Nat
  /-- Virtual and physical base per core (09 R193). -/
  vbase : List Nat
  pbase : List Nat
  /-- Team slot per core (08 R176). -/
  tslots : List Nat
  /-- State registers 0-4, 8-11, 17 (02 R49). -/
  regs : Table Word := []
  /-- The exchange name of the compute phase (09 R213). -/
  exname : Option Nat := none
  /-- Engine registers: key (core index * 4 + queue) * 32 + n (11 R236). -/
  eregs : Table DWord := []
  bartc : Table Counted := []
  fp : FpWindow := {}
  nextLtid : Nat := 0
  nextGroup : Nat := 0
  /-- Ordinals of the groups formed for it since its boundary snapshot (08 R188, 23 R415). -/
  formed : List Nat := []
  /-- In replay mode, the ordinals that groups formed again after a rollback take before new ones, in order (23 R415). -/
  reform : List Nat := []
  killed : Bool := false
  /-- Killed with UNCORRECTABLE and waiting for its gang's relaunch (23 R416). -/
  relaunch : Bool := false
  /-- Cycle of the latest placement, from which it holds core-cycles (07 R149). -/
  heldAt : Nat := 0
  snap : Option TeamSave := none
  /-- Bytes reserved for the coming exchange, as physical start and length (08 R170). -/
  reserved : List (Nat × Nat) := []
  /-- Spawn records of a restored context that no bin could take yet, by index of the core (02 R33, R55). -/
  owed : List (Nat × Word × SpawnRec) := []
  /-- A rollback that returned it to quanta that the round has passed: its groups are ordered with those of the teams
  returned with it, until they are up to the round; 0 otherwise (23 R415). -/
  cohort : Nat := 0
  /-- A group of it has retired with a lattice program that no RDV joined (08 R164). -/
  unjoined : Bool := false
  /-- Results outstanding for groups that a rollback took away: group, flight (02 R46). -/
  stray : List (Nat × Nat) := []
  /-- Results dropped while it was saved: the counter takes them when it is restored (02 R46, R55). -/
  staleSaved : Nat := 0
  /-- Signatures of the chunks committed in this phase and teams it depends on (23 R415). -/
  wrote : List Sig := []
  dependsOn : List Nat := []
  deriving DecidableEq, Repr, Inhabited

/-- How far a launch has come (07 R140-R143). -/
inductive LaunchPhase where
  | queued
  | running
  | ended
  deriving DecidableEq, Repr, Inhabited

/-- A resolved extent (21 R379): unified base, bound length, access bits 1 r, 2 w, 4 red. -/
structure Extent where
  base : Nat
  len : Nat
  access : Nat
  deriving DecidableEq, Repr, Inhabited

/-- The placement of a gang as the shape record keeps it (08 R186). -/
structure ShapeEntry where
  size : Nat
  rank : Nat
  base : Nat
  k : Nat
  deriving DecidableEq, Repr, Inhabited

/-- A gang still to place or to place again, by linear index, with its saved teams (07 R155, 23 R416). -/
structure Gang where
  index : Nat
  size : Nat
  saved : List (Nat × Team)
  /-- Killed for a relaunch, and the physical cores of the failing region: placed before step 1 (23 R416). -/
  relaunch : Bool := false
  avoid : List Nat := []
  deriving DecidableEq, Repr, Inhabited

/-- One slice of the commit log (08 R187-R190): entries written, whether it still records, and in replay the next
entry, the cycle since which it is the next, and the later entries that a rollback leaves followed (23 R415). -/
structure LogSlice where
  written : Nat := 0
  recording : Bool := true
  next : Nat := 0
  since : Nat := 0
  skip : List Nat := []
  /-- The teams whose engine operations made entries in this phase, by place (23 R415). -/
  engine : List (Nat × Nat) := []
  deriving DecidableEq, Repr, Inhabited

/-- A launch (07 R137-R143): its record, its binding block, what dispatch read of its image, and its progress. -/
structure Launch where
  part : Nat
  number : Nat
  /-- Cluster of the control core that issued the LAUNCH. -/
  issuer : Nat
  image : Nat
  alloc : Alloc
  groups : Nat
  mode : Nat
  pair : Bool
  spawnSlots : Nat
  lm : Nat
  pref : Nat
  fb : Nat
  queue : Nat
  cls : Nat
  grid : Nat × Nat × Nat
  chunkq : Nat
  spawnTimer : Nat
  phaseMax : Nat
  deps : List Word
  /-- A dependence that had failed when a checkpoint recorded the launch (07 R142, 23 R419). -/
  depFailed : Bool := false
  imageSize : Nat
  key : Word × Word × Word
  binds : List (Nat × Nat)
  phase : LaunchPhase := .queued
  status : Nat := 0
  reason : Nat := 0
  /-- The first limit of 02 R42, from 0, that its team exceeds on an empty core, when it failed for that. -/
  limit : Option Nat := none
  /-- Gangs of a curve launch that have reported their retirement, in curve order (08 R186). -/
  reported : Nat := 0
  checked : Bool := false
  /-- Sections of the image as dispatch read them (03 R76, R78). -/
  text : List Word := []
  exch : List Word := []
  copy : List Word := []
  latt : List Word := []
  dataBytes : List Byte := []
  exchOffsets : List Nat := []
  kernelId : DWord := 0#64
  handler : Word := 0#32
  extents : Table Extent := []
  /-- Gangs placed so far in dispatch order, and gangs to restore (07 R150, R155). -/
  nextGang : Nat := 0
  saved : List Gang := []
  /-- One more than the boundary count at which it returned to the head of its queue (07 R155). -/
  returned : Nat := 0
  /-- Teams killed so far: the launch ends with status 2 (07 R143). -/
  abnormal : Bool := false
  /-- Status of an abort under way: 1 by KILL, 4 by REPLAY_DIVERGE (07 R156, 08 R190). -/
  abort : Option Nat := none
  preempt : Bool := false
  /-- Cores reported late for phase_max in this compute phase (21 R400). -/
  phaseTold : List Nat := []
  charged : Nat := 0
  /-- FP event counters (14 R281), and their values when the current compute phase began (21 R394). -/
  counters : Table Nat := []
  settled : Table Nat := []
  /-- Words of global memory written, with the values of the latest close, for the digest (08 R191), and the values
  XFAB sent. -/
  digestWords : Table Word := []
  digestSent : Table Word := []
  digest : DWord := 0#64
  chained : Bool := false
  shape : Table ShapeEntry := []
  shapeAddr : Nat := 0
  shapeKnown : Bool := false
  logs : Table LogSlice := []
  /-- Commit round per cluster (08 R182) and formation ordinals (08 R188). -/
  rounds : Table Nat := []
  /-- By rollback, the quantum at which a group formed now among the teams that it returned starts (23 R415). -/
  lagging : Table Nat := []
  ordinals : Table Nat := []
  /-- Chunk operations per unit in the launch (08 R188). -/
  engineOps : Table Nat := []
  /-- In replay mode, the counts that engine operations run again after a rollback carry: unit, team, count (23 R415). -/
  redo : List (Nat × Nat × Nat) := []
  /-- HBM pages of the snapshot run (23 R413). -/
  snapPages : Nat := 0
  deriving DecidableEq, Repr, Inhabited

/-- A 32-byte event record (07 R144). -/
structure Event where
  type : Nat
  source : Nat
  seq : Nat
  phase : Nat
  payload : BitVec 128
  /-- The first limit exceeded that the event of a launch that cannot be made resident names (02 R42), in the order of
  that table; 07 R145 lays no byte of the record out for it (DESIGN CHOICE, log entry 131). -/
  limit : Option Nat := none
  deriving DecidableEq, Repr, Inhabited

/-- What a control core waits in: a CTL instruction that has not completed (07 R136). -/
inductive CtlWait where
  | none
  /-- EVWAIT into sd, with a deadline. -/
  | events (sd : Nat) (deadline : Option Nat)
  /-- QFENCE of a queue for the launches below a number. -/
  | fence (sd queue below : Nat)
  /-- CKPT mode 0 until capture, mode 1 until the drain ends. -/
  | capture (sd : Nat)
  | drained (sd : Nat)
  | restore (sd : Nat)
  deriving DecidableEq, Repr, Inhabited

/-- A control core (04 R85, 07 R134-R135). -/
structure Ctl where
  running : Bool := false
  base : Nat := 0
  size : Nat := 0
  pc : Word := 0#32
  s : Table Word := []
  p : Table Bool := []
  wait : CtlWait := .none
  /-- Where a waiting instruction goes on when it completes. -/
  after : Word := 0#32
  /-- Per queue, the launch number below which QFENCE has counted (07 R154). -/
  marks : Table Nat := []
  deriving DecidableEq, Repr, Inhabited

/-- What may hold the exclusive commit token: a group, or a unit of a core (07 R161, 10 R219). -/
inductive Owner where
  | group (gid : Nat)
  | unit (core n : Nat)
  deriving DecidableEq, Repr, Inhabited

/-- A cluster's arbiter, event counters, event queue and control core (08 R179, 11 R253, 07 R144). -/
structure Cluster where
  commitIndex : Nat := 0
  /-- The cycle of the latest commit set: the arbiter commits one in a cycle (08 R179). -/
  commitAt : Option Nat := none
  /-- The holder of the exclusive commit token, and requests by cycle (07 R161). -/
  token : Option Owner := none
  requests : List (Nat × Owner) := []
  counters : Table Word := []
  events : List Event := []
  eventSeq : Nat := 0
  ctl : Ctl := {}
  deriving DecidableEq, Repr, Inhabited

/-- A spawn bin (02 R33, R34). -/
structure Bin where
  entry : Word
  recs : List SpawnRec := []
  timerAt : Option Nat := none
  /-- Teams whose records here are to be flushed (02 R34), and the team whose timer has expired, until a slot is free. -/
  due : List Nat := []
  expired : Option Nat := none
  deriving DecidableEq, Repr, Inhabited

/-- The kind of an engine program (11 R235). -/
inductive ProgKind where
  | copy
  | exchange
  | lattice
  deriving DecidableEq, Repr, Inhabited

/-- Lattice contents that an interrupted LSWP restores (23 R409): states, counts, ghosts, sweep_ctr and sweeps left. -/
structure SweepShadow where
  state : Table Bool
  count : Table Nat
  ghosts : Table (Bool × Nat × Option Nat)
  ctr : Word
  left : Nat
  deriving DecidableEq, Repr, Inhabited

/-- A copy, exchange or lattice program on a unit (11 R235-R236, R255, 18 R351). -/
structure Prog where
  uid : Nat
  kind : ProgKind
  team : Nat
  group : Option Nat
  offset : Nat
  pc : Nat
  e : Table DWord := []
  n : Table Word := []
  written : List Nat := []
  loops : List Nat := []
  ordinal : Nat := 0
  index : Nat := 0
  /-- The engine chunk that has ended and not committed (11 R237, 10 R219). -/
  op : Option Chunk := none
  /-- What becomes of the program at that chunk's commit besides its effects: a new BIASED mark (18 R358). -/
  mark : Option Bool := none
  /-- Sweeps still to run of an LSWP, and its shadows, newest first, each with the cycle it was taken (18 R356, 23 R409). -/
  sweeps : Nat := 0
  shadows : List (Nat × SweepShadow) := []
  /-- Sweeps that the LSWP has run, for the shadow after every 64 (23 R409). -/
  swept : Nat := 0
  /-- Forked on a lattice that a marking refuses: it ends with BOUND (24 R437). -/
  refused : Bool := false
  /-- A health test that runs: the report address and the parameter word (18 R358). -/
  health : Option (Word × Word) := none
  /-- Cycle at which the last sweep or an LRSTC ended, with nothing else to commit (18 R352, 23 R409). -/
  sweptAt : Option Nat := none
  /-- An XFAB waits for its acknowledgement (11 R250). -/
  fabWait : Bool := false
  /-- Conflict squashes and strike re-runs in a row of the operation (07 R161, 23 R410). -/
  conflicts : Nat := 0
  strikes : Nat := 0
  deriving DecidableEq, Repr, Inhabited

/-- A copy queue or lattice sequencer: the running program and the list of 128 (11 R235). -/
structure Engine where
  run : Option Prog := none
  list : List Prog := []
  deriving DecidableEq, Repr, Inhabited

/-- The configuration LCFG sets (18 R354). -/
structure LatCfg where
  replay : Bool
  order : Nat
  ncol : Nat
  beta : Nat
  smax : Nat
  perm : List Nat
  deriving DecidableEq, Repr, Inhabited

/-- A lattice's contents and owner (18 R341, R342). Absent entries read as the reset value: state -1 (false), all else 0,
a ghost (false, 65535, external). Coupling J[j] of node i has key 32 i + j, stencil entry j of stencil s has key 32 s + j. -/
structure Lattice where
  owner : Option Nat := none
  state : Table Bool := []
  desc : Table (Nat × Nat × Nat) := []
  clamp : Table Bool := []
  count : Table Nat := []
  j : Table Int := []
  h : Table Int := []
  stencils : Table Nat := []
  /-- State, age, and for an intra-cluster source its lattice key times 4,096 plus the node (18 R349). -/
  ghosts : Table (Bool × Nat × Option Nat) := []
  ctr : Word := 0#32
  lkey : DWord := 0#64
  cfg : Option LatCfg := none
  deriving DecidableEq, Repr, Inhabited

/-- The A latch of a matrix engine (17 R333). -/
structure ALatch where
  group : Nat
  abase : Nat
  width : Nat
  tags : List Nat
  fragment : List Word
  deriving DecidableEq, Repr, Inhabited

/-- What a core holds besides its groups (02 R33, 17 R333). -/
structure Core where
  bins : Table Bin := []
  latch : Option ALatch := none
  deriving DecidableEq, Repr, Inhabited

/-- An entry of a GRED atomic buffer with the logical keys it drains by (09 R207, R208) and the die of its core (10 R227). -/
structure Entry where
  die : Nat
  cluster : Nat
  keys : List Nat
  launch : Nat
  team : Nat
  group : Nat
  ext : Nat
  off : Nat
  fn : Nat
  partialVal : DWord
  deriving DecidableEq, Repr, Inhabited

/-- One queue of a partition (07 R148-R153, 08 R192). -/
structure Queue where
  enable : Bool := false
  cls : Nat := 0
  qexp : Nat := 20
  deficit : Int := 0
  hash : DWord := 0#64
  chain : Nat := 0
  deriving DecidableEq, Repr, Inhabited

/-- One class of a partition (07 R148-R151). DESIGN CHOICE (log entry 119): before a queue of the class has been served
the search of 07 R150 begins at queue 0, as if queue 63 had been the last. -/
structure ClassQ where
  minShare : Nat := 0
  lastServed : Nat := 63
  /-- What teams that have left held in a window, in slot-cycles, and the number of that window. -/
  held : Nat := 0
  window : Nat := 0
  deriving DecidableEq, Repr, Inhabited

/-- The partition's phase state (08 R162). -/
inductive PState where
  | compute
  | opened
  | exchange
  deriving DecidableEq, Repr, Inhabited

/-- A write of an exchange operation to one word, of global (0) or local (1) memory (10 R222-R224, 11 R237): value,
source tag, queue, sequence in the queue, and the joins its queue had made (queue, up to sequence). -/
structure XWrite where
  space : Nat
  addr : Nat
  val : Word
  tag : List Nat
  queue : Nat
  seq : Nat
  seen : List (Nat × Nat)
  team : Nat
  deriving DecidableEq, Repr, Inhabited

/-- A contribution of XRED (11 R247). -/
structure XFold where
  addr : Nat
  op : Nat
  v : Word
  a : Word
  b : Word
  tag : List Nat
  team : Nat
  deriving DecidableEq, Repr, Inhabited

/-- A ghost written by XLAT (11 R249): destination lattice and slot, state, tag. -/
structure XGhost where
  lat : Nat
  slot : Nat
  state : Bool
  tag : List Nat
  deriving DecidableEq, Repr, Inhabited

/-- An exchange in progress (10 R222-R224, 11 R253). -/
structure Exch where
  writes : List XWrite := []
  folds : List XFold := []
  ghosts : List XGhost := []
  /-- Joins per queue (queue, up to sequence) and the next sequence per queue. -/
  joins : Table (List (Nat × Nat)) := []
  seqs : Table Nat := []
  /-- Completed XSIGs: counter key, queue, sequence, joins. -/
  sigs : List (Nat × Nat × Nat × List (Nat × Nat)) := []
  /-- Pages read by exchange operations and pages written, with the die of the reader or writer: 8 for a writer that is no
  die, 100 more for a drain (10 R227, R228). Host writes between boundaries count with the next exchange. -/
  reads : List (Nat × Nat) := []
  wrotePages : List (Nat × Nat) := []
  /-- The words that step 1 of the boundary wrote, as they were before it (10 R226). -/
  before : Table Word := []
  deriving DecidableEq, Repr, Inhabited

/-- A request of a Plagan session (21 R383): the spaces of LOAD and READ, the operations of XLATE, ATOMIC and CKPT by
number. A request already refused carries its status. -/
inductive HostReq where
  | load (space addr : Nat) (data : List Byte)
  | read (space addr len : Nat)
  | start (cluster entry replace base image : Nat) (args : List Word)
  | xlate (op addr len arg : Nat)
  | atomic (op addr : Nat) (operand compare : DWord)
  | ckpt (op : Nat) (desc : List Byte)
  | refused (type status : Nat)
  deriving DecidableEq, Repr, Inhabited

/-- An entry of the range map of a checkpoint image (10 R225, 23 R419). -/
structure RangeRec where
  base : Nat
  len : Nat
  perm : Nat
  shared : Bool
  nonatomic : Bool
  replicate : Bool
  sysAtomic : Bool
  deriving DecidableEq, Repr, Inhabited

/-- A checkpoint image (23 R419): what it holds, and the bytes of the two sections whose layout is open. -/
structure Image where
  complete : Bool
  ckptId : DWord
  boundary : Nat
  phase : Nat
  configNum : Nat
  clusters : Nat
  ranges : List RangeRec
  bytes : List Host.Cell
  lost : List Nat
  queues : Table Queue
  classes : Table ClassQ
  launches : Table Launch
  teams : List (Nat × Team)
  nextLaunch : Nat
  queueBytes : List Byte := []
  launchBytes : List Byte := []
  deriving DecidableEq, Repr, Inhabited

/-- Who waits for a checkpoint: a control core's cluster, or a session. -/
inductive CkptWaiter where
  | ctl (cluster : Nat)
  | host (session : Nat)
  deriving DecidableEq, Repr, Inhabited

/-- The checkpoint state of a partition (23 R420-R424): 0 none, 1 pending capture, 2 draining, 3 drained, 4 failed. -/
structure Ckpt where
  phase : Nat := 0
  desc : List Byte := []
  starter : Option CkptWaiter := none
  waiters : List CkptWaiter := []
  image : Option Image := none
  restoring : Option (CkptWaiter × List Byte) := none
  deriving DecidableEq, Repr, Inhabited

/-- A partition (21 R374). -/
structure Part where
  clusters : List Nat
  /-- Clusters assigned while a recalibration runs: they join when it ends (24 R439). -/
  joining : List Nat := []
  weight : Nat
  ports : List Nat
  quota : Nat
  strag : Nat
  exch : Nat
  spanTag : Nat
  spanSize : Nat
  boundary : Nat := 0
  pstate : PState := .compute
  queues : Table Queue := []
  classes : Table ClassQ := []
  windowStart : Nat := 0
  nextLaunch : Nat := 0
  hostSeq : Nat := 0
  slots : Table Slot := []
  /-- Fabric windows: unified base and length (21 R380). -/
  windows : Table (Nat × Nat) := []
  stragAt : Option Nat := none
  exchAt : Option Nat := none
  /-- Cores reported late in the wait that is open (07 R156, R157). -/
  late : List Nat := []
  computeAt : Nat := 0
  firstArrival : Nat := 0
  /-- Cycle of the last arrival and the straggler count left then, while every core has arrived (24 R434). -/
  lastArrival : Option (Nat × Nat) := none
  exchange : Exch := {}
  /-- Arrival and end messages of the span that are held: member and the boundary that each belongs to (08 R167). -/
  spanArrived : List (Nat × Nat) := []
  spanEnded : List (Nat × Nat) := []
  /-- The messages of this boundary that it has sent: 1 arrival, 2 end. -/
  spanSent : Nat := 0
  session : Option Nat := none
  /-- Fabric windows to bind or unbind, and pages to migrate, at the next boundary (21 R380, 10 R227). -/
  windowPend : List (Nat × Option (Nat × Nat)) := []
  movePend : List (Nat × Nat) := []
  /-- Pages with their new attributes, as XLATE op 3 codes them, at the next close (10 R225). -/
  attrPend : List (Nat × Nat) := []
  ckpt : Ckpt := {}
  deriving DecidableEq, Repr, Inhabited

/-- A page (10 R225-R228, 21 R378). -/
structure Page where
  part : Nat
  writable : Bool
  shared : Bool
  nonatomic : Bool
  replicate : Bool
  sysAtomic : Bool
  home : Nat
  /-- First page of the run that its map named (21 R378). -/
  first : Nat := 0
  replicas : List Nat := []
  histDie : Nat := 0
  histCount : Nat := 0
  forward : Option Nat := none
  deriving DecidableEq, Repr, Inhabited

/-- A byte of a NONATOMIC page that a die which held a replica has not taken yet (10 R226). -/
structure Lag where
  die : Nat
  addr : Nat
  old : Byte
  deriving DecidableEq, Repr, Inhabited

/-- A message the device has sent (21 R381), with the VLAN ID of its frame's tag (01 R20). -/
structure Frame where
  session : Nat
  seq : Nat := 0
  ack : Nat := 0
  type : Nat
  flags : Nat := 0
  status : Nat := 0
  payload : List Byte := []
  peer : Nat := 0
  port : Nat := 0
  vlan : Option Nat := none
  /-- A command that is acted on once this reply has been sent, with what a start meets (24 R432). -/
  command : Option (Nat × StartFacts) := none
  deriving DecidableEq, Repr, Inhabited

/-- Where a request came from, which its reply goes back to, and its type (01 R20, 21 R383). -/
structure Origin where
  type : Nat
  peer : Nat
  port : Nat
  deriving DecidableEq, Repr, Inhabited

/-- A request that waits in its session, with its arrival number (21 R382). -/
structure Waiting where
  arrival : Nat
  origin : Origin
  req : HostReq
  deriving DecidableEq, Repr, Inhabited

/-- An open Plagan session (21 R382). -/
structure Session where
  admin : Bool
  part : Nat
  peer : Nat
  port : Nat
  rxNext : Nat := 1
  txSeq : Nat := 1
  /-- Sent and not acknowledged: frame, retries, deadline. -/
  unacked : List (Frame × Nat × Nat) := []
  /-- Frames that wait for room in the window of 64. -/
  backlog : List Frame := []
  /-- The request acted on whose reply is due, and the requests behind it. -/
  busy : Option Origin := none
  waiting : List Waiting := []
  /-- The first of these waits for a boundary (10 R229, 21 R378). -/
  held : Bool := false
  deriving DecidableEq, Repr, Inhabited

/-- A monitor (24 R434). -/
structure Monitor where
  log2 : Bool := true
  width : Nat := 0
  base : Nat := 0
  least : Nat := 0xFFFFFFFF
  greatest : Nat := 0
  count : Nat := 0
  bins : Table Nat := []
  deriving DecidableEq, Repr, Inhabited

/-- The wear record (24 R438). -/
structure Wear where
  generation : Nat := 1
  hours : Nat := 0
  levels : Table Nat := []
  attempts : Nat := 0
  failStep : Nat := 0
  failUnit : Nat := 0
  /-- Marks: 1 marked, 2 failed; key 64 c + k, and 2 (64 c + k) + l for lattices. -/
  cores : Table Nat := []
  lats : Table Nat := []
  biased : List Nat := []
  calHours : Table Nat := []
  hbm : Table Nat := []
  modules : List Nat := []
  ports : List Nat := []
  phase : Nat := 0
  ioDies : List Nat := []
  deriving DecidableEq, Repr, Inhabited

/-- A notice (24 R433): of kind 1 to 4 in the order of R433, and whether a READ has covered it. -/
structure Notice where
  kind : Nat
  unit : Nat
  phase : Nat
  cycle : Nat
  value : Nat
  seen : Bool := false
  deriving DecidableEq, Repr, Inhabited

/-- The run state of the device (24 R443, R445). A start, on its way to safe mode or not, that is held stands before a
step; a failed one answers nothing. -/
inductive RunState where
  | off
  | starting (cold safe : Bool) (step : Nat) (facts : StartFacts)
  | running
  | safe
  | failed
  deriving DecidableEq, Repr, Inhabited

/-- Why the device is frozen (23 R425). -/
inductive Freeze where
  | none
  | pin
  | command
  | thermal
  deriving DecidableEq, Repr, Inhabited

/-- The device outside its partitions (01, 23, 24). -/
structure Device where
  stepping : Nat := 0
  coresCode : Nat := 0
  latCode : Nat := 0
  stackCode : Nat := 0
  run : RunState := .running
  startKind : Nat := 0
  frozen : Freeze := .none
  tripped : Bool := false
  /-- FRZ_N has risen after a thermal trip and the device is still too hot to resume (23 R427). -/
  resumePending : Bool := false
  /-- The level of FRZ_N (23 R425). -/
  frz : Bool := true
  throttled : Bool := false
  throttleAt : Nat := 0
  strap : Bool := false
  /-- Enabled physical cores per cluster, in logical order; enabled lattices per core; enabled stacks. -/
  cores : Table (List Nat) := []
  lats : Table (List Nat) := []
  hbm : List Nat := []
  number : Nat := 0
  mac : Nat := 0
  /-- The host-port record whose global address is in effect, and the VLAN ID of the port (01 R20). -/
  hostAddr : List Byte := []
  vlan : Option Nat := none
  /-- The two stored copies of the host-port record: the latest written, whether its write was cut off, and the cycle
  until which the write goes on; and the other (01 R20, 24 R438). -/
  hostRec : Option (List Byte) := none
  hostCut : Bool := false
  hostTill : Nat := 0
  hostRecOld : Option (List Byte) := none
  portDown : List Nat := []
  portStop : List Nat := []
  counters : Table Nat := []
  notices : List Notice := []
  noticesPosted : Nat := 0
  monitors : Table Monitor := []
  /-- The samples that monitors took in a cycle, and that cycle (24 R436). -/
  fresh : Table (List Nat) := []
  freshAt : Nat := 0
  /-- Per monitor of HBM read latency, the cycle up to which its samples have been taken in (24 R434). -/
  hbmAt : Table Nat := []
  /-- The two copies of the wear record: the latest written, whether its write was cut off, and the cycle until which the
  write goes on; and the other (24 R438). -/
  wear : Wear := {}
  wearCut : Bool := false
  wearTill : Nat := 0
  wearOld : Wear := { generation := 0 }
  /-- Powered hours, which each write of the wear record stores (24 R431, R438). -/
  hours : Nat := 0
  /-- Commands whose replies have been sent and that have not been acted on (24 R432). -/
  cmds : List (Nat × StartFacts) := []
  /-- Per voltage domain, the cycle of the latest step and of the latest sample of its level (24 R434, R437). -/
  bandAt : Table Nat := []
  bandSample : Table Nat := []
  /-- Physical cores on which the dispatcher places nothing until the next start (24 R437). -/
  shut : List Nat := []
  /-- A recalibration command running: the clusters it covers (24 R439). -/
  recal : List Nat := []
  tapIr : Nat := 1
  tapSeg : Nat := 0
  tapOut : List Bool := []
  deriving DecidableEq, Repr, Inhabited

/-- Which executor issues the current word (04 R81). -/
inductive Actor where
  | none
  | group (group set : Nat)
  | control (cluster : Nat)
  | sequencer (core unit : Nat)
  deriving DecidableEq, Repr, Inhabited

/-- The issue of the current word: executor, hints of its run, address of the run's first word and of the target,
and the target's word (03 R65). -/
structure Issue where
  actor : Actor := .none
  hints : Hints := {}
  runPc : Word := 0#32
  pc : Word := 0#32
  word : Word := 0#32
  /-- The word that makes the run illegal, for the payload of R89 and R90. -/
  first : Word := 0#32
  deriving DecidableEq, Repr, Inhabited

/-- The whole device. -/
structure State where
  /-- The core cycle counter (05 R107). -/
  cycle : Nat := 0
  /-- The chip-wide phase counter (08 R163). -/
  chipPhase : Nat := 0
  dev : Device := {}
  parts : Table Part := []
  launches : Table Launch := []
  teams : Table Team := []
  /-- Teams that have retired in their compute phase: they hold their allocations until step 5 of the next boundary, and
  a rollback or relaunch of their gang brings them back (09 R194, 23 R415, R416). -/
  retired : Table Team := []
  groups : Table Group := []
  clusters : Table Cluster := []
  /-- Key: physical core 64 c + k. -/
  cores : Table Core := []
  /-- Key: 8 times the physical core plus the unit, 0-3 copy queues, 4-5 lattices (11 R238). -/
  engines : Table Engine := []
  /-- Key: 2 times the physical core plus the lattice. -/
  lattices : Table Lattice := []
  /-- Lattices marked BIASED (18 R357). -/
  biased : List Nat := []
  /-- GRED atomic buffers of the device, in creation order (09 R207). -/
  gred : List Entry := []
  /-- Local memory: byte at offset o of physical core 64 c + k has address (64 c + k) * 2^21 + o. -/
  lmem : List Host.Cell := []
  /-- Word bits by the word's byte address: bit 0 empty, bit 1 dirty (09 R196). -/
  lbits : List Host.Cell := []
  /-- Lines whose snapshot-changed bit is 1, by line number (09 R196). -/
  lsnap : List Host.Cell := []
  /-- Control memory: byte o of cluster c has address c * 2^20 + o. -/
  cmem : List Host.Cell := []
  /-- Global memory by unified address. -/
  gmem : List Host.Cell := []
  pages : Table Page := []
  lags : List Lag := []
  /-- Lost words by unified address (23 R417). -/
  lost : List Nat := []
  /-- Fabric writes held at the home, in order of arrival, each with its unified address (10 R231). -/
  fabric : List (Nat × FabWrite) := []
  /-- Fabric writes sent, newest last, each with the device it goes to (11 R250). -/
  fabricOut : List (Nat × FabWrite) := []
  /-- Boundary messages sent: partition, boundary count, plane, at the end of the exchange (08 R167). -/
  spanOut : List (Nat × Nat × Nat × Bool) := []
  /-- Checkpoint images on the safe tier, by target key (23 R419). -/
  pool : Table Image := []
  sessions : Table Session := []
  nextSession : Nat := 1
  /-- Messages sent by the host port, newest last. -/
  sent : List Frame := []
  issue : Issue := {}
  /-- How far the happenings of this cycle have come that the spec orders within a cycle: per kind, the place of the
  latest (07 R140, R148, 08 R163, R181, 11 R253, 23 R421, R429, 24 R445); of kind 3, that PORST_N has come. -/
  turn : Table Nat := []
  agenda : List (Nat × Move) := []
  nextId : Nat := 1
  freeCount : Nat := 0
  deriving DecidableEq, Repr, Inhabited

/-- The state after a completed cold start of a healthy part in the full configuration, with no partition created
(24 R442, R443): cycle and phase counters 0, every memory zero, every core, lattice and stack enabled. -/
def State.reset : State :=
  { dev :=
      { cores := (upto 16).map (fun c => (c, upto 64)),
        lats := (upto 1024).map (fun k => (k, [0, 1])),
        hbm := upto 16 } }

end Sys2Proof.Machine
end

