-- ==== Sys2Proof/Machine/Ops.lean ====
section
/-! DEFINITION. The named operations over memory, chunks and groups that the meanings share: addresses and views,
signatures, chunk opening and ending, waits and releases, taking a trap, its delivery and the return from it, killing a
team, event records and messages to the host. -/

namespace Sys2Proof.Machine

/-! ### Lookups -/

/-- The group, team and launch of a group number. -/
def groupTriple (s : State) (gid : Nat) : Option (Group × Team × Launch) :=
  match tget s.groups gid with
  | none => none
  | some g =>
    match tget s.teams g.team with
    | none => none
    | some t =>
      match tget s.launches t.launch with
      | none => none
      | some l => some (g, t, l)

/-- The cluster with its defaults. -/
def clusterAt (s : State) (c : Nat) : Cluster := tgetD s.clusters c {}

/-- Sets a cluster. -/
def setCluster (s : State) (c : Nat) (v : Cluster) : State := { s with clusters := tput s.clusters c v }

/-- Sets a group. -/
def setGroup (s : State) (gid : Nat) (g : Group) : State := { s with groups := tput s.groups gid g }

/-- Sets a team. -/
def setTeam (s : State) (tid : Nat) (t : Team) : State := { s with teams := tput s.teams tid t }

/-- Sets a launch. -/
def setLaunch (s : State) (lid : Nat) (l : Launch) : State := { s with launches := tput s.launches lid l }

/-- Sets a partition. -/
def setPart (s : State) (n : Nat) (p : Part) : State := { s with parts := tput s.parts n p }

/-- A team, placed or retired in this compute phase. -/
def anyTeam (s : State) (tid : Nat) : Option Team :=
  match tget s.teams tid with
  | some t => some t
  | none => tget s.retired tid

/-- Changes a team, placed or retired in this compute phase. -/
def onTeam (s : State) (tid : Nat) (f : Team → Team) : State :=
  { s with teams := tmod s.teams tid f, retired := tmod s.retired tid f }

/-- The engine of a core and unit. -/
def engineAt (s : State) (core unit : Nat) : Engine := tgetD s.engines (core * 8 + unit) {}

/-- Sets an engine. -/
def setEngine (s : State) (core unit : Nat) (e : Engine) : State :=
  { s with engines := tput s.engines (core * 8 + unit) e }

/-- The lattice of a core, by physical lattice number. -/
def latticeAt (s : State) (core l : Nat) : Lattice := tgetD s.lattices (core * 2 + l) {}

/-- Sets a lattice. -/
def setLattice (s : State) (core l : Nat) (v : Lattice) : State := { s with lattices := tput s.lattices (core * 2 + l) v }

/-- The number of the partition that holds a cluster. -/
def partOf (s : State) (c : Nat) : Option Nat := ((s.parts.filter (fun e => e.2.clusters.contains c)).head?).map (·.1)

/-- Adds to a management counter (24 R430): 0 dropped frames, 1 dropped Plagan messages, 2 session closures, 3 refused
host atomics, 4 corrected errors, 5 throttle cycles, 6 wear-record writes, 7 notices lost. -/
def bumpMgmt (s : State) (i n : Nat) : State :=
  { s with dev := { s.dev with counters := tupd s.dev.counters i 0 (· + n) } }

/-- The device runs: neither frozen, nor off, nor in a start, nor in safe mode (23 R425, 24 R443). -/
def deviceRuns (s : State) : Bool := s.dev.run == .running && s.dev.frozen == .none

/-- The device is up: running or in safe mode, and not frozen. Its sensors and monitors work then (01 R24, 24 R434, R437,
R445). -/
def deviceUp (s : State) : Bool := (s.dev.run == .running || s.dev.run == .safe) && s.dev.frozen == .none

/-! ### Kernel and team facts -/

/-- The spill area at the top of an allocation of lm bytes (09 R194). -/
def spillOf (lm : Nat) : Nat := lm / 16 / 32 * 32

/-- Deterministic, record and replay launches order issue sets and limit segments alike (08 R187). -/
def ordered (l : Launch) : Bool := l.mode != 0

/-- A legal instruction address of the text section (03 R56). -/
def inText (l : Launch) (a : Word) : Bool := a.toNat % 4 == 0 && decide (a.toNat + 4 ≤ 4 * l.text.length)

/-- The word of a section at a byte offset. -/
def sectionWord (ws : List Word) (a : Nat) : Word := (ws[a / 4]?).getD 0#32

/-- The words of a section from a byte offset on, enough for a run (03 R65). -/
def sectionRun (ws : List Word) (a : Nat) : List Nat := ((ws.drop (a / 4)).take 5).map (·.toNat)

/-- The teams of a gang that hold allocations: those placed, and those retired in this phase. -/
def gangTeams (s : State) (t : Team) : List Team :=
  (tvals s.teams ++ tvals s.retired).filter (fun u => u.launch == t.launch && u.gang == t.gang)

/-- A placed allocation: logical core, virtual base, physical address of its first byte. -/
def allocations (u : Team) : List (Nat × Nat × Nat) :=
  (upto u.cores.length).map (fun i =>
    (u.logicalCore + i, u.vbase.getD i 0, u.cores.getD i 0 * Config.localBytes + u.pbase.getD i 0))

/-- The physical address of a run of bytes that lies in one of the allocations, given the bytes of each that count
(09 R193, R194). -/
def translateIn (us : List Team) (size addr n : Nat) : Option Nat :=
  let core := addr / Config.localBytes
  let off := addr % Config.localBytes
  (((us.flatMap allocations).filter (fun w =>
      w.1 == core && decide (w.2.1 ≤ off) && decide (off + n ≤ w.2.1 + size))).head?).map
    (fun w => w.2.2 + (off - w.2.1))

/-- The physical address of a run of bytes inside one window of the team's gang (09 R194). -/
def translate (s : State) (t : Team) (l : Launch) (addr n : Nat) : Option Nat :=
  translateIn (gangTeams s t) (l.lm - spillOf l.lm) addr n

/-- The bytes reserved for the coming exchange (08 R170), of every team of the device. -/
def reservedRanges (s : State) : List (Nat × Nat) := (tvals s.teams).flatMap (·.reserved)

/-- The lowest reserved byte of a run (08 R170). -/
def reservedIn (s : State) (phys n : Nat) : Option Nat :=
  let hits := (reservedRanges s).filterMap (fun r =>
    let lo := max r.1 phys
    if lo < min (r.1 + r.2) (phys + n) then some lo else none)
  match hits with
  | [] => none
  | a :: rest => some (rest.foldl min a)

/-- The checks of a local-memory access in the order of 09 R195, the first one excepted: the physical address, or the
trap cause and the address it reports. -/
def checkLocal (s : State) (t : Team) (l : Launch) (addr : Word) (n align : Nat) : Except (Nat × Word) Nat :=
  if addr.toNat ≥ 2 ^ 27 then .error (4, addr)
  else if addr.toNat % align != 0 then .error (5, addr)
  else
    match translate s t l addr.toNat n with
    | none => .error (4, addr)
    | some p =>
      match reservedIn s p n with
      | some r => .error (3, addr + BitVec.ofNat 32 (r - p))
      | none => .ok p

/-! ### Signatures (08 R176) -/

/-- Inserts into a rising list of numbers. -/
def insertNat (n : Nat) (l : List Nat) : List Nat :=
  match l with
  | [] => [n]
  | m :: rest => if n < m then n :: m :: rest else if n = m then m :: rest else m :: insertNat n rest

/-- Sets bits of a signature. -/
def sigAdd (g : Sig) (bits : List Nat) : Sig :=
  if g.all then g else { g with bits := bits.foldl (fun l b => insertNat b l) g.bits }

/-- The set bits of bank i, as offsets modulo 128, of a signature with banks of `size` bits. -/
def sigBank (g : Sig) (size i : Nat) : List Nat :=
  if g.all then upto 128 else ((g.bits.filter (fun b => b / size == i)).map (fun b => b % size % 128))

/-- A write signature intersects a write signature: in every bank some bit is set in both. -/
def sigHitsWrite (a b : Sig) : Bool :=
  (upto 4).all (fun i => (sigBank a 128 i).any (fun k => (sigBank b 128 i).contains k))

/-- A write signature intersects a read signature. -/
def sigHitsRead (w r : Sig) : Bool :=
  (upto 4).all (fun i => (sigBank w 128 i).any (fun k => (sigBank r 256 i).contains k))

/-- The signature input of a line: the address without its low six bits; one for each line of a run. -/
def lineInputs (addr n : Nat) : List Nat :=
  if n = 0 then [] else (upto ((addr + n - 1) / 64 - addr / 64 + 1)).map (fun k => addr / 64 + k)

/-- The input of team-scoped state register n; n = 31 is the exchange name. -/
def teamInput (t : Team) (n : Nat) : Nat :=
  0x00400000 + 32 * (64 * (t.cores.getD 0 0 % 64) + t.tslots.getD 0 0) + n

/-- The input of engine register n of queue q on core index i (11 R236). -/
def engineInput (t : Team) (i q n : Nat) : Nat :=
  0x00800000 + 128 * (64 * (t.cores.getD i 0 % 64) + t.tslots.getD i 0) + 32 * q + n

/-- The input of a handle slot (11 R257). -/
def slotInput (n : Nat) : Nat := 0x00C00000 + n

/-- Enters reads and writes, given by their inputs, into a chunk's signatures. None when an access would pass a limit
of 08 R174 and is not the chunk's first; the first performs with every bit of the signature it would overfill. -/
def enterAccess (c : Chunk) (reads writes : List Nat) : Option Chunk :=
  let r := sigAdd c.rsig (reads.flatMap readBits)
  let w := sigAdd c.wsig (writes.flatMap writeBits)
  let overR := decide (r.bits.length > 256)
  let overW := decide (w.bits.length > 128)
  let first := c.rsig == {} && c.wsig == {}
  if !overR && !overW then some { c with rsig := r, wsig := w }
  else if first then
    some { c with
      rsig := if overR then { bits := [], all := true } else r,
      wsig := if overW then { bits := [], all := true } else w,
      saturated := true }
  else none

/-! ### Views (08 R177) -/

/-- The chunks of a group that have not committed, newest first. -/
def ownChunks (g : Group) : List Chunk := g.cur.toList ++ g.inflight.reverse

/-- The first listed byte of an address. -/
def cellOf (cs : List Host.Cell) (a : Nat) : Option Byte := (cs.find? (fun c => c.1 == a)).map (·.2)

/-- The group's own uncommitted stores, newest first. -/
def ownStores (g : Group) : List Host.Cell := (ownChunks g).flatMap (·.stores)

/-- The group's own uncommitted bit changes, newest first. -/
def ownTags (g : Group) : List TagStore := (ownChunks g).flatMap (·.tags)

/-- The group's own uncommitted effects in program order. -/
def ownEffs (g : Group) : List Eff := ((ownChunks g).reverse).flatMap (·.effs)

/-- A byte of local memory in a view: own stores, then committed state. -/
def viewByte (m : Memory) (stores : List Host.Cell) (a : Nat) : Byte := (cellOf stores a).getD (mread m a)

/-- n bytes of a view. -/
def viewBytes (m : Memory) (stores : List Host.Cell) (a n : Nat) : List Byte :=
  (upto n).map (fun k => viewByte m stores (a + k))

/-- A word of a view. -/
def viewWord (m : Memory) (stores : List Host.Cell) (a : Nat) : Word :=
  BitVec.ofNat 32 (leNat (viewBytes m stores a 4))

/-- The full bit of a word in a view (09 R196). -/
def viewFull (bits : Memory) (tags : List TagStore) (a : Nat) : Bool :=
  match (tags.find? (fun t => t.addr == a && t.full.isSome)).bind (·.full) with
  | some f => f
  | none => !(mread bits a).getLsbD 0

/-- The dirty bit of a word in a view (09 R196). -/
def viewDirty (bits : Memory) (tags : List TagStore) (a : Nat) : Bool :=
  match (tags.find? (fun t => t.addr == a && t.dirty.isSome)).bind (·.dirty) with
  | some d => d
  | none => (mread bits a).getLsbD 1

/-- The bit changes of a write of data: D of every word touched is set (09 R196). -/
def dirtyTags (phys n : Nat) : List TagStore :=
  if n = 0 then []
  else (upto ((phys + n - 1) / 4 - phys / 4 + 1)).map
    (fun k => { addr := (phys / 4 + k) * 4, full := none, dirty := some true })

/-- A store of bytes into a chunk: the bytes (newest first) and the dirty bits. -/
def chunkStore (c : Chunk) (phys : Nat) (bs : List Byte) : Chunk :=
  { c with
    stores := ((upto bs.length).map (fun k => (phys + k, bs.getD k 0#8))).reverse ++ c.stores,
    tags := dirtyTags phys bs.length ++ c.tags }

/-- The cluster-local address, as the gang addresses it, of a byte at a physical address (09 R193). -/
def localAddr (ws : List (Nat × Nat × Nat)) (lm phys : Nat) : Nat :=
  match ws.find? (fun w => decide (w.2.2 ≤ phys) && decide (phys < w.2.2 + lm)) with
  | some w => w.1 * Config.localBytes + w.2.1 + (phys - w.2.2)
  | none => phys

/-- The cluster-local addresses of a group's gang (09 R193, R194). -/
def localMap (s : State) (g : Group) : Nat → Nat :=
  match tget s.teams g.team with
  | none => id
  | some t =>
    match tget s.launches t.launch with
    | none => id
    | some l => localAddr ((gangTeams s t).flatMap allocations) l.lm

/-- The 512-byte-aligned blocks of cluster-local memory that a chunk's stores hold segments of (08 R175). -/
def chunkBlocks (loc : Nat → Nat) (c : Chunk) : List Nat :=
  once ((c.stores.map (fun x => loc x.1 / 512)) ++ (c.tags.map (fun x => loc x.addr / 512)))

/-- The segments a chunk borrows beyond its own two (08 R175). -/
def borrowed (loc : Nat → Nat) (c : Chunk) : Nat := (chunkBlocks loc c).length - 2

/-- Whether a chunk of a group may hold segments of these blocks (08 R175). -/
def segmentsFit (s : State) (l : Launch) (g : Group) (c : Chunk) (gid : Nat) : Bool :=
  let loc := localMap s g
  let need := borrowed loc c
  if need == 0 then true
  else if ordered l then false
  else
    let others := (s.groups.filter (fun e => e.1 != gid))
    let onCore := others.filter (fun e => e.2.core == g.core)
    let free := 4 * (64 - (onCore.length + 1))
    let used := fun (es : Table Group) => total (es.map (fun e => total ((ownChunks e.2).map (borrowed (localMap s e.2)))))
    let usedCore := used onCore
    let usedTeam := used (others.filter (fun e => e.2.team == g.team))
    let own := total (g.inflight.map (borrowed loc))
    decide (usedCore + own + need ≤ free) && decide (usedTeam + own + need ≤ 64)

/-- A team register in committed state (02 R49). -/
def teamReg (t : Team) (n : Nat) : Word := tgetD t.regs n 0#32

/-- A team register as effects leave it: WRSTs and amax updates in program order (02 R50, 14 R280). -/
def applyReg (n : Nat) (v : Word) (effs : List Eff) : Word :=
  effs.foldl (fun x e =>
    match e with
    | .wrst m w => if m = n then w else x
    | .amax a => if n = 3 && decide (x.toNat < a.toNat) then a else x
    | _ => x) v

/-- A team register in the group's view (05 R106). -/
def viewReg (g : Group) (t : Team) (n : Nat) : Word := applyReg n (teamReg t n) (ownEffs g)

/-- An engine register in the group's view (11 R240). -/
def viewEreg (g : Group) (t : Team) (i q n : Nat) : DWord :=
  (ownEffs g).foldl (fun x e =>
    match e with
    | .erset q' n' v => if q' = q && n' = n then v else x
    | _ => x) (tgetD t.eregs ((i * 4 + q) * 32 + n) 0#64)

/-- The exchange name in the group's view (09 R213). -/
def viewName (g : Group) (t : Team) : Option Nat :=
  (ownEffs g).foldl (fun x e =>
    match e with
    | .exname n => some n
    | _ => x) t.exname

/-- A handle slot in the group's view (11 R259, R260). -/
def viewSlot (g : Group) (tid : Nat) (p : Part) (k : Nat) : Slot :=
  (ownEffs g).foldl (fun x e =>
    match e with
    | .hload k' gen sh => if k' = k then { owner := some tid, gen := gen, shape := some sh } else x
    | .hdrop k' => if k' = k then { x with owner := none, shape := none } else x
    | _ => x) (tgetD p.slots k {})

/-- Adds an increment to a saturating 32-bit team counter, at once (05 R106). -/
def bumpTeam (t : Team) (n k : Nat) : Team :=
  { t with regs := tput t.regs n (BitVec.ofNat 32 (min 0xFFFFFFFF ((teamReg t n).toNat + k))) }

/-- The index of a group's core among its team's cores. -/
def coreIndex (g : Group) (t : Team) : Nat := if t.cores.getD 0 0 == g.core then 0 else 1

/-! ### Event records and messages (07 R144-R147, 21 R381-R382) -/

/-- Sends the frames that the window of 64 admits (21 R382). -/
def pumpSession (s : State) (sid : Nat) (fuel : Nat) : State :=
  match fuel with
  | 0 => s
  | f + 1 =>
    match tget s.sessions sid with
    | none => s
    | some x =>
      match x.backlog with
      | [] => s
      | fr :: rest =>
        if x.unacked.length ≥ 64 then s
        else
          let fr' := { fr with seq := x.txSeq, ack := x.rxNext - 1, vlan := s.dev.vlan, command := none }
          let x' := { x with backlog := rest, txSeq := x.txSeq + 1, unacked := x.unacked ++ [(fr', 0, s.cycle + 2 ^ 21)] }
          pumpSession { s with
            sessions := tput s.sessions sid x', sent := s.sent ++ [fr'],
            dev := { s.dev with cmds := s.dev.cmds ++ fr.command.toList } } sid f

/-- Queues a frame of a session and sends what the window admits. -/
def sendFrame (s : State) (sid : Nat) (fr : Frame) : State :=
  match tget s.sessions sid with
  | none => s
  | some x => pumpSession { s with sessions := tput s.sessions sid { x with backlog := x.backlog ++ [fr] } } sid (x.backlog.length + 1)

/-- The 32 bytes of an event record (07 R144). -/
def eventBytes (e : Event) : List Byte :=
  natLE 2 e.type ++ natLE 2 e.source ++ natLE 4 e.seq ++ natLE 8 e.phase ++ natLE 16 e.payload.toNat

/-- Sends an event record to the host in the session of the partition's most recent partition-role HELLO, or drops it
and counts the drop (01 R20). -/
def hostEvent (s : State) (part : Nat) (e : Event) : State :=
  match (tget s.parts part).bind (·.session) with
  | some sid =>
    (match tget s.sessions sid with
      | some x => sendFrame s sid { session := sid, type := 5, payload := eventBytes e, peer := x.peer, port := x.port }
      | none => bumpMgmt s 1 1)
  | none => bumpMgmt s 1 1

/-- An event queue with one more record posted (07 R146). -/
def pushEvent (q : List Event) (e : Event) : List Event :=
  if q.length < 4095 then q ++ [e]
  else
    match q.getLast? with
    | some o =>
      if o.type == 14 then q.dropLast ++ [{ o with payload := o.payload + 1#128 }]
      else q ++ [{ type := 14, source := 0, seq := e.seq, phase := e.phase, payload := 1#128 }]
    | none => q ++ [e]

/-- Posts a record to a cluster's event queue with the next seq; types 6, 7, 11 and 13 also go to the host (07 R145). The
event may name a limit of 02 R42. -/
def postNaming (limit : Option Nat) (s : State) (c type source : Nat) (payload : BitVec 128) : State :=
  let cl := clusterAt s c
  let e : Event := { type := type, source := source, seq := cl.eventSeq, phase := s.chipPhase, payload := payload, limit := limit }
  let s' := setCluster s c { cl with events := pushEvent cl.events e, eventSeq := (cl.eventSeq + 1) % 2 ^ 32 }
  if type == 6 || type == 7 || type == 11 || type == 13 then
    match partOf s c with
    | some p => hostEvent s' p e
    | none => s'
  else s'

/-- Posts a record that names no limit. -/
def postEvent (s : State) (c type source : Nat) (payload : BitVec 128) : State := postNaming none s c type source payload

/-- A payload of consecutive little-endian fields (size in bytes, value). -/
def packPayload (fs : List (Nat × Nat)) : BitVec 128 :=
  BitVec.ofNat 128 (leNat (fs.flatMap (fun f => natLE f.1 f.2)))

/-- The source field of a record: kind and physical unit number (07 R144). -/
def sourceOf (kind unit : Nat) : Nat := kind * 2 ^ 12 + unit % 2 ^ 12

/-! ### Lanes, issue sets and chunks -/

/-- The lane of a group. -/
def laneAt (g : GroupCore) (l : Nat) : Lane := tgetD g.lanes l {}

/-- Changes one lane. -/
def setLane (g : GroupCore) (l : Nat) (x : Lane) : GroupCore := { g with lanes := tput g.lanes l x }

/-- The lanes that hold a live thread. -/
def liveLanes (g : GroupCore) : List Nat := (g.lanes.filter (fun e => e.2.status == .live)).map (·.1)

/-- The live lanes of an issue set, in ascending order (06 R110). -/
def setLanes (g : GroupCore) (set : Nat) : List Nat :=
  (g.lanes.filter (fun e => e.2.status == .live && e.2.set == set)).map (·.1)

/-- Whether any register of the group is pending (03 R57). -/
def anyPending (g : GroupCore) : Bool :=
  g.v.any (fun e => e.2.pending) || g.s.any (fun e => e.2.pending) || g.p.any (fun e => e.2.pending)

/-- Ends the switch waits of the group once no register is pending (03 R57). -/
def endSwitch (g : GroupCore) : GroupCore :=
  if anyPending g then g else { g with lanes := tmap g.lanes (fun _ x => if x.switch then { x with switch := false } else x) }

/-- A thread whose part of a chunk of quantum q has ended, that runs from a later quantum on only, or that waits otherwise
than in SLEEP or a switch wait (08 R172, R183, 06 R124). -/
def partOver (q : Nat) (x : Lane) : Bool :=
  x.ended || decide (q < x.readyQ) ||
  (match x.wait with
    | .ready => false
    | .sleep _ => false
    | _ => true)

/-- Ends the open chunk of a group when every live thread's part has ended: it waits for its commit, the parts of the
next chunk are fresh, and no issue set runs (08 R172, 06 R114). -/
def endChunk (cycle : Nat) (g : Group) : Group :=
  match g.cur with
  | none => g
  | some c =>
    if g.regs.lanes.all (fun e => e.2.status != .live || partOver c.quantum e.2) then
      { g with
        cur := none,
        running := none,
        inflight := g.inflight ++ [{ c with endCycle := cycle }],
        regs := { g.regs with lanes := tmap g.regs.lanes (fun _ x =>
          { x with ended := false, count := 0, latchPhase := none, latchCycle := none }) } }
    else g

/-- The forks of a chunk on a unit. -/
def forksOn (u : Nat) (c : Chunk) : Nat := (c.effs.filter (fun e => match e with | .fork v _ => v == u | _ => false)).length

/-- The programs that RDVs wait for have ended: of the group's forks on the unit, those that came before (11 R239). -/
def joinsDone (g : Group) : Bool :=
  g.regs.joining.all (fun j =>
    let fs := g.forks.filter (fun f => f.unit == j.1)
    decide (j.2 ≤ fs.length) && (fs.take j.2).all (fun f => f.status != 1))

/-- The committed quantum count of a group: the index of its next chunk to commit (08 R182). -/
def commitQuantum (g : Group) : Nat :=
  match g.inflight with
  | c :: _ => c.quantum
  | [] => match g.cur with
    | some c => c.quantum
    | none => g.nextQuantum

/-- A lane in the wait of FENL (09 R214). -/
def inFence (x : Lane) : Bool :=
  match x.wait with
  | .fenl _ => x.status == .live
  | _ => false

/-- A group that has work or a live thread left. -/
def groupLives (g : Group) : Bool := !(liveLanes g.regs).isEmpty || !g.inflight.isEmpty || g.cur.isSome

/-- The groups that the order of 08 R182 ranks with a group: the living ones of its launch in its cluster, of teams that no
rollback parts from its own (23 R415). -/
def roundMates (s : State) (g : Group) : List (Nat × Group) :=
  match tget s.teams g.team with
  | none => []
  | some t => s.groups.filter (fun e => e.2.core / 64 == g.core / 64 && groupLives e.2 &&
      (match tget s.teams e.2.team with
        | some u => u.launch == t.launch && u.cohort == t.cohort && !u.killed
        | none => false))

/-- A wait that a commit ends, or a parked thread (06 R115, 08 R183). -/
def commitWait (x : Lane) : Bool :=
  x.status == .live && (match x.wait with
    | .full _ => true
    | .bart => true
    | .barg => true
    | .bartc _ _ _ _ => true
    | .fenl _ => true
    | .spawn _ => true
    | .parked => true
    | _ => false)

/-- Whether the group may open its next chunk: at most one other is uncommitted (08 R175), none is while a thread is in
FENL, which goes on with no chunk of its group in flight (09 R214), the group that holds the commit token waits for its
commit (07 R161), and its joins have ended (11 R239). -/
def canOpen (s : State) (g : Group) (gid : Nat) : Bool :=
  g.cur.isNone && decide (g.inflight.length < 2) &&
  (g.inflight.isEmpty || (!g.regs.lanes.any (fun e => inFence e.2) &&
    (clusterAt s (g.core / 64)).token != some (.group gid))) && joinsDone g

/-- Opens a chunk of a group: the shadow is taken and the quantum index assigned (08 R172, R180, R182). -/
def openChunk (s : State) (g : Group) (kind : ChunkKind) : State × Group :=
  let c : Chunk := { uid := s.nextId, kind := kind, start := { g.regs with joining := [] }, quantum := g.nextQuantum }
  ({ s with nextId := s.nextId + 1 },
   { g with cur := some c, nextQuantum := g.nextQuantum + 1, regs := { g.regs with joining := [] } })

/-- The team's handler in a group's view; one that is 0, or no instruction address, is none (21 R387). -/
def handlerOf (g : Group) (t : Team) (l : Launch) : Option Word :=
  let h := viewReg g t 17
  if h != 0#32 && inText l h then some h else none

/-- Whether the FP window of a sub-group has closed. -/
def windowClosed (t : Team) (p : Park) : Bool :=
  p.causes.isEmpty ||
  (match p.win with
    | some k => decide (k < t.fp.n) || !t.fp.isOpen
    | none => false)

/-- The parked sub-groups in the order of delivery: by the end of their chunk, then by lowest lane (21 R388). -/
def parksInOrder (g : Group) : List Park :=
  let ended := g.regs.trap.parks.filter (fun p => (g.cur.map (·.uid)) != some p.chunk)
  sortBy (fun a b => lexLt [a.chunk, leastD (lanesOf a.lanes 64) 64] [b.chunk, leastD (lanesOf b.lanes 64) 64]) ended

/-- The sub-group that the trap slot takes next, once it is free: one whose FP window has closed, or that no handler waits
for (21 R387, R388). -/
def nextPark (g : Group) (t : Team) (l : Launch) : Option Park :=
  if g.regs.trap.inService then none
  else (parksInOrder g).find? (fun p => windowClosed t p || (p.win.isNone && (handlerOf g t l).isNone))

/-- Whether FP traps of a group in replay mode wait for their window to close: the group starts no chunk until it has, as a
group in deterministic mode starts none before the round has committed (14 R287; DEDUCED, log 140). -/
def windowHolds (l : Launch) (g : Group) (t : Team) : Bool :=
  l.mode == 3 && g.regs.trap.parks.any (fun p => !p.causes.isEmpty && !windowClosed t p)

/-- In replay mode, a group that can commit no chunk before a window of its team closes: it has none in flight, and waits for
a window or in every thread; it stands as a group of a deterministic launch that commits empty quanta does (08 R183, 14
R287; DEDUCED, log 140). -/
def standsStill (l : Launch) (g : Group) (t : Team) : Bool :=
  l.mode == 3 && g.inflight.isEmpty && g.cur.isNone &&
  (windowHolds l g t || (liveLanes g.regs).all (fun i => partOver g.nextQuantum (laneAt g.regs i)))

/-- Whether the open FP window of a team can close in deterministic and replay modes: every live group of the team has
committed its quantum (14 R287); a commit has noted it, or it holds now. -/
def windowOver (s : State) (tid : Nat) (t : Team) (l : Launch) : Bool :=
  t.fp.isOpen && (t.fp.runsAt.isSome || s.groups.all (fun e => e.2.team != tid || !groupLives e.2 ||
    decide (t.fp.quantum < commitQuantum e.2) || standsStill l e.2 t))

/-- In deterministic mode a group with a thread in a wait that commits end starts quantum q + 1 only once round q has
committed, so that the threads that round q lets go run in it (08 R183, 09 R199); in replay mode one whose FP traps wait for
their window starts none. -/
def roundReady (s : State) (l : Launch) (g : Group) (t : Team) : Bool :=
  !windowHolds l g t &&
  (l.mode != 1 || !g.regs.lanes.any (fun e => commitWait e.2) ||
    (roundMates s g).all (fun e => decide (g.nextQuantum ≤ commitQuantum e.2)))

/-- In the ordered modes a sub-group goes to its handler, and a window closes, before the next chunk of a group that holds
parked threads: a group whose delivery or window is due starts none (21 R388, 14 R287; DEDUCED, log 140). -/
def trapDue (s : State) (g : Group) (t : Team) (l : Launch) : Bool :=
  ordered l && !g.regs.trap.parks.isEmpty &&
  ((nextPark g t l).isSome ||
    (l.mode != 2 && g.regs.trap.parks.any (fun p => !p.causes.isEmpty && p.quantum == t.fp.quantum) &&
      windowOver s g.team t l))

/-- Whether the traps and waits of a group let it start its next chunk or commit an empty quantum now. -/
def chunkFree (s : State) (l : Launch) (g : Group) : Bool :=
  match tget s.teams g.team with
  | none => true
  | some t => roundReady s l g t && !trapDue s g t l

/-- A lane in SLEEP (06 R133). -/
def inSleep (x : Lane) : Bool :=
  match x.wait with
  | .sleep _ => true
  | _ => false

/-- A lane that stands still for a time only: in SLEEP, or in a switch wait (06 R115, R133). -/
def lanePaused (x : Lane) : Bool := x.switch || inSleep x

/-- A lane whose turn it is to issue, the chunk and pauses aside (06 R115). -/
def laneDue (q : Nat) (det : Bool) (x : Lane) : Bool :=
  x.status == .live && !x.ended && (x.wait == .ready || x.wait == .latm || inSleep x) && (!det || decide (x.readyQ ≤ q))

/-- Whether it is the turn of an issue set, whose lanes may still pause (06 R110-R116, 08 R172, 09 R204). -/
def setDue (s : State) (l : Launch) (g : Group) (gid set : Nat) : Bool :=
  let ls := setLanes g.regs set
  let q := match g.cur with
    | some c => c.quantum
    | none => g.nextQuantum
  let waiting := g.regs.lanes.filter (fun e => e.2.status == .live && e.2.wait == .latm)
  !ls.isEmpty && ls.all (fun i => laneDue q (l.mode == 1) (laneAt g.regs i)) &&
  (match g.cur with
    | some _ => ls.all (fun i => (laneAt g.regs i).wait != .latm)
    | none => canOpen s g gid && chunkFree s l g &&
        (match waiting with
          | [] => true
          | e :: _ => e.2.set == set))

/-- Whether an issue set may issue its next word now: its turn, with no lane paused. -/
def setRunnable (s : State) (l : Launch) (g : Group) (gid set : Nat) : Bool :=
  setDue s l g gid set && (setLanes g.regs set).all (fun i => !lanePaused (laneAt g.regs i))

/-- The issue set numbers of a group, by lowest lane. -/
def setsOf (g : GroupCore) : List Nat := once ((g.lanes.filter (fun e => e.2.status == .live)).map (fun e => e.2.set))

/-- The issue set whose turn it is in an ordered launch: the one that runs already while its turn lasts, else the first
due one by lowest lane (06 R114). -/
def turnSet (s : State) (l : Launch) (g : Group) (gid : Nat) : Option Nat :=
  match g.running.filter (setDue s l g gid) with
  | some r => some r
  | none => (setsOf g.regs).find? (setDue s l g gid)

/-- The issue sets that the order of 06 R114 lets run: any in throughput mode; otherwise the one whose turn it is.
DEDUCED (log 114): while that set sleeps or waits for a switch marker no other set of the group runs, since neither may
change a result (06 R116, R133). -/
def setAdmitted (s : State) (l : Launch) (g : Group) (gid set : Nat) : Bool :=
  setRunnable s l g gid set && (!ordered l || turnSet s l g gid == some set)

/-- The state of a group at the start of its oldest uncommitted chunk, or now when it has none: what has committed. -/
def committedCore (g : Group) : GroupCore :=
  match g.inflight with
  | c :: _ => c.start
  | [] => match g.cur with
    | some c => c.start
    | none => g.regs

/-- Applies a change to the group's current state and to the shadows of its uncommitted chunks: what a commit or a
boundary does to the waits of a group (08 R180). -/
def mapCores (f : GroupCore → GroupCore) (g : Group) : Group :=
  { g with
    regs := f g.regs,
    cur := g.cur.map (fun c => { c with start := f c.start }),
    inflight := g.inflight.map (fun c => { c with start := f c.start }) }

/-- Puts lanes into fresh issue sets, one for each key, from the number `next` on. -/
def splitSets (key : Lane → Nat) (c : GroupCore) (ls : List Nat) (next : Nat) : GroupCore :=
  let keys := once (ls.map (fun i => key (laneAt c i)))
  { c with lanes := tmap c.lanes (fun i x => if ls.contains i then { x with set := next + keys.idxOf (key x) } else x) }

/-- The threads that one wait releases form one issue set for each PC (06 R112); those whose part ended with it stand
apart from those that run on in this chunk (06 R115). -/
def byPc (x : Lane) : Nat := 2 * x.pc.toNat + (if x.ended then 1 else 0)

/-- The threads that a wait of their own set lets go stay in the parts of that set (06 R112). -/
def bySet (x : Lane) : Nat := 2 * x.set + (if x.ended then 1 else 0)

/-- Retires an instruction in a lane: the PC moves, the part counts it and ends at the Q-th or when asked, a switch
marker starts the switch wait (08 R172, 03 R57). -/
def retire (q : Nat) (x : Lane) (pc : Word) (ends sw : Bool) : Lane :=
  { x with pc := pc, count := x.count + 1, ended := x.ended || ends || decide (x.count + 1 ≥ q), switch := sw, quiet := false, block := 0 }

/-- Releases the waiting members of each mask whose every member waits on it (06 R122); a thread in its handler holds
back every mask of which it is a member (06 R126). -/
def releaseMask (q : Nat) (g : Group) (k : Nat) : Group :=
  let members := lanesOf (tgetD g.regs.masks k 0#64) 64
  let waits := fun (i : Nat) => !(laneAt g.regs i).handler && (match (laneAt g.regs i).wait with
    | .mask k' _ _ _ => k' == k
    | _ => false)
  if !members.isEmpty && members.all waits then
    let lanes := tmap g.regs.lanes (fun i x =>
      if members.contains i then
        match x.wait with
        | .mask _ after ends sw => retire q { x with wait := .ready } after ends sw
        | _ => x
      else x)
    { g with regs := splitSets byPc { g.regs with lanes := lanes } members g.nextSet, nextSet := g.nextSet + members.length }
  else g

/-- The release evaluation of 06 R122 over all twelve masks. -/
def releaseMasks (q : Nat) (g : Group) : Group := (upto 12).foldl (fun g k => releaseMask q g k) g

/-! ### Taking a trap, its delivery and the return (06 R127, 21 R386-R391) -/

/-- FP causes (21 R386). -/
def fpCause (c : Nat) : Bool := c == 7 || c == 8 || c == 9

/-- TAKING A TRAP. The lanes of an issue set for which `traps` names a cause are parked at the run's first word, as one
sub-group: their parts end before the instruction, the cause is the lowest one, the address that of the lowest lane with
that cause, and the done mask the set's other lanes, unless the word was illegal (06 R127, 21 R386, 04 R88). -/
def takeTrap (g : Group) (setLs : List Nat) (traps : Table (Nat × Word)) (pc after : Word) (noneDone : Bool)
    (causes : Table Nat) (win : Option Nat) : Group :=
  match traps with
  | [] => g
  | _ =>
    let cause := leastD (traps.map (fun e => e.2.1)) 0
    let addr := ((traps.filter (fun e => e.2.1 == cause)).head?.map (fun e => e.2.2)).getD 0#32
    let parked := traps.map (·.1)
    let done := if noneDone then 0#64 else maskOf (setLs.filter (fun i => !parked.contains i))
    let park : Park :=
      { lanes := maskOf parked, pc := pc, after := after, cause := cause, addr := addr, done := done,
        chunk := (g.cur.map (·.uid)).getD 0, quantum := (g.cur.map (·.quantum)).getD g.nextQuantum,
        causes := causes, win := win }
    { g with
      nextSet := g.nextSet + 1,
      regs := { g.regs with
        lanes := tmap g.regs.lanes (fun i x =>
          if parked.contains i then { x with wait := .parked, ended := true, pc := pc, set := g.nextSet } else x),
        trap := { g.regs.trap with parks := g.regs.trap.parks ++ [park] } } }

/-- DELIVERY of a parked sub-group to the handler: the trap registers take its cause, PC, address and done mask, the
slot is in service, and its threads stand at the handler as one issue set, to run from quantum q on (21 R388, 08 R183). -/
def deliverPark (q : Nat) (c : GroupCore) (p : Park) (handler : Word) : GroupCore :=
  { c with
    trap := { cause := p.cause, pc := p.pc, addr := p.addr, done := p.done, after := p.after, inService := true,
              written := false, win := p.win, doom := c.trap.doom, parks := c.trap.parks.filter (· != p) },
    lanes := tmap c.lanes (fun i x =>
      if p.lanes.getLsbD i then { x with pc := handler, wait := .ready, readyQ := q, handler := true } else x) }

/-- RETURN FROM A TRAP: where TRET sends a lane, and whether FP traps are suppressed there (21 R391, 14 R288): the
written trap_pc, the word after a TRAP or BRK, or the trapped run again. -/
def returnPc (t : TrapState) : Word × Bool :=
  if t.written then (t.pc, false)
  else if t.cause == 12 || t.cause == 13 then (t.after, false)
  else (t.pc, true)

/-! ### Charges (07 R149, R151) -/

/-- The group slots that a team holds, those reserved for spawned work included (07 R149, 02 R36). -/
def slotShare (l : Launch) (t : Team) : Nat := l.groups + l.spawnSlots * t.cores.length

/-- The number of the arbitration window in which a partition stands (07 R151). -/
def shareWindow (s : State) (p : Part) : Nat := (s.cycle - p.windowStart) / 2 ^ 26

/-- The slot-cycles that a team has held in the current window. -/
def accrued (s : State) (p : Part) (l : Launch) (t : Team) : Nat :=
  (s.cycle - max t.heldAt (p.windowStart + shareWindow s p * 2 ^ 26)) * slotShare l t

/-- What the class has been charged in the current window by teams that have left. -/
def classHeld (s : State) (p : Part) (c : ClassQ) : Nat := if c.window = shareWindow s p then c.held else 0

/-- Charges a team's held core-cycles to its queue, its launch and its class (07 R149, R151). -/
def chargeTeam (s : State) (tid : Nat) : State :=
  match tget s.teams tid with
  | none => s
  | some t =>
    match tget s.launches t.launch with
    | none => s
    | some l =>
      let held := ((s.cycle - t.heldAt) * slotShare l t + 63) / 64
      let s1 := setLaunch s t.launch { l with charged := l.charged + held }
      { s1 with parts := tmod s1.parts l.part (fun p => { p with
          queues := tupd p.queues l.queue {} (fun q => { q with deficit := q.deficit - held }),
          classes := tupd p.classes l.cls {} (fun c => { c with
            held := classHeld s p c + accrued s p l t, window := shareWindow s p }) }) }

/-! ### Killing a team (07 R156, 21 R387) -/

/-- Ends an engine's programs of a team (11 R256). -/
def dropPrograms (tid : Nat) (e : Engine) : Engine :=
  { run := e.run.filter (fun p => p.team != tid), list := e.list.filter (fun p => p.team != tid) }

/-- Registers whose tags have advanced: no outstanding result is theirs any more (02 R46). -/
def advanceTags (t : Table Reg) : Table Reg := tmap t (fun _ r => { r with tag := r.tag + 1, pending := false })

/-- The outstanding results of the groups that `pick` names, for their team when they leave (02 R46). -/
def straysOf (s : State) (pick : Nat → Group → Bool) : List (Nat × Nat) :=
  s.groups.flatMap (fun e => if pick e.1 e.2 then e.2.flights.map (fun f => (e.1, f.uid)) else [])

/-- A group of a killed team: no thread and no uncommitted chunk; results that are outstanding still return and are
dropped (02 R46). It keeps its slot until step 5 of the boundary (07 R156). -/
def dropGroup (g : Group) : Group :=
  { g with
    inflight := [], cur := none, busy := [],
    forks := g.forks.map (fun f => if f.status == 1 then { f with status := 9 } else f),
    regs := { g.regs with
      v := advanceTags g.regs.v, s := advanceTags g.regs.s, p := advanceTags g.regs.p,
      lanes := tmap g.regs.lanes (fun _ x => if x.status == .live then { x with status := .exited, wait := .ready } else x),
      trap := { g.regs.trap with parks := [], inService := false, doom := none } } }

/-- The bins of a core without the records of a team; a bin with none left is free for any entry (02 R33). -/
def dropRecords (tid : Nat) (bins : Table Bin) : Table Bin :=
  (tmap bins (fun _ b => { b with
    recs := b.recs.filter (fun r => r.team != tid), due := b.due.filter (fun k => k != tid),
    expired := b.expired.filter (fun k => k != tid) })).filter (fun e => !e.2.recs.isEmpty)

/-- The effects of 07 R156 for one killed team, all at once, with its charge (07 R149); `keepGred` is false for a relaunch (23 R416).
Its lattices have no owner from then on (DESIGN CHOICE, log entry 153). -/
def killTeam (s : State) (tid : Nat) (keepGred : Bool) : State :=
  match tget s.teams tid with
  | none => s
  | some t =>
    if t.killed then s
    else
      let held := { t with killed := true, reserved := [], exname := none, fp := {}, owed := [] }
      let s0 := chargeTeam s tid
      let gone := fun (o : Owner) => match o with
        | .group gid => ((tget s.groups gid).map (·.team)) == some tid
        | .unit core u => ((engineAt s core u).run.map (·.team)) == some tid
      let s1 := { s0 with
        teams := tput s.teams tid held,
        groups := tmap s.groups (fun _ g => if g.team == tid then dropGroup g else g),
        engines := tmap s.engines (fun _ e => dropPrograms tid e),
        lattices := tmap s.lattices (fun _ x => if x.owner == some tid then {} else x),
        cores := tmap s.cores (fun _ c => { c with bins := dropRecords tid c.bins }),
        gred := if keepGred then s.gred else s.gred.filter (fun e => e.team != tid),
        parts := tmap s0.parts (fun _ p => { p with
          slots := tmap p.slots (fun _ x => if x.owner == some tid then { x with owner := none, shape := none } else x) }),
        clusters := tmap s.clusters (fun _ c => { c with
          token := c.token.filter (fun o => !gone o),
          requests := c.requests.filter (fun r => !gone r.2) }) }
      { s1 with launches := tmod s1.launches t.launch (fun l => if keepGred then { l with abnormal := true } else l) }

/-! ### Illegal words and ends of programs (04 R88-R90) -/

/-- Stops a control program with CTL_ILLEGAL (6) or CTL_ADDRESS (7): the record names a word, its offset in the
section and, for CTL_ADDRESS, the address accessed (04 R89, 07 R145). -/
def stopControl (s : State) (c type : Nat) (word off access : Word) : State :=
  let cl := clusterAt s c
  let s1 := setCluster s c { cl with ctl := { cl.ctl with running := false, wait := .none } }
  postEvent s1 c type (sourceOf 3 c) (packPayload [(4, word.toNat), (4, off.toNat), (4, access.toNat)])

/-- Sets the status of a program in its group's fork list (11 R241). -/
def noteStatus (g : Group) (prog status : Nat) : Group :=
  { g with forks := g.forks.map (fun f => if f.prog == prog then { f with status := status } else f) }

/-- Ends the running program of a unit: the registers its XALU operations wrote go back to its team, its group learns
the status, and an ENGINE_ILLEGAL event is posted for statuses 3 and 4, naming a word and its offset (04 R90, 11 R235,
R236, R241). DESIGN CHOICE (log entry 149): the write-back is broadcast to no chunk. -/
def endProgram (s : State) (core unit status off : Nat) (word : Word) : State :=
  let e := engineAt s core unit
  match e.run with
  | none => s
  | some p =>
    let s1 := setEngine s core unit { e with run := none }
    let s2 :=
      if p.kind == .lattice then s1
      else onTeam s1 p.team (fun t =>
        let i := if t.cores.getD 0 0 == core then 0 else 1
        { t with eregs := p.written.foldl (fun r n => tput r ((i * 4 + unit) * 32 + n) (tgetD p.e n 0#64)) t.eregs })
    let s3 := match p.group with
      | some gid => { s2 with groups := tmod s2.groups gid (fun g => noteStatus g p.uid status) }
      | none => s2
    if status == 3 || status == 4 then
      postEvent s3 (core / 64) 8 (if unit < 4 then sourceOf 1 (core * 4 + unit) else sourceOf 2 (core * 2 + (tgetD s.dev.lats core []).getD (unit - 4) (unit - 4)))
        (packPayload [(4, p.offset), (4, off), (4, word.toNat), (1, status), (1, unit), (1, if p.kind == .exchange then 1 else 0)])
    else s3

end Sys2Proof.Machine
end

