-- ==== Sys2Proof/Machine/Operands.lean ====
section
/-! DEFINITION. Operands: reading, writing and releasing registers (02 R43-R47), source fields and routes (03 R60-R62,
R67, 16 R308), immediates and offsets (03 R64, R66), and the frame of every group instruction: what makes its word
illegal, its guard, its retirement and its traps (03 R65-R70, 04 R88, 06 R111, R127). -/

namespace Sys2Proof.Machine

/-- The poison of a vector or uniform register (02 R45). -/
def poison : Word := 0x7FA00BAD#32

/-- A read of a register: its poison when released, its poison with a hazard when pending, else its value (02 R45,
R47). -/
def readReg (r : Reg) (bad : Word) : Word × Bool :=
  if r.released then (bad, false) else if r.pending then (bad, true) else (r.val, false)

/-- Vector register r of a lane. -/
def vreg (c : GroupCore) (lane r : Nat) : Reg := tgetD c.v (64 * lane + r) {}

/-- Uniform register r. -/
def sreg (c : GroupCore) (r : Nat) : Reg := tgetD c.s r {}

/-- Predicate k of a lane; p7 reads 1 (02 R40). -/
def preg (c : GroupCore) (lane k : Nat) : Reg := if k = 7 then { val := 1#32 } else tgetD c.p (8 * lane + k) {}

/-- Reads vector register r of a lane. -/
def readV (c : GroupCore) (lane r : Nat) : Word × Bool := readReg (vreg c lane r) poison

/-- Reads uniform register r. -/
def readS (c : GroupCore) (r : Nat) : Word × Bool := readReg (sreg c r) poison

/-- Reads predicate k of a lane: whether it is 1, and whether it was pending. -/
def readP (c : GroupCore) (lane k : Nat) : Bool × Bool :=
  let r := readReg (preg c lane k) 0#32
  (r.1 == 1#32, r.2)

/-- A fixed-latency write (02 R43, R46). -/
def writtenReg (r : Reg) (v : Word) : Reg := { val := v, tag := r.tag + 1, pending := false, released := false }

/-- A register whose variable-latency result is outstanding (02 R43, R46). A release before the issue lasts until the
result is written (02 R47). -/
def issuedReg (r : Reg) : Reg := { r with tag := r.tag + 1, pending := true }

/-- A register released by a last use (02 R46, R47). -/
def releasedReg (r : Reg) : Reg := { r with tag := r.tag + 1, pending := false, released := true }

/-- Writes vector register r of a lane at fixed latency. -/
def writeV (c : GroupCore) (lane r : Nat) (v : Word) : GroupCore :=
  { c with v := tput c.v (64 * lane + r) (writtenReg (vreg c lane r) v) }

/-- Writes uniform register r at fixed latency. -/
def writeS (c : GroupCore) (r : Nat) (v : Word) : GroupCore := { c with s := tput c.s r (writtenReg (sreg c r) v) }

/-- Writes predicate k of a lane at fixed latency; a write to p7 is discarded (02 R40). -/
def writeP (c : GroupCore) (lane k : Nat) (b : Bool) : GroupCore :=
  if k = 7 then c else { c with p := tput c.p (8 * lane + k) (writtenReg (preg c lane k) (boolWord b)) }

/-- Releases vector register r of a lane. -/
def releaseV (c : GroupCore) (lane r : Nat) : GroupCore :=
  { c with v := tput c.v (64 * lane + r) (releasedReg (vreg c lane r)) }

/-- Releases uniform register r. -/
def releaseS (c : GroupCore) (r : Nat) : GroupCore := { c with s := tput c.s r (releasedReg (sreg c r)) }

/-- Issues a variable-latency result: the destination becomes pending and the result is outstanding with the advanced
tag (02 R43, R46). Class 0 is a vector register, 1 a uniform one, 2 a predicate; a result for p7 is discarded. -/
def issueResult (g : Group) (cls key : Nat) (v : Word) (uid : Nat) : Group :=
  let chunk := (g.cur.map (·.uid)).getD 0
  match cls with
  | 0 =>
    let r := tgetD g.regs.v key {}
    { g with
      regs := { g.regs with v := tput g.regs.v key (issuedReg r) },
      flights := g.flights ++ [{ uid := uid, cls := 0, key := key, tag := r.tag + 1, val := v, chunk := chunk }] }
  | 1 =>
    let r := tgetD g.regs.s key {}
    { g with
      regs := { g.regs with s := tput g.regs.s key (issuedReg r) },
      flights := g.flights ++ [{ uid := uid, cls := 1, key := key, tag := r.tag + 1, val := v, chunk := chunk }] }
  | _ =>
    if key % 8 == 7 then g
    else
      let r := tgetD g.regs.p key {}
      { g with
        regs := { g.regs with p := tput g.regs.p key (issuedReg r) },
        flights := g.flights ++ [{ uid := uid, cls := 2, key := key, tag := r.tag + 1, val := v, chunk := chunk }] }

/-! ### The frame of a group instruction -/

/-- What an instruction word asks of the frame: its switch marker, its vector and uniform sources, the registers it
names besides, and which hints and guard it takes. -/
structure Form where
  sw : Bool
  x : Option Src := none
  y : Option Src := none
  sx : Option Src := none
  sy : Option Src := none
  /-- Registers named at or below these numbers: vector, uniform, tile, accumulator (02 R41). -/
  v : List Nat := []
  u : List Nat := []
  t : List Nat := []
  a : List Nat := []
  /-- Registers read besides the source fields: vector ones and predicates in the executing lanes, uniform ones. -/
  vr : List Nat := []
  pr : List Nat := []
  ur : List Nat := []
  /-- Takes HINT.IMM (03 R66). -/
  imm : Bool := false
  /-- Has the guard of 03 R68. -/
  guarded : Bool := true
  /-- y names a pair: use code and route apply to both registers (03 R61). -/
  pairY : Bool := false
  /-- The vector sources are read in the lowest executing lane only. -/
  low : Bool := false
  /-- SHFL: x is read only in the lane that y names (16 R311). -/
  shfl : Bool := false
  /-- Illegal for a reason of its own. -/
  illegal : Bool := false
  deriving Repr

/-- What a meaning reads: the issuing group with its team and launch, its issue set and the lanes whose guard is 1,
the hints, and the addresses of the run and of the target. -/
structure In where
  s : State
  gid : Nat
  g : Group
  t : Team
  l : Launch
  set : Nat
  lanes : List Nat
  act : List Nat
  hints : Hints
  runPc : Word
  pc : Word
  form : Form
  deriving Repr

/-- What becomes of a lane. -/
inductive Fate where
  /-- Retires and goes on at the next word. -/
  | next
  /-- Retires and goes on at an address. -/
  | goto (pc : Word)
  /-- Leaves its handler for an address, with FP traps suppressed for the next execution or not (21 R391, 14 R288). -/
  | back (pc : Word) (quiet : Bool)
  /-- Retires, and its part ends after it. -/
  | nextEnd
  /-- Retires, its part ends after it, and it waits. -/
  | arrive (w : Wait)
  /-- Retires and sleeps; its part stays open. -/
  | doze (till : Nat)
  /-- Retires, and its thread ends. -/
  | leave
  /-- Does not retire: its part ends before the instruction and it waits, or waits at a mask. -/
  | hold (w : Wait)
  | trap (cause : Nat) (addr : Word)
  deriving DecidableEq, Repr

/-- The work of an instruction: the group, its team, what its core holds besides, the counter that names results,
whether a pending register was read, and the fates of lanes other than `next`. A group's word changes nothing else. -/
structure Work where
  nextId : Nat
  core : Core
  g : Group
  t : Team
  hazard : Bool := false
  fates : Table Fate := []
  /-- The FP causes that trapping lanes raised, as the mask of 14 R287. -/
  causes : Table Nat := []
  /-- The access overfills a signature or the store buffer: nothing performs and every part ends (08 R174). -/
  retry : Bool := false
  /-- Cause 1 with an empty done mask (04 R88). -/
  illegal : Bool := false
  /-- The whole issue waits, with no effect: an interlocked tile or accumulator, or another set's outstanding result
  (02 R44, 16 R309). -/
  stall : Bool := false
  /-- The team is killed by the instruction (21 R397). -/
  kill : Bool := false
  deriving Repr

/-- The work before an instruction has done anything. -/
def startWork (i : In) : Work := { nextId := i.s.nextId, core := tgetD i.s.cores i.g.core {}, g := i.g, t := i.t }

/-- Sets the fate of lanes. -/
def setFates (w : Work) (ls : List Nat) (f : Fate) : Work := { w with fates := ls.foldl (fun t l => tput t l f) w.fates }

/-- Changes the open chunk. -/
def onChunk (w : Work) (f : Chunk → Chunk) : Work := { w with g := { w.g with cur := w.g.cur.map f } }

/-- Notes in the chunk of an ordered launch what it has found to reserve (08 R184). -/
def judge (i : In) (js : List Judged) (w : Work) : Work :=
  if ordered i.l then onChunk w (fun c => { c with judged := c.judged ++ js }) else w

/-- Adds effects to the open chunk. -/
def addEffs (w : Work) (es : List Eff) : Work := onChunk w (fun c => { c with effs := c.effs ++ es })

/-- Changes the group's registers. -/
def onRegs (w : Work) (f : GroupCore → GroupCore) : Work := { w with g := { w.g with regs := f w.g.regs } }

/-- Issues a variable-latency result with a fresh number. -/
def flyOut (w : Work) (cls key : Nat) (v : Word) : Work :=
  { w with nextId := w.nextId + 1, g := issueResult w.g cls key v w.nextId }

/-- Enters accesses into the signatures of the open chunk, or asks for the retry of 08 R174. -/
def access (w : Work) (reads writes : List Nat) : Work :=
  match w.g.cur with
  | none => w
  | some c =>
    match enterAccess c reads writes with
    | some c' => { w with g := { w.g with cur := some c' } }
    | none => { w with retry := true }

/-- The rounding mode that HINT.MOD selects: 0 none, 1 RNE, 2 RTZ, 3 up, 4 down (03 R68). -/
def roundField (h : Hints) : Nat :=
  match h.mod with
  | some (r, _, _, _) => r.toNat
  | none => 0

/-- The sat field of HINT.MOD (03 R68). -/
def satField (h : Hints) : Bool :=
  match h.mod with
  | some (_, s, _, _) => s
  | none => false

/-- The predicate of HINT.MOD, or the given default (03 R68, 05 R103). -/
def predField (h : Hints) (d : Nat) : Nat :=
  match h.mod with
  | some (_, _, p, _) => p.toNat
  | none => d

/-- The auxiliary register of HINT.MOD (03 R68). -/
def auxField (h : Hints) : Option Nat := h.mod.map (fun m => m.2.2.2.toNat)

/-- The chunk-end bit of HINT.SCHED (03 R69). -/
def chunkEnd (h : Hints) : Bool :=
  match h.sched with
  | some (c, _, _) => c
  | none => false

/-- The immediate or offset value of 03 R66: the low byte sign-extended, or with bits [31:8] from HINT.IMM. -/
def immValue (h : Hints) (low : BitVec 8) : Word :=
  let sx : BitVec 24 := if low.getLsbD 7 then BitVec.allOnes 24 else 0#24
  ((h.imm.getD 0#24) ^^^ sx) ++ low

/-- A route that a field must leave all zero (03 R67). -/
def routeZero (r : Route) : Bool := r == { last := false, kind := 0#3, par := 0#8 }

/-- Whether a source field is routed. -/
def isRouted (x : Option Src) : Bool :=
  match x with
  | some s => s.use == .routed
  | none => false

/-- The hint misuse of 03 R62, R66, R67 and R70 for a target, and an auxiliary register outside the allocation, which is
illegal before every target (03 R68; log 22). -/
def hintsIllegal (f : Form) (h : Hints) (alloc : Alloc) : Bool :=
  (h.imm.isSome && !f.imm) ||
  (match h.route with
    | none => isRouted f.x || isRouted f.y
    | some (rx, ry) =>
      (f.x.isNone && f.y.isNone) || (!isRouted f.x && !routeZero rx) || (!isRouted f.y && !routeZero ry)) ||
  (match auxField h with
    | some a => decide (a ≥ alloc.v)
    | none => false)

/-- A register outside the kernel's allocation (02 R41). -/
def allocIllegal (f : Form) (a : Alloc) : Bool :=
  f.v.any (fun n => decide (n ≥ a.v)) || f.u.any (fun n => decide (n ≥ a.s)) ||
  f.t.any (fun n => decide (n ≥ a.t)) || f.a.any (fun n => decide (n ≥ a.a)) ||
  (match f.x with | some s => decide (s.reg.toNat ≥ a.v) | none => false) ||
  (match f.y with | some s => decide (s.reg.toNat + (if f.pairY then 1 else 0) ≥ a.v) | none => false) ||
  (match f.sx with | some s => decide (s.reg.toNat ≥ a.s) || s.use == .routed | none => false) ||
  (match f.sy with | some s => decide (s.reg.toNat ≥ a.s) || s.use == .routed | none => false)

/-- The lanes whose guard reads 1, and whether a pending guard was read (03 R68, 02 R45). -/
def guardLanes (f : Form) (h : Hints) (c : GroupCore) (ls : List Nat) : List Nat × Bool :=
  if f.guarded then
    let k := predField h 7
    (ls.filter (fun i => (readP c i k).1), ls.any (fun i => (readP c i k).2))
  else (ls, false)

/-! ### Sources -/

/-- The source lane of a route, none past the edge of the group (03 R67). -/
def sourceLane (r : Route) (w l : Nat) : Option Nat :=
  let k := r.par.toNat % w
  match r.kind.toNat with
  | 0 => some l
  | 1 => some ((l + k) % w)
  | 2 => some (l ^^^ k)
  | 3 => some (w - 1 - l)
  | 4 => some k
  | 5 => if l ≥ k then some (l - k) else none
  | 6 => if l + k < w then some (l + k) else none
  | _ => none

/-- A cross-lane read of register r of lane j by the issue set `set` (16 R308): value, hazard, and whether the read
waits for another set's outstanding result (16 R309). -/
def crossRead (c : GroupCore) (set r : Nat) (j : Option Nat) : Word × Bool × Bool :=
  match j with
  | none => (0#32, false, false)
  | some j =>
    let x := laneAt c j
    let q := vreg c j r
    match x.status with
    | .never => (0#32, false, false)
    | .live =>
      if q.released then (poison, false, false)
      else if x.set == set then (if q.pending then (poison, true, false) else (q.val, false, false))
      else (q.val, false, q.pending)
    | .exited => if q.released then (poison, false, false) else (q.val, false, q.pending)

/-- Reads a vector source in a lane: value, hazard, stall. `off` is 1 for the second register of a pair. -/
def readSrc (i : In) (src : Src) (isY : Bool) (off lane : Nat) : Word × Bool × Bool :=
  let r := src.reg.toNat + off
  match src.use, i.hints.route with
  | .routed, some (rx, ry) => crossRead i.g.regs i.set r (sourceLane (if isY then ry else rx) i.l.alloc.w lane)
  | _, _ =>
    let v := readV i.g.regs lane r
    (v.1, v.2, false)

/-- The x value of a lane. -/
def xVal (i : In) (lane : Nat) : Word :=
  match i.form.x with
  | some s => (readSrc i s false 0 lane).1
  | none => 0#32

/-- The y value of a lane. -/
def yVal (i : In) (lane : Nat) : Word :=
  match i.form.y with
  | some s => (readSrc i s true 0 lane).1
  | none => 0#32

/-- The second word of a y pair in a lane (03 R61). -/
def yVal2 (i : In) (lane : Nat) : Word :=
  match i.form.y with
  | some s => (readSrc i s true 1 lane).1
  | none => 0#32

/-- The uniform x value. -/
def sxVal (i : In) : Word :=
  match i.form.sx with
  | some s => (readS i.g.regs s.reg.toNat).1
  | none => 0#32

/-- The uniform y value. -/
def syVal (i : In) : Word :=
  match i.form.sy with
  | some s => (readS i.g.regs s.reg.toNat).1
  | none => 0#32

/-- Reads of the sources in the active lanes: whether one was pending, and whether one waits. -/
def sourceHazard (i : In) : Bool × Bool :=
  let one := fun (s : Option Src) (isY : Bool) (off : Nat) =>
    match s with
    | some x => (if i.form.low then i.act.take 1 else i.act).map (fun l => (readSrc i x isY off l).2)
    | none => []
  let all := (if i.form.shfl then [] else one i.form.x false 0) ++ one i.form.y true 0 ++ (if i.form.pairY then one i.form.y true 1 else [])
  let uni := fun (s : Option Src) =>
    match s with
    | some x => !i.act.isEmpty && (readS i.g.regs x.reg.toNat).2
    | none => false
  let more := i.form.vr.any (fun r => i.act.any (fun l => (readV i.g.regs l r).2)) ||
    i.form.pr.any (fun k => i.act.any (fun l => (readP i.g.regs l k).2)) ||
    i.form.ur.any (fun r => !i.act.isEmpty && (readS i.g.regs r).2)
  (all.any (·.1) || uni i.form.sx || uni i.form.sy || more, all.any (·.2))

/-- Whether a source field releases its register: a last use, or a routed source whose route carries it (03 R61, R62). -/
def releases (i : In) (src : Src) (isY : Bool) : Bool :=
  match src.use with
  | .last => true
  | .routed =>
    (match i.hints.route with
      | some (rx, ry) => (if isY then ry else rx).last
      | none => false)
  | _ => false

/-- Releases the last-use sources: vector registers in the executing lanes, uniform ones once (03 R61). -/
def releaseSources (i : In) (ls : List Nat) (c : GroupCore) : GroupCore :=
  let vec := fun (s : Option Src) (isY : Bool) (offs : List Nat) (c : GroupCore) =>
    match s with
    | some x => if releases i x isY then
        offs.foldl (fun c o => ls.foldl (fun c l => releaseV c l (x.reg.toNat + o)) c) c else c
    | none => c
  let uni := fun (s : Option Src) (c : GroupCore) =>
    match s with
    | some x => if x.use == .last && !ls.isEmpty then releaseS c x.reg.toNat else c
    | none => c
  uni i.form.sy (uni i.form.sx (vec i.form.y true (if i.form.pairY then [0, 1] else [0]) (vec i.form.x false [0] c)))

/-! ### Retirement -/

/-- The part of an issue set a lane belongs to after an instruction (06 R111). -/
def partKey (f : Fate) (ended : Bool) : Nat :=
  (match f with
    | .goto pc => 2 + 2 * pc.toNat
    | .back pc _ => 2 + 2 * pc.toNat
    | .trap _ _ => 2 ^ 40
    | .hold _ => 2 ^ 41
    | .arrive _ => 2 ^ 42
    | _ => 0) + (if ended then 1 else 0)

/-- A lane after its fate. -/
def lanePlaced (i : In) (f : Fate) (x : Lane) : Lane :=
  let q := i.l.chunkq
  let ce := chunkEnd i.hints
  let nxt := i.pc + 4#32
  match f with
  | .next => retire q x nxt ce i.form.sw
  | .goto pc => retire q x pc ce i.form.sw
  | .back pc quiet => { retire q x pc ce i.form.sw with handler := false, quiet := quiet }
  | .nextEnd => retire q x nxt true i.form.sw
  | .arrive w => { retire q x nxt true i.form.sw with wait := w }
  | .doze till => { retire q x nxt ce i.form.sw with wait := .sleep till }
  | .leave => { x with status := .exited, pc := 0xFFFFFFFF#32, wait := .ready, switch := false, handler := false }
  | .hold w =>
    (match w with
      | .mask _ _ _ _ => { x with wait := w }
      | _ => { x with wait := w, ended := true })
  | .trap _ _ => { x with quiet := false }

/-- The lanes of an issue set after an instruction: each in its place, and in one set for each part (06 R111). -/
def placeLanes (i : In) (fates : Table Fate) (g : Group) : Group :=
  let fate := fun (l : Nat) => tgetD fates l Fate.next
  let placed := i.lanes.map (fun l => (l, lanePlaced i (fate l) (laneAt g.regs l)))
  let key := fun (l : Nat) (x : Lane) => partKey (fate l) x.ended
  let keys := once ((placed.filter (fun e => e.2.status == .live)).map (fun e => key e.1 e.2))
  let lanes := placed.foldl (fun t e =>
    let k := keys.idxOf (key e.1 e.2)
    tput t e.1 (if e.2.status == .live && k > 0 then { e.2 with set := g.nextSet + (k - 1) } else e.2)) g.regs.lanes
  { g with regs := { g.regs with lanes := lanes }, nextSet := g.nextSet + (keys.length - 1) }

/-- The issue set that keeps the turn of one whose word has been performed: that of its lowest lane that runs on; none when
all its threads wait, have exited or have ended their part (06 R114). DESIGN CHOICE (log entry 157): of several parts that
run on, that of the set's lowest such lane keeps the turn, even where another set with a lower lane can run by now. -/
def turnKept (i : In) (g : Group) : Option Nat :=
  let q := (g.cur.map (·.quantum)).getD g.nextQuantum
  (i.lanes.find? (fun l => (laneAt g.regs l).status == .live && !partOver q (laneAt g.regs l))).map (fun l => (laneAt g.regs l).set)

/-- Removes lanes from every mask (06 R131). -/
def leaveMasks (ls : List Nat) (c : GroupCore) : GroupCore :=
  { c with masks := tmap c.masks (fun _ m => m &&& ~~~(maskOf ls)) }

/-- The trap slot frees when no thread of the delivered sub-group is left in the handler (21 R388). -/
def freeSlot (c : GroupCore) : GroupCore :=
  if c.trap.inService && c.lanes.all (fun e => e.2.status != .live || !e.2.handler) then
    { c with trap := { c.trap with inService := false } }
  else c

/-- An FP trap of a team in throughput or record mode enters its window, opening one when none is open or in service;
while one is in service it waits for the next; without a handler no window opens (14 R287). -/
def enterWindow (cycle : Nat) (l : Launch) (t : Team) (fp handled : Bool) : Team × Option Nat :=
  if !fp || !handled || l.mode == 1 || l.mode == 3 || t.fp.service then (t, none)
  else if t.fp.isOpen then (t, some t.fp.n)
  else ({ t with fp := { n := t.fp.n + 1, isOpen := true, closeAt := cycle + 256 } }, some (t.fp.n + 1))

/-- The sub-groups of a team that FP traps have parked: group, sub-group. -/
def fpParks (s : State) (tid : Nat) : List (Nat × Park) :=
  (s.groups.filter (fun e => e.2.team == tid)).flatMap (fun e =>
    (e.2.regs.trap.parks.filter (fun p => !p.causes.isEmpty)).map (fun p => (e.1, p)))

/-- Puts the sub-groups that `pick` names into window n, in the groups' states and in their shadows. -/
def assignWindow (s : State) (tid n : Nat) (pick : Park → Bool) : State :=
  let f := fun (c : GroupCore) => { c with trap := { c.trap with parks := c.trap.parks.map (fun p =>
    if !p.causes.isEmpty && p.win.isNone && pick p then { p with win := some n } else p) } }
  { s with groups := tmap s.groups (fun _ g => if g.team == tid then mapCores f g else g) }

/-- Whether a sub-group of a group has committed: its chunk is no longer in flight. -/
def parkCommitted (g : Group) (p : Park) : Bool := !(ownChunks g).any (fun c => c.uid == p.chunk)

/-- Opens the next window for the traps that wait, when none is open or in service: at once in throughput and record
modes; in the others for the least quantum of a committed one (14 R287). DESIGN CHOICE (log entry 150): those of later quanta
wait for the windows after it. -/
def openWindow (s : State) (tid : Nat) : State :=
  match tget s.teams tid with
  | none => s
  | some t =>
    match tget s.launches t.launch with
    | none => s
    | some l =>
      let wait := (fpParks s tid).filter (fun e => e.2.win.isNone)
      let w : FpWindow := { n := t.fp.n + 1, isOpen := true }
      if t.killed || t.fp.isOpen || t.fp.service then s
      else if ordered l && l.mode != 2 then
        match wait.filter (fun e => match tget s.groups e.1 with
          | some g => parkCommitted g e.2 && (handlerOf g t l).isSome
          | none => false) with
        | [] => s
        | a :: rest => setTeam s tid { t with fp := { w with quantum := rest.foldl (fun q e => min q e.2.quantum) a.2.quantum } }
      else
        match wait.filter (fun e => match tget s.groups e.1 with
          | some g => (handlerOf g t l).isSome
          | none => false) with
        | [] => s
        | _ => assignWindow (setTeam s tid { t with fp := { w with closeAt := s.cycle + 256 } }) tid w.n (fun _ => true)

/-- Whether a group's registers hold a sub-group of a window, parked or in service. -/
def holdsWindow (c : GroupCore) (n : Nat) : Bool :=
  (c.trap.inService && c.trap.win == some n) || c.trap.parks.any (fun p => p.win == some n)

/-- Whether a team's window is in service as its groups stand: a group has returned from it once its TRET has issued
(14 R287, 21 R396). -/
def inService (s : State) (tid : Nat) (f : FpWindow) : Bool :=
  f.service && s.groups.any (fun e => e.2.team == tid && holdsWindow e.2.regs f.n)

/-- The end of a window's service: once no group has its sub-group parked or in service, the states that a squash could
return it to included; the next one may open (14 R287; log entry 140). -/
def settleWindow (s : State) (tid : Nat) : State :=
  match tget s.teams tid with
  | none => s
  | some t =>
    let held := s.groups.any (fun e => e.2.team == tid && (e.2.regs :: (ownChunks e.2).map (·.start)).any (fun c => holdsWindow c t.fp.n))
    if t.fp.service && !held then openWindow (setTeam s tid { t with fp := { t.fp with service := false } }) tid else s

/-- The trapping lanes of an instruction. -/
def trapTable (fates : Table Fate) : Table (Nat × Word) :=
  fates.filterMap (fun e => match e.2 with | .trap c a => some (e.1, (c, a)) | _ => none)

/-- Whether a thread of a delivered sub-group traps, which kills its team (21 R388). -/
def handlerTraps (g : Group) (traps : Table (Nat × Word)) : Bool := traps.any (fun e => (laneAt g.regs e.1).handler)

/-- Whether a lane in a handler executes BART, BARG, BARTC or PHASE, which kills its team (21 R388). -/
def handlerWaits (g : Group) (fates : Table Fate) : Bool :=
  fates.any (fun e => (laneAt g.regs e.1).handler &&
    (match e.2 with
      | .arrive (.fenl _) => false
      | .arrive _ => true
      | _ => false))

/-- Writes a group, its team, its core and the counter back. -/
def putBack (i : In) (w : Work) (g : Group) (t : Team) : State :=
  { i.s with
    groups := tput i.s.groups i.gid g,
    teams := tput i.s.teams i.g.team t,
    cores := if w.core = tgetD i.s.cores i.g.core {} then i.s.cores else tput i.s.cores i.g.core w.core,
    nextId := w.nextId }

/-- A group whose live threads' parts have ended. -/
def endParts (g : Group) : Group :=
  { g with regs := { g.regs with lanes := tmap g.regs.lanes (fun _ x => if x.status == .live then { x with ended := true } else x) } }

/-- Whether the open chunk ends with the word: one that has saturated a signature or has taken only some lanes of its
first access, or one of its own for a LATM (08 R174, 09 R204). -/
def endsWithWord (g : Group) : Bool :=
  match g.cur with
  | some c => c.saturated || (match c.kind with | .latm _ => true | _ => false)
  | none => false

/-- The threads of a group go on, wait, leave or park as their fates say, what is left of the set keeps its turn, and masks
are evaluated (06 R110-R127). -/
def placedGroup (i : In) (w : Work) (causes : Table Nat) (win : Option Nat) : Group :=
  let g1 := takeTrap (placeLanes i w.fates w.g) i.lanes (trapTable w.fates) i.runPc (i.pc + 4#32) w.illegal causes win
  let leavers := (w.fates.filter (fun e => e.2 == .leave)).map (·.1)
  releaseMasks i.l.chunkq { g1 with regs := freeSlot (leaveMasks leavers g1.regs), running := turnKept i g1 }

/-- The end of the word for its chunk: the chunk may end with it, and a team whose handler may not go on is doomed
(21 R388). -/
def closedGroup (i : In) (doomed : Bool) (g : Group) : Group :=
  let g1 := if endsWithWord g then endParts g else g
  let regs := endSwitch g1.regs
  endChunk i.s.cycle { g1 with
    regs := if doomed then { regs with trap := { regs.trap with doom := g1.cur.map (·.uid) } } else regs }

/-- FINISHING an instruction: the lanes retire, wait, trap or exit; masks are released; the chunk ends when every part
has; a hazard counts once; a trap or a barrier of a handler's thread dooms its team, which the commit of the chunk
kills; KILLT kills it at once (06 R111, R122, R127, 08 R172, 02 R45, 21 R388, R397). -/
def finish (i : In) (w : Work) : State :=
  if w.stall then i.s
  else if w.retry then setGroup i.s i.gid (endChunk i.s.cycle (endParts i.g))
  else
    let traps := trapTable w.fates
    let t1 := if w.hazard then bumpTeam w.t 9 1 else w.t
    let causes := (traps.filter (fun e => fpCause e.2.1)).map (fun e => (e.1, tgetD w.causes e.1 0))
    let win := enterWindow i.s.cycle i.l t1 (!causes.isEmpty) (handlerOf w.g t1 i.l).isSome
    let g := closedGroup i (handlerTraps w.g traps || handlerWaits w.g w.fates) (placedGroup i w causes win.2)
    let s1 := putBack i w g win.1
    if w.kill then killTeam s1 i.g.team true else s1

/-- ILLEGAL WORD issued by a group: every thread of the set traps with ILLEGAL_INSTRUCTION, trap_addr 0 and an empty
done mask; nothing else happens (04 R88). -/
def illegalGroup (i : In) : State :=
  finish i { setFates (startWork i) i.lanes (.trap 1 0#32) with illegal := true }

/-- What a meaning reads when an issue set of a group issues a word of form f: the group's chunk is opened if it has
none, and the lanes whose guard reads 1 execute (03 R68, 08 R172). -/
def issueIn (s : State) (gid set : Nat) (f : Form) (g0 : Group) (t : Team) (l : Launch) : In :=
  let sg := if g0.cur.isSome then (s, g0) else openChunk s g0 .group
  let lanes := setLanes sg.2.regs set
  { s := sg.1, gid := gid, g := sg.2, t := t, l := l, set := set, lanes := lanes,
    act := (guardLanes f s.issue.hints sg.2.regs lanes).1,
    hints := s.issue.hints, runPc := s.issue.runPc, pc := s.issue.pc, form := f }

/-- The work that the meaning of a word receives: the hazard of its guard and its sources noted (02 R45). -/
def issueWork (i : In) : Work :=
  { startWork i with hazard := (guardLanes i.form i.hints i.g.regs i.lanes).2 || (sourceHazard i).1 }

/-- A word of form f is illegal for its issue set: a form of its own, its hints, or a register outside the allocation. -/
def formIllegal (f : Form) (h : Hints) (a : Alloc) : Bool := f.illegal || hintsIllegal f h a || allocIllegal f a

/-- The issue of a group word: an illegal word traps; a source that waits for another set's result leaves the state;
else the meaning runs with the guard and the sources read. -/
def groupIssue (s : State) (gid set : Nat) (f : Form) (body : In → Work → Work) : Host.Outcome State Fault Refusal :=
  match groupTriple s gid with
  | none => .fault (.brokenState "group, team or launch")
  | some (g0, t, l) =>
    let i := issueIn s gid set f g0 t l
    if formIllegal f s.issue.hints l.alloc then .next (illegalGroup i)
    else if (sourceHazard i).2 then .next s
    else .next (finish i (body i (issueWork i)))

/-- Stops a control program at the first hint of a run that is illegal only as a run (04 R89). -/
def stopAtRun (s : State) (c : Nat) : State := stopControl s c 6 s.issue.first s.issue.runPc 0#32

/-- Stops a control program at a word that is illegal alone (04 R89); a HINT.ROUTE before it is itself illegal (04 R86). -/
def stopAtWord (s : State) (c : Nat) : State :=
  if s.issue.hints.route.isSome then stopAtRun s c else stopControl s c 6 s.issue.word s.issue.pc 0#32

/-- A word that only groups accept (04 R81, R87): on a control core it stops the program, on a sequencer it ends it. -/
def groupOnly (s : State) (f : Form) (body : In → Work → Work) : Host.Outcome State Fault Refusal :=
  match s.issue.actor with
  | .none => .refused .noIssuer
  | .group gid set => groupIssue s gid set f body
  | .control c => .next (stopAtWord s c)
  | .sequencer core unit => .next (endProgram s core unit 3 s.issue.pc.toNat s.issue.word)

/-- The effect that reads the sources, releases the last uses and then changes the registers, all in the executing
lanes (03 R61). -/
def regsBody (f : In → GroupCore → GroupCore) (i : In) (w : Work) : Work :=
  onRegs w (fun c => f i (releaseSources i i.act c))

/-- Writes a vector register in every executing lane with a value of the lane. -/
def writeLanes (d : Nat) (f : Nat → Word) (i : In) (c : GroupCore) : GroupCore :=
  i.act.foldl (fun c l => writeV c l d (f l)) c

/-- Writes a predicate in every executing lane. -/
def writePreds (d : Nat) (f : Nat → Bool) (i : In) (c : GroupCore) : GroupCore :=
  i.act.foldl (fun c l => writeP c l d (f l)) c

/-- Writes a uniform register once, when any lane executes. -/
def writeOnce (d : Nat) (v : Word) (i : In) (c : GroupCore) : GroupCore :=
  if i.act.isEmpty then c else writeS c d v

/-! ### Control cores (04 R85, R86, R89) -/

/-- Register s<n> of a control core. -/
def ctlReg (c : Ctl) (n : Nat) : Word := tgetD c.s n 0#32

/-- Predicate p<k> of a control core; p7 reads 1. -/
def ctlPred (c : Ctl) (k : Nat) : Bool := if k = 7 then true else tgetD c.p k false

/-- Writes a register of a control core. -/
def setCtlReg (c : Ctl) (n : Nat) (v : Word) : Ctl := { c with s := tput c.s n v }

/-- Writes a predicate of a control core; a write to p7 is discarded. -/
def setCtlPred (c : Ctl) (k : Nat) (b : Bool) : Ctl := if k = 7 then c else { c with p := tput c.p k b }

/-- What a meaning reads on a control core: the cluster, the core, the hints, the address of the word and its sources. -/
structure CIn where
  s : State
  c : Nat
  ctl : Ctl
  hints : Hints
  pc : Word
  x : Word
  y : Word
  deriving Repr

/-- What an instruction does on a control core: the core after it with the PC of the next word, bytes stored into
control memory, or the reason it stops: a bad target, or a bad access address. -/
structure CWork where
  ctl : Ctl
  store : List (Nat × List Byte) := []
  badTarget : Bool := false
  badAccess : Option Word := none
  deriving Repr

/-- The control core with its PC at the next word. -/
def ctlNext (i : CIn) : Ctl := { i.ctl with pc := i.pc + 4#32 }

/-- The value of the source of a control-core instruction that a form names. -/
def ctlSource (c : Ctl) (v u : Option Src) : Word :=
  match v, u with
  | some a, _ => ctlReg c a.reg.toNat
  | none, some a => ctlReg c a.reg.toNat
  | none, none => 0#32

/-- Whether a run of bytes of control memory meets the code range of the core's program (07 R134). -/
def inCode (k : Ctl) (a n : Nat) : Bool := decide (a < k.base + k.size) && decide (k.base < a + n)

/-- Stores bytes into the control memory of a cluster. -/
def storeControl (s : State) (c : Nat) (st : Nat × List Byte) : State :=
  { s with cmem := mwrites s.cmem (c * Config.controlBytes + st.1) st.2 }

/-- The issue of a word by a control core: illegal forms stop the program, a false guard skips the word, else the
meaning runs. -/
def controlIssue (s : State) (c : Nat) (f : Form) (body : CIn → CWork) : State :=
  let cl := clusterAt s c
  let h := s.issue.hints
  if f.illegal || isRouted f.x || isRouted f.y || isRouted f.sx || isRouted f.sy then stopAtWord s c
  else if h.route.isSome || (h.imm.isSome && !f.imm) then stopAtRun s c
  else if f.guarded && !ctlPred cl.ctl (predField h 7) then
    setCluster s c { cl with ctl := { cl.ctl with pc := s.issue.pc + 4#32 } }
  else
    let w := body { s := s, c := c, ctl := cl.ctl, hints := h, pc := s.issue.pc,
                    x := ctlSource cl.ctl f.x f.sx, y := ctlSource cl.ctl f.y f.sy }
    match w.badAccess with
    | some a => stopControl s c 7 s.issue.word s.issue.pc a
    | none =>
      if w.badTarget then stopAtWord s c
      else w.store.foldl (fun s st => storeControl s c st) (setCluster s c { cl with ctl := w.ctl })

/-- A word that groups and control cores accept, with its meaning for each (04 R81, R86). -/
def groupOrControl (s : State) (f : Form) (body : In → Work → Work) (cbody : CIn → CWork) :
    Host.Outcome State Fault Refusal :=
  match s.issue.actor with
  | .none => .refused .noIssuer
  | .group gid set => groupIssue s gid set f body
  | .control c => .next (controlIssue s c f cbody)
  | .sequencer core unit => .next (endProgram s core unit 3 s.issue.pc.toNat s.issue.word)

/-- A word that only control cores accept. -/
def controlOnly (s : State) (f : State → Nat → State) : Host.Outcome State Fault Refusal :=
  match s.issue.actor with
  | .none => .refused .noIssuer
  | .group gid set => groupIssue s gid set { sw := false, illegal := true } (fun _ w => w)
  | .control c => .next (f s c)
  | .sequencer core unit => .next (endProgram s core unit 3 s.issue.pc.toNat s.issue.word)

/-- A word of a sequencer: `lat` tells a lattice sequencer's word from a copy sequencer's (04 R81). -/
def sequencerOnly (s : State) (lat : Bool) (f : State → Nat → Nat → State) : Host.Outcome State Fault Refusal :=
  match s.issue.actor with
  | .none => .refused .noIssuer
  | .group gid set => groupIssue s gid set { sw := false, illegal := true } (fun _ w => w)
  | .control c => .next (stopAtWord s c)
  | .sequencer core unit =>
    if decide (unit < 4) != lat then .next (f s core unit)
    else .next (endProgram s core unit 3 s.issue.pc.toNat s.issue.word)

end Sys2Proof.Machine
end

