-- ==== Sys2Proof/Machine/Flags.lean ====
section
/-! DEFINITION. What the integer, compare and floating-point instructions compute from their operands, carries,
saturations, conditions, counts and traps included (05 R92-R101, 14 R279-R288). -/

namespace Sys2Proof.Machine

/-! ### Integers (05 R92-R97) -/

/-- The high word of the signed product (05 R93). -/
def mulHigh (a b : Word) : Word := wrap32 (sval a * sval b / 2 ^ 32)

/-- The high word of the unsigned product (05 R93). -/
def umulHigh (a b : Word) : Word := BitVec.ofNat 32 (a.toNat * b.toNat / 2 ^ 32)

/-- The lesser or greater of two words by a strict order. -/
def pickWord (lt : Bool) (a b : Word) : Word := if lt then a else b

/-- Signed minimum. -/
def iminW (a b : Word) : Word := pickWord (decide (sval a ≤ sval b)) a b

/-- Signed maximum. -/
def imaxW (a b : Word) : Word := pickWord (decide (sval b ≤ sval a)) a b

/-- Unsigned minimum. -/
def uminW (a b : Word) : Word := pickWord (decide (a.toNat ≤ b.toNat)) a b

/-- Unsigned maximum. -/
def umaxW (a b : Word) : Word := pickWord (decide (b.toNat ≤ a.toNat)) a b

/-- Left shift by the whole count (05 R93). -/
def shlW (a b : Word) : Word := if b.toNat < 32 then a <<< b.toNat else 0#32

/-- Logical right shift by the whole count. -/
def shrW (a b : Word) : Word := if b.toNat < 32 then a >>> b.toNat else 0#32

/-- Arithmetic right shift by the whole count. -/
def sraW (a b : Word) : Word :=
  if b.toNat < 32 then a.sshiftRight b.toNat else if a.msb then 0xFFFFFFFF#32 else 0#32

/-- Sum with carry: the word and the carry out (05 R94). -/
def addCarry (a b : Word) (c : Bool) : Word × Bool :=
  let t := a.toNat + b.toNat + c.toNat
  (BitVec.ofNat 32 t, decide (2 ^ 32 ≤ t))

/-- Difference with borrow: the word and the borrow out (05 R96). -/
def subBorrow (a b : Word) (c : Bool) : Word × Bool :=
  let t : Int := (a.toNat : Int) - b.toNat - c.toNat
  (wrap32 t, decide (t < 0))

/-- A value clamped to the signed range (05 R96). -/
def clampSigned (v : Int) : Word := wrap32 (max (-(2 ^ 31)) (min (2 ^ 31 - 1) v))

/-- A value clamped to the unsigned range (05 R96). -/
def clampUnsigned (v : Nat) : Word := BitVec.ofNat 32 (min (2 ^ 32 - 1) v)

/-- Absolute value, saturating under .sat (05 R96). -/
def absW (sat : Bool) (a : Word) : Word :=
  if sat then clampSigned (sval a).natAbs else wrap32 (sval a).natAbs

/-- Negation, saturating under .sat (05 R96). -/
def negW (sat : Bool) (a : Word) : Word := if sat then clampSigned (-(sval a)) else wrap32 (-(sval a))

/-- Leading zero bits (05 R96). -/
def clzW (a : Word) : Word := BitVec.ofNat 32 (if a = 0#32 then 32 else 31 - Nat.log2 a.toNat)

/-- Set bits (05 R96). -/
def popcW (a : Word) : Word := BitVec.ofNat 32 (((upto 32).filter (fun k => a.getLsbD k)).length)

/-- Bits in reverse order (05 R96). -/
def brevW (a : Word) : Word :=
  (upto 32).foldl (fun r k => if a.getLsbD k then r ||| (1#32 <<< (31 - k)) else r) 0#32

/-- The field descriptor of BFE and BFI: position and length (05 R97). -/
def fieldOf (y : Word) : Nat × Nat := (y.toNat % 256, min (y.toNat / 256 % 256) 32)

/-- BFE (05 R97). -/
def bfeW (a y : Word) : Word :=
  let d := fieldOf y
  let f := a.toNat / 2 ^ d.1 % 2 ^ d.2
  if y.getLsbD 16 && decide (0 < d.2) && decide (f / 2 ^ (d.2 - 1) % 2 = 1) then wrap32 ((f : Int) - 2 ^ d.2)
  else BitVec.ofNat 32 f

/-- BFI (05 R97). -/
def bfiW (a y dv : Word) : Word :=
  let d := fieldOf y
  let mask := BitVec.ofNat 32 ((2 ^ d.2 - 1) * 2 ^ d.1)
  (dv &&& ~~~mask) ||| (BitVec.ofNat 32 (a.toNat * 2 ^ d.1) &&& mask)

/-- SAD (05 R96). -/
def sadW (a b dv : Word) : Word := wrap32 (sval dv + (sval a - sval b).natAbs)

/-- ROTL (05 R96). -/
def rotlW (a b : Word) : Word := a.rotateLeft (b.toNat % 32)

/-! ### Conditions (05 R100, R101) -/

/-- A comparison of FP32 operands that is false when unordered. -/
def fpCond (a b : Word) (lt eq : Bool) : Bool :=
  let x := fpOf a
  let y := fpOf b
  !isNan x && !isNan y && ((lt && fpLt x y) || (eq && fpEq x y))

/-- Whether the FP32 operands are unordered. -/
def unordered (a b : Word) : Bool := isNan (fpOf a) || isNan (fpOf b)

/-- The combine of a compare with the old predicate (05 R100). -/
def combine (c : Nat) (old new : Bool) : Bool :=
  match c with
  | 0 => new
  | 1 => old && new
  | 2 => old || new
  | _ => old != new

/-! ### Floating-point lanes (14 R275, R279-R288) -/

/-- The rounding mode of a target (14 R275, 03 R68). -/
def roundMode (h : Hints) : RMode :=
  match roundField h with
  | 2 => .rtz
  | 3 => .rup
  | 4 => .rdn
  | _ => .rne

/-- The FP causes a lane raises under fpctl, as the mask of R287: bit 0 invalid, 1 division by zero, 2 overflow
(14 R286); none while they are suppressed (14 R288). -/
def fpRaised (fpctl : Word) (quiet : Bool) (o : FpOut) : Nat :=
  if quiet then 0
  else (if o.invalid && fpctl.getLsbD 0 then 1 else 0) + (if o.divZero && fpctl.getLsbD 1 then 2 else 0) +
    (if o.overflow && fpctl.getLsbD 2 then 4 else 0)

/-- The cause of a mask of raised FP causes: the one of highest priority (14 R286). -/
def fpCauseOf (mask : Nat) : Nat := if mask % 2 = 1 then 7 else if mask / 2 % 2 = 1 then 8 else 9

/-- The chunk's amax update of a source, or the AMAX_NAN count (14 R279). -/
def amaxEff (x : Word) : Eff :=
  let a := x &&& 0x7FFFFFFF#32
  if a.toNat > 0x7F800000 then .count 24 1 else .amax a

/-- A floating-point operation in every executing lane: results of lanes that raise an enabled FP trap are dropped and
the lanes trap; the others write, count and update amax (14 R279, R283, R286). `put` places a lane's result. -/
def fpLanes (op : Nat → FpOut) (amax : Bool) (put : Nat → FpOut → Work → Work) (i : In) (w : Work) : Work :=
  let fpctl := viewReg i.g i.t 4
  let outs := i.act.map (fun l => (l, op l))
  let raised := outs.map (fun e => (e.1, fpRaised fpctl (laneAt i.g.regs e.1).quiet e.2))
  let bad := raised.filter (fun e => e.2 != 0)
  let good := outs.filter (fun e => tgetD bad e.1 0 == 0)
  let w1 := onRegs w (releaseSources i (good.map (·.1)))
  let w2 := good.foldl (fun w e => put e.1 e.2 w) w1
  let w3 := addEffs w2 (good.flatMap (fun e =>
    (if amax then [amaxEff (xVal i e.1)] else []) ++ e.2.counts.map (fun k => Eff.count k 1)))
  { w3 with
    fates := bad.foldl (fun t e => tput t e.1 (.trap (fpCauseOf e.2) 0#32)) w3.fates,
    causes := bad.foldl (fun t e => tput t e.1 e.2) w3.causes }

/-- Places a result in a vector register at fixed latency. -/
def putVec (d : Nat) (l : Nat) (o : FpOut) (w : Work) : Work :=
  onRegs w (fun c => writeV c l d (BitVec.ofNat 32 o.code))

/-- Places a result as an outstanding one of variable latency. -/
def putLate (d : Nat) (l : Nat) (o : FpOut) (w : Work) : Work := flyOut w 0 (64 * l + d) (BitVec.ofNat 32 o.code)

end Sys2Proof.Machine
end

