-- ==== Sys2Proof/Machine/Special.lean ====
section
/-! DEFINITION. The special functions (15 R304), the logarithms and exponentials of SAMPLE, and other values defined as
the rounding of an exact real number: each is computed in fixed point with 768 fraction bits by series, and rounded with
a sticky bit; the cases whose value is exact are decided apart. DEDUCED (log 9): no argument has its exact value within
2^-300 of a boundary of the rounding without being one of those cases. -/

namespace Sys2Proof.Machine

/-- Fraction bits of the fixed-point numbers. -/
def fxBits : Nat := 768

/-- One in fixed point. -/
def fxOne : Nat := 2 ^ fxBits

/-- The product of fixed-point numbers. -/
def fxMul (a b : Nat) : Nat := a * b / fxOne

/-- The quotient of fixed-point numbers. -/
def fxDiv (a b : Nat) : Nat := a * fxOne / b

/-- The sum of t + t z / k + t z^2 / (k (k + 1)) + ...: the exponential series. -/
def expSeries (fuel : Nat) (z t : Nat) (k : Nat) : Nat :=
  match fuel with
  | 0 => 0
  | f + 1 => t + expSeries f z (fxMul t z / k) (k + 1)

/-- The alternating exponential series: positive and negative terms apart. -/
def expAlt (fuel : Nat) (z t : Nat) (k : Nat) : Nat × Nat :=
  match fuel with
  | 0 => (0, 0)
  | f + 1 =>
    let r := expAlt f z (fxMul t z / k) (k + 1)
    (t + r.2, r.1)

/-- n squarings. -/
def squarings (n : Nat) (v : Nat) : Nat :=
  match n with
  | 0 => v
  | k + 1 => squarings k (fxMul v v)

/-- e^(-z) for a fixed-point z. -/
def fxExpNeg (z : Nat) : Nat :=
  let r := expAlt 200 (z / 2 ^ 12) fxOne 1
  squarings 12 (r.1 - r.2)

/-- e^z for a fixed-point z of at most 1. -/
def fxExp (z : Nat) : Nat := expSeries 250 z fxOne 1

/-- atanh z = z + z^3 / 3 + z^5 / 5 + ... for z2 = z^2, with p the current power. -/
def atanhSeries (fuel : Nat) (z2 p : Nat) (k : Nat) : Nat :=
  match fuel with
  | 0 => 0
  | f + 1 => p / k + atanhSeries f z2 (fxMul p z2) (k + 2)

/-- ln y for a fixed-point y from 1 to 2. -/
def fxLn (y : Nat) : Nat :=
  let z := fxDiv (y - fxOne) (y + fxOne)
  2 * atanhSeries 260 (fxMul z z) z 1

/-- ln 2. -/
def fxLn2 : Nat := fxLn (2 * fxOne)

/-- atan z with alternating terms, positive and negative apart. -/
def atanAlt (fuel : Nat) (z2 p : Nat) (k : Nat) : Nat × Nat :=
  match fuel with
  | 0 => (0, 0)
  | f + 1 =>
    let r := atanAlt f z2 (fxMul p z2) (k + 2)
    (p / k + r.2, r.1)

/-- atan (1 / n). -/
def fxAtanInv (n : Nat) : Nat :=
  let z := fxOne / n
  let r := atanAlt 200 (fxMul z z) z 1
  r.1 - r.2

/-- pi, by 16 atan (1/5) - 4 atan (1/239). -/
def fxPi : Nat := 16 * fxAtanInv 5 - 4 * fxAtanInv 239

/-- sin z and cos z with alternating terms of t z^2 / (k (k + 1)), positive and negative apart. -/
def sinAlt (fuel : Nat) (z2 t : Nat) (k : Nat) : Nat × Nat :=
  match fuel with
  | 0 => (0, 0)
  | f + 1 =>
    let r := sinAlt f z2 (fxMul t z2 / (k * (k + 1))) (k + 2)
    (t + r.2, r.1)

/-- sin z for a fixed-point z of at most pi / 2. -/
def fxSin (z : Nat) : Nat :=
  let r := sinAlt 120 (fxMul z z) z 2
  r.1 - r.2

/-- A fixed-point value that is not exact, rounded: the low 64 bits are dropped and stand as the sticky bit. -/
def roundFx (mode : RMode) (sat : Bool) (neg : Bool) (v : Nat) (shift : Int) : FpOut :=
  roundTo .fp32 mode sat neg (v / 2 ^ 64) (shift - (fxBits - 64 : Nat)) true

/-- A finite value from 0 as a fixed-point number; exact for an FP32 below 2^20. -/
def toFx (m : Nat) (e : Int) : Nat :=
  let s := e + fxBits
  if 0 ≤ s then m * 2 ^ s.toNat else m / 2 ^ (-s).toNat

/-- EXP2 of a finite nonzero value. -/
def exp2Fin (mode : RMode) (sat neg : Bool) (m : Nat) (e : Int) : FpOut :=
  let lg : Int := (Nat.log2 m : Int) + e
  if lg ≥ 9 then roundTo .fp32 mode sat false 1 (if neg then -400 else 400) true
  else
    let fx := toFx m e
    let whole := fx / fxOne
    let part := fx % fxOne
    if part = 0 then roundTo .fp32 mode sat false 1 (if neg then -(whole : Int) else whole) false
    else if neg then roundFx mode sat false (fxExp (fxMul (fxOne - part) fxLn2)) (-(whole : Int) - 1)
    else roundFx mode sat false (fxExp (fxMul part fxLn2)) whole

/-- LOG2 of a finite positive value. -/
def log2Fin (mode : RMode) (m : Nat) (e : Int) : FpOut :=
  let k := Nat.log2 m
  let whole : Int := (k : Int) + e
  if m = 2 ^ k then
    (if whole = 0 then zeroOut .fp32 false
     else roundTo .fp32 mode false (decide (whole < 0)) whole.natAbs 0 false)
  else
    let y := m * 2 ^ (fxBits - k)
    let v : Int := whole * fxOne + fxDiv (fxLn y) fxLn2
    roundFx mode false (decide (v < 0)) v.natAbs 0

/-- sin (pi x) for 0 < x < 2 given as a fixed-point number that is no multiple of 1/2: sign and magnitude. -/
def sinPiFx (x : Nat) : Bool × Nat :=
  let neg := decide (fxOne < x)
  let r := x % fxOne
  let f := if 2 * r > fxOne then fxOne - r else r
  (neg, fxSin (fxMul f fxPi))

/-- SINPI and COSPI of a finite nonzero value: the argument is first reduced exactly modulo 2. -/
def sinPiFin (cosine : Bool) (mode : RMode) (neg : Bool) (m : Nat) (e : Int) : FpOut :=
  let r := if 1 ≤ e then 0 else toFx m e % (2 * fxOne)
  let x := if cosine then (r + fxOne / 2) % (2 * fxOne) else r
  if x % fxOne = 0 then zeroOut .fp32 (if cosine then false else neg)
  else if 2 * x % fxOne = 0 then
    roundTo .fp32 mode false ((decide (fxOne < x)) != (neg && !cosine)) 1 0 false
  else
    let s := sinPiFx x
    roundFx mode false (s.1 != (neg && !cosine)) s.2 0

/-- TANH of a finite nonzero value. -/
def tanhFin (mode : RMode) (neg : Bool) (m : Nat) (e : Int) : FpOut :=
  let lg : Int := (Nat.log2 m : Int) + e
  if lg ≥ 7 then roundTo .fp32 mode false neg (2 ^ 200 - 1) (-200) true
  else
    let t := fxExpNeg (2 * toFx m e)
    roundFx mode false neg (fxDiv (fxOne - t) (fxOne + t)) 0

/-- SIGM of a finite nonzero value. -/
def sigmFin (mode : RMode) (neg : Bool) (m : Nat) (e : Int) : FpOut :=
  let lg : Int := (Nat.log2 m : Int) + e
  if lg ≥ 8 then
    (if neg then roundTo .fp32 mode false false 1 (-400) true
     else roundTo .fp32 mode false false (2 ^ 200 - 1) (-200) true)
  else
    let t := fxExpNeg (toFx m e)
    roundFx mode false false (fxDiv (if neg then t else fxOne) (fxOne + t)) 0

/-- EXP2 (15 R304). -/
def sfuExp2 (mode : RMode) (sat : Bool) (x : Fp) : FpOut :=
  (nanRule .fp32 [x]).getD
    (match x with
      | .inf n => if n then zeroOut .fp32 false else infOut .fp32 false
      | .fin n m e => if m = 0 then roundTo .fp32 mode sat false 1 0 false else exp2Fin mode sat n m e
      | .nan _ => nanOut .fp32)

/-- LOG2 (15 R304). -/
def sfuLog2 (mode : RMode) (x : Fp) : FpOut :=
  (nanRule .fp32 [x]).getD
    (match x with
      | .inf n => if n then invalidOut .fp32 else infOut .fp32 false
      | .fin n m e =>
        if m = 0 then divZeroOut .fp32 true else if n then invalidOut .fp32 else log2Fin mode m e
      | .nan _ => nanOut .fp32)

/-- RCP (15 R304). -/
def sfuRcp (mode : RMode) (sat : Bool) (x : Fp) : FpOut :=
  (nanRule .fp32 [x]).getD
    (match x with
      | .inf n => zeroOut .fp32 n
      | .fin n m _ => if m = 0 then divZeroOut .fp32 n else fpDiv .fp32 mode sat (.fin false 1 0) x
      | .nan _ => nanOut .fp32)

/-- RSQRT (15 R304): the root of 2^300 / m bounds the value from below with its sticky bit. -/
def sfuRsqrt (mode : RMode) (x : Fp) : FpOut :=
  (nanRule .fp32 [x]).getD
    (match x with
      | .inf n => if n then invalidOut .fp32 else zeroOut .fp32 false
      | .fin n m e =>
        if m = 0 then divZeroOut .fp32 n
        else if n then invalidOut .fp32
        else
          let odd := decide (e % 2 ≠ 0)
          let m1 := if odd then 2 * m else m
          let e1 := if odd then e - 1 else e
          let q := Nat.sqrt (2 ^ 300 / m1)
          roundTo .fp32 mode false false q (-150 - e1 / 2) (decide (q * q * m1 ≠ 2 ^ 300))
      | .nan _ => nanOut .fp32)

/-- SINPI (15 R304). -/
def sfuSinpi (mode : RMode) (x : Fp) : FpOut :=
  (nanRule .fp32 [x]).getD
    (match x with
      | .inf _ => invalidOut .fp32
      | .fin n m e => if m = 0 then zeroOut .fp32 n else sinPiFin false mode n m e
      | .nan _ => nanOut .fp32)

/-- COSPI (15 R304). -/
def sfuCospi (mode : RMode) (x : Fp) : FpOut :=
  (nanRule .fp32 [x]).getD
    (match x with
      | .inf _ => invalidOut .fp32
      | .fin n m e => if m = 0 then roundTo .fp32 mode false false 1 0 false else sinPiFin true mode n m e
      | .nan _ => nanOut .fp32)

/-- TANH (15 R304). -/
def sfuTanh (mode : RMode) (x : Fp) : FpOut :=
  (nanRule .fp32 [x]).getD
    (match x with
      | .inf n => roundTo .fp32 mode false n 1 0 false
      | .fin n m e => if m = 0 then zeroOut .fp32 n else tanhFin mode n m e
      | .nan _ => nanOut .fp32)

/-- SIGM (15 R304). -/
def sfuSigm (mode : RMode) (x : Fp) : FpOut :=
  (nanRule .fp32 [x]).getD
    (match x with
      | .inf n => if n then zeroOut .fp32 false else roundTo .fp32 mode false false 1 0 false
      | .fin n m e => if m = 0 then roundTo .fp32 mode false false 1 (-1) false else sigmFin mode n m e
      | .nan _ => nanOut .fp32)

end Sys2Proof.Machine
end

