-- ==== Sys2Proof/Machine/Float.lean ====
section
/-! DEFINITION. Floating-point arithmetic, packed arithmetic, conversions and special functions, majors 4 to 7 (15
R291-R307). -/

namespace Sys2Proof.Machine

/-- The FP32 value of x, y or the prior destination in a lane. -/
def fx (i : In) (l : Nat) : Fp := fpOf (xVal i l)

/-- The FP32 value of y in a lane. -/
def fy (i : In) (l : Nat) : Fp := fpOf (yVal i l)

/-- The word of the destination before the instruction, in a lane. -/
def dVal (i : In) (d : BitVec 6) (l : Nat) : Word := (readV i.g.regs l d.toNat).1

/-- A fixed-latency FP operation of one source. The words of this file check the auxiliary register of HINT.MOD, though
they use none (15 R306). -/
def fpX (sw : Bool) (d : BitVec 6) (x : Src) (s : State) (op : In → Nat → FpOut) : Host.Outcome State Fault Refusal :=
  groupOnly s { sw := sw, x := some x, v := [d.toNat] } (fun i => fpLanes (op i) false (putVec d.toNat) i)

/-- A fixed-latency FP operation of two sources. -/
def fpXY (sw : Bool) (d : BitVec 6) (x y : Src) (s : State) (op : In → Nat → FpOut) :
    Host.Outcome State Fault Refusal :=
  groupOnly s { sw := sw, x := some x, y := some y, v := [d.toNat] } (fun i => fpLanes (op i) false (putVec d.toNat) i)

/-- A fixed-latency FP operation of two sources and the destination. -/
def fpXYD (sw : Bool) (d : BitVec 6) (x y : Src) (s : State) (op : In → Nat → FpOut) :
    Host.Outcome State Fault Refusal :=
  groupOnly s { sw := sw, x := some x, y := some y, v := [d.toNat], vr := [d.toNat] }
    (fun i => fpLanes (op i) false (putVec d.toNat) i)

/-- The result of a bit operation, which signals and counts nothing. -/
def bitsOut (w : Word) : FpOut := { code := w.toNat }

/-! ### FALU (15 R294-R297) -/

/-- FADD (15 R294): the sum. -/
def execFadd (sw : Bool) (d : BitVec 6) (x y : Src) (s : State) : Host.Outcome State Fault Refusal :=
  fpXY sw d x y s (fun i l => fpAdd .fp32 (roundMode i.hints) (satField i.hints) (fx i l) (fy i l))

/-- FSUB (15 R294): the difference. -/
def execFsub (sw : Bool) (d : BitVec 6) (x y : Src) (s : State) : Host.Outcome State Fault Refusal :=
  fpXY sw d x y s (fun i l => fpSub .fp32 (roundMode i.hints) (satField i.hints) (fx i l) (fy i l))

/-- FMUL (15 R294): the product. -/
def execFmul (sw : Bool) (d : BitVec 6) (x y : Src) (s : State) : Host.Outcome State Fault Refusal :=
  fpXY sw d x y s (fun i l => fpMul .fp32 (roundMode i.hints) (satField i.hints) (fx i l) (fy i l))

/-- FFMA (15 R294): the product plus the destination, rounded once. -/
def execFfma (sw : Bool) (d : BitVec 6) (x y : Src) (s : State) : Host.Outcome State Fault Refusal :=
  fpXYD sw d x y s (fun i l => fpFma .fp32 (roundMode i.hints) (satField i.hints) (fx i l) (fy i l) (fpOf (dVal i d l)))

/-- FFNMA (15 R294): the negated product plus the destination, rounded once. -/
def execFfnma (sw : Bool) (d : BitVec 6) (x y : Src) (s : State) : Host.Outcome State Fault Refusal :=
  fpXYD sw d x y s (fun i l => fpFma .fp32 (roundMode i.hints) (satField i.hints) (negFp (fx i l)) (fy i l) (fpOf (dVal i d l)))

/-- FMIN (15 R295): the minimum. -/
def execFmin (sw : Bool) (d : BitVec 6) (x y : Src) (s : State) : Host.Outcome State Fault Refusal :=
  fpXY sw d x y s (fun i l => fpMinMax .fp32 false (xVal i l).toNat (yVal i l).toNat)

/-- FMAX (15 R295): the maximum. -/
def execFmax (sw : Bool) (d : BitVec 6) (x y : Src) (s : State) : Host.Outcome State Fault Refusal :=
  fpXY sw d x y s (fun i l => fpMinMax .fp32 true (xVal i l).toNat (yVal i l).toNat)

/-- FABS (15 R294): clears the sign bit. -/
def execFabs (sw : Bool) (d : BitVec 6) (x : Src) (s : State) : Host.Outcome State Fault Refusal :=
  fpX sw d x s (fun i l => bitsOut (xVal i l &&& 0x7FFFFFFF#32))

/-- FNEG (15 R294): flips the sign bit. -/
def execFneg (sw : Bool) (d : BitVec 6) (x : Src) (s : State) : Host.Outcome State Fault Refusal :=
  fpX sw d x s (fun i l => bitsOut (xVal i l ^^^ 0x80000000#32))

/-- FCPYS (15 R294): x with the sign of y. -/
def execFcpys (sw : Bool) (d : BitVec 6) (x y : Src) (s : State) : Host.Outcome State Fault Refusal :=
  fpXY sw d x y s (fun i l => bitsOut ((xVal i l &&& 0x7FFFFFFF#32) ||| (yVal i l &&& 0x80000000#32)))

/-- FDIV (15 R294): the quotient. -/
def execFdiv (sw : Bool) (d : BitVec 6) (x y : Src) (s : State) : Host.Outcome State Fault Refusal :=
  fpXY sw d x y s (fun i l => fpDiv .fp32 (roundMode i.hints) (satField i.hints) (fx i l) (fy i l))

/-- FSQRT (15 R294): the square root. -/
def execFsqrt (sw : Bool) (d : BitVec 6) (x : Src) (s : State) : Host.Outcome State Fault Refusal :=
  fpX sw d x s (fun i l => fpSqrt .fp32 (roundMode i.hints) (fx i l))

/-- The mode of FRINT (15 R296): the encoded one, or that of a HINT.MOD whose round field is not 0. -/
def rintMode (h : Hints) (m : BitVec 2) : RMode :=
  if roundField h != 0 then roundMode h
  else
    match m.toNat with
    | 0 => .rne
    | 1 => .rtz
    | 2 => .rdn
    | _ => .rup

/-- FRINT (15 R296): an integral FP32 value. -/
def execFrint (sw : Bool) (d : BitVec 6) (x : Src) (m : BitVec 2) (s : State) : Host.Outcome State Fault Refusal :=
  fpX sw d x s (fun i l => fpRint (rintMode i.hints m) (fx i l))

/-- FCLASS (15 R297): the one-hot class. -/
def execFclass (sw : Bool) (d : BitVec 6) (x : Src) (s : State) : Host.Outcome State Fault Refusal :=
  fpX sw d x s (fun i l => bitsOut (fpClass (xVal i l)))

/-- FSCALE (15 R294): x times two to the signed integer y. -/
def execFscale (sw : Bool) (d : BitVec 6) (x y : Src) (s : State) : Host.Outcome State Fault Refusal :=
  fpXY sw d x y s (fun i l => fpScale (roundMode i.hints) (satField i.hints) (fx i l) (sval (yVal i l)))

/-- FFRAC (15 R296): the exact fractional part. -/
def execFfrac (sw : Bool) (d : BitVec 6) (x : Src) (s : State) : Host.Outcome State Fault Refusal :=
  fpX sw d x s (fun i l => fpFrac (fx i l))

/-! ### HALU (15 R298, R299) -/

/-- The format that fn [3] selects (04 R83). -/
def halfFmt (f : BitVec 1) : Fmt := if f = 0#1 then .bf16 else .fp16

/-- Half h of a word: 0 is bits [15:0] (14 R271). -/
def halfOf (w : Word) (h : Nat) : Nat := w.toNat / 2 ^ (16 * h) % 2 ^ 16

/-- Two halves as one result: codes packed, counts and signals of both (15 R298). -/
def packHalves (lo hi : FpOut) : FpOut :=
  { code := lo.code + hi.code * 2 ^ 16, counts := lo.counts ++ hi.counts, invalid := lo.invalid || hi.invalid,
    divZero := lo.divZero || hi.divZero, overflow := lo.overflow || hi.overflow }

/-- An operation on each half of x and y. -/
def halves (op : Nat → Nat → FpOut) (a b : Word) : FpOut :=
  packHalves (op (halfOf a 0) (halfOf b 0)) (op (halfOf a 1) (halfOf b 1))

/-- HADD (15 R298): per half. -/
def execHadd (sw : Bool) (d : BitVec 6) (x y : Src) (f : BitVec 1) (s : State) : Host.Outcome State Fault Refusal :=
  fpXY sw d x y s (fun i l => halves (fun a b => fpAdd (halfFmt f) (roundMode i.hints) (satField i.hints)
    (decodeFp (halfFmt f) a) (decodeFp (halfFmt f) b)) (xVal i l) (yVal i l))

/-- HSUB (15 R298): per half. -/
def execHsub (sw : Bool) (d : BitVec 6) (x y : Src) (f : BitVec 1) (s : State) : Host.Outcome State Fault Refusal :=
  fpXY sw d x y s (fun i l => halves (fun a b => fpSub (halfFmt f) (roundMode i.hints) (satField i.hints)
    (decodeFp (halfFmt f) a) (decodeFp (halfFmt f) b)) (xVal i l) (yVal i l))

/-- HMUL (15 R298): per half. -/
def execHmul (sw : Bool) (d : BitVec 6) (x y : Src) (f : BitVec 1) (s : State) : Host.Outcome State Fault Refusal :=
  fpXY sw d x y s (fun i l => halves (fun a b => fpMul (halfFmt f) (roundMode i.hints) (satField i.hints)
    (decodeFp (halfFmt f) a) (decodeFp (halfFmt f) b)) (xVal i l) (yVal i l))

/-- HFMA (15 R298): per half, rounded once. -/
def execHfma (sw : Bool) (d : BitVec 6) (x y : Src) (f : BitVec 1) (s : State) : Host.Outcome State Fault Refusal :=
  fpXYD sw d x y s (fun i l =>
    let one := fun (h : Nat) => fpFma (halfFmt f) (roundMode i.hints) (satField i.hints)
      (decodeFp (halfFmt f) (halfOf (xVal i l) h)) (decodeFp (halfFmt f) (halfOf (yVal i l) h))
      (decodeFp (halfFmt f) (halfOf (dVal i d l) h))
    packHalves (one 0) (one 1))

/-- HMIN (15 R298): as FMIN per half. -/
def execHmin (sw : Bool) (d : BitVec 6) (x y : Src) (f : BitVec 1) (s : State) : Host.Outcome State Fault Refusal :=
  fpXY sw d x y s (fun i l => halves (fun a b => fpMinMax (halfFmt f) false a b) (xVal i l) (yVal i l))

/-- HMAX (15 R298): as FMAX per half. -/
def execHmax (sw : Bool) (d : BitVec 6) (x y : Src) (f : BitVec 1) (s : State) : Host.Outcome State Fault Refusal :=
  fpXY sw d x y s (fun i l => halves (fun a b => fpMinMax (halfFmt f) true a b) (xVal i l) (yVal i l))

/-- HNEG (15 R298): flips both sign bits. -/
def execHneg (sw : Bool) (d : BitVec 6) (x : Src) (_f : BitVec 1) (s : State) : Host.Outcome State Fault Refusal :=
  fpX sw d x s (fun i l => bitsOut (xVal i l ^^^ 0x80008000#32))

/-- HDOT2 (15 R299): two products and the FP32 destination, rounded once. -/
def execHdot2 (sw : Bool) (d : BitVec 6) (x y : Src) (f : BitVec 1) (s : State) : Host.Outcome State Fault Refusal :=
  fpXYD sw d x y s (fun i l =>
    let v := fun (w : Word) (h : Nat) => decodeFp (halfFmt f) (halfOf w h)
    fpDot2 (roundMode i.hints) (satField i.hints) (v (xVal i l) 0) (v (yVal i l) 0) (v (xVal i l) 1) (v (yVal i l) 1)
      (fpOf (dVal i d l)))

/-! ### CVT (15 R300-R303, 14 R278, R279) -/

/-- CVF2I (14 R278): FP32 to INT32. -/
def execCvf2i (sw : Bool) (d : BitVec 6) (x : Src) (s : State) : Host.Outcome State Fault Refusal :=
  fpX sw d x s (fun i l => fpToInt true (roundMode i.hints) (fx i l))

/-- CVI2F (15 R300): INT32 to FP32. -/
def execCvi2f (sw : Bool) (d : BitVec 6) (x : Src) (s : State) : Host.Outcome State Fault Refusal :=
  fpX sw d x s (fun i l => intToFp (roundMode i.hints) (sval (xVal i l)))

/-- CVN2F (15 R300): UINT32 to FP32. -/
def execCvn2f (sw : Bool) (d : BitVec 6) (x : Src) (s : State) : Host.Outcome State Fault Refusal :=
  fpX sw d x s (fun i l => intToFp (roundMode i.hints) (xVal i l).toNat)

/-- CVF2N (14 R278): FP32 to UINT32. -/
def execCvf2n (sw : Bool) (d : BitVec 6) (x : Src) (s : State) : Host.Outcome State Fault Refusal :=
  fpX sw d x s (fun i l => fpToInt false (roundMode i.hints) (fx i l))

/-- CVF2B (15 R300): FP32 to BF16. -/
def execCvf2b (sw : Bool) (d : BitVec 6) (x : Src) (s : State) : Host.Outcome State Fault Refusal :=
  fpX sw d x s (fun i l => fpConvert .bf16 (roundMode i.hints) (satField i.hints) (fx i l))

/-- CVB2F (15 R300): BF16 to FP32, exact. -/
def execCvb2f (sw : Bool) (d : BitVec 6) (x : Src) (s : State) : Host.Outcome State Fault Refusal :=
  fpX sw d x s (fun i l => fpConvert .fp32 .rne false (decodeFp .bf16 (halfOf (xVal i l) 0)))

/-- CVF2H (15 R300): FP32 to FP16. -/
def execCvf2h (sw : Bool) (d : BitVec 6) (x : Src) (s : State) : Host.Outcome State Fault Refusal :=
  fpX sw d x s (fun i l => fpConvert .fp16 (roundMode i.hints) (satField i.hints) (fx i l))

/-- CVH2F (15 R300): FP16 to FP32, exact. -/
def execCvh2f (sw : Bool) (d : BitVec 6) (x : Src) (s : State) : Host.Outcome State Fault Refusal :=
  fpX sw d x s (fun i l => fpConvert .fp32 .rne false (decodeFp .fp16 (halfOf (xVal i l) 0)))

/-- CVF2E4 (15 R301): scaled FP32 to E4M3, with the amax update of 14 R279. -/
def execCvf2e4 (sw : Bool) (d : BitVec 6) (x y : Src) (s : State) : Host.Outcome State Fault Refusal :=
  groupOnly s { sw := sw, x := some x, y := some y, v := [d.toNat] }
    (fun i => fpLanes (fun l => fpNarrow .e4m3 (roundMode i.hints) (fx i l) ((yVal i l).toNat % 256)) true
      (putVec d.toNat) i)

/-- CVF2E5 (15 R301): scaled FP32 to E5M2, with the amax update of 14 R279. -/
def execCvf2e5 (sw : Bool) (d : BitVec 6) (x y : Src) (s : State) : Host.Outcome State Fault Refusal :=
  groupOnly s { sw := sw, x := some x, y := some y, v := [d.toNat] }
    (fun i => fpLanes (fun l => fpNarrow .e5m2 (roundMode i.hints) (fx i l) ((yVal i l).toNat % 256)) true
      (putVec d.toNat) i)

/-- CVF2E2 (15 R301): scaled FP32 to E2M1, with the amax update of 14 R279. -/
def execCvf2e2 (sw : Bool) (d : BitVec 6) (x y : Src) (s : State) : Host.Outcome State Fault Refusal :=
  groupOnly s { sw := sw, x := some x, y := some y, v := [d.toNat] }
    (fun i => fpLanes (fun l => fpNarrow .e2m1 (roundMode i.hints) (fx i l) ((yVal i l).toNat % 256)) true
      (putVec d.toNat) i)

/-- CVE42F (15 R302): scaled E4M3 to FP32. -/
def execCve42f (sw : Bool) (d : BitVec 6) (x y : Src) (s : State) : Host.Outcome State Fault Refusal :=
  fpXY sw d x y s (fun i l => fpWiden .e4m3 (roundMode i.hints) (satField i.hints)
    ((xVal i l).toNat % 256) ((yVal i l).toNat % 256))

/-- CVE52F (15 R302): scaled E5M2 to FP32. -/
def execCve52f (sw : Bool) (d : BitVec 6) (x y : Src) (s : State) : Host.Outcome State Fault Refusal :=
  fpXY sw d x y s (fun i l => fpWiden .e5m2 (roundMode i.hints) (satField i.hints)
    ((xVal i l).toNat % 256) ((yVal i l).toNat % 256))

/-- CVE22F (15 R302): scaled E2M1 to FP32. -/
def execCve22f (sw : Bool) (d : BitVec 6) (x y : Src) (s : State) : Host.Outcome State Fault Refusal :=
  fpXY sw d x y s (fun i l => fpWiden .e2m1 (roundMode i.hints) (satField i.hints)
    ((xVal i l).toNat % 16) ((yVal i l).toNat % 256))

/-- PK2H (15 R303): packs two 16-bit fields. -/
def execPk2h (sw : Bool) (d : BitVec 6) (x y : Src) (s : State) : Host.Outcome State Fault Refusal :=
  fpXY sw d x y s (fun i l => { code := halfOf (xVal i l) 0 + 2 ^ 16 * halfOf (yVal i l) 0 })

/-- PK4B (15 R303): shifts the destination up and packs two bytes below it. -/
def execPk4b (sw : Bool) (d : BitVec 6) (x y : Src) (s : State) : Host.Outcome State Fault Refusal :=
  fpXYD sw d x y s (fun i l => { code := (dVal i d l).toNat * 2 ^ 16 % 2 ^ 32 + 2 ^ 8 * ((yVal i l).toNat % 256) + (xVal i l).toNat % 256 })

/-! ### SFU (15 R304, R305) -/

/-- A special function: its result is outstanding until it returns (15 R305). -/
def sfuX (sw : Bool) (d : BitVec 6) (x : Src) (s : State) (op : RMode → Bool → Fp → FpOut) :
    Host.Outcome State Fault Refusal :=
  groupOnly s { sw := sw, x := some x, v := [d.toNat] }
    (fun i => fpLanes (fun l => op (roundMode i.hints) (satField i.hints) (fx i l)) false (putLate d.toNat) i)

/-- EXP2 (15 R304). -/
def execExp2 (sw : Bool) (d : BitVec 6) (x : Src) (s : State) : Host.Outcome State Fault Refusal :=
  sfuX sw d x s sfuExp2

/-- LOG2 (15 R304). -/
def execLog2 (sw : Bool) (d : BitVec 6) (x : Src) (s : State) : Host.Outcome State Fault Refusal :=
  sfuX sw d x s (fun m _ v => sfuLog2 m v)

/-- RCP (15 R304). -/
def execRcp (sw : Bool) (d : BitVec 6) (x : Src) (s : State) : Host.Outcome State Fault Refusal :=
  sfuX sw d x s sfuRcp

/-- RSQRT (15 R304). -/
def execRsqrt (sw : Bool) (d : BitVec 6) (x : Src) (s : State) : Host.Outcome State Fault Refusal :=
  sfuX sw d x s (fun m _ v => sfuRsqrt m v)

/-- SINPI (15 R304). -/
def execSinpi (sw : Bool) (d : BitVec 6) (x : Src) (s : State) : Host.Outcome State Fault Refusal :=
  sfuX sw d x s (fun m _ v => sfuSinpi m v)

/-- COSPI (15 R304). -/
def execCospi (sw : Bool) (d : BitVec 6) (x : Src) (s : State) : Host.Outcome State Fault Refusal :=
  sfuX sw d x s (fun m _ v => sfuCospi m v)

/-- TANH (15 R304). -/
def execTanh (sw : Bool) (d : BitVec 6) (x : Src) (s : State) : Host.Outcome State Fault Refusal :=
  sfuX sw d x s (fun m _ v => sfuTanh m v)

/-- SIGM (15 R304). -/
def execSigm (sw : Bool) (d : BitVec 6) (x : Src) (s : State) : Host.Outcome State Fault Refusal :=
  sfuX sw d x s (fun m _ v => sfuSigm m v)

end Sys2Proof.Machine
end

