-- ==== Sys2Proof/Machine/LocalMem.lean ====
section
/-! DEFINITION. Loads and stores of cluster-local memory and of control memory, majors 13 and 14 (09 R193-R202). -/

namespace Sys2Proof.Machine

/-- An access of a lane that passed the checks: lane, cluster-local address, physical address. -/
abbrev LaneAccess := Nat × Word × Nat

/-- The checks of 09 R195 for the executing lanes: those that pass, and the traps of the others. -/
def checkLanes (i : In) (addr : Nat → Word) (n align : Nat) : List LaneAccess × Table (Nat × Word) :=
  i.act.foldl (fun (acc : List LaneAccess × Table (Nat × Word)) l =>
    match checkLocal i.s i.t i.l (addr l) n align with
    | .ok p => (acc.1 ++ [(l, addr l, p)], acc.2)
    | .error e => (acc.1, acc.2 ++ [(l, e)])) ([], [])

/-- Lanes trap with their causes. -/
def trapLanes (w : Work) (ts : Table (Nat × Word)) : Work :=
  { w with fates := ts.foldl (fun f e => tput f e.1 (Fate.trap e.2.1 e.2.2)) w.fates }

/-- Enters an instruction's accesses into the chunk and changes the chunk. What would overfill a signature is retried in
the next chunk, or performs and ends the parts when it stands first; what finds no segment in the store buffer is
retried always, which `performing` keeps from a first access of several lanes (08 R174, R175). -/
def memAccess (i : In) (w : Work) (reads writes : List Nat) (upd : Chunk → Chunk) : Work :=
  match w.g.cur with
  | none => w
  | some c =>
    match enterAccess c reads writes with
    | none => { w with retry := true }
    | some c1 =>
      let c2 := upd c1
      if segmentsFit i.s i.l w.g c2 i.gid then { w with g := { w.g with cur := some c2 } } else { w with retry := true }

/-- Whether the open chunk has room for an access, as `memAccess` judges it (08 R174, R175). -/
def accessFits (i : In) (reads writes : List Nat) (upd : Chunk → Chunk) : Bool :=
  match i.g.cur with
  | none => true
  | some c =>
    match enterAccess c reads writes with
    | none => false
    | some c1 => segmentsFit i.s i.l i.g (upd c1) i.gid

/-- Whether no access has entered the group's open chunk yet. -/
def untouched (g : Group) : Bool :=
  match g.cur with
  | none => false
  | some c => c.rsig == {} && c.wsig == {}

/-- The lanes' accesses that perform at this issue: all of them or, where the first access of a chunk would take more
segments than the chunk may have, the lanes from the first on for which they suffice (08 R174, R175; DEDUCED, log 12). -/
def performing {α : Type} (i : In) (as : List α) (fits : List α → Bool) : List α :=
  if fits as || !untouched i.g then as
  else (((upto as.length).reverse.map (fun n => as.take n)).find? (fun bs => !bs.isEmpty && fits bs)).getD as

/-- The chunk ends with the word when only some of the accesses perform (08 R174). -/
def endIfCut {α : Type} (all now : List α) (c : Chunk) : Chunk :=
  if now.length < all.length then { c with saturated := true } else c

/-- The lanes whose accesses do not perform stay at the word, to issue it in the next chunk (08 R174). -/
def holdRest {α : Type} (all now : List (Nat × α)) (wait : Wait) (w : Work) : Work :=
  setFates w ((all.drop now.length).map (·.1)) (.hold wait)

/-- The signature inputs of the lines that accesses touch. -/
def accessLines (as : List LaneAccess) (n : Nat) : List Nat := as.flatMap (fun a => lineInputs a.2.1.toNat n)

/-- A word of local memory in the group's view. -/
def lmemWord (s : State) (g : Group) (p : Nat) : Word := viewWord s.lmem (ownStores g) p

/-- n bytes of local memory in the group's view. -/
def lmemBytes (s : State) (g : Group) (p n : Nat) : List Byte := viewBytes s.lmem (ownStores g) p n

/-- The effective address of a lane (03 R64, R66). -/
def effAddr (i : In) (o : BitVec 8) (size : Nat) (l : Nat) : Word :=
  xVal i l + immValue i.hints o * BitVec.ofNat 32 size

/-- The effective address of a uniform access. -/
def effAddrS (i : In) (o : BitVec 8) : Word := sxVal i + immValue i.hints o * 4#32

/-- Lanes that passed the checks, as lane numbers. -/
def accessLanes (as : List LaneAccess) : List Nat := as.map (·.1)

/-- The effective address on a control core (03 R64, 04 R85). -/
def ctlAddr (i : CIn) (o : BitVec 8) (size : Nat) : Word := i.x + immValue i.hints o * BitVec.ofNat 32 size

/-- Whether an access of control memory is legal: inside it and aligned (04 R85, R89). -/
def ctlAccessOk (a : Word) (size : Nat) : Bool :=
  decide (a.toNat + size ≤ Config.controlBytes) && a.toNat % size == 0

/-- A number of n bytes of control memory. -/
def ctlRead (i : CIn) (a : Word) (n : Nat) : Nat := mreadN i.s.cmem (i.c * Config.controlBytes + a.toNat) n

/-- A load into `regs` registers (09 R197, R198). -/
def loadForm (sw : Bool) (d : Nat) (x : Src) (regs : Nat) : Form :=
  { sw := sw, x := some x, v := (upto regs).map (fun k => d + k), imm := true }

/-- The group's part of a load. -/
def loadBody (d : Nat) (o : BitVec 8) (size regs : Nat) (conv : Nat → List Byte → Word) (i : In) (w : Work) : Work :=
  let c := checkLanes i (effAddr i o size) size size
  let w1 := memAccess i w (accessLines c.1 size) [] id
  let w2 := onRegs w1 (releaseSources i (accessLanes c.1))
  let w3 := c.1.foldl (fun w a =>
    let bs := lmemBytes i.s i.g a.2.2 size
    (upto regs).foldl (fun w k => flyOut w 0 (64 * a.1 + d + k) (conv k bs)) w) w2
  trapLanes w3 c.2

/-- A control core's part of a load. -/
def loadCtl (d : Nat) (o : BitVec 8) (size regs : Nat) (conv : Nat → List Byte → Word) (i : CIn) : CWork :=
  let a := ctlAddr i o size
  if ctlAccessOk a size then
    let bs := natLE size (ctlRead i a size)
    { ctl := (upto regs).foldl (fun c k => setCtlReg c (d + k) (conv k bs)) (ctlNext i) }
  else { ctl := i.ctl, badAccess := some a }

/-- The number that bytes hold, zero-extended. -/
def zext (bs : List Byte) : Word := BitVec.ofNat 32 (leNat bs)

/-- The number that n bytes hold, sign-extended. -/
def sext (n : Nat) (bs : List Byte) : Word :=
  let v := leNat bs
  if v < 2 ^ (8 * n - 1) then BitVec.ofNat 32 v else wrap32 ((v : Int) - 2 ^ (8 * n))

/-- Word k of bytes. -/
def wordAt (k : Nat) (bs : List Byte) : Word := zext ((bs.drop (4 * k)).take 4)

/-- LD8 (09 R197): a byte, zero-extended. -/
def execLd8 (sw : Bool) (d : BitVec 6) (x : Src) (o : BitVec 8) (s : State) : Host.Outcome State Fault Refusal :=
  groupOrControl s (loadForm sw d.toNat x 1) (loadBody d.toNat o 1 1 (fun _ bs => zext bs))
    (loadCtl d.toNat o 1 1 (fun _ bs => zext bs))

/-- LD8S (09 R197): a byte, sign-extended. -/
def execLd8s (sw : Bool) (d : BitVec 6) (x : Src) (o : BitVec 8) (s : State) : Host.Outcome State Fault Refusal :=
  groupOrControl s (loadForm sw d.toNat x 1) (loadBody d.toNat o 1 1 (fun _ bs => sext 1 bs))
    (loadCtl d.toNat o 1 1 (fun _ bs => sext 1 bs))

/-- LD16 (09 R197): a half-word, zero-extended. -/
def execLd16 (sw : Bool) (d : BitVec 6) (x : Src) (o : BitVec 8) (s : State) : Host.Outcome State Fault Refusal :=
  groupOrControl s (loadForm sw d.toNat x 1) (loadBody d.toNat o 2 1 (fun _ bs => zext bs))
    (loadCtl d.toNat o 2 1 (fun _ bs => zext bs))

/-- LD16S (09 R197): a half-word, sign-extended. -/
def execLd16s (sw : Bool) (d : BitVec 6) (x : Src) (o : BitVec 8) (s : State) : Host.Outcome State Fault Refusal :=
  groupOrControl s (loadForm sw d.toNat x 1) (loadBody d.toNat o 2 1 (fun _ bs => sext 2 bs))
    (loadCtl d.toNat o 2 1 (fun _ bs => sext 2 bs))

/-- LD32 (09 R197): a word. -/
def execLd32 (sw : Bool) (d : BitVec 6) (x : Src) (o : BitVec 8) (s : State) : Host.Outcome State Fault Refusal :=
  groupOrControl s (loadForm sw d.toNat x 1) (loadBody d.toNat o 4 1 (fun _ bs => zext bs))
    (loadCtl d.toNat o 4 1 (fun _ bs => zext bs))

/-- LD64 (09 R197): two words into a pair. -/
def execLd64 (sw : Bool) (d : BitVec 5) (x : Src) (o : BitVec 8) (s : State) : Host.Outcome State Fault Refusal :=
  groupOrControl s (loadForm sw (2 * d.toNat) x 2) (loadBody (2 * d.toNat) o 8 2 wordAt)
    (loadCtl (2 * d.toNat) o 8 2 wordAt)

/-- LD128 (09 R197): four words into four registers. -/
def execLd128 (sw : Bool) (d : BitVec 4) (x : Src) (o : BitVec 8) (s : State) : Host.Outcome State Fault Refusal :=
  groupOnly s (loadForm sw (4 * d.toNat) x 4) (loadBody (4 * d.toNat) o 16 4 wordAt)

/-! ### Full and empty words (09 R199-R201) -/

/-- What happens to a lane that reads a full/empty word. -/
inductive FullCase where
  | took (v : Word)
  | waits
  | traps
  deriving DecidableEq, Repr

/-- The lanes of LDFE, LDFT or LDFC in ascending order (09 R199): each lane's case, and the words marked empty. -/
def fullCases (i : In) (onEmpty : FullCase) (take : Bool) (as : List LaneAccess) :
    List (LaneAccess × FullCase) × List TagStore :=
  as.foldl (fun acc a =>
    if viewFull i.s.lbits (acc.2 ++ ownTags i.g) a.2.2 then
      (acc.1 ++ [(a, .took (lmemWord i.s i.g a.2.2))],
       if take then { addr := a.2.2, full := some false, dirty := none } :: acc.2 else acc.2)
    else (acc.1 ++ [(a, onEmpty)], acc.2)) ([], [])

/-- The lanes that find their word full, with its value. -/
def tookLanes (r : List (LaneAccess × FullCase)) : List (LaneAccess × Word) :=
  r.filterMap (fun e => match e.2 with | .took v => some (e.1, v) | _ => none)

/-- A load of a full word: waiting, trapping or taking (09 R199). A lane that finds its word empty and waits has read it, so a
commit that fills the word squashes the chunk; one that traps enters no signature (09 R195, 08 R176, R180). -/
def loadFull (sw : Bool) (d : BitVec 6) (x : Src) (o : BitVec 8) (s : State) (onEmpty : FullCase) (take : Bool) :
    Host.Outcome State Fault Refusal :=
  groupOnly s (loadForm sw d.toNat x 1)
    (fun i w =>
      let c := checkLanes i (effAddr i o 4) 4 4
      let lines := fun as => accessLines (tookLanes (fullCases i onEmpty take as).1 |>.map (·.1)) 4
      let reads := fun as => if onEmpty == .traps then lines as else accessLines as 4
      let emptied := fun as (k : Chunk) => { k with tags := (fullCases i onEmpty take as).2 ++ k.tags }
      let now := performing i c.1 (fun as => accessFits i (reads as) (if take then lines as else []) (emptied as))
      let r := fullCases i onEmpty take now
      let done := tookLanes r.1
      let w1 := memAccess i w (reads now) (if take then lines now else []) (fun k => endIfCut c.1 now (emptied now k))
      let w2 := onRegs w1 (releaseSources i (done.map (fun e => e.1.1)))
      let w3 := done.foldl (fun w e => flyOut w 0 (64 * e.1.1 + d.toNat) e.2) w2
      let w4 := r.1.foldl (fun w e =>
        match e.2 with
        | .took _ => w
        | .waits => setFates w [e.1.1] (.hold (.full e.1.2.2))
        | .traps => setFates w [e.1.1] (.trap 6 e.1.2.1)) w3
      trapLanes (holdRest c.1 now .ready w4) c.2)

/-- LDFE (09 R199): waits while the word is empty. -/
def execLdfe (sw : Bool) (d : BitVec 6) (x : Src) (o : BitVec 8) (s : State) : Host.Outcome State Fault Refusal :=
  loadFull sw d x o s .waits false

/-- LDFT (09 R199): traps with EMPTY_WORD on an empty word. -/
def execLdft (sw : Bool) (d : BitVec 6) (x : Src) (o : BitVec 8) (s : State) : Host.Outcome State Fault Refusal :=
  loadFull sw d x o s .traps false

/-- LDFC (09 R199): takes a full word and marks it empty, waiting while it is empty. -/
def execLdfc (sw : Bool) (d : BitVec 6) (x : Src) (o : BitVec 8) (s : State) : Host.Outcome State Fault Refusal :=
  loadFull sw d x o s .waits true

/-- LDTAG (09 R200): the full/empty and dirty bits of a word. -/
def execLdtag (sw : Bool) (d : BitVec 6) (x : Src) (o : BitVec 8) (s : State) : Host.Outcome State Fault Refusal :=
  groupOnly s (loadForm sw d.toNat x 1)
    (fun i w =>
      let c := checkLanes i (effAddr i o 4) 4 4
      let w1 := memAccess i w (accessLines c.1 4) [] id
      let w2 := onRegs w1 (releaseSources i (accessLanes c.1))
      let w3 := c.1.foldl (fun w a =>
        let f := viewFull i.s.lbits (ownTags i.g) a.2.2
        let dd := viewDirty i.s.lbits (ownTags i.g) a.2.2
        flyOut w 0 (64 * a.1 + d.toNat) (boolWord f + 2#32 * boolWord dd)) w2
      trapLanes w3 c.2)

/-! ### Uniform accesses (09 R202) -/

/-- The check of a uniform access: every executing lane traps when it fails. -/
def checkUniform (i : In) (o : BitVec 8) : Except (Nat × Word) Nat := checkLocal i.s i.t i.l (effAddrS i o) 4 4

/-- LDS32 (09 R202): a word into a uniform register, once per issue. -/
def execLds32 (sw : Bool) (d : BitVec 6) (x : Src) (o : BitVec 8) (s : State) : Host.Outcome State Fault Refusal :=
  groupOnly s { sw := sw, sx := some x, u := [d.toNat], imm := true }
    (fun i w =>
      if i.act.isEmpty then w
      else
        match checkUniform i o with
        | .error e => setFates w i.act (.trap e.1 e.2)
        | .ok p =>
          let w1 := memAccess i w (lineInputs (effAddrS i o).toNat 4) [] id
          flyOut (onRegs w1 (releaseSources i i.act)) 1 d.toNat (lmemWord i.s i.g p))

/-- STS32 (09 R202): a uniform register to a word, once per issue. -/
def execSts32 (sw : Bool) (d : BitVec 6) (x : Src) (o : BitVec 8) (s : State) : Host.Outcome State Fault Refusal :=
  groupOnly s { sw := sw, sx := some x, u := [d.toNat], ur := [d.toNat], imm := true }
    (fun i w =>
      if i.act.isEmpty then w
      else
        match checkUniform i o with
        | .error e => setFates w i.act (.trap e.1 e.2)
        | .ok p =>
          let w1 := memAccess i w [] (lineInputs (effAddrS i o).toNat 4)
            (fun k => chunkStore k p (wordBytes (readS i.g.regs d.toNat).1))
          onRegs w1 (releaseSources i i.act))

/-! ### Stores (09 R197, R201) -/

/-- A store of the low `size` bytes of `regs` registers (09 R197). -/
def storeForm (sw : Bool) (d : Nat) (x : Src) (regs : Nat) : Form :=
  { sw := sw, x := some x, v := (upto regs).map (fun k => d + k), vr := (upto regs).map (fun k => d + k), imm := true }

/-- A store of a lane's data, with any change of the word's bits, in every lane that passes the checks. -/
def storeBody (o : BitVec 8) (size : Nat) (data : In → Nat → List Byte) (tags : Nat → List TagStore) (i : In) (w : Work) :
    Work :=
  let c := checkLanes i (effAddr i o size) size size
  let put := fun as (k : Chunk) => as.foldl (fun k (a : LaneAccess) =>
    let k1 := chunkStore k a.2.2 (data i a.1)
    { k1 with tags := tags a.2.2 ++ k1.tags }) k
  let now := performing i c.1 (fun as => accessFits i [] (accessLines as size) (put as))
  let w1 := memAccess i w [] (accessLines now size) (fun k => endIfCut c.1 now (put now k))
  trapLanes (holdRest c.1 now .ready (onRegs w1 (releaseSources i (accessLanes now)))) c.2

/-- The bytes of `regs` consecutive vector registers of a lane, the low `size` of them. -/
def regBytes (d size regs : Nat) (i : In) (l : Nat) : List Byte :=
  ((upto regs).flatMap (fun k => wordBytes (readV i.g.regs l (d + k)).1)).take size

/-- A control core's part of a store: never into the code range of its program (07 R134). -/
def storeCtl (d : Nat) (o : BitVec 8) (size regs : Nat) (i : CIn) : CWork :=
  let a := ctlAddr i o size
  if ctlAccessOk a size && !inCode i.ctl a.toNat size then
    { ctl := ctlNext i,
      store := [(a.toNat, ((upto regs).flatMap (fun k => wordBytes (ctlReg i.ctl (d + k)))).take size)] }
  else { ctl := i.ctl, badAccess := some a }

/-- ST8 (09 R197): a byte. -/
def execSt8 (sw : Bool) (d : BitVec 6) (x : Src) (o : BitVec 8) (s : State) : Host.Outcome State Fault Refusal :=
  groupOrControl s (storeForm sw d.toNat x 1) (storeBody o 1 (regBytes d.toNat 1 1) (fun _ => []))
    (storeCtl d.toNat o 1 1)

/-- ST16 (09 R197): a half-word. -/
def execSt16 (sw : Bool) (d : BitVec 6) (x : Src) (o : BitVec 8) (s : State) : Host.Outcome State Fault Refusal :=
  groupOrControl s (storeForm sw d.toNat x 1) (storeBody o 2 (regBytes d.toNat 2 1) (fun _ => []))
    (storeCtl d.toNat o 2 1)

/-- ST32 (09 R197): a word. -/
def execSt32 (sw : Bool) (d : BitVec 6) (x : Src) (o : BitVec 8) (s : State) : Host.Outcome State Fault Refusal :=
  groupOrControl s (storeForm sw d.toNat x 1) (storeBody o 4 (regBytes d.toNat 4 1) (fun _ => []))
    (storeCtl d.toNat o 4 1)

/-- ST64 (09 R197): a register pair. -/
def execSt64 (sw : Bool) (d : BitVec 5) (x : Src) (o : BitVec 8) (s : State) : Host.Outcome State Fault Refusal :=
  groupOrControl s (storeForm sw (2 * d.toNat) x 2) (storeBody o 8 (regBytes (2 * d.toNat) 8 2) (fun _ => []))
    (storeCtl (2 * d.toNat) o 8 2)

/-- ST128 (09 R197): four registers. -/
def execSt128 (sw : Bool) (d : BitVec 4) (x : Src) (o : BitVec 8) (s : State) : Host.Outcome State Fault Refusal :=
  groupOnly s (storeForm sw (4 * d.toNat) x 4) (storeBody o 16 (regBytes (4 * d.toNat) 16 4) (fun _ => []))

/-- STF (09 R201): stores a word and marks it full. -/
def execStf (sw : Bool) (d : BitVec 6) (x : Src) (o : BitVec 8) (s : State) : Host.Outcome State Fault Refusal :=
  groupOnly s (storeForm sw d.toNat x 1)
    (storeBody o 4 (regBytes d.toNat 4 1) (fun p => [{ addr := p, full := some true, dirty := none }]))

/-- STE (09 R201): marks a word empty. -/
def execSte (sw : Bool) (x : Src) (o : BitVec 8) (s : State) : Host.Outcome State Fault Refusal :=
  groupOnly s { sw := sw, x := some x, imm := true }
    (storeBody o 4 (fun _ _ => []) (fun p => [{ addr := p, full := some false, dirty := none }]))

/-- STCD (09 R201): clears a word's dirty bit. -/
def execStcd (sw : Bool) (x : Src) (o : BitVec 8) (s : State) : Host.Outcome State Fault Refusal :=
  groupOnly s { sw := sw, x := some x, imm := true }
    (storeBody o 4 (fun _ _ => []) (fun p => [{ addr := p, full := none, dirty := some false }]))

/-- The record a handle names for the team, in the group's view (11 R260). -/
def handleShape (i : In) (h : Word) : Option Shape :=
  match tget i.s.parts i.l.part with
  | none => none
  | some p =>
    let x := viewSlot i.g i.g.team p (h.toNat / 2 ^ 20)
    if h != 0#32 && x.owner == some i.g.team && x.gen == h.toNat % 2 ^ 20 then x.shape else none

/-- The pair of vector registers that a field names, as a source with its use code (03 R61). -/
def pairSrc (y : BitVec 5) (u : Use) : Src := { reg := BitVec.ofNat 6 (2 * y.toNat), use := u }

end Sys2Proof.Machine
end

