-- ==== Sys2Proof/Machine/Atomic.lean ====
section
/-! DEFINITION. Atomic read-modify-writes of local memory, major 15 (09 R203-R205). -/

namespace Sys2Proof.Machine

/-- What an operation makes of a word: w, operand, the lane's prior destination, rounding mode; none leaves the word
unwritten (09 R205). The counts are those of AFADD. -/
abbrev AtomOp := Word → Word → Word → RMode → Option Word × List Nat

/-- An operation that always writes and counts nothing. -/
def atomOf (f : Word → Word → Word) : AtomOp := fun w b _ _ => (some (f w b), [])

/-- The lanes of a LATM in ascending order, each seeing the results of the lower ones (09 R205): the old values with
their counts, and the chunk with the stores. -/
def atomLanes (op : AtomOp) (d : Nat) (i : In) (as : List LaneAccess) (c : Chunk) :
    List (Nat × Word × List Nat) × Chunk :=
  as.foldl (fun acc a =>
    let w := lmemWord i.s { i.g with cur := some acc.2 } a.2.2
    let r := op w (yVal i a.1) (readV i.g.regs a.1 d).1 (roundMode i.hints)
    (acc.1 ++ [(a.1, w, r.2)],
     match r.1 with
     | some v => chunkStore acc.2 a.2.2 (wordBytes v)
     | none => acc.2)) ([], c)

/-- The effect of a LATM in its own chunk (09 R204, R205). -/
def atomBody (op : AtomOp) (d : Nat) (i : In) (w : Work) : Work :=
  let c := checkLanes i (fun l => xVal i l) 4 4
  let put := fun as (k : Chunk) => (atomLanes op d i as k).2
  let now := performing i c.1 (fun as => accessFits i (accessLines as 4) (accessLines as 4) (put as))
  let r := atomLanes op d i now ((i.g.cur).getD {})
  let lines := accessLines now 4
  let w1 := memAccess i w lines lines (put now)
  let w2 := onRegs w1 (releaseSources i (accessLanes now))
  let w3 := r.1.foldl (fun w e => flyOut w 0 (64 * e.1 + d) e.2.1) w2
  let w4 := addEffs w3 (r.1.flatMap (fun e => e.2.2.map (fun k => Eff.count k 1)))
  trapLanes (holdRest c.1 now .latm w4) c.2

/-- The group with the lanes of a set made ready to run their LATM. -/
def readyLatm (g : Group) (set : Nat) : Group :=
  { g with regs := { g.regs with lanes := tmap g.regs.lanes (fun _ x =>
      if x.status == .live && x.set == set then { x with wait := .ready } else x) } }

/-- A group with no chunk open at a LATM word of form f: its set is ready, and a chunk of its own is open for it when a
lane executes; a squash of that chunk returns the set to its wait (09 R204). -/
def openLatm (s : State) (g : Group) (set : Nat) (f : Form) : State × Group :=
  let o := if (guardLanes f s.issue.hints g.regs (setLanes g.regs set)).1.isEmpty then (s, g) else openChunk s g (.latm set)
  (o.1, readyLatm o.2 set)

/-- The issue of a LATM word (09 R204, 08 R173): while the group's chunk is open the parts of the active lanes end and
they wait at the word, and the others go past it; with no chunk open the instruction forms a chunk of its own, which opens
only when its sources wait for no other set (16 R309). A word with no active lane acts in none and ends nothing. An illegal
word traps at once. -/
def atomIssue (s : State) (gid set : Nat) (f : Form) (body : In → Work → Work) : Host.Outcome State Fault Refusal :=
  match groupTriple s gid with
  | none => .fault (.brokenState "group, team or launch")
  | some (g, _, l) =>
    if f.illegal || hintsIllegal f s.issue.hints l.alloc || allocIllegal f l.alloc then groupIssue s gid set f body
    else
      match g.cur with
      | some c =>
        if c.kind == .latm set then groupIssue s gid set f body
        else groupIssue s gid set f (fun i w =>
          setFates { w with hazard := (guardLanes f i.hints i.g.regs i.lanes).2 } i.act (.hold .latm))
      | none =>
        let o := openLatm s g set f
        let s' := setGroup o.1 gid o.2
        if (groupTriple s' gid).any (fun x => (sourceHazard (issueIn s' gid set f x.1 x.2.1 x.2.2)).2) then .next s
        else groupIssue s' gid set f body

/-- A LATM word with its operation. -/
def atomXY (sw : Bool) (d : BitVec 6) (x y : Src) (s : State) (readsD : Bool) (op : AtomOp) :
    Host.Outcome State Fault Refusal :=
  let f : Form := { sw := sw, x := some x, y := some y, v := [d.toNat], vr := if readsD then [d.toNat] else [] }
  match s.issue.actor with
  | .group gid set => atomIssue s gid set f (atomBody op d.toNat)
  | _ => groupOnly s f (atomBody op d.toNat)

/-- AADD (09 R205): the sum. -/
def execAadd (sw : Bool) (d : BitVec 6) (x y : Src) (s : State) : Host.Outcome State Fault Refusal :=
  atomXY sw d x y s false (atomOf (fun w b => w + b))

/-- AMIN (09 R205): the signed minimum. -/
def execAmin (sw : Bool) (d : BitVec 6) (x y : Src) (s : State) : Host.Outcome State Fault Refusal :=
  atomXY sw d x y s false (atomOf iminW)

/-- AMAX (09 R205): the signed maximum. -/
def execAmax (sw : Bool) (d : BitVec 6) (x y : Src) (s : State) : Host.Outcome State Fault Refusal :=
  atomXY sw d x y s false (atomOf imaxW)

/-- AMINN (09 R205): the unsigned minimum. -/
def execAminn (sw : Bool) (d : BitVec 6) (x y : Src) (s : State) : Host.Outcome State Fault Refusal :=
  atomXY sw d x y s false (atomOf uminW)

/-- AMAXN (09 R205): the unsigned maximum. -/
def execAmaxn (sw : Bool) (d : BitVec 6) (x y : Src) (s : State) : Host.Outcome State Fault Refusal :=
  atomXY sw d x y s false (atomOf umaxW)

/-- AAND (09 R205): the AND. -/
def execAand (sw : Bool) (d : BitVec 6) (x y : Src) (s : State) : Host.Outcome State Fault Refusal :=
  atomXY sw d x y s false (atomOf (fun w b => w &&& b))

/-- AOR (09 R205): the OR. -/
def execAor (sw : Bool) (d : BitVec 6) (x y : Src) (s : State) : Host.Outcome State Fault Refusal :=
  atomXY sw d x y s false (atomOf (fun w b => w ||| b))

/-- AXOR (09 R205): the exclusive OR. -/
def execAxor (sw : Bool) (d : BitVec 6) (x y : Src) (s : State) : Host.Outcome State Fault Refusal :=
  atomXY sw d x y s false (atomOf (fun w b => w ^^^ b))

/-- AXCH (09 R205): the operand. -/
def execAxch (sw : Bool) (d : BitVec 6) (x y : Src) (s : State) : Host.Outcome State Fault Refusal :=
  atomXY sw d x y s false (atomOf (fun _ b => b))

/-- AINCW (09 R205): 0 at or above the bound, else the word plus 1. -/
def execAincw (sw : Bool) (d : BitVec 6) (x y : Src) (s : State) : Host.Outcome State Fault Refusal :=
  atomXY sw d x y s false (atomOf (fun w b => if b.toNat ≤ w.toNat then 0#32 else w + 1#32))

/-- ACAS (09 R205): the operand, if the word equals the lane's prior destination; else nothing is written. -/
def execAcas (sw : Bool) (d : BitVec 6) (x y : Src) (s : State) : Host.Outcome State Fault Refusal :=
  atomXY sw d x y s true (fun w b dv _ => (if w == dv then some b else none, []))

/-- AFADD (09 R205): the FP32 sum, counted as FADD counts it; no trap (14 R286). -/
def execAfadd (sw : Bool) (d : BitVec 6) (x y : Src) (s : State) : Host.Outcome State Fault Refusal :=
  atomXY sw d x y s false (fun w b _ m =>
    let o := fpAdd .fp32 m false (fpOf w) (fpOf b)
    (some (outWord o), o.counts))

end Sys2Proof.Machine
end

