-- ==== Sys2Proof/Machine/Cross.lean ====
section
/-! DEFINITION. Cross-lane instructions, major 9 (16 R308-R313). Every result is outstanding until it returns. -/

namespace Sys2Proof.Machine

/-- Issues a vector result in every active lane. -/
def flyLanes (d : Nat) (f : Nat → Word) (i : In) (w : Work) : Work :=
  i.act.foldl (fun w l => flyOut w 0 (64 * l + d) (f l)) w

/-- Issues a predicate result in every active lane. -/
def flyPreds (d : Nat) (b : Bool) (i : In) (w : Work) : Work :=
  i.act.foldl (fun w l => flyOut w 2 (8 * l + d) (boolWord b)) w

/-- A cross-lane instruction of one vector source: the result of each active lane from the whole set. -/
def crossX (sw : Bool) (d : BitVec 6) (x : Src) (s : State) (f : In → Nat → Word) : Host.Outcome State Fault Refusal :=
  groupOnly s { sw := sw, x := some x, v := [d.toNat] }
    (fun i w => flyLanes d.toNat (f i) i (onRegs w (releaseSources i i.act)))

/-- The active lanes whose predicate is set. -/
def voters (i : In) (k : BitVec 3) : List Nat := i.act.filter (fun l => (readP i.g.regs l k.toNat).1)

/-- A cross-lane instruction of one predicate source with a vector result. -/
def crossP (sw : Bool) (d : BitVec 6) (x : BitVec 3) (s : State) (f : In → Nat → Word) :
    Host.Outcome State Fault Refusal :=
  groupOnly s { sw := sw, v := [d.toNat], pr := [x.toNat] } (fun i w => flyLanes d.toNat (f i) i w)

/-- SHFL (16 R311): x of the lane that y names, by the table of 16 R308; it waits for another set's outstanding result
(16 R309). -/
def execShfl (sw : Bool) (d : BitVec 6) (x y : Src) (s : State) : Host.Outcome State Fault Refusal :=
  groupOnly s { sw := sw, x := some x, y := some y, v := [d.toNat], shfl := true }
    (fun i w =>
      let rd := fun (l : Nat) => crossRead i.g.regs i.set x.reg.toNat (some ((yVal i l).toNat % i.l.alloc.w))
      let w1 := { w with hazard := w.hazard || i.act.any (fun l => (rd l).2.1), stall := i.act.any (fun l => (rd l).2.2) }
      flyLanes d.toNat (fun l => (rd l).1) i (onRegs w1 (releaseSources i i.act)))

/-- BALLOT (16 R311): the mask of the active lanes whose predicate is set. -/
def execBallot (sw : Bool) (d : BitVec 5) (x : BitVec 3) (s : State) : Host.Outcome State Fault Refusal :=
  groupOnly s { sw := sw, v := [2 * d.toNat, 2 * d.toNat + 1], pr := [x.toNat] }
    (fun i w =>
      let m := maskOf (voters i x)
      flyLanes (2 * d.toNat + 1) (fun _ => hiWord m) i (flyLanes (2 * d.toNat) (fun _ => loWord m) i w))

/-- VANY (16 R311): whether some active lane's predicate is set. -/
def execVany (sw : Bool) (d x : BitVec 3) (s : State) : Host.Outcome State Fault Refusal :=
  groupOnly s { sw := sw, pr := [x.toNat] } (fun i w => flyPreds d.toNat (!(voters i x).isEmpty) i w)

/-- VALL (16 R311): whether every active lane's predicate is set. -/
def execVall (sw : Bool) (d x : BitVec 3) (s : State) : Host.Outcome State Fault Refusal :=
  groupOnly s { sw := sw, pr := [x.toNat] } (fun i w => flyPreds d.toNat ((voters i x).length == i.act.length) i w)

/-- The sum of x over lanes, modulo 2^32. -/
def laneSum (i : In) (ls : List Nat) : Word := ls.foldl (fun a l => a + xVal i l) 0#32

/-- RSUMI (16 R311): the integer sum. -/
def execRsumi (sw : Bool) (d : BitVec 6) (x : Src) (s : State) : Host.Outcome State Fault Refusal :=
  crossX sw d x s (fun i _ => laneSum i i.act)

/-- RMINI (16 R311): the signed minimum. -/
def execRmini (sw : Bool) (d : BitVec 6) (x : Src) (s : State) : Host.Outcome State Fault Refusal :=
  crossX sw d x s (fun i _ => i.act.foldl (fun a l => iminW a (xVal i l)) 0x7FFFFFFF#32)

/-- RMAXI (16 R311): the signed maximum. -/
def execRmaxi (sw : Bool) (d : BitVec 6) (x : Src) (s : State) : Host.Outcome State Fault Refusal :=
  crossX sw d x s (fun i _ => i.act.foldl (fun a l => imaxW a (xVal i l)) 0x80000000#32)

/-- A value on its way through FP additions: its bits, the counts of the operation that delivered it, and whether any
signalled invalid (16 R312). -/
structure FpNode where
  val : Word
  counts : List Nat
  invalid : Bool
  deriving DecidableEq, Repr

/-- A value that one active lane contributes: a NaN is read as the canonical one, a signalling NaN signals invalid, and
a NaN or an infinity counts as a result of its kind (14 R272, R282, 16 R312). -/
def fpLeaf (w : Word) : FpNode :=
  match fpOf w with
  | .nan sig => { val := 0x7FC00000#32, invalid := sig, counts := [0] }
  | .inf _ => { val := w, invalid := false, counts := [1] }
  | .fin _ _ _ => { val := w, invalid := false, counts := [] }

/-- RNE(left + right) with the counts of the sum. -/
def fpNodeAdd (a b : FpNode) : FpNode :=
  let o := fpAdd .fp32 .rne false (fpOf a.val) (fpOf b.val)
  { val := BitVec.ofNat 32 o.code, counts := o.counts.filter (fun k => k != 27), invalid := a.invalid || b.invalid || o.invalid }

/-- One level of the tree of RSUMF (16 R312). -/
def treeLevel (l : List (Option FpNode)) : List (Option FpNode) :=
  match l with
  | [] => []
  | [a] => [a]
  | a :: b :: rest =>
    (match a, b with
      | some x, some y => some (fpNodeAdd x y)
      | some x, none => some x
      | none, y => y) :: treeLevel rest

/-- The root of the tree after the given number of levels. -/
def treeRoot (levels : Nat) (l : List (Option FpNode)) : Option FpNode :=
  match levels with
  | 0 => (l.head?).getD none
  | n + 1 => treeRoot n (treeLevel l)

/-- The tree sum of 16 R312 over the group's lanes. -/
def treeSum (i : In) : FpNode :=
  (treeRoot 6 ((upto i.l.alloc.w).map (fun l => if i.act.contains l then some (fpLeaf (xVal i l)) else none))).getD
    (fpLeaf 0#32)

/-- Counts as effects of the chunk, with one invalid signal when there is one. -/
def nodeCounts (n : FpNode) : List Eff :=
  n.counts.map (fun k => Eff.count k 1) ++ (if n.invalid then [Eff.count 27 1] else [])

/-- RSUMF (16 R312): the FP32 tree sum, its root counted once. -/
def execRsumf (sw : Bool) (d : BitVec 6) (x : Src) (s : State) : Host.Outcome State Fault Refusal :=
  groupOnly s { sw := sw, x := some x, v := [d.toNat] }
    (fun i w =>
      if i.act.isEmpty then w
      else
        let r := treeSum i
        addEffs (flyLanes d.toNat (fun _ => r.val) i (onRegs w (releaseSources i i.act))) (nodeCounts r))

/-- SCANI (16 R311): the inclusive prefix sum. -/
def execScani (sw : Bool) (d : BitVec 6) (x : Src) (s : State) : Host.Outcome State Fault Refusal :=
  crossX sw d x s (fun i l => laneSum i (i.act.filter (fun j => decide (j ≤ l))))

/-- The prefix sums of SCANF in ascending lanes (16 R312); each step's own signal. -/
def scanNodes (i : In) : List (Nat × FpNode) :=
  (i.act.foldl (fun (acc : List (Nat × FpNode) × Option FpNode) l =>
    let n := match acc.2 with
      | none => fpLeaf (xVal i l)
      | some p => fpNodeAdd { p with invalid := false } (fpLeaf (xVal i l))
    (acc.1 ++ [(l, n)], some n)) ([], none)).1

/-- SCANF (16 R312): the sequential FP32 prefix sum. -/
def execScanf (sw : Bool) (d : BitVec 6) (x : Src) (s : State) : Host.Outcome State Fault Refusal :=
  groupOnly s { sw := sw, x := some x, v := [d.toNat] }
    (fun i w =>
      let ns := scanNodes i
      let w1 := ns.foldl (fun w e => flyOut w 0 (64 * e.1 + d.toNat) e.2.val) (onRegs w (releaseSources i i.act))
      addEffs w1 (ns.flatMap (fun e => nodeCounts e.2)))

/-- SCANXI (16 R311): the exclusive prefix sum. -/
def execScanxi (sw : Bool) (d : BitVec 6) (x : Src) (s : State) : Host.Outcome State Fault Refusal :=
  crossX sw d x s (fun i l => laneSum i (i.act.filter (fun j => decide (j < l))))

/-- MATCH (16 R311): the mask of the active lanes with the same bits. -/
def execMatchx (sw : Bool) (d : BitVec 5) (x : Src) (s : State) : Host.Outcome State Fault Refusal :=
  groupOnly s { sw := sw, x := some x, v := [2 * d.toNat, 2 * d.toNat + 1] }
    (fun i w =>
      let m := fun (l : Nat) => maskOf (i.act.filter (fun j => xVal i j == xVal i l))
      let w1 := onRegs w (releaseSources i i.act)
      flyLanes (2 * d.toNat + 1) (fun l => hiWord (m l)) i (flyLanes (2 * d.toNat) (fun l => loWord (m l)) i w1))

/-- POPM (16 R311): how many active lanes have the predicate set. -/
def execPopm (sw : Bool) (d : BitVec 6) (x : BitVec 3) (s : State) : Host.Outcome State Fault Refusal :=
  crossP sw d x s (fun i _ => BitVec.ofNat 32 (voters i x).length)

/-- FIRST (16 R311): x of the lowest active lane. -/
def execFirst (sw : Bool) (d : BitVec 6) (x : Src) (s : State) : Host.Outcome State Fault Refusal :=
  crossX sw d x s (fun i _ => xVal i (i.act.headD 0))

/-- CMPCT (16 R313): how many active lanes with the predicate set have a lower logical thread identifier. -/
def execCmpct (sw : Bool) (d : BitVec 6) (x : BitVec 3) (s : State) : Host.Outcome State Fault Refusal :=
  crossP sw d x s (fun i l => BitVec.ofNat 32
    ((voters i x).filter (fun j => decide ((laneAt i.g.regs j).ltid < (laneAt i.g.regs l).ltid))).length)

end Sys2Proof.Machine
end

