-- ==== Sys2Proof/Machine/Engine.lean ====
section
/-! DEFINITION. Engine control by groups, major 26 (11 R238-R241, R257-R260). -/

namespace Sys2Proof.Machine

/-- FORKC and FORKL (11 R239): a program of a section enqueued on a unit when the chunk commits; every thread's part
ends after it. -/
def forkBody (unit : Nat) (words : In → List Word) (i : In) (w : Work) : Work :=
  match i.act with
  | [] => w
  | l :: _ =>
    let off := xVal i l
    if off.toNat % 4 != 0 || decide (4 * (words i).length ≤ off.toNat) then setFates w i.act (.trap 1 off)
    else
      let w1 := addEffs (onRegs w (releaseSources i i.act)) [.fork unit off.toNat]
      let w2 := if unit < 4 then w1 else onRegs w1 (fun c => { c with unjoined := once (c.unjoined ++ [unit]) })
      setFates w2 i.lanes .nextEnd

/-- FORKC (11 R239): a copy program on a copy queue. -/
def execForkc (sw : Bool) (q : BitVec 2) (x : Src) (s : State) : Host.Outcome State Fault Refusal :=
  groupOnly s { sw := sw, x := some x, low := true } (forkBody q.toNat (fun i => i.l.copy))

/-- FORKL (11 R239): a lattice program on a lattice. -/
def execForkl (sw : Bool) (l : BitVec 1) (x : Src) (s : State) : Host.Outcome State Fault Refusal :=
  groupOnly s { sw := sw, x := some x, low := true } (forkBody (4 + l.toNat) (fun i => i.l.latt))

/-- RDV (11 R239): ends the parts; the group's next chunk starts only when its forks on the unit have ended, those of
the same chunk excepted, which commit with it and not before. -/
def execRdv (sw : Bool) (u : BitVec 3) (s : State) : Host.Outcome State Fault Refusal :=
  groupOnly s { sw := sw }
    (fun i w =>
      if i.act.isEmpty then w
      else
        let mine := total (i.g.cur.toList.map (forksOn u.toNat))
        let before := (i.g.forks.filter (fun f => f.unit == u.toNat)).length + total (i.g.inflight.map (forksOn u.toNat))
        setFates (onRegs w (fun c => { c with
          joining := c.joining ++ [(u.toNat, before)],
          unjoined := if mine = 0 then c.unjoined.filter (fun k => k != u.toNat) else c.unjoined })) i.lanes .nextEnd)

/-- ERSET (11 R240): an engine register from the pair of the lowest active lane, effective at commit. -/
def execErset (sw : Bool) (n : BitVec 5) (q : BitVec 2) (y : BitVec 5) (uy : Use) (s : State) :
    Host.Outcome State Fault Refusal :=
  groupOnly s { sw := sw, y := some (pairSrc y uy), pairY := true, low := true }
    (fun i w =>
      match i.act with
      | [] => w
      | l :: _ =>
        let w1 := access w [] [engineInput i.t (coreIndex i.g i.t) q.toNat n.toNat]
        addEffs (onRegs w1 (releaseSources i i.act)) [.erset q.toNat n.toNat (dword (yVal i l) (yVal2 i l))])

/-- ERGET (11 R240): an engine register to a pair, in the group's view, at fixed latency. -/
def execErget (sw : Bool) (d : BitVec 5) (q : BitVec 2) (n : BitVec 5) (s : State) : Host.Outcome State Fault Refusal :=
  groupOnly s { sw := sw, v := [2 * d.toNat + 1] }
    (fun i w =>
      let k := coreIndex i.g i.t
      let v := viewEreg i.g i.t k q.toNat n.toNat
      let w1 := if i.act.isEmpty then w else access w [engineInput i.t k q.toNat n.toNat] []
      onRegs w1 (fun c =>
        writeLanes (2 * d.toNat + 1) (fun _ => hiWord v) i (writeLanes (2 * d.toNat) (fun _ => loWord v) i c)))

/-- The element size of a record type (11 R258). -/
def elemSize (type : Nat) : Nat := if type == 4 || type == 5 then 2 else if type == 6 || type == 7 then 4 else 1

/-- A 64-bit number in two's complement. -/
def int64 (v : Nat) : Int := if v < 2 ^ 63 then v else (v : Int) - 2 ^ 64

/-- The shape record in 64 bytes, when its fields are within 11 R258. -/
def parseShape (bs : List Byte) : Option Shape :=
  let n := fun (off size : Nat) => leNat ((bs.drop off).take size)
  let dims := (upto 4).map (fun k => n (4 + 4 * k) 4)
  let strides := (upto 4).map (fun k => int64 (n (24 + 8 * k) 8))
  let ndim := n 1 1
  let ok := decide (n 0 1 ≤ 8) && decide (1 ≤ ndim) && decide (ndim ≤ 4) && decide (n 2 1 ≤ 1) &&
    (n 2 1 == 0 || decide (n 3 1 ≤ 15)) && dims.all (fun d => decide (1 ≤ d)) &&
    (dims.drop ndim).all (fun d => d == 1) && n 20 4 == 0 && strides.all (fun x => x % elemSize (n 0 1) == 0)
  if ok then
    some { type := n 0 1, ndim := ndim, space := n 2 1, extent := n 3 1, dims := dims, strides := strides, base := n 56 8 }
  else none

/-- The slot an HLOAD takes with the generation it gets, when the load succeeds (11 R259). -/
def hloadSlot (i : In) (k : Nat) : Option Nat :=
  match tget i.s.parts i.l.part with
  | none => none
  | some p =>
    let x := viewSlot i.g i.g.team p k
    let mine := x.owner == some i.g.team
    let moved := i.t.cluster != i.t.logicalCluster
    if k / 256 == i.t.logicalCluster && (mine || (x.owner.isNone && !moved)) then
      some (if x.gen = 0xFFFFF then 1 else x.gen + 1)
    else none

/-- HLOAD (11 R259): once per issue set, for the lowest active lane; the handle or 0 to each active lane. -/
def execHload (sw : Bool) (d : BitVec 6) (x y : Src) (s : State) : Host.Outcome State Fault Refusal :=
  groupOnly s { sw := sw, x := some x, y := some y, v := [d.toNat], low := true }
    (fun i w =>
      match i.act with
      | [] => w
      | l :: _ =>
        let a := xVal i l
        match checkLocal i.s i.t i.l a 64 64 with
        | .error e => setFates w i.act (.trap e.1 e.2)
        | .ok p =>
          let k := (yVal i l).toNat
          let r := (parseShape (lmemBytes i.s i.g p 64)).bind (fun sh => (hloadSlot i k).map (fun g => (sh, g)))
          let slot := if k < 4096 then [slotInput k] else []
          let w1 := onRegs (access w (lineInputs a.toNat 64 ++ slot) (if r.isSome then slot else [])) (releaseSources i i.act)
          match r with
          | none => flyLanes d.toNat (fun _ => 0#32) i w1
          | some (sh, g) =>
            flyLanes d.toNat (fun _ => BitVec.ofNat 32 (k * 2 ^ 20 + g)) i (addEffs w1 [.hload k g sh]))

/-- HDROP (11 R260): frees the slot of a valid handle at commit, once per issue set; the slot's word is read in any case
(11 R257). -/
def execHdrop (sw : Bool) (x : Src) (s : State) : Host.Outcome State Fault Refusal :=
  groupOnly s { sw := sw, x := some x, low := true }
    (fun i w =>
      match i.act with
      | [] => w
      | l :: _ =>
        let h := xVal i l
        let k := h.toNat / 2 ^ 20
        match handleShape i h with
        | none => setFates (access w [slotInput k] []) i.act (.trap 10 h)
        | some _ =>
          addEffs (onRegs (access w [slotInput k] [slotInput k]) (releaseSources i i.act)) [.hdrop k])

/-- The status of a group's most recent fork on a unit in its view (11 R241). -/
def forkStatus (g : Group) (u : Nat) : Nat :=
  if (ownEffs g).any (fun e => match e with | .fork v _ => v == u | _ => false) then 1
  else (((g.forks.filter (fun f => f.unit == u)).getLast?).map (·.status)).getD 2

/-- ESTAT (11 R241). -/
def execEstat (sw : Bool) (d : BitVec 6) (u : BitVec 3) (s : State) : Host.Outcome State Fault Refusal :=
  groupOnly s { sw := sw, v := [d.toNat] }
    (fun i => regsBody (writeLanes d.toNat (fun _ => BitVec.ofNat 32 (forkStatus i.g u.toNat))) i)

end Sys2Proof.Machine
end

