-- ==== Sys2Proof/Machine/Gred.lean ====
section
/-! DEFINITION. Global reductions, major 16, and the folds that deliver them (09 R206-R209). -/

namespace Sys2Proof.Machine

/-- FOLD(a, b) of a function with what the fold counts when it delivers a result (09 R207). -/
def foldRed (fn : Nat) (a b : DWord) : DWord × List Nat :=
  let x := loWord a
  let y := loWord b
  let w := fun (v : Word) => (dword v 0#32, ([] : List Nat))
  let o := fun (v : FpOut) => (dword (outWord v) 0#32, v.counts)
  match fn with
  | 0 => w (x + y)
  | 1 => o (fpAdd .fp32 .rne false (fpOf x) (fpOf y))
  | 2 => w (iminW x y)
  | 3 => w (imaxW x y)
  | 4 => o (fpMinMax .fp32 false x.toNat y.toNat)
  | 5 => o (fpMinMax .fp32 true x.toNat y.toNat)
  | 6 => w (x &&& y)
  | 7 => w (x ||| y)
  | 8 => w (x ^^^ y)
  | 9 => o (halves (fun p q => fpAdd .bf16 .rne false (decodeFp .bf16 p) (decodeFp .bf16 q)) x y)
  | _ => (a + b, [])

/-- The entries of a team in the buffers of one of its cores, those of groups that have retired in the phase included
(09 R209); the key names the core (09 R208). -/
def coreEntries (s : State) (g : Group) (t : Team) : List Entry :=
  s.gred.filter (fun e => e.team == g.team && e.keys.headD 0 == t.logicalCore + coreIndex g t)

/-- The groups of a team on a core. -/
def coreGroups (s : State) (g : Group) : Table Group := s.groups.filter (fun e => e.2.team == g.team && e.2.core == g.core)

/-- The entries that a team may hold on a group's core (09 R209): 128 for each of its groups there, retired ones with
entries included, and its spill area. -/
def gredCapacity (s : State) (g : Group) (t : Team) (l : Launch) : Nat :=
  128 * (once ((coreGroups s g).map (·.1) ++ (coreEntries s g t).map (·.group))).length + spillOf l.lm / 32

/-- The key of a contribution. -/
abbrev GredKey := Nat × Nat × Nat

/-- The keys of contributions among effects. -/
def gredKeys (es : List Eff) : List GredKey :=
  es.filterMap (fun e => match e with | .gred n off fn _ => some (n, off, fn) | _ => none)

/-- The keys of a group's entries in the atomic buffer. -/
def entryKeys (s : State) (gid : Nat) : List GredKey :=
  (s.gred.filter (fun e => e.group == gid)).map (fun e => (e.ext, e.off, e.fn))

/-- Each key once. -/
def onceKeys (l : List GredKey) : List GredKey :=
  (l.foldl (fun acc a => if acc.contains a then acc else a :: acc) []).reverse

/-- The entries and reservations that the team holds on the group's core (09 R209). In an ordered launch the other groups
count by what they have committed only, so that the point of overflow is the same on every run (08 R184; DEDUCED, log 156). -/
def gredUsed (s : State) (l : Launch) (gid : Nat) (g : Group) (t : Team) : Nat :=
  (coreEntries s g t).length + total (((coreGroups s g).filter (fun e => e.1 == gid || !ordered l)).map (fun e =>
    ((onceKeys (gredKeys (ownEffs e.2))).filter (fun k => !(entryKeys s e.1).contains k)).length))

/-- What becomes of each active lane of a GRED (09 R207): a contribution or a trap; and whether each new key fits. -/
def gredLanes (fn size n : Nat) (val : Nat → DWord) (i : In) : List Eff × Table (Nat × Word) × List Judged :=
  let cap := gredCapacity i.s i.g i.t i.l
  let have0 := entryKeys i.s i.gid ++ gredKeys (ownEffs i.g)
  let used := gredUsed i.s i.l i.gid i.g i.t
  let r := i.act.foldl (fun (acc : List Eff × Table (Nat × Word) × List GredKey) l =>
    let x := xVal i l
    let off := x.toNat * size
    let key : GredKey := (n, off, fn)
    match tget i.l.extents n with
    | none => (acc.1, acc.2.1 ++ [(l, (4, x))], acc.2.2)
    | some e =>
      if e.access / 4 % 2 = 0 || decide (e.len < off + size) then (acc.1, acc.2.1 ++ [(l, (4, x))], acc.2.2)
      else if have0.contains key || acc.2.2.contains key then (acc.1 ++ [.gred n off fn (val l)], acc.2.1, acc.2.2)
      else if used + acc.2.2.length < cap then (acc.1 ++ [.gred n off fn (val l)], acc.2.1, acc.2.2 ++ [key])
      else (acc.1, acc.2.1 ++ [(l, (11, 0#32))], acc.2.2)) ([], [], [])
  let unfit := (r.2.1.filter (fun e => e.2.1 == 11)).length
  (r.1, r.2.1, r.2.2.map (fun _ => .entry true) ++ (upto unfit).map (fun _ => .entry false))

/-- The effect of a GRED. -/
def gredBody (fn size n : Nat) (wide : Bool) (i : In) (w : Work) : Work :=
  let val := fun (l : Nat) => dword (yVal i l) (if wide then yVal2 i l else 0#32)
  let r := gredLanes fn size n val i
  let bad := r.2.1.map (·.1)
  trapLanes (judge i r.2.2 (addEffs (onRegs w (releaseSources i (i.act.filter (fun l => !bad.contains l)))) r.1)) r.2.1

/-- A GRED of one word. -/
def gredXY (sw : Bool) (n : BitVec 4) (x y : Src) (s : State) (fn : Nat) : Host.Outcome State Fault Refusal :=
  groupOnly s { sw := sw, x := some x, y := some y } (gredBody fn 4 n.toNat false)

/-- GRED.RADDI (09 R207): integer add. -/
def execGredRaddi (sw : Bool) (n : BitVec 4) (x y : Src) (s : State) : Host.Outcome State Fault Refusal :=
  gredXY sw n x y s 0

/-- GRED.RADDF (09 R207): FP32 add. -/
def execGredRaddf (sw : Bool) (n : BitVec 4) (x y : Src) (s : State) : Host.Outcome State Fault Refusal :=
  gredXY sw n x y s 1

/-- GRED.RMINI (09 R207): signed minimum. -/
def execGredRmini (sw : Bool) (n : BitVec 4) (x y : Src) (s : State) : Host.Outcome State Fault Refusal :=
  gredXY sw n x y s 2

/-- GRED.RMAXI (09 R207): signed maximum. -/
def execGredRmaxi (sw : Bool) (n : BitVec 4) (x y : Src) (s : State) : Host.Outcome State Fault Refusal :=
  gredXY sw n x y s 3

/-- GRED.RMINF (09 R207): FP32 minimum. -/
def execGredRminf (sw : Bool) (n : BitVec 4) (x y : Src) (s : State) : Host.Outcome State Fault Refusal :=
  gredXY sw n x y s 4

/-- GRED.RMAXF (09 R207): FP32 maximum. -/
def execGredRmaxf (sw : Bool) (n : BitVec 4) (x y : Src) (s : State) : Host.Outcome State Fault Refusal :=
  gredXY sw n x y s 5

/-- GRED.RAND (09 R207): AND. -/
def execGredRand (sw : Bool) (n : BitVec 4) (x y : Src) (s : State) : Host.Outcome State Fault Refusal :=
  gredXY sw n x y s 6

/-- GRED.ROR (09 R207): OR. -/
def execGredRor (sw : Bool) (n : BitVec 4) (x y : Src) (s : State) : Host.Outcome State Fault Refusal :=
  gredXY sw n x y s 7

/-- GRED.RXOR (09 R207): exclusive OR. -/
def execGredRxor (sw : Bool) (n : BitVec 4) (x y : Src) (s : State) : Host.Outcome State Fault Refusal :=
  gredXY sw n x y s 8

/-- GRED.RADDB2 (09 R207): packed BF16 add. -/
def execGredRaddb2 (sw : Bool) (n : BitVec 4) (x y : Src) (s : State) : Host.Outcome State Fault Refusal :=
  gredXY sw n x y s 9

/-- GRED.RADDI64 (09 R207): 64-bit integer add of a register pair. -/
def execGredRaddi64 (sw : Bool) (n : BitVec 4) (x : Src) (y : BitVec 5) (uy : Use) (s : State) :
    Host.Outcome State Fault Refusal :=
  groupOnly s { sw := sw, x := some x, y := some (pairSrc y uy), pairY := true } (gredBody 10 8 n.toNat true)

end Sys2Proof.Machine
end

