-- ==== Sys2Proof/Machine/Exchange.lean ====
section
/-! DEFINITION. What sequencers share, and the memory of an exchange: which program runs, the places that references
name, reads that see only joined writes, and the writes, folds and joins that the boundary applies at its close
(11 R235-R244, 10 R222-R228). -/

namespace Sys2Proof.Machine

/-- The running program of a unit with its team and launch. -/
structure Seq where
  s : State
  core : Nat
  unit : Nat
  p : Prog
  t : Team
  l : Launch
  deriving Repr

/-- The running program of a unit. -/
def seqAt (s : State) (core unit : Nat) : Option Seq :=
  match (engineAt s core unit).run with
  | none => none
  | some p =>
    match anyTeam s p.team with
    | none => none
    | some t =>
      match tget s.launches t.launch with
      | none => none
      | some l => some { s := s, core := core, unit := unit, p := p, t := t, l := l }

/-- A word of a copy or lattice sequencer, run for the program on its unit. -/
def seqIssue (s : State) (lat : Bool) (f : Seq → State) : Host.Outcome State Fault Refusal :=
  sequencerOnly s lat (fun s core unit =>
    match seqAt s core unit with
    | none => s
    | some q => f q)

/-- Puts the running program back. -/
def setProg (s : State) (core unit : Nat) (p : Prog) : State := setEngine s core unit { engineAt s core unit with run := some p }

/-- The program after an operation that goes on at the next word. -/
def nextWord (p : Prog) : Prog := { p with pc := p.pc + 4, index := p.index + 1 }

/-- Completes an operation that changes the program only. -/
def seqGo (q : Seq) (f : Prog → Prog) : State := setProg q.s q.core q.unit (nextWord (f q.p))

/-- Completes an operation that changed the state. -/
def seqDone (q : Seq) (s : State) : State := setProg s q.core q.unit (nextWord q.p)

/-- Ends the program at this operation with a status (11 R241, R242). -/
def seqFail (q : Seq) (status : Nat) : State := endProgram q.s q.core q.unit status q.p.pc q.s.issue.word

/-- The word of its section at which a program stands (04 R90). -/
def progWord (q : Seq) : Word :=
  sectionWord (match q.p.kind with
    | .copy => q.l.copy
    | .exchange => q.l.exch
    | .lattice => q.l.latt) q.p.pc

/-- Ends the program at the operation that an event of the unit finishes (04 R90, 11 R241). -/
def seqStop (q : Seq) (status : Nat) : State := endProgram q.s q.core q.unit status q.p.pc (progWord q)

/-- Pushes the address of the next word on the loop stack (11 R255, 18 R361). -/
def loopPush (q : Seq) : State :=
  if q.p.loops.length ≥ 4 then seqFail q 3 else seqGo q (fun p => { p with loops := (p.pc + 4) :: p.loops })

/-- NEXT on a counter: the count after the decrement, and where the program goes on (11 R255, 18 R361). -/
def loopNext (q : Seq) (count : Nat) (put : Prog → Nat → Prog) : State :=
  match q.p.loops with
  | [] => seqFail q 3
  | top :: rest =>
    let n := count - 1
    let p := put q.p n
    if n > 0 then setProg q.s q.core q.unit { p with pc := top, index := p.index + 1 }
    else setProg q.s q.core q.unit (nextWord { p with loops := rest })

/-- Whether the program runs in an exchange. -/
def Seq.exch (q : Seq) : Bool := q.p.kind == .exchange

/-- The compute die of a core (01 R12). -/
def dieOf (core : Nat) : Nat := core / 128

/-- The logical number of a physical core in its cluster (02 R39). -/
def logicalCore (s : State) (core : Nat) : Nat := (tgetD s.dev.cores (core / 64) []).idxOf (core % 64)

/-- The physical core of a cluster and logical core (02 R39). -/
def physicalCore (s : State) (c k : Nat) : Option Nat := ((tgetD s.dev.cores c [])[k]?).map (fun j => 64 * c + j)

/-- The physical lattice of a core and logical lattice, when it exists (18 R341). -/
def physicalLattice (s : State) (core l : Nat) : Option Nat := (tgetD s.dev.lats core [])[l]?

/-! ### References (11 R243, R244) -/

/-- The kinds of a memory reference. -/
inductive RefKind where
  | loc
  | glob
  deriving DecidableEq, Repr

/-- Where a reference leads: local memory at a physical address, or global memory at a unified address. -/
inductive Place where
  | loc (phys : Nat)
  | glob (addr : Nat)
  deriving DecidableEq, Repr

/-- The form of an L-ref or G-ref: bits that are not listed are 0 and the address is a multiple of 4. -/
def refForm (k : RefKind) (v : DWord) : Bool :=
  (match k with
    | .loc => decide (v.toNat < 2 ^ 36)
    | .glob => decide (v.toNat < 2 ^ 52)) && v.toNat % 4 == 0

/-- The cluster-local address of an L-ref. -/
def refAddr (v : DWord) : Nat := v.toNat % 2 ^ 32

/-- The logical cluster of an L-ref. -/
def refCluster (v : DWord) : Nat := v.toNat / 2 ^ 32 % 16

/-- Local bytes that a program may touch: in its team's windows in a compute phase, in an allocation of a team of its
launch, the spill area excluded, in an exchange (11 R244). -/
def locate (q : Seq) (c addr n : Nat) : Option Nat :=
  if addr ≥ 2 ^ 27 then none
  else if q.exch then
    translateIn ((tvals q.s.teams ++ tvals q.s.retired).filter (fun u =>
      u.launch == q.t.launch && u.logicalCluster == c && !u.cores.isEmpty)) (q.l.lm - spillOf q.l.lm) addr n
  else if c == q.t.logicalCluster then translate q.s q.t q.l addr n
  else none

/-- Global bytes of a declared extent, with one of the access bits needed (11 R244). DESIGN CHOICE (log entry 122): a
transfer that names extent 15, where a launch binds it for its commit log (08 R187), performs like any other. -/
def globalAt (q : Seq) (ext off n need : Nat) : Option Nat :=
  match tget q.l.extents ext with
  | none => none
  | some e => if (e.access &&& need) != 0 && decide (off + n ≤ e.len) then some (e.base + off) else none

/-- The place of a reference of n bytes. -/
def placeOf (q : Seq) (k : RefKind) (v : DWord) (n need : Nat) : Option Place :=
  match k with
  | .loc => (locate q (refCluster v) (refAddr v) n).map Place.loc
  | .glob => (globalAt q (v.toNat / 2 ^ 48) (v.toNat % 2 ^ 48) n need).map Place.glob

/-- A control word: its op and len, when no other bit is set (11 R243). -/
def controlWord (v : DWord) : Option (Nat × Nat) :=
  if v.toNat < 2 ^ 48 then some (v.toNat / 2 ^ 32, v.toNat % 2 ^ 32) else none

/-- The limits of a byte count (11 R244). -/
def lenFits (n : Nat) : Bool := n % 4 == 0 && decide (n ≤ 2 ^ 24)

/-! ### Reads of an exchange (10 R223, 11 R237) -/

/-- A queue as exchange bookkeeping names it. -/
def Seq.key (q : Seq) : Nat := q.core * 8 + q.unit

/-- The exchange in progress in the program's partition. -/
def Seq.exchange (q : Seq) : Exch := ((tget q.s.parts q.l.part).map (·.exchange)).getD {}

/-- Changes the exchange in progress of a partition. -/
def onExchange (s : State) (part : Nat) (f : Exch → Exch) : State :=
  { s with parts := tmod s.parts part (fun p => { p with exchange := f p.exchange }) }

/-- Notes that a writer wrote pages of a partition (10 R227). -/
def noteWriter (s : State) (part : Nat) (pages : List Nat) (who : Nat) : State :=
  onExchange s part (fun e => { e with
    wrotePages := e.wrotePages ++ (pages.map (fun g => (g, who))).filter (fun r => !e.wrotePages.contains r) })

/-- Notes words of global memory as they are before step 1 of a boundary first writes them (10 R226). -/
def noteBefore (s : State) (part : Nat) (words : List Nat) : State :=
  onExchange s part (fun e => { e with
    before := words.foldl (fun t a => if (tget t a).isSome then t else tput t a (mword s.gmem a)) e.before })

/-- The pages that a run of n bytes meets. -/
def runPages (a n : Nat) : List Nat :=
  if n = 0 then []
  else (upto ((a + n - 1) / Config.pageBytes - a / Config.pageBytes + 1)).map (fun k => a / Config.pageBytes + k)

/-- Whether a write is ordered before an event of a queue with that queue's place and joins (10 R223). -/
def orderedBefore (a : XWrite) (queue seq : Nat) (seen : List (Nat × Nat)) : Bool :=
  (a.queue == queue && decide (a.seq < seq)) || seen.any (fun e => e.1 == a.queue && decide (a.seq < e.2))

/-- The write that stands among several: of those that none of them follows, the one of greatest tag (10 R223, R224). -/
def standing (ws : List XWrite) : Option XWrite :=
  let tops := ws.filter (fun w => !ws.any (fun o => o != w && orderedBefore w o.queue o.seq o.seen))
  match tops with
  | [] => none
  | w :: rest => some (rest.foldl (fun a b => if lexLt a.tag b.tag then b else a) w)

/-- The number of a memory space in the exchange's records, and the address. -/
def placeKey (p : Place) : Nat × Nat :=
  match p with
  | .glob a => (0, a)
  | .loc a => (1, a)

/-- A place some bytes on. -/
def placeAdd (p : Place) (k : Nat) : Place :=
  match p with
  | .glob a => .glob (a + k)
  | .loc a => .loc (a + k)

/-- A word of global memory as a die reads it: the home's, or on a NONATOMIC page what the die's replica held, when it has
not taken a write of the last boundary yet (10 R226). -/
def globalWord (s : State) (die addr : Nat) : Word :=
  let replica := match tget s.pages (addr / Config.pageBytes) with
    | some p => p.nonatomic && p.home != die
    | none => false
  BitVec.ofNat 32 (leNat ((upto 4).map (fun k =>
    let here := mread s.gmem (addr + k)
    if replica then ((s.lags.find? (fun x => x.die == die && x.addr == addr + k)).map (·.old)).getD here else here)))

/-- The writes of the exchange to a word that the queue sees. -/
def seenWrites (q : Seq) (p : Place) : List XWrite :=
  let e := q.exchange
  let k := placeKey p
  e.writes.filter (fun w => w.space == k.1 && w.addr == k.2 &&
    orderedBefore w q.key (tgetD e.seqs q.key 0) (tgetD e.joins q.key []))

/-- What a read of a word returns: the standing write among those the queue sees, else the value from before the
exchange; none when that is a lost word (23 R417). -/
def exchangeWord (q : Seq) (p : Place) : Option Word :=
  match standing (seenWrites q p) with
  | some w => some w.val
  | none =>
    match p with
    | .loc a => some (mword q.s.lmem a)
    | .glob a => if q.s.lost.contains a then none else some (globalWord q.s (dieOf q.core) a)

/-- What a read of n words returns. -/
def exchangeWords (q : Seq) (p : Place) (n : Nat) : Option (List Word) :=
  (upto n).foldr (fun k acc =>
    match acc, exchangeWord q (placeAdd p (4 * k)) with
    | some ws, some w => some (w :: ws)
    | _, _ => none) (some [])

/-- Notes the pages of a global read, with the reader's die (10 R228). -/
def noteReads (q : Seq) (p : Place) (n : Nat) (s : State) : State :=
  match p with
  | .loc _ => s
  | .glob a =>
    onExchange s q.l.part (fun e => { e with
      reads := e.reads ++ ((runPages a n).map (fun g => (g, dieOf q.core))).filter (fun r => !e.reads.contains r) })

/-! ### Writes, folds and joins (10 R223, R224, 11 R237, R247) -/

/-- The source tag of the operation (10 R224). -/
def Seq.tag (q : Seq) : List Nat := [q.core / 64, logicalCore q.s q.core, q.unit, q.p.ordinal, q.p.index]

/-- Records writes of words as one operation of the queue. -/
def exchangeWrite (q : Seq) (ws : List (Place × Word)) (s : State) : State :=
  let s1 := onExchange s q.l.part (fun e =>
    let seq := tgetD e.seqs q.key 0
    let seen := tgetD e.joins q.key []
    let new := ws.map (fun w =>
      let k := placeKey w.1
      ({ space := k.1, addr := k.2, val := w.2, tag := q.tag, queue := q.key, seq := seq, seen := seen, team := q.p.team } : XWrite))
    { e with writes := e.writes ++ new, seqs := tput e.seqs q.key (seq + 1) })
  let places := (ws.map (fun w => placeKey w.1)).filter (fun k => k.1 == 0)
  noteWriter s1 q.l.part (once (places.map (fun k => k.2 / Config.pageBytes))) (dieOf q.core)

/-- Words of a run from a place on. -/
def wordRun (p : Place) (ws : List Word) : List (Place × Word) :=
  (upto ws.length).map (fun k => (placeAdd p (4 * k), ws.getD k 0#32))

/-- A set of joins with one more: the greatest extent of each queue. -/
def addJoin (js : List (Nat × Nat)) (j : Nat × Nat) : List (Nat × Nat) :=
  if js.any (fun e => e.1 == j.1) then js.map (fun e => if e.1 == j.1 then (e.1, max e.2 j.2) else e) else js ++ [j]

/-- Joins a queue up to a place, with the joins that it had made: joins are transitive (10 R223). -/
def joinQueue (e : Exch) (me other upTo : Nat) (had : List (Nat × Nat)) : Exch :=
  if me = other then e
  else
    let mine := tgetD e.joins me []
    let all := (((other, upTo) :: had).filter (fun j => j.1 != me)).foldl addJoin mine
    { e with joins := tput e.joins me all }

/-- Counts of a fold or drain apply to the launch at once (14 R283), with the threshold record of 14 R284. -/
def bumpCounter (s : State) (lid i n thr : Nat) : State :=
  match tget s.launches lid with
  | none => s
  | some l =>
    let old := tgetD l.counters i 0
    let new := min (2 ^ 64 - 1) (old + n)
    let s1 := setLaunch s lid { l with counters := tput l.counters i new }
    if thr != 0 && decide (old < 2 ^ thr) && decide (2 ^ thr ≤ new) then
      postEvent s1 l.issuer 11 (sourceOf 0 0) (packPayload [(4, l.number), (1, i), (1, thr), (2, 0), (8, new)])
    else s1

/-- Applies counts raised by a team. -/
def applyCounts (s : State) (tid : Nat) (counts : List (Nat × Nat)) : State :=
  match anyTeam s tid with
  | none => s
  | some t => counts.foldl (fun s c => bumpCounter s t.launch c.1 c.2 ((teamReg t 4).toNat / 2 ^ 8 % 2 ^ 6)) s

/-- The fold of an XRED operation (11 R247), with what it counts. -/
def foldX (op : Nat) (v a b word : Word) : Word × List Nat :=
  let red := fun (fn : Nat) =>
    let r := foldRed fn (dword word 0#32) (dword v 0#32)
    (loWord r.1, r.2)
  match op with
  | 0 => red 0
  | 1 => red 1
  | 2 => red 9
  | 3 => red 2
  | 4 => red 3
  | 5 => red 4
  | 6 => red 5
  | 7 => red 6
  | 8 => red 7
  | 9 => red 8
  | 10 => (v, [])
  | _ =>
    let xs := [fpOf a, fpOf v, fpOf b, fpOf word]
    let o :=
      if xs.any isSnan then invalidOut .fp32
      else if xs.any isNan then nanOut .fp32
      else
        match mulExact (fpOf a) (fpOf v), mulExact (fpOf b) (fpOf word) with
        | some p, some r => addTerms .fp32 .rne false [p, r]
        | _, _ => invalidOut .fp32
    (outWord o, o.counts)

end Sys2Proof.Machine
end

