-- ==== Sys2Proof/Machine/Copy.lean ====
section
/-! DEFINITION. Copy-sequencer instructions, major 28 (11 R242-R255). The switch
marker has no effect on a sequencer (03 R59). -/

namespace Sys2Proof.Machine

/-- Register e<n> of the running program. -/
def ereg (q : Seq) (n : Nat) : DWord := tgetD q.p.e n 0#64

/-- Writes a register as an XALU operation does: the team takes it back at the end (11 R236). -/
def aluReg (q : Seq) (n : Nat) (v : DWord) : State :=
  seqGo q (fun p => { p with e := tput p.e n v, written := if p.written.contains n then p.written else p.written ++ [n] })

/-- Ends the program as an exchange transfer in a compute phase does (08 R169). -/
def exchangeOnly (q : Seq) (f : Seq → State) : State := if q.exch then f q else seqFail q 4

/-- A transfer that reads a lost word kills its team (23 R417). -/
def lostRead (q : Seq) : State := killTeam q.s q.p.team true

/-- An engine chunk of one operation (10 R219): the reads happened now; it waits for its commit. -/
def engineChunk (q : Seq) (reads writes : List Nat) (f : Chunk → Chunk) (mark : Option Bool) : State :=
  let c : Chunk := { uid := q.s.nextId, kind := .engine, endCycle := q.s.cycle }
  let c1 := (enterAccess c reads writes).getD c
  setProg { q.s with nextId := q.s.nextId + 1 } q.core q.unit { q.p with op := some (f c1), mark := mark }

/-- The physical addresses of n bytes at a place: local memory only. -/
def physOf (p : Place) : Nat :=
  match p with
  | .loc a => a
  | .glob a => a

/-- A transfer between two references with a control word: forms, then a length of 0, then the limits of 11 R244. -/
def transferOp (q : Seq) (kd kx : RefKind) (d x y : BitVec 5) (needD needX : Nat) (ops : Nat)
    (act : Seq → Place → Place → Nat → Nat → State) : State :=
  match controlWord (ereg q y.toNat) with
  | none => seqFail q 3
  | some (op, n) =>
    if decide (op ≥ ops) || !refForm kd (ereg q d.toNat) || !refForm kx (ereg q x.toNat) || (op == 11 && decide (y.toNat > 30)) then
      seqFail q 3
    else if n = 0 then seqDone q q.s
    else
      match placeOf q kd (ereg q d.toNat) n needD, placeOf q kx (ereg q x.toNat) n needX with
      | some pd, some px => if lenFits n then act q pd px n op else seqFail q 3
      | _, _ => seqFail q 5

/-- Copies n bytes within an exchange. -/
def exchangeCopy (q : Seq) (dst src : Place) (n : Nat) : State :=
  match exchangeWords q src (n / 4) with
  | none => lostRead q
  | some ws => seqDone q (exchangeWrite q (wordRun dst ws) (noteReads q src n q.s))

/-- XCP (11 R245): within local memory, in either phase. -/
def execXcp (_sw : Bool) (d x y : BitVec 5) (s : State) : Host.Outcome State Fault Refusal :=
  seqIssue s false (fun q =>
    transferOp q .loc .loc d x y 0 0 1 (fun q pd px n _ =>
        if q.exch then exchangeCopy q pd px n
        else if (reservedIn q.s (physOf pd) n).isSome || (reservedIn q.s (physOf px) n).isSome then seqFail q 4
        else
          engineChunk q (lineInputs (refAddr (ereg q x.toNat)) n) (lineInputs (refAddr (ereg q d.toNat)) n)
            (fun c => chunkStore c (physOf pd) (mbytes q.s.lmem (physOf px) n)) none))

/-- The record of a handle for an engine operation, in committed state (11 R260). -/
def engineShape (q : Seq) (h : Nat) : Option Shape :=
  match tget q.s.parts q.l.part with
  | none => none
  | some p =>
    let x := tgetD p.slots (h / 2 ^ 20) {}
    if h != 0 && x.owner == some q.p.team && x.gen == h % 2 ^ 20 then x.shape else none

/-- The source addresses of a transposing copy, in destination order: (j × rows + i) for column j and row i (11 R246). -/
def transposed (sh : Shape) : List Int :=
  let cols := sh.dims.getD 0 1
  let rows := sh.dims.getD 1 1
  (upto cols).flatMap (fun (j : Nat) => (upto rows).map (fun (i : Nat) =>
    (sh.base : Int) + i * sh.strides.getD 1 0 + j * sh.strides.getD 0 0))

/-- The bytes of a place with the exchange's writes seen: one element of 1 or 2 bytes. -/
def exchangeBytes (q : Seq) (a n : Nat) : List Byte :=
  (upto n).map (fun k =>
    let w := (exchangeWord q (.loc ((a + k) / 4 * 4))).getD 0#32
    BitVec.ofNat 8 (w.toNat / 2 ^ (8 * ((a + k) % 4))))

/-- XCPT (11 R246): the transposing copy through a handle. DESIGN CHOICE (log entry 125): a handle register whose bits
[63:32] are not 0 ends the program with ENGINE_ILLEGAL. DESIGN CHOICE (log entry 126): each element of the strided source
is located by itself (11 R244), and one that is nowhere ends the program with BOUND. -/
def execXcpt (_sw : Bool) (d x : BitVec 5) (s : State) : Host.Outcome State Fault Refusal :=
  seqIssue s false (fun q =>
    let dst := ereg q d.toNat
    let h := (ereg q x.toNat).toNat
    if !refForm .loc dst || decide (h ≥ 2 ^ 32) then seqFail q 3
    else
      match engineShape q h with
      | none => seqFail q 6
      | some sh =>
        let e := elemSize sh.type
        let n := sh.dims.getD 1 1 * sh.dims.getD 0 1 * e
        if sh.space != 0 || !(sh.dims.drop 2).all (fun k => k == 1) || decide (e > 2) || sh.type == 8 then seqFail q 3
        else
          let addrs := transposed sh
          let srcs := addrs.filterMap (fun a => if a < 0 then none else locate q q.t.logicalCluster a.toNat e)
          match locate q (refCluster dst) (refAddr dst) n with
          | none => seqFail q 5
          | some pd =>
            if srcs.length != addrs.length then seqFail q 5
            else if !lenFits n then seqFail q 3
            else if q.exch then
              let bs := srcs.flatMap (fun a => exchangeBytes q a e)
              seqDone q (exchangeWrite q (wordRun (.loc pd) (bytesWords n bs)) q.s)
            else if (reservedIn q.s pd n).isSome || srcs.any (fun a => (reservedIn q.s a e).isSome) then seqFail q 4
            else
              engineChunk q (slotInput (h / 2 ^ 20) :: addrs.flatMap (fun a => lineInputs a.toNat e)) (lineInputs (refAddr dst) n)
                (fun c => chunkStore c pd (srcs.flatMap (fun a => mbytes q.s.lmem a e))) none)

/-- XGET (11 R245). -/
def execXget (_sw : Bool) (d x y : BitVec 5) (s : State) : Host.Outcome State Fault Refusal :=
  seqIssue s false (fun q =>
    exchangeOnly q (fun q => transferOp q .loc .glob d x y 0 3 1 (fun q pd px n _ => exchangeCopy q pd px n)))

/-- XPUT (11 R245). -/
def execXput (_sw : Bool) (d x y : BitVec 5) (s : State) : Host.Outcome State Fault Refusal :=
  seqIssue s false (fun q =>
    exchangeOnly q (fun q => transferOp q .glob .loc d x y 2 0 1 (fun q pd px n _ => exchangeCopy q pd px n)))

/-- Whether D of a local word is 1 in the read view of the queue: before the exchange, or by a write it sees (11 R245). -/
def dirtyInView (q : Seq) (a : Nat) : Bool :=
  (mread q.s.lbits a).getLsbD 1 || !(seenWrites q (.loc a)).isEmpty

/-- XPUTD (11 R245): the words whose D is 1. -/
def execXputd (_sw : Bool) (d x y : BitVec 5) (s : State) : Host.Outcome State Fault Refusal :=
  seqIssue s false (fun q =>
    exchangeOnly q (fun q => transferOp q .glob .loc d x y 2 0 1 (fun q pd px n _ =>
        match exchangeWords q px (n / 4) with
        | none => lostRead q
        | some ws =>
          let all := wordRun pd ws
          let dirty := (upto (n / 4)).filter (fun k => dirtyInView q (physOf px + 4 * k))
          seqDone q (exchangeWrite q (dirty.filterMap (fun k => all[k]?)) q.s))))

/-- XRED (11 R247): contributions that fold at step 3. -/
def execXred (_sw : Bool) (d x y : BitVec 5) (s : State) : Host.Outcome State Fault Refusal :=
  seqIssue s false (fun q =>
    exchangeOnly q (fun q => transferOp q .glob .loc d x y 4 0 12 (fun q pd px n op =>
        match exchangeWords q px (n / 4) with
        | none => lostRead q
        | some ws =>
          let ab := ereg q (y.toNat + 1)
          let new := (upto ws.length).map (fun k =>
            ({ addr := physOf pd + 4 * k, op := op, v := ws.getD k 0#32, a := loWord ab, b := hiWord ab, tag := q.tag, team := q.p.team } : XFold))
          seqDone q (noteWriter (onExchange q.s q.l.part (fun e => { e with folds := e.folds ++ new })) q.l.part
            (once (new.map (fun f => f.addr / Config.pageBytes))) (dieOf q.core)))))

/-- The operands of XGTH and XSCT (11 R248): the element size and the places of the local elements, the index table and
each global element; or the status that ends the program, 0 for a count of 0. -/
def elementRefs (q : Seq) (loc glob : DWord) (y need : Nat) : Except Nat (Nat × Nat × Nat × List Nat) :=
  match controlWord (ereg q y) with
  | none => .error 3
  | some (op, n) =>
    let tab := ereg q (y + 1)
    if (op != 2 && op != 3) || decide (y > 30) || !refForm .loc loc || !refForm .glob glob || !refForm .loc tab then .error 3
    else if n = 0 then .error 0
    else if n > 2 ^ 22 then .error 3
    else
      let size := 2 ^ op
      match locate q (refCluster loc) (refAddr loc) (n * size), locate q (refCluster tab) (refAddr tab) (n * 4) with
      | some pl, some pt =>
        let idx := ((exchangeWords q (.loc pt) n).getD []).map (·.toNat)
        let at_ := idx.map (fun k => globalAt q (glob.toNat / 2 ^ 48) (glob.toNat % 2 ^ 48 + k * size) size need)
        if at_.all Option.isSome then .ok (size, n, pl, at_.filterMap (fun a => a)) else .error 5
      | _, _ => .error 5

/-- XGTH (11 R248). -/
def execXgth (_sw : Bool) (d x y : BitVec 5) (s : State) : Host.Outcome State Fault Refusal :=
  seqIssue s false (fun q =>
    exchangeOnly q (fun q =>
        match elementRefs q (ereg q d.toNat) (ereg q x.toNat) y.toNat 3 with
        | .error st => if st = 0 then seqDone q q.s else seqFail q st
        | .ok (size, _, pl, gs) =>
          let vals := gs.map (fun g => exchangeWords q (.glob g) (size / 4))
          if vals.all Option.isSome then
            let ws := vals.flatMap (fun v => v.getD [])
            let s1 := gs.foldl (fun s g => noteReads q (.glob g) size s) q.s
            seqDone q (exchangeWrite q (wordRun (.loc pl) ws) s1)
          else lostRead q))

/-- Keeps the last of several writes to one place. -/
def lastWrites (ws : List (Place × Word)) : List (Place × Word) :=
  ws.foldl (fun acc w => acc.filter (fun a => a.1 != w.1) ++ [w]) []

/-- XSCT (11 R248): elements apply in ascending order. -/
def execXsct (_sw : Bool) (d x y : BitVec 5) (s : State) : Host.Outcome State Fault Refusal :=
  seqIssue s false (fun q =>
    exchangeOnly q (fun q =>
        match elementRefs q (ereg q x.toNat) (ereg q d.toNat) y.toNat 2 with
        | .error st => if st = 0 then seqDone q q.s else seqFail q st
        | .ok (size, n, pl, gs) =>
          match exchangeWords q (.loc pl) (n * size / 4) with
          | none => lostRead q
          | some ws =>
            let m := size / 4
            let all := (upto n).flatMap (fun k => wordRun (.glob (gs.getD k 0)) ((ws.drop (k * m)).take m))
            seqDone q (exchangeWrite q (lastWrites all) q.s)))

/-- XBC (11 R249): the same local address in every cluster of the mask. -/
def execXbc (_sw : Bool) (d x y : BitVec 5) (s : State) : Host.Outcome State Fault Refusal :=
  seqIssue s false (fun q =>
    exchangeOnly q (fun q =>
        let dst := ereg q d.toNat
        match controlWord (ereg q y.toNat) with
        | none => seqFail q 3
        | some (mask, n) =>
          if mask = 0 || decide (dst.toNat ≥ 2 ^ 32) || !refForm .loc dst || !refForm .glob (ereg q x.toNat) then seqFail q 3
          else if n = 0 then seqDone q q.s
          else
            let cs := (upto 16).filter (fun c => mask / 2 ^ c % 2 = 1)
            let ps := cs.map (fun c => locate q c (refAddr dst) n)
            match placeOf q .glob (ereg q x.toNat) n 3 with
            | none => seqFail q 5
            | some g =>
              if !ps.all Option.isSome then seqFail q 5
              else if !lenFits n then seqFail q 3
              else
                match exchangeWords q g (n / 4) with
                | none => lostRead q
                | some ws =>
                  seqDone q (exchangeWrite q ((ps.filterMap (fun p => p)).flatMap (fun p => wordRun (.loc p) ws))
                    (noteReads q g n q.s))))

/-- The lattice that an N-ref names, owned by a team of the program's launch (11 R243, 18 R349). -/
def nodeRef (q : Seq) (v : Nat) : Option Nat :=
  let c := v / 2 ^ 32 % 16
  match tget q.s.parts q.l.part with
  | none => none
  | some p =>
    if !p.clusters.contains c then none
    else
      match physicalCore q.s c (v / 2 ^ 21 % 64) with
      | none => none
      | some core =>
        match physicalLattice q.s core (v / 2 ^ 13 % 2) with
        | none => none
        | some l =>
          let own := (latticeAt q.s core l).owner.bind (fun tid => (anyTeam q.s tid).map (·.launch))
          if own == some q.t.launch then some (core * 2 + l) else none

/-- The form of an N-ref (11 R243). -/
def nodeForm (v : Nat) : Bool := decide (v < 2 ^ 36) && v / 2 ^ 27 % 2 ^ 5 == 0 && v / 2 ^ 14 % 2 ^ 7 == 0

/-- XLAT (11 R249): node states into ghost slots. -/
def execXlat (_sw : Bool) (d x y : BitVec 5) (s : State) : Host.Outcome State Fault Refusal :=
  seqIssue s false (fun q =>
    exchangeOnly q (fun q =>
        let dst := (ereg q d.toNat).toNat
        let src := (ereg q x.toNat).toNat
        match controlWord (ereg q y.toNat) with
        | none => seqFail q 3
        | some (op, n) =>
          if op != 0 || !nodeForm dst || !nodeForm src then seqFail q 3
          else if n = 0 then seqDone q q.s
          else
            let slot := dst % 2 ^ 13
            let node := src % 2 ^ 13
            if decide (node + n > Config.nodes) || decide (slot + n > 256) then seqFail q 3
            else
              match nodeRef q dst, nodeRef q src with
              | some ld, some ls =>
                let states := (tgetD q.s.lattices ls {}).state
                let new := (upto n).map (fun k =>
                  ({ lat := ld, slot := slot + k, state := tgetD states (node + k) false, tag := q.tag } : XGhost))
                seqDone q (onExchange q.s q.l.part (fun e => { e with ghosts := e.ghosts ++ new }))
              | _, _ => seqFail q 5))

/-- The ports of the program's partition that are up (01 R22). -/
def livePorts (q : Seq) : List Nat :=
  (((tget q.s.parts q.l.part).map (·.ports)).getD []).filter (fun k => !q.s.dev.portDown.contains k)

/-- XFAB (11 R250): sends a fabric write and waits for its acknowledgement; it stands while a stop signal is up. -/
def execXfab (_sw : Bool) (d x y : BitVec 5) (s : State) : Host.Outcome State Fault Refusal :=
  seqIssue s false (fun q =>
    exchangeOnly q (fun q =>
        let dst := (ereg q d.toNat).toNat
        match controlWord (ereg q y.toNat) with
        | none => seqFail q 3
        | some (op, n) =>
          if op != 0 || decide (dst ≥ 2 ^ 62) || dst % 4 != 0 || !refForm .loc (ereg q x.toNat) then seqFail q 3
          else if n = 0 then seqDone q q.s
          else
            match placeOf q .loc (ereg q x.toNat) n 0 with
            | none => seqFail q 5
            | some px =>
              if !lenFits n then seqFail q 3
              else if (livePorts q).isEmpty then seqFail q 5
              else if (livePorts q).any (fun k => q.s.dev.portStop.contains k) then q.s
              else
                let ws := (exchangeWords q px (n / 4)).getD []
                let w : FabWrite := { device := q.s.dev.number, tag := q.tag, part := q.l.part, window := dst / 2 ^ 48 % 16,
                                      offset := dst % 2 ^ 48, data := ws,
                                      sent := (tget q.s.parts q.l.part).bind (fun p => if p.spanTag = 0 then none else some p.boundary) }
                let s1 := { q.s with fabricOut := q.s.fabricOut ++ [(dst / 2 ^ 52, w)] }
                setProg s1 q.core q.unit { q.p with fabWait := true }))

/-- The cluster that a Counter or queue ID may name: the issuing one in a compute phase, one of the partition in an
exchange (11 R244, R252). DESIGN CHOICE (log entry 143): in a compute phase it goes by the number that RDID gives the
team, wherever the team runs now; in an exchange by the present numbering. -/
def clusterNamed (q : Seq) (c : Nat) : Option Nat :=
  if q.exch then
    match tget q.s.parts q.l.part with
    | some p => if p.clusters.contains c then some c else none
    | none => none
  else if c == q.t.logicalCluster then some (q.core / 64) else none

/-- XFEN (11 R252): waits until the queue is idle, then joins it. -/
def execXfen (_sw : Bool) (x : BitVec 5) (s : State) : Host.Outcome State Fault Refusal :=
  seqIssue s false (fun q =>
    let v := (ereg q x.toNat).toNat
    if decide (v ≥ 2 ^ 12) then seqFail q 3
    else
      match (clusterNamed q (v / 2 ^ 8)).bind (fun c => physicalCore q.s c (v / 2 ^ 2 % 64)) with
      | none => seqFail q 5
      | some core =>
        let other := core * 8 + v % 4
        let e := engineAt q.s core (v % 4)
        if other != q.key && (e.run.isSome || !e.list.isEmpty) then q.s
        else if q.exch then
          seqDone q (onExchange q.s q.l.part (fun x => joinQueue x q.key other (tgetD x.seqs other 0) (tgetD x.joins other [])))
        else seqDone q q.s)

/-- The event counter that a Counter names, with its post bit, when its form is right (11 R243). -/
def counterRef (q : Seq) (v : Nat) : Except Nat (Nat × Nat × Bool) :=
  if decide (v ≥ 2 ^ 17) || v / 2 ^ 12 % 2 ^ 4 != 0 || v / 2 ^ 6 % 2 ^ 2 != 0 then .error 3
  else
    match clusterNamed q (v / 2 ^ 8 % 16) with
    | none => .error 5
    | some c => .ok (c, v % 64, v / 2 ^ 16 == 1)

/-- XSIG (11 R253): every earlier operation of the queue has performed when it issues. DESIGN CHOICE (log entry 124): bits
[63:32] of the payload register are ignored. -/
def execXsig (_sw : Bool) (x y : BitVec 5) (s : State) : Host.Outcome State Fault Refusal :=
  seqIssue s false (fun q =>
    match counterRef q (ereg q x.toNat).toNat with
      | .error st => seqFail q st
      | .ok (c, k, post) =>
        let cl := clusterAt q.s c
        let v := tgetD cl.counters k 0#32 + 1#32
        let s1 := setCluster q.s c { cl with counters := tput cl.counters k v }
        let s2 := if q.exch then
            onExchange s1 q.l.part (fun e => { e with
              sigs := e.sigs ++ [(c * 64 + k, q.key, tgetD e.seqs q.key 0, tgetD e.joins q.key [])] })
          else s1
        let id := q.core / 64 * 2 ^ 8 + logicalCore q.s q.core * 2 ^ 2 + q.unit
        let s3 := if post then
            postEvent s2 c 9 (sourceOf 1 (q.core * 4 + q.unit))
              (packPayload [(4, id), (4, (loWord (ereg q y.toNat)).toNat), (4, v.toNat), (4, 0)])
          else s2
        seqDone q s3)

/-- XWTE (11 R253): waits for a threshold, then joins every XSIG that the counter held. DESIGN CHOICE (log entry 124): bits
[63:32] of the threshold register are ignored. -/
def execXwte (_sw : Bool) (x y : BitVec 5) (s : State) : Host.Outcome State Fault Refusal :=
  seqIssue s false (fun q =>
    match counterRef q (ereg q x.toNat).toNat with
      | .error st => seqFail q st
      | .ok (c, k, post) =>
        if post then seqFail q 3
        else if (tgetD (clusterAt q.s c).counters k 0#32).toNat < (loWord (ereg q y.toNat)).toNat then q.s
        else if q.exch then
          seqDone q (onExchange q.s q.l.part (fun e =>
            (e.sigs.filter (fun g => g.1 == c * 64 + k)).foldl (fun e g => joinQueue e q.key g.2.1 g.2.2.1 g.2.2.2) e))
        else seqDone q q.s)

/-- XALU.LI (11 R254). -/
def execXaluLi (_sw : Bool) (d : BitVec 5) (imm : BitVec 12) (s : State) : Host.Outcome State Fault Refusal :=
  seqIssue s false (fun q => aluReg q d.toNat (imm.signExtend 64))

/-- XALU.ADD (11 R254). -/
def execXaluAdd (_sw : Bool) (d x : BitVec 5) (s : State) : Host.Outcome State Fault Refusal :=
  seqIssue s false (fun q => aluReg q d.toNat (ereg q d.toNat + ereg q x.toNat))

/-- XALU.SHL (11 R254). -/
def execXaluShl (_sw : Bool) (d : BitVec 5) (imm : BitVec 12) (s : State) : Host.Outcome State Fault Refusal :=
  seqIssue s false (fun q =>
    if decide (imm.toNat > 63) then seqFail q 3 else aluReg q d.toNat (ereg q d.toNat <<< imm.toNat))

/-- XALU.MUL (11 R254). -/
def execXaluMul (_sw : Bool) (d x : BitVec 5) (s : State) : Host.Outcome State Fault Refusal :=
  seqIssue s false (fun q => aluReg q d.toNat (ereg q d.toNat * ereg q x.toNat))

/-- XBRC.LOOP (11 R255). -/
def execXbrcLoop (_sw : Bool) (s : State) : Host.Outcome State Fault Refusal :=
  seqIssue s false (fun q => loopPush q)

/-- XBRC.NEXT (11 R255). -/
def execXbrcNext (_sw : Bool) (d : BitVec 5) (s : State) : Host.Outcome State Fault Refusal :=
  seqIssue s false (fun q =>
    loopNext q (ereg q d.toNat).toNat (fun p n => { p with e := tput p.e d.toNat (BitVec.ofNat 64 n) }))

/-- XBRC.END (11 R255): the program ends with DONE. -/
def execXbrcEnd (_sw : Bool) (s : State) : Host.Outcome State Fault Refusal :=
  seqIssue s false (fun q => endProgram q.s q.core q.unit 0 q.p.pc q.s.issue.word)

end Sys2Proof.Machine
end

