-- ==== Sys2Proof/Machine/Lattice.lean ====
section
/-! DEFINITION. Sampling lattices, major 27: contents, the update rule, sweeps, the health test and the lattice
sequencer's instructions (18 R341-R361). The switch marker has no effect on a sequencer (03 R59). -/

namespace Sys2Proof.Machine

/-! ### The update rule (18 R343-R346) -/

/-- e^(1/32) in units of 2^-200, by its series. -/
def expUnit : Nat :=
  (upto 40).foldl (fun (acc : Nat × Nat) k => (acc.1 + acc.2, acc.2 / (32 * (k + 1)))) (0, 2 ^ 200) |>.1

/-- b^n in units of 2^-200, by repeated squaring; `fuel` bounds the bits of n. -/
def powFixed (fuel n b acc : Nat) : Nat :=
  match fuel with
  | 0 => acc
  | f + 1 => powFixed f (n / 2) (b * b / 2 ^ 200) (if n % 2 = 1 then acc * b / 2 ^ 200 else acc)

/-- q of 18 R344: 65536 / (1 + e^(-y/32)) rounded to nearest even, at most 65,535. -/
def sigmoidQ (y : Int) : Nat :=
  let e := powFixed 12 y.natAbs expUnit (2 ^ 200)
  let one : Nat := 2 ^ 200
  let num := 65536 * (if y < 0 then one else e)
  min 65535 ((2 * num + (one + e)) / (2 * (one + e)))

/-- The valid entries of a node's stencil: coupling number, whether a ghost, and the value field (18 R343). -/
def nodeEntries (x : Lattice) (i : Nat) : List (Nat × Bool × Nat) :=
  let st := (tgetD x.desc i (0, 0, 0)).2.1
  (upto 32).filterMap (fun j =>
    let e := tgetD x.stencils (32 * st + j) 0
    if e / 2 ^ 15 % 2 = 1 then some (j, e / 2 ^ 14 % 2 = 1, e % 2 ^ 13) else none)

/-- The ghost slot of an entry's value at a node (18 R343). -/
def ghostSlot (x : Lattice) (i v : Nat) : Nat := ((tgetD x.desc i (0, 0, 0)).2.2 + v) % 256

/-- +1 or -1. -/
def spin (b : Bool) : Int := if b then 1 else -1

/-- A ghost slot; one never filled is -1, of age 65,535 and external (18 R341). -/
def ghostAt (x : Lattice) (k : Nat) : Bool × Nat × Option Nat := tgetD x.ghosts k (false, 65535, none)

/-- I of a node (18 R344). -/
def nodeField (x : Lattice) (i : Nat) : Int :=
  (nodeEntries x i).foldl (fun a e =>
    let s := if e.2.1 then (ghostAt x (ghostSlot x i e.2.2)).1 else tgetD x.state ((i + e.2.2) % Config.nodes) false
    a + tgetD x.j (32 * i + e.1) 0 * spin s) (tgetD x.h i 0)

/-- y of a node: the clamped argument of the sigmoid (18 R344). -/
def nodeArg (beta : Nat) (x : Lattice) (i : Nat) : Int := max (-2048) (min 2047 (((beta : Int) * nodeField x i) / 8))

/-- Whether a node takes +1: by CHX in replay mode (18 R345), by a free draw in physical mode (18 R346). -/
def nodeTakes (c : LatCfg) (x : Lattice) (i draw : Nat) : Bool :=
  if c.replay then
    decide ((chx (hiWord x.lkey) (loWord x.lkey) x.ctr (BitVec.ofNat 32 i)).toNat % 2 ^ 16 < sigmoidQ (nodeArg c.beta x i))
  else Config.freeDraw draw

/-- The colours of a sweep's steps (18 R347). -/
def colours (c : LatCfg) (ctr : Word) : List Nat :=
  match c.order with
  | 0 => upto c.ncol
  | 1 => (upto c.ncol).reverse
  | 2 => if ctr.getLsbD 0 then (upto c.ncol).reverse else upto c.ncol
  | _ => c.perm.take c.ncol

/-- The colour of a node. -/
def colourOf (x : Lattice) (i : Nat) : Nat := (tgetD x.desc i (0, 0, 0)).1

/-- The nodes that a step for a colour updates. -/
def stepNodes (x : Lattice) (colour : Nat) : List Nat :=
  (upto Config.nodes).filter (fun i => colourOf x i == colour && !tgetD x.clamp i false)

/-- One colour step: every node of it updates on the states of its start (18 R347). Answers the draws used. -/
def colourStep (c : LatCfg) (x : Lattice) (draw colour : Nat) : Lattice × Nat :=
  let ns := stepNodes x colour
  let new := (upto ns.length).map (fun k => (ns.getD k 0, nodeTakes c x (ns.getD k 0) (draw + k)))
  ({ x with state := new.foldl (fun t e => tput t e.1 e.2) x.state }, if c.replay then 0 else ns.length)

/-- The ghost slots that a sweep refers to (18 R348). -/
def referenced (c : LatCfg) (x : Lattice) : List Nat :=
  once (((colours c x.ctr).flatMap (stepNodes x)).flatMap (fun i =>
    (nodeEntries x i).filterMap (fun e => if e.2.1 then some (ghostSlot x i e.2.2) else none)))

/-- The ages after the start of a sweep (18 R348). -/
def agedGhosts (x : Lattice) : Lattice := { x with ghosts := tmap x.ghosts (fun _ g => (g.1, min 65535 (g.2.1 + 1), g.2.2)) }

/-- Whether a referenced ghost is too old (18 R348). -/
def staleSweep (c : LatCfg) (x : Lattice) : Bool := (referenced c x).any (fun k => decide ((ghostAt x k).2.1 > c.smax))

/-- The end of a sweep: counts, intra-cluster ghosts, sweep_ctr (18 R348, R349). `key` is the lattice itself. -/
def sweepDone (s : State) (key : Nat) (x : Lattice) : Lattice :=
  let counts := (upto Config.nodes).foldl (fun t i =>
    if tgetD x.state i false then tput t i (min 65535 (tgetD x.count i 0 + 1)) else t) x.count
  let source := fun (v : Nat) =>
    if v / Config.nodes = key then tgetD x.state (v % Config.nodes) false
    else tgetD (tgetD s.lattices (v / Config.nodes) {}).state (v % Config.nodes) false
  { x with
    count := counts,
    ghosts := tmap x.ghosts (fun _ g => match g.2.2 with
      | some v => (source v, 0, some v)
      | none => g),
    ctr := x.ctr + 1#32 }

/-- The pairs of a node and a local entry of its own colour that LSWP reports (18 R356). -/
def samePairs (c : LatCfg) (x : Lattice) : Nat :=
  total ((colours c 0#32).map (fun k => total ((stepNodes x k).map (fun i =>
    ((nodeEntries x i).filter (fun e => !e.2.1 && colourOf x ((i + e.2.2) % Config.nodes) == k)).length))))

/-! ### Loads into the lattice (18 R352-R355) -/

/-- Byte k of a number read from memory. -/
def rawByte (raw k : Nat) : Nat := raw / 256 ^ k % 256

/-- n bytes from byte k on. -/
def rawField (raw k n : Nat) : Nat := raw / 256 ^ k % 256 ^ n

/-- A number of n bits in two's complement. -/
def signedField (n v : Nat) : Int := if v < 2 ^ (n - 1) then v else (v : Int) - 2 ^ n

/-- The configuration that 16 bytes give, when they are within the limits of 18 R354. -/
def parseCfg (raw : Nat) : Option LatCfg :=
  let mode := rawByte raw 0
  let order := rawByte raw 1
  let ncol := rawByte raw 2
  let smax := rawField raw 6 2
  let perm := (upto 8).map (fun k => rawByte raw (8 + k))
  let head := perm.take ncol
  let permOk := if order = 3 then
      head.all (fun c => decide (c ≤ 7)) && (once head).length == head.length && (perm.drop ncol).all (fun c => c == 0)
    else perm.all (fun c => c == 0)
  if mode ≤ 1 ∧ order ≤ 3 ∧ 1 ≤ ncol ∧ ncol ≤ 8 ∧ rawByte raw 3 = 0 ∧ 1 ≤ smax ∧ smax ≤ 65534 ∧ permOk = true then
    some { replay := mode = 1, order := order, ncol := ncol, beta := rawField raw 4 2, smax := smax, perm := perm }
  else none

/-- The source that an LGREF word names: none for an external one; an error status for a reference that does not exist
or is not owned by the launch (18 R349, R355). A lattice that its owner has left has none
(DESIGN CHOICE, log entry 153) until a program starts on it again, be it one that a retired team left queued. -/
def ghostSource (s : State) (cluster lid w : Nat) : Except Nat (Option Nat) :=
  if w / 2 ^ 31 = 0 then .ok none
  else
    let node := w % 2 ^ 13
    match (physicalCore s cluster (w / 2 ^ 21 % 64)).bind (fun c => (physicalLattice s c (w / 2 ^ 13 % 2)).map (fun l => (c, l))) with
    | none => .error 3
    | some (c, l) =>
      if node ≥ Config.nodes then .error 3
      else
        let own := (latticeAt s c l).owner.bind (fun tid => (anyTeam s tid).map (·.launch))
        if own == some lid then .ok (some ((c * 2 + l) * Config.nodes + node)) else .error 5

/-- LGREF at its commit (18 R349): all sources at once, or the status that ends the program. DESIGN CHOICE (log entry 151):
a reference that does not exist decides it before one to a lattice of others. -/
def loadSources (s : State) (key cluster lid first count raw : Nat) (x : Lattice) : Except Nat Lattice :=
  let srcs := (upto count).map (fun k => ghostSource s cluster lid (rawField raw (4 * k) 4))
  let bad := srcs.filterMap (fun r => match r with | .error e => some e | .ok _ => none)
  if bad.contains 3 then .error 3
  else if bad.contains 5 then .error 5
  else
    .ok { x with ghosts := (upto count).foldl (fun t k =>
      let g := tgetD t (first + k) (false, 65535, none)
      match srcs.getD k (.ok none) with
      | .ok (some v) =>
        let from_ := if v / Config.nodes = key then x else tgetD s.lattices (v / Config.nodes) {}
        tput t (first + k) (tgetD from_.state (v % Config.nodes) false, 0, some v)
      | _ => tput t (first + k) (g.1, g.2.1, none)) x.ghosts }

/-- The layouts of 18 R355 for the loads of node and stencil items, and LKEY. -/
def loadItems (fn first count raw : Nat) (x : Lattice) : Lattice :=
  let each := fun {α : Type} (t : Table α) (f : Nat → α) => (upto count).foldl (fun t k => tput t (first + k) (f k)) t
  let bit := fun (k : Nat) => raw / 2 ^ k % 2 = 1
  match fn with
  | 1 => { x with desc := each x.desc (fun k =>
      let v := rawField raw (4 * k) 4
      (v % 8, v / 2 ^ 4 % 16, v / 2 ^ 8 % 256)) }
  | 2 => { x with j := (upto (32 * count)).foldl (fun t k =>
      tput t (32 * first + k) (signedField 8 (rawByte raw k))) x.j }
  | 3 => { x with h := each x.h (fun k => signedField 16 (rawField raw (2 * k) 2)) }
  | 4 => { x with state := each x.state (fun k => decide (bit k)) }
  | 6 => { x with clamp := each x.clamp (fun k => decide (bit k)) }
  | 10 => { x with stencils := (upto (32 * count)).foldl (fun t k =>
      tput t (32 * first + k) (rawField raw (2 * k) 2)) x.stencils }
  | 13 => { x with lkey := BitVec.ofNat 64 (raw % 2 ^ 64) }
  | _ => x

/-- What a committed load does to the lattice of its program, or the status that ends the program (18 R352, R354). -/
def loadLattice (s : State) (core unit lid fn first count raw : Nat) : Except Nat State :=
  match physicalLattice s core (unit - 4) with
  | none => .error 5
  | some l =>
    let x := latticeAt s core l
    let key := core * 2 + l
    match fn with
    | 0 =>
      match parseCfg raw with
      | none => .error 3
      | some c => if !c.replay && s.biased.contains key then .error 8 else .ok (setLattice s core l { x with cfg := some c })
    | 11 =>
      match loadSources s key (core / 64) lid first count raw x with
      | .error e => .error e
      | .ok y => .ok (setLattice s core l y)
    | _ => .ok (setLattice s core l (loadItems fn first count raw x))

/-! ### Instructions -/

/-- Register n<k> of the running program. -/
def nreg (q : Seq) (k : Nat) : Word := tgetD q.p.n k 0#32

/-- The lattice of the program: physical number and contents. -/
def ownLattice (q : Seq) : Nat × Lattice :=
  let l := (physicalLattice q.s q.core (q.unit - 4)).getD (q.unit - 4)
  (l, latticeAt q.s q.core l)

/-- The operand check of 18 R352: the physical address, or the status. -/
def operandAt (q : Seq) (a : Word) (n align : Nat) : Except Nat Nat :=
  if a.toNat % align != 0 then .error 3
  else if a.toNat ≥ 2 ^ 27 then .error 5
  else
    match translate q.s q.t q.l a.toNat n with
    | none => .error 5
    | some p => if (reservedIn q.s p n).isSome then .error 4 else .ok p

/-- A load into the lattice: its chunk reads now and writes the lattice at its commit. -/
def latticeLoad (q : Seq) (fn first count : Nat) (a : Word) (n : Nat) : State :=
  match operandAt q a n 4 with
  | .error st => seqFail q st
  | .ok p =>
    engineChunk q (lineInputs a.toNat n) [] (fun c => { c with effs := [.lat fn first count (mreadN q.s.lmem p n)] }) none

/-- A store of lattice contents. -/
def latticeStore (q : Seq) (a : Word) (bs : List Byte) : State :=
  match operandAt q a bs.length 4 with
  | .error st => seqFail q st
  | .ok p => engineChunk q [] (lineInputs a.toNat bs.length) (fun c => chunkStore c p bs) none

/-- A bulk transfer of nc items from first index nf on (18 R355). `bits` is set for one-bit items. -/
def bulk (s : State) (d x y : BitVec 4) (limit : Nat) (bits : Bool) (act : Seq → Nat → Nat → Word → State) :
    Host.Outcome State Fault Refusal :=
  seqIssue s true (fun q =>
    let count := (nreg q d.toNat).toNat
    let first := (nreg q y.toNat).toNat
    if count = 0 then seqDone q q.s
    else if decide (first + count > limit) || (bits && (first % 32 != 0 || count % 32 != 0)) then seqFail q 3
    else act q first count (nreg q x.toNat))

/-- LCFG (18 R354). -/
def execLcfg (_sw : Bool) (x : BitVec 4) (s : State) : Host.Outcome State Fault Refusal :=
  seqIssue s true (fun q => latticeLoad q 0 0 0 (nreg q x.toNat) 16)

/-- LKEY (18 R353): klo first. -/
def execLkey (_sw : Bool) (x : BitVec 4) (s : State) : Host.Outcome State Fault Refusal :=
  seqIssue s true (fun q => latticeLoad q 13 0 0 (nreg q x.toNat) 8)

/-- LNLD (18 R355): descriptors. -/
def execLnld (_sw : Bool) (d x y : BitVec 4) (s : State) : Host.Outcome State Fault Refusal :=
  bulk s d x y Config.nodes false (fun q f n a => latticeLoad q 1 f n a (4 * n))

/-- LJLD (18 R355): couplings. -/
def execLjld (_sw : Bool) (d x y : BitVec 4) (s : State) : Host.Outcome State Fault Refusal :=
  bulk s d x y Config.nodes false (fun q f n a => latticeLoad q 2 f n a (32 * n))

/-- LHLD (18 R355): biases. -/
def execLhld (_sw : Bool) (d x y : BitVec 4) (s : State) : Host.Outcome State Fault Refusal :=
  bulk s d x y Config.nodes false (fun q f n a => latticeLoad q 3 f n a (2 * n))

/-- LSLD (18 R355): states. -/
def execLsld (_sw : Bool) (d x y : BitVec 4) (s : State) : Host.Outcome State Fault Refusal :=
  bulk s d x y Config.nodes true (fun q f n a => latticeLoad q 4 f n a (n / 8))

/-- LCLMP (18 R355): clamps. -/
def execLclmp (_sw : Bool) (d x y : BitVec 4) (s : State) : Host.Outcome State Fault Refusal :=
  bulk s d x y Config.nodes true (fun q f n a => latticeLoad q 6 f n a (n / 8))

/-- LGMAP (18 R355): stencils. -/
def execLgmap (_sw : Bool) (d x y : BitVec 4) (s : State) : Host.Outcome State Fault Refusal :=
  bulk s d x y 16 false (fun q f n a => latticeLoad q 10 f n a (64 * n))

/-- LGREF (18 R349, R355): ghost sources. -/
def execLgref (_sw : Bool) (d x y : BitVec 4) (s : State) : Host.Outcome State Fault Refusal :=
  bulk s d x y 256 false (fun q f n a => latticeLoad q 11 f n a (4 * n))

/-- The bytes of node states, one bit per node (18 R355). -/
def stateBytes (x : Lattice) (first count : Nat) : List Byte :=
  (upto (count / 8)).map (fun b => BitVec.ofNat 8 (total ((upto 8).map (fun k =>
    if tgetD x.state (first + 8 * b + k) false then 2 ^ k else 0))))

/-- LSST (18 R355): states to memory. -/
def execLsst (_sw : Bool) (d x y : BitVec 4) (s : State) : Host.Outcome State Fault Refusal :=
  bulk s d x y Config.nodes true (fun q f n a => latticeStore q a (stateBytes (ownLattice q).2 f n))

/-- LCNT (18 R355): counts to memory. -/
def execLcnt (_sw : Bool) (d x y : BitVec 4) (s : State) : Host.Outcome State Fault Refusal :=
  bulk s d x y Config.nodes false (fun q f n a =>
    latticeStore q a ((upto n).flatMap (fun k => natLE 2 (tgetD (ownLattice q).2.count (f + k) 0))))

/-- The shadow of a lattice operation with the sweeps it has left (23 R409). -/
def takeShadow (x : Lattice) (left : Nat) : SweepShadow :=
  { state := x.state, count := x.count, ghosts := x.ghosts, ctr := x.ctr, left := left }

/-- LRSTC (18 R353): every count 0, sweep_ctr from a register. It commits, and its program goes on, D cycles after its end;
a report runs it again from its shadow (23 R409). -/
def execLrstc (_sw : Bool) (x : BitVec 4) (s : State) : Host.Outcome State Fault Refusal :=
  seqIssue s true (fun q =>
    let l := ownLattice q
    setProg (setLattice q.s q.core l.1 { l.2 with count := [], ctr := nreg q x.toNat }) q.core q.unit
      { q.p with sweptAt := some q.s.cycle, shadows := [(q.s.cycle, takeShadow l.2 0)] })

/-- LSWP (18 R356): the same-colour count, then nk sweeps, each ended by SWEEP_END. DESIGN CHOICE (log entry 144): where nd
and nk are one register, nk is read before nd is written. -/
def execLswp (_sw : Bool) (d x : BitVec 4) (s : State) : Host.Outcome State Fault Refusal :=
  seqIssue s true (fun q =>
    let l := ownLattice q
    match l.2.cfg with
    | none => seqFail q 3
    | some c =>
      if !c.replay && q.s.biased.contains (q.core * 2 + l.1) then seqFail q 8
      else
        let nk := (nreg q x.toNat).toNat
        let p := { q.p with n := tput q.p.n d.toNat (BitVec.ofNat 32 (samePairs c l.2)) }
        if nk = 0 then setProg q.s q.core q.unit (nextWord p)
        else setProg q.s q.core q.unit { p with sweeps := nk, swept := 0, shadows := [(q.s.cycle, takeShadow l.2 nk)] })

/-- LHLTH (18 R358): starts the health test, which SWEEP_END finishes. -/
def execLhlth (_sw : Bool) (x y : BitVec 4) (s : State) : Host.Outcome State Fault Refusal :=
  seqIssue s true (fun q =>
    let nt := nreg q y.toNat
    if nt.toNat / 2 ^ 13 % 8 != 0 || decide (nt.toNat % 2 ^ 13 > Config.nodes) then seqFail q 3
    else
      match operandAt q (nreg q x.toNat) 128 64 with
      | .error st => seqFail q st
      | .ok _ => setProg q.s q.core q.unit { q.p with health := some (nreg q x.toNat, nt) })

/-- LALU.LI (18 R360). -/
def execLaluLi (_sw : Bool) (d : BitVec 4) (imm : BitVec 12) (s : State) : Host.Outcome State Fault Refusal :=
  seqIssue s true (fun q => seqGo q (fun p => { p with n := tput p.n d.toNat (imm.signExtend 32) }))

/-- LALU.ADD (18 R360). -/
def execLaluAdd (_sw : Bool) (d x : BitVec 4) (s : State) : Host.Outcome State Fault Refusal :=
  seqIssue s true (fun q => seqGo q (fun p => { p with n := tput p.n d.toNat (nreg q d.toNat + nreg q x.toNat) }))

/-- LBRC.LOOP (18 R361). -/
def execLbrcLoop (_sw : Bool) (s : State) : Host.Outcome State Fault Refusal := seqIssue s true loopPush

/-- LBRC.NEXT (18 R361). -/
def execLbrcNext (_sw : Bool) (d : BitVec 4) (s : State) : Host.Outcome State Fault Refusal :=
  seqIssue s true (fun q =>
    loopNext q (nreg q d.toNat).toNat (fun p n => { p with n := tput p.n d.toNat (BitVec.ofNat 32 n) }))

/-- LBRC.SIG (18 R361): posts an LSIG record; every earlier operation has committed when it issues. -/
def execLbrcSig (_sw : Bool) (x : BitVec 4) (s : State) : Host.Outcome State Fault Refusal :=
  seqIssue s true (fun q =>
    let l := ownLattice q
    seqDone q (postEvent q.s (q.core / 64) 10 (sourceOf 2 (q.core * 2 + l.1))
      (packPayload [(1, logicalCore q.s q.core), (1, q.unit - 4), (2, 0), (4, (nreg q x.toNat).toNat), (4, l.2.ctr.toNat),
        (4, q.p.offset)])))

/-- LBRC.END (18 R361): the program ends with DONE. -/
def execLbrcEnd (_sw : Bool) (s : State) : Host.Outcome State Fault Refusal :=
  seqIssue s true (fun q => endProgram q.s q.core q.unit 0 q.p.pc q.s.issue.word)

end Sys2Proof.Machine
end

