-- ==== Sys2Proof/Machine/Monitor.lean ====
section
/-! DEFINITION. Monitors, notices and the wear record as the device updates them (24 R433, R434, R436-R438). -/

namespace Sys2Proof.Machine

/-! ### Monitors (24 R434) -/

/-- The greatest count of a monitor. -/
def countLimit : Nat := 2 ^ 48 - 1

/-- The default binning of a monitor: log2, or linear with its base and width. -/
def defaultMonitor (index : Nat) : Monitor :=
  if index < 32 || (decide (48 ≤ index) && decide (index < 64)) then { log2 := true }
  else if index < 48 then { log2 := false, base := 0, width := 4 }
  else if index < 2112 then { log2 := false, base := 0, width := 6 }
  else if index < 2146 then { log2 := false, base := 0, width := 0 }
  else { log2 := false, base := 2344, width := 4 }

/-- The number of monitors. -/
def monitorCount : Nat := 2182

/-- A monitor of the device. -/
def monitorAt (d : Device) (index : Nat) : Monitor := tgetD d.monitors index (defaultMonitor index)

/-- The bin of a sample. -/
def binOf (m : Monitor) (v : Nat) : Nat :=
  if m.log2 then (if v = 0 then 0 else min 31 (Nat.log2 v + 1)) else min 31 ((v - m.base) / 2 ^ m.width)

/-- A monitor with one more sample; every count saturates. -/
def sampleInto (m : Monitor) (v : Nat) : Monitor :=
  { m with
    least := min m.least v, greatest := max m.greatest v, count := min countLimit (m.count + 1),
    bins := tupd m.bins (binOf m v) 0 (fun c => min countLimit (c + 1)) }

/-- A monitor with more samples, which are 32 bits wide. -/
def samplesInto (m : Monitor) (vs : List Nat) : Monitor := vs.foldl (fun m v => sampleInto m (v % 2 ^ 32)) m

/-- The samples that a monitor has taken in this cycle (24 R436). -/
def freshSamples (s : State) (index : Nat) : List Nat := if s.dev.freshAt = s.cycle then tgetD s.dev.fresh index [] else []

/-- Adds samples to a monitor. -/
def addSamples (s : State) (index : Nat) (vs : List Nat) : State :=
  { s with dev := { s.dev with
    monitors := tput s.dev.monitors index (samplesInto (monitorAt s.dev index) vs),
    fresh := tput (if s.dev.freshAt = s.cycle then s.dev.fresh else []) index (freshSamples s index ++ vs),
    freshAt := s.cycle } }

/-- Adds a sample to a monitor. -/
def addSample (s : State) (index v : Nat) : State := addSamples s index [v]

/-- Adds the samples of a bias test of a lattice: one for each node's count (24 R434, 18 R358). -/
def sampleBias (s : State) (lat : Nat) (counts : List Nat) : State :=
  addSamples s (64 + lat) (counts.map (fun (c : Nat) => ((c : Int) - 32768).natAbs))

/-- Clears a monitor and sets its binning: the samples of the same cycle come after the clear (24 R434, R436). -/
def clearInto (s : State) (index : Nat) (log2 : Bool) (width base : Nat) : State :=
  { s with dev := { s.dev with
    monitors := tput s.dev.monitors index (samplesInto { log2 := log2, width := width, base := base } (freshSamples s index)),
    hbmAt := if 32 ≤ index ∧ index < 48 then tput s.dev.hbmAt index s.cycle else s.dev.hbmAt } }

/-- Takes in what a monitor of HBM read latency, a matter of timing, has sampled since the last time: free values, none
when no cycle has passed (24 R434). -/
def takeSamples (s : State) (index : Nat) : State :=
  if tgetD s.dev.hbmAt index 0 < s.cycle ∧ s.dev.run = .running then
    let s1 := addSamples s index (Config.freeSamples s.freeCount)
    { s1 with freeCount := s1.freeCount + 1, dev := { s1.dev with hbmAt := tput s1.dev.hbmAt index s.cycle } }
  else s

/-- How many nodes of a health test deviate: their counts differ from 32,768 by more than a threshold (18 R358). -/
def deviating (threshold : Nat) (counts : List Nat) : Nat :=
  (counts.filter (fun (c : Nat) => decide (((c : Int) - 32768).natAbs > threshold))).length

/-! ### Notices (24 R433) -/

/-- Posts a notice to the ring of 64; one that displaces an unread notice is counted. What its value says is open. -/
def postNotice (s : State) (kind unit : Nat) : State :=
  let n : Notice := { kind := kind, unit := unit, phase := s.chipPhase, cycle := s.cycle, value := Config.freeNat s.freeCount }
  let lost := match s.dev.notices with
    | a :: _ => decide (64 ≤ s.dev.notices.length) && !a.seen
    | [] => false
  let all := s.dev.notices ++ [n]
  let s1 := { s with
    freeCount := s.freeCount + 1,
    dev := { s.dev with notices := all.drop (all.length - 64), noticesPosted := s.dev.noticesPosted + 1 } }
  if lost then bumpMgmt s1 7 1 else s1

/-! ### The wear record (24 R438) -/

/-- The device with the valid copy of the higher generation as its wear record: the other when the last write was cut
off, which the next write replaces. -/
def loadWear (d : Device) : Device := if d.wearCut then { d with wear := d.wearOld, wearCut := false } else d

/-- Writes the wear record with a change, the BIASED marks and the powered hours as they stand, over the older copy; the
write is counted. -/
def writeWear (s : State) (f : Wear → Wear) : State :=
  let d := loadWear s.dev
  let w := { f d.wear with biased := s.biased, hours := d.hours }
  bumpMgmt { s with dev := { d with
    wear := { w with generation := d.wear.generation + 1 }, wearOld := d.wear,
    wearTill := s.cycle + Config.writeCycles d.wear.generation } } 6 1

/-- Marks a lattice BIASED, or clears its mark; the record is written when the mark changes (18 R357, 24 R438). -/
def markBiased (s : State) (lat : Nat) (b : Bool) : State :=
  if s.biased.contains lat == b then s
  else
    writeWear { s with biased := if b then insertNat lat s.biased else s.biased.filter (fun k => k != lat) } id

end Sys2Proof.Machine
end

