-- ==== Sys2Proof/Machine/Reserve.lean ====
section
/-! DEFINITION. The local bytes reserved for the coming exchange: the destinations of XGET and XGTH in the program that a
team named, found by running its XALU and XBRC operations on a copy of the engine registers (08 R170). -/

namespace Sys2Proof.Machine

/-- The evaluation's state: address of the next word, registers, loop stack, destinations found (L-ref, bytes). -/
structure Scan where
  pc : Nat
  e : Table DWord
  loops : List Nat := []
  found : List (DWord × Nat) := []
  halt : Bool := false

/-- The register a field of an XFR word names (11 R242). -/
def scanReg (z : Scan) (n : Nat) : DWord := tgetD z.e n 0#64

/-- XALU on the copy (11 R254). -/
def scanAlu (z : Scan) (w : Nat) : Scan :=
  let d := w / 2 ^ 20 % 32
  let x := w / 2 ^ 14 % 32
  let imm : BitVec 12 := BitVec.ofNat 12 (w / 2 ^ 12 % 256 * 16 + w / 2 ^ 4 % 16)
  let put := fun (v : DWord) => { z with e := tput z.e d v, pc := z.pc + 4 }
  match w / 2 ^ 8 % 16 with
  | 0 => put (imm.signExtend 64)
  | 1 => put (scanReg z d + scanReg z x)
  | 2 => if imm.toNat < 64 then put (scanReg z d <<< imm.toNat) else { z with halt := true }
  | 3 => put (scanReg z d * scanReg z x)
  | _ => { z with halt := true }

/-- XBRC on the copy (11 R255). -/
def scanBranch (z : Scan) (w : Nat) : Scan :=
  let d := w / 2 ^ 20 % 32
  match w / 2 ^ 8 % 16 with
  | 0 => if z.loops.length ≥ 4 then { z with halt := true } else { z with loops := (z.pc + 4) :: z.loops, pc := z.pc + 4 }
  | 1 =>
    match z.loops with
    | [] => { z with halt := true }
    | top :: rest =>
      let n := (scanReg z d).toNat - 1
      let e := tput z.e d (BitVec.ofNat 64 n)
      if n > 0 then { z with e := e, pc := top } else { z with e := e, loops := rest, pc := z.pc + 4 }
  | _ => { z with halt := true }

/-- One word of the evaluation. -/
def scanWord (ws : List Word) (z : Scan) : Scan :=
  let w := (sectionWord ws z.pc).toNat
  let next := { z with pc := z.pc + 4 }
  if z.halt || decide (4 * ws.length ≤ z.pc) || w / 2 ^ 26 % 32 != 28 then { z with halt := true }
  else
    let dst := scanReg z (w / 2 ^ 20 % 32)
    let ctl := (scanReg z (w / 2 ^ 6 % 32)).toNat
    match w % 16 with
    | 2 => { next with found := z.found ++ [(dst, ctl % 2 ^ 32)] }
    | 6 => { next with found := z.found ++ [(dst, ctl % 2 ^ 32 * 2 ^ (ctl / 2 ^ 32 % 4))] }
    | 14 => scanAlu z w
    | 15 => scanBranch z w
    | _ => next

/-- The evaluation, at most `fuel` words. -/
def scanProgram (fuel : Nat) (ws : List Word) (z : Scan) : Scan :=
  match fuel with
  | 0 => z
  | f + 1 => if z.halt then z else scanProgram f ws (scanWord ws z)

/-- More words than an evaluation can run without standing twice in one state of its address (2^30), registers (2^2048)
and loop stack: one that has not ended by then finds nothing more. -/
def scanLimit : Nat := 2 ^ 2400

/-- The bytes that a team's exchange program reserves, as physical runs. -/
def reservedOf (s : State) (tid : Nat) (t : Team) (l : Launch) (name : Nat) : List (Nat × Nat) :=
  match l.exchOffsets[name]? with
  | none => []
  | some off =>
    (upto t.cores.length).flatMap (fun i =>
      let e := (upto 32).foldl (fun (r : Table DWord) n => tput r n (tgetD t.eregs (i * 4 * 32 + n) 0#64)) []
      let q : Seq := { s := s, core := t.cores.getD i 0, unit := 0, t := t, l := l,
                       p := { uid := 0, kind := .exchange, team := tid, group := none, offset := off, pc := off } }
      (scanProgram scanLimit l.exch { pc := off, e := e }).found.filterMap (fun d =>
        (locate q (refCluster d.1) (refAddr d.1) d.2).map (fun p => (p, d.2))))

/-- Recomputes the bytes that a team reserves. -/
def reserveTeam (s : State) (tid : Nat) : State :=
  match tget s.teams tid with
  | none => s
  | some t =>
    match tget s.launches t.launch, t.exname with
    | some l, some name => setTeam s tid { t with reserved := reservedOf s tid t l name }
    | _, _ => s

end Sys2Proof.Machine
end

