-- ==== Sys2Proof/Machine/Launch.lean ====
section
/-! DEFINITION. Launches: what a team's end frees, result digests and running hashes, the commit log's
headers, and the end of a launch (07 R143, R149, R153, 08 R188-R192). -/

namespace Sys2Proof.Machine

/-- The launch of a partition with a number. -/
def launchNumbered (s : State) (part num : Nat) : Option (Nat × Launch) :=
  s.launches.find? (fun e => e.2.part == part && e.2.number == num)

/-- How an accepted launch has ended: with status 0 or not, or not yet. A number that the device does not hold is of a
launch that had ended before a checkpoint which has been restored since (23 R419): a free value (log entry 148). -/
def ending (s : State) (part num : Nat) : Option Bool :=
  match launchNumbered s part num with
  | some e => if e.2.phase == .ended then some (e.2.status == 0) else none
  | none => some (Config.freeEnding part num)

/-- The placed teams of a launch. -/
def teamsOf (s : State) (lid : Nat) : Table Team := s.teams.filter (fun e => e.2.launch == lid)

/-- The gangs of a launch's grid (02 R29). -/
def gangCount (l : Launch) : Nat := l.grid.1 * l.grid.2.1 * l.grid.2.2

/-- Whether a launch still has a place in its queue: gangs to place or to restore (07 R150, R155). -/
def inQueue (l : Launch) : Bool := l.phase != .ended && (decide (l.nextGang < gangCount l) || !l.saved.isEmpty)

/-! ### Teams that leave -/

/-- Frees the handle slots of a team; their generations stay (11 R257). -/
def freeSlots (s : State) (tid : Nat) : State :=
  { s with parts := tmap s.parts (fun _ p => { p with
      slots := tmap p.slots (fun _ x => if x.owner == some tid then { x with owner := none, shape := none } else x) }) }

/-- Resets the lattices that a team owns (18 R342). DESIGN CHOICE (log entry 153): they have no owner from then on. -/
def freeLattices (s : State) (tid : Nat) : State :=
  { s with lattices := s.lattices.filter (fun e => e.2.owner != some tid) }

/-- Removes a team with its groups and records: its group slots and local memory are free (06 R132, 07 R156). -/
def removeTeam (s : State) (tid : Nat) : State :=
  let s1 := freeLattices (freeSlots s tid) tid
  { s1 with
    teams := tdel s1.teams tid,
    groups := s1.groups.filter (fun e => e.2.team != tid),
    engines := tmap s1.engines (fun _ e => dropPrograms tid e),
    cores := tmap s1.cores (fun _ c => { c with
      bins := dropRecords tid c.bins,
      latch := c.latch.filter (fun x => ((tget s1.groups x.group).map (·.team)) != some tid) }) }

/-! ### Digests and hashes (08 R191, R192) -/

/-- The result digest over the words written, at their values of the last close, and the values XFAB sent. -/
def digestOf (l : Launch) : DWord :=
  let own := l.digestWords.foldl (fun (a : DWord) e => a + chx64 (BitVec.ofNat 64 e.1) e.2) 0#64
  l.digestSent.foldl (fun a e => a + chx64 (BitVec.ofNat 64 (Config.fabricAddress e.1)) e.2) own

/-- The first launch of a queue that has not been chained, in acceptance order (07 R153). -/
def nextToChain (s : State) (part q : Nat) : Option (Nat × Launch) :=
  let ls := s.launches.filter (fun e => e.2.part == part && e.2.queue == q && !e.2.chained)
  match ls with
  | [] => none
  | a :: rest => some (rest.foldl (fun x e => if e.2.number < x.2.number then e else x) a)

/-- Chains the ended launches at the front of a queue (07 R153, 08 R192); `fuel` bounds their number. -/
def chainQueue (fuel : Nat) (s : State) (part q : Nat) : State :=
  match fuel with
  | 0 => s
  | f + 1 =>
    match nextToChain s part q with
    | none => s
    | some (lid, l) =>
      if l.phase != .ended then s
      else
        let s1 := setLaunch s lid { l with chained := true }
        let s2 := { s1 with parts := tmod s1.parts part (fun p => { p with
          queues := tupd p.queues q {} (fun x => { x with
            chain := x.chain + 1, hash := chx64 (x.hash ^^^ l.digest) (BitVec.ofNat 32 (x.chain + 1)) }) }) }
        chainQueue f s2 part q

/-! ### Global memory and the commit log (08 R187-R190) -/

/-- The lagging bytes outside a range. -/
def dropLags (ls : List Lag) (a n : Nat) : List Lag := ls.filter (fun x => !(decide (a ≤ x.addr) && decide (x.addr < a + n)))

/-- Writes bytes to global memory, on every replica: a word wholly written is lost no longer (23 R417). -/
def writeGlobal (s : State) (a : Nat) (bs : List Byte) : State :=
  { s with
    gmem := mwrites s.gmem a bs,
    lags := dropLags s.lags a bs.length,
    lost := s.lost.filter (fun w => !(decide (a ≤ w) && decide (w + 4 ≤ a + bs.length))) }

/-- Whether a page is mapped to a partition. -/
def ownsPage (s : State) (n g : Nat) : Bool := ((tget s.pages g).map (·.part)) == some n

/-- The slice of a cluster in the log extent: base and bytes (08 R187). -/
def logSlice (l : Launch) (c : Nat) : Option (Nat × Nat) :=
  (tget l.extents 15).map (fun e => (e.base + c * (e.len / 16), e.len / 16))

/-- Writes the header of a slice (08 R188). -/
def writeLogHeader (s : State) (l : Launch) (c count : Nat) (complete : Bool) : State :=
  match logSlice l c with
  | none => s
  | some (base, size) =>
    if size < 64 then s
    else
      writeGlobal s base (natLE 4 0x474F4C43 ++ natLE 2 1 ++ natLE 1 (if complete then 1 else 0) ++ natLE 1 0 ++
        natLE 4 l.number ++ natLE 8 count ++ natLE 8 l.kernelId.toNat ++ natLE 36 0)

/-- Records an entry in a slice of a record launch; an exhausted slice posts RECORD_FULL, and the launch runs on
unrecorded, in every cluster (08 R189). -/
def recordEntry (s : State) (lid c : Nat) (e : DWord) : State :=
  match tget s.launches lid with
  | none => s
  | some l =>
    let x := tgetD l.logs c {}
    if l.mode != 2 || !x.recording then s
    else
      match logSlice l c with
      | none => s
      | some (base, size) =>
        if 64 + 8 * (x.written + 1) ≤ size then
          let s1 := writeGlobal s (base + 64 + 8 * x.written) (natLE 8 e.toNat)
          setLaunch s1 lid { l with logs := tput l.logs c { x with written := x.written + 1 } }
        else
          let clusters := ((tget s.parts l.part).map (·.clusters)).getD [c]
          let s1 := setLaunch s lid { l with logs := clusters.foldl (fun t k => tupd t k {} (fun y => { y with recording := false })) l.logs }
          let s2 := clusters.foldl (fun s k => writeLogHeader s l k (tgetD l.logs k {}).written false) s1
          postEvent s2 l.issuer 12 (sourceOf 4 0) (packPayload [(4, l.number), (4, c), (8, x.written)])

/-- An entry of the log (08 R188). -/
def logEntry (kind who seq : Nat) : DWord := BitVec.ofNat 64 (kind * 2 ^ 62 + who % 2 ^ 30 * 2 ^ 32 + seq % 2 ^ 32)

/-- Completes the headers of a record launch at its end (08 R189). -/
def closeLogs (s : State) (l : Launch) (clusters : List Nat) : State :=
  if l.mode = 2 then
    clusters.foldl (fun s c =>
      let x := tgetD l.logs c {}
      if x.recording then writeLogHeader s l c x.written true else s) s
  else s

/-! ### The end of a launch (07 R143) -/

/-- Ends a launch with a status and reason: LAUNCH_DONE goes to its issuer, with the limit that made it fail (02 R42), and
its queue is chained. -/
def endLaunch (s : State) (lid status reason : Nat) : State :=
  match tget s.launches lid with
  | none => s
  | some l =>
    let clusters := ((tget s.parts l.part).map (·.clusters)).getD []
    let s1 := closeLogs s l clusters
    let dig := if status = 0 then digestOf l else 0#64
    let l1 := { ((tget s1.launches lid).getD l) with
      phase := .ended, status := status, reason := reason, digest := dig, snapPages := 0, saved := [], preempt := false,
      reported := if l.mode = 0 then 0 else gangCount l }
    let s2 := setLaunch s1 lid l1
    let s3 := postNaming l.limit s2 l.issuer 1 (sourceOf 4 0) (packPayload [(4, l.number), (1, status), (1, reason), (2, 0), (8, l1.charged)])
    chainQueue s3.launches.length s3 l.part l.queue

/-- Whether a launch that has had teams is in an exchange that has not closed. -/
def exchangeOpen (s : State) (l : Launch) : Bool :=
  ((tget s.parts l.part).map (·.pstate)) == some .exchange && !l.ordinals.isEmpty

/-- Whether every team of a launch is gone and none is still to come, its contributions have drained, and its final
exchange has closed. -/
def launchOver (s : State) (lid : Nat) (l : Launch) : Bool :=
  l.phase != .ended && (teamsOf s lid).isEmpty && !(s.gred.any (fun e => e.launch == lid)) && !exchangeOpen s l &&
  (l.abort.isSome || (l.phase == .running && !inQueue l))

/-- Ends a launch that is over: status 1 or 4 for an abort, 2 when teams were killed, else 0. -/
def settleLaunch (s : State) (lid : Nat) : State :=
  match tget s.launches lid with
  | none => s
  | some l =>
    if launchOver s lid l then
      endLaunch s lid (match l.abort with
        | some a => a
        | none => if l.abnormal then 2 else 0) 0
    else s

/-- Ends every launch that is over. -/
def settleLaunches (s : State) : State := (tkeys s.launches).foldl settleLaunch s

/-- Aborts a launch with a status: its teams are killed, and what is saved, unplaced or to be relaunched never runs
(07 R156, 08 R190). -/
def abortLaunch (s : State) (lid status : Nat) : State :=
  let saved := (((tget s.launches lid).map (·.saved)).getD []).flatMap (fun g => g.saved.map (·.1))
  let s0 := (tkeys (teamsOf s lid)).foldl (fun s tid => killTeam s tid true) s
  let s1 := saved.foldl freeSlots s0
  let s2 := { s1 with
    launches := tmod s1.launches lid (fun l => { l with
      abort := some status, preempt := false, saved := [], nextGang := gangCount l })
    teams := tmap s1.teams (fun _ t => if t.launch == lid then { t with relaunch := false } else t) }
  settleLaunch s2 lid

end Sys2Proof.Machine
end

