-- ==== Sys2Proof/Machine/Arrive.lean ====
section
/-! DEFINITION. Arrival of cores (08 R164), the end of their part of an exchange (08 R165), and the time-outs that
report late ones (07 R157, R158, 21 R400). -/

namespace Sys2Proof.Machine

/-- The enabled cores of a partition, in ascending logical order. -/
def partCores (s : State) (p : Part) : List Nat :=
  p.clusters.flatMap (fun c => (tgetD s.dev.cores c []).map (fun j => 64 * c + j))

/-- The teams placed on a core. -/
def residents (s : State) (core : Nat) : Table Team := s.teams.filter (fun e => e.2.cores.contains core)

/-- Whether a team has an engine program running or listed. -/
def engineBusy (s : State) (tid : Nat) : Bool :=
  s.engines.any (fun e => (e.2.run.toList ++ e.2.list).any (fun p => p.team == tid))

/-- Every thread of a group waits at PHASE or has exited, its chunks have committed, and its lattice programs are
joined. -/
def groupArrived (g : Group) : Bool :=
  g.cur.isNone && g.inflight.isEmpty &&
  (liveLanes g.regs).all (fun i => match (laneAt g.regs i).wait with
    | .phase _ => true
    | _ => false) &&
  g.regs.unjoined.isEmpty && g.regs.trap.doom.isNone

/-- Whether a committed spawn record of a team is in a bin, or waits for one. -/
def hasRecords (s : State) (tid : Nat) : Bool :=
  s.cores.any (fun k => k.2.bins.any (fun b => b.2.recs.any (fun r => r.team == tid))) ||
  ((tget s.teams tid).map (fun t => !t.owed.isEmpty)).getD false

/-- Whether a team has arrived; a record that is still to form a group keeps it from arriving (02 R34), and so does a lattice
program that a group left unjoined at its exit (08 R164). A killed team counts as idle, unless its gang is to be relaunched (07 R156, 23 R416). -/
def teamArrived (s : State) (tid : Nat) (t : Team) : Bool :=
  if t.killed then !t.relaunch
  else (s.groups.filter (fun e => e.2.team == tid)).all (fun e => groupArrived e.2) && !t.unjoined && !engineBusy s tid && !hasRecords s tid

/-- Whether a program that a retired team forked is still to end on a core; no compute-phase copy program or lattice
program runs in an exchange (08 R164, R168). -/
def leftPrograms (s : State) (core : Nat) : Bool :=
  (upto 6).any (fun u =>
    let e := engineAt s core u
    (e.run.toList ++ e.list).any (fun p => (tget s.retired p.team).isSome))

/-- Whether a core has arrived (08 R164). -/
def coreArrived (s : State) (core : Nat) : Bool :=
  (residents s core).all (fun e => teamArrived s e.1 e.2) && !leftPrograms s core

/-- The partitions with the last arrival noted: of one whose cores have all arrived, the first cycle found so and the
straggler count left then, until a core is late again (24 R434). -/
def noteArrivals (s : State) : Table Part :=
  tmap s.parts (fun _ p =>
    if p.pstate == .opened && (partCores s p).all (coreArrived s) then
      { p with lastArrival := some (p.lastArrival.getD (s.cycle, p.stragAt.getD s.cycle - s.cycle)) }
    else { p with lastArrival := none })

/-- Whether an exchange program is still to end on a core (08 R165). -/
def exchangeBusy (s : State) (core : Nat) : Bool :=
  let e := engineAt s core 0
  (e.run.toList ++ e.list).any (fun p => p.kind == .exchange)

/-- The cores of a partition that the wait now open waits for. -/
def lateCores (s : State) (p : Part) : List Nat :=
  (partCores s p).filter (fun k => match p.pstate with
    | .exchange => exchangeBusy s k
    | _ => !coreArrived s k)

/-- The arrival or end messages of a span's other members are all held (08 R167). -/
def spanReady (p : Part) (atEnd : Bool) : Bool :=
  p.spanTag == 0 ||
  decide (p.spanSize - 1 ≤ (once (((if atEnd then p.spanEnded else p.spanArrived).filter (fun m => m.2 == p.boundary)).map (·.1))).length)

/-- The bits of the late cores of a cluster, by logical core (07 R145). -/
def lateBits (s : State) (c : Nat) (late : List Nat) : Nat :=
  total ((late.filter (fun k => k / 64 == c)).map (fun k => 2 ^ logicalCore s k))

/-- Reports late cores: a STRAGGLER or EXCHANGE_LATE record to each control core whose cluster holds one. When only a
remote partition of the span is late, each control core of the partition is told. -/
def reportLate (s : State) (n : Nat) (p : Part) (type : Nat) (late : List Nat) (remote : Bool) : State :=
  let holders := p.clusters.filter (fun c => late.any (fun k => k / 64 == c))
  let told := if holders.isEmpty && remote then p.clusters else holders
  let s1 := setPart s n { p with late := once (p.late ++ late) }
  told.foldl (fun s c =>
    let others := holders.any (fun k => k != c)
    postEvent s c type (sourceOf 4 0) (packPayload
      [(8, lateBits s c late), (4, p.boundary % 2 ^ 32), (4, (if remote then 1 else 0) + (if others then 2 else 0))])) s1

/-- The straggler time-out expires: late cores are reported and it re-arms (07 R157). -/
def expireStraggler (s : State) (n : Nat) : State :=
  match tget s.parts n with
  | none => s
  | some p =>
    let p' := { p with stragAt := some (s.cycle + p.strag) }
    reportLate s n p' 3 (lateCores s p) (!spanReady p false)

/-- The exchange time-out expires (07 R157). -/
def expireExchange (s : State) (n : Nat) : State :=
  match tget s.parts n with
  | none => s
  | some p =>
    let p' := { p with exchAt := some (s.cycle + p.exch) }
    reportLate s n p' 4 (lateCores s p) (!spanReady p true)

/-- Whether a time-out has reached its cycle. -/
def due (deadline : Option Nat) (now : Nat) : Bool :=
  match deadline with
  | some d => decide (d ≤ now)
  | none => false

/-- The teams of a launch on a core reported late that is late still (07 R156, R160). -/
def lateTeams (s : State) (p : Part) (lid : Nat) : List Nat :=
  let still := (lateCores s p).filter (fun k => p.late.contains k)
  ((teamsOf s lid).filter (fun e => !e.2.killed && e.2.cores.any (fun k => still.contains k))).map (·.1)

end Sys2Proof.Machine
end

