-- ==== Sys2Proof/Machine/Thread.lean ====
section
/-! DEFINITION. Threads, major 21 (06 R128-R133), and the reservation of spawn records (02 R33). -/

namespace Sys2Proof.Machine

/-- The uncommitted reservations of a group: bin and entry. -/
def reservations (g : Group) : List (Nat × Word) :=
  (ownEffs g).filterMap (fun e => match e with | .spawn b en _ _ => some (b, en) | _ => none)

/-- The reservations of the other groups of a core that stand beside those of a group. In an ordered launch the groups of
the launch count by what they have committed only, for there a thread blocks by what has committed (06 R129, 08 R184;
DEDUCED, log 156). -/
def rivalReservations (s : State) (l : Launch) (t : Team) (gid : Nat) (g : Group) : List (Nat × Word) :=
  (s.groups.filter (fun e => e.1 != gid && e.2.core == g.core &&
    !(ordered l && (tget s.teams e.2.team).map (·.launch) == some t.launch))).flatMap (fun e => reservations e.2)

/-- A spawn bin of a core with the reservations `pend`: its key, and the records and reservations it holds. -/
def binLoad (core : Core) (pend : List (Nat × Word)) (b : Nat) : Option Word × Nat :=
  let mine := pend.filter (fun r => r.1 == b)
  let recs := (((tget core.bins b).map (·.recs)).getD []).length
  let key := if recs > 0 then (tget core.bins b).map (·.entry) else (mine.head?).map (·.2)
  (key, recs + mine.length)

/-- The bin in which a record for an entry can be reserved: the one keyed by it if it has room, else an empty one
(02 R33). -/
def reserveBin (core : Core) (pend : List (Nat × Word)) (entry : Word) : Option Nat :=
  let loads := (upto 8).map (fun b => (b, binLoad core pend b))
  match loads.find? (fun e => e.2.1 == some entry) with
  | some e => if e.2.2 < 64 then some e.1 else none
  | none => (loads.find? (fun e => e.2.2 == 0)).map (·.1)

/-- Sets the SPAWN mark of a lane. -/
def markBlock (l n : Nat) (w : Work) : Work := onRegs w (fun c => setLane c l { laneAt c l with block := n })

/-- SPAWN in one active lane (06 R129): a bad entry traps; else a record is reserved, or the lane is marked blocked. -/
def spawnLane (i : In) (again : Bool) (w : Work) (l : Nat) : Work :=
  let entry := xVal i l
  if !inText i.l entry then setFates w [l] (.trap 1 entry)
  else if (laneAt i.g.regs l).block == 2 then w
  else
    let bin := reserveBin w.core (rivalReservations i.s i.l i.t i.gid i.g ++ reservations w.g) entry
    let w0 := judge i [.record entry bin] w
    match bin with
    | some b =>
      let w1 := addEffs w0 [.spawn b entry (yVal i l) (laneAt i.g.regs l).ltid]
      if again then markBlock l 2 w1 else w1
    | none => setFates (markBlock l 1 w0) [l] (.hold (.spawn entry))

/-- SPAWN (06 R129): the lanes that reserve go on and the others block; a set that blocked goes on once every lane of
it has a record. -/
def execSpawn (sw : Bool) (x y : Src) (s : State) : Host.Outcome State Fault Refusal :=
  groupOnly s { sw := sw, x := some x, y := some y }
    (fun i w =>
      let again := !i.act.isEmpty && i.act.all (fun l => (laneAt i.g.regs l).block != 0)
      let w1 := i.act.foldl (spawnLane i again) w
      let short := w1.fates.any (fun e => match e.2 with
        | .hold (.spawn _) => true
        | _ => false)
      let w2 := if again && short then i.act.foldl (fun w l => setFates w [l] (.hold (.spawn (xVal i l)))) w1 else w1
      onRegs w2 (releaseSources i (i.act.filter (fun l => (tget w2.fates l).isNone))))

/-- EXIT (06 R131). -/
def execExit (sw : Bool) (s : State) : Host.Outcome State Fault Refusal :=
  groupOnly s { sw := sw } (fun i w => setFates w i.act .leave)

/-- YIELD (06 R133): timing only. -/
def execYield (sw : Bool) (s : State) : Host.Outcome State Fault Refusal :=
  groupOnly s { sw := sw } (fun _ w => w)

/-- SLEEP (06 R133): the set stands still for the largest count of its active lanes, at most 2^20 cycles. -/
def execSleep (sw : Bool) (x : Src) (s : State) : Host.Outcome State Fault Refusal :=
  groupOnly s { sw := sw, x := some x }
    (fun i w =>
      let n := (i.act.map (fun l => min (xVal i l).toNat (2 ^ 20))).foldl max 0
      let w1 := onRegs w (releaseSources i i.act)
      if n = 0 then w1 else setFates w1 i.lanes (.doze (i.s.cycle + n)))

end Sys2Proof.Machine
end

