-- ==== Sys2Proof/Machine/Resident.lean ====
section
/-! DEFINITION. What a core can hold (02 R42), the formation of groups, and spawn bins from committed record to group
(02 R33-R36). -/

namespace Sys2Proof.Machine

/-- What n groups of an allocation cost: slots, threads, lane-registers, uniform registers, tiles, granules (02 R42). -/
def costOf (a : Alloc) (n : Nat) : List Nat := [n, n * a.w, n * (a.v * a.w), n * a.s, n * a.t, n * (a.a * a.w / 16)]

/-- The limits of a core (02 R42). -/
def coreLimits : List Nat := [64, 1024, 65536, 4096, 31, 64]

/-- Sums of costs, limit by limit. -/
def addCosts (a b : List Nat) : List Nat := (upto 6).map (fun k => a.getD k 0 + b.getD k 0)

/-- Whether costs are within the limits. -/
def costsFit (a : List Nat) : Bool := (upto 6).all (fun k => decide (a.getD k 0 ≤ coreLimits.getD k 0))

/-- The groups of a team on a core. -/
def groupsOn (s : State) (tid core : Nat) : Table Group := s.groups.filter (fun e => e.2.team == tid && e.2.core == core)

/-- The slots that a team holds on a core: its launch groups that have not retired, and its spawned groups or the slots
it reserves for them, whichever is more (02 R36, R42). -/
def slotsOn (s : State) (tid core : Nat) (l : Launch) : Nat :=
  let gs := groupsOn s tid core
  (gs.filter (fun e => decide (e.2.index < l.groups))).length +
    max (gs.filter (fun e => decide (l.groups ≤ e.2.index))).length l.spawnSlots

/-- What the teams resident on a core cost. -/
def coreCost (s : State) (core : Nat) : List Nat :=
  (residents s core).foldl (fun acc e =>
    match tget s.launches e.2.launch with
    | some l => addCosts acc (costOf l.alloc (slotsOn s e.1 core l))
    | none => acc) [0, 0, 0, 0, 0, 0]

/-- Whether one more spawned group of a team fits on a core: in a slot reserved for it, or in what is free. -/
def spawnFits (s : State) (tid core : Nat) (l : Launch) : Bool :=
  decide (((groupsOn s tid core).filter (fun e => decide (l.groups ≤ e.2.index))).length < l.spawnSlots) ||
  costsFit (addCosts (coreCost s core) (costOf l.alloc 1))

/-- The lowest free group slot of a core. -/
def freeGroupSlot (s : State) (core : Nat) : Nat :=
  let used := (s.groups.filter (fun e => e.2.core == core)).map (fun e => e.2.slot)
  ((upto 64).find? (fun k => !used.contains k)).getD 64

/-- The quantum at which a group formed now starts: after the round that has committed in its cluster, or among the teams
that one rollback returned (08 R182, 23 R415). -/
def startQuantum (l : Launch) (cluster cohort : Nat) : Nat :=
  if l.mode != 1 then 0
  else if cohort = 0 then ((tget l.rounds cluster).map (· + 1)).getD 0
  else tgetD l.lagging cohort 0

/-- Forms a group of a team on a core with these lanes: registers 0, masks empty (06 R130, 08 R188). After a rollback in
replay mode it takes the ordinal that it had (23 R415). -/
def formGroup (s : State) (tid index core : Nat) (lanes : Table Lane) : State :=
  match tget s.teams tid with
  | none => s
  | some t =>
    match tget s.launches t.launch with
    | none => s
    | some l =>
      let c := core / 64
      let new := tgetD l.ordinals c 0
      let ord := t.reform.headD new
      let g : Group :=
        { team := tid, index := index, alloc := l.alloc, core := core, slot := freeGroupSlot s core,
          regs := { lanes := lanes }, nextQuantum := startQuantum l c t.cohort, ordinal := ord }
      let s1 := setLaunch s t.launch { l with ordinals := tput l.ordinals c (if t.reform.isEmpty then new + 1 else new) }
      { setGroup (setTeam s1 tid { t with formed := t.formed ++ [ord], reform := t.reform.drop 1 }) s1.nextId g with nextId := s1.nextId + 1 }

/-! ### Spawn bins (02 R33-R35) -/

/-- Sets a bin; a bin with no record is gone. -/
def setBin (s : State) (core b : Nat) (x : Bin) : State :=
  let k := tgetD s.cores core {}
  { s with cores := tput s.cores core { k with bins := if x.recs.isEmpty then tdel k.bins b else tput k.bins b x } }

/-- When a bin's timer that starts now expires: in throughput mode only, by its first record's launch (02 R34). -/
def binTimer (s : State) (recs : List SpawnRec) : Option Nat :=
  match recs with
  | [] => none
  | r :: _ =>
    match (tget s.teams r.team).bind (fun t => tget s.launches t.launch) with
    | some l => if l.mode == 0 then some (s.cycle + (if l.spawnTimer = 0 then 256 else l.spawnTimer)) else none
    | none => none

/-- A reservation becomes a record with the next logical thread identifier of its team (02 R33, R35). -/
def addRecord (s : State) (tid core b : Nat) (entry arg : Word) (parent : Nat) : State :=
  match tget s.teams tid with
  | none => s
  | some t =>
    let s1 := setTeam s tid { t with nextLtid := t.nextLtid + 1 }
    let x := tgetD (tgetD s1.cores core {}).bins b { entry := entry }
    let recs := x.recs ++ [{ team := tid, arg := arg, parent := parent, ltid := t.nextLtid }]
    setBin s1 core b { x with recs := recs, timerAt := if x.recs.isEmpty then binTimer s1 recs else x.timerAt }

/-- The team of which a bin forms a group next: one with W records, one to be flushed, or the one whose timer has
expired, by its first record; a slot must be free (02 R34). -/
def binReady (s : State) (core : Nat) (x : Bin) : Option Nat :=
  (once (x.recs.map (·.team))).find? (fun tid =>
    match (tget s.teams tid).bind (fun t => tget s.launches t.launch) with
    | some l =>
      (decide (l.alloc.w ≤ (x.recs.filter (fun r => r.team == tid)).length) || x.due.contains tid || x.expired == some tid) &&
      spawnFits s tid core l
    | none => false)

/-- Forms a group of a team from the oldest records of a bin, up to W (02 R34, 06 R130). DESIGN CHOICE (log entry 116):
the group stands on the core of its bin, whatever the parity of its number, which places launched groups (02 R27). -/
def formFrom (s : State) (core b : Nat) (x : Bin) (tid : Nat) : State :=
  match tget s.teams tid with
  | none => s
  | some t =>
    let w := ((tget s.launches t.launch).map (fun l => l.alloc.w)).getD 16
    let mine := (x.recs.filter (fun r => r.team == tid)).take w
    let lanes := (upto mine.length).map (fun k =>
      let r := mine.getD k { team := tid, arg := 0#32, parent := 0, ltid := 0 }
      (k, ({ status := .live, pc := x.entry, ltid := r.ltid, arg := r.arg, parent := BitVec.ofNat 32 r.parent } : Lane)))
    let rest := x.recs.filter (fun r => !mine.contains r)
    let left := rest.any (fun r => r.team == tid)
    let s1 := formGroup (setTeam s tid { t with nextGroup := t.nextGroup + 1 }) tid t.nextGroup core lanes
    setBin s1 core b { x with
      recs := rest, timerAt := binTimer s1 rest,
      due := if left then x.due else x.due.filter (fun k => k != tid),
      expired := if x.expired == some tid then none else x.expired }

/-- Forms groups on a core until no bin can; `fuel` bounds their number. DESIGN CHOICE (log entry 117): of several ready
bins the lowest number forms first, an order that 02 R34 does not give. -/
def formSpawns (fuel : Nat) (s : State) (core : Nat) : State :=
  match fuel with
  | 0 => s
  | f + 1 =>
    match (tgetD s.cores core {}).bins.findSome? (fun e => (binReady s core e.2).map (fun tid => (e.1, e.2, tid))) with
    | some (b, x, tid) => formSpawns f (formFrom s core b x tid) core
    | none => s

/-- Every live thread of a team, as committed, waits at BART, BARG or PHASE (02 R34), or none is left (06 R132). -/
def teamQuiet (s : State) (tid : Nat) : Bool :=
  (s.groups.filter (fun e => e.2.team == tid)).all (fun e =>
    let c := committedCore e.2
    (liveLanes c).all (fun i => match (laneAt c i).wait with
      | .bart => true
      | .barg => true
      | .phase _ => true
      | _ => false))

/-- Marks every record of a team for the flush (02 R34). -/
def flushTeam (s : State) (tid : Nat) : State :=
  { s with cores := tmap s.cores (fun _ k => { k with bins := tmap k.bins (fun _ b =>
      if b.recs.any (fun r => r.team == tid) && !b.due.contains tid then { b with due := b.due ++ [tid] } else b) }) }

end Sys2Proof.Machine
end

