-- ==== Sys2Proof/Machine/Area.lean ====
section
/-! DEFINITION. The save areas, byte by byte (02 R52-R54, 21 R398): where each section lies, the bytes that a save
writes there, and what a restore reads from them. A field whose place inside its section the spec leaves open has the
place that log entry 115 names. -/

namespace Sys2Proof.Machine

/-- A size padded to a multiple of 64 bytes. -/
def pad64 (n : Nat) : Nat := (n + 63) / 64 * 64

/-- The offset of section k of an area whose sections have these sizes (02 R52). -/
def sectionAt (sizes : List Nat) (k : Nat) : Nat := total ((sizes.take k).map pad64)

/-! ### Bytes and words of an area -/

/-- Bytes at ascending offsets, without those that are 0. -/
def cellsAt (o : Nat) (bs : List Byte) : List Host.Cell :=
  (upto bs.length).filterMap (fun k => let b := bs.getD k 0#8; if b = 0#8 then none else some (o + k, b))

/-- A number of n bytes at an offset. -/
def numberAt (o n v : Nat) : List Host.Cell := cellsAt o (natLE n v)

/-- Words at ascending offsets. -/
def wordsAt (o : Nat) (ws : List Word) : List Host.Cell :=
  (upto ws.length).flatMap (fun k => numberAt (o + 4 * k) 4 (ws.getD k 0#32).toNat)

/-- The words of n bytes from an offset on that are not 0, by index. -/
def wordsIn (m : Memory) (o n : Nat) : Table Word :=
  (m.filter (fun c => decide (o ≤ c.1) && decide (c.1 < o + n))).foldl (fun (t : Table Word) (c : Host.Cell) =>
    tupd t ((c.1 - o) / 4) 0#32 (fun w => w ||| ((c.2.setWidth 32 : Word) <<< (8 * ((c.1 - o) % 4))))) []

/-! ### The group save area (02 R52, R53) -/

/-- The sections: header, PCs, vector, uniform and predicate registers, masks, tiles, accumulators, trap state. -/
def groupSizes (a : Alloc) : List Nat :=
  [64, 4 * a.w, 4 * a.v * a.w, 4 * a.s, a.w, 96, 2112 * a.t, 256 * a.a * a.w, 64]

/-- The bytes of a group save area. -/
def groupArea (a : Alloc) : Nat := total ((groupSizes a).map pad64)

/-- What a register reads as: a released one its poison (02 R47). -/
def savedVal (bad : Word) (r : Reg) : Word := (readReg r bad).1

/-- The header (02 R53). -/
def groupHeader (t : Team) (l : Launch) (g : Group) : List Host.Cell :=
  let waits := fun (p : Wait → Bool) => (liveLanes g.regs).any (fun i => p (laneAt g.regs i).wait)
  let spawning := waits (fun w => match w with | .spawn _ => true | _ => false)
  let parked := waits (fun w => match w with | .phase _ => true | _ => false)
  let a := g.alloc
  numberAt 0 2 1 ++ numberAt 2 1 a.w ++ numberAt 3 1 a.v ++ numberAt 4 1 a.s ++ numberAt 5 1 a.t ++ numberAt 6 1 a.a ++
    numberAt 7 1 ((if spawning then 1 else 0) + (if parked then 2 else 0)) ++ numberAt 8 4 g.index ++
    numberAt 12 4 t.index ++ numberAt 16 8 l.kernelId.toNat ++ numberAt 24 4 l.number ++ numberAt 28 4 (groupArea a)

/-- The PC that an area holds for a lane: 0xFFFFFFFF without a live thread (02 R52, 06 R131). -/
def savedPc (x : Lane) : Word := if x.status == .live then x.pc else 0xFFFFFFFF#32

/-- The predicate byte of a lane: bit k is pk, and bit 7 is 1 (02 R52). -/
def savedPreds (c : GroupCore) (i : Nat) : Nat :=
  total ((upto 7).map (fun k => if (savedVal 0#32 (tgetD c.p (8 * i + k) {})).getLsbD 0 then 2 ^ k else 0)) + 128

/-- A tile: data, then sidecar. -/
def tileCells (o : Nat) (t : Tile) : List Host.Cell :=
  (t.data.filter (fun e => decide (e.1 < 2048) && e.2 != 0#8)).map (fun e => (o + e.1, e.2)) ++
    cellsAt (o + 2048) ((upto 64).map (fun k => tgetD t.side k 0x7F#8))

/-- The trap state: cause, pc, address, done mask and the pending trap flag. -/
def trapCells (o : Nat) (t : TrapState) : List Host.Cell :=
  numberAt o 4 t.cause ++ numberAt (o + 4) 4 t.pc.toNat ++ numberAt (o + 8) 4 t.addr.toNat ++ numberAt (o + 12) 8 t.done.toNat ++
    numberAt (o + 20) 4 (if t.parks.isEmpty then 0 else 1)

/-- The save area of a group (02 R52). -/
def groupCells (t : Team) (l : Launch) (g : Group) : List Host.Cell :=
  let a := g.alloc
  let c := g.regs
  let o := sectionAt (groupSizes a)
  groupHeader t l g ++
    wordsAt (o 1) ((upto a.w).map (fun i => savedPc (tgetD c.lanes i {}))) ++
    wordsAt (o 2) ((upto a.v).flatMap (fun r => (upto a.w).map (fun i => savedVal poison (tgetD c.v (64 * i + r) {})))) ++
    wordsAt (o 3) ((upto a.s).map (fun r => savedVal poison (tgetD c.s r {}))) ++
    cellsAt (o 4) ((upto a.w).map (fun i => BitVec.ofNat 8 (savedPreds c i))) ++
    (upto 12).flatMap (fun k => numberAt (o 5 + 8 * k) 8 (tgetD c.masks k 0#64).toNat) ++
    (upto a.t).flatMap (fun k => tileCells (o 6 + 2112 * k) (tgetD c.tiles k {})) ++
    (upto a.a).flatMap (fun k => (tgetD c.accs k []).flatMap (fun e => wordsAt (o 7 + 256 * a.w * k + 4 * e.1) [e.2])) ++
    trapCells (o 8) c.trap

/-- A tile of an area. -/
def tileIn (m : Memory) (o : Nat) : Tile :=
  { data := (m.filter (fun c => decide (o ≤ c.1) && decide (c.1 < o + 2048))).map (fun c => (c.1 - o, c.2)),
    side := (upto 64).filterMap (fun k => let b := mread m (o + 2048 + k); if b = 0x7F#8 then none else some (k, b)) }

/-- The registers of the words of a section, by key. -/
def regsIn (ws : Table Word) (key : Nat → Nat) : Table Reg := ws.foldl (fun t e => tput t (key e.1) { val := e.2 }) []

/-- A lane of an area: its thread, which goes on at the area's PC. -/
def laneIn (m : Memory) (o i : Nat) (x : Lane) : Lane := { x with pc := mword m (o + 4 * i) }

/-- What a restore reads from a group save area (02 R52, R55). -/
def groupIn (a : Alloc) (g : GroupSave) : GroupCore :=
  let m := g.area
  let o := sectionAt (groupSizes a)
  let preds := (upto a.w).flatMap (fun i => (upto 7).filterMap (fun k =>
    if (mread m (o 4 + i)).getLsbD k then some (8 * i + k, ({ val := 1#32 } : Reg)) else none))
  { lanes := tmap g.lanes (fun i x => laneIn m (o 1) i x),
    v := regsIn (wordsIn m (o 2) (4 * a.v * a.w)) (fun k => 64 * (k % a.w) + k / a.w),
    s := regsIn (wordsIn m (o 3) (4 * a.s)) id,
    p := preds.foldl (fun t e => tput t e.1 e.2) [],
    masks := (upto 12).filterMap (fun k => let x := mreadN m (o 5 + 8 * k) 8; if x = 0 then none else some (k, BitVec.ofNat 64 x)),
    tiles := (upto a.t).map (fun k => (k, tileIn m (o 6 + 2112 * k))),
    accs := (upto a.a).map (fun k => (k, wordsIn m (o 7 + 256 * a.w * k) (256 * a.w))),
    trap := { cause := mreadN m (o 8) 4, pc := mword m (o 8 + 4), addr := mword m (o 8 + 8),
              done := BitVec.ofNat 64 (mreadN m (o 8 + 12) 8) } }

/-! ### The team save area (02 R54, 21 R398) -/

/-- The cores of a team of a launch. -/
def coresPerTeam (l : Launch) : Nat := if l.pair then 2 else 1

/-- The bytes of the local-memory image with its bits. -/
def imageBytes (l : Launch) : Nat := coresPerTeam l * (l.lm + l.lm / 16)

/-- The sections but for the image: header, extent table, keys, state registers, handle slots, spawn records, spill, and
the engine registers. The image stands after the header. -/
def teamSizes (l : Launch) (slots records : Nat) : List Nat :=
  [64, 256, 16, 64, 64 + 80 * slots, 64 + 16 * records, 0, 1024 * coresPerTeam l]

/-- The bytes of a team save area but for its image. -/
def teamArea (l : Launch) (slots records : Nat) : Nat := total ((teamSizes l slots records).map pad64)

/-- The shape record in 64 bytes (11 R258). -/
def shapeBytes (x : Shape) : List Byte :=
  natLE 1 x.type ++ natLE 1 x.ndim ++ natLE 1 x.space ++ natLE 1 x.extent ++ (upto 4).flatMap (fun k => natLE 4 (x.dims.getD k 1)) ++
    natLE 4 0 ++ (upto 4).flatMap (fun k => natLE 8 ((x.strides.getD k 0) % 2 ^ 64).toNat) ++ natLE 8 x.base

/-- The 80 bytes of a handle slot: number, generation, 0, shape record. -/
def slotCells (o k : Nat) (x : Slot) : List Host.Cell :=
  numberAt o 4 k ++ numberAt (o + 4) 4 x.gen ++ (match x.shape with
    | some sh => cellsAt (o + 16) (shapeBytes sh)
    | none => [])

/-- The 16 bytes of a spawn record: entry, argument, parent, team. -/
def recordCells (o : Nat) (t : Team) (entry : Word) (r : SpawnRec) : List Host.Cell :=
  wordsAt o [entry, r.arg, BitVec.ofNat 32 r.parent, BitVec.ofNat 32 t.index]

/-- The entry of a declared extent: base, length, access. -/
def extentCells (o : Nat) (x : Extent) : List Host.Cell :=
  numberAt o 8 x.base ++ numberAt (o + 8) 4 x.len ++ numberAt (o + 12) 4 x.access

/-- The team save area without its image (02 R54). -/
def teamCells (t : Team) (l : Launch) (groups : Nat) (slots : Table Slot) (recs : List (Nat × Word × SpawnRec)) :
    List Host.Cell :=
  let o := sectionAt (teamSizes l slots.length recs.length)
  numberAt 0 2 1 ++ numberAt 2 1 (if l.pair then 1 else 0) ++ numberAt 4 4 l.lm ++ numberAt 8 4 groups ++
    numberAt 16 8 l.kernelId.toNat ++
    l.extents.flatMap (fun e => extentCells (o 1 + 16 * e.1) e.2) ++
    wordsAt (o 2) ((upto 4).map (fun n => tgetD t.regs n 0#32)) ++
    wordsAt (o 3) ([4, 8, 9, 10, 11, 17].map (fun n => tgetD t.regs n 0#32)) ++
    numberAt (o 4) 4 slots.length ++
    (upto slots.length).flatMap (fun k => let e := slots.getD k (0, {}); slotCells (o 4 + 64 + 80 * k) e.1 e.2) ++
    numberAt (o 5) 4 recs.length ++
    (upto recs.length).flatMap (fun k => match recs[k]? with
      | some r => recordCells (o 5 + 64 + 16 * k) t r.2.1 r.2.2
      | none => []) ++
    t.eregs.flatMap (fun e => numberAt (o 7 + 8 * e.1) 8 e.2.toNat)

/-- The state registers of an area (02 R49). -/
def regsSaved (l : Launch) (m : Memory) : Table Word :=
  let o := sectionAt (teamSizes l 0 0)
  (upto 4).map (fun n => (n, mword m (o 2 + 4 * n))) ++
    (upto 6).map (fun k => ([4, 8, 9, 10, 11, 17].getD k 0, mword m (o 3 + 4 * k)))

/-- The handle slots of an area. -/
def slotsSaved (l : Launch) (m : Memory) : Table Slot :=
  let o := sectionAt (teamSizes l 0 0) 4
  (upto (mreadN m o 4)).map (fun k =>
    let a := o + 64 + 80 * k
    (mreadN m a 4, { gen := mreadN m (a + 4) 4, shape := parseShape (mbytes m (a + 16) 64) }))

/-- The spawn records of an area, each with the index of its core. -/
def recordsSaved (l : Launch) (x : TeamSave) : List (Nat × Word × SpawnRec) :=
  let m := x.area
  let o := sectionAt (teamSizes l (mreadN m (sectionAt (teamSizes l 0 0) 4) 4) 0) 5
  (upto (mreadN m o 4)).map (fun k =>
    let a := o + 64 + 16 * k
    let who := x.recordIds.getD k (0, 0)
    (who.1, mword m a, { team := 0, arg := mword m (a + 4), parent := mreadN m (a + 8) 4, ltid := who.2 }))

/-- The engine registers of an area. -/
def eregsSaved (l : Launch) (m : Memory) : Table DWord :=
  let n := fun (o : Nat) => mreadN m o 4
  let slots := n (sectionAt (teamSizes l 0 0) 4)
  let recs := n (sectionAt (teamSizes l slots 0) 5)
  let o := sectionAt (teamSizes l slots recs) 7
  (upto (128 * coresPerTeam l)).filterMap (fun k =>
    let v := mreadN m (o + 8 * k) 8
    if v = 0 then none else some (k, BitVec.ofNat 64 v))

/-! ### The local-memory image (02 R54, 09 R196) -/

/-- The physical address of the first byte of allocation i. -/
def allocBase (t : Team) (i : Nat) : Nat := t.cores.getD i 0 * Config.localBytes + t.pbase.getD i 0

/-- The cells of an address range, keyed from `key` on. -/
def grabRange (m : Memory) (lo n key : Nat) : List Host.Cell :=
  (m.filter (fun c => decide (lo ≤ c.1) && decide (c.1 < lo + n))).map (fun c => (c.1 - lo + key, c.2))

/-- An address range with the cells of keys `key` to `key + n - 1`, and 0 elsewhere. -/
def putRange (m : Memory) (lo n key : Nat) (cs : List Host.Cell) : Memory :=
  (cs.filter (fun c => decide (key ≤ c.1) && decide (c.1 < key + n))).foldl
    (fun m c => mwrite m (c.1 - key + lo) c.2) (mclear m lo n)

/-- The packed bits of four full and clean words: F/E at the even bits, D at the odd ones. -/
def cleanByte : Byte := 0x55#8

/-- The bits of the words of a range, packed four words to a byte, keyed from `key` on. -/
def packBits (m : Memory) (lo n key : Nat) : List Host.Cell :=
  ((m.filter (fun c => decide (lo ≤ c.1) && decide (c.1 < lo + n))).foldl (fun (t : Table Byte) (c : Host.Cell) =>
    tupd t (key + (c.1 - lo) / 16) cleanByte (fun b => b ^^^ ((c.2 : Byte) <<< (2 * ((c.1 - lo) % 16 / 4))))) []).filter
      (fun c => c.2 != cleanByte)

/-- The word bits of packed bytes, as words from the start of the allocation on. -/
def unpackBits (cs : List Host.Cell) : List Host.Cell :=
  cs.flatMap (fun c => (upto 4).filterMap (fun j =>
    let b := ((c.2 ^^^ cleanByte) >>> (2 * j)) &&& 3#8
    if b = 0#8 then none else some (16 * c.1 + 4 * j, b)))

/-- A byte of a team save area, its image after the header (02 R54). -/
def areaByte (l : Launch) (x : TeamSave) (o : Nat) : Byte :=
  let lm := coresPerTeam l * l.lm
  if o < 64 then mread x.area o
  else if o < 64 + lm then mread x.image (o - 64)
  else if o < 64 + imageBytes l then (tget x.bits (o - 64 - lm)).getD cleanByte
  else if o < 64 + pad64 (imageBytes l) then 0#8
  else mread x.area (o - pad64 (imageBytes l))

end Sys2Proof.Machine
end

