-- ==== Sys2Proof/Machine/Save.lean ====
section
/-! DEFINITION. Team contexts: their sizes, boundary snapshots and pre-emption saves, and their restore (02 R52-R55,
21 R398, R399, 23 R413). -/

namespace Sys2Proof.Machine

/-! ### Sizes (23 R413) -/

/-- The bytes of a team's snapshot region: two copies (23 R413). -/
def regionSize (l : Launch) : Nat :=
  pad64 (2 * ((if l.spawnSlots = 0 then l.groups else 64) * groupArea l.alloc + pad64 (imageBytes l) + teamArea l 0 0 + 28672))

/-- The pages of a launch's snapshot run (23 R413). -/
def snapshotPages (l : Launch) : Nat :=
  (gangCount l * l.pref * regionSize l + Config.pageBytes - 1) / Config.pageBytes

/-! ### Allocations (09 R193, R196) -/

/-- Clears the snapshot-changed bits of a team's lines. -/
def clearChanged (s : State) (t : Team) (l : Launch) : State :=
  { s with lsnap := (upto t.cores.length).foldl (fun m i => mclear m (allocBase t i / 64) (l.lm / 64)) s.lsnap }

/-- The lines of a team whose snapshot-changed bit is 1. -/
def changedLines (s : State) (t : Team) (l : Launch) : Nat :=
  total ((upto t.cores.length).map (fun i => (grabRange s.lsnap (allocBase t i / 64) (l.lm / 64) 0).length))

/-- The allocation as a launch places it: zeros and the image's data section; every word full with D = 0 (03 R77, 09 R196). -/
def freshAllocation (s : State) (t : Team) (l : Launch) : State :=
  (upto t.cores.length).foldl (fun s i =>
    let a := allocBase t i
    { s with lmem := mwrites (mclear s.lmem a l.lm) a l.dataBytes, lbits := mclear s.lbits a l.lm }) s

/-! ### Saving -/

/-- The spawn records of a team: index of its core, entry, record. -/
def teamRecords (s : State) (tid : Nat) (t : Team) : List (Nat × Word × SpawnRec) :=
  (upto t.cores.length).flatMap (fun i =>
    (tvals (tgetD s.cores (t.cores.getD i 0) {}).bins).flatMap (fun b =>
      (b.recs.filter (fun r => r.team == tid)).map (fun r => (i, b.entry, r))))

/-- The handle slots that a team holds. -/
def teamSlots (s : State) (tid part : Nat) : Table Slot :=
  (((tget s.parts part).map (·.slots)).getD []).filter (fun e => e.2.owner == some tid)

/-- The generations of the 256 slots that a team may load. -/
def teamGens (s : State) (t : Team) (part : Nat) : Table Nat :=
  (((((tget s.parts part).map (·.slots))).getD []).filter (fun e => e.1 / 256 == t.logicalCluster)).map (fun e => (e.1, e.2.gen))

/-- Returns the free slots that a team may load, and its own, to the generations of a save area; the loads of other teams
in the phase stand, and no generation that they have issued is issued again (11 R260, 23 R415). -/
def rewindGens (s : State) (tid part : Nat) (t : Team) (x : TeamSave) : State :=
  { s with parts := tmod s.parts part (fun p => { p with slots := tmap p.slots (fun k y =>
      if k / 256 == t.logicalCluster && (y.owner == none || y.owner == some tid) then
        let kept := y.loads.filter (fun e => e.1 != tid)
        { gen := (kept.getLast?.map (·.2)).getD (tgetD x.gens k 0), loads := kept }
      else y) }) }

/-- The context of a team as it stands (02 R52-R54). -/
def teamSave (s : State) (tid : Nat) (t : Team) (l : Launch) : TeamSave :=
  let gs := s.groups.filter (fun e => e.2.team == tid)
  let recs := teamRecords s tid t
  { groups := gs.map (fun e =>
      { index := e.2.index, side := coreIndex e.2 t, area := groupCells t l e.2, lanes := e.2.regs.lanes,
        quantum := e.2.nextQuantum, forks := e.2.forks, ordinal := e.2.ordinal }),
    area := teamCells t l gs.length (teamSlots s tid l.part) recs,
    image := (upto t.cores.length).flatMap (fun i => grabRange s.lmem (allocBase t i) l.lm (i * l.lm)),
    bits := (upto t.cores.length).flatMap (fun i => packBits s.lbits (allocBase t i) l.lm (i * (l.lm / 16))),
    recordIds := recs.map (fun r => (r.1, r.2.2.ltid)), gens := teamGens s t l.part,
    nextLtid := t.nextLtid, nextGroup := t.nextGroup }

/-- Bytes that a save of a team writes (21 R398). -/
def saveBytes (s : State) (tid : Nat) (t : Team) (l : Launch) : Nat :=
  (s.groups.filter (fun e => e.2.team == tid)).length * groupArea l.alloc + 68 * changedLines s t l +
    teamArea l (teamSlots s tid l.part).length (teamRecords s tid t).length

/-- Writes the boundary snapshot of a placed team, which becomes current (23 R413). -/
def snapshotTeam (s : State) (tid : Nat) : State :=
  match tget s.teams tid with
  | none => s
  | some t =>
    match tget s.launches t.launch with
    | none => s
    | some l => clearChanged (setTeam s tid { t with snap := some (teamSave s tid t l), formed := [], reform := [] }) t l

/-! ### Restoring (02 R55, 21 R399) -/

/-- Registers of an area on registers that have been used: their tags are past every outstanding result (02 R46). -/
def restoreRegs (now old : Table Reg) : Table Reg :=
  now.foldl (fun t e => tput t e.1 { tgetD old e.1 {} with tag := e.2.tag + 1, pending := false }) old

/-- A group of a save area returns, on the same side of the team's cores; `keep` returns it to its quantum and ordinal,
as a rollback does (23 R415). -/
def restoreGroup (s : State) (tid : Nat) (t : Team) (l : Launch) (keep : Bool) (g : GroupSave) : State :=
  let core := t.cores.getD g.side 0
  let c := core / 64
  let ord := tgetD ((((tget s.launches t.launch).map (·.ordinals))).getD []) c 0
  let regs := groupIn l.alloc g
  let fresh := { regs with v := advanceTags regs.v, s := advanceTags regs.s, p := advanceTags regs.p }
  let x : Group :=
    { team := tid, index := g.index, alloc := l.alloc, core := core, slot := freeGroupSlot s core, regs := fresh,
      nextQuantum := if keep then g.quantum else startQuantum l c t.cohort, forks := g.forks,
      nextSet := 1 + (tvals g.lanes).foldl (fun m y => max m y.set) 0,
      ordinal := if keep then g.ordinal else ord }
  let s1 := { setGroup s s.nextId x with nextId := s.nextId + 1 }
  if keep then s1
  else { s1 with launches := tmod s1.launches t.launch (fun l => { l with ordinals := tput l.ordinals c (ord + 1) }) }

/-- Enters a spawn record of a save area in a bin of its entry with room, or in a free one; the team keeps a record that
no bin takes, and enters it when one does (02 R33). -/
def restoreRecord (tid : Nat) (s : State) (r : Nat × Word × SpawnRec) : State :=
  match tget s.teams tid with
  | none => s
  | some t =>
    let core := t.cores.getD r.1 0
    let bins := (tgetD s.cores core {}).bins
    let mine := (upto 8).find? (fun b => (tget bins b).map (·.entry) == some r.2.1)
    let bin := match mine with
      | some b => if ((tgetD bins b { entry := r.2.1 }).recs.length) < 64 then some b else none
      | none => (upto 8).find? (fun b => (tget bins b).isNone)
    match bin with
    | none => setTeam s tid { t with owed := t.owed ++ [r] }
    | some b =>
      let x := tgetD bins b { entry := r.2.1 }
      let recs := x.recs ++ [{ r.2.2 with team := tid }]
      setBin s core b { x with recs := recs, timerAt := if x.recs.isEmpty then binTimer s recs else x.timerAt }

/-- Enters what spawn records a team still keeps, where bins now take them. -/
def enterOwed (s : State) (tid : Nat) : State :=
  match tget s.teams tid with
  | none => s
  | some t => if t.owed.isEmpty then s else t.owed.foldl (restoreRecord tid) (setTeam s tid { t with owed := [] })

/-- Gives a team that stands on its cores the context of a save area: memory, bits, registers, groups, handle slots and
spawn records. -/
def restoreTeam (s : State) (tid : Nat) (t : Team) (l : Launch) (keep : Bool) (x : TeamSave) : State :=
  let counted := bumpTeam { t with regs := regsSaved l x.area } 10 t.staleSaved
  let u := { t with
    regs := if t.staleSaved = 0 then regsSaved l x.area else counted.regs, staleSaved := 0,
    cohort := if keep then t.cohort else 0, unjoined := false, eregs := eregsSaved l x.area, bartc := [], nextLtid := x.nextLtid, nextGroup := x.nextGroup,
    formed := [], reform := if keep && l.mode == 3 then t.formed ++ t.reform else [], killed := false, relaunch := false, exname := none, reserved := [], fp := { n := t.fp.n }, wrote := [],
    dependsOn := [], owed := [] }
  let s1 := setTeam s tid u
  let s2 := (upto u.cores.length).foldl (fun s i =>
    let a := allocBase u i
    { s with
      lmem := putRange s.lmem a l.lm (i * l.lm) x.image,
      lbits := putRange s.lbits a l.lm (i * l.lm) (unpackBits x.bits) }) s1
  let s3 := { clearChanged s2 u l with parts := tmod s2.parts l.part (fun p => { p with
    slots := (slotsSaved l x.area).foldl (fun m e => tput m e.1 { e.2 with owner := some tid, loads := (tgetD p.slots e.1 {}).loads })
      (tmap p.slots (fun _ y => if y.owner == some tid then { y with owner := none, shape := none } else y)) }) }
  let s4 := x.groups.foldl (fun s g => restoreGroup s tid u l keep g) s3
  (recordsSaved l x).foldl (restoreRecord tid) s4

/-- Lets the threads of a group that wait at PHASE go on, as one set for each PC (08 R165, 09 R213). -/
def resumePhase (g : Group) : Group :=
  let ls := (liveLanes g.regs).filter (fun i => match (laneAt g.regs i).wait with
    | .phase _ => true
    | _ => false)
  if ls.isEmpty then g
  else
    let c := { g.regs with lanes := tmap g.regs.lanes (fun i x => if ls.contains i then { x with wait := .ready, readyQ := 0 } else x) }
    { g with regs := splitSets byPc c ls g.nextSet, nextSet := g.nextSet + ls.length }

/-- Lets every thread of a team that waits at PHASE go on. -/
def resumeTeam (s : State) (tid : Nat) : State :=
  { s with groups := tmap s.groups (fun _ g => if g.team == tid then resumePhase g else g) }

end Sys2Proof.Machine
end

