-- ==== Sys2Proof/Machine/Commit.lean ====
section
/-! DEFINITION. The commit arbiter (08 R178-R183, R188-R190, 07 R161): which chunks may commit, what a commit makes
visible, squashes, and what a commit releases: barriers, waits, spawned groups, retired groups and teams. -/

namespace Sys2Proof.Machine

/-! ### Squashes (08 R180, 02 R48) -/

/-- The state a squash returns a group to. -/
def restoreCore (now old : GroupCore) : GroupCore :=
  endSwitch { old with v := restoreRegs now.v old.v, s := restoreRegs now.s old.s, p := restoreRegs now.p old.p }

/-- Squashes every uncommitted chunk of a group: it returns to the start of the oldest, and its team counts each
(08 R180); traps that it withdraws leave their FP window (14 R287). -/
def squashGroup (s : State) (gid : Nat) : State :=
  match tget s.groups gid with
  | none => s
  | some g =>
    match g.inflight ++ g.cur.toList with
    | [] => s
    | c :: rest =>
      let core := restoreCore g.regs c.start
      let g1 := { g with regs := core, inflight := [], cur := none, running := none, nextQuantum := c.quantum, busy := [] }
      settleWindow { setGroup s gid g1 with
        teams := tmod s.teams g.team (fun t => bumpTeam t 8 (rest.length + 1)) } g.team

/-- Squashes the engine chunk of a unit: its operation runs again (10 R219). -/
def squashUnit (s : State) (core unit : Nat) : State :=
  match (engineAt s core unit).run with
  | none => s
  | some p =>
    match p.op with
    | none => s
    | some _ =>
      let s1 := setProg s core unit { p with op := none, mark := none }
      onTeam s1 p.team (fun t => bumpTeam t 8 1)

/-- Asks for the commit token after the fourth conflict squash in a row; the chunks of groups that commit in the order of
quanta need none, for the first of them always commits (07 R161). -/
def askToken (s : State) (c : Nat) (o : Owner) (count mode : Nat) : State :=
  let inQuanta := mode == 1 && (match o with
    | .group _ => true
    | .unit _ _ => false)
  if count = 4 && !inQuanta then
    let cl := clusterAt s c
    if cl.token == some o || cl.requests.any (fun r => r.2 == o) then s
    else setCluster s c { cl with requests := cl.requests ++ [(s.cycle, o)] }
  else s

/-- The launch mode of a team. -/
def teamMode (s : State) (tid : Nat) : Nat :=
  ((anyTeam s tid).bind (fun t => tget s.launches t.launch)).map (·.mode) |>.getD 0

/-- A squash by signature conflict, which counts towards the token (07 R161). -/
def conflictSquash (s : State) (c : Nat) (o : Owner) : State :=
  match o with
  | .group gid =>
    match tget s.groups gid with
    | none => s
    | some g =>
      let s1 := squashGroup s gid
      let s2 := { s1 with groups := tmod s1.groups gid (fun x => { x with conflicts := g.conflicts + 1 }) }
      askToken s2 c o (g.conflicts + 1) (teamMode s g.team)
  | .unit core u =>
    match (engineAt s core u).run with
    | none => s
    | some p =>
      let s1 := squashUnit s core u
      let s2 := match (engineAt s1 core u).run with
        | some x => setProg s1 core u { x with conflicts := p.conflicts + 1 }
        | none => s1
      askToken s2 c o (p.conflicts + 1) (teamMode s p.team)

/-- Place of an owner in ties: physical core, then group slot, units after the slots (08 R179). -/
def ownerPlace (s : State) (o : Owner) : List Nat :=
  match o with
  | .group gid => match tget s.groups gid with
    | some g => [g.core, g.slot]
    | none => []
  | .unit core u => [core, 64 + u]

/-! ### What a commit makes visible (08 R178) -/

/-- Makes a chunk's stores and bit changes visible, oldest first, and marks the lines for the snapshot (09 R196). -/
def applyStores (s : State) (c : Chunk) : State :=
  let lines := c.stores.map (fun x => x.1 / 64) ++ c.tags.map (fun x => x.addr / 64)
  { s with
    lmem := c.stores.reverse.foldl (fun m x => mwrite m x.1 x.2) s.lmem,
    lbits := c.tags.reverse.foldl (fun m x =>
      let old := mread m x.addr
      let full := x.full.getD (!old.getLsbD 0)
      let dirty := x.dirty.getD (old.getLsbD 1)
      mwrite m x.addr (BitVec.ofNat 8 ((if full then 0 else 1) + (if dirty then 2 else 0)))) s.lbits,
    lsnap := lines.foldl (fun m k => mwrite m k 1#8) s.lsnap }

/-- A GRED contribution joins the atomic buffer: it folds into the entry of its key or makes it (09 R207). -/
def addEntry (s : State) (gid : Nat) (g : Group) (t : Team) (l : Launch) (n off fn : Nat) (v : DWord) : State :=
  let same := fun (e : Entry) => e.group == gid && e.ext == n && e.off == off && e.fn == fn
  if s.gred.any same then
    { s with gred := s.gred.map (fun e => if same e then { e with partialVal := (foldRed fn e.partialVal v).1 } else e) }
  else
    { s with gred := s.gred ++ [{
        die := g.core / 128, cluster := t.logicalCluster,
        keys := [t.logicalCore + coreIndex g t, g.index % 4, l.number, t.gang, t.index, g.index],
        launch := t.launch, team := g.team, group := gid, ext := n, off := off, fn := fn, partialVal := v }] }

/-- A fork enters the list of its unit, and its group's forks (11 R235, R239); a marked lattice refuses it (24 R437). -/
def addFork (s : State) (gid : Nat) (g : Group) (unit offset : Nat) : State :=
  let e := engineAt s g.core unit
  let marked := decide (4 ≤ unit) && (match physicalLattice s g.core (unit - 4) with
    | some l => tgetD s.dev.wear.lats (g.core * 2 + l) 0 != 0
    | none => false)
  let p : Prog := { uid := s.nextId, kind := if unit < 4 then .copy else .lattice, team := g.team, group := some gid,
                    offset := offset, pc := offset, refused := marked }
  let s1 := { setEngine s g.core unit { e with list := e.list ++ [p] } with nextId := s.nextId + 1 }
  { s1 with groups := tmod s1.groups gid (fun x => { x with forks := x.forks ++ [{ unit := unit, prog := p.uid, status := 1 }] }) }

/-- Changes the handle slot of a partition. -/
def onSlot (s : State) (part k : Nat) (f : Slot → Slot) : State :=
  { s with parts := tmod s.parts part (fun p => { p with slots := tupd p.slots k {} f }) }

/-- Applies one effect of a group's chunk; spawn reservations are applied apart, in their own order. -/
def applyEff (gid : Nat) (g : Group) (s : State) (e : Eff) : State :=
  match tget s.teams g.team with
  | none => s
  | some t =>
    match tget s.launches t.launch with
    | none => s
    | some l =>
      match e with
      | .wrst n v => setTeam s g.team { t with regs := tput t.regs n v }
      | .amax a => setTeam s g.team { t with regs := tput t.regs 3 (applyReg 3 (teamReg t 3) [.amax a]) }
      | .count i n => applyCounts s g.team [(i, n)]
      | .gred n off fn v => addEntry s gid g t l n off fn v
      | .spawn _ _ _ _ => s
      | .fork u off => addFork s gid g u off
      | .erset q n v => setTeam s g.team { t with eregs := tput t.eregs ((coreIndex g t * 4 + q) * 32 + n) v }
      | .hload k gen sh => onSlot s l.part k (fun x => { owner := some g.team, gen := gen, shape := some sh, loads := x.loads ++ [(g.team, gen)] })
      | .hdrop k => onSlot s l.part k (fun x => { x with owner := none, shape := none })
      | .exname n => setTeam s g.team { t with exname := some n }
      | .lat _ _ _ _ => s

/-- The spawn reservations of a chunk become records, by parent and then program order (02 R35). -/
def applySpawns (g : Group) (s : State) (effs : List Eff) : State :=
  let rs := effs.filterMap (fun e => match e with | .spawn b en a p => some (b, en, a, p) | _ => none)
  (sortBy (fun a b => decide (a.2.2.2 < b.2.2.2)) rs).foldl (fun s r => addRecord s g.team g.core r.1 r.2.1 r.2.2.1 r.2.2.2) s

/-- Enters a committed chunk of a team in the producer-to-consumer matrix (23 R415): it depends on a team of its gang whose
earlier chunk wrote what it read, or whose allocation it wrote to; windows are confined to a gang (09 R194). -/
def noteDepends (s : State) (tid cluster : Nat) (c : Chunk) : State :=
  let inside := fun (u : Team) (a : Nat) => (upto u.cores.length).any (fun i =>
    let base := u.cores.getD i 0 * Config.localBytes + u.pbase.getD i 0
    let lm := ((tget s.launches u.launch).map (·.lm)).getD 0
    decide (base ≤ a) && decide (a < base + lm))
  let gang := (anyTeam s tid).map (fun t => (t.launch, t.gang))
  let on := ((s.teams ++ s.retired).filter (fun e => e.1 != tid && e.2.cluster == cluster && !e.2.killed &&
    gang == some (e.2.launch, e.2.gang) &&
    (e.2.wrote.any (fun w => sigHitsRead w c.rsig) ||
      c.stores.any (fun x => inside e.2 x.1) || c.tags.any (fun x => inside e.2 x.addr)))).map (·.1)
  onTeam s tid (fun t => { t with
    wrote := if c.wsig == {} then t.wrote else t.wrote ++ [c.wsig],
    dependsOn := once (t.dependsOn ++ on) })

/-- The next commit index of a cluster goes to one more chunk. -/
def takeIndex (s : State) (c : Nat) : State :=
  let cl := clusterAt s c
  setCluster s c { cl with commitIndex := cl.commitIndex + 1 }

/-- The entry of a slice that replay follows next: the first that is not followed yet. -/
def logPlace (x : LogSlice) : Nat := ((upto (x.skip.length + 1)).find? (fun k => !x.skip.contains (x.next + k))).getD 0 + x.next

/-- A slice once its next entry is followed: since this cycle the one after it is the next. -/
def passEntry (now : Nat) (x : LogSlice) : LogSlice := { x with next := logPlace x + 1, since := now }

/-- A commit in the commit log: recorded, or the replayed entry passed (08 R188-R190). -/
def logCommit (s : State) (lid c kind who seq : Nat) : State :=
  match tget s.launches lid with
  | none => s
  | some l =>
    if l.mode == 2 then recordEntry s lid c (logEntry kind who seq)
    else if l.mode == 3 then
      let x := tgetD l.logs c {}
      setLaunch s lid { l with logs := tput l.logs c (passEntry s.cycle x) }
    else s

/-- The entry of the commit log that the next commit of a launch in a cluster makes or passes is an engine operation of a
team (23 R415). -/
def noteEngine (s : State) (lid c tid : Nat) : State :=
  { s with launches := tmod s.launches lid (fun l =>
      if l.mode < 2 then l
      else { l with logs := tupd l.logs c {} (fun x =>
        { x with engine := x.engine ++ [(if l.mode == 2 then x.written else logPlace x, tid)] }) }) }

/-- The count that the next chunk operation of a team on a unit carries: in replay after a rollback the one that it had, else
the unit's next (08 R188, 23 R415). -/
def opCount (l : Launch) (key tid : Nat) : Nat :=
  ((l.redo.find? (fun r => r.1 == key && r.2.1 == tid)).map (·.2.2)).getD (tgetD l.engineOps key 0)

/-- A chunk operation of a team on a unit has been counted. -/
def countOp (l : Launch) (key tid : Nat) : Launch :=
  if l.redo.any (fun r => r.1 == key && r.2.1 == tid) then { l with redo := l.redo.erase (key, tid, opCount l key tid) }
  else { l with engineOps := tupd l.engineOps key 0 (· + 1) }

/-- The owner's token is released, and its request withdrawn (07 R161). -/
def dropToken (s : State) (c : Nat) (o : Owner) : State :=
  let cl := clusterAt s c
  setCluster s c { cl with token := cl.token.filter (fun x => x != o), requests := cl.requests.filter (fun r => r.2 != o) }

/-- The round that commits, after quantum q of a group of a deterministic launch: that of its cluster, or that of the teams
which one rollback returned (08 R182, 23 R415). -/
def passRound (l : Launch) (cluster cohort q : Nat) : Launch :=
  if l.mode != 1 then l
  else if cohort = 0 then { l with rounds := tput l.rounds cluster q }
  else { l with lagging := tput l.lagging cohort (q + 1) }

/-- The teams that a rollback returned join the others again once all their groups are up to the round (23 R415). -/
def mergeCohort (s : State) (lid cluster cohort : Nat) : State :=
  match tget s.launches lid with
  | none => s
  | some l =>
    let mine := fun (t : Team) => t.launch == lid && t.cohort == cohort
    if cohort != 0 && s.groups.all (fun e => !groupLives e.2 || !((tget s.teams e.2.team).map mine).getD false ||
        decide (startQuantum l cluster 0 ≤ commitQuantum e.2)) then
      { s with
        teams := tmap s.teams (fun _ t => if mine t then { t with cohort := 0 } else t),
        launches := tput s.launches lid { l with lagging := tdel l.lagging cohort } }
    else s

/-- What the commit of a group's quantum q does to the rounds of its launch (08 R182, 23 R415). -/
def noteRound (s : State) (t : Team) (cluster q : Nat) : State :=
  mergeCohort { s with launches := tmod s.launches t.launch (fun l => passRound l cluster t.cohort q) } t.launch cluster t.cohort

/-- Notes in a launch of a mode, deterministic or replay, that a team's FP window can close: it holds the traps that ended a
chunk of its quantum, and in deterministic mode its handlers run from the quantum after this round (14 R287, 08 R183). -/
def noteWindow (mode : Nat) (s : State) (tid : Nat) : State :=
  match tget s.teams tid with
  | none => s
  | some t =>
    match tget s.launches t.launch with
    | none => s
    | some l =>
      if l.mode == mode && t.fp.runsAt.isNone && windowOver s tid t l then
        assignWindow (setTeam s tid { t with fp := { t.fp with runsAt := some (startQuantum l t.cluster t.cohort) } }) tid t.fp.n
          (fun p => p.quantum == t.fp.quantum)
      else s

/-- What a commit of a team's group does to its FP windows: one whose service has ended, one that traps now committed open,
and one that can close (14 R287). -/
def watchWindow (s : State) (tid : Nat) : State := noteWindow 1 (openWindow (settleWindow s tid) tid) tid

/-- Commits the oldest chunk of a group; its latency is a sample (24 R434). -/
def commitGroup (s : State) (gid : Nat) : State :=
  match groupTriple s gid with
  | none => s
  | some (g, t, _) =>
    match g.inflight with
    | [] => s
    | c :: rest =>
      let cluster := g.core / 64
      let own := c.effs.foldl (fun t e => match e with | .count i n => tupd t i 0 (· + n) | _ => t) g.counted
      let g1 := { g with inflight := rest, conflicts := 0, strikes := 0, counted := own }
      let s1 := dropToken (takeIndex (setGroup s gid g1) cluster) cluster (.group gid)
      let s2 := applySpawns g (c.effs.foldl (applyEff gid g) (applyStores s1 c)) c.effs
      let s3 := logCommit (noteDepends s2 g.team cluster c) t.launch cluster 0 g.ordinal c.quantum
      let s4 := noteRound s3 t cluster c.quantum
      let touched := c.effs.any (fun e => match e with
        | .exname _ => true
        | .erset q _ _ => q == 0
        | _ => false)
      let s5 := addSample (if touched then reserveTeam s4 g.team else s4) cluster (s.cycle - c.endCycle)
      watchWindow s5 g.team

/-- Commits an empty quantum of a group (08 R183). -/
def commitEmpty (s : State) (gid : Nat) : State :=
  match groupTriple s gid with
  | none => s
  | some (g, t, _) =>
    let cluster := g.core / 64
    let s1 := takeIndex (setGroup s gid { g with nextQuantum := g.nextQuantum + 1 }) cluster
    watchWindow (noteRound s1 t cluster g.nextQuantum) g.team

/-- Commits the engine chunk of a unit (10 R219, 18 R352, R358). -/
def commitUnit (s : State) (core unit : Nat) : State :=
  match seqAt s core unit with
  | none => s
  | some q =>
    match q.p.op with
    | none => s
    | some c =>
      let cluster := core / 64
      let key := core * 8 + unit
      let n := opCount q.l key q.p.team
      let s1 := addSample (applyStores (dropToken (takeIndex s cluster) cluster (.unit core unit)) c) cluster (s.cycle - c.endCycle)
      let s2 := noteEngine (setLaunch s1 q.t.launch (countOp q.l key q.p.team)) q.t.launch cluster q.p.team
      let s3 := logCommit (noteDepends s2 q.p.team cluster c) q.t.launch cluster 1 (logicalCore s core * 8 + unit) n
      let s4 := setProg s3 core unit (nextWord { q.p with op := none, mark := none, conflicts := 0, strikes := 0 })
      let s5 := match q.p.mark with
        | some b =>
          let lat := core * 2 + (physicalLattice s core (unit - 4)).getD 0
          markBiased s4 lat b
        | none => s4
      match c.effs with
      | .lat fn first count raw :: _ =>
        match loadLattice s5 core unit q.t.launch fn first count raw with
        | .ok s6 => s6
        | .error st =>
          let s6 := setProg s3 core unit { q.p with op := none }
          endProgram s6 core unit st q.p.pc (sectionWord q.l.latt q.p.pc)
      | _ => s5

/-! ### Which chunks may commit (08 R178, R179, R182, R190) -/

/-- A chunk that may be considered: its owner, and whether it is an empty quantum. -/
structure Cand where
  owner : Owner
  core : Nat
  chunk : Chunk
  empty : Bool
  launch : Nat
  mode : Nat
  key : List Nat

/-- The Hilbert index of 08 R185; `fuel` bounds the bits of s. -/
def hidx (fuel n s x y d : Nat) : Nat :=
  match fuel with
  | 0 => d
  | f + 1 =>
    if s = 0 then d
    else
      let rx := if (x &&& s) != 0 then 1 else 0
      let ry := if (y &&& s) != 0 then 1 else 0
      let d' := d + s * s * ((3 * rx) ^^^ ry)
      if ry = 0 then
        let x' := if rx = 1 then n - 1 - x else x
        let y' := if rx = 1 then n - 1 - y else y
        hidx f n (s / 2) y' x' d'
      else hidx f n (s / 2) x y d'

/-- The least power of two at or above both extents (08 R185). -/
def hilbertSide (fuel a b n : Nat) : Nat :=
  match fuel with
  | 0 => n
  | f + 1 => if n ≥ a ∧ n ≥ b then n else hilbertSide f a b (2 * n)

/-- The curve position of a gang (08 R185). -/
def curvePos (l : Launch) (gang : Nat) : List Nat :=
  let n := hilbertSide 33 l.grid.1 l.grid.2.1 1
  [gang / l.grid.1 / l.grid.2.1, hidx 33 n (n / 2) (gang % l.grid.1) (gang / l.grid.1 % l.grid.2.1) 0]

/-- The group key of 08 R182. -/
def groupKey (g : Group) (t : Team) (l : Launch) : List Nat := curvePos l t.gang ++ [t.index, g.index]

/-- The group key of a group in a state. -/
def keyOf (s : State) (g : Group) : List Nat :=
  match tget s.teams g.team with
  | none => []
  | some t => ((tget s.launches t.launch).map (groupKey g t)).getD []

/-- The gang at a curve rank (08 R185). -/
def gangAtRank (l : Launch) (i : Nat) : Nat :=
  (sortBy (fun a b => lexLt (curvePos l a) (curvePos l b)) (upto (gangCount l))).getD i 0

/-- A wait that lets a deterministic group commit empty quantum q: every one of 06 R115 but the switch wait, an ended
part, and SLEEP, which changes only timing; a wait that has been ended for a later quantum still stands in this one
(08 R183, 06 R133). -/
def blockedLane (q : Nat) (x : Lane) : Bool :=
  match x.wait with
  | .ready => decide (q < x.readyQ)
  | .latm => false
  | .sleep _ => false
  | _ => true

/-- Whether a deterministic group may commit an empty quantum (08 R183). -/
def emptyQuantum (g : Group) : Bool :=
  g.inflight.isEmpty && g.cur.isNone && !(liveLanes g.regs).isEmpty &&
  (liveLanes g.regs).all (fun i => blockedLane g.nextQuantum (laneAt g.regs i))

/-- The free entries of the units a chunk forks on suffice, beside the forks of chunks of its core that commit with it
(11 R235, 08 R178). -/
def forksFit (s : State) (core : Nat) (others : List Chunk) (c : Chunk) : Bool :=
  (upto 6).all (fun u =>
    decide (forksOn u c = 0) ||
      decide ((engineAt s core u).list.length + total (others.map (forksOn u)) + forksOn u c ≤ 128))

/-- The chunks of a cluster that have ended, with results returned and D cycles past. -/
def candidates (s : State) (c : Nat) : List Cand :=
  let groups := (s.groups.filter (fun e => e.2.core / 64 == c)).filterMap (fun e =>
    match tget s.teams e.2.team with
    | none => none
    | some t =>
      match tget s.launches t.launch with
      | none => none
      | some l =>
        let key := groupKey e.2 t l
        match e.2.inflight with
        | k :: _ =>
          if decide (k.endCycle + Config.dCycles ≤ s.cycle) && !e.2.flights.any (fun f => f.chunk == k.uid) then
            some { owner := .group e.1, core := e.2.core, chunk := k, empty := false, launch := t.launch, mode := l.mode, key := key }
          else none
        | [] =>
          if l.mode == 1 && !t.killed && emptyQuantum e.2 && !trapDue s e.2 t l then
            some { owner := .group e.1, core := e.2.core, chunk := { kind := .empty, endCycle := s.cycle, quantum := e.2.nextQuantum },
                   empty := true, launch := t.launch, mode := 1, key := key }
          else none)
  let units := (s.engines.filter (fun e => e.1 / 512 == c)).filterMap (fun e =>
    match e.2.run with
    | none => none
    | some p =>
      match p.op, anyTeam s p.team with
      | some k, some t =>
        if k.endCycle + Config.dCycles ≤ s.cycle then
          some { owner := .unit (e.1 / 8) (e.1 % 8), core := e.1 / 8, chunk := k, empty := false, launch := t.launch, mode := teamMode s p.team, key := [] }
        else none
      | _, _ => none)
  sortBy (fun a b => lexLt (a.chunk.endCycle :: ownerPlace s a.owner) (b.chunk.endCycle :: ownerPlace s b.owner)) (groups ++ units)

/-- Whether the order of 08 R182 admits a group's chunk, after the chosen ones: no group that it ranks with is still to
commit an earlier place, and no set holds chunks of two rounds, so that what one round lets go is known before the next
(08 R183). Groups that a rollback returned are ranked among themselves (23 R415). -/
def turnOf (s : State) (x : Cand) (chosen : List Cand) : Bool :=
  match x.owner with
  | .unit _ _ => true
  | .group gid =>
    match tget s.groups gid with
    | none => true
    | some g => (roundMates s g).all (fun e =>
        let taken := chosen.any (fun k => k.owner == .group e.1)
        let q := commitQuantum e.2
        e.1 == gid || (if taken then q == x.chunk.quantum
          else !lexLt (q :: keyOf s e.2) (x.chunk.quantum :: x.key)))

/-- The next entry of a slice in replay: kind, who, seq; none past the last one (08 R188, R190). -/
def nextEntry (s : State) (l : Launch) (c : Nat) : Option (Nat × Nat × Nat) :=
  match logSlice l c with
  | none => none
  | some (base, size) =>
    let x := tgetD l.logs c {}
    let k := logPlace x
    if decide (k < mreadN s.gmem (base + 12) 8) && decide (64 + 8 * (k + 1) ≤ size) then
      let e := mreadN s.gmem (base + 64 + 8 * k) 8
      some (e / 2 ^ 62, e / 2 ^ 32 % 2 ^ 30, e % 2 ^ 32)
    else none

/-- What a chunk of an owner would be in the commit log (08 R188). -/
def ownerName (s : State) (lid : Nat) (o : Owner) (quantum : Nat) : Nat × Nat × Nat :=
  match o with
  | .group gid => (0, ((tget s.groups gid).map (·.ordinal)).getD 0, quantum % 2 ^ 32)
  | .unit core u => (1, logicalCore s core * 8 + u,
      (((tget s.launches lid).map (fun l =>
        opCount l (core * 8 + u) (((engineAt s core u).run.map (·.team)).getD 0))).getD 0) % 2 ^ 32)

/-- What a chunk would be in the commit log. -/
def logName (s : State) (x : Cand) : Nat × Nat × Nat := ownerName s x.launch x.owner x.chunk.quantum

/-- The launch of an owner, and the quantum that it commits next. -/
def ownerPlan (s : State) (o : Owner) : Option (Nat × Nat) :=
  match o with
  | .group gid => (tget s.groups gid).bind (fun g => (tget s.teams g.team).map (fun t => (t.launch, commitQuantum g)))
  | .unit core u => ((engineAt s core u).run.bind (fun p => anyTeam s p.team)).map (fun t => (t.launch, 0))

/-- Whether a request for the token can be served now: one of a replay launch waits, and those after it with it, until the
log names its chunk, which no other chunk may then hold up (07 R161, 08 R190; DEDUCED, log 49). -/
def tokenServes (s : State) (c : Nat) (o : Owner) : Bool :=
  match ownerPlan s o with
  | none => true
  | some (lid, q) =>
    match tget s.launches lid with
    | none => true
    | some l => l.mode != 3 || nextEntry s l c == some (ownerName s lid o q)

/-- Gives a free token to the earliest request, ties by physical core and group slot (07 R161). -/
def grantToken (s : State) (c : Nat) : State :=
  let cl := clusterAt s c
  let order := sortBy (fun (a b : Nat × Owner) => lexLt (a.1 :: ownerPlace s a.2) (b.1 :: ownerPlace s b.2)) cl.requests
  match cl.token, order with
  | none, r :: rest => if tokenServes s c r.2 then setCluster s c { cl with token := some r.2, requests := rest } else s
  | _, _ => s

/-- Whether what a chunk of an ordered launch has found to reserve still stands, now that all before it in the order has
committed: the same records in the same bins and the same entries (06 R129, 08 R184; DEDUCED, log 156). -/
def judgementsHold (s : State) (x : Cand) : Bool :=
  match x.owner with
  | .unit _ _ => true
  | .group gid =>
    match groupTriple s gid with
    | none => true
    | some (g, t, l) =>
      let core := tgetD s.cores g.core {}
      let rivals := rivalReservations s l t gid g
      let used := (coreEntries s g t).length
      (x.chunk.judged.foldl (fun (acc : Bool × List (Nat × Word) × Nat) j =>
        match j with
        | .record entry bin =>
          (acc.1 && reserveBin core (rivals ++ acc.2.1) entry == bin, acc.2.1 ++ (bin.map (fun b => (b, entry))).toList, acc.2.2)
        | .entry fits =>
          (acc.1 && decide (used + acc.2.2 < gredCapacity s g t l) == fits, acc.2.1, acc.2.2 + (if fits then 1 else 0)))
        (true, [], 0)).1

/-- Whether a chunk may join the chosen ones: the token, room for its forks, its order, and disjoint signatures (08 R178,
R179). One that has judged what it could reserve commits with no other of its launch, whose commits it would have to
count. -/
def admits (s : State) (c : Nat) (chosen : List Cand) (x : Cand) : Bool :=
  let token := (clusterAt s c).token
  !chosen.any (fun k => k.owner == x.owner) && (token.isNone || token == some x.owner) &&
  forksFit s x.core ((chosen.filter (fun k => k.core == x.core)).map (·.chunk)) x.chunk &&
  (x.mode != 1 || turnOf s x chosen) &&
  !chosen.any (fun k => k.launch == x.launch && !(k.chunk.judged.isEmpty && x.chunk.judged.isEmpty)) &&
  (x.mode != 3 ||
    (!chosen.any (fun k => k.launch == x.launch) &&
      (match tget s.launches x.launch with
        | some l => nextEntry s l c == some (logName s x)
        | none => false))) &&
  chosen.all (fun k =>
    !sigHitsWrite k.chunk.wsig x.chunk.wsig && !sigHitsRead k.chunk.wsig x.chunk.rsig && !sigHitsRead x.chunk.wsig k.chunk.rsig)

/-- The commit set: up to 4 chunks, the earliest-ended that may join first (08 R179). -/
def commitSet (fuel : Nat) (s : State) (c : Nat) (cs chosen : List Cand) : List Cand :=
  match fuel with
  | 0 => chosen
  | f + 1 =>
    match cs.find? (admits s c chosen) with
    | some x => commitSet f s c cs (chosen ++ [x])
    | none => chosen

/-- Set order: physical core and group slot; the groups of ordered launches by quantum and group key (08 R179, R182).
The spec orders neither modes nor ordered groups and units: those of throughput launches stand first, units last. -/
def setOrder (s : State) (cs : List Cand) : List Cand :=
  let place := sortBy (fun (a b : Cand) => lexLt (ownerPlace s a.owner) (ownerPlace s b.owner))
  place (cs.filter (fun x => x.mode == 0)) ++
    sortBy (fun a b => lexLt (a.chunk.quantum :: a.key) (b.chunk.quantum :: b.key))
      (cs.filter (fun x => x.mode != 0 && !x.key.isEmpty)) ++
    place (cs.filter (fun x => x.mode != 0 && x.key.isEmpty))

/-- Commits one member of a set. -/
def commitOne (s : State) (x : Cand) : State :=
  match x.owner with
  | .group gid => if x.empty then commitEmpty s gid else commitGroup s gid
  | .unit core u => commitUnit s core u

/-- The broadcast of a member's write signature: it squashes what another owner has read (08 R180). -/
def broadcast (s : State) (c : Nat) (x : Cand) : State :=
  if x.chunk.wsig == {} then s
  else
    let token := (clusterAt s c).token
    let hit := fun (o : Owner) (cs : List Chunk) => o != x.owner && token != some o && cs.any (fun k => sigHitsRead x.chunk.wsig k.rsig)
    let gs := (s.groups.filter (fun e => e.2.core / 64 == c && hit (.group e.1) (ownChunks e.2))).map (fun e => Owner.group e.1)
    let us := (s.engines.filter (fun e => e.1 / 512 == c &&
      hit (.unit (e.1 / 8) (e.1 % 8)) ((e.2.run.bind (·.op)).toList))).map (fun e => Owner.unit (e.1 / 8) (e.1 % 8))
    (gs ++ us).foldl (fun s o => conflictSquash s c o) s

/-! ### What a commit releases -/

/-- A lane that its wait lets go, from quantum q on; its part of a chunk that is open stays empty (08 R172, R183). -/
def wakeLane (q : Nat) (isOpen : Bool) (x : Lane) : Lane := { x with wait := .ready, readyQ := q, ended := isOpen || x.ended }

/-- Releases the lanes of a group that `pick` names, in its state and its shadows, as issue sets by `key` (06 R112). -/
def releaseLanes (g : Group) (key : Lane → Nat) (q : Nat) (pick : Nat → Lane → Bool) : Group :=
  let go := fun (isOpen : Bool) (c : GroupCore) =>
    let ls := (c.lanes.filter (fun e => e.2.status == .live && pick e.1 e.2)).map (·.1)
    splitSets key { c with lanes := tmap c.lanes (fun i x => if ls.contains i then wakeLane q isOpen x else x) } ls g.nextSet
  { g with
    regs := go g.cur.isSome g.regs,
    cur := g.cur.map (fun k => { k with start := go false k.start }),
    inflight := g.inflight.map (fun k => { k with start := go false k.start }),
    nextSet := g.nextSet + 64 }

/-- The least quantum in which a lane of a group that a commit releases may run (08 R183). -/
def wakeQuantum (s : State) (g : Group) : Nat :=
  match tget s.teams g.team with
  | none => 0
  | some t => ((tget s.launches t.launch).map (fun l => startQuantum l (g.core / 64) t.cohort)).getD 0

/-- Whether the round that commits has committed in each group that a group ranks with (08 R182). -/
def roundOver (s : State) (g : Group) : Bool :=
  (roundMates s g).all (fun e => decide (wakeQuantum s g ≤ commitQuantum e.2))

/-- Releases the lanes of a group whose FENL or full/empty wait is over, each in the set that waited (09 R214, 06 R112); in
deterministic mode a full word releases them once the round that filled it has committed (09 R199). -/
def wakeGroup (s : State) (g : Group) : Group :=
  let done := fun (x : Lane) => match x.wait with
    | .fenl _ => (ownChunks g).isEmpty
    | .full a => !(mread s.lbits a).getLsbD 0 && roundOver s g
    | _ => false
  if g.regs.lanes.any (fun e => e.2.status == .live && done e.2) then
    releaseLanes g bySet (wakeQuantum s g) (fun _ x => done x)
  else g

/-- Whether every live thread of a team, as committed, waits at BART (or BARG), and one does. -/
def teamWaits (s : State) (tid : Nat) (w : Wait) : Bool × Bool :=
  let gs := (s.groups.filter (fun e => e.2.team == tid)).map (fun e => committedCore e.2)
  (gs.all (fun c => (liveLanes c).all (fun i => (laneAt c i).wait == w)),
   gs.any (fun c => !(liveLanes c).isEmpty))

/-- Releases every lane of a team that waits at a barrier. -/
def releaseTeam (s : State) (tid : Nat) (w : Wait) : State :=
  match tget s.teams tid with
  | none => s
  | some _ => { s with groups := tmap s.groups (fun _ g =>
      if g.team == tid then releaseLanes g byPc (wakeQuantum s g) (fun _ x => x.wait == w) else g) }

/-- Completes BART, and BARG of its gang, when every thread has arrived and no record is left to form (09 R211). -/
def settleBarriers (s : State) (tid : Nat) : State :=
  match tget s.teams tid with
  | none => s
  | some t =>
    let b := teamWaits s tid .bart
    if t.killed || hasRecords s tid then s
    else if b.1 && b.2 then releaseTeam s tid .bart
    else
      let gang := s.teams.filter (fun e => e.2.launch == t.launch && e.2.gang == t.gang && !e.2.killed)
      let ws := gang.map (fun e => teamWaits s e.1 .barg)
      if ws.all (·.1) && ws.any (·.2) && !gang.any (fun e => hasRecords s e.1) then
        gang.foldl (fun s e => releaseTeam s e.1 .barg) s
      else s

/-- An arrival at BARTC: the barrier, the count, the run, the issue set and the chunk that holds it (09 R212). -/
structure Arrival where
  k : Nat
  c : Nat
  pc : Word
  set : Nat
  chunk : Nat
  deriving DecidableEq

/-- The lanes of a group that have arrived at BARTC and are not yet counted, ascending. -/
def newArrivals (g : Group) (gid : Nat) (t : Team) : List (Nat × Arrival) :=
  let c := committedCore g
  let known := (tvals t.bartc).flatMap (·.arrived)
  (liveLanes c).filterMap (fun i => match (laneAt c i).wait with
    | .bartc k n pc chunk =>
      if known.contains (gid, i) then none else some (i, { k := k, c := n, pc := pc, set := (laneAt c i).set, chunk := chunk })
    | _ => none)

/-- Parks the lanes of a group whose BARTC names another count than the generation's; the chunk that trapped is the one that
holds the word (09 R212, 21 R388). -/
def parkLate (g : Group) (ls : List Nat) (pc : Word) (chunk : Nat) : Group :=
  let f := fun (c : GroupCore) =>
    let after := (laneAt c (leastD ls 0)).pc
    let rest := (liveLanes c).filter (fun i => !ls.contains i && (match (laneAt c i).wait with
      | .bartc _ _ p _ => p == pc
      | _ => false))
    { c with
      lanes := tmap c.lanes (fun i x => if ls.contains i then { x with wait := .parked, pc := pc, set := g.nextSet } else x),
      trap := { c.trap with parks := c.trap.parks ++
        [{ lanes := maskOf ls, pc := pc, after := after, cause := 2, addr := 0#32, done := maskOf rest, chunk := chunk }] } }
  { mapCores f g with nextSet := g.nextSet + 1 }

/-- Releases the threads of a complete generation, exactly those counted (09 R212). -/
def releaseGeneration (s : State) (tid : Nat) (who : List (Nat × Nat)) : State :=
  match tget s.teams tid with
  | none => s
  | some _ => { s with groups := tmap s.groups (fun gid g =>
      if who.any (fun w => w.1 == gid) then
        releaseLanes g byPc (wakeQuantum s g) (fun i _ => who.contains (gid, i))
      else g) }

/-- One lane arrives at counted barrier k with count n, or is late: the generation has another count (09 R212). -/
def arriveOne (s : State) (tid gid k n lane : Nat) : State × Bool :=
  match tget s.teams tid with
  | none => (s, false)
  | some t =>
    let b := tgetD t.bartc k { c := n, arrived := [] }
    let who := b.arrived ++ [(gid, lane)]
    if b.c != n then (s, true)
    else if who.length ≥ n then (releaseGeneration (setTeam s tid { t with bartc := tdel t.bartc k }) tid who, false)
    else (setTeam s tid { t with bartc := tput t.bartc k { c := n, arrived := who } }, false)

/-- The arrivals of a group at counted barriers, in ascending lane order; the late lanes of one instruction trap as one
sub-group (09 R212). -/
def arriveCounted (s : State) (gid : Nat) : State :=
  match groupTriple s gid with
  | none => s
  | some (g, t, _) =>
    if t.killed then s
    else
      let r := (newArrivals g gid t).foldl (fun (acc : State × List (Nat × Arrival)) a =>
        let o := arriveOne acc.1 g.team gid a.2.k a.2.c a.1
        (o.1, if o.2 then acc.2 ++ [a] else acc.2)) (s, [])
      let keys := r.2.foldl (fun (acc : List Arrival) a => if acc.contains a.2 then acc else acc ++ [a.2]) []
      keys.foldl (fun s k => { s with groups := tmod s.groups gid (fun x =>
        parkLate x ((r.2.filter (fun a => a.2 == k)).map (·.1)) k.pc k.chunk) }) r.1

/-- A group with no thread left and nothing uncommitted retires (06 R132). -/
def groupOver (g : Group) : Bool := !groupLives g

/-- A team whose groups have retired and whose records are formed retires: it is charged and leaves its cores but for its
allocation and the programs it forked, and its launch may end (06 R132, 07 R143). -/
def retireTeam (s : State) (tid : Nat) : State :=
  match tget s.teams tid with
  | none => s
  | some t =>
    if t.killed || s.groups.any (fun e => e.2.team == tid) || hasRecords s tid then s
    else
      let s1 := { removeTeam (chargeTeam s tid) tid with engines := s.engines }
      settleLaunch { s1 with retired := tput s1.retired tid { t with reserved := [], exname := none } } t.launch

/-- The teams of a cluster. -/
def clusterTeams (s : State) (c : Nat) : List Nat := (s.teams.filter (fun e => e.2.cluster == c)).map (·.1)

/-- Kills the teams of a cluster that a handler's thread has doomed, once its chunk has committed (21 R388). -/
def settleDoom (s : State) (c : Nat) : State :=
  let ts := (s.groups.filter (fun e => e.2.core / 64 == c && (match e.2.regs.trap.doom with
    | some u => !(ownChunks e.2).any (fun k => k.uid == u)
    | none => false))).map (fun e => e.2.team)
  ts.foldl (fun s tid => killTeam s tid true) s

/-- Lets the threads of a group that SPAWN blocks try again when a bin that one of their set needs has a free record: in an
ordered launch those that have blocked in committed state, by what has committed (06 R129; DEDUCED, log 156). -/
def wakeSpawns (s : State) (gid : Nat) (g : Group) : Group :=
  match tget s.teams g.team with
  | none => g
  | some t =>
    match tget s.launches t.launch with
    | none => g
    | some l =>
      let core := tgetD s.cores g.core {}
      let pend := rivalReservations s l t gid g ++ (if ordered l then [] else reservations g)
      let served := fun (x : Lane) => match x.wait with
        | .spawn entry => x.status == .live && x.block == 1 && (reserveBin core pend entry).isSome
        | _ => false
      let blocked := (if ordered l then committedCore g else g.regs).lanes
      let sets := (blocked.filter (fun e => served e.2)).map (fun e => e.2.set)
      if sets.isEmpty then g
      else
        releaseLanes g bySet (wakeQuantum s g) (fun _ x =>
          match x.wait with
          | .spawn _ => sets.contains x.set
          | _ => false)

/-- Forms the groups that the bins of a cluster owe, and lets threads that SPAWN blocks try again. -/
def settleSpawns (s : State) (c : Nat) : State :=
  let s0 := (clusterTeams s c).foldl enterOwed s
  let s1 := (clusterTeams s0 c).foldl (fun s tid => if hasRecords s tid && teamQuiet s tid then flushTeam s tid else s) s0
  let cores := ((s.cores.filter (fun e => e.1 / 64 == c)).map (·.1))
  let s2 := cores.foldl (fun s k => formSpawns 512 s k) s1
  { s2 with groups := tmap s2.groups (fun gid g => if g.core / 64 == c then wakeSpawns s2 gid g else g) }

/-- Everything that committed state now lets go in a cluster; `first` are the groups whose chunks have just committed, in
set order (09 R212). -/
def settleCluster (s : State) (c : Nat) (first : List Nat) : State :=
  let s1 := settleDoom s c
  let s2 := { s1 with groups := tmap s1.groups (fun _ g => if g.core / 64 == c then wakeGroup s1 g else g) }
  let s3 := (once (first ++ (s2.groups.filter (fun e => e.2.core / 64 == c)).map (·.1))).foldl arriveCounted s2
  let gone := fun (_ : Nat) (g : Group) => g.core / 64 == c && groupOver g && !((tget s3.teams g.team).map (·.killed)).getD false
  let s4 := { s3 with
    groups := s3.groups.filter (fun e => !gone e.1 e.2),
    teams := tmap s3.teams (fun tid t => { t with
      unjoined := t.unjoined || s3.groups.any (fun e => gone e.1 e.2 && e.2.team == tid && !e.2.regs.unjoined.isEmpty),
      stray := t.stray ++ straysOf s3 (fun k g => gone k g && g.team == tid) }) }
  let s5 := settleSpawns s4 c
  let s6 := (clusterTeams s5 c).foldl settleBarriers s5
  let s7 := (clusterTeams s6 c).foldl retireTeam s6
  (clusterTeams s7 c).foldl (noteWindow 3) s7

/-- Sweeps and LRSTCs that have waited D cycles commit: their program goes on (23 R409, 18 R352). -/
def settleSweeps (s : State) (c : Nat) : State :=
  { s with engines := tmap s.engines (fun k e =>
      match e.run with
      | some p =>
        if k / 512 == c && (match p.sweptAt with
            | some t => decide (t + Config.dCycles ≤ s.cycle)
            | none => false) then
          { e with run := some (nextWord { p with sweptAt := none, shadows := [], strikes := 0 }) }
        else e
      | none => e) }

/-- Squashes the group of a chunk whose judgements do not stand: it runs again from what has committed (06 R129). -/
def rejudge (s : State) (x : Cand) : State :=
  match x.owner with
  | .group gid => squashGroup s gid
  | .unit _ _ => s

/-- A commit of a cluster's arbiter, one in a cycle (08 R179): a set of chunks commits, their broadcasts squash, and what
they release goes on. A chunk whose turn has come and whose judgements do not stand runs again. -/
def commitCluster (s : State) (c : Nat) : State :=
  let s0 := grantToken (settleSweeps s c) c
  let due := if (clusterAt s c).commitAt == some s.cycle then [] else setOrder s0 (commitSet 4 s0 c (candidates s0 c) [])
  let set := due.filter (judgementsHold s0)
  let s1 := (due.filter (fun x => !judgementsHold s0 x)).foldl rejudge s0
  let s2 := set.foldl commitOne s1
  let s3 := set.foldl (fun s x => broadcast s c x) s2
  let s4 := if set.isEmpty then s3 else setCluster s3 c { clusterAt s3 c with commitAt := some s.cycle }
  settleCluster (grantToken s4 c) c (set.filterMap (fun x => match x.owner with
    | .group gid => some gid
    | .unit _ _ => none))

end Sys2Proof.Machine
end

