-- ==== Sys2Proof/Machine/Control.lean ====
section
/-! DEFINITION. CTL, major 30: launches, events, queues, pre-emption, kills, time-outs and checkpoints
(07 R136-R159, 23 R418-R424). -/

namespace Sys2Proof.Machine

/-! ### The frame -/

/-- A CTL instruction: accepted on a control core only; its run may not hold HINT.ROUTE or HINT.IMM; a guard of 0
passes it by; else it acts with its partition and the values of sx and sy (07 R136, 04 R86). -/
def ctlOp (s : State) (x y : BitVec 6) (f : State → Nat → Nat → Ctl → Word → Word → State) :
    Host.Outcome State Fault Refusal :=
  controlOnly s (fun s c =>
    let cl := clusterAt s c
    let h := s.issue.hints
    if h.route.isSome || h.imm.isSome then stopAtRun s c
    else if !ctlPred cl.ctl (predField h 7) then
      setCluster s c { cl with ctl := { cl.ctl with pc := s.issue.pc + 4#32 } }
    else
      match partOf s c with
      | none => s
      | some n => f s c n cl.ctl (ctlReg cl.ctl x.toNat) (ctlReg cl.ctl y.toNat))

/-- The control core of a cluster changed. -/
def onCtl (s : State) (c : Nat) (f : Ctl → Ctl) : State :=
  let cl := clusterAt s c
  setCluster s c { cl with ctl := f cl.ctl }

/-- Completes the current CTL instruction: sd receives a value and the program goes on. -/
def ctlDone (s : State) (c : Nat) (d : Nat) (v : Word) : State :=
  onCtl s c (fun k => { setCtlReg k d v with pc := s.issue.pc + 4#32, wait := .none })

/-- Completes it with a pair (sd, sd+1). -/
def ctlDone2 (s : State) (c : Nat) (d : Nat) (v : DWord) : State :=
  onCtl s c (fun k => { setCtlReg (setCtlReg k d (loWord v)) (d + 1) (hiWord v) with pc := s.issue.pc + 4#32, wait := .none })

/-- Makes the control core wait in the current instruction. -/
def ctlWait (s : State) (c : Nat) (w : CtlWait) : State :=
  onCtl s c (fun k => { k with wait := w, after := s.issue.pc + 4#32 })

/-- Completes the instruction a control core waits in. -/
def ctlWake (s : State) (c d : Nat) (v : Word) : State :=
  onCtl s c (fun k => { setCtlReg k d v with pc := k.after, wait := .none })

/-- Stops the program with CTL_ADDRESS at an access (04 R89). -/
def ctlAddress (s : State) (c : Nat) (access : Word) : State := stopControl s c 7 s.issue.word s.issue.pc access

/-- Bytes of a cluster's control memory. -/
def controlBytes (s : State) (c a n : Nat) : List Byte := mbytes s.cmem (c * Config.controlBytes + a) n

/-- A run of bytes inside control memory at a multiple of `align`. -/
def controlFits (a : Word) (n align : Nat) : Bool := a.toNat % align == 0 && decide (a.toNat + n ≤ Config.controlBytes)

/-! ### LAUNCH (07 R137-R140) -/

/-- A field of a byte string. -/
def byteField (bs : List Byte) (off size : Nat) : Nat := leNat ((bs.drop off).take size)

/-- Whether a run of bytes is all 0. -/
def zeroBytes (bs : List Byte) (off size : Nat) : Bool := ((bs.drop off).take size).all (fun b => b == 0#8)

/-- Counts within 03 R74 (02 R41). -/
def allocFits (a : Alloc) : Bool :=
  (a.w == 16 || a.w == 32 || a.w == 64) && [a.v, a.s].all (fun n => n % 8 == 0 && decide (8 ≤ n) && decide (n ≤ 64)) &&
  decide (a.t ≤ 16) && decide (a.a ≤ 16)

/-- The launch that a record and a binding block describe. -/
def parseLaunch (part number issuer : Nat) (r b : List Byte) : Launch :=
  let f := byteField r
  { part := part, number := number, issuer := issuer, image := f 0 8,
    alloc := { w := f 8 1, v := f 9 1, s := f 10 1, t := f 11 1, a := f 12 1 }, groups := f 13 1,
    mode := f 14 1 % 4, pair := f 14 1 / 4 % 2 == 1, spawnSlots := f 15 1, lm := f 16 4, pref := f 20 1, fb := f 21 1,
    queue := f 22 1, cls := f 23 1, grid := (f 24 4, f 28 4, f 32 4), chunkq := f 36 2, spawnTimer := f 38 2,
    phaseMax := f 40 4, deps := (upto 4).map (fun k => BitVec.ofNat 32 (f (48 + 4 * k) 4)), imageSize := byteField b 0 4,
    key := (BitVec.ofNat 32 (byteField b 4 4), BitVec.ofNat 32 (byteField b 8 4), BitVec.ofNat 32 (byteField b 12 4)),
    binds := (upto 16).map (fun k => (byteField b (64 + 16 * k) 8, byteField b (72 + 16 * k) 8)) }

/-- The limits of a launch record and its binding block (07 R137, R138, 03 R74, R79). -/
def launchFits (r b : List Byte) (l : Launch) : Bool :=
  let count := gangCount l
  allocFits l.alloc && decide (1 ≤ l.groups) && decide (l.groups ≤ 64) && decide (byteField r 14 1 < 8) &&
  decide (l.spawnSlots ≤ 63) && l.lm % 64 == 0 && decide (l.lm ≤ Config.localBytes) &&
  decide (1 ≤ l.fb) && decide (l.fb ≤ l.pref) && decide (l.pref ≤ 64) && decide (l.queue ≤ 63) && decide (l.cls ≤ 3) &&
  decide (1 ≤ count) && decide (count ≤ (if l.mode == 0 then 2 ^ 32 else 2 ^ 24)) &&
  decide (16 ≤ l.chunkq) && decide (l.chunkq ≤ 4096) && zeroBytes b 16 48

/-- The code of 07 R139 that a LAUNCH draws, the lowest that applies. -/
def launchReject (p : Part) (launches : Table Launch) (part : Nat) (bindOk : Bool) (r b : List Byte) (l : Launch) :
    Option Word :=
  let q := tgetD p.queues l.queue {}
  let held := (launches.filter (fun e => e.2.part == part && e.2.queue == l.queue && e.2.phase != .ended)).length
  if decide (l.queue ≤ 63) && decide (256 ≤ held) then some 0xFFFFFF01#32
  else if !bindOk || !launchFits r b l || l.cls != q.cls then some 0xFFFFFF02#32
  else if l.deps.any (fun d => d != 0xFFFFFFFF#32 && decide (p.nextLaunch ≤ d.toNat)) then some 0xFFFFFF03#32
  else if !q.enable then some 0xFFFFFF04#32
  else if p.nextLaunch > 0xFFFFFEFF then some 0xFFFFFF05#32
  else none

/-- LAUNCH (07 R139, R140): the record and its binding block are read now; the launch takes the next number and goes to
the tail of its queue, or sd receives the code of its rejection. -/
def execLaunch (_sw : Bool) (d x : BitVec 6) (s : State) : Host.Outcome State Fault Refusal :=
  ctlOp s x 0#6 (fun s c n _ a _ =>
    if !controlFits a 64 64 then ctlAddress s c a
    else
      let r := controlBytes s c a.toNat 64
      let bind := BitVec.ofNat 32 (byteField r 44 4)
      let bindOk := bind.toNat % 64 == 0
      if bindOk && !controlFits bind 320 64 then ctlAddress s c bind
      else
        match tget s.parts n with
        | none => s
        | some p =>
          let b := if bindOk then controlBytes s c bind.toNat 320 else []
          let l := parseLaunch n p.nextLaunch c r b
          match launchReject p s.launches n bindOk r b l with
          | some code => ctlDone s c d.toNat code
          | none =>
            let s1 := setPart s n { p with nextLaunch := p.nextLaunch + 1 }
            let s2 := { setLaunch s1 s1.nextId l with nextId := s1.nextId + 1 }
            ctlDone s2 c d.toNat (BitVec.ofNat 32 p.nextLaunch))

/-! ### Events (07 R144-R147) -/

/-- EVWAIT (07 R147): the number of records held, at once or when there is one; the time-out is the event
EVWAIT_TIMEOUT. -/
def execEvwait (_sw : Bool) (d x : BitVec 6) (s : State) : Host.Outcome State Fault Refusal :=
  ctlOp s x 0#6 (fun s c _ k a _ =>
    let held := (clusterAt s c).events.length
    if held > 0 then ctlDone s c d.toNat (BitVec.ofNat 32 held)
    else
      match k.wait with
      | .events _ _ => s
      | _ => ctlWait s c (.events d.toNat (if a.toNat = 0 then none else some (s.cycle + a.toNat))))

/-- EVPOP (07 R147): the oldest record goes to control memory; its address is checked first. -/
def execEvpop (_sw : Bool) (d x : BitVec 6) (s : State) : Host.Outcome State Fault Refusal :=
  ctlOp s x 0#6 (fun s c _ k a _ =>
    let cl := clusterAt s c
    match cl.events with
    | [] => ctlDone s c d.toNat 0#32
    | e :: rest =>
      if !controlFits a 32 32 || inCode k a.toNat 32 then ctlAddress s c a
      else
        let s1 := storeControl (setCluster s c { cl with events := rest }) c (a.toNat, eventBytes e)
        ctlDone s1 c d.toNat (BitVec.ofNat 32 e.type))

/-- EVSIG (07 R145, R147): a USER record to a cluster of the partition or to the host. -/
def execEvsig (_sw : Bool) (d x y : BitVec 6) (s : State) : Host.Outcome State Fault Refusal :=
  ctlOp s x y (fun s c n _ a b =>
    match tget s.parts n with
    | none => s
    | some p =>
      let payload := packPayload [(4, c), (4, b.toNat)]
      if a == 0xFFFFFFFF#32 then
        let e : Event := { type := 5, source := sourceOf 3 c, seq := p.hostSeq, phase := s.chipPhase, payload := payload }
        let s1 := setPart s n { p with hostSeq := (p.hostSeq + 1) % 2 ^ 32 }
        ctlDone (hostEvent s1 n e) c d.toNat 0#32
      else if !p.clusters.contains a.toNat then ctlDone s c d.toNat 1#32
      else if (clusterAt s a.toNat).events.length ≥ 4095 then ctlDone s c d.toNat 2#32
      else ctlDone (postEvent s a.toNat 5 (sourceOf 3 c) payload) c d.toNat 0#32)

/-! ### Queues (07 R148, R153, R154) -/

/-- The queue after a QCFG value, when the value is in range (07 R148). -/
def setQueue (q : Queue) (v : Word) : Option Queue :=
  let e := v.toNat % 32
  if v.toNat / 32 % 2 ^ 23 != 0 || (decide (1 ≤ e) && decide (e ≤ 9)) || e == 31 then none
  else
    let r := v.getLsbD 30
    some { q with
      enable := v.getLsbD 31, cls := v.toNat / 2 ^ 28 % 4, qexp := if e == 0 then 20 else e,
      deficit := if r then 0 else q.deficit, hash := if r then 0#64 else q.hash, chain := if r then 0 else q.chain }

/-- The partition after a QCFG, when it is in range. -/
def configure (p : Part) (x y : Word) : Option Part :=
  if x.toNat < 64 then
    (setQueue (tgetD p.queues x.toNat {}) y).map (fun q => { p with queues := tput p.queues x.toNat q })
  else if decide (256 ≤ x.toNat) && decide (x.toNat < 260) then
    let k := x.toNat - 256
    let others := total (((upto 4).filter (fun j => j != k)).map (fun j => (tgetD p.classes j {}).minShare))
    if decide (y.toNat < 256) && decide (others + y.toNat ≤ 256) then
      some { p with classes := tupd p.classes k {} (fun q => { q with minShare := y.toNat }) }
    else none
  else none

/-- QCFG (07 R148). -/
def execQcfg (_sw : Bool) (d x y : BitVec 6) (s : State) : Host.Outcome State Fault Refusal :=
  ctlOp s x y (fun s c n _ a b =>
    match (tget s.parts n).bind (fun p => configure p a b) with
    | some p => ctlDone (setPart s n p) c d.toNat 0#32
    | none => ctlDone s c d.toNat 1#32)

/-- The launches of a queue that a partition accepted below a number. -/
def queueLaunches (s : State) (n q below : Nat) : List Launch :=
  (tvals s.launches).filter (fun l => l.part == n && l.queue == q && decide (l.number < below))

/-- QFENCE (07 R154): waits until the launches accepted before it have ended and been chained, then counts those that
ended with a nonzero status since this core's previous QFENCE of the queue. -/
def execQfence (_sw : Bool) (d x : BitVec 6) (s : State) : Host.Outcome State Fault Refusal :=
  ctlOp s x 0#6 (fun s c n k a _ =>
    if a.toNat > 63 then ctlDone s c d.toNat 0xFFFFFFFF#32
    else
      let below := match k.wait with
        | .fence _ _ m => m
        | _ => ((tget s.parts n).map (·.nextLaunch)).getD 0
      let ls := queueLaunches s n a.toNat below
      if ls.all (fun l => l.phase == .ended && l.chained) then
        let mark := tgetD k.marks a.toNat 0
        let bad := (ls.filter (fun l => decide (mark ≤ l.number) && l.status != 0)).length
        onCtl (ctlDone s c d.toNat (BitVec.ofNat 32 bad)) c (fun k => { k with marks := tput k.marks a.toNat (max mark below) })
      else
        match k.wait with
        | .fence _ _ _ => s
        | _ => ctlWait s c (.fence d.toNat a.toNat below))

/-- QDIG (07 R154): the running hash of a queue. -/
def execQdig (_sw : Bool) (d : BitVec 5) (x : BitVec 6) (s : State) : Host.Outcome State Fault Refusal :=
  ctlOp s x 0#6 (fun s c n _ a _ =>
    let v := if a.toNat > 63 then BitVec.allOnes 64
      else ((tget s.parts n).map (fun p => (tgetD p.queues a.toNat {}).hash)).getD 0#64
    ctlDone2 s c (2 * d.toNat) v)

/-! ### Pre-emption, kills and time-outs (07 R155-R160) -/

/-- PREEMPT (07 R155). DESIGN CHOICE (log entry 121): a team that a kill holds on its cores until the boundary is placed
no more, but for one that its gang's relaunch places again before the save (23 R429). -/
def execPreempt (_sw : Bool) (d x : BitVec 6) (s : State) : Host.Outcome State Fault Refusal :=
  ctlOp s x 0#6 (fun s c n _ a _ =>
    match launchNumbered s n a.toNat with
    | none => ctlDone s c d.toNat 1#32
    | some (lid, l) =>
      if l.phase != .ended && (teamsOf s lid).any (fun e => !e.2.killed || e.2.relaunch) then
        ctlDone (setLaunch s lid { l with preempt := true }) c d.toNat 0#32
      else ctlDone s c d.toNat 1#32)

/-- A deadline with y more cycles, the remaining count saturating (07 R158). -/
def extendBy (now d y : Nat) : Nat := now + min (2 ^ 32 - 1) (d - now + y)

/-- PTOUT (07 R158): an expiry in the same cycle comes first. -/
def execPtout (_sw : Bool) (d x y : BitVec 6) (s : State) : Host.Outcome State Fault Refusal :=
  ctlOp s x y (fun s c n _ a b =>
    let s1 := match tget s.parts n with
      | some p =>
        if a == 2#32 && due p.stragAt s.cycle then expireStraggler s n
        else if a == 3#32 && due p.exchAt s.cycle then expireExchange s n
        else s
      | none => s
    match tget s1.parts n with
    | none => s
    | some p =>
      let y := b.toNat
      match a.toNat with
      | 0 => if y < 1024 then ctlDone s1 c d.toNat 1#32 else ctlDone (setPart s1 n { p with strag := y }) c d.toNat 0#32
      | 1 => if y < 1024 then ctlDone s1 c d.toNat 1#32 else ctlDone (setPart s1 n { p with exch := y }) c d.toNat 0#32
      | 2 =>
        if y = 0 then ctlDone s1 c d.toNat 1#32
        else
          match p.stragAt with
          | none => ctlDone s1 c d.toNat 2#32
          | some t => ctlDone (setPart s1 n { p with stragAt := some (extendBy s.cycle t y) }) c d.toNat 0#32
      | 3 =>
        if y = 0 then ctlDone s1 c d.toNat 1#32
        else
          match p.exchAt with
          | none => ctlDone s1 c d.toNat 2#32
          | some t => ctlDone (setPart s1 n { p with exchAt := some (extendBy s.cycle t y) }) c d.toNat 0#32
      | _ => ctlDone s1 c d.toNat 1#32)

/-- The PHASEC value of a partition state (08 R162). -/
def pstateCode (p : PState) : Nat :=
  match p with
  | .compute => 0
  | .exchange => 1
  | .opened => 2

/-- PHASEC (07 R159). -/
def execPhasec (_sw : Bool) (d : BitVec 5) (x : BitVec 6) (s : State) : Host.Outcome State Fault Refusal :=
  ctlOp s x 0#6 (fun s c n _ a _ =>
    match tget s.parts n with
    | none => s
    | some p =>
      let v := match a.toNat with
        | 0 => BitVec.ofNat 64 p.boundary
        | 1 => BitVec.ofNat 64 s.chipPhase
        | 2 => BitVec.ofNat 64 (pstateCode p.pstate)
        | _ => BitVec.allOnes 64
      ctlDone2 s c (2 * d.toNat) v)

/-! ### Checkpoints (23 R418-R424) -/

/-- The limits of a checkpoint descriptor (23 R420). -/
def descFits (bs : List Byte) : Bool :=
  let f := byteField bs
  bs.length == 64 && decide (f 0 1 ≤ 1) && decide (f 1 1 ≤ 15) && decide (f 2 2 ≤ 1023) && zeroBytes bs 4 4 &&
  f 8 8 % 4096 == 0 && decide (4096 ≤ f 16 8) && zeroBytes bs 32 32

/-- The place on the safe tier that a descriptor names: device, window and offset. -/
def descTarget (bs : List Byte) : Nat := (byteField bs 2 2 * 16 + byteField bs 1 1) * 2 ^ 64 + byteField bs 8 8

/-- A checkpoint is being captured or drained. -/
def ckptBusy (k : Ckpt) : Bool := k.phase == 1 || k.phase == 2

/-- CKPT (23 R421): the state after it, with the value it returns at once, or none when its caller waits. -/
def ckptRequest (s : State) (n : Nat) (p : Part) (mode : Nat) (desc : List Byte) (who : CkptWaiter) : State × Option Nat :=
  let k := p.ckpt
  if mode > 2 || !descFits desc then (s, some 3)
  else if mode = 0 then
    if ckptBusy k then (s, some 2)
    else (setPart s n { p with ckpt := { k with phase := 1, desc := desc, starter := some who, waiters := [] } }, none)
  else
    match k.phase with
    | 0 => (s, some 6)
    | 3 => (s, some 0)
    | 4 => (s, some 5)
    | _ => if mode = 2 then (s, some 1) else (setPart s n { p with ckpt := { k with waiters := k.waiters ++ [who] } }, none)

/-- RSTOR (23 R423): the refusals that need no image; else the image is read, and RSTOR_COMPLETE ends it. -/
def restoreRequest (s : State) (n : Nat) (p : Part) (desc : List Byte) (who : CkptWaiter) : State × Option Nat :=
  if !descFits desc then (s, some 3)
  else if ckptBusy p.ckpt || p.ckpt.restoring.isSome then (s, some 2)
  else if s.launches.any (fun e => e.2.part == n && e.2.phase != .ended) then (s, some 9)
  else (setPart s n { p with ckpt := { p.ckpt with restoring := some (who, desc) } }, none)

/-- CKPT (23 R418, R421). -/
def execCkpt (_sw : Bool) (d x y : BitVec 6) (s : State) : Host.Outcome State Fault Refusal :=
  ctlOp s x y (fun s c n k a b =>
    match k.wait with
    | .capture _ => s
    | .drained _ => s
    | _ =>
      if !controlFits a 64 64 then ctlAddress s c a
      else
        match tget s.parts n with
        | none => s
        | some p =>
          let r := ckptRequest s n p b.toNat (controlBytes s c a.toNat 64) (.ctl c)
          match r.2 with
          | some v => ctlDone r.1 c d.toNat (BitVec.ofNat 32 v)
          | none => ctlWait r.1 c (if b == 0#32 then .capture d.toNat else .drained d.toNat))

/-- RSTOR (23 R418, R423). -/
def execRstor (_sw : Bool) (d x : BitVec 6) (s : State) : Host.Outcome State Fault Refusal :=
  ctlOp s x 0#6 (fun s c n k a _ =>
    match k.wait with
    | .restore _ => s
    | _ =>
      if !controlFits a 64 64 then ctlAddress s c a
      else
        match tget s.parts n with
        | none => s
        | some p =>
          let r := restoreRequest s n p (controlBytes s c a.toNat 64) (.ctl c)
          match r.2 with
          | some v => ctlDone r.1 c d.toNat (BitVec.ofNat 32 v)
          | none => ctlWait r.1 c (.restore d.toNat))

end Sys2Proof.Machine
end

