-- ==== Sys2Proof/Machine/Placement.lean ====
section
/-! DEFINITION. The dispatcher: the checks of a launch, arbitration among queues, and the placement and restore of gangs
(03 R76-R79, 07 R141, R142, R150-R152, R155, 08 R185-R187, 21 R379). -/

namespace Sys2Proof.Machine

/-! ### The image (03 R76-R79) -/

/-- Whether every byte of a run lies in pages of a partition, with permission rw when it is to be written (21 R379). -/
def ownedRange (s : State) (part a n : Nat) (write : Bool) : Bool :=
  decide (0 < n) &&
  (upto ((a + n - 1) / Config.pageBytes - a / Config.pageBytes + 1)).all (fun k =>
    match tget s.pages (a / Config.pageBytes + k) with
    | some p => p.part == part && (!write || p.writable)
    | none => false)

/-- The offset and size of a part of the image: 0 to 5 the sections, 6 the extent declarations, 7 the shape record. -/
def imagePart (h : List Byte) (k : Nat) : Nat × Nat := (byteField h (56 + 8 * k) 4, byteField h (60 + 8 * k) 4)

/-- The checks of the header and of where the parts lie (03 R78). -/
def imageFits (h : List Byte) (size : Nat) : Bool :=
  byteField h 0 4 == 0x4B4C525A && byteField h 4 2 == 1 && crc32 (h.take 120) == BitVec.ofNat 32 (byteField h 120 4) &&
  (upto 8).all (fun k => let p := imagePart h k; p.2 == 0 || decide (p.1 + p.2 ≤ size))

/-- The equality checks of 07 R141. -/
def headerMatches (h : List Byte) (l : Launch) : Bool :=
  let f := byteField h
  f 16 1 == l.alloc.w && f 17 1 == l.alloc.v && f 18 1 == l.alloc.s && f 19 1 == l.alloc.t && f 20 1 == l.alloc.a &&
  f 21 1 == l.mode && f 22 1 == l.groups && (f 23 1 % 2 == 1) == l.pair && f 24 4 == l.lm && f 52 1 == l.spawnSlots &&
  (l.mode == 0 || (f 32 4 == l.grid.1 && f 36 4 == l.grid.2.1 && f 40 4 == l.grid.2.2))

/-- The words of a section. -/
def sectionWords (bs : List Byte) : List Word := bytesWords bs.length bs

/-- The gangs recorded in a shape record slot: a gang of size 0 has not been (08 R186). -/
def shapeEntries (bs : List Byte) (gangs : Nat) : Table ShapeEntry :=
  if byteField bs 0 4 != 0x48504853 then []
  else (upto gangs).filterMap (fun g =>
    let o := 16 + 8 * g
    if byteField bs o 1 = 0 then none
    else some (g, { size := byteField bs o 1, rank := byteField bs (o + 1) 1, base := byteField bs (o + 2) 1, k := byteField bs (o + 3) 1 }))

/-- Check 1 and 2 of 07 R141, the data section's room (03 R77), the log extent's access (08 R187), and the launch with
its image read; none with reason 1. -/
def readImage (s : State) (l : Launch) : Option (Launch × List (Nat × Nat)) :=
  if l.imageSize < 128 || !ownedRange s l.part l.image l.imageSize false then none
  else
    let h := mbytes s.gmem l.image 128
    let sect := fun (k : Nat) => let p := imagePart h k; mbytes s.gmem (l.image + p.1) p.2
    let exch := sect 1
    let count := byteField exch 0 4
    let decls := (upto 16).filterMap (fun k =>
      let e := (sect 6).drop (16 * k)
      if e.length < 16 || byteField e 1 1 = 0 then none else some (byteField e 0 1 % 16, byteField e 1 1))
    let logOk := match l.mode with
      | 2 => decls.contains (15, 2)
      | 3 => decls.contains (15, 1)
      | _ => true
    let shape := imagePart h 7
    if !imageFits h l.imageSize || !headerMatches h l || decide (l.lm - spillOf l.lm < (imagePart h 5).2) || !logOk ||
        (decide (0 < exch.length) && decide (exch.length < 4 + 4 * count)) ||
        (l.mode != 0 && decide (shape.2 < 16 + 8 * gangCount l)) then none
    else
      some ({ l with
        text := sectionWords (sect 0), exch := sectionWords exch, copy := sectionWords (sect 2),
        latt := sectionWords (sect 3), dataBytes := sect 5,
        exchOffsets := (upto (if exch.isEmpty then 0 else count)).map (fun k => byteField exch (4 + 4 * k) 4),
        kernelId := BitVec.ofNat 64 (byteField h 8 8),
        handler := if byteField h 23 1 / 2 % 2 = 1 then BitVec.ofNat 32 (byteField h 48 4) else 0#32,
        shapeAddr := l.image + shape.1,
        shape := if l.mode = 0 then [] else shapeEntries (sect 7) (gangCount l) }, decls)

/-! ### Resources (02 R42, 07 R141, 08 R186) -/

/-- The launch groups of a team on its core i (02 R27). -/
def groupsOnSide (l : Launch) (i : Nat) : Nat := if l.pair then (l.groups + 1 - i) / 2 else l.groups

/-- The teams of a launch, up to n, that are resident together on an empty core or pair. -/
def teamsPerCore (l : Launch) (n : Nat) : Nat :=
  ((upto (n + 1)).filter (fun k =>
    costsFit (costOf l.alloc (k * (groupsOnSide l 0 + l.spawnSlots))) && decide (k * l.lm ≤ Config.localBytes))).foldl max 0

/-- The cores, or pairs of cores, of a cluster, in ascending logical order. -/
def seats (s : State) (c : Nat) (pair : Bool) : List (List Nat) :=
  let ks := (tgetD s.dev.cores c []).map (fun j => 64 * c + j)
  groupsOf ks.length (if pair then 2 else 1) ks

/-- Whether the dispatcher may place on a seat: none of its cores is marked (24 R437). -/
def seatOpen (s : State) (cores : List Nat) : Bool := !cores.any (fun k => s.dev.shut.contains k)

/-- Whether an empty cluster holds a gang of a size. -/
def clusterHolds (s : State) (l : Launch) (c size : Nat) : Bool :=
  decide (size ≤ ((seats s c l.pair).filter (seatOpen s)).length * teamsPerCore l size)

/-- Whether a recorded gang names clusters and cores that exist (08 R186). -/
def entryExists (s : State) (p : Part) (l : Launch) (e : ShapeEntry) : Bool :=
  match p.clusters[e.rank]? with
  | none => false
  | some c => decide (0 < e.k) && decide (e.k ≤ teamsPerCore l e.size) &&
    decide (e.base + (e.size + e.k - 1) / e.k ≤ (seats s c l.pair).length)

/-- The first limit of a core that one team exceeds on an empty core, in the order of 02 R42. -/
def firstExceeded (l : Launch) : Option Nat :=
  let need := costOf l.alloc (groupsOnSide l 0 + l.spawnSlots)
  (upto 6).find? (fun k => decide (coreLimits.getD k 0 < need.getD k 0))

/-- The gang check of 07 R141: a cluster can hold a gang of the fallback size, or in deterministic mode every gang of its
recorded size. -/
def gangsFit (s : State) (p : Part) (l : Launch) : Bool :=
  let holds := fun (size : Nat) => p.clusters.any (fun c => clusterHolds s l c size)
  (holds l.fb || (l.mode == 1 && !l.shape.isEmpty && (tvals l.shape).all (fun e => holds e.size))) &&
    (tvals l.shape).all (entryExists s p l)

/-- The checks of a launch at the head of its queue, in order: the launch as dispatched, or the reason of its failure
(07 R141, R143). -/
def checkLaunch (s : State) (p : Part) (lid : Nat) (l : Launch) : Except Nat Launch :=
  match readImage s l with
  | none => .error 1
  | some (l1, decls) =>
    let held := total ((s.launches.filter (fun e => e.1 != lid && e.2.part == l.part && e.2.phase != .ended)).map (fun e => e.2.snapPages))
    let pages := snapshotPages l1
    if teamsPerCore l1 1 = 0 || decide (p.quota < (s.pages.filter (fun e => e.2.part == l.part)).length + held + pages) then .error 2
    else if !gangsFit s p l1 then .error 3
    else
      let bound := decls.map (fun d => (d, l1.binds.getD d.1 (0, 0)))
      if !bound.all (fun d => d.2.2 % 4 == 0 && ownedRange s l.part d.2.1 d.2.2 (d.1.2 != 1)) then .error 4
      else
        let l2 := { l1 with
          checked := true, phase := .running, snapPages := pages,
          extents := bound.foldl (fun t d => tput t d.1.1 { base := d.2.1, len := d.2.2, access := d.1.2 }) [] }
        let whole := p.clusters.all (fun c => match logSlice l2 c with
          | some (base, size) => decide (64 ≤ size) && mread s.gmem (base + 6) == 1#8
          | none => false)
        if l.mode = 3 && !whole then .error 1 else .ok l2

/-! ### Placing a team (07 R152, 08 R186, 09 R193) -/

/-- The teams that hold an allocation of a core. -/
def holders (s : State) (core : Nat) : Table Team := residents s core ++ s.retired.filter (fun e => e.2.cores.contains core)

/-- The lowest offset, a multiple of 64, at which lm bytes are free on a core (09 R193). -/
def freeBase (s : State) (core lm : Nat) : Option Nat :=
  let used := (holders s core).flatMap (fun e =>
    let size := ((tget s.launches e.2.launch).map (·.lm)).getD 0
    (upto e.2.cores.length).filterMap (fun i => if e.2.cores.getD i 0 = core then some (e.2.pbase.getD i 0, size) else none))
  let starts := (0 :: used.map (fun u => u.1 + u.2)).filter (fun b =>
    decide (b + lm ≤ Config.localBytes) && used.all (fun u => decide (b + lm ≤ u.1) || decide (u.1 + u.2 ≤ b) || lm == 0))
  match starts with
  | [] => none
  | b :: rest => some (rest.foldl min b)

/-- The lowest team slot that is free on a core (08 R176). -/
def freeTeamSlot (s : State) (core : Nat) : Nat :=
  let used := (holders s core).flatMap (fun e =>
    (upto e.2.cores.length).filterMap (fun i => if e.2.cores.getD i 0 = core then some (e.2.tslots.getD i 0) else none))
  ((upto 64).find? (fun k => !used.contains k)).getD 64

/-- What a team needs on its core i: its launch groups, or those that its save area holds there, and its spawn slots or
spawned groups. -/
def groupsNeeded (l : Launch) (save : Option TeamSave) (i : Nat) : Nat :=
  match save with
  | none => groupsOnSide l i + l.spawnSlots
  | some x =>
    let gs := x.groups.filter (fun g => g.side == i)
    (gs.filter (fun g => decide (g.index < l.groups))).length +
      max (gs.filter (fun g => decide (l.groups ≤ g.index))).length l.spawnSlots

/-- Whether a team fits on a seat now. -/
def seatFits (s : State) (l : Launch) (save : Option TeamSave) (cores : List Nat) : Bool :=
  cores.length == coresPerTeam l && seatOpen s cores &&
  (upto cores.length).all (fun i =>
    let k := cores.getD i 0
    costsFit (addCosts (coreCost s k) (costOf l.alloc (groupsNeeded l save i))) && (freeBase s k l.lm).isSome)

/-- The lanes of a launch group: every lane holds a thread (02 R26). -/
def launchLanes (w g : Nat) : Table Lane := (upto w).map (fun k => (k, { status := .live, ltid := g * w + k }))

/-- Places a new team on a seat: its allocation, registers and groups, and its first snapshot (02 R49, 03 R77, 23 R413). -/
def placeNew (s : State) (lid : Nat) (l : Launch) (gang index size : Nat) (cores : List Nat) : State :=
  let tid := s.nextId
  let bases := cores.map (fun k => (freeBase s k l.lm).getD 0)
  let c := cores.getD 0 0 / 64
  let t : Team :=
    { launch := lid, gang := gang, index := index, gangSize := size, cluster := c, cores := cores,
      logicalCore := logicalCore s (cores.getD 0 0), logicalCluster := c, vbase := bases, pbase := bases,
      tslots := cores.map (freeTeamSlot s), regs := [(0, l.key.1), (1, l.key.2.1), (2, l.key.2.2), (17, l.handler)],
      nextLtid := l.groups * l.alloc.w, nextGroup := l.groups, heldAt := s.cycle }
  let s1 := freshAllocation { setTeam s tid t with nextId := tid + 1 } t l
  let s2 := (upto l.groups).foldl (fun s g =>
    formGroup s tid g (cores.getD (g % cores.length) 0) (launchLanes l.alloc.w g)) s1
  snapshotTeam s2 tid

/-- Places a team again on a seat, from a save area, which is its first snapshot there (02 R55, 23 R413). -/
def placeSaved (s : State) (tid : Nat) (t : Team) (l : Launch) (x : TeamSave) (cores : List Nat) : State :=
  let u := { t with
    cluster := cores.getD 0 0 / 64, cores := cores, pbase := cores.map (fun k => (freeBase s k l.lm).getD 0),
    tslots := cores.map (freeTeamSlot s), heldAt := s.cycle }
  snapshotTeam (restoreTeam s tid u l false x) tid

/-! ### Placing a gang -/

/-- Places the teams of a new gang in a cluster, each on the lowest seat that it fits (07 R152); none when one does not. -/
def placeInCluster (s : State) (lid : Nat) (l : Launch) (gang size c : Nat) : Option State :=
  (upto size).foldl (fun (o : Option State) t =>
    match o with
    | none => none
    | some s1 => ((seats s1 c l.pair).find? (seatFits s1 l none)).map (placeNew s1 lid l gang t size)) (some s)

/-- Places saved teams in a cluster, each on the lowest seat that it fits and that `allow` admits. -/
def restoreInCluster (s : State) (l : Launch) (teams : List (Nat × Team)) (allow : Nat → Bool) (c : Nat) : Option State :=
  teams.foldl (fun (o : Option State) e =>
    match o, e.2.snap with
    | some s1, some x =>
      ((seats s1 c l.pair).find? (fun k => k.all allow && seatFits s1 l (some x) k)).map (placeSaved s1 e.1 e.2 l x)
    | _, _ => none) (some s)

/-- Places a gang of a deterministic, record or replay launch in a cluster: k teams to a seat from the base on, which is
the recorded one, or the lowest with enough free seats (08 R186). Answers the base too. -/
def placeCurve (s : State) (lid : Nat) (l : Launch) (gang size k c : Nat) (base : Option Nat) : Option (State × Nat) :=
  let all := seats s c l.pair
  let need := (size + k - 1) / k
  let free := fun (b : Nat) => decide (b + need ≤ all.length) &&
    ((all.drop b).take need).all (fun seat => seatOpen s seat && seat.all (fun core => (residents s core).isEmpty))
  if k = 0 then none
  else
    match (match base with | some b => [b] | none => upto all.length).find? free with
    | none => none
    | some b => some ((upto size).foldl (fun s t => placeNew s lid l gang t size (all.getD (b + t / k) [])) s, b)

/-- config_num (02 R51). -/
def configNum (d : Device) : Nat := d.coresCode * 9 + d.latCode * 3 + d.stackCode

/-- Writes bytes of the shape record that lie in one page, if the page is still the partition's (21 R377; DESIGN CHOICE,
log entry 141). -/
def writeShape (s : State) (l : Launch) (off : Nat) (bs : List Byte) : State :=
  let a := l.shapeAddr + off
  if ownsPage s l.part (a / Config.pageBytes) then writeGlobal s a bs else s

/-- Writes a gang's entry of the shape record, with the record's header at the first one (08 R186). -/
def recordShape (s : State) (lid : Nat) (l : Launch) (gang : Nat) (e : ShapeEntry) : State :=
  let s1 := if l.shape.isEmpty then
      writeShape s l 0 (natLE 4 0x48504853 ++ natLE 4 (gangCount l) ++ natLE 1 (configNum s.dev) ++ natLE 1 l.alloc.w ++ natLE 6 0)
    else s
  let s2 := writeShape s1 l (16 + 8 * gang) (natLE 1 e.size ++ natLE 1 e.rank ++ natLE 1 e.base ++ natLE 1 e.k ++ natLE 4 0)
  { s2 with launches := tmod s2.launches lid (fun l => { l with shape := tput l.shape gang e }) }

/-- Places the next gang of a curve launch. -/
def placeRank (s : State) (p : Part) (lid : Nat) (l : Launch) : Option State :=
  let gang := gangAtRank l l.nextGang
  match tget l.shape gang with
  | some e =>
    match p.clusters[e.rank]? with
    | none => none
    | some c => (placeCurve s lid l gang e.size e.k c (some e.base)).map (·.1)
  | none =>
    let rank := l.nextGang % p.clusters.length
    [l.pref, l.fb].findSome? (fun size =>
      let k := teamsPerCore l size
      (placeCurve s lid l gang size k (p.clusters.getD rank 0) none).map (fun o =>
        recordShape o.1 lid l gang { size := size, rank := rank, base := o.2, k := k }))

/-- Places the next gang of a throughput launch: preferred size first, lowest cluster first (07 R152). -/
def placeNext (s : State) (p : Part) (lid : Nat) (l : Launch) : Option State :=
  [l.pref, l.fb].findSome? (fun size => p.clusters.findSome? (placeInCluster s lid l l.nextGang size))

/-- The status of a gang's restore that is refused whatever the cluster, by the headers of its save areas (02 R55). -/
def restoreRefusal (l : Launch) (g : Gang) : Option Nat :=
  let saves := g.saved.filterMap (fun e => e.2.snap)
  let areas := saves.flatMap (fun x => x.groups.map (·.area))
  if areas.any (fun m => !([16, 32, 64].contains (mreadN m 2 1))) then some 1
  else if (saves.map (·.area) ++ areas).any (fun m => mreadN m 0 2 != 1) then some 2
  else if teamsPerCore l 1 = 0 then some 3
  else none

/-- The saved gangs that a boundary places: not those that a relaunch waits for. -/
def gangsSaved (l : Launch) : List Gang := l.saved.filter (fun g => !g.relaunch)

/-- Places what a launch next has to place: its saved teams before its unplaced gangs (07 R155). -/
def placeOne (s : State) (p : Part) (lid : Nat) : Option State :=
  match tget s.launches lid with
  | none => none
  | some l =>
    match gangsSaved l with
    | g :: _ =>
      if (restoreRefusal l g).isSome then none
      else
        (p.clusters.findSome? (restoreInCluster s l g.saved (fun _ => true))).map (fun s1 =>
          { s1 with launches := tmod s1.launches lid (fun x => { x with saved := x.saved.filter (fun y => y != g) }) })
    | [] =>
      if decide (gangCount l ≤ l.nextGang) then none
      else
        (if l.mode = 0 then placeNext s p lid l else placeRank s p lid l).map (fun s1 =>
          { s1 with launches := tmod s1.launches lid (fun x => { x with nextGang := x.nextGang + 1 }) })

/-- Places the gangs of a launch that fit, in order. -/
def placeAll (fuel : Nat) (s : State) (p : Part) (lid : Nat) : State :=
  match fuel with
  | 0 => s
  | f + 1 =>
    match placeOne s p lid with
    | some s1 => placeAll f s1 p lid
    | none => s

/-! ### Queues (07 R141, R142, R150, R151) -/

/-- Whether a launch has gangs to place, those of a relaunch aside. -/
def toPlace (l : Launch) : Bool := l.phase != .ended && l.abort.isNone && (decide (l.nextGang < gangCount l) || !(gangsSaved l).isEmpty)

/-- The launch at the head of a queue: one that a pre-emption returned, the latest first, else the earliest accepted. -/
def queueHead (s : State) (n q : Nat) : Option (Nat × Launch) :=
  let ls := s.launches.filter (fun e => e.2.part == n && e.2.queue == q && toPlace e.2)
  match sortBy (fun a b => if a.2.returned = b.2.returned then decide (a.2.number < b.2.number) else decide (b.2.returned < a.2.returned)) ls with
  | [] => none
  | a :: _ => some a

/-- The dependences of a launch: met, failed, or neither yet (07 R142). -/
def dependences (s : State) (l : Launch) : Option Bool :=
  let st := (l.deps.filter (fun d => d != 0xFFFFFFFF#32)).map (fun d => ending s l.part d.toNat)
  if l.depFailed || st.contains (some false) then some false
  else if st.all (fun x => x == some true) then some true
  else none

/-- Checks the head of an enabled queue; a head that fails ends, and the next is checked; `fuel` bounds their number. -/
def settleHead (fuel : Nat) (s : State) (n q : Nat) : State :=
  match fuel with
  | 0 => s
  | f + 1 =>
    match tget s.parts n, queueHead s n q with
    | some p, some (lid, l) =>
      if !(tgetD p.queues q {}).enable || l.checked then s
      else
        match dependences s l with
        | none => s
        | some false => settleHead f (endLaunch s lid 3 5) n q
        | some true =>
          match checkLaunch s p lid l with
          | .error r =>
            let s1 := setLaunch s lid { l with limit := if r = 2 then firstExceeded l else none }
            settleHead f (endLaunch s1 lid 3 r) n q
          | .ok l1 => setLaunch s lid l1
    | _, _ => s

/-- Checks the heads of every queue. Launches that fail can fail their dependents in other queues: as many rounds as
there are launches reach them all. -/
def settleHeads (s : State) (n : Nat) : State :=
  (upto (s.launches.length + 1)).foldl (fun s _ =>
    (upto 64).foldl (fun s q => settleHead (s.launches.length + 1) s n q) s) s

/-- An eligible queue: its number, its head, and the state with the head's next gang placed (07 R150). -/
def eligible (s : State) (n : Nat) (p : Part) : List (Nat × Nat × Launch) :=
  (upto 64).filterMap (fun q =>
    if !(tgetD p.queues q {}).enable then none
    else
      match queueHead s n q with
      | some (lid, l) => if l.checked && (placeOne s p lid).isSome then some (q, lid, l) else none
      | none => none)

/-- Slot-cycles charged to a class in the current window, resident teams counted as they accrue (07 R151). -/
def classCount (s : State) (n : Nat) (p : Part) (c : Nat) : Nat :=
  classHeld s p (tgetD p.classes c {}) +
  total ((s.teams.filter (fun e => !e.2.killed)).map (fun e =>
    match tget s.launches e.2.launch with
    | some l => if l.part = n && l.cls = c then accrued s p l e.2 else 0
    | none => 0))

/-- Whether a class with an eligible queue is starved (07 R151). -/
def starved (s : State) (n : Nat) (p : Part) (c : Nat) : Bool :=
  let m := (tgetD p.classes c {}).minShare
  let elapsed := (s.cycle - p.windowStart) % 2 ^ 26
  m != 0 && decide (classCount s n p c * 256 < m * 64 * (partCores s p).length * elapsed)

/-- The quantum of a queue (07 R148). -/
def quantumOf (p : Part) (q : Nat) : Int := 2 ^ (tgetD p.queues q {}).qexp

/-- Raises the deficits of the eligible queues of a class when none is above 0, by the least count of quanta that lifts
one (07 R150). -/
def liftDeficits (p : Part) (qs : List Nat) : Part :=
  let d := fun (q : Nat) => (tgetD p.queues q {}).deficit
  if qs.any (fun q => decide (0 < d q)) then p
  else
    let k := leastD (qs.map (fun q => ((-d q) / quantumOf p q).toNat + 1)) 0
    { p with queues := qs.foldl (fun t q => tupd t q {} (fun x => { x with deficit := x.deficit + k * quantumOf p q })) p.queues }

/-- The first of the queues with a positive deficit after the last one served (07 R150). -/
def nextQueue (p : Part) (c : Nat) (qs : List Nat) : Option Nat :=
  let pos := qs.filter (fun q => decide (0 < (tgetD p.queues q {}).deficit))
  let last := (tgetD p.classes c {}).lastServed
  match pos.find? (fun q => decide (last < q)) with
  | some q => some q
  | none => pos.head?

/-- The dispatcher's loop (07 R150); `fuel` bounds its turns, each of which places a gang. -/
def dispatchLoop (fuel : Nat) (s : State) (n : Nat) : State :=
  match fuel with
  | 0 => s
  | f + 1 =>
    let s1 := settleHeads s n
    match tget s1.parts n with
    | none => s1
    | some p =>
      let es := eligible s1 n p
      let classes := (upto 4).filter (fun c => es.any (fun e => e.2.2.cls = c))
      match (match classes.find? (starved s1 n p) with | some c => some c | none => classes.head?) with
      | none => s1
      | some c =>
        let mine := es.filter (fun e => e.2.2.cls = c)
        let p1 := liftDeficits p (mine.map (·.1))
        match nextQueue p1 c (mine.map (·.1)) with
        | none => s1
        | some q =>
          let p2 := { p1 with classes := tupd p1.classes c {} (fun x => { x with lastServed := q }) }
          match mine.find? (fun e => e.1 = q) with
          | none => s1
          | some e =>
            let s2 := setPart s1 n p2
            dispatchLoop f (placeAll (gangCount e.2.2 + e.2.2.saved.length + 1) s2 p2 e.2.1) n

/-- Restores that are refused are reported, once at each boundary (21 R399, 07 R145). -/
def reportRefused (s : State) (n : Nat) : State :=
  (upto 64).foldl (fun s q =>
    match queueHead s n q with
    | some (_, l) =>
      match (gangsSaved l).head?.bind (restoreRefusal l) with
      | some r => postEvent s l.issuer 13 (sourceOf 4 0) (packPayload [(4, l.number), (4, r)])
      | none => s
    | none => s) s

/-- The dispatcher at a boundary of a partition (07 R150). A queue with no launch to place keeps no positive deficit. -/
def dispatchPart (s : State) (n : Nat) : State :=
  match tget s.parts n with
  | none => s
  | some p =>
    let qs := (upto 64).foldl (fun t q =>
      if (queueHead s n q).isSome || (tget t q).isNone then t else tupd t q {} (fun x => { x with deficit := min x.deficit 0 })) p.queues
    let s1 := setPart s n { p with queues := qs }
    let fuel := total (s1.launches.map (fun e => gangCount e.2 - e.2.nextGang + e.2.saved.length)) + 1
    dispatchLoop fuel (reportRefused s1 n) n

/-- A launch that the dispatcher would take up: dispatchable, or to be failed for a dependence (08 R166). -/
def hasDispatch (s : State) (n : Nat) (p : Part) : Bool :=
  (upto 64).any (fun q => (tgetD p.queues q {}).enable &&
    (match queueHead s n q with
      | some (_, l) => l.checked || (dependences s l).isSome
      | none => false))

end Sys2Proof.Machine
end

