-- ==== Sys2Proof/Machine/HostMem.lean ====
section
/-! DEFINITION. The requests of partition sessions: what each does to global memory, control memory, the page table and
control cores; which wait for a boundary; and the order of replies (07 R134, 10 R225-R230, 21 R378-R385, 23 R417, R424). -/

namespace Sys2Proof.Machine

/-! ### Replies (21 R382) -/

/-- Sends a reply in a session, to where its request came from (01 R20). -/
def replyTo (s : State) (sid : Nat) (o : Origin) (status : Nat) (payload : List Byte) : State :=
  sendFrame s sid { session := sid, type := o.type, flags := 2, status := status, payload := payload, peer := o.peer, port := o.port }

/-- What a request comes to: it is answered, or has begun and is answered later, or waits for a boundary. -/
inductive HostResult where
  | done (s : State) (status : Nat) (payload : List Byte)
  | begun (s : State)
  | hold

/-- An answer with no payload that changes nothing. -/
def refuse (s : State) (status : Nat) : HostResult := .done s status []

/-! ### Pages (10 R225, R226, 21 R378) -/

/-- The dies that hold memory of a placement, in ascending order (10 R226). -/
def placementDies (d : Device) (shared : Bool) : List Nat :=
  if shared then upto 8 else (upto 8).filter (fun k => d.hbm.contains (2 * k) || d.hbm.contains (2 * k + 1))

/-- The pages of a placement that a die holds when empty. -/
def diePages (d : Device) (shared : Bool) (die : Nat) : Nat :=
  if shared then Config.sharedPages / 8
  else Config.stackPages * ((d.hbm.filter (fun k => k / 2 = die)).length)

/-- Whether a die has a free page of a placement. -/
def dieFree (s : State) (shared : Bool) (die : Nat) : Bool :=
  decide ((s.pages.filter (fun e => e.2.home = die && e.2.shared == shared)).length < diePages s.dev shared die)

/-- The home of a page that is mapped: its place in the list of dies, or the next with room (10 R226). -/
def homeOf (s : State) (page : Nat) (shared : Bool) : Option Nat :=
  let dies := placementDies s.dev shared
  let k := page % dies.length
  (dies.drop k ++ dies.take k).find? (dieFree s shared)

/-- The pages of a run. -/
def pagesOf (a n : Nat) : List Nat := (upto (n / Config.pageBytes)).map (fun k => a / Config.pageBytes + k)

/-- Maps pages, each zeroed; none when no die has room (21 R378). -/
def mapPages (s : State) (part arg : Nat) (pages : List Nat) : Option State :=
  pages.foldl (fun (o : Option State) g =>
    match o with
    | none => none
    | some s1 =>
      (homeOf s1 g (arg / 4 % 2 = 1)).map (fun die =>
        let p : Page :=
          { part := part, writable := arg % 4 == 3, shared := arg / 4 % 2 == 1, nonatomic := arg / 8 % 2 == 1,
            replicate := arg / 16 % 2 == 1, sysAtomic := arg / 32 % 2 == 1, home := die,
            first := pages.headD g }
        let lo := g * Config.pageBytes
        { s1 with
          pages := tput s1.pages g p,
          gmem := mclear s1.gmem lo Config.pageBytes,
          lost := s1.lost.filter (fun w => w / Config.pageBytes != g),
          lags := s1.lags.filter (fun x => x.addr / Config.pageBytes != g) })) (some s)

/-- The pages of its quota that a partition has left: neither mapped nor kept for snapshots (21 R374, 23 R413). -/
def quotaLeft (s : State) (n : Nat) (p : Part) : Nat :=
  p.quota - ((s.pages.filter (fun e => e.2.part == n)).length +
    total ((s.launches.filter (fun e => e.2.part == n && e.2.phase != .ended)).map (fun e => e.2.snapPages)))

/-- Whether a launch that `pick` names and that has not ended binds a byte of a run. -/
def boundBy (s : State) (pick : Launch → Bool) (part a n : Nat) : Bool :=
  s.launches.any (fun e => e.2.part == part && e.2.phase != .ended && pick e.2 &&
    e.2.extents.any (fun x => decide (x.2.base < a + n) && decide (a < x.2.base + x.2.len)))

/-- Whether a launch that has been placed and has not ended binds a byte of a run, whether or not a team of it is on a core
now (10 R222, R229). -/
def boundRange (s : State) (part a n : Nat) : Bool :=
  boundBy s (fun l => l.phase == .running && !l.ordinals.isEmpty) part a n

/-- The same of the launches whose extents dispatch has resolved, placed or not: a range keeps its mapping from then on,
so that no launch meets another partition's page (21 R377, R379; DESIGN CHOICE, log entry 141). -/
def resolvedRange (s : State) (part a n : Nat) : Bool := boundBy s (fun _ => true) part a n

/-- Whether a run covers a lost word (23 R417). -/
def lostIn (s : State) (a n : Nat) : Bool := s.lost.any (fun w => decide (w < a + n) && decide (a < w + 4))

/-- The placement of a new set of attributes on a page of a partition: replicas and lagging bytes that it no longer admits
go. DESIGN CHOICE (log entry 142): a page that becomes HOME loses its replicas, and its run of exchanges begins. -/
def setAttributes (s : State) (n arg g : Nat) : State :=
  if !ownsPage s n g then s
  else
    { s with
      pages := tmod s.pages g (fun p =>
        let rep := arg / 16 % 2 == 1
        { p with nonatomic := arg / 8 % 2 == 1, replicate := rep, sysAtomic := arg / 32 % 2 == 1,
                 replicas := if rep then p.replicas else [], histCount := if p.replicate == rep then p.histCount else 0 }),
      lags := s.lags.filter (fun x => x.addr / Config.pageBytes != g) }

/-! ### Requests to memory -/

/-- The limits of LOAD and READ: an address and a length in words (21 R383). -/
def runFits (a n : Nat) : Bool := a % 4 == 0 && n % 4 == 0 && decide (4 ≤ n) && decide (n ≤ 8192)

/-- The control memory that a space names: a cluster of the partition. -/
def spaceCluster (p : Part) (space : Nat) : Option Nat :=
  if decide (0x100 ≤ space) && decide (space < 0x110) && p.clusters.contains (space - 0x100) then some (space - 0x100) else none

/-- LOAD (21 R383, 10 R229, R233, 07 R134). -/
def hostLoad (s : State) (n : Nat) (p : Part) (space a : Nat) (data : List Byte) (close : Bool) : HostResult :=
  if space = 0x200 then refuse s 2
  else if !runFits a data.length then refuse s 4
  else if space = 0 then
    if !ownedRange s n a data.length true then refuse s 2
    else if !close && boundRange s n a data.length then .hold
    else .done (noteWriter (writeGlobal s a data) n (runPages a data.length) 8) 0 []
  else if decide (space < 0x100) || decide (0x110 ≤ space) then refuse s 4
  else
    match spaceCluster p space with
    | none => refuse s 2
    | some c =>
      let k := (clusterAt s c).ctl
      if decide (Config.controlBytes < a + data.length) then refuse s 4
      else if k.running && decide (a < k.base + k.size) && decide (k.base < a + data.length) then refuse s 1
      else .done (storeControl s c (a, data)) 0 []

/-- READ (21 R383, 10 R229, R233, 23 R417): of global memory at the home. -/
def hostRead (s : State) (n : Nat) (p : Part) (space a len : Nat) (close : Bool) : HostResult :=
  if space = 0x200 then refuse s 2
  else if !runFits a len then refuse s 4
  else if space = 0 then
    if !ownedRange s n a len false then refuse s 2
    else if !close && boundRange s n a len then .hold
    else if lostIn s a len then refuse s 2
    else .done s 0 (mbytes s.gmem a len)
  else if decide (space < 0x100) || decide (0x110 ≤ space) then refuse s 4
  else
    match spaceCluster p space with
    | none => refuse s 2
    | some c => if decide (Config.controlBytes < a + len) then refuse s 4 else .done s 0 (controlBytes s c a len)

/-- ATOMIC (10 R230, 23 R417): one indivisible read-modify-write at the home, and the old value. -/
def hostAtomic (s : State) (n op a : Nat) (operand compare : DWord) (close : Bool) : HostResult :=
  let size := if op = 1 || op = 4 then 8 else 4
  let old := mreadN s.gmem a size
  let m := 2 ^ (8 * size)
  let new := match op with
    | 0 => (old + operand.toNat) % m
    | 1 => (old + operand.toNat) % m
    | 2 => operand.toNat % m
    | _ => operand.toNat % m
  if decide (4 < op) || a % size != 0 then refuse s 4
  else if !ownedRange s n a size true then refuse s 2
  else if !((tget s.pages (a / Config.pageBytes)).map (·.sysAtomic)).getD false then .done (bumpMgmt s 3 1) 3 []
  else if !close && boundRange s n a size then .hold
  else if lostIn s a size then refuse s 2
  else if 2 < op && old != compare.toNat % m then .done s 0 (natLE 8 old)
  else .done (noteWriter (writeGlobal s a (natLE size new)) n (runPages a size) 8) 0 (natLE 8 old)

/-! ### XLATE (21 R385) -/

/-- Address and length of a request on whole pages. -/
def pageRun (a len : Nat) : Bool :=
  a % Config.pageBytes == 0 && len % Config.pageBytes == 0 && decide (a + len ≤ 2 ^ 64)

/-- Whether every page of a run is mapped to the partition. -/
def ownsPages (s : State) (n a len : Nat) : Bool :=
  (pagesOf a len).all (ownsPage s n)

/-- XLATE op 0: a page's owner, permission, attributes and home. -/
def xlateQuery (s : State) (n a arg : Nat) : HostResult :=
  if a % 4 != 0 || arg != 0 then refuse s 4
  else
    match tget s.pages (a / Config.pageBytes) with
    | none => refuse s 2
    | some p =>
      if p.part != n then refuse s 2
      else
        let b := fun (x : Bool) => if x then 1 else 0
        .done s 0 ([p.part, if p.writable then 3 else 1, b p.shared, b p.nonatomic, b p.replicate, b p.sysAtomic, p.home, 0].map (BitVec.ofNat 8))

/-- XLATE op 1: maps a range from the quota. -/
def xlateMap (s : State) (n : Nat) (p : Part) (a len arg : Nat) : HostResult :=
  if !pageRun a len || decide (64 ≤ arg) || (arg % 4 != 1 && arg % 4 != 3) then refuse s 4
  else
    let gs := pagesOf a len
    if gs.any (fun g => (tget s.pages g).isSome) || decide (quotaLeft s n p < gs.length) then refuse s 1
    else
      match mapPages s n arg gs with
      | some s1 => .done s1 0 []
      | none => refuse s 1

/-- XLATE op 2: unmaps a range, with what its pages wait for; one that a launch binds at the next boundary after the launch
has ended (21 R401). -/
def xlateUnmap (s : State) (n a len arg : Nat) : HostResult :=
  if !pageRun a len || arg != 0 then refuse s 4
  else if !ownsPages s n a len then refuse s 2
  else if resolvedRange s n a len then .hold
  else
    let gs := pagesOf a len
    .done { s with
      parts := tmod s.parts n (fun p => { p with
        attrPend := p.attrPend.filter (fun x => !gs.contains x.1), movePend := p.movePend.filter (fun x => !gs.contains x.1) }),
      pages := s.pages.filter (fun e => !gs.contains e.1),
      lags := s.lags.filter (fun x => !gs.contains (x.addr / Config.pageBytes)),
      lost := s.lost.filter (fun w => !gs.contains (w / Config.pageBytes)) } 0 []

/-- XLATE op 3: changes the attributes of a range at the next boundary, before which the request for a bound range waits
(10 R225, 21 R378). -/
def xlateAttributes (s : State) (n : Nat) (p : Part) (a len arg : Nat) (close : Bool) : HostResult :=
  if !pageRun a len || arg % 8 != 0 || decide (64 ≤ arg) then refuse s 4
  else if !ownsPages s n a len then refuse s 2
  else if !close && resolvedRange s n a len then .hold
  else .done (setPart s n { p with attrPend := p.attrPend ++ (pagesOf a len).map (fun g => (g, arg)) }) 0 []

/-- XLATE op 4: binds or unbinds a fabric window; a window that is bound changes at the partition's next boundary (21 R380). -/
def xlateWindow (s : State) (n : Nat) (p : Part) (a len arg : Nat) : HostResult :=
  let w := arg % 16
  let unbind := arg / 16 % 2 == 1
  let v := if unbind then none else some (a, len)
  if a % 4 != 0 || len % 4 != 0 || decide (32 ≤ arg) then refuse s 4
  else if decide (0 < len) && !ownedRange s n a len (!unbind) then refuse s 2
  else if (tget p.windows w).isSome || p.windowPend.any (fun x => x.1 == w) then
    .done (setPart s n { p with windowPend := p.windowPend ++ [(w, v)] }) 0 []
  else
    match v with
    | some b => .done (setPart s n { p with windows := tput p.windows w b }) 0 []
    | none => .done s 0 []

/-- XLATE op 5: a migration, carried out at the next boundary (10 R227). -/
def xlateMigrate (s : State) (n : Nat) (p : Part) (a len arg : Nat) : HostResult :=
  if !pageRun a len || decide (8 ≤ arg) then refuse s 4
  else if !ownsPages s n a len then refuse s 2
  else .done (setPart s n { p with movePend := p.movePend ++ (pagesOf a len).map (fun g => (g, arg)) }) 0 []

/-! ### START (07 R134, R135) -/

/-- START: copies the control section and starts the program. DESIGN CHOICE (log entry 118): a program that START
replaces while an EVWAIT, QFENCE or CKPT of it waits stops in that instruction, which then writes no register. -/
def hostStart (s : State) (n : Nat) (p : Part) (cluster entry replace base image : Nat) (args : List Word) : HostResult :=
  if !p.clusters.contains cluster || !ownedRange s n image 128 false then refuse s 2
  else
    let h := mbytes s.gmem image 128
    let sec := imagePart h 4
    let ok := byteField h 0 4 == 0x4B4C525A && byteField h 4 2 == 1 && crc32 (h.take 120) == BitVec.ofNat 32 (byteField h 120 4)
    if !ok || sec.2 = 0 || entry % 4 != 0 || decide (sec.2 ≤ entry) then refuse s 6
    else if !ownedRange s n (image + sec.1) sec.2 false then refuse s 2
    else if base % 64 != 0 || decide (Config.controlBytes < base + sec.2) then refuse s 4
    else if (clusterAt s cluster).ctl.running && replace = 0 then refuse s 1
    else
      let s1 := storeControl s cluster (base, mbytes s.gmem (image + sec.1) sec.2)
      .done (onCtl s1 cluster (fun k =>
        { running := true, base := base, size := sec.2, pc := BitVec.ofNat 32 entry,
          s := (upto 4).foldl (fun t i => tput t i (args.getD i 0#32)) [], marks := k.marks })) 0 []

/-! ### Sessions (21 R382, R383) -/

/-- A request of a partition session; `close` when a boundary performs it. -/
def doRequest (s : State) (sid : Nat) (x : Session) (r : HostReq) (close : Bool) : HostResult :=
  match r with
  | .refused _ st => refuse s st
  | _ =>
    match tget s.parts x.part with
    | none => refuse s 5
    | some p =>
      let n := x.part
      match r with
      | .load space a data => hostLoad s n p space a data close
      | .read space a len => hostRead s n p space a len close
      | .start c e rep base image args => hostStart s n p c e rep base image args
      | .xlate 0 a _ arg => xlateQuery s n a arg
      | .xlate 1 a len arg => xlateMap s n p a len arg
      | .xlate 2 a len arg => xlateUnmap s n a len arg
      | .xlate 3 a len arg => xlateAttributes s n p a len arg close
      | .xlate 4 a len arg => xlateWindow s n p a len arg
      | .xlate 5 a len arg => xlateMigrate s n p a len arg
      | .xlate _ _ _ _ => refuse s 4
      | .atomic op a v c => hostAtomic s n op a v c close
      | .ckpt op desc =>
        if 3 < op then refuse s 4
        else
          let o := if op = 3 then restoreRequest s n p desc (.host sid) else ckptRequest s n p op desc (.host sid)
          (match o.2 with
            | some v => .done o.1 0 (natLE 4 v)
            | none => .begun o.1)
      | .refused _ st => refuse s st

/-- Changes a session. -/
def onSession (s : State) (sid : Nat) (f : Session → Session) : State := { s with sessions := tmod s.sessions sid f }

/-- Performs the head of a session's requests, or marks it as one that waits for a boundary; none when it waits on, or
there is none. -/
def stepSession (s : State) (sid : Nat) (close : Bool) : Option State :=
  match tget s.sessions sid with
  | none => none
  | some x =>
    match x.busy, x.waiting with
    | none, w :: rest =>
      if x.held && !close then none
      else
        match doRequest (onSession s sid (fun y => { y with waiting := rest, held := false })) sid x w.req close with
        | .hold => if x.held then none else some (onSession s sid (fun y => { y with held := true }))
        | .begun s1 => some (onSession s1 sid (fun y => { y with busy := some w.origin }))
        | .done s1 st pay => some (replyTo s1 sid w.origin st pay)
    | _, _ => none

/-- Performs the requests of a session that need not wait, in order. -/
def drainSession (fuel : Nat) (s : State) (sid : Nat) : State :=
  match fuel with
  | 0 => s
  | f + 1 =>
    match stepSession s sid false with
    | some s1 => drainSession f s1 sid
    | none => s

/-- The requests that wait in a session. -/
def waitingIn (s : State) (sid : Nat) : Nat := ((tget s.sessions sid).map (fun x => x.waiting.length)).getD 0

/-- Answers the request that a session waits on, and goes on with those behind it. -/
def answerSession (s : State) (sid : Nat) (payload : List Byte) : State :=
  match (tget s.sessions sid).bind (·.busy) with
  | none => s
  | some o =>
    let s1 := replyTo (onSession s sid (fun y => { y with busy := none })) sid o 0 payload
    drainSession (waitingIn s1 sid + 1) s1 sid

/-- Answers whoever waits for a checkpoint with a value. -/
def answerWaiter (s : State) (w : CkptWaiter) (v : Nat) : State :=
  match w with
  | .host sid => answerSession s sid (natLE 4 v)
  | .ctl c =>
    match (clusterAt s c).ctl.wait with
    | .capture d => ctlWake s c d (BitVec.ofNat 32 v)
    | .drained d => ctlWake s c d (BitVec.ofNat 32 v)
    | .restore d => ctlWake s c d (BitVec.ofNat 32 v)
    | _ => s

/-- The sessions of a partition whose first request waits, by its arrival. -/
def heldSessions (s : State) (n : Nat) : List Nat :=
  let xs := s.sessions.filter (fun e => e.2.part == n && !e.2.admin && e.2.busy.isNone && !e.2.waiting.isEmpty)
  (sortBy (fun a b => decide ((a.2.waiting.headD default).arrival < (b.2.waiting.headD default).arrival)) xs).map (·.1)

/-- Whether a session waits for a boundary: an unmap of a range that a launch still binds waits for more (21 R401). -/
def waitsBoundary (s : State) (n sid : Nat) : Bool :=
  match (((tget s.sessions sid).map (·.waiting)).getD []).map (·.req) with
  | HostReq.xlate 2 a len _ :: _ => !resolvedRange s n a len
  | _ :: _ => true
  | [] => false

/-- Performs the requests that waited for the boundary, in arrival order (10 R222, R229); `fuel` bounds their number. -/
def closeRequests (fuel : Nat) (s : State) (n : Nat) (passed : List Nat) : State :=
  match fuel with
  | 0 => s
  | f + 1 =>
    match (heldSessions s n).find? (fun k => !passed.contains k) with
    | none => s
    | some sid =>
      match stepSession s sid true with
      | some s1 => closeRequests f s1 n passed
      | none => closeRequests f s n (sid :: passed)

end Sys2Proof.Machine
end

