-- ==== Sys2Proof/Machine/Checkpoint.lean ====
section
/-! DEFINITION. Checkpoints and their restore: the capture at a boundary, the drain, and what RSTOR writes back
(23 R418-R424). An image holds the state itself; its bytes are computed from it. -/

namespace Sys2Proof.Machine

/-! ### Capture (23 R419, R421) -/

/-- The pages of a partition. -/
def partPages (s : State) (n : Nat) : Table Page := s.pages.filter (fun e => e.2.part == n)

/-- Whether an address lies in one of the pages. -/
def inPages (ps : Table Page) (a : Nat) : Bool := ps.any (fun e => e.1 == a / Config.pageBytes)

/-- Permission of a page, as XLATE codes it. -/
def pagePerm (p : Page) : Nat := if p.writable then 3 else 1

/-- Whether two pages that follow each other are of one range: mapped together, and of the same attributes. -/
def sameRange (p q : Page) : Bool :=
  p.first == q.first && p.nonatomic == q.nonatomic && p.replicate == q.replicate && p.sysAtomic == q.sysAtomic

/-- The ranges that listed pages form: the longest runs of pages of one map that have the same attributes, by first page,
pages and a page. DESIGN CHOICE (log entry 147): an unmap or a change of attributes in the middle of a range leaves
the runs on either side as ranges. -/
def pageRanges (ps : Table Page) : List (Nat × Nat × Page) :=
  match ps with
  | [] => []
  | (g, p) :: rest =>
    match pageRanges rest with
    | [] => [(g, 1, p)]
    | (h, n, q) :: rs => if h = g + 1 && sameRange p q then (g, n + 1, p) :: rs else (g, 1, p) :: (h, n, q) :: rs

/-- The ranges of a partition as the range map records them. -/
def rangeMap (s : State) (n : Nat) : List RangeRec :=
  (pageRanges (partPages s n)).map (fun r =>
    { base := r.1 * Config.pageBytes, len := r.2.1 * Config.pageBytes, perm := pagePerm r.2.2, shared := r.2.2.shared,
      nonatomic := r.2.2.nonatomic, replicate := r.2.2.replicate, sysAtomic := r.2.2.sysAtomic })

/-- The launches of a partition that have not ended, as a checkpoint records them: the issuer by the rank of its cluster,
the dependences that are left. -/
def recordedLaunches (s : State) (n : Nat) (p : Part) : Table Launch :=
  (s.launches.filter (fun e => e.2.part == n && e.2.phase != .ended)).map (fun e =>
    let left := e.2.deps.filter (fun d => d != 0xFFFFFFFF#32 && ending s n d.toNat != some true)
    (e.1, { e.2 with
      issuer := p.clusters.idxOf e.2.issuer, deps := left,
      depFailed := e.2.depFailed || left.any (fun d => ending s n d.toNat == some false) }))

/-- The placed teams of a partition, with their contexts. -/
def recordedTeams (s : State) (n : Nat) : List (Nat × Team) :=
  s.teams.filter (fun e => !e.2.killed &&
    ((tget s.launches e.2.launch).map (fun l => l.part == n && l.phase != .ended)) == some true)

/-- The image of a partition now. -/
def imageOf (s : State) (n : Nat) (p : Part) : Image :=
  let ps := partPages s n
  { complete := false, ckptId := BitVec.ofNat 64 (byteField p.ckpt.desc 24 8), boundary := p.boundary, phase := s.chipPhase,
    configNum := configNum s.dev, clusters := p.clusters.length,
    ranges := rangeMap s n,
    bytes := s.gmem.filter (fun c => inPages ps c.1), lost := s.lost.filter (inPages ps),
    queues := p.queues, classes := p.classes, launches := recordedLaunches s n p, teams := recordedTeams s n,
    nextLaunch := p.nextLaunch, queueBytes := Config.freeBytes s.freeCount,
    launchBytes := Config.freeBytes (s.freeCount + 1) }

/-! ### The bytes of an image (23 R419) -/

/-- The 32 bytes of an entry of the range map. -/
def rangeBytes (r : RangeRec) : List Byte :=
  let b := fun (x : Bool) => natLE 1 (if x then 1 else 0)
  natLE 8 r.base ++ natLE 8 r.len ++ natLE 1 r.perm ++ b r.shared ++ b r.nonatomic ++ b r.replicate ++ b r.sysAtomic ++ natLE 11 0

/-- The bytes of the area of a team context: those of its groups follow. -/
def contextArea (l : Launch) (x : TeamSave) : Nat :=
  pad64 (imageBytes l) + teamArea l (slotsSaved l x.area).length (recordsSaved l x).length

/-- A byte of a team context. -/
def contextByte (l : Launch) (x : TeamSave) (o : Nat) : Byte :=
  let n := contextArea l x
  if o < n then areaByte l x o
  else
    match x.groups[(o - n) / groupArea l.alloc]? with
    | some g => mread g.area ((o - n) % groupArea l.alloc)
    | none => 0#8

/-- A run of bytes in an image: how many, and each by its offset. -/
abbrev Run := Nat × (Nat → Byte)

/-- A run of listed bytes. -/
def listRun (bs : List Byte) : Run := (bs.length, fun o => bs.getD o 0#8)

/-- The byte at an offset of consecutive runs. -/
def runByte (rs : List Run) (o : Nat) : Byte :=
  match rs with
  | [] => 0#8
  | r :: rest => if o < r.1 then r.2 o else runByte rest (o - r.1)

/-- The contexts of the teams of an image. -/
def contextRuns (i : Image) : List Run :=
  i.teams.filterMap (fun e => match tget i.launches e.2.launch, e.2.snap with
    | some l, some x => some (contextArea l x + x.groups.length * groupArea l.alloc, contextByte l x)
    | _, _ => none)

/-- The sections of an image before its table, each a list of runs: range map, pages, team contexts, queue state, launches. -/
def imageSections (i : Image) : List (List Run) :=
  [i.ranges.map (fun r => listRun (rangeBytes r)),
   i.ranges.map (fun r => (r.len, fun o => mread i.bytes (r.base + o))),
   contextRuns i, [listRun i.queueBytes], [listRun i.launchBytes]]

/-- The bytes of a section. -/
def runsSize (rs : List Run) : Nat := total (rs.map (·.1))

/-- The bytes of the sections before the table. -/
def bodySize (i : Image) : Nat := runsSize (imageSections i).flatten

/-- The blocks of 2 MiB that the table covers. -/
def bodyBlocks (i : Image) : Nat := (bodySize i + Config.pageBytes - 1) / Config.pageBytes

/-- The size of an image. -/
def imageSize (i : Image) : Nat := 4096 + bodySize i + 4 * bodyBlocks i

/-- The header of an image; the sections follow it in their order. -/
def headerBytes (i : Image) : List Byte :=
  let sizes := (imageSections i).map runsSize ++ [4 * bodyBlocks i]
  let body := natLE 4 0x48434B43 ++ natLE 2 1 ++ natLE 2 (if i.complete then 1 else 0) ++ natLE 8 i.ckptId.toNat ++
    natLE 8 i.boundary ++ natLE 8 i.phase ++ natLE 1 i.configNum ++ natLE 1 i.clusters ++ natLE 2 0 ++
    natLE 4 i.teams.length ++ natLE 4 i.launches.length ++ natLE 4 0 ++
    (upto 6).flatMap (fun k => natLE 8 (4096 + total (sizes.take k)) ++ natLE 8 (sizes.getD k 0)) ++ natLE 3948 0
  body ++ natLE 4 (crc32 body).toNat

/-- The CRC-32 of a block of the sections, whose bytes are given by offset. -/
def blockCrc (i : Image) (byte : Nat → Byte) (k : Nat) : Nat :=
  (crc32 ((upto (min Config.pageBytes (bodySize i - k * Config.pageBytes))).map (fun j => byte (k * Config.pageBytes + j)))).toNat

/-- A byte of an image as the drain wrote it. -/
def imageByte (i : Image) (o : Nat) : Byte :=
  let n := 4096 + bodySize i
  if o < 4096 then (headerBytes i).getD o 0#8
  else if o < n then runByte (imageSections i).flatten (o - 4096)
  else (natLE 4 (blockCrc i (runByte (imageSections i).flatten) ((o - n) / 4))).getD ((o - n) % 4) 0#8

/-- A byte of an image as it is read back, where the target has changed some. -/
def readBack (i : Image) (changed : List (Nat × Byte)) (o : Nat) : Byte :=
  match changed.find? (fun c => c.1 == o) with
  | some c => c.2
  | none => imageByte i o

/-- The header as it is read back holds: magic, format, complete flag, CRC. -/
def headerHolds (h : List Byte) : Bool :=
  let f := byteField h
  f 0 4 == 0x48434B43 && f 4 2 == 1 && f 6 2 == 1 && crc32 (h.take 4092) == BitVec.ofNat 32 (f 4092 4)

/-- The table as it is read back holds for every block that a change touches, or whose entry it touches. -/
def tableHolds (i : Image) (changed : List (Nat × Byte)) : Bool :=
  let n := 4096 + bodySize i
  (upto (bodyBlocks i)).all (fun k =>
    let lo := 4096 + k * Config.pageBytes
    !changed.any (fun c => (decide (lo ≤ c.1) && decide (c.1 < lo + Config.pageBytes)) ||
        (decide (n + 4 * k ≤ c.1) && decide (c.1 < n + 4 * k + 4))) ||
      blockCrc i (fun o => readBack i changed (4096 + o)) k ==
        leNat ((upto 4).map (fun j => readBack i changed (n + 4 * k + j))))

/-- Whether an image passes the checks of RSTOR as it is read back. One that reads as it was written has its magic, its
format and its CRCs. -/
def imageHolds (i : Image) (changed : List (Nat × Byte)) : Bool :=
  if changed.isEmpty then i.complete
  else headerHolds ((upto 4096).map (readBack i changed)) && tableHolds i changed

/-- The address of a byte of the pages section, by its offset there. -/
def rangeAt (rs : List RangeRec) (o : Nat) : Option Nat :=
  match rs with
  | [] => none
  | r :: rest => if o < r.len then some (r.base + o) else rangeAt rest (o - r.len)

/-- The bytes of the pages of an image as they are read back. -/
def pagesRead (i : Image) (changed : List (Nat × Byte)) : List Host.Cell :=
  let lo := 4096 + 32 * i.ranges.length
  changed.foldl (fun m c =>
    match rangeAt i.ranges (c.1 - lo) with
    | some a => if lo ≤ c.1 then mwrite m a c.2 else m
    | none => m) i.bytes

/-! ### What a checkpoint answers -/

/-- Sets the checkpoint state of a partition. -/
def setCkpt (s : State) (n : Nat) (f : Ckpt → Ckpt) : State :=
  { s with parts := tmod s.parts n (fun p => { p with ckpt := f p.ckpt }) }

/-- Answers a list of waiters. -/
def answerAll (s : State) (ws : List CkptWaiter) (v : Nat) : State := ws.foldl (fun s w => answerWaiter s w v) s

/-- Captures a pending checkpoint at step 5 of a boundary, after the snapshots: the drain begins, or the capacity does
not hold the image. -/
def captureCkpt (s : State) (n : Nat) : State :=
  match tget s.parts n with
  | none => s
  | some p =>
    if p.ckpt.phase != 1 then s
    else
      let i := imageOf s n p
      let s1 := { s with freeCount := s.freeCount + 2 }
      let fits := decide (imageSize i ≤ byteField p.ckpt.desc 16 8)
      let s2 := if fits then { s1 with pool := tput s1.pool (descTarget p.ckpt.desc) i } else s1
      let s3 := setCkpt s2 n (fun k => { k with
        phase := if fits then 2 else 4, image := if fits then some i else none, starter := none,
        waiters := if fits then k.waiters else [] })
      let s4 := answerAll s3 p.ckpt.starter.toList (if fits then 0 else 4)
      if fits then s4 else answerAll s4 p.ckpt.waiters 5

/-! ### The drain (23 R422) -/

/-- Ends the drain of a partition: the complete flag is written, or stays 0. -/
def endDrain (s : State) (n : Nat) (ok : Bool) : State :=
  match tget s.parts n with
  | none => s
  | some p =>
    match p.ckpt.phase, p.ckpt.image with
    | 2, some i =>
      let s1 := if ok then { s with pool := tput s.pool (descTarget p.ckpt.desc) { i with complete := true } } else s
      let s2 := setCkpt s1 n (fun k => { k with phase := if ok then 3 else 4, image := none, waiters := [] })
      answerAll s2 p.ckpt.waiters (if ok then 0 else 5)
    | _, _ => s

/-- CHECKPOINT_DRAIN_END (23 R422): every byte is acknowledged. -/
def execCheckpointDrainEnd (part : Nat) (s : State) : Host.Outcome State Fault Refusal :=
  .next (if deviceRuns s then endDrain s part true else s)

/-- CHECKPOINT_DRAIN_TIMEOUT (23 R422): the target refuses the write, or is unreachable on every plane. -/
def execCheckpointDrainTimeout (part : Nat) (s : State) : Host.Outcome State Fault Refusal :=
  .next (if deviceRuns s then endDrain s part false else s)

/-! ### RSTOR (23 R423) -/

/-- Whether every recorded range is mapped to the partition at the same address and length with at least the recorded
permission. -/
def rangesMapped (s : State) (n : Nat) (i : Image) : Bool :=
  let now := rangeMap s n
  i.ranges.all (fun r => now.any (fun q => q.base == r.base && q.len == r.len && decide (r.perm ≤ q.perm)))

/-- Writes the pages of an image and sets their attributes. -/
def restorePages (s : State) (i : Image) : State :=
  let ks := i.ranges.flatMap (fun r => pagesOf r.base r.len)
  let inside := fun (a : Nat) => ks.contains (a / Config.pageBytes)
  { s with
    gmem := i.bytes.foldl (fun m c => mwrite m c.1 c.2) (s.gmem.filter (fun c => !inside c.1)),
    lost := s.lost.filter (fun w => !inside w) ++ i.lost,
    lags := s.lags.filter (fun x => !inside x.addr),
    pages := i.ranges.foldl (fun t r => (pagesOf r.base r.len).foldl (fun t g => tmod t g (fun p => { p with
      nonatomic := r.nonatomic, replicate := r.replicate, sysAtomic := r.sysAtomic, replicas := [], histCount := 0 })) t) s.pages }

/-- The saved gangs of a launch: its teams, by gang in ascending order. -/
def gangsFrom (ts : List (Nat × Team)) : List Gang :=
  (once (ts.map (fun e => e.2.gang))).map (fun g =>
    let mine := ts.filter (fun e => e.2.gang = g)
    { index := g, size := ((mine.head?).map (fun e => e.2.gangSize)).getD 0, saved := mine })

/-- A launch of an image in the partition that restores it, under its new number among the device's launches; its
teams take the device's next team numbers, from `base` on. -/
def restoredLaunch (n lid base : Nat) (p : Part) (i : Image) (old : Nat) (l : Launch) : Launch :=
  let fresh := fun (e : Nat × Team) => (base + e.1, { e.2 with launch := lid })
  let placed := (i.teams.filter (fun e => e.2.launch = old)).map fresh
  { l with
    part := n, issuer := p.clusters.getD l.issuer 0,
    saved := gangsFrom placed ++ l.saved.map (fun g => { g with saved := g.saved.map fresh, relaunch := false }),
    returned := if placed.isEmpty then l.returned else i.boundary + 1 }

/-- The handle slots that the saved teams of a launch hold. -/
def savedSlots (l : Launch) : List (Nat × Slot) :=
  l.saved.flatMap (fun g => g.saved.flatMap (fun e => match e.2.snap with
    | some x => (slotsSaved l x.area).map (fun k => (k.1, { k.2 with owner := some e.1 }))
    | none => []))

/-- Restores an image into a partition: pages, queue state, launches, counters; what was placed returns to the heads of
its queues. -/
def restoreImage (s : State) (n : Nat) (p : Part) (i : Image) : State :=
  let s1 := restorePages s i
  let base := s.nextId + i.launches.length
  let top := i.teams.foldl (fun m e => max m (e.1 + 1)) (i.launches.foldl (fun m e =>
    e.2.saved.foldl (fun m g => g.saved.foldl (fun m e => max m (e.1 + 1)) m) m) 0)
  let new := (upto i.launches.length).map (fun k =>
    let e := i.launches.getD k (0, default)
    (s.nextId + k, restoredLaunch n (s.nextId + k) base p i e.1 e.2))
  let slots := (new.flatMap (fun e => savedSlots e.2)).foldl (fun t e => tput t e.1 e.2) p.slots
  { s1 with
    launches := new.foldl (fun t e => tput t e.1 e.2) (s1.launches.filter (fun e => e.2.part != n)),
    retired := s1.retired.filter (fun e => ((tget s1.launches e.2.launch).map (·.part)) != some n),
    nextId := base + top,
    parts := tmod s1.parts n (fun p => { p with
      queues := i.queues, classes := i.classes, boundary := i.boundary, nextLaunch := i.nextLaunch, slots := slots }) }

/-- What a restore comes to when the image has been read, with the bytes that its target has changed: its value, and the
state. -/
def finishRestore (s : State) (n : Nat) (p : Part) (desc : List Byte) (read : Option (List (Nat × Byte))) : State × Nat :=
  match read with
  | none => (s, 5)
  | some changed =>
    if s.launches.any (fun e => e.2.part == n && e.2.phase != .ended) then (s, 9)
    else
      match tget s.pool (descTarget desc) with
      | none => (s, 7)
      | some i =>
        if !imageHolds i changed then (s, 7)
        else if i.clusters != p.clusters.length || !rangesMapped s n i then (s, 8)
        else (restoreImage s n p { i with bytes := pagesRead i changed }, 0)

/-- RSTOR_COMPLETE (23 R423): the image has been read, or could not be; RSTOR or the CKPT message returns. -/
def execRstorComplete (part : Nat) (read : Option (List (Nat × Byte))) (s : State) : Host.Outcome State Fault Refusal :=
  .next (if !deviceRuns s then s
    else
      match tget s.parts part with
      | none => s
      | some p =>
        match p.ckpt.restoring with
        | none => s
        | some (who, desc) =>
          let r := finishRestore (setCkpt s part (fun k => { k with restoring := none })) part p desc read
          answerWaiter r.1 who r.2)

end Sys2Proof.Machine
end

