-- ==== Sys2Proof/Machine/Kill.lean ====
section
/-! DEFINITION. KILL and KILLT, and what a kill lets go: the killed threads no longer count at the barriers of their gang
(09 R211). -/

namespace Sys2Proof.Machine

/-- Lets go what the killed teams held up in their clusters. -/
def settleKills (s : State) : State :=
  (once ((s.teams.filter (fun e => e.2.killed)).map (fun e => e.2.cluster))).foldl (fun s c => settleCluster s c []) s

/-- Kills a team by 07 R156 and lets go what it held up. -/
def killNow (s : State) (tid : Nat) : State := settleKills (killTeam s tid true)

/-- An instruction that may kill teams. -/
def afterKill (o : Host.Outcome State Fault Refusal) : Host.Outcome State Fault Refusal :=
  match o with
  | .next s => .next (settleKills s)
  | .fault f => .fault f
  | .refused r => .refused r

/-- KILL (07 R156): mode 0 aborts the launch, mode 1 kills its late teams. -/
def execKill (_sw : Bool) (d x y : BitVec 6) (s : State) : Host.Outcome State Fault Refusal :=
  afterKill (ctlOp s x y (fun s c n _ a b =>
    if b.toNat > 1 then ctlDone s c d.toNat 3#32
    else
      match launchNumbered s n a.toNat, tget s.parts n with
      | some (lid, l), some p =>
        if l.phase == .ended then ctlDone s c d.toNat 1#32
        else if b == 0#32 then ctlDone (abortLaunch s lid 1) c d.toNat 0#32
        else
          let late := lateTeams s p lid
          if late.isEmpty then ctlDone s c d.toNat 2#32
          else ctlDone (late.foldl (fun s tid => killTeam s tid true) s) c d.toNat 0#32
      | _, _ => ctlDone s c d.toNat 1#32))

/-- KILLT (21 R397): kills the executing team at issue when any lane executes. -/
def execKillt (sw : Bool) (s : State) : Host.Outcome State Fault Refusal :=
  afterKill (groupOnly s { sw := sw } (fun i w => { w with kill := !i.act.isEmpty }))

end Sys2Proof.Machine
end

