-- ==== Sys2Proof/Machine/Events.lean ====
section
/-! DEFINITION. Events inside a compute phase: illegal words, returning results, commits, spawn timers, waits that end,
traps and FP windows, engine programs, sweeps and fabric acknowledgements. An event changes nothing while the device
does not run (23 R425). -/

namespace Sys2Proof.Machine

/-- An event of a running device. -/
def whenRuns (s : State) (f : State → State) : Host.Outcome State Fault Refusal := .next (if deviceRuns s then f s else s)

/-- An event of a device that is up, in safe mode or not. -/
def whenUp (s : State) (f : State → State) : Host.Outcome State Fault Refusal := .next (if deviceUp s then f s else s)

/-! ### Illegal words (04 R88-R90) -/

/-- ILLEGAL_INSTRUCTION (04 R88): the threads of the issuing set trap, with an empty done mask. -/
def execIllegalInstruction (s : State) : Host.Outcome State Fault Refusal :=
  groupOnly s { sw := false, illegal := true } (fun _ w => w)

/-- CTL_ILLEGAL (04 R89): the control program stops at the word and the event is posted. -/
def execCtlIllegal (s : State) : Host.Outcome State Fault Refusal := controlOnly s stopAtWord

/-- ENGINE_ILLEGAL (04 R90): the program ends at the word and the event is posted. -/
def execEngineIllegal (s : State) : Host.Outcome State Fault Refusal :=
  match s.issue.actor with
  | .none => .refused .noIssuer
  | .group gid set => groupIssue s gid set { sw := false, illegal := true } (fun _ w => w)
  | .control c => .next (stopAtWord s c)
  | .sequencer core unit => .next (endProgram s core unit 3 s.issue.pc.toNat s.issue.word)

/-! ### Results and operations (02 R44, R46) -/

/-- Writes a returned result where the register still waits for it: a release that came before its issue ends with the
write (02 R46, R47). -/
def landReg (t : Table Reg) (f : Flight) : Table Reg :=
  let r := tgetD t f.key {}
  if r.pending && r.tag = f.tag then tput t f.key { r with val := f.val, pending := false, released := false } else t

/-- Writes a returned result into a state or a shadow of the group. -/
def landCore (f : Flight) (c : GroupCore) : GroupCore :=
  endSwitch (match f.cls with
    | 0 => { c with v := landReg c.v f }
    | 1 => { c with s := landReg c.s f }
    | _ => { c with p := landReg c.p f })

/-- Whether a register's tag is that of a result. -/
def tagMatches (c : GroupCore) (f : Flight) : Bool :=
  (match f.cls with
    | 0 => (tgetD c.v f.key {}).tag
    | 1 => (tgetD c.s f.key {}).tag
    | _ => (tgetD c.p f.key {}).tag) == f.tag

/-- A result that returns for a group that has left its core is dropped, and its team counts it, a saved one once it is
restored (02 R46). -/
def strayReturn (s : State) (group flight : Nat) : State :=
  let drop := fun (count : Team → Team) (t : Team) =>
    if t.stray.contains (group, flight) then count { t with stray := t.stray.filter (fun f => f != (group, flight)) } else t
  let now := drop (fun t => bumpTeam t 10 1)
  let later := drop (fun t => { t with staleSaved := t.staleSaved + 1 })
  { s with
    teams := tmap s.teams (fun _ t => now t), retired := tmap s.retired (fun _ t => now t),
    launches := tmap s.launches (fun _ l => { l with saved := l.saved.map (fun g =>
      { g with saved := g.saved.map (fun e => (e.1, later e.2)) }) }) }

/-- RESULT_RETURN (02 R46): written when its tag is the register's, else dropped and counted in cnt_stale. -/
def execResultReturn (group flight : Nat) (s : State) : Host.Outcome State Fault Refusal :=
  whenRuns s (fun s =>
    match tget s.groups group with
    | none => strayReturn s group flight
    | some g =>
      match g.flights.find? (fun f => f.uid == flight) with
      | none => s
      | some f =>
        let g1 := { g with flights := g.flights.filter (fun x => x.uid != flight) }
        if tagMatches g.regs f then setGroup s group (mapCores (landCore f) g1)
        else
          let s1 := setGroup s group g1
          { s1 with teams := tmod s1.teams g.team (fun t => bumpTeam t 10 1) })

/-- MATRIX_OPERATION_COMPLETE (02 R44): the interlock on its tiles and accumulators ends. -/
def execMatrixOperationComplete (group op : Nat) (s : State) : Host.Outcome State Fault Refusal :=
  whenRuns s (fun s => { s with groups := tmod s.groups group (fun g => { g with busy := g.busy.filter (fun b => b.op != op) }) })

/-! ### Commits and waits -/

/-- CHUNK_COMMIT (08 R178-R180): the arbiter of a cluster commits a set, broadcasts it and lets go what it releases. -/
def execChunkCommit (cluster : Nat) (s : State) : Host.Outcome State Fault Refusal :=
  whenRuns s (fun s => commitCluster s cluster)

/-- SPAWN_BIN_TIMER (02 R34). -/
def execSpawnBinTimer (core bin : Nat) (s : State) : Host.Outcome State Fault Refusal :=
  whenRuns s (fun s =>
    match tget (tgetD s.cores core {}).bins bin with
    | none => s
    | some x =>
      match x.timerAt, x.recs with
      | some t, r :: _ =>
        if t ≤ s.cycle then settleCluster (setBin s core bin { x with timerAt := none, expired := some r.team }) (core / 64) [] else s
      | _, _ => s)

/-- SLEEP_EXPIRY (06 R133). -/
def execSleepExpiry (group set : Nat) (s : State) : Host.Outcome State Fault Refusal :=
  whenRuns s (fun s => { s with groups := tmod s.groups group (fun g => { g with regs := { g.regs with
    lanes := tmap g.regs.lanes (fun _ x =>
      match x.wait with
      | .sleep t => if x.set == set && decide (t ≤ s.cycle) then { x with wait := .ready } else x
      | _ => x) } }) })

/-- Whether the entry that replay waits for names what can no longer commit (08 R190). -/
def entryPassed (s : State) (l : Launch) (lid c : Nat) (e : Nat × Nat × Nat) : Bool :=
  match e.1 with
  | 0 =>
    match s.groups.find? (fun g => g.2.core / 64 == c && g.2.ordinal == e.2.1 && ((tget s.teams g.2.team).map (·.launch)) == some lid) with
    | some g => decide (e.2.2 < commitQuantum g.2) || !groupLives g.2
    | none => decide (e.2.1 < tgetD l.ordinals c 0) && !(teamsOf s lid).any (fun t => t.2.reform.contains e.2.1)
  | 1 =>
    match physicalCore s c (e.2.1 / 8) with
    | some core =>
      let key := core * 8 + e.2.1 % 8
      decide (e.2.2 < tgetD l.engineOps key 0) && !l.redo.any (fun r => r.1 == key && r.2.2 == e.2.2)
    | none => true
  | _ => false

/-- REPLAY_DIVERGE (08 R190): the launch aborts with status 4 when the named chunk can no longer commit, or has not been
ready in 2^20 cycles since it is the next, while another chunk of the launch was. -/
def execReplayDiverge (launch cluster : Nat) (s : State) : Host.Outcome State Fault Refusal :=
  whenRuns s (fun s =>
    match tget s.launches launch with
    | none => s
    | some l =>
      if l.mode != 3 || l.phase != .running || l.abort.isSome then s
      else
        let cs := candidates s cluster
        let named := nextEntry s l cluster
        let passed := match named with
          | some e => entryPassed s l launch cluster e
          | none => false
        let since := (tgetD l.logs cluster {}).since
        let other := cs.any (fun x => x.launch == launch && some (logName s x) != named &&
          decide (max since (x.chunk.endCycle + Config.dCycles) + 2 ^ 20 ≤ s.cycle))
        let ready := cs.any (fun x => x.launch == launch && some (logName s x) == named)
        if passed || (other && !ready) then abortLaunch s launch 4 else s)

/-- EVWAIT_TIMEOUT (07 R147). -/
def execEvwaitTimeout (cluster : Nat) (s : State) : Host.Outcome State Fault Refusal :=
  whenRuns s (fun s =>
    let cl := clusterAt s cluster
    match cl.ctl.wait with
    | .events sd (some d) => if d ≤ s.cycle then ctlWake s cluster sd (BitVec.ofNat 32 cl.events.length) else s
    | _ => s)

/-! ### Traps (21 R386-R388, 14 R287) -/

/-- TRAP_DELIVERY (21 R386-R388): once the slot is free the next parked sub-group goes to the handler, in the ordered modes
between two chunks of its group. A team without a handler is killed once the chunk that trapped has committed; for it no FP
window opens (14 R287). -/
def execTrapDelivery (group : Nat) (s : State) : Host.Outcome State Fault Refusal :=
  whenRuns s (fun s =>
    match groupTriple s group with
    | none => s
    | some (g, t, l) =>
      if t.killed || (ordered l && g.cur.isSome) then s
      else
        match nextPark g t l, handlerOf g t l with
        | none, _ => s
        | some p, none => if parkCommitted g p then killNow s g.team else s
        | some p, some h =>
          let since := if l.mode == 1 && !p.causes.isEmpty then t.fp.runsAt.getD 0 else 0
          setGroup s group { g with regs := deliverPark since g.regs p h })

/-- The report of a window over the lanes that trapped in it (14 R287). -/
def windowReport (s : State) (tid : Nat) (w : FpWindow) : FpWindow :=
  let hits := ((fpParks s tid).filter (fun e => e.2.win == some w.n)).flatMap (fun e =>
    e.2.causes.map (fun c => (((tget s.groups e.1).map (fun g => (laneAt g.regs c.1).ltid)).getD 0, e.2.pc, c.2)))
  match sortBy (fun a b => decide (a.1 < b.1)) hits with
  | [] => { w with isOpen := false, service := false }
  | a :: rest =>
    { w with isOpen := false, service := true, ltid := a.1, pc := a.2.1, count := rest.length + 1,
             causes := rest.foldl (fun m h => m ||| h.2.2) a.2.2 }

/-- FP_TRAP_WINDOW_CLOSE (14 R287): after 256 cycles, or in deterministic and replay modes once every live group of the
team has committed the window's quantum. -/
def execFpTrapWindowClose (team : Nat) (s : State) : Host.Outcome State Fault Refusal :=
  whenRuns s (fun s =>
    let m := teamMode s team
    let det := m == 1 || m == 3
    let s1 := if det then noteWindow m s team else s
    match tget s1.teams team with
    | none => s
    | some t =>
      let done := if det then t.fp.runsAt.isSome else decide (t.fp.closeAt ≤ s.cycle)
      if t.fp.isOpen && done then
        noteWindow 1 (openWindow (setTeam s1 team { t with fp := windowReport s1 team t.fp }) team) team
      else s)

/-! ### Engines (11 R235, R236, R250, 18 R341, R342, R347, R348, R356, R358) -/

/-- The program at the head of a list starts: the program's working registers, and the lattice of a new owner reset. -/
def startProgram (s : State) (core unit : Nat) (p : Prog) (t : Team) : State :=
  let i := if t.cores.getD 0 0 == core then 0 else 1
  if unit < 4 then
    let regs := (upto 32).foldl (fun (r : Table DWord) n => tput r n (tgetD t.eregs ((i * 4 + unit) * 32 + n) 0#64)) []
    setProg s core unit { p with e := regs, pc := p.offset }
  else
    let base := BitVec.ofNat 32 ((t.logicalCore + i) * Config.localBytes + t.vbase.getD i 0)
    let s1 := setProg s core unit { p with n := tput [] 0 base, pc := p.offset }
    match physicalLattice s core (unit - 4) with
    | none => endProgram s1 core unit 5 p.offset 0#32
    | some l =>
      if p.refused then endProgram s1 core unit 5 p.offset 0#32
      else
        let x := latticeAt s core l
        setLattice s1 core l (if x.owner == some p.team then x else { owner := some p.team })

/-- ENGINE_PROGRAM_START (11 R235): an idle unit starts the program at the head of its list. -/
def execEngineProgramStart (core unit : Nat) (s : State) : Host.Outcome State Fault Refusal :=
  whenRuns s (fun s =>
    let e := engineAt s core unit
    match e.run, e.list with
    | none, p :: rest =>
      match anyTeam s p.team with
      | none => setEngine s core unit { e with list := rest }
      | some t => startProgram (setEngine s core unit { e with list := rest }) core unit p t
    | _, _ => s)

/-- FABRIC_ACKNOWLEDGEMENT (10 R232, 11 R250): the remote home holds the write and the sender's digest counts it, or it
was refused and the program ends with BOUND. -/
def execFabricAcknowledgement (core unit : Nat) (refused : Bool) (s : State) : Host.Outcome State Fault Refusal :=
  whenRuns s (fun s =>
    match seqAt s core unit with
    | none => s
    | some q =>
      if !q.p.fabWait then s
      else if refused then seqStop q 5
      else
        let s1 := match (s.fabricOut.filter (fun f => f.2.tag == q.tag && f.2.part == q.l.part)).getLast? with
          | some (dest, w) =>
            let base := dest * 2 ^ 52 + w.window * 2 ^ 48 + w.offset
            let d := (upto w.data.length).foldl (fun t k => tput t (base + 4 * k) (w.data.getD k 0#32)) q.l.digestSent
            setLaunch s q.t.launch { q.l with digestSent := d }
          | none => s
        setProg s1 core unit (nextWord { q.p with fabWait := false }))

/-- The report of a health test over the counts of 4,096 nodes (18 R358). -/
def healthReport (cs : List Nat) (nt : Nat) (before : Bool) (cycle : Nat) : List Byte × Bool :=
  let thresh := if nt / 2 ^ 16 = 0 then 1311 else nt / 2 ^ 16
  let allowed := nt % 2 ^ 13
  let ndev := deviating thresh cs
  let after := decide (ndev > allowed)
  let hist := (upto 32).flatMap (fun b => natLE 2 (cs.filter (fun c => min 31 (c / 2048) = b)).length)
  (natLE 4 (leastD cs 0) ++ natLE 4 (cs.foldl max 0) ++ natLE 4 ndev ++
    natLE 4 ((if after then 1 else 0) + (if before then 2 else 0)) ++ natLE 4 thresh ++ natLE 4 allowed ++ natLE 8 cycle ++
    hist ++ natLE 32 0, after)

/-- The end of a health test: its counts are free values and samples of the lattice's monitor; the report is the chunk, and the mark waits for its commit. -/
def finishHealth (q : Seq) (na nt : Word) : State :=
  let l := ownLattice q
  let cs := (upto Config.nodes).map (fun i => Config.freeCount (q.s.freeCount + i) % 65537)
  let r := healthReport cs nt.toNat (q.s.biased.contains (q.core * 2 + l.1)) q.s.cycle
  let q1 := { q with p := { q.p with health := none } }
  match operandAt q na 128 64 with
  | .error st => seqStop q1 st
  | .ok p =>
    let s1 := engineChunk q1 [] (lineInputs na.toNat 128) (fun c => chunkStore c p r.1) (some r.2)
    sampleBias { s1 with freeCount := q.s.freeCount + Config.nodes } (q.core * 2 + l.1) cs

/-- The shadows with one more, older ones than needed left out: a re-run starts from the newest that has been held D
cycles (23 R409). -/
def pushShadow (now : Nat) (x : SweepShadow) (old : List (Nat × SweepShadow)) : List (Nat × SweepShadow) :=
  let young := old.takeWhile (fun e => decide (now < e.1 + Config.dCycles))
  (now, x) :: (young ++ (old.drop young.length).take 1)

/-- One sweep of an LSWP: ages, the staleness check, the colour steps and the end (18 R347, R348). -/
def runSweep (q : Seq) (c : LatCfg) : State :=
  let l := ownLattice q
  let x := agedGhosts l.2
  if staleSweep c x then seqStop { q with s := setLattice q.s q.core l.1 x } 7
  else
    let r := (colours c x.ctr).foldl (fun (acc : Lattice × Nat) k =>
      let o := colourStep c acc.1 acc.2 k
      (o.1, acc.2 + o.2)) (x, q.s.freeCount)
    let y := sweepDone q.s (q.core * 2 + l.1) r.1
    let left := q.p.sweeps - 1
    let swept := q.p.swept + 1
    let s1 := { setLattice q.s q.core l.1 y with freeCount := r.2 }
    let shadows := if swept % 64 = 0 && left > 0 then pushShadow q.s.cycle (takeShadow y left) q.p.shadows else q.p.shadows
    setProg s1 q.core q.unit { q.p with
      sweeps := left, swept := swept, shadows := shadows, sweptAt := if left = 0 then some q.s.cycle else none }

/-- SWEEP_END (18 R348, R356, R358): one sweep of the LSWP that runs, or the health test, ends. DESIGN CHOICE (log
entry 152): with the lattice reset by its owner's retirement (R342) nothing ends. -/
def execSweepEnd (core lattice : Nat) (s : State) : Host.Outcome State Fault Refusal :=
  whenRuns s (fun s =>
    match seqAt s core (4 + lattice) with
    | none => s
    | some q =>
      match q.p.health with
      | some (na, nt) => finishHealth q na nt
      | none =>
        if q.p.sweeps = 0 || q.p.op.isSome then s
        else
          match (ownLattice q).2.cfg with
          | some c => runSweep q c
          | none => s)

end Sys2Proof.Machine
end

