-- ==== Sys2Proof/Machine/Boundary.lean ====
section
/-! DEFINITION. Boundaries: how one opens, the opening of its exchange with the held fabric writes and the GRED drains,
its close, and what its steps 3 to 6 do (08 R162-R167, 10 R222-R231, 23 R413, R416). -/

namespace Sys2Proof.Machine

/-! ### Relaunches (23 R416) -/

/-- A team killed for a relaunch. -/
def awaitsRelaunch (t : Team) : Bool := t.killed && t.relaunch

/-- Whether a gang of a partition is to be relaunched. -/
def relaunchPending (s : State) (n : Nat) : Bool := s.launches.any (fun e => e.2.part == n && e.2.saved.any (·.relaunch))

/-- Every core has arrived but for teams that wait for a relaunch, and but for what retired teams left on cores that only
such teams hold. -/
def othersArrived (s : State) (p : Part) : Bool :=
  (partCores s p).all (fun k =>
    let rs := residents s k
    rs.all (fun e => awaitsRelaunch e.2 || teamArrived s e.1 e.2) &&
      (!leftPrograms s k || (!rs.isEmpty && rs.all (fun e => awaitsRelaunch e.2))))

/-- A saved gang without the teams whose save area is unusable; the launch then ends with status 2 (23 R412). -/
def dropBad (s : State) (lid : Nat) (g : Gang) : State :=
  let bad := fun (e : Nat × Team) => (e.2.snap.map (·.bad)).getD true
  if g.saved.any bad then
    let s1 := (g.saved.filter bad).foldl (fun s e => freeSlots s e.1) s
    { s1 with launches := tmod s.launches lid (fun l => { l with
        abnormal := true,
        saved := (l.saved.map (fun x => if x == g then { x with saved := x.saved.filter (fun e => !bad e) } else x)).filter
          (fun x => !x.saved.isEmpty) }) }
  else s

/-- Drops the unusable save areas of a partition's launches, those of a relaunch with their teams. -/
def dropBadSaves (s : State) (n : Nat) : State :=
  (s.launches.filter (fun e => e.2.part == n)).foldl (fun s e =>
    e.2.saved.foldl (fun s g =>
      let gone := g.saved.filter (fun t => g.relaunch && (t.2.snap.map (·.bad)).getD true)
      gone.foldl (fun s t => { s with teams := tmod s.teams t.1 (fun u => { u with relaunch := false }) }) (dropBad s e.1 g)) s) s

/-- Places a gang again: in another cluster than the failing one when one holds it now, else there outside the failing
region. -/
def relaunchIn (s : State) (p : Part) (l : Launch) (g : Gang) : Option State :=
  let failing := g.avoid.headD 0 / 64
  match (p.clusters.filter (fun c => c != failing)).findSome? (restoreInCluster s l g.saved (fun _ => true)) with
  | some s1 => some s1
  | none => if p.clusters.contains failing then restoreInCluster s l g.saved (fun k => !g.avoid.contains k) failing else none

/-- Whether a gang fits an empty cluster of the partition outside the failing region. -/
def relaunchFits (s : State) (p : Part) (l : Launch) (g : Gang) : Bool :=
  p.clusters.any (fun c =>
    let ok := (seats s c l.pair).filter (fun k => seatOpen s k && !k.any (fun x => g.avoid.contains x))
    decide (g.saved.length ≤ ok.length * teamsPerCore l g.saved.length))

/-- Relaunches a gang: it re-runs the compute phase from its snapshots. When no core can ever hold it, its teams stay
killed. -/
def relaunchGang (s : State) (n lid : Nat) (g : Gang) : State :=
  let s0 := g.saved.foldl (fun s e => removeTeam s e.1) s
  let back := { g with saved := g.saved.map (fun e =>
    (e.1, { e.2 with stray := e.2.stray ++ straysOf s (fun _ x => x.team == e.1) })) }
  match tget s0.parts n, tget s0.launches lid with
  | some p, some l =>
    match relaunchIn s0 p l back with
    | some s1 =>
      let s2 := g.saved.foldl (fun s e => resumeTeam s e.1) s1
      { s2 with launches := tmod s2.launches lid (fun x => { x with saved := x.saved.filter (fun y => y != g) }) }
    | none =>
      if relaunchFits s0 p l g then s
      else
        let s1 := g.saved.foldl (fun s e => { s with teams := tmod s.teams e.1 (fun t => { t with relaunch := false }) }) s
        { s1 with launches := tmod s1.launches lid (fun x => { x with abnormal := true, saved := x.saved.filter (fun y => y != g) }) }
  | _, _ => s

/-- Relaunches every gang of a partition that waits for it. -/
def relaunchGangs (s : State) (n : Nat) : State :=
  let s0 := dropBadSaves s n
  (s0.launches.filter (fun e => e.2.part == n)).foldl (fun s e =>
    (e.2.saved.filter (·.relaunch)).foldl (fun s g => relaunchGang s n e.1 g) s) s0

/-! ### The opening of a boundary (08 R162, R166) -/

/-- Whether an idle partition has boundary work: a dispatchable launch, a pending PREEMPT or checkpoint, or a held host
access (08 R166). -/
def boundaryWork (s : State) (n : Nat) (p : Part) : Bool :=
  hasDispatch s n p || p.ckpt.phase == 1 || (heldSessions s n).any (waitsBoundary s n) ||
  s.launches.any (fun e => e.2.part == n && e.2.preempt)

/-- Whether a core has emptied in this phase, its teams having retired, with contributions that no boundary has drained:
with no team left it has arrived (08 R164, 09 R208). -/
def emptiedCore (s : State) (k : Nat) : Bool :=
  (residents s k).isEmpty &&
  s.retired.any (fun e => e.2.cores.contains k && s.gred.any (fun x => x.team == e.1))

/-- Whether a boundary opens: a core arrives that had a team in this phase; nothing but a relaunch is left to arrive
(23 R416); or the partition is idle and has work. DESIGN CHOICE (log entry 123): a core whose teams have all retired in
the phase counts as arrived while contributions of theirs wait to drain, and a relaunch as a core that has arrived;
neither is boundary work (08 R166). -/
def boundaryOpens (s : State) (n : Nat) (p : Part) : Bool :=
  let cores := partCores s p
  cores.any (fun k => (!(residents s k).isEmpty && coreArrived s k) || emptiedCore s k) ||
  (cores.all (fun k => (residents s k).all (fun e => awaitsRelaunch e.2)) && (relaunchPending s n || boundaryWork s n p))

/-- BOUNDARY_OPEN (08 R162, 07 R157): the straggler time-out is armed. -/
def execBoundaryOpen (part : Nat) (s : State) : Host.Outcome State Fault Refusal :=
  whenRuns s (fun s =>
    match tget s.parts part with
    | none => s
    | some p =>
      if p.pstate == .compute && boundaryOpens s part p then
        setPart s part { p with pstate := .opened, stragAt := some (s.cycle + p.strag), firstArrival := s.cycle }
      else s)

/-! ### Step 1 (08 R165, 09 R208, 10 R222, R231) -/

/-- Whether a held fabric write is for this boundary of a partition: one that a member of its span sent in an exchange is
for a later one (10 R231). -/
def fabricDue (n boundary : Nat) (w : FabWrite) : Bool := w.part == n && w.sent.all (fun k => decide (k < boundary))

/-- Applies the fabric writes held for a boundary of a partition, by sender device and queue, each queue's in order of
arrival. -/
def applyFabric (s : State) (n boundary : Nat) : State :=
  let key := fun (w : Nat × FabWrite) => w.2.device :: w.2.tag.take 3
  let mine := sortBy (fun a b => lexLt (key a) (key b)) (s.fabric.filter (fun w => fabricDue n boundary w.2))
  mine.foldl (fun s w =>
    (upto w.2.data.length).foldl (fun s k =>
      let a := w.1 + 4 * k
      if ownsPage s n (a / Config.pageBytes) then
        noteWriter (writeGlobal (noteBefore s n [a]) a (wordBytes (w.2.data.getD k 0#32))) n [a / Config.pageBytes] 8
      else s) s) { s with fabric := s.fabric.filter (fun w => !fabricDue n boundary w.2) }

/-- Enters words in the digest of a launch (08 R191). -/
def noteDigest (s : State) (lid : Nat) (addrs : List Nat) : State :=
  { s with launches := tmod s.launches lid (fun l => { l with
      digestWords := addrs.foldl (fun t a => tput t a (mword s.gmem a)) l.digestWords }) }

/-- Drains one entry into its global word; a lost word stays lost (09 R208, 23 R417). -/
def drainEntry (n : Nat) (s : State) (e : Entry) : State :=
  match tget s.launches e.launch with
  | none => s
  | some l =>
    match tget l.extents e.ext with
    | none => s
    | some x =>
      let a := x.base + e.off
      let size := if e.fn = 10 then 8 else 4
      let r := foldRed e.fn (BitVec.ofNat 64 (mreadN s.gmem a size)) e.partialVal
      let words := (upto (size / 4)).map (fun k => a + 4 * k)
      let s0 := noteBefore s n words
      let s1 := { s0 with gmem := mwriteN s0.gmem a size r.1.toNat, lags := dropLags s0.lags a size }
      let thr := ((anyTeam s e.team).map (fun t => (teamReg t 4).toNat / 2 ^ 8 % 2 ^ 6)).getD 0
      let s2 := r.2.foldl (fun s i => bumpCounter s e.launch i 1 thr) s1
      noteWriter (noteDigest s2 e.launch words) n [a / Config.pageBytes] (100 + e.die)

/-- Drains the GRED atomic buffers of a partition, in the order of their logical keys. -/
def drainGred (s : State) (n : Nat) : State :=
  let mine := fun (e : Entry) => ((tget s.launches e.launch).map (·.part)) == some n
  let es := sortBy (fun a b => lexLt (a.cluster :: a.keys) (b.cluster :: b.keys)) (s.gred.filter mine)
  es.foldl (drainEntry n) { s with gred := s.gred.filter (fun e => !mine e) }

/-! ### Step 2 (08 R165) -/

/-- The exchange programs of a core, in the order of its queue 0: team and offset. -/
def exchangePrograms (s : State) (core : Nat) : List (Nat × Nat) :=
  let ts := (residents s core).filterMap (fun e =>
    match tget s.launches e.2.launch, e.2.exname with
    | some l, some name => (l.exchOffsets[name]?).map (fun off => ([l.number, e.2.gang, e.2.index], e.1, off))
    | _, _ => none)
  (sortBy (fun a b => lexLt a.1 b.1) ts).map (·.2)

/-- Lists the exchange programs of a core on its queue 0. -/
def startExchange (s : State) (core : Nat) : State :=
  let ps := exchangePrograms s core
  (upto ps.length).foldl (fun s k =>
    let x := ps.getD k (0, 0)
    let e := engineAt s core 0
    let q : Prog := { uid := s.nextId, kind := .exchange, team := x.1, group := none, offset := x.2, pc := x.2, ordinal := k }
    { setEngine s core 0 { e with list := e.list ++ [q] } with nextId := s.nextId + 1 }) s

/-- Sets the event counters of a partition's clusters to 0 (11 R253). -/
def clearCounters (s : State) (p : Part) : State :=
  p.clusters.foldl (fun s c => setCluster s c { clusterAt s c with counters := [] }) s

/-- Sends the boundary message of the arrival or the end on every live port of the partition, once (08 R167). -/
def sendSpan (s : State) (n : Nat) (p : Part) (atEnd : Bool) : State :=
  let mark := if atEnd then 2 else 1
  if p.spanTag = 0 || decide (mark ≤ p.spanSent) then s
  else
    let live := p.ports.filter (fun k => !s.dev.portDown.contains k)
    { setPart s n { p with spanSent := mark } with spanOut := s.spanOut ++ live.map (fun k => (n, p.boundary, k, atEnd)) }

/-- Samples of the arrival skew and the straggler margin, both as of the last arrival (24 R434). -/
def sampleArrival (s : State) (n : Nat) (p : Part) : State :=
  let last := p.lastArrival.getD (s.cycle, p.stragAt.getD s.cycle - s.cycle)
  let s1 := addSample s (16 + n) (last.1 - p.firstArrival)
  addSample s1 (48 + n) (if p.late.isEmpty then last.2 else 0)

/-- Opens the exchange: step 1, then the exchange programs start. -/
def openExchange (s : State) (n : Nat) : State :=
  match tget s.parts n with
  | none => s
  | some p =>
    let s2 := drainGred (applyFabric (sampleArrival s n p) n p.boundary) n
    let s3 := clearCounters { s2 with
      teams := tmap s2.teams (fun _ t => if p.clusters.contains t.cluster then { t with reserved := [] } else t),
      parts := tmod s2.parts n (fun q => { q with
        pstate := .exchange, stragAt := none, exchAt := some (s.cycle + q.exch), late := [], lastArrival := none }) } p
    (partCores s p).foldl startExchange s3

/-- EXCHANGE_OPEN (08 R165, R167, 23 R416): gangs to be relaunched are placed first; the members of a span wait for one
another. -/
def execExchangeOpen (part : Nat) (s : State) : Host.Outcome State Fault Refusal :=
  whenRuns s (fun s =>
    match tget s.parts part with
    | none => s
    | some p =>
      if p.pstate != .opened then s
      else if relaunchPending s part then (if othersArrived s p then relaunchGangs s part else s)
      else if !(partCores s p).all (coreArrived s) then s
      else
        let s1 := sendSpan s part p false
        if spanReady p false then openExchange s1 part else s1)

/-! ### Step 3 (10 R222-R226, 11 R237, R247, R249) -/

/-- The words of a list of writes, each once. -/
def wordKeys (ks : List (Nat × Nat)) : List (Nat × Nat) :=
  (ks.foldl (fun acc k => if acc.contains k then acc else k :: acc) []).reverse

/-- Writes bytes to local memory in an exchange: D of the word is set, and its line has changed (09 R196). -/
def writeLocal (s : State) (a : Nat) (w : Word) : State :=
  let old := mread s.lbits a
  { s with
    lmem := mwrites s.lmem a (wordBytes w),
    lbits := mwrite s.lbits a (BitVec.ofNat 8 ((if old.getLsbD 0 then 1 else 0) + 2)),
    lsnap := mwrite s.lsnap (a / 64) 1#8 }

/-- Applies the writes to one word: the standing one, and a conflict for each that is not ordered before it (10 R224). -/
def applyWord (ws : List XWrite) (s : State) (k : Nat × Nat) : State :=
  let mine := ws.filter (fun w => w.space == k.1 && w.addr == k.2)
  match standing mine with
  | none => s
  | some top =>
    let beaten := mine.filter (fun w => w != top && !orderedBefore w top.queue top.seq top.seen)
    let s1 := beaten.foldl (fun s w => onTeam s w.team (fun t => bumpTeam t 11 1)) s
    if k.1 = 0 then writeGlobal s1 k.2 (wordBytes top.val) else writeLocal s1 k.2 top.val

/-- Folds one contribution of XRED into its word, with its counts; a lost word stays lost (11 R247, 23 R417). -/
def applyFold (s : State) (f : XFold) : State :=
  let r := foldX f.op f.v f.a f.b (mword s.gmem f.addr)
  applyCounts { s with gmem := mwriteN s.gmem f.addr 4 r.1.toNat } f.team (r.2.map (fun i => (i, 1)))

/-- Sets a ghost that XLAT wrote: its state, with age 0 (11 R249, 18 R349). -/
def applyGhost (s : State) (g : XGhost) : State :=
  { s with lattices := tmod s.lattices g.lat (fun x =>
      let old := tgetD x.ghosts g.slot (false, 65535, none)
      { x with ghosts := tput x.ghosts g.slot (g.state, 0, old.2.2) }) }

/-- The bytes that dies with a replica of a NONATOMIC page may still read as they were: for each die and page it is a
free choice (10 R226). DEDUCED (log entry 130): so it is where the exchange's write removes the replica (10 R228), by the
outcomes that 10 R232 and 12 R262 allow. `words` are the words that the boundary wrote, `step1` what those of its step 1
held before it. -/
def newLags (before : State) (step1 : Table Word) (words : List Nat) : List Lag × Nat :=
  let pages := once (words.map (fun a => a / Config.pageBytes))
  let pairs := pages.flatMap (fun g =>
    match tget before.pages g with
    | some p => if p.nonatomic then (p.replicas.filter (fun d => d != p.home)).map (fun d => (g, d)) else []
    | none => [])
  let late := (upto pairs.length).filterMap (fun k =>
    if Config.freeNat (before.freeCount + k) % 2 = 1 then pairs[k]? else none)
  (late.flatMap (fun e => (words.filter (fun a => a / Config.pageBytes == e.1)).flatMap (fun a =>
    let old := wordBytes ((tget step1 a).getD (mword before.gmem a))
    (upto 4).map (fun b => ({ die := e.2, addr := a + b, old := old.getD b 0#8 } : Lag)))), pairs.length)

/-- Step 3: the writes that stand, the folds and the ghosts apply in their orders, and replicas catch up. -/
def settleExchange (s : State) (n : Nat) (p : Part) : State :=
  let e := p.exchange
  let written := wordKeys (e.writes.map (fun w => (w.space, w.addr)))
  let words := once ((written.filter (fun k => k.1 == 0)).map (·.2) ++ e.folds.map (·.addr) ++ tkeys e.before)
  let lags := newLags s e.before words
  let s1 := written.foldl (applyWord e.writes) s
  let s2 := (sortBy (fun a b => lexLt a.tag b.tag) e.folds).foldl applyFold s1
  let s3 := (sortBy (fun a b => lexLt a.tag b.tag) e.ghosts).foldl applyGhost s2
  let by_ := (e.writes.filter (fun w => w.space == 0)).map (fun w => (w.team, w.addr)) ++ e.folds.map (fun f => (f.team, f.addr))
  let s4 := by_.foldl (fun s x =>
    match tget s.teams x.1 with
    | some t => noteDigest s t.launch [x.2]
    | none => s) s3
  let own := fun (x : Lag) => ownsPage s n (x.addr / Config.pageBytes)
  { s4 with lags := s.lags.filter (fun x => !own x) ++ lags.1, freeCount := s4.freeCount + lags.2 }

/-! ### Pages at the close (10 R227, R228) -/

/-- Moves a page of a partition to another die, when it has room: a forwarding pointer stays until the next boundary
closes. -/
def migratePage (s : State) (n g die : Nat) : State :=
  match tget s.pages g with
  | none => s
  | some p =>
    if p.part != n || p.home = die || !dieFree s p.shared die then s
    else { s with pages := tput s.pages g { p with
      home := die, forward := some p.home, replicas := p.replicas.filter (fun d => d != die), histCount := 0 } }

/-- The run of exchanges in which one other die wrote a page, after this one; `dies` wrote it, 8 for a writer that is no
die. -/
def pageHistory (p : Page) (dies : List Nat) : Page :=
  match dies with
  | [d] =>
    if d < 8 && d != p.home then { p with histDie := d, histCount := if p.histDie = d then p.histCount + 1 else 1 }
    else { p with histCount := 0 }
  | _ => { p with histCount := 0 }

/-- A page of the partition at the close: forwarding ends; a REPLICATE page loses its replicas when the exchange wrote
it, and gains one on each die that read it otherwise; a HOME page notes its writers. -/
def closePage (e : Exch) (g : Nat) (p : Page) : Page :=
  let q := { p with forward := none }
  let wrote := (e.wrotePages.filter (fun w => w.1 == g)).map (·.2)
  if q.replicate then
    if wrote.any (fun d => decide (d < 8)) then { q with replicas := [] }
    else { q with replicas := once (q.replicas ++ ((e.reads.filter (fun r => r.1 == g)).map (·.2)).filter (fun d => d != q.home)) }
  else
    pageHistory q (once (wrote.map (fun d => if d < 100 then d else d - 100)))

/-- Replicas, migrations after 4 exchanges or more, of which the last finds room, and the migrations that were asked for. -/
def closePages (s : State) (n : Nat) (e : Exch) (asked : List (Nat × Nat)) : State :=
  let s1 := { s with pages := tmap s.pages (fun g p => if p.part == n then closePage e g p else p) }
  let due := (s1.pages.filter (fun x => x.2.part == n && !x.2.replicate && decide (4 ≤ x.2.histCount))).map (fun x => (x.1, x.2.histDie))
  (due ++ asked).foldl (fun s m => migratePage s n m.1 m.2) s1

/-! ### Steps 4 and 5 -/

/-- The digest words of the launches that took part in the exchange take their values at its close (08 R191). -/
def refreshDigests (s : State) (n : Nat) : State :=
  { s with launches := tmap s.launches (fun lid l =>
      if l.part == n && l.phase == .running && (!(teamsOf s lid).isEmpty || !inQueue l) then
        { l with digestWords := tmap l.digestWords (fun a _ => mword s.gmem a) }
      else l) }

/-- The entry of a boundary in the commit logs of a launch's clusters (08 R188). -/
def logBoundary (s : State) (lid : Nat) (p : Part) : State :=
  p.clusters.foldl (fun s c =>
    match tget s.launches lid with
    | none => s
    | some l =>
      if l.mode == 2 then recordEntry s lid c (logEntry 2 0 p.boundary)
      else
        match nextEntry s l c with
        | some (2, _, _) =>
          let x := tgetD l.logs c {}
          setLaunch s lid { l with logs := tput l.logs c (passEntry s.cycle x) }
        | _ => s) s

/-- Step 4: the exchange closes: the counters, and the fabric windows that wait for the boundary (08 R163, 21 R380). -/
def countBoundary (s : State) (n : Nat) : State :=
  { s with
    chipPhase := s.chipPhase + 1,
    parts := tmod s.parts n (fun p => { p with
      boundary := p.boundary + 1,
      pstate := .compute,
      windows := p.windowPend.foldl (fun t w => match w.2 with
        | some b => tput t w.1 b
        | none => tdel t w.1) p.windows,
      windowPend := [], movePend := [], attrPend := [] }) }

/-- The launches of a partition. -/
def launchesOf (s : State) (n : Nat) : Table Launch := s.launches.filter (fun e => e.2.part == n)

/-- Releases the killed teams of a partition (07 R156), and the allocations of those that have retired. -/
def releaseKilled (s : State) (n : Nat) : State :=
  let mine := fun (t : Team) => ((tget s.launches t.launch).map (·.part)) == some n
  (s.teams.filter (fun e => e.2.killed && mine e.2)).foldl (fun s e => removeTeam s e.1)
    { s with retired := s.retired.filter (fun e => !mine e.2) }

/-- Gangs of curve launches report their retirement in curve order; `fuel` bounds their number (08 R186). -/
def reportGangs (fuel : Nat) (s : State) (lid : Nat) : State :=
  match fuel, tget s.launches lid with
  | f + 1, some l =>
    let g := gangAtRank l l.reported
    if l.mode = 0 || decide (l.nextGang ≤ l.reported) || (teamsOf s lid).any (fun e => e.2.gang == g) || l.saved.any (·.index == g) then s
    else reportGangs f (setLaunch s lid { l with reported := l.reported + 1 }) lid
  | _, _ => s

/-- Saves a placed team: it leaves its cores and keeps its identifiers and handle slots (21 R398, R399). -/
def saveTeam (s : State) (tid : Nat) (t : Team) (l : Launch) : State × (Nat × Team) :=
  let s1 := removeTeam (chargeTeam s tid) tid
  let held := teamSlots s tid l.part
  ({ s1 with parts := tmod s1.parts l.part (fun p => { p with slots := held.foldl (fun m e => tput m e.1 e.2) p.slots }) },
   (tid, { t with snap := some (teamSave s tid t l), stray := t.stray ++ straysOf s (fun _ g => g.team == tid) }))

/-- Pre-empts a launch: its teams are saved, LAUNCH_PREEMPTED is posted, and it returns to the head of its queue
(07 R155, 21 R398). -/
def preemptLaunch (s : State) (lid : Nat) : State :=
  match tget s.launches lid with
  | none => s
  | some l =>
    if !l.preempt then s
    else
      let ts := (teamsOf s lid).filter (fun e => !e.2.killed)
      let s0 := setLaunch s lid { l with preempt := false }
      if ts.isEmpty || l.abort.isSome then s0
      else
        let bytes := total (ts.map (fun e => saveBytes s e.1 e.2 l))
        let r := ts.foldl (fun (acc : State × List (Nat × Team)) e =>
          let o := saveTeam acc.1 e.1 e.2 l
          (o.1, acc.2 ++ [o.2])) (s0, [])
        let count := ((tget s.parts l.part).map (·.boundary)).getD 0
        let s1 := { r.1 with launches := tmod r.1.launches lid (fun x => { x with
          saved := sortBy (fun a b => decide (a.index < b.index)) (gangsFrom r.2 ++ x.saved), returned := count + 1 }) }
        postEvent s1 l.issuer 2 (sourceOf 4 0) (packPayload [(4, l.number), (4, ts.length), (8, bytes)])

/-- Writes the boundary snapshots of a partition's placed teams (23 R413). -/
def snapshotTeams (s : State) (n : Nat) : State :=
  let s1 := (s.teams.filter (fun e => ((tget s.launches e.2.launch).map (·.part)) == some n)).foldl (fun s e => snapshotTeam s e.1) s
  { s1 with
    parts := tmod s1.parts n (fun p => { p with slots := tmap p.slots (fun _ y => { y with loads := [] }) }),
    launches := tmap s1.launches (fun _ l =>
      if l.part == n then { l with logs := tmap l.logs (fun _ x => { x with engine := [] }) } else l) }

/-- Step 5: kills release their resources, pre-emption saves and snapshots are written, a checkpoint is captured, and
the dispatcher places gangs. -/
def afterClose (s : State) (n : Nat) : State :=
  let s1 := (launchesOf s n).foldl (fun s e => reportGangs (gangCount e.2) s e.1) (releaseKilled s n)
  let s2 := (tkeys (launchesOf s1 n)).foldl preemptLaunch s1
  let s3 := settleLaunches (captureCkpt (snapshotTeams s2 n) n)
  settleLaunches (dispatchPart (dropBadSaves s3 n) n)

/-! ### Step 6 and the close -/

/-- Step 6: parked groups resume, and a new compute phase begins. -/
def beginCompute (s : State) (n : Nat) : State :=
  match tget s.parts n with
  | none => s
  | some p =>
    let mine := tkeys (s.teams.filter (fun e => ((tget s.launches e.2.launch).map (·.part)) == some n))
    let s1 := mine.foldl resumeTeam s
    let s2 := { s1 with
      teams := tmap s1.teams (fun tid t => if mine.contains tid then { t with exname := none, wrote := [], dependsOn := [] } else t) }
    let s3 := p.clusters.foldl (fun s c => setCluster s c { clusterAt s c with commitIndex := 0, counters := [] }) s2
    let s4 := { s3 with
      launches := tmap s3.launches (fun _ l => if l.part = n then { l with settled := l.counters, phaseTold := [] } else l),
      groups := tmap s3.groups (fun _ g => { g with counted := if ((tget s3.teams g.team).bind (fun t => tget s3.launches t.launch)).map (·.part) == some n then [] else g.counted }) }
    setPart s4 n { p with
      pstate := .compute, stragAt := none, exchAt := none, late := [], computeAt := s.cycle, exchange := {}, spanSent := 0,
      spanArrived := p.spanArrived.filter (fun m => decide (p.boundary ≤ m.2)),
      spanEnded := p.spanEnded.filter (fun m => decide (p.boundary ≤ m.2)) }

/-- The close of a boundary: steps 3 to 6, with the host requests held for it (08 R165, 10 R222). -/
def closeBoundary (s : State) (n : Nat) (p : Part) : State :=
  let s1 := settleExchange s n p
  let fuel := total (s1.sessions.map (fun e => 2 * e.2.waiting.length)) + s1.sessions.length + 1
  let s2 := closeRequests fuel s1 n []
  let asked := (tget s2.parts n).getD p
  let s3 := asked.attrPend.foldl (fun s x => setAttributes s n x.2 x.1) (closePages s2 n asked.exchange asked.movePend)
  let s4 := countBoundary (refreshDigests s3 n) n
  let s5 := (s4.launches.filter (fun e => e.2.part == n && decide (2 ≤ e.2.mode) && e.2.phase == .running &&
      !(teamsOf s4 e.1).isEmpty)).foldl (fun s e => logBoundary s e.1 { p with boundary := p.boundary + 1 }) s4
  beginCompute (afterClose s5 n) n

/-- BOUNDARY_CLOSE (08 R165, R167). -/
def execBoundaryClose (part : Nat) (s : State) : Host.Outcome State Fault Refusal :=
  whenRuns s (fun s =>
    match tget s.parts part with
    | none => s
    | some p =>
      if p.pstate != .exchange || (partCores s p).any (exchangeBusy s) then s
      else
        let s1 := sendSpan s part p true
        if spanReady p true then closeBoundary s1 part { p with spanSent := 2 } else s1)

/-- BOUNDARY_MESSAGE (08 R167, 01 R22): the first copy of a member's message counts; `count` says which boundary it
belongs to. -/
def execBoundaryMessage (part member plane count : Nat) (atEnd : Bool) (s : State) : Host.Outcome State Fault Refusal :=
  whenRuns s (fun s =>
    match tget s.parts part with
    | none => s
    | some p =>
      let m := (member, count)
      if p.spanTag = 0 || !p.ports.contains plane || s.dev.portDown.contains plane || decide (count < p.boundary) then s
      else if atEnd then setPart s part { p with spanEnded := if p.spanEnded.contains m then p.spanEnded else p.spanEnded ++ [m] }
      else setPart s part { p with spanArrived := if p.spanArrived.contains m then p.spanArrived else p.spanArrived ++ [m] })

/-! ### Time-outs (07 R157, 21 R400) and fabric writes (10 R231, 11 R250) -/

/-- STRAGGLER (07 R157). -/
def execStraggler (part : Nat) (s : State) : Host.Outcome State Fault Refusal :=
  whenRuns s (fun s =>
    match tget s.parts part with
    | some p => if due p.stragAt s.cycle then expireStraggler s part else s
    | none => s)

/-- EXCHANGE_LATE (07 R157). -/
def execExchangeLate (part : Nat) (s : State) : Host.Outcome State Fault Refusal :=
  whenRuns s (fun s =>
    match tget s.parts part with
    | some p => if due p.exchAt s.cycle then expireExchange s part else s
    | none => s)

/-- PHASE_MAX_EXPIRY (21 R400): the cores that hold a team of the launch and have not arrived are reported late, each
once in a compute phase, whether or not the straggler time-out has reported it. -/
def execPhaseMaxExpiry (launch : Nat) (s : State) : Host.Outcome State Fault Refusal :=
  whenRuns s (fun s =>
    match tget s.launches launch with
    | none => s
    | some l =>
      match tget s.parts l.part with
      | none => s
      | some p =>
        let slow := (partCores s p).filter (fun k => !l.phaseTold.contains k && !coreArrived s k &&
          (residents s k).any (fun e => e.2.launch == launch))
        if l.phaseMax = 0 || p.pstate == .exchange || decide (s.cycle < p.computeAt + l.phaseMax) || slow.isEmpty then s
        else reportLate (setLaunch s launch { l with phaseTold := l.phaseTold ++ slow }) l.part p 3 slow false)

/-- FABRIC_WRITE_ARRIVAL (10 R231, 11 R250, 21 R380): the home holds the write, or refuses it and counts the refusal. -/
def execFabricWriteArrival (w : FabWrite) (s : State) : Host.Outcome State Fault Refusal :=
  whenRuns s (fun s =>
    match (tget s.parts w.part).bind (fun p => tget p.windows w.window) with
    | some (base, len) =>
      if w.offset % 4 = 0 && decide (w.offset + 4 * w.data.length ≤ len) then { s with fabric := s.fabric ++ [(base + w.offset, w)] }
      else bumpMgmt s 8 1
    | none => bumpMgmt s 8 1)

end Sys2Proof.Machine
end

