-- ==== Sys2Proof/Machine/Branch.lean ====
section
/-! DEFINITION. Control transfer, majors 17 and 18 (06 R117-R120). -/

namespace Sys2Proof.Machine

/-- The target of a branch: A + 4 × off19 modulo 2^32 (06 R117). -/
def branchTarget (pc : Word) (o : BitVec 19) : Word := pc + BitVec.ofInt 32 (4 * o.toInt)

/-- Sends the taken lanes of an issue set to their targets; a target that is no instruction address of the text section
traps the lane (06 R117, R119). -/
def jumpLanes (i : In) (taken : List Nat) (target : Nat → Word) (w : Work) : Work :=
  taken.foldl (fun w l =>
    setFates w [l] (if inText i.l (target l) then .goto (target l) else .trap 1 (target l))) w

/-- The lanes of a list whose target is an instruction address. -/
def jumpers (i : In) (taken : List Nat) (target : Nat → Word) : List Nat := taken.filter (fun l => inText i.l (target l))

/-- Writes the link register v63 of lanes with the address after the word. -/
def linkLanes (i : In) (ls : List Nat) (w : Work) : Work :=
  onRegs w (fun c => ls.foldl (fun c l => writeV c l 63 (i.pc + 4#32)) c)

/-- A legal target in a control program of a size (07 R135). -/
def ctlTarget (i : CIn) (t : Word) : Bool := t.toNat % 4 == 0 && decide (t.toNat + 4 ≤ i.ctl.size)

/-- A jump of a control core, with or without a link in s63 (04 R85). -/
def ctlJump (i : CIn) (t : Word) (link : Bool) : CWork :=
  if ctlTarget i t then
    { ctl := { (if link then setCtlReg i.ctl 63 (i.pc + 4#32) else i.ctl) with pc := t } }
  else { ctl := i.ctl, badTarget := true }

/-- A branch of a control core (06 R118). -/
def ctlBranch (i : CIn) (o : BitVec 19) (take link : Bool) : CWork :=
  if take then ctlJump i (branchTarget i.pc o) link else { ctl := ctlNext i }

/-- The form of a conditional branch. -/
def branchForm (sw : Bool) (p : BitVec 3) : Form := { sw := sw, guarded := false, pr := [p.toNat] }

/-- The lanes of the set whose predicate reads b. -/
def predLanes (i : In) (p : BitVec 3) (b : Bool) : List Nat := i.lanes.filter (fun l => (readP i.g.regs l p.toNat).1 == b)

/-- BR (06 R117). -/
def execBr (sw : Bool) (o : BitVec 19) (s : State) : Host.Outcome State Fault Refusal :=
  groupOrControl s { sw := sw, guarded := false }
    (fun i => jumpLanes i i.lanes (fun _ => branchTarget i.pc o))
    (fun i => ctlBranch i o true false)

/-- BRT (06 R117). -/
def execBrt (sw : Bool) (p : BitVec 3) (o : BitVec 19) (s : State) : Host.Outcome State Fault Refusal :=
  groupOrControl s (branchForm sw p)
    (fun i => jumpLanes i (predLanes i p true) (fun _ => branchTarget i.pc o))
    (fun i => ctlBranch i o (ctlPred i.ctl p.toNat) false)

/-- BRF (06 R117). -/
def execBrf (sw : Bool) (p : BitVec 3) (o : BitVec 19) (s : State) : Host.Outcome State Fault Refusal :=
  groupOrControl s (branchForm sw p)
    (fun i => jumpLanes i (predLanes i p false) (fun _ => branchTarget i.pc o))
    (fun i => ctlBranch i o (!ctlPred i.ctl p.toNat) false)

/-- BRANY (06 R117): the whole set branches when the predicate of some thread is 1. -/
def execBrany (sw : Bool) (p : BitVec 3) (o : BitVec 19) (s : State) : Host.Outcome State Fault Refusal :=
  groupOnly s (branchForm sw p)
    (fun i => jumpLanes i (if (predLanes i p true).isEmpty then [] else i.lanes) (fun _ => branchTarget i.pc o))

/-- BRALL (06 R117): the whole set branches when the predicate of every thread is 1. -/
def execBrall (sw : Bool) (p : BitVec 3) (o : BitVec 19) (s : State) : Host.Outcome State Fault Refusal :=
  groupOnly s (branchForm sw p)
    (fun i => jumpLanes i (if (predLanes i p false).isEmpty then i.lanes else []) (fun _ => branchTarget i.pc o))

/-- CALL (06 R117, R118): v63 links, in the lanes whose target is in the text section. -/
def execCall (sw : Bool) (o : BitVec 19) (s : State) : Host.Outcome State Fault Refusal :=
  groupOrControl s { sw := sw, guarded := false, v := [63] }
    (fun i w =>
      let t := fun (_ : Nat) => branchTarget i.pc o
      jumpLanes i i.lanes t (linkLanes i (jumpers i i.lanes t) w))
    (fun i => ctlBranch i o true true)

/-- JR (06 R119). -/
def execJr (sw : Bool) (x : Src) (s : State) : Host.Outcome State Fault Refusal :=
  groupOrControl s { sw := sw, x := some x }
    (fun i w => jumpLanes i i.act (xVal i) (onRegs w (releaseSources i (jumpers i i.act (xVal i)))))
    (fun i => ctlJump i i.x false)

/-- CALLR (06 R119): the target is read before v63 links. -/
def execCallr (sw : Bool) (x : Src) (s : State) : Host.Outcome State Fault Refusal :=
  groupOrControl s { sw := sw, x := some x, v := [63] }
    (fun i w =>
      let ls := jumpers i i.act (xVal i)
      jumpLanes i i.act (xVal i) (linkLanes i ls (onRegs w (releaseSources i ls))))
    (fun i => ctlJump i i.x true)

/-- RET (06 R119): to v63 of each lane; on a control core to s63. -/
def execRet (sw : Bool) (s : State) : Host.Outcome State Fault Refusal :=
  groupOrControl s { sw := sw, v := [63], vr := [63] }
    (fun i => jumpLanes i i.act (fun l => (readV i.g.regs l 63).1))
    (fun i => ctlJump i (ctlReg i.ctl 63) false)

end Sys2Proof.Machine
end

