-- ==== Sys2Proof/Machine/Recovery.lean ====
section
/-! DEFINITION. Soft errors and freezes: strike reports, suspect regions, relaunches, rollbacks, what a scrub finds, and
the freeze and its end (23 R408-R417, R425, R427). -/

namespace Sys2Proof.Machine

/-! ### Relaunch (23 R410, R416) -/

/-- The physical cores of the core region that holds a core (23 R408). -/
def regionOf (core : Nat) : List Nat := (upto 4).map (fun k => core / 4 * 4 + k)

/-- Whether the partition of a team is between step 1 and the end of step 5 of a boundary. -/
def inExchange (s : State) (l : Launch) : Bool := ((tget s.parts l.part).map (·.pstate)) == some .exchange

/-- A team that retired in this phase is placed again, its core-cycles counted from now. -/
def revive (s : State) (tid : Nat) : State :=
  match tget s.retired tid with
  | none => s
  | some t => { s with teams := tput s.teams tid { t with heldAt := s.cycle }, retired := tdel s.retired tid }

/-- Kills a team with UNCORRECTABLE and relaunches its gang off the given cores; from step 1 of a boundary on it is
killed without a relaunch (23 R412, R416). -/
def relaunchTeam (s : State) (tid : Nat) (avoid : List Nat) : State :=
  match anyTeam s tid with
  | none => s
  | some t =>
    match tget s.launches t.launch with
    | none => s
    | some l =>
      if t.killed then s
      else if inExchange s l then killNow (revive s tid) tid
      else
        let s0 := (s.retired.filter (fun e => e.2.launch == t.launch && e.2.gang == t.gang)).foldl (fun s e => revive s e.1) s
        let gang := s0.teams.filter (fun e => e.2.launch == t.launch && e.2.gang == t.gang && !e.2.killed)
        let s1 := gang.foldl (fun s e =>
          let k := killTeam s e.1 false
          { k with teams := tmod k.teams e.1 (fun u => { u with relaunch := true }) }) s0
        let g : Gang := { index := t.gang, size := t.gangSize, saved := gang, relaunch := true, avoid := avoid }
        { s1 with launches := tmod s1.launches t.launch (fun l => { l with saved := l.saved ++ [g] }) }

/-- The teams with groups on some cores. -/
def teamsOn (s : State) (cores : List Nat) : List Nat :=
  once ((s.groups.filter (fun e => cores.contains e.2.core)).map (fun e => e.2.team))

/-- Marks cores for deconfiguration at the next start, each with a notice (24 R433, R438). -/
def markCores (s : State) (cores : List Nat) : State :=
  let new := cores.filter (fun k => tgetD s.dev.wear.cores k 0 = 0)
  new.foldl (fun s k => postNotice s 2 (sourceOf 0 k))
    (if new.isEmpty then s else writeWear s (fun w => { w with cores := new.foldl (fun t k => tput t k 1) w.cores }))

/-- A suspect region: the teams with groups on its cores are killed and their gangs relaunched off it, and it is entered
in the wear record (23 R410). -/
def suspectRegion (s : State) (cores : List Nat) : State :=
  markCores ((teamsOn s cores).foldl (fun s tid => relaunchTeam s tid cores) s) cores

/-! ### Strikes (23 R409) -/

/-- The shadow that a re-run starts from: the latest that has been held D cycles, or the first. -/
def heldShadow (now : Nat) (xs : List (Nat × SweepShadow)) : List (Nat × SweepShadow) :=
  match xs with
  | [] => []
  | [x] => [x]
  | x :: rest => if x.1 + Config.dCycles ≤ now then x :: rest else heldShadow now rest

/-- An LSWP that has not committed runs again from its shadow, an LRSTC from its start; the re-run counts as one. -/
def rerunSweeps (s : State) (core unit : Nat) (p : Prog) : State :=
  match heldShadow s.cycle p.shadows with
  | [] => s
  | (c, x) :: rest =>
    match physicalLattice s core (unit - 4) with
    | none => s
    | some l =>
      let y := latticeAt s core l
      let s1 := setLattice s core l { y with state := x.state, count := x.count, ghosts := x.ghosts, ctr := x.ctr }
      setProg s1 core unit { p with
        sweeps := x.left, swept := p.swept + p.sweeps - x.left, sweptAt := none, shadows := (c, x) :: rest, strikes := p.strikes + 1 }

/-- What a strike does to the program of a unit. -/
def strikeUnit (s : State) (core unit : Nat) : State :=
  match (engineAt s core unit).run with
  | none => s
  | some p =>
    if p.op.isSome then
      let s1 := squashUnit s core unit
      match (engineAt s1 core unit).run with
      | some q => setProg s1 core unit { q with strikes := p.strikes + 1 }
      | none => s1
    else if p.sweeps != 0 || p.sweptAt.isSome then rerunSweeps s core unit p
    else s

/-- What a strike does to a group: its uncommitted chunks are squashed. -/
def strikeGroup (s : State) (gid : Nat) : State :=
  match tget s.groups gid with
  | none => s
  | some g =>
    if g.inflight.isEmpty && g.cur.isNone then s
    else
      let s1 := squashGroup s gid
      { s1 with groups := tmod s1.groups gid (fun x => { x with strikes := g.strikes + 1 }) }

/-- A strike in the region of some cores; a chunk or lattice operation struck 16 times in a row makes it suspect. -/
def strikeCores (s : State) (cores : List Nat) : State :=
  let s1 := (s.groups.filter (fun e => cores.contains e.2.core)).foldl (fun s e => strikeGroup s e.1) s
  let s2 := cores.foldl (fun s k => (upto 6).foldl (fun s u => strikeUnit s k u) s) s1
  let s3 := (once (cores.map (fun k => k / 64))).foldl settleSpawns s2
  let worn := s3.groups.any (fun e => cores.contains e.2.core && decide (16 ≤ e.2.strikes)) ||
    cores.any (fun k => (upto 6).any (fun u => match (engineAt s3 k u).run with
      | some p => decide (16 ≤ p.strikes)
      | none => false))
  if worn then suspectRegion s3 cores else s3

/-- STRIKE_REPORT (23 R409): units of a control, bank or I/O region repeat what they do, which programs do not see. -/
def execStrikeReport (region : Region) (s : State) : Host.Outcome State Fault Refusal :=
  whenRuns s (fun s =>
    match region with
    | .cores c j => strikeCores s (regionOf (64 * c + 4 * (j % 16)))
    | .control _ => s
    | .banks _ => s
    | .io _ => s)

/-! ### Rollback (23 R415) -/

/-- The teams of a set and those that depend on a member; `fuel` bounds the rounds. -/
def closureOf (fuel : Nat) (s : State) (ms : List Nat) : List Nat :=
  match fuel with
  | 0 => ms
  | f + 1 =>
    let more := ((s.teams ++ s.retired).filter (fun e => !e.2.killed && !ms.contains e.1 && e.2.dependsOn.any (fun u => ms.contains u))).map (·.1)
    if more.isEmpty then ms else closureOf f s (ms ++ more)

/-- Drops what a team has done in the phase: its groups, programs, records, GRED entries and lattices, which have
no owner from then on (DESIGN CHOICE, log entry 153). -/
def dropPhase (s : State) (tid : Nat) : State :=
  let gone := fun (o : Owner) => match o with
    | .group gid => ((tget s.groups gid).map (·.team)) == some tid
    | .unit core u => ((engineAt s core u).run.map (·.team)) == some tid
  { s with
    groups := s.groups.filter (fun e => e.2.team != tid),
    engines := tmap s.engines (fun _ e => dropPrograms tid e),
    lattices := s.lattices.filter (fun e => e.2.owner != some tid),
    gred := s.gred.filter (fun e => e.team != tid),
    cores := tmap s.cores (fun _ c => { c with
      bins := dropRecords tid c.bins }),
    clusters := tmap s.clusters (fun _ c => { c with
      token := c.token.filter (fun o => !gone o), requests := c.requests.filter (fun r => !gone r.2) }) }

/-- The number of entries of a slice that stand: written ones, or followed ones. -/
def logLength (l : Launch) (x : LogSlice) : Nat := if l.mode == 2 then x.written else logPlace x

/-- An entry of a slice: kind, who, seq (08 R188). -/
def slicePart (s : State) (base k : Nat) : Nat × Nat × Nat :=
  let e := mreadN s.gmem (base + 64 + 8 * k) 8
  (e / 2 ^ 62, e / 2 ^ 32 % 2 ^ 30, e % 2 ^ 32)

/-- The number of a list below a number. -/
def countBelow (xs : List Nat) (n : Nat) : Nat := (xs.filter (fun x => decide (x < n))).length

/-- Closes the gaps that rolled-back groups leave in the formation ordinals of a record launch in a cluster, which stay dense:
those of the groups formed since count down (08 R188, 23 R415; DEDUCED, log 158). -/
def closeOrdinals (s : State) (lid c : Nat) (formed : List Nat) : State :=
  let f := fun (n : Nat) => n - countBelow formed n
  let onTeams := fun (ts : Table Team) => tmap ts (fun _ t =>
    if t.launch == lid && t.cluster == c then
      { t with
        formed := t.formed.map f,
        snap := t.snap.map (fun x => { x with groups := x.groups.map (fun g => { g with ordinal := f g.ordinal }) }) }
    else t)
  { s with
    groups := tmap s.groups (fun _ g =>
      if g.core / 64 == c && ((tget s.teams g.team).map (·.launch)) == some lid then { g with ordinal := f g.ordinal } else g),
    teams := onTeams s.teams, retired := onTeams s.retired,
    launches := tmod s.launches lid (fun l => { l with ordinals := tupd l.ordinals c 0 f }) }

/-- Rewinds the log of a record or replay launch in a cluster: the entries of the phase that the groups of the teams `ms` made,
their engine operations among them, are written or followed again (23 R415). `ords` are their ordinals, `formed` those of
groups that are gone. In record mode the entries that stay close up, and their ordinals and counts with them; in replay mode
what is run again takes the names that it had (DEDUCED, log 158). -/
def rewindLog (s : State) (lid c : Nat) (formed ords ms : List Nat) : State :=
  match tget s.launches lid with
  | none => s
  | some l =>
    match logSlice l c with
    | none => s
    | some (base, _) =>
      if l.mode < 2 then s
      else
        let x := tgetD l.logs c {}
        let n := logLength l x
        let entry := slicePart s base
        let start := ((upto n).filter (fun k => (entry k).1 == 2)).foldl (fun m k => max m (k + 1)) 0
        let phase := (upto n).drop start ++ x.skip.filter (fun k => decide (n ≤ k))
        let engineOf := fun (k : Nat) => (x.engine.find? (fun e => e.1 == k)).map (·.2)
        let back := fun (k : Nat) =>
          ((entry k).1 == 0 && ords.contains (entry k).2.1) || ((entry k).1 == 1 && (engineOf k).any (fun u => ms.contains u))
        let kept := phase.filter (fun k => !back k)
        let ops := (phase.filter (fun k => back k && (entry k).1 == 1)).filterMap (fun k =>
          (physicalCore s c ((entry k).2.1 / 8)).map (fun core => (core * 8 + (entry k).2.1 % 8, (engineOf k).getD 0, entry k)))
        if l.mode == 2 then
          let closed := fun (k : Nat) =>
            let e := entry k
            if e.1 == 0 then logEntry 0 (e.2.1 - countBelow formed e.2.1) e.2.2
            else logEntry e.1 e.2.1 (e.2.2 -
              (if e.1 == 1 then countBelow ((ops.filter (fun o => o.2.2.2.1 == e.2.1)).map (fun o => o.2.2.2.2)) e.2.2 else 0))
          let slice := { x with
            written := start + kept.length,
            engine := (upto kept.length).filterMap (fun j => (engineOf (kept.getD j 0)).map (fun u => (start + j, u))) }
          let s1 := writeGlobal s (base + 64 + 8 * start) (kept.flatMap (fun k => natLE 8 (closed k).toNat))
          closeOrdinals (setLaunch s1 lid { l with
            engineOps := ops.foldl (fun t o => tupd t o.1 0 (fun v => v - 1)) l.engineOps, logs := tput l.logs c slice }) lid c formed
        else
          let slice := { x with next := start, since := s.cycle, skip := kept, engine := x.engine.filter (fun e => !back e.1) }
          setLaunch s lid { l with redo := l.redo ++ ops.map (fun o => (o.1, o.2.1, o.2.2.2.2)), logs := tput l.logs c slice }

/-- Returns a team to its boundary snapshot, where it goes on at once; an unusable snapshot kills it. -/
def rollTeam (s0 : State) (tid : Nat) : State :=
  let s := revive s0 tid
  match tget s.teams tid with
  | none => s
  | some t =>
    match tget s.launches t.launch, t.snap with
    | some l, some x =>
      if x.bad then killNow s tid
      else
        let u := { t with stray := t.stray ++ straysOf s (fun _ g => g.team == tid) }
        resumeTeam (restoreTeam (rewindGens (dropPhase s tid) tid l.part t x) tid u l true x) tid
    | _, _ => s

/-- In deterministic mode the teams that a rollback returns are ordered among themselves from their snapshot quanta on, until
they are up to the round again (23 R415). -/
def formCohort (s : State) (ms : List Nat) (lid : Nat) : State :=
  let join := fun (ts : Table Team) => tmap ts (fun tid t => if ms.contains tid then { t with cohort := s.nextId } else t)
  let quanta := ((s.teams ++ s.retired).filter (fun e => ms.contains e.1)).flatMap (fun e =>
    (e.2.snap.map (fun x => x.groups.map (·.quantum))).getD [])
  { s with
    teams := join s.teams, retired := join s.retired, nextId := s.nextId + 1,
    launches := tmod s.launches lid (fun l => { l with lagging := tput l.lagging s.nextId (leastD quanta 0) }) }

/-- A rollback of a team: of its closure (23 R415). -/
def rollback (s : State) (tid : Nat) : State :=
  match anyTeam s tid with
  | none => s
  | some t =>
    if t.killed then s
    else
      let ms := closureOf (s.teams.length + s.retired.length) s [tid]
      let who := tvals ((s.teams ++ s.retired).filter (fun e => ms.contains e.1))
      let formed := who.flatMap (·.formed)
      let ords := formed ++ who.flatMap (fun t => (t.snap.map (fun x => x.groups.map (·.ordinal))).getD [])
      let s1 := ms.foldl rollTeam (rewindLog (formCohort s ms t.launch) t.launch t.cluster formed ords ms)
      mergeCohort s1 t.launch t.cluster s.nextId

/-! ### Scrubs and detections (23 R411, R412, R417) -/

/-- A late detection in a team's state: a rollback, or in an exchange the end of the team. -/
def lateDetection (s : State) (tid : Nat) : State :=
  match (anyTeam s tid).bind (fun t => tget s.launches t.launch) with
  | none => s
  | some l => if inExchange s l then killNow (revive s tid) tid else rollback s tid

/-- The team whose allocation holds a byte of local memory; one that retired in the phase holds it still (09 R194). -/
def ownerOf (s : State) (a : Nat) : Option Nat :=
  (((s.teams ++ s.retired).filter (fun e =>
    let lm := ((tget s.launches e.2.launch).map (·.lm)).getD 0
    (upto e.2.cores.length).any (fun i => decide (allocBase e.2 i ≤ a) && decide (a < allocBase e.2 i + lm)))).head?).map (·.1)

/-- Marks a word of global memory lost: what it holds is open (23 R417). -/
def loseWord (s : State) (a : Nat) : State :=
  let w := a / 4 * 4
  { s with
    lost := insertNat w s.lost,
    gmem := mwriteN s.gmem w 4 (Config.freeNat s.freeCount),
    freeCount := s.freeCount + 1 }

/-- Makes the snapshot of a team, placed or saved, unusable (23 R412). -/
def spoilSnapshot (s : State) (tid : Nat) : State :=
  let bad := fun (t : Team) => { t with snap := t.snap.map (fun x => { x with bad := true }) }
  { onTeam s tid bad with
    launches := tmap s.launches (fun _ l => { l with saved := l.saved.map (fun g =>
      { g with saved := g.saved.map (fun e => if e.1 == tid then (e.1, bad e.2) else e) }) }) }

/-- A DUE in control memory stops the program that reads it (23 R412). -/
def controlDue (s : State) (c a : Nat) : State :=
  let k := (clusterAt s c).ctl
  if k.running then
    stopControl s c 7 (mword s.cmem (c * Config.controlBytes + k.base + k.pc.toNat)) k.pc (BitVec.ofNat 32 a)
  else s

/-- SCRUB (23 R411, R412): the response to what a read through the codes finds. -/
def execScrub (find : Finding) (s : State) : Host.Outcome State Fault Refusal :=
  whenRuns s (fun s =>
    match find with
    | .clean => s
    | .corrected => bumpMgmt s 4 1
    | .localLine line =>
      if mread s.lsnap line == 0#8 then s
      else
        (match ownerOf s (64 * line) with
          | some tid => lateDetection s tid
          | none => s)
    | .consumed tid core => relaunchTeam s tid (regionOf core)
    | .late tid => lateDetection s tid
    | .shadowed gid => strikeGroup s gid
    | .globalWord a => loseWord s a
    | .controlWord c a => controlDue s c a
    | .snapshot tid => spoilSnapshot s tid)

/-! ### Freeze and resume (23 R425, R427) -/

/-- Freezes the device, unless it is off or frozen. -/
def freezeDevice (s : State) (why : Freeze) : State :=
  if s.dev.run == .off || s.dev.frozen != .none then s else { s with dev := { s.dev with frozen := why } }

/-- Every region reports a strike. -/
def strikeAll (s : State) : State :=
  (once ((s.groups.map (fun e => e.2.core / 4)) ++ s.engines.map (fun e => e.1 / 8 / 4))).foldl (fun s r =>
    strikeCores s (regionOf (4 * r))) s

end Sys2Proof.Machine
end

