-- ==== Sys2Proof/Machine/Starts.lean ====
section
/-! DEFINITION. Starts of the device: the choice of configuration, calibration, the nine steps, safe mode, power, and the
events that freeze and resume (23 R425-R427, 24 R439-R445). -/

namespace Sys2Proof.Machine

/-! ### Configurations (24 R440, R441) -/

/-- Cores per cluster, lattices per core and stacks of the three codes of a configuration (02 R51). -/
def configCores (code : Nat) : Nat := [64, 60, 56, 48].getD code 0
def configLats (code : Nat) : Nat := [2, 1, 0].getD code 0
def configStacks (code : Nat) : Nat := [16, 14, 12].getD code 0

/-- The healthy lattices of a core. -/
def healthyLats (w : Wear) (core : Nat) : List Nat := (upto 2).filter (fun l => tgetD w.lats (core * 2 + l) 0 = 0)

/-- The pairs of a cluster whose cores are healthy and have l healthy lattices each. -/
def healthyPairs (w : Wear) (c l : Nat) : List Nat :=
  (upto 32).filter (fun i => [64 * c + 2 * i, 64 * c + 2 * i + 1].all (fun k =>
    tgetD w.cores k 0 = 0 && decide (l ≤ (healthyLats w k).length)))

/-- The healthy stacks. -/
def healthyStacks (w : Wear) : List Nat := (upto 16).filter (fun k => tgetD w.hbm k 0 = 0)

/-- Whether a configuration, by number, is realisable. -/
def realisable (w : Wear) (num : Nat) : Bool :=
  (upto 16).all (fun c => decide (configCores (num / 9) / 2 ≤ (healthyPairs w c (configLats (num / 3 % 3))).length)) &&
  decide (configStacks (num % 3) ≤ (healthyStacks w).length)

/-- The device with the units of a configuration enabled. -/
def enableUnits (d : Device) (num : Nat) : Device :=
  let l := configLats (num / 3 % 3)
  let cores := (upto 16).map (fun c =>
    (c, ((healthyPairs d.wear c l).take (configCores (num / 9) / 2)).flatMap (fun i => [2 * i, 2 * i + 1])))
  { d with
    coresCode := num / 9, latCode := num / 3 % 3, stackCode := num % 3, cores := cores,
    lats := cores.flatMap (fun e => e.2.map (fun k => (64 * e.1 + k, (healthyLats d.wear (64 * e.1 + k)).take l))),
    hbm := (healthyStacks d.wear).take (configStacks (num % 3)) }

/-- The die edges of 01 R9, compute dies 0 to 7, IOD0 8 and IOD1 9: those within rows, between rows, and at the I/O dies. -/
def dieEdges : List (Nat × Nat) :=
  [(0, 1), (1, 2), (2, 3), (4, 5), (5, 6), (6, 7), (0, 4), (1, 5), (2, 6), (3, 7), (8, 0), (8, 4), (3, 9), (7, 9)]

/-- The edges with a trained module. -/
def trainedEdges (w : Wear) : List (Nat × Nat) :=
  (upto 14).filterMap (fun e => if (upto 8).any (fun m => !w.modules.contains (8 * e + m)) then dieEdges[e]? else none)

/-- The dies reached from a set over edges; `fuel` bounds the rounds. -/
def reached (fuel : Nat) (es : List (Nat × Nat)) (from_ : List Nat) : List Nat :=
  match fuel with
  | 0 => from_
  | f + 1 => reached f es (once (from_ ++ es.flatMap (fun e =>
      (if from_.contains e.1 then [e.2] else []) ++ (if from_.contains e.2 then [e.1] else []))))

/-- Every die reaches both I/O dies over trained edges. -/
def diesJoined (w : Wear) : Bool := (upto 10).all (fun d => (reached 10 (trainedEdges w) [8]).contains d)

/-! ### Calibration (24 R439, 18 R357) -/

/-- The enabled lattices of a cluster. -/
def clusterLats (d : Device) (c : Nat) : List Nat :=
  (tgetD d.cores c []).flatMap (fun j => (tgetD d.lats (64 * c + j) []).map (fun l => (64 * c + j) * 2 + l))

/-- Whether a cluster's calibration is valid. -/
def calibrationValid (d : Device) (c : Nat) : Bool := decide (d.hours - tgetD d.wear.calHours c 0 < 2160)

/-- The free counts of a health test of 4,096 nodes. -/
def freeCounts (base : Nat) : List Nat := (upto Config.nodes).map (fun i => Config.freeCount (base + i) % 65537)

/-- Calibrates the lattices of some clusters. Each is tested with the default threshold and an allowed count of 0: a
lattice of which a node deviates is marked BIASED, and the mark of another is cleared; the wear record is written.
`tests` is what each test counted, in the lattices' order. -/
def calibrate (s : State) (clusters : List Nat) (tests : List (List Nat)) : State :=
  let lats := clusters.flatMap (clusterLats s.dev)
  let bad := ((upto lats.length).filter (fun k => decide (0 < deviating 1311 (tests.getD k [])))).map (fun k => lats.getD k 0)
  let marks := bad.foldl (fun m k => insertNat k m) (s.biased.filter (fun k => !lats.contains k))
  let s1 := (upto lats.length).foldl (fun s1 k => sampleBias s1 (lats.getD k 0) (tests.getD k [])) { s with biased := marks }
  if clusters.isEmpty then s1
  else writeWear s1 (fun w => { w with calHours := clusters.foldl (fun t c => tput t c s.dev.hours) w.calHours })

/-! ### The host-port record (01 R20) -/

/-- The limits of a host-port record. -/
def hostRecordFits (b : List Byte) : Bool :=
  let f := byteField b
  b.length == 32 && f 0 1 != 0xFF && (f 17 1 % 2 == 0 || !zeroBytes b 0 16) && decide (1 ≤ f 16 1) && decide (f 16 1 ≤ 128) &&
  decide (f 17 1 < 4) && decide (1 ≤ f 18 2) && decide (f 18 2 ≤ 4094) && zeroBytes b 20 8 &&
  crc32 (b.take 28) == BitVec.ofNat 32 (f 28 4)

/-- The device with the valid copy of the host-port record of the higher generation as its record. -/
def loadHostRecord (d : Device) : Device :=
  if d.hostCut then { d with hostRec := d.hostRecOld, hostCut := false } else d

/-- Writes the host-port record over the older of its two copies, for the next start. -/
def writeHostRecord (s : State) (b : List Byte) : State :=
  { s with
    freeCount := s.freeCount + 1,
    dev := { s.dev with
      hostRec := some b, hostRecOld := s.dev.hostRec, hostTill := s.cycle + Config.writeCycles s.freeCount } }

/-- The device with the addresses of its host-port record in effect: the global address where it is valid, and the VLAN
ID where tagging is enabled; neither without a valid record. -/
def applyHostRecord (d : Device) : Device :=
  let e := loadHostRecord d
  match e.hostRec.filter hostRecordFits with
  | none => { e with hostAddr := [], vlan := none }
  | some b =>
    { e with
      hostAddr := if byteField b 17 1 % 2 = 1 then b else [],
      vlan := if byteField b 17 1 / 2 % 2 = 1 then some (byteField b 18 2) else none }

/-! ### The steps (24 R442-R445) -/

/-- HBM contents that are open: what a cold start or a loss of power leaves (24 R442). -/
def freeMemory (s : State) : List Host.Cell := (Config.freeCells s.freeCount).foldl (fun m c => mwrite m c.1 c.2) []

/-- What a start destroys: every partition, all SRAM, the sessions. A warm start leaves what HBM holds; a cold one leaves
it open, and also clears the phase counter. -/
def wiped (s : State) (cold : Bool) : State :=
  { s with
    chipPhase := if cold then 0 else s.chipPhase,
    dev := { s.dev with
      frozen := .none, resumePending := false, monitors := [], fresh := [], hbmAt := [], bandAt := [], bandSample := [],
      shut := [], recal := [], throttled := false, hostAddr := [], vlan := none, cmds := [] },
    parts := [], launches := [], teams := [], retired := [], groups := [], clusters := [], cores := [], engines := [], lattices := [],
    gred := [], lmem := [], lbits := [], lsnap := [], cmem := [],
    gmem := if cold then freeMemory s
      else s.gmem.filter (fun c => !((tget s.pages (c.1 / Config.pageBytes)).map (·.shared)).getD false),
    freeCount := if cold then s.freeCount + 1 else s.freeCount,
    pages := [], lags := [], lost := [],
    fabric := [], sessions := [], issue := {} }

/-- The cycle counter is 0 when a start ends. -/
def endStart (s : State) : State :=
  { s with
    cycle := 0,
    dev := { s.dev with fresh := [], wearTill := s.dev.wearTill - s.cycle, hostTill := s.dev.hostTill - s.cycle } }

/-- A start fails: the step and unit are recorded, and the device answers nothing. -/
def failStart (s : State) (step unit : Nat) : State :=
  let s1 := postNotice (endStart (writeWear s (fun w => { w with failStep := step, failUnit := unit }))) 4 unit
  { s1 with dev := { s1.dev with run := .failed } }

/-- Step 9: the host port comes up with the record in effect, and a notice is posted, which names the device (24 R433;
DESIGN CHOICE, log entry 155). -/
def portUp (s : State) (run : RunState) : State :=
  let s1 := postNotice (endStart s) 4 (sourceOf 4 0)
  { s1 with dev := { applyHostRecord s1.dev with run := run } }

/-- The device with no unit enabled, as safe mode has it, and configuration 35 to report. -/
def safeUnits (d : Device) : Device := { d with coresCode := 3, latCode := 2, stackCode := 2, cores := [], lats := [], hbm := [] }

/-- What the health tests of some lattices count at a start: free counts. -/
def testCounts (s : State) (lats : Nat) : List (List Nat) :=
  (upto lats).map (fun k => freeCounts (s.freeCount + k * Config.nodes))

/-- The calibration of a start. -/
def startCalibration (s : State) (clusters : List Nat) : State :=
  let lats := (clusters.flatMap (clusterLats s.dev)).length
  calibrate { s with freeCount := s.freeCount + lats * Config.nodes } clusters (testCounts s lats)

/-- The clusters that step 8 of a start calibrates. -/
def toCalibrate (s : State) (cold : Bool) : List Nat := (upto 16).filter (fun c => cold || !calibrationValid s.dev c)

/-- Whether a step runs in a start of this kind; safe mode leaves steps 4 to 8 out. -/
def stepRuns (s : State) (cold : Bool) (step : Nat) : Bool :=
  match step with
  | 4 => cold
  | 8 => !(toCalibrate s cold).isEmpty
  | _ => true

/-- Step 2: the valid copy of the wear record is read, and the start is counted unless it enters safe mode. -/
def loadStep (s : State) : State :=
  let d := loadWear s.dev
  let s1 := { s with dev := { d with hours := max d.hours d.wear.hours }, biased := d.wear.biased }
  writeWear s1 (fun w => { w with attempts := if 3 ≤ w.attempts then w.attempts else w.attempts + 1, phase := s.chipPhase })

/-- Step 7: the configuration, or the failure of the start. -/
def configStep (s : State) (unit : Nat) (next : State → State) : State :=
  match s.dev.wear.ioDies with
  | d :: _ => failStart s 7 (sourceOf 4 d)
  | [] =>
    match (upto 36).find? (realisable s.dev.wear) with
    | some num => if diesJoined s.dev.wear then next { s with dev := enableUnits s.dev num } else failStart s 7 unit
    | none => failStart s 7 unit

/-- What a step of a start that does not fail does, before the next step. -/
def stepWork (s : State) (cold safe : Bool) (step : Nat) (f : StartFacts) (next : State → State) : State :=
  match step with
  | 1 => next (if cold then { s with dev := { s.dev with strap := f.strap } } else s)
  | 3 => next (if safe then { s with dev := safeUnits s.dev } else s)
  | 4 => next (writeWear s (fun w => { w with cores := f.coreFail.foldl (fun t k => tput t k 2) w.cores }))
  | 5 => next (writeWear s (fun w => { w with hbm := f.stackFail.foldl (fun t k => tput t k 2) w.hbm }))
  | 6 =>
    let s1 := writeWear s (fun w => { w with modules := f.moduleFail, ports := f.portFail })
    next { s1 with dev := { s1.dev with portDown := f.portFail } }
  | 7 => configStep s f.failUnit next
  | 8 => next (startCalibration s (toCalibrate s cold))
  | 9 => if safe then portUp s .safe else portUp (writeWear s (fun w => { w with attempts := 0 })) .running
  | _ => next s

/-- One step of a start that is under way: step 2 loads the wear record and decides on safe mode, in which step 9 follows
step 3. -/
def startStep (s : State) (cold safe : Bool) (step : Nat) (f : StartFacts) : State :=
  let next := fun (safe : Bool) (s : State) =>
    { s with dev := { s.dev with run := .starting cold safe (if safe && step = 3 then 9 else step + 1) f } }
  if !stepRuns s cold step then next safe s
  else if step = 2 then
    let s1 := loadStep s
    if f.failStep = 2 then failStart s1 2 f.failUnit else next (decide (3 ≤ (loadWear s.dev).wear.attempts)) s1
  else if f.failStep = step then failStart s step f.failUnit
  else stepWork s cold safe step f (next safe)

/-- Runs the steps of a start until it ends or is held; `fuel` bounds their number. -/
def runStart (fuel : Nat) (s : State) : State :=
  match fuel with
  | 0 => s
  | n + 1 =>
    match s.dev.run with
    | .starting cold safe step f =>
      if f.holdAt = step && step != 0 then { s with dev := { s.dev with run := .starting cold safe step { f with holdAt := 0 } } }
      else runStart n (startStep s cold safe step f)
    | _ => s

/-- Begins a start. -/
def startDevice (s : State) (cold : Bool) (f : StartFacts) : State :=
  let s1 := wiped s cold
  runStart 10 { s1 with dev := { s1.dev with startKind := if cold then 0 else 1, run := .starting cold false 1 f } }

/-- POWER_UP (24 R442): a cold start of a device that was off. -/
def execPowerUp (facts : StartFacts) (s : State) : Host.Outcome State Fault Refusal :=
  .next (if s.dev.run == .off then startDevice s true facts else s)

/-- POWER_LOSS (24 R438, R444): all that storage does not keep is lost, a start under way with it, and a write of a stored
copy that goes on is cut off. The BIASED marks and the powered hours are those of the record that is left. -/
def execPowerLoss (s : State) : Host.Outcome State Fault Refusal :=
  let s1 := wiped s true
  let d := { s1.dev with
    run := .off, counters := [], notices := [], noticesPosted := 0, tripped := false,
    wearCut := s.dev.wearCut || decide (s.cycle < s.dev.wearTill), wearTill := 0,
    hostCut := s.dev.hostCut || decide (s.cycle < s.dev.hostTill), hostTill := 0 }
  let w := (loadWear d).wear
  .next { s1 with biased := w.biased, dev := { d with hours := w.hours } }

/-- PORST_N (24 R442); SRST_N low in the same cycle adds nothing (24 R445). -/
def execPorstN (facts : StartFacts) (s : State) : Host.Outcome State Fault Refusal :=
  .next (if s.dev.run == .off then s
    else
      let s1 := startDevice s true facts
      { s1 with turn := tput s1.turn 3 1 })

/-- SRST_N (24 R442): a warm start, unless PORST_N is low with it (24 R445). -/
def execSrstN (facts : StartFacts) (s : State) : Host.Outcome State Fault Refusal :=
  .next (if s.dev.run == .off || tgetD s.turn 3 0 = 1 then s else startDevice s false facts)

/-! ### Freeze and resume (23 R425-R427, 24 R444) -/

/-- The device resumes: every region reports a strike, and a start that was suspended goes on. -/
def resumeDevice (s : State) : State :=
  let s1 := { s with dev := { s.dev with frozen := .none, resumePending := false } }
  match s.dev.run with
  | .running => strikeAll s1
  | .starting _ _ _ _ => runStart 10 s1
  | _ => s1

/-- FRZ_N_FALL (23 R425): a rise before it resumes nothing any more, for a resume takes a rising edge (24 R432). -/
def execFrzNFall (s : State) : Host.Outcome State Fault Refusal :=
  .next (freezeDevice { s with dev := { s.dev with frz := false, resumePending := false } } .pin)

/-- FRZ_N_RISE (23 R427): a rising edge resumes a frozen device, one that has tripped once it has cooled. -/
def execFrzNRise (s : State) : Host.Outcome State Fault Refusal :=
  let s1 := { s with dev := { s.dev with frz := true } }
  .next (if s.dev.frz || s.dev.frozen == .none then s1
    else if s.dev.tripped then { s1 with dev := { s1.dev with resumePending := true } }
    else resumeDevice s1)

/-- THERMAL_TRIP (23 R425, 01 R24). -/
def execThermalTrip (s : State) : Host.Outcome State Fault Refusal :=
  .next (if s.dev.run == .off then s else freezeDevice { s with dev := { s.dev with tripped := true } } .thermal)

/-- TRIP_COOLDOWN (23 R427): a resume that waits takes place. -/
def execTripCooldown (s : State) : Host.Outcome State Fault Refusal :=
  let s1 := { s with dev := { s.dev with tripped := false } }
  .next (if s.dev.resumePending then resumeDevice s1 else s1)

/-! ### The test access port (23 R426) -/

/-- An instruction of the test access port, which reads a frozen device. -/
def onTap (s : State) (f : Device → Device) : Host.Outcome State Fault Refusal :=
  .next (if s.dev.frozen == .none || s.dev.run == .off then s else { s with dev := f s.dev })

/-- The lowest n bits of a number, least significant first. -/
def bitsOf (n v : Nat) : List Bool := (upto n).map (fun k => v / 2 ^ k % 2 = 1)

/-- IDCODE (23 R426). -/
def execIdcode (s : State) : Host.Outcome State Fault Refusal :=
  onTap s (fun d => { d with
    tapIr := 1, tapOut := bitsOf 32 (d.stepping % 16 * 2 ^ 28 + 0x4810 * 2 ^ 12 + 0x2B5 * 2 + 1) })

/-- SEGSEL (23 R426): selects one of the 1,050 segments. -/
def execSegsel (segment : Nat) (s : State) : Host.Outcome State Fault Refusal :=
  onTap s (fun d => { d with tapIr := 0x20, tapSeg := if segment < 1050 then segment else d.tapSeg })

/-- The core whose segment this is: IOD0 is segment 0, and each compute die has 131. -/
def segmentCore (n : Nat) : Option Nat :=
  let r := (n - 1) % 131
  if n = 0 || decide (1049 ≤ n) then none
  else if decide (1 ≤ r) && decide (r ≤ 64) then some (128 * ((n - 1) / 131) + (r - 1))
  else if decide (66 ≤ r) && decide (r ≤ 129) then some (128 * ((n - 1) / 131) + 64 + (r - 66))
  else none

/-- An array as it is shifted out: each word, least significant bit first, followed by its check bits. A word is given by
its width and value, the array by its number in the segment. -/
def arrayBits (s : State) (n : Nat) (ws : List (Nat × Nat)) : List Bool :=
  (upto ws.length).flatMap (fun k => let w := ws.getD k (0, 0); bitsOf w.1 w.2 ++ Config.freeBits s.freeCount n k)

/-- The words of a memory from an address on. -/
def memoryWords (m : Memory) (a n : Nat) : List (Nat × Nat) := (upto n).map (fun k => (32, (mword m (a + 4 * k)).toNat))

/-- The groups of a core by slot. -/
def groupsBySlot (s : State) (core : Nat) : List Group :=
  sortBy (fun a b => decide (a.slot < b.slot)) ((tvals s.groups).filter (fun g => g.core == core))

/-- A yes or no as a word of one bit. -/
def oneBit (b : Bool) : Nat × Nat := (1, if b then 1 else 0)

/-- The wait of a lane as a code. -/
def waitCode (w : Wait) : Nat :=
  match w with
  | .ready => 0
  | .mask _ _ _ _ => 1
  | .bart => 2
  | .barg => 3
  | .bartc _ _ _ _ => 4
  | .phase _ => 5
  | .fenl _ => 6
  | .full _ => 7
  | .spawn _ => 8
  | .sleep _ => 9
  | .latm => 10
  | .parked => 11

/-- The status of a lane as a code. -/
def statusCode (s : LaneStatus) : Nat :=
  match s with
  | .never => 0
  | .live => 1
  | .exited => 2

/-- The PCs of a group by lane, and its issue state: of each lane its status, issue set, wait and end of part, then the
running issue set, and the outstanding results by register and tag. -/
def pcWords (g : Group) : List (Nat × Nat) :=
  (upto g.alloc.w).map (fun l => (32, (laneAt g.regs l).pc.toNat)) ++
    (upto g.alloc.w).flatMap (fun l =>
      let n := laneAt g.regs l
      [(2, statusCode n.status), (32, n.set), (4, waitCode n.wait), oneBit n.switch, oneBit n.ended]) ++
    [(32, g.running.getD 0)] ++ g.flights.flatMap (fun f => [(2, f.cls), (16, f.key), (8, f.tag)])

/-- A group's share of a register file: vector registers by register and lane, uniform registers, predicates by lane,
masks. -/
def registerWords (a : Alloc) (c : GroupCore) : List (Nat × Nat) :=
  (upto a.v).flatMap (fun r => (upto a.w).map (fun l => (32, (tgetD c.v (64 * l + r) {}).val.toNat))) ++
    (upto a.s).map (fun r => (32, (tgetD c.s r {}).val.toNat)) ++
    (upto a.w).flatMap (fun l => (upto 7).map (fun k => (1, (tgetD c.p (8 * l + k) {}).val.toNat))) ++
    (upto 12).map (fun k => (64, (tgetD c.masks k 0#64).toNat))

/-- A group's share of the tile and accumulator pools: tiles with their sidecars, accumulators by element and lane. -/
def poolWords (a : Alloc) (c : GroupCore) : List (Nat × Nat) :=
  (upto a.t).flatMap (fun k =>
    let t := tgetD c.tiles k {}
    (upto 2048).map (fun o => (8, (tgetD t.data o 0#8).toNat)) ++ (upto 64).map (fun o => (8, (tgetD t.side o 0x7F#8).toNat))) ++
    (upto a.a).flatMap (fun k => (upto (64 * a.w)).map (fun e => (32, (tgetD (tgetD c.accs k []) e 0#32).toNat)))

/-- The chunks of a group that have not committed, oldest first. -/
def openChunks (g : Group) : List Chunk := g.inflight ++ g.cur.toList

/-- The store buffer: the bytes that a group's chunks hold, oldest first, each with its address. -/
def storeWords (g : Group) : List (Nat × Nat) :=
  (openChunks g).flatMap (fun c => c.stores.reverse.flatMap (fun x => [(64, x.1), (8, x.2.toNat)]))

/-- The local memory of a core with its word bits: each word, its full bit and its dirty bit. -/
def localWords (s : State) (core : Nat) : List (Nat × Nat) :=
  (upto (Config.localBytes / 4)).map (fun k =>
    let a := core * Config.localBytes + 4 * k
    let b := mread s.lbits a
    (34, (mword s.lmem a).toNat + (if b.getLsbD 0 then 0 else 2 ^ 32) + (if b.getLsbD 1 then 2 ^ 33 else 0)))

/-- A value that may be absent: a bit that says it is there, then its word. -/
def maybeWords (w : Nat) (x : Option Nat) : List (Nat × Nat) := [oneBit x.isSome, (w, x.getD 0)]

/-- The configuration of a lattice as 18 R341 lists it: whether there is one, mode, colour order, β and smax. -/
def configWords (c : Option LatCfg) : List (Nat × Nat) :=
  let x := c.getD { replay := false, order := 0, ncol := 0, beta := 0, smax := 0, perm := [] }
  [oneBit c.isSome, oneBit x.replay, (2, x.order), (4, x.ncol), (16, x.beta), (16, x.smax)] ++
    (upto 8).map (fun k => (8, x.perm.getD k 0))

/-- A lattice (18 R341): its coupling store, per node J and h; per node the state, descriptor, clamp and count; stencils;
ghost slots with their sources; sweep_ctr and lkey; its configuration. -/
def latticeWords (s : State) (key : Nat) : List (Nat × Nat) :=
  let x := tgetD s.lattices key {}
  let bit := fun (b : Bool) => if b then 1 else 0
  (upto Config.nodes).flatMap (fun n =>
    (upto 32).map (fun j => (8, ((tgetD x.j (32 * n + j) 0) % 2 ^ 8).toNat)) ++ [(16, ((tgetD x.h n 0) % 2 ^ 16).toNat)]) ++
    (upto Config.nodes).flatMap (fun n =>
      let d := tgetD x.desc n (0, 0, 0)
      [(1, bit (tgetD x.state n false)), (3, d.1), (4, d.2.1), (8, d.2.2), (1, bit (tgetD x.clamp n false)), (16, tgetD x.count n 0)]) ++
    (upto 512).map (fun k => (16, tgetD x.stencils k 0)) ++
    (upto 256).flatMap (fun k => let g := tgetD x.ghosts k (false, 65535, none); [(1, bit g.1), (16, g.2.1)] ++ maybeWords 32 g.2.2) ++
    [(32, x.ctr.toNat), (64, x.lkey.toNat)] ++ configWords x.cfg

/-- The copy queues of a core: of each, the running program and then those of its list, each by its address and
registers. -/
def queueWords (s : State) (core : Nat) : List (Nat × Nat) :=
  (upto 4).flatMap (fun u =>
    let q := engineAt s core u
    (q.run.toList ++ q.list).flatMap (fun p => (32, p.pc) :: (upto 32).map (fun n => (64, (tgetD p.e n 0#64).toNat))))

/-- The segment of a core: the arrays in the order of the rule. -/
def coreBits (s : State) (core : Nat) : List Bool :=
  let gs := groupsBySlot s core
  let shadows := fun (f : Alloc → GroupCore → List (Nat × Nat)) => gs.flatMap (fun g => (openChunks g).flatMap (fun c => f g.alloc c.start))
  arrayBits s 0 (gs.flatMap pcWords) ++
    arrayBits s 1 (gs.flatMap (fun g => registerWords g.alloc g.regs)) ++ arrayBits s 2 (shadows registerWords) ++
    arrayBits s 3 (gs.flatMap (fun g => poolWords g.alloc g.regs)) ++ arrayBits s 4 (shadows poolWords) ++
    arrayBits s 5 (gs.flatMap storeWords) ++ arrayBits s 6 (localWords s core) ++
    arrayBits s 7 (latticeWords s (2 * core)) ++ arrayBits s 8 (latticeWords s (2 * core + 1)) ++ arrayBits s 9 (queueWords s core)

/-- A holder of the commit token or one that asks for it, as a word. -/
def ownerWord (o : Owner) : Nat × Nat :=
  match o with
  | .group gid => (32, 2 * gid)
  | .unit core n => (32, 2 * (4 * core + n) + 1)

/-- The producer-to-consumer matrix of a cluster's arbiter (23 R415): for each of its teams in turn, whether it depends on
each of them. -/
def matrixWords (s : State) (c : Nat) : List (Nat × Nat) :=
  let ts := (s.teams ++ s.retired).filter (fun e => e.2.cluster == c)
  ts.flatMap (fun e => ts.map (fun u => oneBit (e.2.dependsOn.contains u.1)))

/-- A commit arbiter: its commit index, the token's holder, the requests in order (07 R161, 08 R179), and its matrix. -/
def arbiterWords (s : State) (c : Nat) : List (Nat × Nat) :=
  let k := clusterAt s c
  [(64, k.commitIndex), oneBit k.token.isSome] ++ (k.token.toList ++ k.requests.map (·.2)).map ownerWord ++ matrixWords s c

/-- The segment of a control region, its contents in the order of 23 R408: the control core's address, registers and
predicates, control memory, the commit arbiter, the event queue with its next seq, the event counters. -/
def controlBits (s : State) (c : Nat) : List Bool :=
  let x := clusterAt s c
  let k := x.ctl
  arrayBits s 0 ((32, k.pc.toNat) :: (upto 64).map (fun n => (32, (tgetD k.s n 0#32).toNat)) ++
      (upto 7).map (fun n => oneBit (tgetD k.p n false))) ++
    arrayBits s 1 (memoryWords s.cmem (c * Config.controlBytes) (Config.controlBytes / 4)) ++
    arrayBits s 2 (arbiterWords s c) ++
    arrayBits s 3 ((32, x.eventSeq) :: x.events.map (fun e => (256, leNat (eventBytes e)))) ++
    arrayBits s 4 ((upto 64).map (fun n => (32, (tgetD x.counters n 0#32).toNat)))

/-- The segment of a die's banks: the pages of chip shared memory at home there. -/
def bankBits (s : State) (die : Nat) : List Bool :=
  arrayBits s 0 ((s.pages.filter (fun e => e.2.shared && e.2.home == die)).flatMap (fun e =>
    memoryWords s.gmem (e.1 * Config.pageBytes) (Config.pageBytes / 4)))

/-- The bits of a segment. Those of the I/O dies are of unstated layout. -/
def segmentBits (s : State) (n : Nat) : List Bool :=
  let die := (n - 1) / 131
  let r := (n - 1) % 131
  match segmentCore n with
  | some core => coreBits s core
  | none =>
    if n = 0 || decide (1049 ≤ n) then Config.freeBits s.freeCount 0 0
    else if r = 130 then bankBits s die
    else controlBits s (2 * die + r / 65)

/-- SEGREAD (23 R426): shifts the selected segment out. -/
def execSegread (s : State) : Host.Outcome State Fault Refusal :=
  .next (if s.dev.frozen == .none || s.dev.run == .off then s
    else { s with
      dev := { s.dev with tapIr := 0x21, tapOut := segmentBits s s.dev.tapSeg }, freeCount := s.freeCount + 1 })

/-- BYPASS (23 R426): the one-bit bypass register, which captures 0. -/
def execBypass (s : State) : Host.Outcome State Fault Refusal :=
  onTap s (fun d => { d with tapIr := 0xFF, tapOut := [false] })

end Sys2Proof.Machine
end

