-- ==== Sys2Proof/Machine/Manage.lean ====
section
/-! DEFINITION. Management: the bytes of the management space, the commands, and the events of monitors, guard bands,
throttling and calibration (24 R430-R439, 01 R20, R24). -/

namespace Sys2Proof.Machine

/-! ### What READ returns (24 R430-R438) -/

/-- The bytes of a number, highest first. -/
def natBE (n v : Nat) : List Byte := (natLE n v).reverse

/-- Values of a table by ascending key, one byte each. -/
def tableBytes (n : Nat) (t : Table Nat) : List Byte := (upto n).map (fun k => BitVec.ofNat 8 (tgetD t k 0))

/-- The status block (24 R431). -/
def statusBytes (s : State) : List Byte :=
  let d := s.dev
  let w := d.wear
  let word := configNum d * 2 ^ 16 + w.failStep % 256 * 2 ^ 8 + d.startKind * 2 ^ 6 + (if d.run == .safe then 2 ^ 5 else 0) + w.attempts % 16
  let config := configNum d * 2 ^ 16 + d.coresCode * 2 ^ 14 + d.latCode * 2 ^ 12 + d.stackCode * 2 ^ 10 + 7 * 2 ^ 3 + d.stepping % 8
  natLE 4 word ++ natLE 4 config ++ natLE 2 w.failUnit ++ natLE 6 0 ++ natLE 8 d.hours ++ natLE 8 d.noticesPosted ++ natBE 6 d.mac ++ natLE 26 0

/-- The counters: dropped frames to notices lost. -/
def counterBytes (d : Device) : List Byte := (upto 8).flatMap (fun i => natLE 8 (tgetD d.counters i 0))

/-- A notice (24 R433). -/
def noticeBytes (n : Notice) : List Byte :=
  natLE 2 (Config.noticeKind n.kind) ++ natLE 2 n.unit ++ natLE 4 0 ++ natLE 8 n.phase ++ natLE 8 n.cycle ++ natLE 8 n.value

/-- The notice ring, oldest first, and the command word after it, which reads as open values. -/
def ringBytes (s : State) : List Byte :=
  let ns := s.dev.notices.flatMap noticeBytes
  ns ++ natLE (2048 - ns.length) 0 ++ natLE 8 (Config.freeNat s.freeCount)

/-- The current copy of the wear record (24 R438). -/
def wearBytes (w : Wear) : List Byte :=
  let lat := (upto 2048).map (fun k => BitVec.ofNat 8 (tgetD w.lats k 0 % 4 + (if w.biased.contains k then 4 else 0)))
  let flags := fun (n : Nat) (xs : List Nat) => (upto n).map (fun k => if xs.contains k then 1#8 else 0#8)
  let body := natLE 4 0x52414557 ++ natLE 2 1 ++ natLE 2 0 ++ natLE 8 w.generation ++ natLE 8 w.hours ++ tableBytes 34 w.levels ++
    natLE 1 w.attempts ++ natLE 1 w.failStep ++ natLE 2 w.failUnit ++ natLE 2 0 ++ tableBytes 1024 w.cores ++ lat ++
    (upto 16).flatMap (fun c => natLE 8 (tgetD w.calHours c 0)) ++ natLE 1920 0 ++ tableBytes 16 w.hbm ++ flags 112 w.modules ++
    flags 24 w.ports ++ natLE 8 w.phase ++ flags 2 w.ioDies ++ natLE 2842 0
  body ++ natLE 4 (crc32 body).toNat

/-- The wear record's region, in which the host-port record's region stands at offset 0x1000. -/
def storageBytes (d : Device) : List Byte :=
  let w := wearBytes d.wear
  w.take 4096 ++ (d.hostRec.getD (natLE 32 0)) ++ w.drop (4096 + 32)

/-- What a monitor has counted: least, greatest, count, bins. -/
def monitorCounts (m : Monitor) : List Byte :=
  natLE 4 m.least ++ natLE 4 m.greatest ++ natLE 6 m.count ++ natLE 2 0 ++ (upto 32).flatMap (fun b => natLE 6 (tgetD m.bins b 0))

/-- A monitor record (24 R435). -/
def monitorBytes (s : State) (index : Nat) : List Byte :=
  let m := monitorAt s.dev index
  natLE 2 index ++ natLE 1 (if m.log2 then 1 else 0) ++ natLE 1 m.width ++ natLE 4 m.base ++ natLE 8 s.chipPhase ++
    natLE 8 s.cycle ++ monitorCounts m ++ natLE 24 0

/-- The bytes of a run in the management space; none when a byte lies outside its regions. -/
def readManagement (s : State) (a n : Nat) : Option (List Byte) :=
  let cut := fun (base : Nat) (bs : List Byte) => some ((bs.drop (a - base)).take n)
  if a + n ≤ 0x40 then cut 0 (statusBytes s)
  else if 0x100 ≤ a ∧ a + n ≤ 0x140 then cut 0x100 (counterBytes s.dev)
  else if 0x800 ≤ a ∧ a + n ≤ 0x1008 then cut 0x800 (ringBytes s)
  else if 0x2000 ≤ a ∧ a + n ≤ 0x4000 then cut 0x2000 (storageBytes s.dev)
  else if 0x100000 ≤ a ∧ a + n ≤ 0x100000 + 256 * monitorCount then
    let first := (a - 0x100000) / 256
    let last := (a + n - 1 - 0x100000) / 256
    cut (0x100000 + 256 * first) ((upto (last + 1 - first)).flatMap (fun k => monitorBytes s (first + k)))
  else none

/-- The notices that a READ covers are read. -/
def seenNotices (d : Device) (a n : Nat) : Device :=
  { d with notices := (upto d.notices.length).map (fun k =>
      let x := d.notices.getD k default
      let lo := 0x800 + 32 * k
      { x with seen := x.seen || (decide (a < lo + 32) && decide (lo < a + n)) }) }

/-! ### What LOAD writes (24 R430, R432, R436, 01 R20) -/

/-- What a command does: refused, done at once, or done after its reply. -/
inductive Command where
  | refused
  | now (s : State)
  | later

/-- Sets the binning of a monitor, which clears it. -/
def setBins (s : State) (index : Nat) (log2 : Bool) (base width : Nat) : State := clearInto s index log2 width base

/-- Clears one monitor, its binning kept. -/
def clearMonitor (s : State) (index : Nat) : State :=
  let m := monitorAt s.dev index
  clearInto s index m.log2 m.width m.base

/-- Clears one monitor, or all. -/
def clearMonitors (s : State) (index : Nat) : State :=
  if index = 0xFFF then (upto monitorCount).foldl clearMonitor s else clearMonitor s index

/-- The clusters that belong to no partition. -/
def freeClusters (s : State) : List Nat :=
  (upto 16).filter (fun c => !s.parts.any (fun e => e.2.clusters.contains c || e.2.joining.contains c))

/-- Acts on a command of code 1 to 3, whose reply has been sent: a freeze, a warm start, a cold start. -/
def actCommand (s : State) (v : Nat) (facts : StartFacts) : State :=
  match v % 256 with
  | 1 => freezeDevice s .command
  | 2 => startDevice s false facts
  | _ => startDevice (if v = 3 then s else writeWear s (fun w => { w with attempts := 0 })) true facts

/-- Acts on the commands whose replies have been sent, in their order: a start drops those behind it with their
sessions. -/
def actCommands (s : State) : State :=
  match s.dev.cmds with
  | [] => s
  | c :: rest => actCommand { s with dev := { s.dev with cmds := rest } } c.1 c.2

/-- A command word (24 R432): code in bits [7:0]; bits that the command does not name must be 0. -/
def commandOf (s : State) (v : Nat) : Command :=
  let safe := s.dev.run == .safe
  match v % 256 with
  | 1 => if safe || v != 1 then .refused else .later
  | 2 => if v != 2 then .refused else .later
  | 3 => if v != 3 && v != 3 + 2 ^ 8 then .refused else .later
  | 4 =>
    let i := v / 2 ^ 8 % 2 ^ 12
    if safe || decide (2 ^ 20 ≤ v) || (i != 0xFFF && decide (monitorCount ≤ i)) then .refused else .now (clearMonitors s i)
  | 5 =>
    let i := v / 2 ^ 8 % 2 ^ 12
    if safe || decide (2 ^ 42 ≤ v) || decide (monitorCount ≤ i) then .refused
    else .now (setBins s i (v / 2 ^ 20 % 2 = 1) (v / 2 ^ 21 % 2 ^ 16) (v / 2 ^ 37 % 2 ^ 5))
  | 6 =>
    if safe || v != 6 then .refused
    else .now { s with dev := { s.dev with recal := once (s.dev.recal ++ freeClusters s) } }
  | _ => .refused

/-! ### Guard bands, temperature, throttling and calibration -/

/-- The voltage domain of a path-delay monitor (24 R437). -/
def domainOf (u : DelayUnit) : Nat :=
  match u with
  | .core c _ => c % 16
  | .lattice c _ _ => c % 16
  | .stack n => 16 + n % 16
  | .ioDie n => 32 + n % 2

/-- The guard-band level of a domain. -/
def levelOf (d : Device) (k : Nat) : Nat := tgetD d.wear.levels k 0

/-- Whether 2^20 cycles have passed since a recorded cycle. -/
def bandDue (t : Table Nat) (k now : Nat) : Bool :=
  match tget t k with
  | some c => decide (c + 2 ^ 20 ≤ now)
  | none => true

/-- A sample of the level of a domain, once in 2^20 cycles (24 R434). -/
def sampleLevel (s : State) (k : Nat) : State :=
  if bandDue s.dev.bandSample k s.cycle then
    let s1 := addSample s (2112 + k) (levelOf s.dev k)
    { s1 with dev := { s1.dev with bandSample := tput s1.dev.bandSample k s.cycle } }
  else s

/-- The number that names a unit in a notice: its physical number, the lattices in their own kind (07 R144). -/
def unitSource (u : DelayUnit) : Nat :=
  match u with
  | .core c k => sourceOf 0 (64 * c + k)
  | .lattice c k l => sourceOf 2 ((64 * c + k) * 2 + l)
  | .stack n => sourceOf 5 n
  | .ioDie n => sourceOf 4 n

/-- Marks a unit whose slack is short at the highest level (24 R437). -/
def markUnit (s : State) (u : DelayUnit) : State :=
  match u with
  | .core c k =>
    let pair := [64 * c + k / 2 * 2, 64 * c + k / 2 * 2 + 1]
    let s1 := suspectRegion s pair
    { s1 with dev := { s1.dev with shut := pair.foldl (fun l k => insertNat k l) s1.dev.shut } }
  | .lattice c k l =>
    let key := (64 * c + k) * 2 + l
    if tgetD s.dev.wear.lats key 0 = 0 then
      postNotice (writeWear s (fun w => { w with lats := tput w.lats key 1 })) 2 (unitSource u)
    else s
  | .stack n =>
    if tgetD s.dev.wear.hbm n 0 = 0 then postNotice (writeWear s (fun w => { w with hbm := tput w.hbm n 1 })) 2 (unitSource u) else s
  | .ioDie n =>
    if s.dev.wear.ioDies.contains n then s
    else postNotice (writeWear s (fun w => { w with ioDies := insertNat n w.ioDies })) 2 (unitSource u)

/-- PATH_DELAY_MEASUREMENT (24 R437): short slack raises the level of the domain, at most once in 2^20 cycles, and at
level 30 marks the unit. -/
def execPathDelayMeasurement (unit : DelayUnit) (low : Bool) (s : State) : Host.Outcome State Fault Refusal :=
  whenUp s (fun s =>
    let k := domainOf unit
    let s1 := sampleLevel s k
    if !low then s1
    else if levelOf s1.dev k < 30 then
      if bandDue s1.dev.bandAt k s1.cycle then
        let s2 := writeWear s1 (fun w => { w with levels := tput w.levels k (tgetD w.levels k 0 + 1) })
        postNotice { s2 with dev := { s2.dev with bandAt := tput s2.dev.bandAt k s2.cycle } } 1 (unitSource unit)
      else s1
    else markUnit s1 unit)

/-- TEMPERATURE_SAMPLE (24 R434). -/
def execTemperatureSample (sensor value : Nat) (s : State) : Host.Outcome State Fault Refusal :=
  whenUp s (fun s => if sensor < 36 then addSample s (2146 + sensor) value else s)

/-- THROTTLE (01 R24): issue stalls start, and a notice is posted, which names the device (DESIGN CHOICE, log entry 155). -/
def execThrottle (s : State) : Host.Outcome State Fault Refusal :=
  whenUp s (fun s =>
    if s.dev.throttled then s
    else postNotice { s with dev := { s.dev with throttled := true, throttleAt := s.cycle } } 3 (sourceOf 4 0))

/-- THROTTLE_END (01 R24): the cycles of the episode are counted. -/
def execThrottleEnd (s : State) : Host.Outcome State Fault Refusal :=
  whenUp s (fun s =>
    if s.dev.throttled then bumpMgmt { s with dev := { s.dev with throttled := false } } 5 (s.cycle - s.dev.throttleAt) else s)

/-- RECALIBRATE_DONE (24 R439): the command ends, and clusters assigned meanwhile join their partitions. -/
def execRecalibrateDone (counts : List (List Nat)) (s : State) : Host.Outcome State Fault Refusal :=
  whenRuns s (fun s =>
    let s1 := calibrate s s.dev.recal counts
    { s1 with
      dev := { s1.dev with recal := [] },
      parts := tmap s1.parts (fun _ p => { p with clusters := p.joining.foldl (fun l c => insertNat c l) p.clusters, joining := [] }) })

/-- CALIBRATION_EXPIRY (24 R439): the powered hours reach a value at which a cluster's calibration is no longer valid. -/
def execCalibrationExpiry (hours : Nat) (s : State) : Host.Outcome State Fault Refusal :=
  whenUp s (fun s => { s with dev := { s.dev with hours := max s.dev.hours hours } })

end Sys2Proof.Machine
end

