-- ==== Sys2Proof/Machine/HostPort.lean ====
section
/-! DEFINITION. The host port: frames that are dropped or answered, Plagan sessions, the HELLOs that open them and create
or destroy partitions, the requests of sessions, acknowledgements and retransmission, and the fabric ports (01 R19, R20,
R22, 21 R374, R381-R385, 24 R430, R432). -/

namespace Sys2Proof.Machine

/-- An event of the host port, which is up in a running device and in safe mode. -/
def whenPort (s : State) (f : State → State) : Host.Outcome State Fault Refusal :=
  .next (if s.dev.frozen == .none && (s.dev.run == .running || s.dev.run == .safe) then f s else s)

/-! ### Frames (01 R19, R20) -/

/-- A frame for the host port, with the VLAN ID of its tag: one without the port's tag is dropped and counted. -/
def whenFrame (s : State) (vlan : Option Nat) (f : State → State) : Host.Outcome State Fault Refusal :=
  whenPort s (fun s => if vlan = s.dev.vlan then f s else bumpMgmt s 0 1)

/-- Sends a frame outside the numbering of a session. -/
def emit (s : State) (f : Frame) : State := { s with sent := s.sent ++ [{ f with vlan := s.dev.vlan }] }

/-- The link-local address formed from the MAC address (01 R20). -/
def linkLocal (mac : Nat) : Nat :=
  let hi := mac / 2 ^ 24
  0xFE80 * 2 ^ 112 + (hi ^^^ 0x020000) * 2 ^ 40 + 0xFFFE * 2 ^ 24 + mac % 2 ^ 24

/-- The global address in effect, when there is one. -/
def globalAddress (d : Device) : Option Nat :=
  if d.hostAddr.isEmpty then none else some (leNat ((d.hostAddr.take 16).reverse))

/-- An address of the port: the link-local one or the global one in effect (01 R19, R20). -/
def ownAddress (d : Device) (a : Nat) : Bool := a == linkLocal d.mac || globalAddress d == some a

/-- A Plagan datagram: one that is not for an address of the port is dropped and counted with the frames (01 R19, R20). -/
def whenDatagram (s : State) (h : MsgHdr) (f : State → State) : Host.Outcome State Fault Refusal :=
  whenFrame s h.vlan (fun s => if h.dest.all (ownAddress s.dev) then f s else bumpMgmt s 0 1)

/-- NEIGHBOUR_SOLICITATION (01 R19): answered for the device's own addresses; the answer stands as a frame of type 0. -/
def execNeighbourSolicitation (target : Solicitation) (s : State) : Host.Outcome State Fault Refusal :=
  whenFrame s target.vlan (fun s =>
    if ownAddress s.dev target.address then
      emit s { session := 0, type := 0, payload := natBE 16 target.address }
    else bumpMgmt s 0 1)

/-- NON_PLAGAN_FRAME (01 R19): dropped and counted. -/
def execNonPlaganFrame (s : State) : Host.Outcome State Fault Refusal := whenPort s (fun s => bumpMgmt s 0 1)

/-- CORRUPT_PLAGAN_MESSAGE (21 R381): dropped and counted. -/
def execCorruptPlaganMessage (s : State) : Host.Outcome State Fault Refusal := whenPort s (fun s => bumpMgmt s 1 1)

/-! ### Sessions (21 R382) -/

/-- Retires the messages that the other end has received, sends what the window then admits, and acts on a command whose
reply is among it (24 R432). -/
def takeAck (s : State) (sid ack : Nat) : State :=
  match tget s.sessions sid with
  | none => s
  | some x =>
    let s1 := onSession s sid (fun y => { y with unacked := y.unacked.filter (fun u => decide (ack < u.1.seq)) })
    actCommands (pumpSession s1 sid (x.backlog.length + 1))

/-- Acknowledges a duplicate again. -/
def sendAck (s : State) (h : MsgHdr) (x : Session) : State :=
  emit s { session := h.session, seq := 0, ack := x.rxNext - 1, type := 0, flags := 1, peer := h.peer, port := h.port }

/-- Where a message came from. -/
def originOf (h : MsgHdr) (type : Nat) : Origin := { type := type, peer := h.peer, port := h.port }

/-- The type of a message: its row's, or one that 21 R383 does not name or that only the device sends. -/
def typeOf (h : MsgHdr) (type : Nat) : Nat :=
  match h.type with
  | some t => if t = 5 || !(decide (1 ≤ t) && decide (t ≤ 8)) then t else type
  | none => type

/-- Whether the header of a message keeps its limits (21 R381, R383, R384). -/
def headerFits (h : MsgHdr) (type : Nat) : Bool := h.fits && typeOf h type == type

/-- A request of a partition session joins those behind it, and what need not wait is performed. -/
def queueRequest (s : State) (h : MsgHdr) (type : Nat) (r : HostReq) : State :=
  let w : Waiting := { arrival := s.nextId, origin := originOf h type, req := r }
  let s1 := { onSession s h.session (fun y => { y with waiting := y.waiting ++ [w] }) with nextId := s.nextId + 1 }
  drainSession (waitingIn s1 h.session + 1) s1 h.session

/-- A message whose header breaks its limits is refused with MALFORMED, in its turn (21 R382, R384). -/
def malformed (s : State) (h : MsgHdr) (x : Session) (type : Nat) : State :=
  if x.admin then replyTo s h.session (originOf h type) 4 [] else queueRequest s h type (.refused type 4)

/-- A message of a session, with the type of its row: dropped when the session is not open, acted on when it is the next
in order. A command that its acknowledgement lets go may have closed the port. -/
def onMessage (s : State) (h : MsgHdr) (type : Nat) (act : State → Session → State) : State :=
  match tget s.sessions h.session with
  | none => bumpMgmt s 1 1
  | some x =>
    let s1 := takeAck s h.session h.ack
    if h.seq < x.rxNext then sendAck s1 h x
    else if x.rxNext < h.seq || (tget s1.sessions h.session).isNone || s1.dev.frozen != .none then s1
    else
      let s2 := onSession s1 h.session (fun y => { y with rxNext := y.rxNext + 1 })
      if headerFits h type then act s2 x else malformed s2 h x (typeOf h type)

/-- A request with the operation code that its message carries (21 R383, R385, 23 R424). -/
def withOp (h : MsgHdr) (r : HostReq) : HostReq :=
  match h.op, r with
  | some k, .xlate _ a len arg => .xlate k a len arg
  | some k, .atomic _ a v c => .atomic k a v c
  | some k, .ckpt _ desc => .ckpt k desc
  | _, r => r

/-- A request that an administrator session may not make, and a partition session makes (21 R383). -/
def partRequest (s : State) (h : MsgHdr) (type : Nat) (r : HostReq) : Host.Outcome State Fault Refusal :=
  whenDatagram s h (fun s => onMessage s h type (fun s x =>
    if x.admin then replyTo s h.session (originOf h type) 2 [] else queueRequest s h type (withOp h r)))

/-- PLAGAN_ACK (21 R382). -/
def execPlaganAck (h : MsgHdr) (s : State) : Host.Outcome State Fault Refusal :=
  whenDatagram s h (fun s => if (tget s.sessions h.session).isSome then takeAck s h.session h.ack else bumpMgmt s 1 1)

/-- RETRANSMIT (21 R382): the oldest message whose timer has expired is sent again, or after 8 times the session closes.
DESIGN CHOICE (log entry 145): what waits behind its window goes with it and is not counted (01 R20). -/
def execRetransmit (session : Nat) (s : State) : Host.Outcome State Fault Refusal :=
  whenPort s (fun s =>
    match tget s.sessions session with
    | none => s
    | some x =>
      match x.unacked.find? (fun u => decide (u.2.2 ≤ s.cycle)) with
      | none => s
      | some (fr, n, d) =>
        if 8 ≤ n then bumpMgmt { s with sessions := tdel s.sessions session } 2 1
        else
          let again := { fr with ack := x.rxNext - 1, vlan := s.dev.vlan }
          let s1 := onSession s session (fun y => { y with unacked := y.unacked.map (fun u =>
            if u == (fr, n, d) then (again, n + 1, s.cycle + 2 ^ 21) else u) })
          { s1 with sent := s1.sent ++ [again] })

/-! ### HELLO (21 R374, R382, R383) -/

/-- A HELLO that is refused: the reply names no session. -/
def refuseHello (s : State) (h : MsgHdr) (status : Nat) : State :=
  emit s { session := 0, seq := 1, ack := h.seq, type := 1, flags := 2, status := status, peer := h.peer, port := h.port }

/-- Opens a session, and replies with its number; a partition's events go to its latest. -/
def openSession (s : State) (h : MsgHdr) (admin : Bool) (part : Nat) : State :=
  let sid := s.nextSession
  let s1 := { s with
    nextSession := sid + 1,
    sessions := tput s.sessions sid { admin := admin, part := part, peer := h.peer, port := h.port, rxNext := h.seq + 1 },
    parts := if admin then s.parts else tmod s.parts part (fun p => { p with session := some sid }) }
  replyTo s1 sid (originOf h 1) 0 (natLE 4 sid)

/-- The set bits of a field. -/
def setBits (n v : Nat) : List Nat := (upto n).filter (fun k => v / 2 ^ k % 2 = 1)

/-- Pages of HBM and shared memory that no partition's quota takes. -/
def freePages (s : State) : Nat :=
  (s.dev.hbm.length * Config.stackPages + Config.sharedPages) - total (s.parts.map (fun e => e.2.quota))

/-- The limits of a partition descriptor (21 R374). -/
def descriptorFits (s : State) (b : List Byte) : Bool :=
  let f := byteField b
  let time := fun (v : Nat) => v == 0 || decide (1024 ≤ v)
  b.length == 64 && f 0 4 != 0 && decide (f 0 4 < 2 ^ 16) && decide (f 4 1 ≤ 15) && f 5 1 != 0 && zeroBytes b 6 2 &&
  decide (f 8 4 < 2 ^ 24) && decide (1 ≤ f 12 4) && decide (f 12 4 ≤ freePages s) && time (f 16 4) && time (f 20 4) &&
  (if f 24 2 = 0 then f 26 2 == 0 else decide (2 ≤ f 26 2) && decide (f 26 2 ≤ 1024) && f 8 4 != 0) && zeroBytes b 28 36

/-- The partition that a descriptor describes; clusters that a recalibration covers join it later (24 R439). DESIGN
CHOICE (log entry 120): its windows of 2^26 cycles (07 R151) are counted from its creation. -/
def newPart (s : State) (b : List Byte) : Part :=
  let f := byteField b
  let cs := setBits 16 (f 0 4)
  { clusters := cs.filter (fun c => !s.dev.recal.contains c), joining := cs.filter (fun c => s.dev.recal.contains c),
    weight := f 5 1, ports := setBits 24 (f 8 4), quota := f 12 4,
    strag := if f 16 4 = 0 then 2 ^ 24 else f 16 4, exch := if f 20 4 = 0 then 2 ^ 22 else f 20 4,
    spanTag := f 24 2, spanSize := f 26 2, windowStart := s.cycle, computeAt := s.cycle }

/-- Creates a partition: the status, and the state (21 R374). -/
def createPart (s : State) (b : List Byte) : Nat × State :=
  let p := newPart s b
  let n := byteField b 4 1
  let cs := p.clusters ++ p.joining
  if s.dev.run == .safe then (1, s)
  else if !descriptorFits s b then (4, s)
  else if (tget s.parts n).isSome ||
      s.parts.any (fun e => cs.any (fun c => e.2.clusters.contains c || e.2.joining.contains c) || p.ports.any (fun k => e.2.ports.contains k)) then (1, s)
  else (0, cs.foldl (fun s c => setCluster s c {}) (setPart s n p))

/-- A session whose partition is destroyed: what it waits on, and what is held behind it, is answered now, each with
NO_PARTITION (21 R382, R384; DEDUCED, log 92). -/
def orphanSession (s : State) (sid : Nat) : State :=
  let s1 := match (tget s.sessions sid).bind (·.busy) with
    | some o => replyTo (onSession s sid (fun y => { y with busy := none })) sid o 5 []
    | none => s
  drainSession (waitingIn s1 sid + 1) (onSession s1 sid (fun y => { y with held := false })) sid

/-- Destroys a partition: its pages, windows, clusters with what still runs on their engines, ports, queues and handle
table are free (21 R374), and its sessions answer what they hold. -/
def destroyPart (s : State) (n : Nat) : Nat × State :=
  match tget s.parts n with
  | none => (5, s)
  | some p =>
    if s.launches.any (fun e => e.2.part == n && e.2.phase != .ended) then (1, s)
    else
      let gone := fun (a : Nat) => ((tget s.pages (a / Config.pageBytes)).map (·.part)) == some n
      let mine := s.sessions.filter (fun e => !e.2.admin && e.2.part == n)
      let s1 : State := { s with
        parts := tdel s.parts n,
        launches := s.launches.filter (fun e => e.2.part != n),
        retired := s.retired.filter (fun e => ((tget s.launches e.2.launch).map (·.part)) != some n),
        pages := s.pages.filter (fun e => e.2.part != n),
        lags := s.lags.filter (fun x => !gone x.addr), lost := s.lost.filter (fun w => !gone w),
        fabric := s.fabric.filter (fun w => w.2.part != n),
        clusters := s.clusters.filter (fun e => !p.clusters.contains e.1),
        engines := s.engines.filter (fun e => !p.clusters.contains (e.1 / 512)),
        sessions := tmap s.sessions (fun _ x => if !x.admin && x.part == n then { x with part := 16 } else x) }
      (0, (tkeys mine).foldl orphanSession s1)

/-- A HELLO (21 R383): role, partition, flags and descriptor are checked, then it acts and opens a session. A message of
another type names no session that is open. DESIGN CHOICE (log entry 154): one that creates a partition goes by the
number of its descriptor. -/
def helloMessage (s : State) (h : MsgHdr) (role part flags : Nat) (desc : List Byte) : Host.Outcome State Fault Refusal :=
  whenDatagram s h (fun s =>
    if typeOf h 1 != 1 then bumpMgmt s 1 1
    else if !h.fits || 1 < role || decide (3 ≤ flags) || (role == 1 && flags != 0) then refuseHello s h 4
    else if role = 1 then
      if (tget s.parts part).isSome then openSession s h false part else refuseHello s h 5
    else
      let r := if flags = 1 then createPart s desc else if flags = 2 then destroyPart s part else (0, s)
      if r.1 = 0 then openSession r.2 h true 16 else refuseHello s h r.1)

/-- HELLO (21 R383). -/
def execHello (h : MsgHdr) (role part flags : Nat) (s : State) : Host.Outcome State Fault Refusal :=
  helloMessage s h role part flags []

/-- HELLO_CREATE (21 R374). -/
def execHelloCreate (h : MsgHdr) (role flags : Nat) (desc : List Byte) (s : State) : Host.Outcome State Fault Refusal :=
  helloMessage s h role (byteField desc 4 1) flags desc

/-- HELLO_DESTROY (21 R374). -/
def execHelloDestroy (h : MsgHdr) (role part flags : Nat) (s : State) : Host.Outcome State Fault Refusal :=
  helloMessage s h role part flags []

/-! ### Management (24 R430, R432) -/

/-- A command of an administrator session: a freeze or a start comes once its reply has been sent. -/
def runCommand (s : State) (h : MsgHdr) (v : Nat) (facts : StartFacts) : State :=
  let o := originOf h 2
  match commandOf s v with
  | .refused => replyTo s h.session o 4 []
  | .now s1 => replyTo s1 h.session o 0 []
  | .later =>
    actCommands (sendFrame s h.session
      { session := h.session, type := 2, flags := 2, peer := h.peer, port := h.port, command := some (v, facts) })

/-- A LOAD of 8 bytes to the command word. -/
def commandMessage (s : State) (h : MsgHdr) (v : Nat) (facts : StartFacts) : Host.Outcome State Fault Refusal :=
  whenDatagram s h (fun s => onMessage s h 2 (fun s x =>
    if x.admin then runCommand s h v facts else queueRequest s h 2 (.load 0x200 0x1000 (natLE 8 v))))

/-- A LOAD of an administrator session: to the command word or the host-port record (24 R430). -/
def adminLoad (s : State) (h : MsgHdr) (space a : Nat) (data : List Byte) : State :=
  let o := originOf h 2
  if space != 0x200 then replyTo s h.session o 2 []
  else if a = 0x1000 && data.length = 8 then
    runCommand { s with freeCount := s.freeCount + 1 } h (leNat data) (Config.freeFacts s.freeCount)
  else if a = 0x3000 && hostRecordFits data && s.dev.run != .safe then replyTo (writeHostRecord s data) h.session o 0 []
  else replyTo s h.session o 4 []

/-- The state in which a READ of the management space finds the monitors: those of HBM read latency with what they have
sampled. -/
def sampled (s : State) (a : Nat) : State := if a < 0x100000 then s else (upto 16).foldl (fun s k => takeSamples s (32 + k)) s

/-- A READ of an administrator session: of the management space. -/
def adminRead (s : State) (h : MsgHdr) (space a n : Nat) : State :=
  let o := originOf h 3
  if space != 0x200 then replyTo s h.session o 2 []
  else if !runFits a n then replyTo s h.session o 4 []
  else
    let s1 := sampled s a
    match readManagement s1 a n with
    | some bs => replyTo { s1 with dev := seenNotices s1.dev a n, freeCount := s1.freeCount + 1 } h.session o 0 bs
    | none => replyTo s h.session o 4 []

/-- FREEZE (24 R432). -/
def execFreeze (h : MsgHdr) (s : State) : Host.Outcome State Fault Refusal := commandMessage s h 1 {}

/-- WARM_START (24 R432). -/
def execWarmStart (h : MsgHdr) (facts : StartFacts) (s : State) : Host.Outcome State Fault Refusal := commandMessage s h 2 facts

/-- COLD_START (24 R432, R445). -/
def execColdStart (h : MsgHdr) (clear : Bool) (facts : StartFacts) (s : State) : Host.Outcome State Fault Refusal :=
  commandMessage s h (3 + (if clear then 2 ^ 8 else 0)) facts

/-- CLEAR_MONITOR (24 R432). -/
def execClearMonitor (h : MsgHdr) (index : BitVec 12) (s : State) : Host.Outcome State Fault Refusal :=
  commandMessage s h (4 + index.toNat * 2 ^ 8) {}

/-- SET_BINNING (24 R432, R436). -/
def execSetBinning (h : MsgHdr) (index : BitVec 12) (log2 : Bool) (base : BitVec 16) (width : BitVec 5) (s : State) :
    Host.Outcome State Fault Refusal :=
  commandMessage s h (5 + index.toNat * 2 ^ 8 + (if log2 then 2 ^ 20 else 0) + base.toNat * 2 ^ 21 + width.toNat * 2 ^ 37) {}

/-- RECALIBRATE (24 R432, R439). -/
def execRecalibrate (h : MsgHdr) (s : State) : Host.Outcome State Fault Refusal := commandMessage s h 6 {}

/-! ### Requests (21 R383, R385, 10 R230, 23 R424) -/

/-- LOAD (21 R383). -/
def execLoad (h : MsgHdr) (space addr : Nat) (data : List Byte) (s : State) : Host.Outcome State Fault Refusal :=
  whenDatagram s h (fun s => onMessage s h 2 (fun s x =>
    if x.admin then adminLoad s h space addr data else queueRequest s h 2 (.load space addr data)))

/-- LOAD_HOST_PORT_RECORD (01 R20). -/
def execLoadHostPortRecord (h : MsgHdr) (data : List Byte) (s : State) : Host.Outcome State Fault Refusal :=
  whenDatagram s h (fun s => onMessage s h 2 (fun s x =>
    if x.admin then adminLoad s h 0x200 0x3000 data else queueRequest s h 2 (.load 0x200 0x3000 data)))

/-- READ (21 R383). -/
def execRead (h : MsgHdr) (space addr len : Nat) (s : State) : Host.Outcome State Fault Refusal :=
  whenDatagram s h (fun s => onMessage s h 3 (fun s x =>
    if x.admin then adminRead s h space addr len else queueRequest s h 3 (.read space addr len)))

/-- START (07 R134). -/
def execStart (h : MsgHdr) (cluster entry replace base image : Nat) (args : List Word) (s : State) :
    Host.Outcome State Fault Refusal :=
  partRequest s h 4 (.start cluster entry replace base image args)

/-- XLATE_QUERY (21 R385). -/
def execXlateQuery (h : MsgHdr) (addr len arg : Nat) (s : State) : Host.Outcome State Fault Refusal :=
  partRequest s h 6 (.xlate 0 addr len arg)

/-- XLATE_MAP (21 R378, R385). -/
def execXlateMap (h : MsgHdr) (addr len arg : Nat) (s : State) : Host.Outcome State Fault Refusal :=
  partRequest s h 6 (.xlate 1 addr len arg)

/-- XLATE_UNMAP (21 R385). -/
def execXlateUnmap (h : MsgHdr) (addr len arg : Nat) (s : State) : Host.Outcome State Fault Refusal :=
  partRequest s h 6 (.xlate 2 addr len arg)

/-- XLATE_SET_ATTRIBUTES (21 R385). -/
def execXlateSetAttributes (h : MsgHdr) (addr len arg : Nat) (s : State) : Host.Outcome State Fault Refusal :=
  partRequest s h 6 (.xlate 3 addr len arg)

/-- XLATE_BIND_FABRIC_WINDOW (21 R380, R385). -/
def execXlateBindFabricWindow (h : MsgHdr) (addr len arg : Nat) (s : State) : Host.Outcome State Fault Refusal :=
  partRequest s h 6 (.xlate 4 addr len arg)

/-- XLATE_MIGRATE (10 R227, 21 R385). -/
def execXlateMigrate (h : MsgHdr) (addr len arg : Nat) (s : State) : Host.Outcome State Fault Refusal :=
  partRequest s h 6 (.xlate 5 addr len arg)

/-- ATOMIC_ADD32 (10 R230). -/
def execAtomicAdd32 (h : MsgHdr) (addr : Nat) (operand compare : DWord) (s : State) : Host.Outcome State Fault Refusal :=
  partRequest s h 7 (.atomic 0 addr operand compare)

/-- ATOMIC_ADD64 (10 R230). -/
def execAtomicAdd64 (h : MsgHdr) (addr : Nat) (operand compare : DWord) (s : State) : Host.Outcome State Fault Refusal :=
  partRequest s h 7 (.atomic 1 addr operand compare)

/-- ATOMIC_SWAP32 (10 R230). -/
def execAtomicSwap32 (h : MsgHdr) (addr : Nat) (operand compare : DWord) (s : State) : Host.Outcome State Fault Refusal :=
  partRequest s h 7 (.atomic 2 addr operand compare)

/-- ATOMIC_CAS32 (10 R230). -/
def execAtomicCas32 (h : MsgHdr) (addr : Nat) (operand compare : DWord) (s : State) : Host.Outcome State Fault Refusal :=
  partRequest s h 7 (.atomic 3 addr operand compare)

/-- ATOMIC_CAS64 (10 R230). -/
def execAtomicCas64 (h : MsgHdr) (addr : Nat) (operand compare : DWord) (s : State) : Host.Outcome State Fault Refusal :=
  partRequest s h 7 (.atomic 4 addr operand compare)

/-- CKPT_MSG_START (23 R424). -/
def execCkptMsgStart (h : MsgHdr) (desc : List Byte) (s : State) : Host.Outcome State Fault Refusal :=
  partRequest s h 8 (.ckpt 0 desc)

/-- CKPT_MSG_WAIT (23 R424). -/
def execCkptMsgWait (h : MsgHdr) (desc : List Byte) (s : State) : Host.Outcome State Fault Refusal :=
  partRequest s h 8 (.ckpt 1 desc)

/-- CKPT_MSG_POLL (23 R424). -/
def execCkptMsgPoll (h : MsgHdr) (desc : List Byte) (s : State) : Host.Outcome State Fault Refusal :=
  partRequest s h 8 (.ckpt 2 desc)

/-- CKPT_MSG_RSTOR (23 R424). -/
def execCkptMsgRstor (h : MsgHdr) (desc : List Byte) (s : State) : Host.Outcome State Fault Refusal :=
  partRequest s h 8 (.ckpt 3 desc)

/-! ### Fabric ports (01 R22, 11 R250) -/

/-- FABRIC_PORT_DOWN (01 R22). -/
def execFabricPortDown (port : Nat) (s : State) : Host.Outcome State Fault Refusal :=
  whenRuns s (fun s => if port < 24 then { s with dev := { s.dev with portDown := insertNat port s.dev.portDown } } else s)

/-- FABRIC_PORT_UP (01 R22): a port that failed at the start stays unused (24 R441). -/
def execFabricPortUp (port : Nat) (s : State) : Host.Outcome State Fault Refusal :=
  whenRuns s (fun s =>
    if s.dev.wear.ports.contains port then s
    else { s with dev := { s.dev with portDown := s.dev.portDown.filter (fun k => k != port) } })

/-- STOP_SIGNAL (11 R250). -/
def execStopSignal (port : Nat) (stop : Bool) (s : State) : Host.Outcome State Fault Refusal :=
  whenRuns s (fun s => { s with dev := { s.dev with
    portStop := if stop && decide (port < 24) then insertNat port s.dev.portStop else s.dev.portStop.filter (fun k => k != port) } })

end Sys2Proof.Machine
end

