-- ==== Sys2Proof/Machine/Integer.lean ====
section
/-! DEFINITION. Vector and uniform integer instructions, majors 1, 2, 3, 10 and 11 (05 R91-R99), for groups and for
control cores (04 R85, R86). -/

namespace Sys2Proof.Machine

/-- A vector result of two sources (05 R93, R96). -/
def vecXY (sw : Bool) (d : BitVec 6) (x y : Src) (s : State) (f : Word → Word → Word) :
    Host.Outcome State Fault Refusal :=
  groupOrControl s { sw := sw, x := some x, y := some y, v := [d.toNat] }
    (fun i => regsBody (writeLanes d.toNat (fun l => f (xVal i l) (yVal i l))) i)
    (fun i => { ctl := setCtlReg (ctlNext i) d.toNat (f i.x i.y) })

/-- A vector result of one source and the sat field (05 R96). -/
def vecX (sw : Bool) (d : BitVec 6) (x : Src) (s : State) (f : Bool → Word → Word) :
    Host.Outcome State Fault Refusal :=
  groupOrControl s { sw := sw, x := some x, v := [d.toNat] }
    (fun i => regsBody (writeLanes d.toNat (fun l => f (satField i.hints) (xVal i l))) i)
    (fun i => { ctl := setCtlReg (ctlNext i) d.toNat (f false i.x) })

/-- A vector result of one source and an immediate (05 R95). -/
def vecXI (sw : Bool) (d : BitVec 6) (x : Src) (imm : BitVec 8) (s : State) (f : Word → Word → Word) :
    Host.Outcome State Fault Refusal :=
  groupOrControl s { sw := sw, x := some x, v := [d.toNat], imm := true }
    (fun i => regsBody (writeLanes d.toNat (fun l => f (xVal i l) (immValue i.hints imm))) i)
    (fun i => { ctl := setCtlReg (ctlNext i) d.toNat (f i.x (immValue i.hints imm)) })

/-- A vector result of two sources and the prior destination (05 R96, R97). -/
def vecXYD (sw : Bool) (d : BitVec 6) (x y : Src) (s : State) (f : Word → Word → Word → Word) :
    Host.Outcome State Fault Refusal :=
  groupOrControl s { sw := sw, x := some x, y := some y, v := [d.toNat], vr := [d.toNat] }
    (fun i => regsBody (writeLanes d.toNat (fun l =>
      f (xVal i l) (yVal i l) (readV i.g.regs l d.toNat).1)) i)
    (fun i => { ctl := setCtlReg (ctlNext i) d.toNat (f i.x i.y (ctlReg i.ctl d.toNat)) })

/-- A vector result of two sources with a carry in and out through p6 (05 R94, R96). -/
def vecCarry (sw : Bool) (d : BitVec 6) (x y : Src) (s : State) (f : Word → Word → Bool → Word × Bool) :
    Host.Outcome State Fault Refusal :=
  groupOrControl s { sw := sw, x := some x, y := some y, v := [d.toNat], pr := [6] }
    (fun i => regsBody (fun i c =>
      let r := fun (l : Nat) => f (xVal i l) (yVal i l) (readP i.g.regs l 6).1
      writePreds 6 (fun l => (r l).2) i (writeLanes d.toNat (fun l => (r l).1) i c)) i)
    (fun i =>
      let r := f i.x i.y (ctlPred i.ctl 6)
      { ctl := setCtlPred (setCtlReg (ctlNext i) d.toNat r.1) 6 r.2 })

/-- A uniform result of two sources, once per issue (05 R98, R99). -/
def uniXY (sw : Bool) (d : BitVec 6) (x y : Src) (s : State) (f : Word → Word → Word) :
    Host.Outcome State Fault Refusal :=
  groupOrControl s { sw := sw, sx := some x, sy := some y, u := [d.toNat] }
    (fun i => regsBody (writeOnce d.toNat (f (sxVal i) (syVal i))) i)
    (fun i => { ctl := setCtlReg (ctlNext i) d.toNat (f i.x i.y) })

/-- A uniform result of one source and an immediate, once per issue (05 R98). -/
def uniXI (sw : Bool) (d : BitVec 6) (x : Src) (imm : BitVec 8) (s : State) (f : Word → Word → Word) :
    Host.Outcome State Fault Refusal :=
  groupOrControl s { sw := sw, sx := some x, u := [d.toNat], imm := true }
    (fun i => regsBody (writeOnce d.toNat (f (sxVal i) (immValue i.hints imm))) i)
    (fun i => { ctl := setCtlReg (ctlNext i) d.toNat (f i.x (immValue i.hints imm)) })

/-! ### IALU (05 R93, R94) -/

/-- IADD (05 R93): the sum. -/
def execIadd (sw : Bool) (d : BitVec 6) (x y : Src) (s : State) : Host.Outcome State Fault Refusal :=
  vecXY sw d x y s (fun a b => a + b)

/-- ISUB (05 R93): the difference. -/
def execIsub (sw : Bool) (d : BitVec 6) (x y : Src) (s : State) : Host.Outcome State Fault Refusal :=
  vecXY sw d x y s (fun a b => a - b)

/-- IMUL (05 R93): the low product. -/
def execImul (sw : Bool) (d : BitVec 6) (x y : Src) (s : State) : Host.Outcome State Fault Refusal :=
  vecXY sw d x y s (fun a b => a * b)

/-- IMULH (05 R93): the high signed product. -/
def execImulh (sw : Bool) (d : BitVec 6) (x y : Src) (s : State) : Host.Outcome State Fault Refusal :=
  vecXY sw d x y s mulHigh

/-- UMULH (05 R93): the high unsigned product. -/
def execUmulh (sw : Bool) (d : BitVec 6) (x y : Src) (s : State) : Host.Outcome State Fault Refusal :=
  vecXY sw d x y s umulHigh

/-- IMIN (05 R93): the signed minimum. -/
def execImin (sw : Bool) (d : BitVec 6) (x y : Src) (s : State) : Host.Outcome State Fault Refusal :=
  vecXY sw d x y s iminW

/-- IMAX (05 R93): the signed maximum. -/
def execImax (sw : Bool) (d : BitVec 6) (x y : Src) (s : State) : Host.Outcome State Fault Refusal :=
  vecXY sw d x y s imaxW

/-- UMIN (05 R93): the unsigned minimum. -/
def execUmin (sw : Bool) (d : BitVec 6) (x y : Src) (s : State) : Host.Outcome State Fault Refusal :=
  vecXY sw d x y s uminW

/-- UMAX (05 R93): the unsigned maximum. -/
def execUmax (sw : Bool) (d : BitVec 6) (x y : Src) (s : State) : Host.Outcome State Fault Refusal :=
  vecXY sw d x y s umaxW

/-- AND (05 R93): the bitwise AND. -/
def execVand (sw : Bool) (d : BitVec 6) (x y : Src) (s : State) : Host.Outcome State Fault Refusal :=
  vecXY sw d x y s (fun a b => a &&& b)

/-- OR (05 R93): the bitwise OR. -/
def execVor (sw : Bool) (d : BitVec 6) (x y : Src) (s : State) : Host.Outcome State Fault Refusal :=
  vecXY sw d x y s (fun a b => a ||| b)

/-- XOR (05 R93): the bitwise exclusive OR. -/
def execVxor (sw : Bool) (d : BitVec 6) (x y : Src) (s : State) : Host.Outcome State Fault Refusal :=
  vecXY sw d x y s (fun a b => a ^^^ b)

/-- SHL (05 R93): the left shift. -/
def execShl (sw : Bool) (d : BitVec 6) (x y : Src) (s : State) : Host.Outcome State Fault Refusal :=
  vecXY sw d x y s shlW

/-- SHR (05 R93): the logical right shift. -/
def execShr (sw : Bool) (d : BitVec 6) (x y : Src) (s : State) : Host.Outcome State Fault Refusal :=
  vecXY sw d x y s shrW

/-- SRA (05 R93): the arithmetic right shift. -/
def execSra (sw : Bool) (d : BitVec 6) (x y : Src) (s : State) : Host.Outcome State Fault Refusal :=
  vecXY sw d x y s sraW

/-- IADDC (05 R94): the sum with the carry of p6. -/
def execIaddc (sw : Bool) (d : BitVec 6) (x y : Src) (s : State) : Host.Outcome State Fault Refusal :=
  vecCarry sw d x y s addCarry

/-! ### IALUI (05 R95) -/

/-- IADDI (05 R95): the sum with the immediate. -/
def execIaddi (sw : Bool) (d : BitVec 6) (x : Src) (i : BitVec 8) (s : State) : Host.Outcome State Fault Refusal :=
  vecXI sw d x i s (fun a b => a + b)

/-- ISUBI (05 R95): the difference with the immediate. -/
def execIsubi (sw : Bool) (d : BitVec 6) (x : Src) (i : BitVec 8) (s : State) : Host.Outcome State Fault Refusal :=
  vecXI sw d x i s (fun a b => a - b)

/-- IMULI (05 R95): the low product with the immediate. -/
def execImuli (sw : Bool) (d : BitVec 6) (x : Src) (i : BitVec 8) (s : State) : Host.Outcome State Fault Refusal :=
  vecXI sw d x i s (fun a b => a * b)

/-- IMULHI (05 R95): the high signed product with the immediate. -/
def execImulhi (sw : Bool) (d : BitVec 6) (x : Src) (i : BitVec 8) (s : State) : Host.Outcome State Fault Refusal :=
  vecXI sw d x i s mulHigh

/-- UMULHI (05 R95): the high unsigned product with the immediate. -/
def execUmulhi (sw : Bool) (d : BitVec 6) (x : Src) (i : BitVec 8) (s : State) : Host.Outcome State Fault Refusal :=
  vecXI sw d x i s umulHigh

/-- IMINI (05 R95): the signed minimum with the immediate. -/
def execImini (sw : Bool) (d : BitVec 6) (x : Src) (i : BitVec 8) (s : State) : Host.Outcome State Fault Refusal :=
  vecXI sw d x i s iminW

/-- IMAXI (05 R95): the signed maximum with the immediate. -/
def execImaxi (sw : Bool) (d : BitVec 6) (x : Src) (i : BitVec 8) (s : State) : Host.Outcome State Fault Refusal :=
  vecXI sw d x i s imaxW

/-- UMINI (05 R95): the unsigned minimum with the immediate. -/
def execUmini (sw : Bool) (d : BitVec 6) (x : Src) (i : BitVec 8) (s : State) : Host.Outcome State Fault Refusal :=
  vecXI sw d x i s uminW

/-- UMAXI (05 R95): the unsigned maximum with the immediate. -/
def execUmaxi (sw : Bool) (d : BitVec 6) (x : Src) (i : BitVec 8) (s : State) : Host.Outcome State Fault Refusal :=
  vecXI sw d x i s umaxW

/-- ANDI (05 R95): the bitwise AND with the immediate. -/
def execAndi (sw : Bool) (d : BitVec 6) (x : Src) (i : BitVec 8) (s : State) : Host.Outcome State Fault Refusal :=
  vecXI sw d x i s (fun a b => a &&& b)

/-- ORI (05 R95): the bitwise OR with the immediate. -/
def execOri (sw : Bool) (d : BitVec 6) (x : Src) (i : BitVec 8) (s : State) : Host.Outcome State Fault Refusal :=
  vecXI sw d x i s (fun a b => a ||| b)

/-- XORI (05 R95): the bitwise exclusive OR with the immediate. -/
def execXori (sw : Bool) (d : BitVec 6) (x : Src) (i : BitVec 8) (s : State) : Host.Outcome State Fault Refusal :=
  vecXI sw d x i s (fun a b => a ^^^ b)

/-- SHLI (05 R95): the left shift with the immediate. -/
def execShli (sw : Bool) (d : BitVec 6) (x : Src) (i : BitVec 8) (s : State) : Host.Outcome State Fault Refusal :=
  vecXI sw d x i s shlW

/-- SHRI (05 R95): the logical right shift with the immediate. -/
def execShri (sw : Bool) (d : BitVec 6) (x : Src) (i : BitVec 8) (s : State) : Host.Outcome State Fault Refusal :=
  vecXI sw d x i s shrW

/-- SRAI (05 R95): the arithmetic right shift with the immediate. -/
def execSrai (sw : Bool) (d : BitVec 6) (x : Src) (i : BitVec 8) (s : State) : Host.Outcome State Fault Refusal :=
  vecXI sw d x i s sraW

/-- MOVI (05 R95): the immediate. -/
def execMovi (sw : Bool) (d : BitVec 6) (imm : BitVec 8) (s : State) : Host.Outcome State Fault Refusal :=
  groupOrControl s { sw := sw, v := [d.toNat], imm := true }
    (fun i => regsBody (writeLanes d.toNat (fun _ => immValue i.hints imm)) i)
    (fun i => { ctl := setCtlReg (ctlNext i) d.toNat (immValue i.hints imm) })

/-! ### IEXT (05 R96, R97) -/

/-- ISUBB (05 R96): the difference with the borrow of p6. -/
def execIsubb (sw : Bool) (d : BitVec 6) (x y : Src) (s : State) : Host.Outcome State Fault Refusal :=
  vecCarry sw d x y s subBorrow

/-- IABS (05 R96): the absolute value. -/
def execIabs (sw : Bool) (d : BitVec 6) (x : Src) (s : State) : Host.Outcome State Fault Refusal :=
  vecX sw d x s absW

/-- INEG (05 R96): the negation. -/
def execIneg (sw : Bool) (d : BitVec 6) (x : Src) (s : State) : Host.Outcome State Fault Refusal :=
  vecX sw d x s negW

/-- NOT (05 R96): the complement. -/
def execVnot (sw : Bool) (d : BitVec 6) (x : Src) (s : State) : Host.Outcome State Fault Refusal :=
  vecX sw d x s (fun _ a => ~~~a)

/-- CLZ (05 R96): leading zeros. -/
def execClz (sw : Bool) (d : BitVec 6) (x : Src) (s : State) : Host.Outcome State Fault Refusal :=
  vecX sw d x s (fun _ a => clzW a)

/-- POPC (05 R96): set bits. -/
def execPopc (sw : Bool) (d : BitVec 6) (x : Src) (s : State) : Host.Outcome State Fault Refusal :=
  vecX sw d x s (fun _ a => popcW a)

/-- BREV (05 R96): reversed bits. -/
def execBrev (sw : Bool) (d : BitVec 6) (x : Src) (s : State) : Host.Outcome State Fault Refusal :=
  vecX sw d x s (fun _ a => brevW a)

/-- BFE (05 R97): a bit field. -/
def execBfe (sw : Bool) (d : BitVec 6) (x y : Src) (s : State) : Host.Outcome State Fault Refusal :=
  vecXY sw d x y s bfeW

/-- BFI (05 R97): inserts a bit field into the destination. -/
def execBfi (sw : Bool) (d : BitVec 6) (x y : Src) (s : State) : Host.Outcome State Fault Refusal :=
  vecXYD sw d x y s bfiW

/-- IADDS (05 R96): the saturating signed sum. -/
def execIadds (sw : Bool) (d : BitVec 6) (x y : Src) (s : State) : Host.Outcome State Fault Refusal :=
  vecXY sw d x y s (fun a b => clampSigned (sval a + sval b))

/-- ISUBS (05 R96): the saturating signed difference. -/
def execIsubs (sw : Bool) (d : BitVec 6) (x y : Src) (s : State) : Host.Outcome State Fault Refusal :=
  vecXY sw d x y s (fun a b => clampSigned (sval a - sval b))

/-- UADDS (05 R96): the saturating unsigned sum. -/
def execUadds (sw : Bool) (d : BitVec 6) (x y : Src) (s : State) : Host.Outcome State Fault Refusal :=
  vecXY sw d x y s (fun a b => clampUnsigned (a.toNat + b.toNat))

/-- IMAD (05 R96): the product added to the destination. -/
def execImad (sw : Bool) (d : BitVec 6) (x y : Src) (s : State) : Host.Outcome State Fault Refusal :=
  vecXYD sw d x y s (fun a b dv => a * b + dv)

/-- SAD (05 R96): the absolute difference added to the destination. -/
def execSad (sw : Bool) (d : BitVec 6) (x y : Src) (s : State) : Host.Outcome State Fault Refusal :=
  vecXYD sw d x y s sadW

/-- ROTL (05 R96): the left rotation. -/
def execRotl (sw : Bool) (d : BitVec 6) (x y : Src) (s : State) : Host.Outcome State Fault Refusal :=
  vecXY sw d x y s rotlW

/-- LEA2 (05 R96): x + 4 y. -/
def execLea2 (sw : Bool) (d : BitVec 6) (x y : Src) (s : State) : Host.Outcome State Fault Refusal :=
  vecXY sw d x y s (fun a b => a + b * 4#32)

/-! ### SALU and SALUI (05 R98, R99) -/

/-- SADD (05 R98): the sum, uniform. -/
def execSadd (sw : Bool) (d : BitVec 6) (x y : Src) (s : State) : Host.Outcome State Fault Refusal :=
  uniXY sw d x y s (fun a b => a + b)

/-- SSUB (05 R98): the difference, uniform. -/
def execSsub (sw : Bool) (d : BitVec 6) (x y : Src) (s : State) : Host.Outcome State Fault Refusal :=
  uniXY sw d x y s (fun a b => a - b)

/-- SMUL (05 R98): the low product, uniform. -/
def execSmul (sw : Bool) (d : BitVec 6) (x y : Src) (s : State) : Host.Outcome State Fault Refusal :=
  uniXY sw d x y s (fun a b => a * b)

/-- SMULH (05 R98): the high signed product, uniform. -/
def execSmulh (sw : Bool) (d : BitVec 6) (x y : Src) (s : State) : Host.Outcome State Fault Refusal :=
  uniXY sw d x y s mulHigh

/-- SUMULH (05 R98): the high unsigned product, uniform. -/
def execSumulh (sw : Bool) (d : BitVec 6) (x y : Src) (s : State) : Host.Outcome State Fault Refusal :=
  uniXY sw d x y s umulHigh

/-- SMIN (05 R98): the signed minimum, uniform. -/
def execSmin (sw : Bool) (d : BitVec 6) (x y : Src) (s : State) : Host.Outcome State Fault Refusal :=
  uniXY sw d x y s iminW

/-- SMAX (05 R98): the signed maximum, uniform. -/
def execSmax (sw : Bool) (d : BitVec 6) (x y : Src) (s : State) : Host.Outcome State Fault Refusal :=
  uniXY sw d x y s imaxW

/-- SUMIN (05 R98): the unsigned minimum, uniform. -/
def execSumin (sw : Bool) (d : BitVec 6) (x y : Src) (s : State) : Host.Outcome State Fault Refusal :=
  uniXY sw d x y s uminW

/-- SUMAX (05 R98): the unsigned maximum, uniform. -/
def execSumax (sw : Bool) (d : BitVec 6) (x y : Src) (s : State) : Host.Outcome State Fault Refusal :=
  uniXY sw d x y s umaxW

/-- SAND (05 R98): the bitwise AND, uniform. -/
def execSand (sw : Bool) (d : BitVec 6) (x y : Src) (s : State) : Host.Outcome State Fault Refusal :=
  uniXY sw d x y s (fun a b => a &&& b)

/-- SOR (05 R98): the bitwise OR, uniform. -/
def execSor (sw : Bool) (d : BitVec 6) (x y : Src) (s : State) : Host.Outcome State Fault Refusal :=
  uniXY sw d x y s (fun a b => a ||| b)

/-- SXOR (05 R98): the bitwise exclusive OR, uniform. -/
def execSxor (sw : Bool) (d : BitVec 6) (x y : Src) (s : State) : Host.Outcome State Fault Refusal :=
  uniXY sw d x y s (fun a b => a ^^^ b)

/-- SSHL (05 R98): the left shift, uniform. -/
def execSshl (sw : Bool) (d : BitVec 6) (x y : Src) (s : State) : Host.Outcome State Fault Refusal :=
  uniXY sw d x y s shlW

/-- SSHR (05 R98): the logical right shift, uniform. -/
def execSshr (sw : Bool) (d : BitVec 6) (x y : Src) (s : State) : Host.Outcome State Fault Refusal :=
  uniXY sw d x y s shrW

/-- SSRA (05 R98): the arithmetic right shift, uniform. -/
def execSsra (sw : Bool) (d : BitVec 6) (x y : Src) (s : State) : Host.Outcome State Fault Refusal :=
  uniXY sw d x y s sraW

/-- SMOV (05 R98): a uniform move. -/
def execSmov (sw : Bool) (d : BitVec 6) (x : Src) (s : State) : Host.Outcome State Fault Refusal :=
  groupOrControl s { sw := sw, sx := some x, u := [d.toNat] }
    (fun i => regsBody (writeOnce d.toNat (sxVal i)) i)
    (fun i => { ctl := setCtlReg (ctlNext i) d.toNat i.x })

/-- SADDI (05 R98): the sum, uniform, with the immediate. -/
def execSaddi (sw : Bool) (d : BitVec 6) (x : Src) (i : BitVec 8) (s : State) : Host.Outcome State Fault Refusal :=
  uniXI sw d x i s (fun a b => a + b)

/-- SSUBI (05 R98): the difference, uniform, with the immediate. -/
def execSsubi (sw : Bool) (d : BitVec 6) (x : Src) (i : BitVec 8) (s : State) : Host.Outcome State Fault Refusal :=
  uniXI sw d x i s (fun a b => a - b)

/-- SMULI (05 R98): the low product, uniform, with the immediate. -/
def execSmuli (sw : Bool) (d : BitVec 6) (x : Src) (i : BitVec 8) (s : State) : Host.Outcome State Fault Refusal :=
  uniXI sw d x i s (fun a b => a * b)

/-- SMULHI (05 R98): the high signed product, uniform, with the immediate. -/
def execSmulhi (sw : Bool) (d : BitVec 6) (x : Src) (i : BitVec 8) (s : State) : Host.Outcome State Fault Refusal :=
  uniXI sw d x i s mulHigh

/-- SUMULHI (05 R98): the high unsigned product, uniform, with the immediate. -/
def execSumulhi (sw : Bool) (d : BitVec 6) (x : Src) (i : BitVec 8) (s : State) : Host.Outcome State Fault Refusal :=
  uniXI sw d x i s umulHigh

/-- SMINI (05 R98): the signed minimum, uniform, with the immediate. -/
def execSmini (sw : Bool) (d : BitVec 6) (x : Src) (i : BitVec 8) (s : State) : Host.Outcome State Fault Refusal :=
  uniXI sw d x i s iminW

/-- SMAXI (05 R98): the signed maximum, uniform, with the immediate. -/
def execSmaxi (sw : Bool) (d : BitVec 6) (x : Src) (i : BitVec 8) (s : State) : Host.Outcome State Fault Refusal :=
  uniXI sw d x i s imaxW

/-- SUMINI (05 R98): the unsigned minimum, uniform, with the immediate. -/
def execSumini (sw : Bool) (d : BitVec 6) (x : Src) (i : BitVec 8) (s : State) : Host.Outcome State Fault Refusal :=
  uniXI sw d x i s uminW

/-- SUMAXI (05 R98): the unsigned maximum, uniform, with the immediate. -/
def execSumaxi (sw : Bool) (d : BitVec 6) (x : Src) (i : BitVec 8) (s : State) : Host.Outcome State Fault Refusal :=
  uniXI sw d x i s umaxW

/-- SANDI (05 R98): the bitwise AND, uniform, with the immediate. -/
def execSandi (sw : Bool) (d : BitVec 6) (x : Src) (i : BitVec 8) (s : State) : Host.Outcome State Fault Refusal :=
  uniXI sw d x i s (fun a b => a &&& b)

/-- SORI (05 R98): the bitwise OR, uniform, with the immediate. -/
def execSori (sw : Bool) (d : BitVec 6) (x : Src) (i : BitVec 8) (s : State) : Host.Outcome State Fault Refusal :=
  uniXI sw d x i s (fun a b => a ||| b)

/-- SXORI (05 R98): the bitwise exclusive OR, uniform, with the immediate. -/
def execSxori (sw : Bool) (d : BitVec 6) (x : Src) (i : BitVec 8) (s : State) : Host.Outcome State Fault Refusal :=
  uniXI sw d x i s (fun a b => a ^^^ b)

/-- SSHLI (05 R98): the left shift, uniform, with the immediate. -/
def execSshli (sw : Bool) (d : BitVec 6) (x : Src) (i : BitVec 8) (s : State) : Host.Outcome State Fault Refusal :=
  uniXI sw d x i s shlW

/-- SSHRI (05 R98): the logical right shift, uniform, with the immediate. -/
def execSshri (sw : Bool) (d : BitVec 6) (x : Src) (i : BitVec 8) (s : State) : Host.Outcome State Fault Refusal :=
  uniXI sw d x i s shrW

/-- SSRAI (05 R98): the arithmetic right shift, uniform, with the immediate. -/
def execSsrai (sw : Bool) (d : BitVec 6) (x : Src) (i : BitVec 8) (s : State) : Host.Outcome State Fault Refusal :=
  uniXI sw d x i s sraW

/-- SMOVI (05 R98): the immediate, uniform. -/
def execSmovi (sw : Bool) (d : BitVec 6) (imm : BitVec 8) (s : State) : Host.Outcome State Fault Refusal :=
  groupOrControl s { sw := sw, u := [d.toNat], imm := true }
    (fun i => regsBody (writeOnce d.toNat (immValue i.hints imm)) i)
    (fun i => { ctl := setCtlReg (ctlNext i) d.toNat (immValue i.hints imm) })

end Sys2Proof.Machine
end

