-- ==== Sys2Proof/Machine/Mask.lean ====
section
/-! DEFINITION. Reconvergence masks, major 19 (06 R121-R124). -/

namespace Sys2Proof.Machine

/-- The members of a mask. -/
def maskAt (c : GroupCore) (k : Nat) : LaneMask := tgetD c.masks k 0#64

/-- Sets the members of a mask. -/
def setMask (c : GroupCore) (k : Nat) (m : LaneMask) : GroupCore := { c with masks := tput c.masks k m }

/-- The form of a MASK word: no guard (03 R68). -/
def maskForm (sw : Bool) : Form := { sw := sw, guarded := false }

/-- Releases a thread that waits at MWAIT on mask k and is no member any more, alone, as its own issue set (06 R122). -/
def releaseRemoved (q k : Nat) (g : Group) (l : Nat) : Group :=
  match (laneAt g.regs l).wait with
  | .mask k' after ends sw =>
    if k' = k && !(maskAt g.regs k).getLsbD l then
      let x := laneAt g.regs l
      { g with
        regs := setLane g.regs l { retire q { x with wait := .ready } after ends sw with set := g.nextSet },
        nextSet := g.nextSet + 1 }
    else g
  | _ => g

/-- Gives a mask new members and releases the waiting threads it loses. -/
def changeMask (k : Nat) (m : LaneMask) (i : In) (w : Work) : Work :=
  let w1 := onRegs w (fun c => setMask c k m)
  { w1 with g := (liveLanes w1.g.regs).foldl (releaseRemoved i.l.chunkq k) w1.g }

/-- MJOIN (06 R121). -/
def execMjoin (sw : Bool) (m : BitVec 4) (s : State) : Host.Outcome State Fault Refusal :=
  groupOnly s (maskForm sw)
    (fun i w => onRegs w (fun c => setMask c m.toNat (maskAt c m.toNat ||| maskOf i.lanes)))

/-- MLEAVE (06 R121). -/
def execMleave (sw : Bool) (m : BitVec 4) (s : State) : Host.Outcome State Fault Refusal :=
  groupOnly s (maskForm sw)
    (fun i w => onRegs w (fun c => setMask c m.toNat (maskAt c m.toNat &&& ~~~(maskOf i.lanes))))

/-- MWAIT (06 R122): members wait with the address they go on at; others trap with ILLEGAL_CONVERGENCE. -/
def execMwait (sw : Bool) (m : BitVec 4) (s : State) : Host.Outcome State Fault Refusal :=
  groupOnly s (maskForm sw)
    (fun i w =>
      let members := i.lanes.filter (fun l => (maskAt i.g.regs m.toNat).getLsbD l)
      let others := i.lanes.filter (fun l => !(maskAt i.g.regs m.toNat).getLsbD l)
      setFates (setFates w members (.hold (.mask m.toNat (i.pc + 4#32) (chunkEnd i.hints) sw))) others (.trap 2 0#32))

/-- MSET (06 R121): the live lanes below W whose bit of the uniform pair is set. -/
def execMset (sw : Bool) (m : BitVec 4) (j : BitVec 5) (s : State) : Host.Outcome State Fault Refusal :=
  groupOnly s { maskForm sw with u := [2 * j.toNat + 1], ur := [2 * j.toNat, 2 * j.toNat + 1] }
    (fun i w =>
      let v := dword (readS i.g.regs (2 * j.toNat)).1 (readS i.g.regs (2 * j.toNat + 1)).1
      let live := (liveLanes i.g.regs).filter (fun l => decide (l < i.l.alloc.w))
      changeMask m.toNat (v &&& maskOf live) i w)

/-- MGET (06 R121): the members to a uniform pair, the low word first. -/
def execMget (sw : Bool) (m : BitVec 4) (j : BitVec 5) (s : State) : Host.Outcome State Fault Refusal :=
  groupOnly s { maskForm sw with u := [2 * j.toNat + 1] }
    (fun i => regsBody (fun i c =>
      let v := maskAt c m.toNat
      writeOnce (2 * j.toNat + 1) (hiWord v) i (writeOnce (2 * j.toNat) (loWord v) i c)) i)

/-- MCLR (06 R121). -/
def execMclr (sw : Bool) (m : BitVec 4) (s : State) : Host.Outcome State Fault Refusal :=
  groupOnly s (maskForm sw) (fun i => changeMask m.toNat 0#64 i)

/-- MTEST (06 R121). -/
def execMtest (sw : Bool) (m : BitVec 4) (d : BitVec 3) (s : State) : Host.Outcome State Fault Refusal :=
  groupOnly s (maskForm sw)
    (fun i => regsBody (writePreds d.toNat (fun l => (maskAt i.g.regs m.toNat).getLsbD l)) i)

end Sys2Proof.Machine
end

