-- ==== Sys2Proof/Machine/Matrix.lean ====
section
/-! DEFINITION. MMA, major 22, and how tiles and accumulators are held (17 R325-R334). -/

namespace Sys2Proof.Machine

/-! ### Tiles and accumulators (17 R325) -/

/-- A data byte of a tile. -/
def tileByte (t : Tile) (k : Nat) : Nat := (tgetD t.data k 0#8).toNat

/-- A sidecar byte of a tile; 0x7F when it is not listed. -/
def sideByte (t : Tile) (k : Nat) : Nat := (tgetD t.side k 0x7F#8).toNat

/-- The data table of 2,048 bytes. -/
def tileData (f : Nat → Byte) : Table Byte :=
  (upto 2048).filterMap (fun k => if f k = 0#8 then none else some (k, f k))

/-- The sidecar table of 64 bytes. -/
def tileSide (f : Nat → Byte) : Table Byte :=
  (upto 64).filterMap (fun k => if f k = 0x7F#8 then none else some (k, f k))

/-- A tile of a group. -/
def tileAt (c : GroupCore) (n : Nat) : Tile := tgetD c.tiles n {}

/-- Sets a tile. -/
def setTile (c : GroupCore) (n : Nat) (t : Tile) : GroupCore := { c with tiles := tput c.tiles n t }

/-- Element (row, column) of an accumulator. -/
def accElem (c : GroupCore) (a i k : Nat) : Word := tgetD (tgetD c.accs a []) (64 * i + k) 0#32

/-- Sets elements of an accumulator. -/
def setAcc (c : GroupCore) (a : Nat) (es : List (Nat × Word)) : GroupCore :=
  { c with accs := tput c.accs a (es.foldl (fun t e => tput t e.1 e.2) (tgetD c.accs a [])) }

/-- Whether an outstanding operation holds one of these tiles or accumulators (02 R44). -/
def tileBusy (g : Group) (ts accs : List Nat) : Bool :=
  g.busy.any (fun b => ts.any (fun t => b.tiles.contains t) || accs.any (fun a => b.accs.contains a))

/-- An instruction over tiles and accumulators waits while one of them is held (02 R44); an operation that takes time
holds its own until MATRIX_OPERATION_COMPLETE. -/
def withTiles (ts accs : List Nat) (holds : Bool) (body : In → Work → Work) (i : In) (w : Work) : Work :=
  if tileBusy i.g ts accs then { w with stall := true }
  else
    let w1 := body i w
    if holds && w1.fates.isEmpty && !w1.retry then
      { w1 with nextId := w1.nextId + 1, g := { w1.g with busy := w1.g.busy ++ [{ op := w1.nextId, tiles := ts, accs := accs }] } }
    else w1

/-! ### Elements (17 R326, R327, R330) -/

/-- The formats of A and B by type; none for the INT8 types (04 R83). -/
def mmaFormats (k : Nat) : Option (Fmt × Fmt) :=
  match k with
  | 0 => some (.e4m3, .e4m3)
  | 1 => some (.e4m3, .e5m2)
  | 2 => some (.e5m2, .e4m3)
  | 3 => some (.e5m2, .e5m2)
  | 4 => some (.e2m1, .e2m1)
  | 5 => some (.bf16, .bf16)
  | 6 => some (.fp16, .fp16)
  | 9 => some (.e4m3, .e4m3)
  | 10 => some (.e2m1, .e2m1)
  | _ => none

/-- The element width in bits. -/
def mmaWidth (k : Nat) : Nat := if k == 4 || k == 10 then 4 else if k == 5 || k == 6 then 16 else 8

/-- The elements of a block and the blocks of a type (17 R330). -/
def mmaBlock (k : Nat) : Nat := if k == 5 || k == 6 then 16 else 32

/-- The number of blocks. -/
def mmaBlocks (k : Nat) : Nat := if k == 4 || k == 10 then 2 else 1

/-- Element k of a row of A, from its eight words (17 R327). -/
def aElem (width : Nat) (row : List Word) (k : Nat) : Nat :=
  match width with
  | 4 => (row.getD (k / 8) 0#32).toNat / 2 ^ (4 * (k % 8)) % 2 ^ 4
  | 16 => (row.getD (k / 2) 0#32).toNat / 2 ^ (16 * (k % 2)) % 2 ^ 16
  | _ => (row.getD (k / 4) 0#32).toNat / 2 ^ (8 * (k % 4)) % 2 ^ 8

/-- Element (k, c) of a tile (17 R326). -/
def bElem (width : Nat) (t : Tile) (k c : Nat) : Nat :=
  match width with
  | 4 => tileByte t (64 * (k / 2) + c) / 2 ^ (4 * (k % 2)) % 2 ^ 4
  | 16 => tileByte t (2 * (64 * k + c)) + 256 * tileByte t (2 * (64 * k + c) + 1)
  | _ => tileByte t (64 * k + c)

/-- An 8-bit number in two's complement. -/
def int8 (v : Nat) : Int := if v < 128 then v else (v : Int) - 256

/-! ### Block sums and accumulation (17 R331) -/

/-- A block sum: its value and whether it signalled invalid. -/
structure BlockSum where
  val : Fp
  invalid : Bool := false
  deriving DecidableEq, Repr

/-- The truncation of the products of 16-bit types 60 binary places below the greatest (17 R331). -/
def truncProducts (ps : List (Bool × Nat × Int)) : List (Bool × Nat × Int) :=
  let lgs := (ps.filter (fun p => p.2.1 != 0)).map (fun p => (Nat.log2 p.2.1 : Int) + p.2.2)
  match lgs with
  | [] => ps
  | l :: rest =>
    let cut := rest.foldl max l - 60
    ps.map (fun p => if p.2.2 < cut then (p.1, p.2.1 / 2 ^ (cut - p.2.2).toNat, cut) else p)

/-- The exact sum of finite terms as a value. -/
def sumExact (ts : List (Bool × Nat × Int)) : Fp :=
  match ts with
  | [] => .fin false 0 0
  | t0 :: rest =>
    let e0 := rest.foldl (fun a t => min a t.2.2) t0.2.2
    let v := ts.foldl (fun (a : Int) t => a + scaled t.1 t.2.1 t.2.2 e0) 0
    .fin (decide (v < 0)) v.natAbs e0

/-- BSUM (17 R331) over the pairs of a block with the scale codes of row and column. -/
def blockSum (trunc : Bool) (pairs : List (Fp × Fp)) (sa sb : Nat) : BlockSum :=
  let snan := pairs.any (fun p => isSnan p.1 || isSnan p.2)
  if pairs.any (fun p => isNan p.1 || isNan p.2) || sa == 255 || sb == 255 then { val := .nan false, invalid := snan }
  else
    let ps := pairs.map (fun p => mulExact p.1 p.2)
    if ps.any (fun p => p.isNone) then { val := .nan false, invalid := true }
    else
      let vs := ps.filterMap id
      let infs := vs.filterMap (fun v => match v with | .inf n => some n | _ => none)
      match infs with
      | n :: rest => if rest.all (fun k => k == n) then { val := .inf n } else { val := .nan false, invalid := true }
      | [] =>
        let ts := vs.filterMap (fun v => match v with | .fin n m e => some (n, m, e) | _ => none)
        { val := scaleFp (sumExact (if trunc then truncProducts ts else ts)) ((sa : Int) + sb - 254) }

/-- The outcome of one ACCUM: the bits, whether it wrote them, overflow, underflow, invalid. -/
structure Accum where
  val : Word
  wrote : Bool := false
  overflow : Bool := false
  underflow : Bool := false
  invalid : Bool := false
  deriving DecidableEq, Repr

/-- ACCUM (17 R331). -/
def accum (x : Word) (b : BlockSum) : Accum :=
  let v := fpOf x
  let inv := b.invalid || isSnan v
  if isNan v || isNan b.val then { val := 0x7FC00000#32, wrote := true, invalid := inv }
  else
    match b.val, v with
    | .inf n, .inf k =>
      if n == k then { val := x, wrote := true } else { val := 0x7FC00000#32, wrote := true, invalid := true }
    | .inf n, _ => { val := outWord (infOut .fp32 n), wrote := true }
    | _, .inf _ => { val := x }
    | .fin _ 0 _, _ => { val := x }
    | s, _ =>
      let o := addTerms .fp32 .rne false [v, s]
      { val := outWord o, wrote := true, overflow := o.counts.contains 2, underflow := o.counts.contains 3 }

/-- An element after the ACCUMs of an MMA, and its counts (17 R331). -/
def mmaElem (x : Word) (bs : List BlockSum) : Option Word × List Nat :=
  let as := bs.foldl (fun (acc : List Accum × Word) b =>
    let a := accum acc.2 b
    (acc.1 ++ [a], a.val)) ([], x)
  if as.1.any (·.wrote) then
    (some as.2,
      (match fpOf as.2 with
        | .nan _ => [0]
        | .inf _ => [1]
        | .fin _ _ _ => []) ++ (if as.1.any (·.overflow) then [2] else []) ++ (if as.1.any (·.underflow) then [3] else []) ++
      (if as.1.any (·.invalid) then [27] else []))
  else (none, [])

/-! ### MMA (17 R328-R333) -/

/-- The operands of an MMA. -/
structure MmaArgs where
  acc : Nat
  base : Nat
  tile : Nat
  reuse : Bool
  row : Nat
  col : Nat
  type : Nat
  scale : Option Nat
  deriving DecidableEq, Repr

/-- The active columns (17 R329): the mask pair as it is read. -/
def mmaCols (i : In) (m : MmaArgs) : List Nat :=
  let mask := dword (readS i.g.regs m.col).1 (readS i.g.regs (m.col + 1)).1
  (upto 64).filter (fun c => mask.getLsbD c)

/-- The active rows (17 R329). -/
def mmaRows (i : In) (m : MmaArgs) : List Nat := i.lanes.filter (fun l => (readP i.g.regs l m.row).1)

/-- The eight words of a row of A. -/
def mmaRow (i : In) (m : MmaArgs) (l : Nat) : List Word := (upto 8).map (fun k => (readV i.g.regs l (m.base + k)).1)

/-- The element of an active row and column: its new bits when it is written, and its counts. -/
def mmaAt (i : In) (m : MmaArgs) (l c : Nat) : Option Word × List Nat :=
  let row := mmaRow i m l
  let w := mmaWidth m.type
  let n := mmaBlock m.type
  let t := tileAt i.g.regs m.tile
  let x := accElem i.g.regs m.acc l c
  match mmaFormats m.type with
  | none =>
    let s := (upto 32).foldl (fun (a : Int) k =>
      let av := aElem w row k
      a + (if m.type = 8 then (av : Int) else int8 av) * int8 (bElem w t k c)) 0
    (some (wrap32 (sval x + s)), [])
  | some (fa, fb) =>
    let sc := match m.scale with
      | some a => (readV i.g.regs l a).1.toNat
      | none => 127 + 127 * 256
    mmaElem x ((upto (mmaBlocks m.type)).map (fun b =>
      let sa := sc / 2 ^ (8 * b) % 256
      let sb := if m.scale.isSome then sideByte (tileAt i.g.regs (m.tile + b)) c else 127
      blockSum (w == 16) ((upto n).map (fun k =>
        (decodeFp fa (aElem w row (n * b + k)), decodeFp fb (bElem w t (n * b + k) c)))) sa sb))

/-- The generation tags of the fragment's registers in every lane (17 R333). -/
def mmaTags (i : In) (m : MmaArgs) : List Nat :=
  i.lanes.flatMap (fun l => (upto 8).map (fun k => (vreg i.g.regs l (m.base + k)).tag))

/-- The A latch that an MMA loads (17 R333); it never changes a result. -/
def mmaLatch (i : In) (m : MmaArgs) : ALatch :=
  { group := i.gid, abase := m.base, width := mmaWidth m.type, tags := mmaTags i m,
    fragment := i.lanes.flatMap (fun l => mmaRow i m l) }

/-- The effect of an MMA on its accumulator, its counts and the latch (17 R329-R333). -/
def mmaBody (m : MmaArgs) (i : In) (w : Work) : Work :=
  if (liveLanes i.g.regs).any (fun l => !i.lanes.contains l) then
    { setFates w i.lanes (.trap 2 0#32) with illegal := true, hazard := false }
  else
    let rows := mmaRows i m
    let cells := rows.flatMap (fun l => (mmaCols i m).map (fun c => (64 * l + c, mmaAt i m l c)))
    let regs := (upto 8).map (fun k => m.base + k) ++ m.scale.toList
    let hz := rows.any (fun l => regs.any (fun r => (readV i.g.regs l r).2))
    let w1 := onRegs { w with hazard := w.hazard || hz } (fun c =>
      setAcc c m.acc (cells.filterMap (fun e => e.2.1.map (fun v => (e.1, v)))))
    let w2 := addEffs w1 (cells.flatMap (fun e => e.2.2.map (fun k => Eff.count k 1)))
    { w2 with core := { w2.core with latch := some (mmaLatch i m) } }

/-- MMA (17 R328): acc, A base divided by 8, tile, reuse, row predicate, column-mask pair, type. -/
def execMma (sw : Bool) (a : BitVec 4) (b : BitVec 3) (t : BitVec 4) (r : BitVec 1) (p : BitVec 3) (c : BitVec 4)
    (k : BitVec 4) (s : State) : Host.Outcome State Fault Refusal :=
  let scaledType := k.toNat == 9 || k.toNat == 10
  let aux := auxField s.issue.hints
  let m : MmaArgs :=
    { acc := a.toNat, base := 8 * b.toNat, tile := t.toNat, reuse := r = 1#1, row := p.toNat, col := 2 * c.toNat,
      type := k.toNat, scale := if scaledType then aux else none }
  let ts := if k.toNat == 10 then [t.toNat, t.toNat + 1] else [t.toNat]
  groupOnly s { sw := sw, v := [8 * b.toNat + 7], u := [2 * c.toNat + 1], t := ts, a := [a.toNat], pr := [p.toNat],
                ur := [2 * c.toNat, 2 * c.toNat + 1], guarded := false,
                illegal := scaledType && aux.isNone }
    (withTiles ts [a.toNat] true (mmaBody m))

end Sys2Proof.Machine
end

