-- ==== Sys2Proof/Machine/Move.lean ====
section
/-! DEFINITION. Compares, moves, selects, predicate logic, identifiers and state registers, majors 8 and 12 (05
R100-R109, 02 R37-R39, R49-R51). -/

namespace Sys2Proof.Machine

/-! ### ICMP (05 R100, R101) -/

/-- A compare: the condition combined into a predicate. -/
def compareXY (sw : Bool) (c p : BitVec 3) (x y : Src) (s : State) (f : Word → Word → Bool) :
    Host.Outcome State Fault Refusal :=
  groupOrControl s { sw := sw, x := some x, y := some y, pr := if c.toNat = 0 then [] else [p.toNat] }
    (fun i => regsBody (writePreds p.toNat (fun l =>
      combine c.toNat (readP i.g.regs l p.toNat).1 (f (xVal i l) (yVal i l)))) i)
    (fun i => { ctl := setCtlPred (ctlNext i) p.toNat (combine c.toNat (ctlPred i.ctl p.toNat) (f i.x i.y)) })

/-- ICMP.EQ (05 R101): equal. -/
def execIcmpEq (sw : Bool) (c p : BitVec 3) (x y : Src) (s : State) : Host.Outcome State Fault Refusal :=
  compareXY sw c p x y s (fun a b => a == b)

/-- ICMP.NE (05 R101): not equal. -/
def execIcmpNe (sw : Bool) (c p : BitVec 3) (x y : Src) (s : State) : Host.Outcome State Fault Refusal :=
  compareXY sw c p x y s (fun a b => a != b)

/-- ICMP.LT (05 R101): signed below. -/
def execIcmpLt (sw : Bool) (c p : BitVec 3) (x y : Src) (s : State) : Host.Outcome State Fault Refusal :=
  compareXY sw c p x y s (fun a b => decide (sval a < sval b))

/-- ICMP.LE (05 R101): signed below or equal. -/
def execIcmpLe (sw : Bool) (c p : BitVec 3) (x y : Src) (s : State) : Host.Outcome State Fault Refusal :=
  compareXY sw c p x y s (fun a b => decide (sval a ≤ sval b))

/-- ICMP.GT (05 R101): signed above. -/
def execIcmpGt (sw : Bool) (c p : BitVec 3) (x y : Src) (s : State) : Host.Outcome State Fault Refusal :=
  compareXY sw c p x y s (fun a b => decide (sval b < sval a))

/-- ICMP.GE (05 R101): signed above or equal. -/
def execIcmpGe (sw : Bool) (c p : BitVec 3) (x y : Src) (s : State) : Host.Outcome State Fault Refusal :=
  compareXY sw c p x y s (fun a b => decide (sval b ≤ sval a))

/-- ICMP.LTN (05 R101): unsigned below. -/
def execIcmpLtn (sw : Bool) (c p : BitVec 3) (x y : Src) (s : State) : Host.Outcome State Fault Refusal :=
  compareXY sw c p x y s (fun a b => decide (a.toNat < b.toNat))

/-- ICMP.LEN (05 R101): unsigned below or equal. -/
def execIcmpLen (sw : Bool) (c p : BitVec 3) (x y : Src) (s : State) : Host.Outcome State Fault Refusal :=
  compareXY sw c p x y s (fun a b => decide (a.toNat ≤ b.toNat))

/-- ICMP.GTN (05 R101): unsigned above. -/
def execIcmpGtn (sw : Bool) (c p : BitVec 3) (x y : Src) (s : State) : Host.Outcome State Fault Refusal :=
  compareXY sw c p x y s (fun a b => decide (b.toNat < a.toNat))

/-- ICMP.GEN (05 R101): unsigned above or equal. -/
def execIcmpGen (sw : Bool) (c p : BitVec 3) (x y : Src) (s : State) : Host.Outcome State Fault Refusal :=
  compareXY sw c p x y s (fun a b => decide (b.toNat ≤ a.toNat))

/-- ICMP.FEQ (05 R101): FP32 ordered and equal. -/
def execIcmpFeq (sw : Bool) (c p : BitVec 3) (x y : Src) (s : State) : Host.Outcome State Fault Refusal :=
  compareXY sw c p x y s (fun a b => fpCond a b false true)

/-- ICMP.FNE (05 R101): FP32 unordered or not equal. -/
def execIcmpFne (sw : Bool) (c p : BitVec 3) (x y : Src) (s : State) : Host.Outcome State Fault Refusal :=
  compareXY sw c p x y s (fun a b => !fpCond a b false true)

/-- ICMP.FLT (05 R101): FP32 ordered and below. -/
def execIcmpFlt (sw : Bool) (c p : BitVec 3) (x y : Src) (s : State) : Host.Outcome State Fault Refusal :=
  compareXY sw c p x y s (fun a b => fpCond a b true false)

/-- ICMP.FLE (05 R101): FP32 ordered and below or equal. -/
def execIcmpFle (sw : Bool) (c p : BitVec 3) (x y : Src) (s : State) : Host.Outcome State Fault Refusal :=
  compareXY sw c p x y s (fun a b => fpCond a b true true)

/-- ICMP.FUNO (05 R101): FP32 unordered. -/
def execIcmpFuno (sw : Bool) (c p : BitVec 3) (x y : Src) (s : State) : Host.Outcome State Fault Refusal :=
  compareXY sw c p x y s (fun a b => unordered a b)

/-- ICMP.FORD (05 R101): FP32 ordered. -/
def execIcmpFord (sw : Bool) (c p : BitVec 3) (x y : Src) (s : State) : Host.Outcome State Fault Refusal :=
  compareXY sw c p x y s (fun a b => !unordered a b)

/-! ### Moves and predicates (05 R102, R103) -/

/-- MOV (05 R102): a vector move. -/
def execMov (sw : Bool) (d : BitVec 6) (x : Src) (s : State) : Host.Outcome State Fault Refusal :=
  groupOrControl s { sw := sw, x := some x, v := [d.toNat] }
    (fun i => regsBody (writeLanes d.toNat (fun l => xVal i l)) i)
    (fun i => { ctl := setCtlReg (ctlNext i) d.toNat i.x })

/-- VFROMS (05 R102): a uniform register to every active lane. -/
def execVfroms (sw : Bool) (d : BitVec 6) (x : Src) (s : State) : Host.Outcome State Fault Refusal :=
  groupOnly s { sw := sw, sx := some x, v := [d.toNat] }
    (fun i => regsBody (writeLanes d.toNat (fun _ => sxVal i)) i)

/-- SFROMV (05 R103): x of the lowest active lane to a uniform register; nothing with no active lane. -/
def execSfromv (sw : Bool) (d : BitVec 6) (x : Src) (s : State) : Host.Outcome State Fault Refusal :=
  groupOnly s { sw := sw, x := some x, u := [d.toNat], low := true }
    (fun i => regsBody (writeOnce d.toNat (xVal i (i.act.headD 0))) i)

/-- SEL (05 R103): x or y by the selector, p0 without a HINT.MOD, in every lane. -/
def execSel (sw : Bool) (d : BitVec 6) (x y : Src) (s : State) : Host.Outcome State Fault Refusal :=
  let k := predField s.issue.hints 0
  groupOrControl s { sw := sw, x := some x, y := some y, v := [d.toNat], pr := [k], guarded := false }
    (fun i => regsBody (writeLanes d.toNat (fun l =>
      if (readP i.g.regs l k).1 then xVal i l else yVal i l)) i)
    (fun i => { ctl := setCtlReg (ctlNext i) d.toNat (if ctlPred i.ctl k then i.x else i.y) })

/-- Predicate logic of two sources (05 R102). -/
def predXY (sw : Bool) (d x y : BitVec 3) (s : State) (f : Bool → Bool → Bool) : Host.Outcome State Fault Refusal :=
  groupOrControl s { sw := sw, pr := [x.toNat, y.toNat] }
    (fun i => regsBody (writePreds d.toNat (fun l =>
      f (readP i.g.regs l x.toNat).1 (readP i.g.regs l y.toNat).1)) i)
    (fun i => { ctl := setCtlPred (ctlNext i) d.toNat (f (ctlPred i.ctl x.toNat) (ctlPred i.ctl y.toNat)) })

/-- PAND (05 R102). -/
def execPand (sw : Bool) (d x y : BitVec 3) (s : State) : Host.Outcome State Fault Refusal :=
  predXY sw d x y s (fun a b => a && b)

/-- POR (05 R102). -/
def execPor (sw : Bool) (d x y : BitVec 3) (s : State) : Host.Outcome State Fault Refusal :=
  predXY sw d x y s (fun a b => a || b)

/-- PXOR (05 R102). -/
def execPxor (sw : Bool) (d x y : BitVec 3) (s : State) : Host.Outcome State Fault Refusal :=
  predXY sw d x y s (fun a b => a != b)

/-- PNOT (05 R102). -/
def execPnot (sw : Bool) (d x : BitVec 3) (s : State) : Host.Outcome State Fault Refusal :=
  predXY sw d x x s (fun a _ => !a)

/-- PTOV (05 R102): a predicate as 0 or 1. -/
def execPtov (sw : Bool) (d : BitVec 6) (x : BitVec 3) (s : State) : Host.Outcome State Fault Refusal :=
  groupOnly s { sw := sw, v := [d.toNat], pr := [x.toNat] }
    (fun i => regsBody (writeLanes d.toNat (fun l => boolWord (readP i.g.regs l x.toNat).1)) i)

/-- VTOP (05 R102): 1 where the value is not 0. -/
def execVtop (sw : Bool) (d : BitVec 3) (x : Src) (s : State) : Host.Outcome State Fault Refusal :=
  groupOnly s { sw := sw, x := some x }
    (fun i => regsBody (writePreds d.toNat (fun l => xVal i l != 0#32)) i)

/-! ### Identifiers (02 R37-R39, 05 R104) -/

/-- An identifier of a lane by its code (02 R37, R38). -/
def identifier (i : In) (code lane : Nat) : Word :=
  let x := laneAt i.g.regs lane
  let n := fun (v : Nat) => BitVec.ofNat 32 v
  match code with
  | 0 => n lane
  | 1 => n i.l.alloc.w
  | 2 => n x.ltid
  | 3 => n i.g.index
  | 4 => n i.t.index
  | 5 => n i.t.gang
  | 6 => n (i.t.gang % i.l.grid.1)
  | 7 => n (i.t.gang / i.l.grid.1 % i.l.grid.2.1)
  | 8 => n (i.t.gang / i.l.grid.1 / i.l.grid.2.1)
  | 9 => n i.t.gangSize
  | 10 => n i.t.logicalCore
  | 11 => n i.t.logicalCluster
  | 12 => n i.l.number
  | 13 => x.arg
  | 14 => x.parent
  | 15 =>
    if x.ltid < i.l.groups * i.l.alloc.w then n ((i.t.gang * 64 + i.t.index) * 4096 + x.ltid) else 0xFFFFFFFF#32
  | _ =>
    let k := coreIndex i.g i.t
    n ((i.t.logicalCore + k) * Config.localBytes + i.t.vbase.getD k 0)

/-- RDID (05 R104): each active lane receives its own identifier. -/
def execRdid (sw : Bool) (d : BitVec 6) (c : BitVec 8) (s : State) : Host.Outcome State Fault Refusal :=
  groupOnly s { sw := sw, v := [d.toNat] }
    (fun i => regsBody (writeLanes d.toNat (fun l => identifier i c.toNat l)) i)

/-! ### State registers (02 R49-R51, 05 R105, R106) -/

/-- The team-scoped state registers (05 R106). -/
def teamScoped (n : Nat) : Bool := decide (n ≤ 4) || (decide (8 ≤ n) && decide (n ≤ 11)) || n == 17

/-- config (02 R51): the configuration of the device and the partition of the group. -/
def configWord (s : State) (l : Launch) : Word :=
  let d := s.dev
  let num := d.coresCode * 9 + d.latCode * 3 + d.stackCode
  let clusters := (((tget s.parts l.part).map (fun p => p.clusters.length)).getD 1) - 1
  BitVec.ofNat 32 (num * 2 ^ 16 + d.coresCode * 2 ^ 14 + d.latCode * 2 ^ 12 + d.stackCode * 2 ^ 10 +
    clusters * 2 ^ 6 + 7 * 2 ^ 3 + d.stepping % 8)

/-- The partition's boundary count (08 R163). -/
def boundaryCount (s : State) (l : Launch) : Nat := ((tget s.parts l.part).map (·.boundary)).getD 0

/-- The bits of fpctl that a read returns (14 R285). -/
def fpctlMask : Word := 0x00003F07#32

/-- The value that RDST writes in a lane (05 R105): the low-first latch serves numbers 7 and 20 (02 R50). -/
def stateReg (i : In) (n lane : Nat) : Word :=
  let x := laneAt i.g.regs lane
  let lo := fun (v : Nat) => BitVec.ofNat 32 v
  let hi := fun (v : Nat) => BitVec.ofNat 32 (v / 2 ^ 32)
  if n == 4 then viewReg i.g i.t 4 &&& fpctlMask
  else if teamScoped n then viewReg i.g i.t n
  else
    match n with
    | 5 => lo i.l.chunkq
    | 6 => lo (boundaryCount i.s i.l)
    | 7 => x.latchPhase.getD (hi (boundaryCount i.s i.l))
    | 12 => lo i.g.regs.trap.cause
    | 13 => i.g.regs.trap.pc
    | 14 => loWord i.g.regs.trap.done
    | 15 => hiWord i.g.regs.trap.done
    | 16 => i.g.regs.trap.addr
    | 18 => configWord i.s i.l
    | 19 => lo i.s.cycle
    | 20 => x.latchCycle.getD (hi i.s.cycle)
    | _ => 0#32

/-- The latches that a read of a low or high word leaves in a lane (02 R50). -/
def latchAfter (i : In) (n : Nat) (x : Lane) : Lane :=
  match n with
  | 6 => { x with latchPhase := some (BitVec.ofNat 32 (boundaryCount i.s i.l / 2 ^ 32)) }
  | 7 => { x with latchPhase := none }
  | 19 => { x with latchCycle := some (BitVec.ofNat 32 (i.s.cycle / 2 ^ 32)) }
  | 20 => { x with latchCycle := none }
  | _ => x

/-- RDST (05 R105): a state register to every active lane; a team-scoped one is a signature access (05 R106). -/
def execRdst (sw : Bool) (d : BitVec 6) (n : BitVec 8) (s : State) : Host.Outcome State Fault Refusal :=
  groupOnly s { sw := sw, v := [d.toNat] }
    (fun i w =>
      let w1 := if teamScoped n.toNat && !i.act.isEmpty then access w [teamInput i.t n.toNat] [] else w
      onRegs (regsBody (writeLanes d.toNat (fun l => stateReg i n.toNat l)) i w1) (fun c =>
        i.act.foldl (fun c l => setLane c l (latchAfter i n.toNat (laneAt c l))) c))

/-- WRST (05 R105): y of the lowest active lane to a team register, effective at commit (02 R50, 05 R106). -/
def execWrst (sw : Bool) (n : BitVec 8) (y : Src) (s : State) : Host.Outcome State Fault Refusal :=
  groupOnly s { sw := sw, y := some y, low := true }
    (fun i w =>
      match i.act with
      | [] => w
      | l :: _ =>
        let w1 := access w [] [teamInput i.t n.toNat]
        addEffs (onRegs w1 (releaseSources i i.act)) [.wrst n.toNat (yVal i l)])

/-- CLOCK (05 R107): the low word of the cycle counter. -/
def execClock (sw : Bool) (d : BitVec 6) (s : State) : Host.Outcome State Fault Refusal :=
  groupOrControl s { sw := sw, v := [d.toNat] }
    (fun i => regsBody (writeLanes d.toNat (fun _ => BitVec.ofNat 32 i.s.cycle)) i)
    (fun i => { ctl := setCtlReg (ctlNext i) d.toNat (BitVec.ofNat 32 i.s.cycle) })

/-- ADR (05 R108): an instruction address relative to the run. -/
def execAdr (sw : Bool) (d : BitVec 6) (o : BitVec 16) (s : State) : Host.Outcome State Fault Refusal :=
  groupOnly s { sw := sw, v := [d.toNat] }
    (fun i => regsBody (writeLanes d.toNat (fun _ => i.runPc + wrap32 (4 * o.toInt))) i)

/-- NOP (05 R109): no effect other than to retire. -/
def execNop (sw : Bool) (s : State) : Host.Outcome State Fault Refusal :=
  groupOrControl s { sw := sw, guarded := false } (fun _ w => w) (fun i => { ctl := ctlNext i })

end Sys2Proof.Machine
end

