-- ==== Sys2Proof/Machine/Rng.lean ====
section
/-! DEFINITION. Random numbers and stochastic rounding, major 24 (16 R314-R318). -/

namespace Sys2Proof.Machine

/-- CHX under the team's key with a counter of high and low word (16 R315). -/
def teamChx (i : In) (hi lo : Word) : Word := chx (viewReg i.g i.t 1) (viewReg i.g i.t 0) hi lo

/-- The pseudo-address words of the key, and of the stream when it is read (16 R315). -/
def keyInputs (i : In) (stream : Bool) : List Nat :=
  if i.act.isEmpty then []
  else [teamInput i.t 0, teamInput i.t 1] ++ (if stream then [teamInput i.t 2] else [])

/-- A random number of each active lane, as an outstanding vector result. -/
def rngLanes (sw : Bool) (d : BitVec 6) (x : Src) (y : Option Src) (s : State) (stream : Bool) (f : In → Nat → Word) :
    Host.Outcome State Fault Refusal :=
  groupOnly s { sw := sw, x := some x, y := y, v := [d.toNat] }
    (fun i w => flyLanes d.toNat (f i) i (onRegs (access w (keyInputs i stream) []) (releaseSources i i.act)))

/-- The draw of a lane with the stream word (16 R316). -/
def draw (i : In) (l : Nat) : Word := teamChx i (viewReg i.g i.t 2) (xVal i l)

/-- RNG (16 R316). -/
def execRng (sw : Bool) (d : BitVec 6) (x : Src) (s : State) : Host.Outcome State Fault Refusal :=
  rngLanes sw d x none s true draw

/-- RNG2 (16 R316): y in place of the stream. -/
def execRng2 (sw : Bool) (d : BitVec 6) (x y : Src) (s : State) : Host.Outcome State Fault Refusal :=
  rngLanes sw d x (some y) s false (fun i l => teamChx i (yVal i l) (xVal i l))

/-- The FP32 value of a draw in [0, 1) (16 R316). -/
def unifOf (h : Word) : Word :=
  let m := h.toNat / 2 ^ 8
  if m = 0 then 0#32 else BitVec.ofNat 32 (roundTo .fp32 .rne false false m (-24) false).code

/-- UNIF (16 R316). -/
def execUnif (sw : Bool) (d : BitVec 6) (x : Src) (s : State) : Host.Outcome State Fault Refusal :=
  rngLanes sw d x none s true (fun i l => unifOf (draw i l))

/-- BERN (16 R316): 1 with probability y / 2^32. -/
def execBern (sw : Bool) (d : BitVec 6) (x y : Src) (s : State) : Host.Outcome State Fault Refusal :=
  rngLanes sw d x (some y) s true (fun i l => boolWord (decide ((draw i l).toNat < (yVal i l).toNat)))

/-- BERNP (16 R316): as BERN, to a predicate. -/
def execBernp (sw : Bool) (d : BitVec 3) (x y : Src) (s : State) : Host.Outcome State Fault Refusal :=
  groupOnly s { sw := sw, x := some x, y := some y }
    (fun i w =>
      let w1 := onRegs (access w (keyInputs i true) []) (releaseSources i i.act)
      i.act.foldl (fun w l =>
        flyOut w 2 (8 * l + d.toNat) (boolWord (decide ((draw i l).toNat < (yVal i l).toNat)))) w1)

/-- SR of 16 R318 for a finite value: the magnitude rounds away from zero with the probability of its discarded part. -/
def stochastic (f : Fmt) (neg : Bool) (m : Nat) (e : Int) (r : Nat) (satf : Bool) : FpOut :=
  if m = 0 then zeroOut f neg
  else
    let lg : Int := (Nat.log2 m : Int) + e
    let ue := max lg f.emin - f.frac
    let exact := decide (ue ≤ e) || decide (m % 2 ^ (ue - e).toNat = 0)
    let q := if ue ≤ e then m * 2 ^ (e - ue).toNat else m / 2 ^ (ue - e).toNat
    let t := if ue ≤ e then 0 else m % 2 ^ (ue - e).toNat * 2 ^ 16 / 2 ^ (ue - e).toNat
    let code := (if 2 ^ 16 ≤ t + r then q + 1 else q) + (ue - (f.emin - f.frac)).toNat * 2 ^ f.frac
    let k := 4 * f.index
    if code > f.maxCode then
      { code := withSign f neg (if satf then f.maxCode else f.maxCode + 1),
        counts := if satf then [k + 2] else [k + 1, k + 2], overflow := !satf }
    else { code := withSign f neg code, counts := if lg < f.emin && !exact then [k + 3] else [] }

/-- A NaN result of a stochastic conversion: a signalling source signals invalid (16 R317, R318). -/
def srNan (f : Fmt) (sig : Bool) (code : Nat) : FpOut :=
  { code := code, counts := 4 * f.index :: (if sig then [27] else []), invalid := sig }

/-- SRBF of a word (16 R317). -/
def srBf (sat : Bool) (x y : Word) : FpOut :=
  match fpOf x with
  | .nan sg => srNan .bf16 sg ((x.toNat / 2 ^ 16) ||| 0x40)
  | .inf n => infOut .bf16 n
  | .fin n m e => stochastic .bf16 n m e (y.toNat % 2 ^ 16) sat

/-- SRF16 of a word (16 R318). -/
def srF16 (sat : Bool) (x y : Word) : FpOut :=
  match fpOf x with
  | .nan sg => srNan .fp16 sg (x.toNat / 2 ^ 31 * 2 ^ 15 + 0x7E00 + x.toNat / 2 ^ 13 % 2 ^ 9)
  | .inf n => infOut .fp16 n
  | .fin n m e => stochastic .fp16 n m e (y.toNat % 2 ^ 16) sat

/-- SRE4 and SRE5 of a word (16 R318): always saturating, with the scale of y. -/
def srE (f : Fmt) (x y : Word) : FpOut :=
  let scale : Nat := y.toNat / 2 ^ 16 % 2 ^ 8
  match fpOf x with
  | .nan sg => srNan f sg f.nanCode
  | .inf n => if scale = 255 then nanOut f else { code := withSign f n f.maxCode, counts := [4 * f.index + 2] }
  | .fin n m e => if scale = 255 then nanOut f else stochastic f n m (e + 127 - (scale : Int)) (y.toNat % 2 ^ 16) true

/-- A stochastic conversion: its result is outstanding, its counts and traps those of 14. -/
def srLanes (sw : Bool) (d : BitVec 6) (x y : Src) (s : State) (amax : Bool) (op : Bool → Word → Word → FpOut) :
    Host.Outcome State Fault Refusal :=
  groupOnly s { sw := sw, x := some x, y := some y, v := [d.toNat] }
    (fun i => fpLanes (fun l => op (satField i.hints) (xVal i l) (yVal i l)) amax (putLate d.toNat) i)

/-- SRBF (16 R317). -/
def execSrbf (sw : Bool) (d : BitVec 6) (x y : Src) (s : State) : Host.Outcome State Fault Refusal :=
  srLanes sw d x y s false srBf

/-- SRF16 (16 R318). -/
def execSrf16 (sw : Bool) (d : BitVec 6) (x y : Src) (s : State) : Host.Outcome State Fault Refusal :=
  srLanes sw d x y s false srF16

/-- SRE4 (16 R318). -/
def execSre4 (sw : Bool) (d : BitVec 6) (x y : Src) (s : State) : Host.Outcome State Fault Refusal :=
  srLanes sw d x y s true (fun _ a b => srE .e4m3 a b)

/-- SRE5 (16 R318). -/
def execSre5 (sw : Bool) (d : BitVec 6) (x y : Src) (s : State) : Host.Outcome State Fault Refusal :=
  srLanes sw d x y s true (fun _ a b => srE .e5m2 a b)

end Sys2Proof.Machine
end

