-- ==== Sys2Proof/Machine/Sample.lean ====
section
/-! DEFINITION. Sampling instructions, major 25 (16 R319-R323). -/

namespace Sys2Proof.Machine

/-- The parameter record (16 R319). -/
structure SampRec where
  n : Nat
  temp : Word
  topK : Nat
  topP : Word
  ctr : Word
  out : Word
  deriving DecidableEq, Repr

/-- The record in 32 bytes. -/
def sampRec (bs : List Byte) : SampRec :=
  { n := (wordAt 0 bs).toNat, temp := wordAt 1 bs, topK := (wordAt 2 bs).toNat, topP := wordAt 3 bs,
    ctr := wordAt 4 bs, out := wordAt 5 bs }

/-- A request's effect: its result, the trap that replaces it, counts, line inputs read and written, and a store. -/
structure SampOut where
  val : Word := 0#32
  trap : Option (Nat × Word) := none
  counts : List (Nat × Nat) := []
  reads : List Nat := []
  writes : List Nat := []
  store : Option (Nat × List Byte) := none
  deriving Repr

/-- The logits as values; a NaN counts as minus infinity (16 R320). -/
def logitsOf (ws : List Word) : List Fp :=
  ws.map (fun w => if isNan (fpOf w) then .inf true else fpOf w)

/-- The original indices in descending order of value, ties to the lower index (16 R320). -/
def sigmaOf (ls : List Fp) : List (Nat × Fp) :=
  sortBy (fun a b => fpLt b.2 a.2) ((upto ls.length).map (fun k => (k, ls.getD k (.inf true))))

/-- The exact difference of two finite values. -/
def fpDiff (x y : Fp) : Fp :=
  match x, y with
  | .fin n m e, .fin n' m' e' =>
    let e0 := min e e'
    let v := scaled n m e e0 - scaled n' m' e' e0
    .fin (decide (v < 0)) v.natAbs e0
  | a, _ => a

/-- e[j] of 16 R321. -/
def sampWeight (l0 lj s : Fp) : Word :=
  if fpEq lj l0 then 0x3F800000#32
  else if lj == .inf true || l0 == .inf false then 0#32
  else
    match mulExact (fpDiff lj l0) s with
    | some p => outWord (sfuExp2 .rne false (fpOf (outWord (deliver .fp32 .rne false p))))
    | none => 0#32

/-- c[0], c[1], ... of 16 R321. -/
def sampSums (es : List Word) : List Word :=
  (es.foldl (fun (acc : List Word × Option Word) e =>
    let c := match acc.2 with
      | none => e
      | some p => fadd32 p e
    (acc.1 ++ [c], some c)) ([], none)).1

/-- k' of 16 R321. -/
def topLimit (r : SampRec) : Nat := if r.topK = 0 || decide (r.topK > r.n) then r.n else r.topK

/-- The draw of 16 R321 over the sorted logits: the index chosen. -/
def sampPick (u : Word) (r : SampRec) (sg : List (Nat × Fp)) : Nat :=
  let l0 := (sg.head?.map (·.2)).getD (.inf true)
  let k := topLimit r
  let s := fpOf (outWord (fpDiv .fp32 .rne false (fpOf 0x3FB8AA3B#32) (fpOf r.temp)))
  let cs := sampSums ((sg.take k).map (fun e => sampWeight l0 e.2 s))
  let p := fpOf r.topP
  let theta := fpOf (outWord (fpMul .fp32 .rne false p (fpOf (cs.getD (k - 1) 0#32))))
  let n :=
    if isNan p || fpLt (fpOf 0x3F800000#32) p then k
    else (((upto k).find? (fun j => !fpLt (fpOf (cs.getD j 0#32)) theta)).map (fun j => j + 1)).getD k
  let target := fpOf (outWord (fpMul .fp32 .rne false (fpOf u) (fpOf (cs.getD (n - 1) 0#32))))
  let j := ((upto n).find? (fun j => fpLt target (fpOf (cs.getD j 0#32)))).getD (n - 1)
  ((sg[j]?).map (·.1)).getD 0

/-- The result of SAMPLE for a request whose logits have been read (16 R321): value, counts, invalid. -/
def sampleValue (i : In) (r : SampRec) (ls : List Fp) : Word × List (Nat × Nat) × Bool :=
  let t := fpOf r.temp
  let sg := sigmaOf ls
  let first := (sg.head?).getD (0, .inf true)
  if isNan t || fpLt t (.fin false 0 0) then (0xFFFFFFFF#32, [(27, 1)], true)
  else if first.2 == .inf true then (0#32, [(26, 1)], false)
  else if fpEq t (.fin false 0 0) then (BitVec.ofNat 32 first.1, [], false)
  else (BitVec.ofNat 32 (sampPick (unifOf (teamChx i (viewReg i.g i.t 2) r.ctr)) r sg), [], false)

/-- Which of the three instructions. -/
inductive SampKind where
  | sample
  | topk
  | argmax
  deriving DecidableEq, Repr

/-- One request of lane l in the view of group g, which holds the stores of the requests before it (16 R320-R323). A lane that
a later check traps has read its record, which says what was checked. -/
def sampRequest (i : In) (g : Group) (kind : SampKind) (l : Nat) : SampOut :=
  let ra := yVal i l
  match checkLocal i.s i.t i.l ra 32 32 with
  | .error e => { trap := some e }
  | .ok rp =>
    let r := sampRec (lmemBytes i.s g rp 32)
    let recLines := lineInputs ra.toNat 32
    if r.n = 0 || decide (r.n > 262144) then { val := 0xFFFFFFFF#32, reads := recLines }
    else
      let la := xVal i l
      match checkLocal i.s i.t i.l la (4 * r.n) 4 with
      | .error e => { trap := some e, reads := recLines }
      | .ok lp =>
        let ws := bytesWords r.n (lmemBytes i.s g lp (4 * r.n))
        let ls := logitsOf ws
        let nans := (ws.filter (fun w => isNan (fpOf w))).length
        let nanCount := if nans = 0 then [] else [(25, nans)]
        let reads := recLines ++ lineInputs la.toNat (4 * r.n)
        match kind with
        | .argmax =>
          { val := BitVec.ofNat 32 (((sigmaOf ls).head?.map (·.1)).getD 0), counts := nanCount, reads := reads }
        | .sample =>
          let v := sampleValue i r ls
          let traps := v.2.2 && (viewReg i.g i.t 4).getLsbD 0 && !(laneAt i.g.regs l).quiet
          if traps then { trap := some (7, 0#32), reads := reads }
          else { val := v.1, counts := nanCount ++ v.2.1, reads := reads }
        | .topk =>
          let k := min (topLimit r) 64
          match checkLocal i.s i.t i.l r.out (4 * k) 4 with
          | .error e => { trap := some e, reads := recLines }
          | .ok op =>
            { val := BitVec.ofNat 32 k, counts := nanCount, reads := reads, writes := lineInputs r.out.toNat (4 * k),
              store := some (op, ((sigmaOf ls).take k).flatMap (fun e => natLE 4 e.1)) }

/-- The requests in ascending lane order, each seeing the stores of those before it (16 R319). -/
def sampRequests (i : In) (kind : SampKind) : List (Nat × SampOut) × Group :=
  i.act.foldl (fun acc l =>
    let o := sampRequest i acc.2 kind l
    let g := match o.store with
      | some st => { acc.2 with cur := acc.2.cur.map (fun c => chunkStore c st.1 st.2) }
      | none => acc.2
    (acc.1 ++ [(l, o)], g)) ([], i.g)

/-- The signature inputs that requests read: their lines and, for SAMPLE, the key and the stream once a request has passed
the checks of its record (16 R315, R320, 09 R195). -/
def sampReads (i : In) (kind : SampKind) (rs : List (Nat × SampOut)) : List Nat :=
  let ls := rs.flatMap (fun e => e.2.reads)
  ls ++ (if kind == .sample && !ls.isEmpty then keyInputs i true else [])

/-- The requests that perform: those of no trap. -/
def sampGood (rs : List (Nat × SampOut)) : List (Nat × SampOut) := rs.filter (fun e => e.2.trap.isNone)

/-- The signature inputs that requests write. -/
def sampWrites (rs : List (Nat × SampOut)) : List Nat := (sampGood rs).flatMap (fun e => e.2.writes)

/-- The stores of requests, in a chunk. -/
def sampPut (rs : List (Nat × SampOut)) (k : Chunk) : Chunk :=
  (sampGood rs).foldl (fun k e =>
    match e.2.store with
    | some st => chunkStore k st.1 st.2
    | none => k) k

/-- SAMP (16 R319, R320): one request for each active lane, those that stand after a cut for the store buffer in the next
chunk (08 R174). -/
def sampLanes (sw : Bool) (d : BitVec 6) (x y : Src) (s : State) (kind : SampKind) : Host.Outcome State Fault Refusal :=
  groupOnly s { sw := sw, x := some x, y := some y, v := [d.toNat] }
    (fun i w =>
      let all := (sampRequests i kind).1
      let rs := performing i all (fun rs => accessFits i (sampReads i kind rs) (sampWrites rs) (sampPut rs))
      let good := sampGood rs
      let w1 := memAccess i w (sampReads i kind rs) (sampWrites rs) (fun k => endIfCut all rs (sampPut rs k))
      let w2 := onRegs w1 (releaseSources i (good.map (·.1)))
      let w3 := good.foldl (fun w e => flyOut w 0 (64 * e.1 + d.toNat) e.2.val) w2
      let w4 := addEffs w3 (good.flatMap (fun e => e.2.counts.map (fun c => Eff.count c.1 c.2)))
      let bad := rs.filterMap (fun e => e.2.trap.map (fun t => (e.1, t)))
      { trapLanes (holdRest all rs .ready w4) bad with causes := bad.map (fun e => (e.1, if e.2.1 == 7 then 1 else 0)) })

/-- SAMPLE (16 R321). -/
def execSample (sw : Bool) (d : BitVec 6) (x y : Src) (s : State) : Host.Outcome State Fault Refusal :=
  sampLanes sw d x y s .sample

/-- TOPK (16 R323). -/
def execTopk (sw : Bool) (d : BitVec 6) (x y : Src) (s : State) : Host.Outcome State Fault Refusal :=
  sampLanes sw d x y s .topk

/-- ARGMAX (16 R322). -/
def execArgmax (sw : Bool) (d : BitVec 6) (x y : Src) (s : State) : Host.Outcome State Fault Refusal :=
  sampLanes sw d x y s .argmax

end Sys2Proof.Machine
end

