-- ==== Sys2Proof/Machine/Sync.lean ====
section
/-! DEFINITION. Barriers, PHASE and chunk ends, major 20 (09 R210-R214). A thread arrives when its chunk commits:
the wait is entered here and judged on committed state. -/

namespace Sys2Proof.Machine

/-- The form of a SYNC word: no guard (09 R210). -/
def syncForm (sw : Bool) : Form := { sw := sw, guarded := false }

/-- BART (09 R211). -/
def execBart (sw : Bool) (s : State) : Host.Outcome State Fault Refusal :=
  groupOnly s (syncForm sw) (fun i w => setFates w i.lanes (.arrive .bart))

/-- BARG (09 R211). -/
def execBarg (sw : Bool) (s : State) : Host.Outcome State Fault Refusal :=
  groupOnly s (syncForm sw) (fun i w => setFates w i.lanes (.arrive .barg))

/-- BARTC (09 R212). -/
def execBartc (sw : Bool) (k : BitVec 4) (c : BitVec 18) (s : State) : Host.Outcome State Fault Refusal :=
  groupOnly s { syncForm sw with illegal := c == 0#18 } (fun i w => setFates w i.lanes (.arrive (.bartc k.toNat c.toNat i.runPc ((i.g.cur.map (·.uid)).getD 0))))

/-- The index of PHASE.none (09 R213). -/
def noProgram : Nat := 0x3FFFF

/-- PHASE (09 R213, 08 R164): reads the team's exchange name and sets it when it is unset; a different name, or a
lattice program of the group that is not joined, traps with PHASE_ILLEGAL. -/
def execPhase (sw : Bool) (e : BitVec 18) (s : State) : Host.Outcome State Fault Refusal :=
  let count := match s.issue.actor with
    | .group gid _ => (match groupTriple s gid with
      | some (_, _, l) => l.exchOffsets.length
      | none => 0)
    | _ => 0
  groupOnly s { syncForm sw with illegal := e.toNat != noProgram && decide (e.toNat ≥ count) }
    (fun i w =>
      let name := viewName i.g i.t
      let word := teamInput i.t 31
      let w1 := access w [word] (if name.isNone then [word] else [])
      if !i.g.regs.unjoined.isEmpty || (name.isSome && name != some e.toNat) then setFates w1 i.lanes (.trap 3 0#32)
      else
        let w2 := if name.isNone then addEffs w1 [.exname e.toNat] else w1
        setFates w2 i.lanes (.arrive (.phase e.toNat)))

/-- CHEND (09 R214). -/
def execChend (sw : Bool) (s : State) : Host.Outcome State Fault Refusal :=
  groupOnly s (syncForm sw) (fun i w => setFates w i.lanes .nextEnd)

/-- FENL (09 R214): waits until no chunk of the group is open or in flight. -/
def execFenl (sw : Bool) (s : State) : Host.Outcome State Fault Refusal :=
  groupOnly s (syncForm sw) (fun i w => setFates w i.lanes (.arrive (.fenl ((i.g.cur.map (·.uid)).getD 0))))

end Sys2Proof.Machine
end

