-- ==== Sys2Proof/Machine/System.lean ====
section
/-! DEFINITION. System instructions, major 29 (21 R389-R397, 14 R279-R288). -/

namespace Sys2Proof.Machine

/-- TRAP (21 R390): USER_TRAP in the active lanes, with trap_addr c. -/
def execTrap (sw : Bool) (c : BitVec 8) (s : State) : Host.Outcome State Fault Refusal :=
  groupOnly s { sw := sw } (fun i w => setFates w i.act (.trap 13 (c.setWidth 32)))

/-- BRK (21 R390): BREAKPOINT in the active lanes, with trap_addr c. -/
def execBrk (sw : Bool) (c : BitVec 8) (s : State) : Host.Outcome State Fault Refusal :=
  groupOnly s { sw := sw } (fun i w => setFates w i.act (.trap 12 (c.setWidth 32)))

/-- TRET (21 R391): the return from the handler, in each active lane of a delivered sub-group. -/
def execTret (sw : Bool) (s : State) : Host.Outcome State Fault Refusal :=
  groupOnly s { sw := sw }
    (fun i w =>
      let r := returnPc i.g.regs.trap
      i.act.foldl (fun w l =>
        setFates w [l]
          (if !(laneAt i.g.regs l).handler then .trap 1 0#32
           else if inText i.l r.1 then .back r.1 r.2
           else .trap 1 r.1)) w)

/-- Writes of team registers with the values of the lowest active lane, as one access (21 R393). -/
def setTeamRegs (i : In) (regs : List (Nat × Word)) (w : Work) : Work :=
  if i.act.isEmpty then w
  else
    addEffs (onRegs (access w [] (regs.map (fun r => teamInput i.t r.1))) (releaseSources i i.act))
      (regs.map (fun r => Eff.wrst r.1 r.2))

/-- The lowest active lane. -/
def lowLane (i : In) : Nat := (i.act.head?).getD 0

/-- SETKEY (21 R393): both words of the key in one write. -/
def execSetkey (sw : Bool) (x y : Src) (s : State) : Host.Outcome State Fault Refusal :=
  groupOnly s { sw := sw, x := some x, y := some y, low := true }
    (fun i => setTeamRegs i [(0, xVal i (lowLane i)), (1, yVal i (lowLane i))])

/-- SETSTRM (21 R393). -/
def execSetstrm (sw : Bool) (x : Src) (s : State) : Host.Outcome State Fault Refusal :=
  groupOnly s { sw := sw, x := some x, low := true } (fun i => setTeamRegs i [(2, xVal i (lowLane i))])

/-- SETHND (21 R393). -/
def execSethnd (sw : Bool) (x : Src) (s : State) : Host.Outcome State Fault Refusal :=
  groupOnly s { sw := sw, x := some x, low := true } (fun i => setTeamRegs i [(17, xVal i (lowLane i))])

/-- The counts of a counter that a group holds uncommitted (14 R283). -/
def heldCounts (g : Group) (n : Nat) : Nat :=
  total ((ownEffs g).map (fun e => match e with | .count i k => if i = n then k else 0 | _ => 0))

/-- The counts of the current phase that the value of RDCNT may include or leave out: those of others applied since
it began and those that other groups of the launch hold (21 R394, 14 R283). -/
def phaseCounts (i : In) (n : Nat) : Nat :=
  let others := i.s.groups.filter (fun e => e.1 != i.gid && ((tget i.s.teams e.2.team).map (·.launch)) == some i.t.launch)
  (tgetD i.l.counters n 0 - tgetD i.l.settled n 0 - tgetD i.g.counted n 0) + total (others.map (fun e => heldCounts e.2 n))

/-- How many of them this read includes: a free value for each issue of the instruction, read modulo one more than
their number (21 R394). -/
def seenCounts (i : In) (n : Nat) : Nat :=
  Config.freeSeen ((i.g.cur.map (·.uid)).getD 0) (lowLane i) (laneAt i.g.regs (lowLane i)).count % (phaseCounts i n + 1)

/-- A launch counter as a group reads it: the counts applied before the phase, its own committed and held ones, and a free
part of the others of the phase, saturating (21 R394, 14 R281). -/
def counterValue (i : In) (n : Nat) : DWord :=
  BitVec.ofNat 64 (min (2 ^ 64 - 1) (tgetD i.l.settled n 0 + tgetD i.g.counted n 0 + heldCounts i.g n + seenCounts i n))

/-- RDCNT (21 R394): the counter to a pair in each active lane, low word first. -/
def execRdcnt (sw : Bool) (d : BitVec 5) (n : BitVec 5) (s : State) : Host.Outcome State Fault Refusal :=
  groupOnly s { sw := sw, v := [2 * d.toNat + 1] }
    (fun i => regsBody (fun i c =>
      let v := counterValue i n.toNat
      writeLanes (2 * d.toNat + 1) (fun _ => hiWord v) i (writeLanes (2 * d.toNat) (fun _ => loWord v) i c)) i)

/-- AMAXR (21 R395): RDST 3, then a WRST of 0 to amax, in the group's view. -/
def execAmaxr (sw : Bool) (d : BitVec 6) (s : State) : Host.Outcome State Fault Refusal :=
  groupOnly s { sw := sw, v := [d.toNat] }
    (fun i w =>
      if i.act.isEmpty then w
      else
        let v := viewReg i.g i.t 3
        let w1 := access w [teamInput i.t 3] [teamInput i.t 3]
        addEffs (onRegs w1 (writeLanes d.toNat (fun _ => v) i)) [.wrst 3 0#32])

/-- A field of a team's FP trap report, 0 with no window in service (21 R396). -/
def trapReport (s : State) (tid : Nat) (f : FpWindow) (k : Nat) : Word :=
  if !inService s tid f then 0#32
  else
    match k with
    | 0 => BitVec.ofNat 32 f.ltid
    | 1 => f.pc
    | 2 => BitVec.ofNat 32 f.count
    | _ => BitVec.ofNat 32 f.causes

/-- RDTRAP (21 R396). -/
def execRdtrap (sw : Bool) (d : BitVec 6) (k : BitVec 2) (s : State) : Host.Outcome State Fault Refusal :=
  groupOnly s { sw := sw, v := [d.toNat] }
    (fun i => regsBody (writeLanes d.toNat (fun _ => trapReport i.s i.g.team i.t.fp k.toNat)) i)

/-- WRTRAP (21 R392): trap_pc of the group, in a thread of a delivered sub-group only. -/
def execWrtrap (sw : Bool) (y : Src) (s : State) : Host.Outcome State Fault Refusal :=
  groupOnly s { sw := sw, y := some y, low := true }
    (fun i w =>
      let inside := i.act.filter (fun l => (laneAt i.g.regs l).handler)
      let outside := i.act.filter (fun l => !(laneAt i.g.regs l).handler)
      let w1 := match inside with
        | [] => w
        | l :: _ =>
          onRegs w (fun c =>
            let c1 := releaseSources i inside c
            { c1 with trap := { c1.trap with pc := yVal i l, written := true } })
      setFates w1 outside (.trap 1 0#32))

end Sys2Proof.Machine
end

