-- ==== Sys2Proof/Machine/Tiles.lean ====
section
/-! DEFINITION. Tile instructions, major 23 (17 R335-R339). -/

namespace Sys2Proof.Machine

/-- The form of a TILE instruction: no guard, x read in the lowest lane for a once instruction (17 R335). -/
def tileForm (sw : Bool) (x : Option Src) (once : Bool) : Form := { sw := sw, x := x, guarded := false, low := once }

/-- The lowest lane of the issue set. -/
def firstLane (i : In) : Nat := i.lanes.headD 0

/-- A once instruction that reads n bytes at the address in x of the lowest lane (17 R337). -/
def tileRead (n align : Nat) (upd : List Byte → GroupCore → GroupCore) (i : In) (w : Work) : Work :=
  let a := xVal i (firstLane i)
  match checkLocal i.s i.t i.l a n align with
  | .error e => trapLanes w (i.lanes.map (fun l => (l, e)))
  | .ok p =>
    let bs := lmemBytes i.s i.g p n
    onRegs (memAccess i w (lineInputs a.toNat n) [] (fun k => k)) (upd bs)

/-- A once instruction that writes bytes at the address in x of the lowest lane (17 R337). -/
def tileWrite (bs : List Byte) (align : Nat) (i : In) (w : Work) : Work :=
  let a := xVal i (firstLane i)
  match checkLocal i.s i.t i.l a bs.length align with
  | .error e => trapLanes w (i.lanes.map (fun l => (l, e)))
  | .ok p => memAccess i w [] (lineInputs a.toNat bs.length) (fun k => chunkStore k p bs)

/-- TLD (17 R336): 2,048 bytes into a tile. -/
def execTld (sw : Bool) (x : Src) (n : BitVec 4) (s : State) : Host.Outcome State Fault Refusal :=
  groupOnly s { tileForm sw (some x) true with t := [n.toNat] }
    (withTiles [n.toNat] [] true (tileRead 2048 64 (fun bs c =>
      setTile c n.toNat { tileAt c n.toNat with data := tileData (fun k => bs.getD k 0#8) })))

/-- An element of a local tensor record, with its address; none outside its sizes (17 R338). -/
def tldtAddr (r : Shape) (i0 i1 : Nat) : Option Nat :=
  if i0 < r.dims.getD 0 0 && i1 < r.dims.getD 1 0 then
    some (((r.base : Int) + i0 * r.strides.getD 0 0 + i1 * r.strides.getD 1 0) % 2 ^ 32).toNat
  else none

/-- TLDT8 and TLDT16 (17 R338): a transposed block of a local tensor; the slot and the lines are one access. -/
def tldtBody (size kt d n : Nat) (i : In) (w : Work) : Work :=
  let l0 := firstLane i
  let h := xVal i l0
  let vo := (readV i.g.regs l0 d).1
  let w := { w with hazard := w.hazard || (readV i.g.regs l0 d).2 }
  let slot := slotInput (h.toNat / 2 ^ 20)
  let failed := access w [slot] []
  match handleShape i h with
  | none => setFates failed i.lanes (.trap 10 h)
  | some r =>
    let typeOk := if size = 1 then decide (r.type ≤ 3) else r.type == 4 || r.type == 5
    if r.space != 0 || r.dims.getD 2 1 != 1 || r.dims.getD 3 1 != 1 || !typeOk then setFates failed i.lanes (.trap 4 h)
    else
      let k0 := vo.toNat % 2 ^ 16
      let c0 := vo.toNat / 2 ^ 16
      let cells := (upto kt).flatMap (fun k => (upto 64).filterMap (fun c =>
        (tldtAddr r (k0 + k) (c0 + c)).map (fun a => (64 * k + c, a))))
      let chk := cells.map (fun e => (e, checkLocal i.s i.t i.l (BitVec.ofNat 32 e.2) size size))
      match chk.findSome? (fun e => match e.2 with | .error x => some x | .ok _ => none) with
      | some e => setFates failed i.lanes (.trap e.1 e.2)
      | none =>
        let vals := chk.filterMap (fun e => match e.2 with
          | .ok p => some (e.1.1, lmemBytes i.s i.g p size)
          | .error _ => none)
        let byteAt := fun (k : Nat) => ((tgetD vals (k / size) []).getD (k % size) 0#8)
        let w1 := memAccess i w (slot :: cells.flatMap (fun e => lineInputs e.2 size)) [] (fun k => k)
        onRegs w1 (fun c => setTile c n { tileAt c n with data := tileData byteAt })

/-- TLDT8 (17 R336, R338). -/
def execTldt8 (sw : Bool) (d : BitVec 6) (x : Src) (n : BitVec 4) (s : State) : Host.Outcome State Fault Refusal :=
  groupOnly s { tileForm sw (some x) true with t := [n.toNat], v := [d.toNat] }
    (withTiles [n.toNat] [] true (tldtBody 1 32 d.toNat n.toNat))

/-- TLDT16 (17 R336, R338). -/
def execTldt16 (sw : Bool) (d : BitVec 6) (x : Src) (n : BitVec 4) (s : State) : Host.Outcome State Fault Refusal :=
  groupOnly s { tileForm sw (some x) true with t := [n.toNat], v := [d.toNat] }
    (withTiles [n.toNat] [] true (tldtBody 2 16 d.toNat n.toNat))

/-- TST (17 R337): half of a tile's data, or its sidecar. -/
def execTst (sw : Bool) (x : Src) (n q : BitVec 4) (s : State) : Host.Outcome State Fault Refusal :=
  groupOnly s { tileForm sw (some x) true with t := [n.toNat] }
    (withTiles [n.toNat] [] true (fun i w =>
      let t := tileAt i.g.regs n.toNat
      if q.toNat = 2 then tileWrite ((upto 64).map (fun k => BitVec.ofNat 8 (sideByte t k))) 64 i w
      else tileWrite ((upto 1024).map (fun k => BitVec.ofNat 8 (tileByte t (1024 * q.toNat + k)))) 1024 i w))

/-- TZERO (17 R336): data 0, sidecar 0x7F. -/
def execTzero (sw : Bool) (n : BitVec 4) (s : State) : Host.Outcome State Fault Refusal :=
  groupOnly s { tileForm sw none true with t := [n.toNat] }
    (withTiles [n.toNat] [] false (fun _ w => onRegs w (fun c => setTile c n.toNat {})))

/-- TSCL (17 R336): 64 bytes into the sidecar. -/
def execTscl (sw : Bool) (x : Src) (n : BitVec 4) (s : State) : Host.Outcome State Fault Refusal :=
  groupOnly s { tileForm sw (some x) true with t := [n.toNat] }
    (withTiles [n.toNat] [] true (tileRead 64 64 (fun bs c =>
      setTile c n.toNat { tileAt c n.toNat with side := tileSide (fun k => bs.getD k 0#8) })))

/-- AZERO (17 R336): every element +0. -/
def execAzero (sw : Bool) (n : BitVec 4) (s : State) : Host.Outcome State Fault Refusal :=
  groupOnly s { tileForm sw none true with a := [n.toNat] }
    (withTiles [] [n.toNat] false (fun _ w => onRegs w (fun c => { c with accs := tput c.accs n.toNat [] })))

/-- ARD (17 R336): eight elements of each lane's row into registers. -/
def execArd (sw : Bool) (d : BitVec 3) (n : BitVec 4) (q : BitVec 3) (s : State) : Host.Outcome State Fault Refusal :=
  groupOnly s { tileForm sw none false with a := [n.toNat], v := [8 * d.toNat + 7] }
    (withTiles [] [n.toNat] false (fun i w =>
      i.lanes.foldl (fun w l => (upto 8).foldl (fun w j =>
        flyOut w 0 (64 * l + 8 * d.toNat + j) (accElem i.g.regs n.toNat l (8 * q.toNat + j))) w) w))

/-- AWR (17 R336): eight registers into each lane's row. -/
def execAwr (sw : Bool) (x : BitVec 3) (ux : Use) (n : BitVec 4) (q : BitVec 3) (s : State) :
    Host.Outcome State Fault Refusal :=
  let rs := (upto 8).map (fun j => 8 * x.toNat + j)
  groupOnly s { tileForm sw (some { reg := BitVec.ofNat 6 (8 * x.toNat), use := ux }) false with a := [n.toNat], v := rs, vr := rs }
    (withTiles [] [n.toNat] false (fun i w => onRegs w (fun c =>
      setAcc c n.toNat (i.lanes.flatMap (fun l => (upto 8).map (fun j =>
        (64 * l + 8 * q.toNat + j, (readV i.g.regs l (8 * x.toNat + j)).1)))))))

/-- ALD (17 R336): 16 bytes into four elements of each lane's row. -/
def execAld (sw : Bool) (x : Src) (n q : BitVec 4) (s : State) : Host.Outcome State Fault Refusal :=
  groupOnly s { tileForm sw (some x) false with a := [n.toNat] }
    (withTiles [] [n.toNat] true (fun i w =>
      let c := checkLanes i (fun l => xVal i l) 16 16
      let w1 := memAccess i w (accessLines c.1 16) [] (fun k => k)
      trapLanes (onRegs w1 (fun r => setAcc r n.toNat (c.1.flatMap (fun a =>
        let bs := lmemBytes i.s i.g a.2.2 16
        (upto 4).map (fun j => (64 * a.1 + 4 * q.toNat + j, wordAt j bs)))))) c.2))

/-- AST (17 R336): four elements of each lane's row into 16 bytes. -/
def execAst (sw : Bool) (x : Src) (n q : BitVec 4) (s : State) : Host.Outcome State Fault Refusal :=
  groupOnly s { tileForm sw (some x) false with a := [n.toNat] }
    (withTiles [] [n.toNat] true (fun i w =>
      let c := checkLanes i (fun l => xVal i l) 16 16
      let put := fun as (k : Chunk) => as.foldl (fun k (a : LaneAccess) =>
        chunkStore k a.2.2 ((upto 4).flatMap (fun j =>
          wordBytes (accElem i.g.regs n.toNat a.1 (4 * q.toNat + j))))) k
      let now := performing i c.1 (fun as => accessFits i [] (accessLines as 16) (put as))
      let w1 := memAccess i w [] (accessLines now 16) (fun k => endIfCut c.1 now (put now k))
      trapLanes (holdRest c.1 now .ready w1) c.2))

/-- Counts of results as effects of the chunk. -/
def outCounts (os : List FpOut) : List Eff := os.flatMap (fun o => o.counts.map (fun k => Eff.count k 1))

/-- ACVB (17 R339): eight elements as packed BF16. -/
def execAcvb (sw : Bool) (d : BitVec 4) (n : BitVec 4) (q : BitVec 3) (s : State) : Host.Outcome State Fault Refusal :=
  groupOnly s { tileForm sw none false with a := [n.toNat], v := [4 * d.toNat + 3] }
    (withTiles [] [n.toNat] false (fun i w =>
      i.lanes.foldl (fun w l => (upto 4).foldl (fun w j =>
        let one := fun (k : Nat) =>
          fpConvert .bf16 .rne false (fpOf (accElem i.g.regs n.toNat l (8 * q.toNat + 2 * j + k)))
        addEffs (flyOut w 0 (64 * l + 4 * d.toNat + j) (BitVec.ofNat 32 ((one 0).code + 2 ^ 16 * (one 1).code)))
          (outCounts [one 0, one 1])) w) w))

/-- ACV8 (17 R339): eight elements as packed E4M3 or E5M2 with a scale, amax updated from each. -/
def execAcv8 (sw : Bool) (d : BitVec 5) (n q : BitVec 4) (s : State) : Host.Outcome State Fault Refusal :=
  let aux := auxField s.issue.hints
  groupOnly s { tileForm sw none false with a := [n.toNat], v := [2 * d.toNat + 1], vr := aux.toList }
    (withTiles [] [n.toNat] false (fun i w =>
      let f := if q.toNat / 8 = 0 then Fmt.e4m3 else Fmt.e5m2
      i.lanes.foldl (fun w l =>
        let e := match aux with
          | some a => (readV i.g.regs l a).1.toNat % 256
          | none => 127
        let src := (upto 8).map (fun j => accElem i.g.regs n.toNat l (8 * (q.toNat % 8) + j))
        let os := src.map (fun v => fpNarrow f .rne (fpOf v) e)
        let word := fun (k : Nat) => BitVec.ofNat 32 (leNat (((os.drop (4 * k)).take 4).map (fun o => BitVec.ofNat 8 o.code)))
        addEffs (flyOut (flyOut w 0 (64 * l + 2 * d.toNat) (word 0)) 0 (64 * l + 2 * d.toNat + 1) (word 1))
          (src.map amaxEff ++ outCounts os)) w))

/-- TMOV (17 R336): data and sidecar of a tile from another. -/
def execTmov (sw : Bool) (n q : BitVec 4) (s : State) : Host.Outcome State Fault Refusal :=
  groupOnly s { tileForm sw none true with t := [n.toNat, q.toNat] }
    (withTiles [n.toNat, q.toNat] [] false (fun _ w => onRegs w (fun c => setTile c n.toNat (tileAt c q.toNat))))

end Sys2Proof.Machine
end

