-- ==== Sys2Proof/Machine/Dispatch.lean ====
section
/-! DEFINITION. The dispatch: one arm for each instruction and event. -/

namespace Sys2Proof.Machine

def exec (i : Instr) (s : State) : Host.Outcome State Fault Refusal :=
  match i with
  | .iadd sw d x y => Sys2Proof.Machine.execIadd sw d x y s
  | .isub sw d x y => Sys2Proof.Machine.execIsub sw d x y s
  | .imul sw d x y => Sys2Proof.Machine.execImul sw d x y s
  | .imulh sw d x y => Sys2Proof.Machine.execImulh sw d x y s
  | .umulh sw d x y => Sys2Proof.Machine.execUmulh sw d x y s
  | .imin sw d x y => Sys2Proof.Machine.execImin sw d x y s
  | .imax sw d x y => Sys2Proof.Machine.execImax sw d x y s
  | .umin sw d x y => Sys2Proof.Machine.execUmin sw d x y s
  | .umax sw d x y => Sys2Proof.Machine.execUmax sw d x y s
  | .vand sw d x y => Sys2Proof.Machine.execVand sw d x y s
  | .vor sw d x y => Sys2Proof.Machine.execVor sw d x y s
  | .vxor sw d x y => Sys2Proof.Machine.execVxor sw d x y s
  | .shl sw d x y => Sys2Proof.Machine.execShl sw d x y s
  | .shr sw d x y => Sys2Proof.Machine.execShr sw d x y s
  | .sra sw d x y => Sys2Proof.Machine.execSra sw d x y s
  | .iaddc sw d x y => Sys2Proof.Machine.execIaddc sw d x y s
  | .iaddi sw d x imm8 => Sys2Proof.Machine.execIaddi sw d x imm8 s
  | .isubi sw d x imm8 => Sys2Proof.Machine.execIsubi sw d x imm8 s
  | .imuli sw d x imm8 => Sys2Proof.Machine.execImuli sw d x imm8 s
  | .imulhi sw d x imm8 => Sys2Proof.Machine.execImulhi sw d x imm8 s
  | .umulhi sw d x imm8 => Sys2Proof.Machine.execUmulhi sw d x imm8 s
  | .imini sw d x imm8 => Sys2Proof.Machine.execImini sw d x imm8 s
  | .imaxi sw d x imm8 => Sys2Proof.Machine.execImaxi sw d x imm8 s
  | .umini sw d x imm8 => Sys2Proof.Machine.execUmini sw d x imm8 s
  | .umaxi sw d x imm8 => Sys2Proof.Machine.execUmaxi sw d x imm8 s
  | .andi sw d x imm8 => Sys2Proof.Machine.execAndi sw d x imm8 s
  | .ori sw d x imm8 => Sys2Proof.Machine.execOri sw d x imm8 s
  | .xori sw d x imm8 => Sys2Proof.Machine.execXori sw d x imm8 s
  | .shli sw d x imm8 => Sys2Proof.Machine.execShli sw d x imm8 s
  | .shri sw d x imm8 => Sys2Proof.Machine.execShri sw d x imm8 s
  | .srai sw d x imm8 => Sys2Proof.Machine.execSrai sw d x imm8 s
  | .movi sw d imm8 => Sys2Proof.Machine.execMovi sw d imm8 s
  | .isubb sw d x y => Sys2Proof.Machine.execIsubb sw d x y s
  | .iabs sw d x => Sys2Proof.Machine.execIabs sw d x s
  | .ineg sw d x => Sys2Proof.Machine.execIneg sw d x s
  | .vnot sw d x => Sys2Proof.Machine.execVnot sw d x s
  | .clz sw d x => Sys2Proof.Machine.execClz sw d x s
  | .popc sw d x => Sys2Proof.Machine.execPopc sw d x s
  | .brev sw d x => Sys2Proof.Machine.execBrev sw d x s
  | .bfe sw d x y => Sys2Proof.Machine.execBfe sw d x y s
  | .bfi sw d x y => Sys2Proof.Machine.execBfi sw d x y s
  | .iadds sw d x y => Sys2Proof.Machine.execIadds sw d x y s
  | .isubs sw d x y => Sys2Proof.Machine.execIsubs sw d x y s
  | .uadds sw d x y => Sys2Proof.Machine.execUadds sw d x y s
  | .imad sw d x y => Sys2Proof.Machine.execImad sw d x y s
  | .sad sw d x y => Sys2Proof.Machine.execSad sw d x y s
  | .rotl sw d x y => Sys2Proof.Machine.execRotl sw d x y s
  | .lea2 sw d x y => Sys2Proof.Machine.execLea2 sw d x y s
  | .fadd sw d x y => Sys2Proof.Machine.execFadd sw d x y s
  | .fsub sw d x y => Sys2Proof.Machine.execFsub sw d x y s
  | .fmul sw d x y => Sys2Proof.Machine.execFmul sw d x y s
  | .ffma sw d x y => Sys2Proof.Machine.execFfma sw d x y s
  | .ffnma sw d x y => Sys2Proof.Machine.execFfnma sw d x y s
  | .fmin sw d x y => Sys2Proof.Machine.execFmin sw d x y s
  | .fmax sw d x y => Sys2Proof.Machine.execFmax sw d x y s
  | .fabs sw d x => Sys2Proof.Machine.execFabs sw d x s
  | .fneg sw d x => Sys2Proof.Machine.execFneg sw d x s
  | .fcpys sw d x y => Sys2Proof.Machine.execFcpys sw d x y s
  | .fdiv sw d x y => Sys2Proof.Machine.execFdiv sw d x y s
  | .fsqrt sw d x => Sys2Proof.Machine.execFsqrt sw d x s
  | .frint sw d x m => Sys2Proof.Machine.execFrint sw d x m s
  | .fclass sw d x => Sys2Proof.Machine.execFclass sw d x s
  | .fscale sw d x y => Sys2Proof.Machine.execFscale sw d x y s
  | .ffrac sw d x => Sys2Proof.Machine.execFfrac sw d x s
  | .hadd sw d x y f => Sys2Proof.Machine.execHadd sw d x y f s
  | .hsub sw d x y f => Sys2Proof.Machine.execHsub sw d x y f s
  | .hmul sw d x y f => Sys2Proof.Machine.execHmul sw d x y f s
  | .hfma sw d x y f => Sys2Proof.Machine.execHfma sw d x y f s
  | .hmin sw d x y f => Sys2Proof.Machine.execHmin sw d x y f s
  | .hmax sw d x y f => Sys2Proof.Machine.execHmax sw d x y f s
  | .hneg sw d x f => Sys2Proof.Machine.execHneg sw d x f s
  | .hdot2 sw d x y f => Sys2Proof.Machine.execHdot2 sw d x y f s
  | .cvf2i sw d x => Sys2Proof.Machine.execCvf2i sw d x s
  | .cvi2f sw d x => Sys2Proof.Machine.execCvi2f sw d x s
  | .cvn2f sw d x => Sys2Proof.Machine.execCvn2f sw d x s
  | .cvf2n sw d x => Sys2Proof.Machine.execCvf2n sw d x s
  | .cvf2b sw d x => Sys2Proof.Machine.execCvf2b sw d x s
  | .cvb2f sw d x => Sys2Proof.Machine.execCvb2f sw d x s
  | .cvf2h sw d x => Sys2Proof.Machine.execCvf2h sw d x s
  | .cvh2f sw d x => Sys2Proof.Machine.execCvh2f sw d x s
  | .cvf2e4 sw d x y => Sys2Proof.Machine.execCvf2e4 sw d x y s
  | .cvf2e5 sw d x y => Sys2Proof.Machine.execCvf2e5 sw d x y s
  | .cvf2e2 sw d x y => Sys2Proof.Machine.execCvf2e2 sw d x y s
  | .cve42f sw d x y => Sys2Proof.Machine.execCve42f sw d x y s
  | .cve52f sw d x y => Sys2Proof.Machine.execCve52f sw d x y s
  | .cve22f sw d x y => Sys2Proof.Machine.execCve22f sw d x y s
  | .pk2h sw d x y => Sys2Proof.Machine.execPk2h sw d x y s
  | .pk4b sw d x y => Sys2Proof.Machine.execPk4b sw d x y s
  | .exp2 sw d x => Sys2Proof.Machine.execExp2 sw d x s
  | .log2 sw d x => Sys2Proof.Machine.execLog2 sw d x s
  | .rcp sw d x => Sys2Proof.Machine.execRcp sw d x s
  | .rsqrt sw d x => Sys2Proof.Machine.execRsqrt sw d x s
  | .sinpi sw d x => Sys2Proof.Machine.execSinpi sw d x s
  | .cospi sw d x => Sys2Proof.Machine.execCospi sw d x s
  | .tanh sw d x => Sys2Proof.Machine.execTanh sw d x s
  | .sigm sw d x => Sys2Proof.Machine.execSigm sw d x s
  | .icmpEq sw c p x y => Sys2Proof.Machine.execIcmpEq sw c p x y s
  | .icmpNe sw c p x y => Sys2Proof.Machine.execIcmpNe sw c p x y s
  | .icmpLt sw c p x y => Sys2Proof.Machine.execIcmpLt sw c p x y s
  | .icmpLe sw c p x y => Sys2Proof.Machine.execIcmpLe sw c p x y s
  | .icmpGt sw c p x y => Sys2Proof.Machine.execIcmpGt sw c p x y s
  | .icmpGe sw c p x y => Sys2Proof.Machine.execIcmpGe sw c p x y s
  | .icmpLtn sw c p x y => Sys2Proof.Machine.execIcmpLtn sw c p x y s
  | .icmpLen sw c p x y => Sys2Proof.Machine.execIcmpLen sw c p x y s
  | .icmpGtn sw c p x y => Sys2Proof.Machine.execIcmpGtn sw c p x y s
  | .icmpGen sw c p x y => Sys2Proof.Machine.execIcmpGen sw c p x y s
  | .icmpFeq sw c p x y => Sys2Proof.Machine.execIcmpFeq sw c p x y s
  | .icmpFne sw c p x y => Sys2Proof.Machine.execIcmpFne sw c p x y s
  | .icmpFlt sw c p x y => Sys2Proof.Machine.execIcmpFlt sw c p x y s
  | .icmpFle sw c p x y => Sys2Proof.Machine.execIcmpFle sw c p x y s
  | .icmpFuno sw c p x y => Sys2Proof.Machine.execIcmpFuno sw c p x y s
  | .icmpFord sw c p x y => Sys2Proof.Machine.execIcmpFord sw c p x y s
  | .shfl sw d x y => Sys2Proof.Machine.execShfl sw d x y s
  | .ballot sw d x => Sys2Proof.Machine.execBallot sw d x s
  | .vany sw d x => Sys2Proof.Machine.execVany sw d x s
  | .vall sw d x => Sys2Proof.Machine.execVall sw d x s
  | .rsumi sw d x => Sys2Proof.Machine.execRsumi sw d x s
  | .rmini sw d x => Sys2Proof.Machine.execRmini sw d x s
  | .rmaxi sw d x => Sys2Proof.Machine.execRmaxi sw d x s
  | .rsumf sw d x => Sys2Proof.Machine.execRsumf sw d x s
  | .scani sw d x => Sys2Proof.Machine.execScani sw d x s
  | .scanf sw d x => Sys2Proof.Machine.execScanf sw d x s
  | .scanxi sw d x => Sys2Proof.Machine.execScanxi sw d x s
  | .matchx sw d x => Sys2Proof.Machine.execMatchx sw d x s
  | .popm sw d x => Sys2Proof.Machine.execPopm sw d x s
  | .first sw d x => Sys2Proof.Machine.execFirst sw d x s
  | .cmpct sw d x => Sys2Proof.Machine.execCmpct sw d x s
  | .sadd sw d x y => Sys2Proof.Machine.execSadd sw d x y s
  | .ssub sw d x y => Sys2Proof.Machine.execSsub sw d x y s
  | .smul sw d x y => Sys2Proof.Machine.execSmul sw d x y s
  | .smulh sw d x y => Sys2Proof.Machine.execSmulh sw d x y s
  | .sumulh sw d x y => Sys2Proof.Machine.execSumulh sw d x y s
  | .smin sw d x y => Sys2Proof.Machine.execSmin sw d x y s
  | .smax sw d x y => Sys2Proof.Machine.execSmax sw d x y s
  | .sumin sw d x y => Sys2Proof.Machine.execSumin sw d x y s
  | .sumax sw d x y => Sys2Proof.Machine.execSumax sw d x y s
  | .sand sw d x y => Sys2Proof.Machine.execSand sw d x y s
  | .sor sw d x y => Sys2Proof.Machine.execSor sw d x y s
  | .sxor sw d x y => Sys2Proof.Machine.execSxor sw d x y s
  | .sshl sw d x y => Sys2Proof.Machine.execSshl sw d x y s
  | .sshr sw d x y => Sys2Proof.Machine.execSshr sw d x y s
  | .ssra sw d x y => Sys2Proof.Machine.execSsra sw d x y s
  | .smov sw d x => Sys2Proof.Machine.execSmov sw d x s
  | .saddi sw d x imm8 => Sys2Proof.Machine.execSaddi sw d x imm8 s
  | .ssubi sw d x imm8 => Sys2Proof.Machine.execSsubi sw d x imm8 s
  | .smuli sw d x imm8 => Sys2Proof.Machine.execSmuli sw d x imm8 s
  | .smulhi sw d x imm8 => Sys2Proof.Machine.execSmulhi sw d x imm8 s
  | .sumulhi sw d x imm8 => Sys2Proof.Machine.execSumulhi sw d x imm8 s
  | .smini sw d x imm8 => Sys2Proof.Machine.execSmini sw d x imm8 s
  | .smaxi sw d x imm8 => Sys2Proof.Machine.execSmaxi sw d x imm8 s
  | .sumini sw d x imm8 => Sys2Proof.Machine.execSumini sw d x imm8 s
  | .sumaxi sw d x imm8 => Sys2Proof.Machine.execSumaxi sw d x imm8 s
  | .sandi sw d x imm8 => Sys2Proof.Machine.execSandi sw d x imm8 s
  | .sori sw d x imm8 => Sys2Proof.Machine.execSori sw d x imm8 s
  | .sxori sw d x imm8 => Sys2Proof.Machine.execSxori sw d x imm8 s
  | .sshli sw d x imm8 => Sys2Proof.Machine.execSshli sw d x imm8 s
  | .sshri sw d x imm8 => Sys2Proof.Machine.execSshri sw d x imm8 s
  | .ssrai sw d x imm8 => Sys2Proof.Machine.execSsrai sw d x imm8 s
  | .smovi sw d imm8 => Sys2Proof.Machine.execSmovi sw d imm8 s
  | .mov sw d x => Sys2Proof.Machine.execMov sw d x s
  | .vfroms sw d x => Sys2Proof.Machine.execVfroms sw d x s
  | .sfromv sw d x => Sys2Proof.Machine.execSfromv sw d x s
  | .sel sw d x y => Sys2Proof.Machine.execSel sw d x y s
  | .pand sw d x y => Sys2Proof.Machine.execPand sw d x y s
  | .por sw d x y => Sys2Proof.Machine.execPor sw d x y s
  | .pxor sw d x y => Sys2Proof.Machine.execPxor sw d x y s
  | .pnot sw d x => Sys2Proof.Machine.execPnot sw d x s
  | .ptov sw d x => Sys2Proof.Machine.execPtov sw d x s
  | .vtop sw d x => Sys2Proof.Machine.execVtop sw d x s
  | .rdid sw d c => Sys2Proof.Machine.execRdid sw d c s
  | .rdst sw d n => Sys2Proof.Machine.execRdst sw d n s
  | .wrst sw n y => Sys2Proof.Machine.execWrst sw n y s
  | .clock sw d => Sys2Proof.Machine.execClock sw d s
  | .adr sw d o => Sys2Proof.Machine.execAdr sw d o s
  | .nop sw => Sys2Proof.Machine.execNop sw s
  | .ld8 sw d x o => Sys2Proof.Machine.execLd8 sw d x o s
  | .ld8s sw d x o => Sys2Proof.Machine.execLd8s sw d x o s
  | .ld16 sw d x o => Sys2Proof.Machine.execLd16 sw d x o s
  | .ld16s sw d x o => Sys2Proof.Machine.execLd16s sw d x o s
  | .ld32 sw d x o => Sys2Proof.Machine.execLd32 sw d x o s
  | .ld64 sw d x o => Sys2Proof.Machine.execLd64 sw d x o s
  | .ld128 sw d x o => Sys2Proof.Machine.execLd128 sw d x o s
  | .ldfe sw d x o => Sys2Proof.Machine.execLdfe sw d x o s
  | .ldft sw d x o => Sys2Proof.Machine.execLdft sw d x o s
  | .ldfc sw d x o => Sys2Proof.Machine.execLdfc sw d x o s
  | .lds32 sw d x o => Sys2Proof.Machine.execLds32 sw d x o s
  | .ldtag sw d x o => Sys2Proof.Machine.execLdtag sw d x o s
  | .st8 sw d x o => Sys2Proof.Machine.execSt8 sw d x o s
  | .st16 sw d x o => Sys2Proof.Machine.execSt16 sw d x o s
  | .st32 sw d x o => Sys2Proof.Machine.execSt32 sw d x o s
  | .st64 sw d x o => Sys2Proof.Machine.execSt64 sw d x o s
  | .st128 sw d x o => Sys2Proof.Machine.execSt128 sw d x o s
  | .stf sw d x o => Sys2Proof.Machine.execStf sw d x o s
  | .ste sw x o => Sys2Proof.Machine.execSte sw x o s
  | .sts32 sw d x o => Sys2Proof.Machine.execSts32 sw d x o s
  | .stcd sw x o => Sys2Proof.Machine.execStcd sw x o s
  | .aadd sw d x y => Sys2Proof.Machine.execAadd sw d x y s
  | .amin sw d x y => Sys2Proof.Machine.execAmin sw d x y s
  | .amax sw d x y => Sys2Proof.Machine.execAmax sw d x y s
  | .aminn sw d x y => Sys2Proof.Machine.execAminn sw d x y s
  | .amaxn sw d x y => Sys2Proof.Machine.execAmaxn sw d x y s
  | .aand sw d x y => Sys2Proof.Machine.execAand sw d x y s
  | .aor sw d x y => Sys2Proof.Machine.execAor sw d x y s
  | .axor sw d x y => Sys2Proof.Machine.execAxor sw d x y s
  | .axch sw d x y => Sys2Proof.Machine.execAxch sw d x y s
  | .acas sw d x y => Sys2Proof.Machine.execAcas sw d x y s
  | .afadd sw d x y => Sys2Proof.Machine.execAfadd sw d x y s
  | .aincw sw d x y => Sys2Proof.Machine.execAincw sw d x y s
  | .gredRaddi sw n x y => Sys2Proof.Machine.execGredRaddi sw n x y s
  | .gredRaddf sw n x y => Sys2Proof.Machine.execGredRaddf sw n x y s
  | .gredRmini sw n x y => Sys2Proof.Machine.execGredRmini sw n x y s
  | .gredRmaxi sw n x y => Sys2Proof.Machine.execGredRmaxi sw n x y s
  | .gredRminf sw n x y => Sys2Proof.Machine.execGredRminf sw n x y s
  | .gredRmaxf sw n x y => Sys2Proof.Machine.execGredRmaxf sw n x y s
  | .gredRand sw n x y => Sys2Proof.Machine.execGredRand sw n x y s
  | .gredRor sw n x y => Sys2Proof.Machine.execGredRor sw n x y s
  | .gredRxor sw n x y => Sys2Proof.Machine.execGredRxor sw n x y s
  | .gredRaddb2 sw n x y => Sys2Proof.Machine.execGredRaddb2 sw n x y s
  | .gredRaddi64 sw n x y uy => Sys2Proof.Machine.execGredRaddi64 sw n x y uy s
  | .br sw o => Sys2Proof.Machine.execBr sw o s
  | .brt sw p o => Sys2Proof.Machine.execBrt sw p o s
  | .brf sw p o => Sys2Proof.Machine.execBrf sw p o s
  | .brany sw p o => Sys2Proof.Machine.execBrany sw p o s
  | .brall sw p o => Sys2Proof.Machine.execBrall sw p o s
  | .call sw o => Sys2Proof.Machine.execCall sw o s
  | .jr sw x => Sys2Proof.Machine.execJr sw x s
  | .callr sw x => Sys2Proof.Machine.execCallr sw x s
  | .ret sw => Sys2Proof.Machine.execRet sw s
  | .mjoin sw m => Sys2Proof.Machine.execMjoin sw m s
  | .mleave sw m => Sys2Proof.Machine.execMleave sw m s
  | .mwait sw m => Sys2Proof.Machine.execMwait sw m s
  | .mset sw m j => Sys2Proof.Machine.execMset sw m j s
  | .mget sw m j => Sys2Proof.Machine.execMget sw m j s
  | .mclr sw m => Sys2Proof.Machine.execMclr sw m s
  | .mtest sw m d => Sys2Proof.Machine.execMtest sw m d s
  | .bart sw => Sys2Proof.Machine.execBart sw s
  | .barg sw => Sys2Proof.Machine.execBarg sw s
  | .phase sw e => Sys2Proof.Machine.execPhase sw e s
  | .chend sw => Sys2Proof.Machine.execChend sw s
  | .fenl sw => Sys2Proof.Machine.execFenl sw s
  | .bartc sw k c => Sys2Proof.Machine.execBartc sw k c s
  | .spawn sw x y => Sys2Proof.Machine.execSpawn sw x y s
  | .exit sw => Sys2Proof.Machine.execExit sw s
  | .yield sw => Sys2Proof.Machine.execYield sw s
  | .sleep sw x => Sys2Proof.Machine.execSleep sw x s
  | .mma sw a b t r p c k => Sys2Proof.Machine.execMma sw a b t r p c k s
  | .tld sw x imm8 => Sys2Proof.Machine.execTld sw x imm8 s
  | .tldt8 sw d x imm8 => Sys2Proof.Machine.execTldt8 sw d x imm8 s
  | .tldt16 sw d x imm8 => Sys2Proof.Machine.execTldt16 sw d x imm8 s
  | .tst sw x imm8 q => Sys2Proof.Machine.execTst sw x imm8 q s
  | .tzero sw imm8 => Sys2Proof.Machine.execTzero sw imm8 s
  | .tscl sw x imm8 => Sys2Proof.Machine.execTscl sw x imm8 s
  | .azero sw imm8 => Sys2Proof.Machine.execAzero sw imm8 s
  | .ard sw d imm8 q => Sys2Proof.Machine.execArd sw d imm8 q s
  | .awr sw x ux imm8 q => Sys2Proof.Machine.execAwr sw x ux imm8 q s
  | .ald sw x imm8 q => Sys2Proof.Machine.execAld sw x imm8 q s
  | .ast sw x imm8 q => Sys2Proof.Machine.execAst sw x imm8 q s
  | .acvb sw d imm8 q => Sys2Proof.Machine.execAcvb sw d imm8 q s
  | .acv8 sw d imm8 q => Sys2Proof.Machine.execAcv8 sw d imm8 q s
  | .tmov sw imm8 q => Sys2Proof.Machine.execTmov sw imm8 q s
  | .rng sw d x => Sys2Proof.Machine.execRng sw d x s
  | .rng2 sw d x y => Sys2Proof.Machine.execRng2 sw d x y s
  | .unif sw d x => Sys2Proof.Machine.execUnif sw d x s
  | .bern sw d x y => Sys2Proof.Machine.execBern sw d x y s
  | .bernp sw d x y => Sys2Proof.Machine.execBernp sw d x y s
  | .srbf sw d x y => Sys2Proof.Machine.execSrbf sw d x y s
  | .srf16 sw d x y => Sys2Proof.Machine.execSrf16 sw d x y s
  | .sre4 sw d x y => Sys2Proof.Machine.execSre4 sw d x y s
  | .sre5 sw d x y => Sys2Proof.Machine.execSre5 sw d x y s
  | .sample sw d x y => Sys2Proof.Machine.execSample sw d x y s
  | .topk sw d x y => Sys2Proof.Machine.execTopk sw d x y s
  | .argmax sw d x y => Sys2Proof.Machine.execArgmax sw d x y s
  | .forkc sw q x => Sys2Proof.Machine.execForkc sw q x s
  | .forkl sw l x => Sys2Proof.Machine.execForkl sw l x s
  | .rdv sw u => Sys2Proof.Machine.execRdv sw u s
  | .erset sw n q y uy => Sys2Proof.Machine.execErset sw n q y uy s
  | .erget sw d q n => Sys2Proof.Machine.execErget sw d q n s
  | .hload sw d x y => Sys2Proof.Machine.execHload sw d x y s
  | .hdrop sw x => Sys2Proof.Machine.execHdrop sw x s
  | .estat sw d u => Sys2Proof.Machine.execEstat sw d u s
  | .lcfg sw x => Sys2Proof.Machine.execLcfg sw x s
  | .lnld sw d x y => Sys2Proof.Machine.execLnld sw d x y s
  | .ljld sw d x y => Sys2Proof.Machine.execLjld sw d x y s
  | .lhld sw d x y => Sys2Proof.Machine.execLhld sw d x y s
  | .lsld sw d x y => Sys2Proof.Machine.execLsld sw d x y s
  | .lsst sw d x y => Sys2Proof.Machine.execLsst sw d x y s
  | .lclmp sw d x y => Sys2Proof.Machine.execLclmp sw d x y s
  | .lswp sw d x => Sys2Proof.Machine.execLswp sw d x s
  | .lcnt sw d x y => Sys2Proof.Machine.execLcnt sw d x y s
  | .lrstc sw x => Sys2Proof.Machine.execLrstc sw x s
  | .lgmap sw d x y => Sys2Proof.Machine.execLgmap sw d x y s
  | .lgref sw d x y => Sys2Proof.Machine.execLgref sw d x y s
  | .lhlth sw x y => Sys2Proof.Machine.execLhlth sw x y s
  | .lkey sw x => Sys2Proof.Machine.execLkey sw x s
  | .laluLi sw d imm => Sys2Proof.Machine.execLaluLi sw d imm s
  | .laluAdd sw d x => Sys2Proof.Machine.execLaluAdd sw d x s
  | .lbrcLoop sw => Sys2Proof.Machine.execLbrcLoop sw s
  | .lbrcNext sw d => Sys2Proof.Machine.execLbrcNext sw d s
  | .lbrcSig sw x => Sys2Proof.Machine.execLbrcSig sw x s
  | .lbrcEnd sw => Sys2Proof.Machine.execLbrcEnd sw s
  | .xcp sw d x y => Sys2Proof.Machine.execXcp sw d x y s
  | .xcpt sw d x => Sys2Proof.Machine.execXcpt sw d x s
  | .xget sw d x y => Sys2Proof.Machine.execXget sw d x y s
  | .xput sw d x y => Sys2Proof.Machine.execXput sw d x y s
  | .xputd sw d x y => Sys2Proof.Machine.execXputd sw d x y s
  | .xred sw d x y => Sys2Proof.Machine.execXred sw d x y s
  | .xgth sw d x y => Sys2Proof.Machine.execXgth sw d x y s
  | .xsct sw d x y => Sys2Proof.Machine.execXsct sw d x y s
  | .xbc sw d x y => Sys2Proof.Machine.execXbc sw d x y s
  | .xlat sw d x y => Sys2Proof.Machine.execXlat sw d x y s
  | .xfab sw d x y => Sys2Proof.Machine.execXfab sw d x y s
  | .xfen sw x => Sys2Proof.Machine.execXfen sw x s
  | .xsig sw x y => Sys2Proof.Machine.execXsig sw x y s
  | .xwte sw x y => Sys2Proof.Machine.execXwte sw x y s
  | .xaluLi sw d imm => Sys2Proof.Machine.execXaluLi sw d imm s
  | .xaluAdd sw d x => Sys2Proof.Machine.execXaluAdd sw d x s
  | .xaluShl sw d imm => Sys2Proof.Machine.execXaluShl sw d imm s
  | .xaluMul sw d x => Sys2Proof.Machine.execXaluMul sw d x s
  | .xbrcLoop sw => Sys2Proof.Machine.execXbrcLoop sw s
  | .xbrcNext sw d => Sys2Proof.Machine.execXbrcNext sw d s
  | .xbrcEnd sw => Sys2Proof.Machine.execXbrcEnd sw s
  | .trap sw c => Sys2Proof.Machine.execTrap sw c s
  | .tret sw => Sys2Proof.Machine.execTret sw s
  | .brk sw c => Sys2Proof.Machine.execBrk sw c s
  | .setkey sw x y => Sys2Proof.Machine.execSetkey sw x y s
  | .setstrm sw x => Sys2Proof.Machine.execSetstrm sw x s
  | .rdcnt sw d n => Sys2Proof.Machine.execRdcnt sw d n s
  | .amaxr sw d => Sys2Proof.Machine.execAmaxr sw d s
  | .rdtrap sw d k => Sys2Proof.Machine.execRdtrap sw d k s
  | .wrtrap sw y => Sys2Proof.Machine.execWrtrap sw y s
  | .sethnd sw x => Sys2Proof.Machine.execSethnd sw x s
  | .killt sw => Sys2Proof.Machine.execKillt sw s
  | .launch sw d x => Sys2Proof.Machine.execLaunch sw d x s
  | .evwait sw d x => Sys2Proof.Machine.execEvwait sw d x s
  | .evpop sw d x => Sys2Proof.Machine.execEvpop sw d x s
  | .evsig sw d x y => Sys2Proof.Machine.execEvsig sw d x y s
  | .qcfg sw d x y => Sys2Proof.Machine.execQcfg sw d x y s
  | .qfence sw d x => Sys2Proof.Machine.execQfence sw d x s
  | .qdig sw d x => Sys2Proof.Machine.execQdig sw d x s
  | .preempt sw d x => Sys2Proof.Machine.execPreempt sw d x s
  | .kill sw d x y => Sys2Proof.Machine.execKill sw d x y s
  | .ptout sw d x y => Sys2Proof.Machine.execPtout sw d x y s
  | .ckpt sw d x y => Sys2Proof.Machine.execCkpt sw d x y s
  | .rstor sw d x => Sys2Proof.Machine.execRstor sw d x s
  | .phasec sw d x => Sys2Proof.Machine.execPhasec sw d x s
  | .illegalInstruction => Sys2Proof.Machine.execIllegalInstruction s
  | .ctlIllegal => Sys2Proof.Machine.execCtlIllegal s
  | .engineIllegal => Sys2Proof.Machine.execEngineIllegal s
  | .resultReturn group flight => Sys2Proof.Machine.execResultReturn group flight s
  | .chunkCommit cluster => Sys2Proof.Machine.execChunkCommit cluster s
  | .spawnBinTimer core bin => Sys2Proof.Machine.execSpawnBinTimer core bin s
  | .sleepExpiry group set => Sys2Proof.Machine.execSleepExpiry group set s
  | .replayDiverge launch cluster => Sys2Proof.Machine.execReplayDiverge launch cluster s
  | .boundaryOpen part => Sys2Proof.Machine.execBoundaryOpen part s
  | .exchangeOpen part => Sys2Proof.Machine.execExchangeOpen part s
  | .boundaryClose part => Sys2Proof.Machine.execBoundaryClose part s
  | .boundaryMessage part member plane count atEnd => Sys2Proof.Machine.execBoundaryMessage part member plane count atEnd s
  | .straggler part => Sys2Proof.Machine.execStraggler part s
  | .exchangeLate part => Sys2Proof.Machine.execExchangeLate part s
  | .phaseMaxExpiry launch => Sys2Proof.Machine.execPhaseMaxExpiry launch s
  | .evwaitTimeout cluster => Sys2Proof.Machine.execEvwaitTimeout cluster s
  | .engineProgramStart core unit => Sys2Proof.Machine.execEngineProgramStart core unit s
  | .fabricWriteArrival w => Sys2Proof.Machine.execFabricWriteArrival w s
  | .trapDelivery group => Sys2Proof.Machine.execTrapDelivery group s
  | .fpTrapWindowClose team => Sys2Proof.Machine.execFpTrapWindowClose team s
  | .strikeReport region => Sys2Proof.Machine.execStrikeReport region s
  | .scrub find => Sys2Proof.Machine.execScrub find s
  | .checkpointDrainEnd part => Sys2Proof.Machine.execCheckpointDrainEnd part s
  | .checkpointDrainTimeout part => Sys2Proof.Machine.execCheckpointDrainTimeout part s
  | .throttle => Sys2Proof.Machine.execThrottle s
  | .throttleEnd => Sys2Proof.Machine.execThrottleEnd s
  | .thermalTrip => Sys2Proof.Machine.execThermalTrip s
  | .frzNFall => Sys2Proof.Machine.execFrzNFall s
  | .frzNRise => Sys2Proof.Machine.execFrzNRise s
  | .idcode => Sys2Proof.Machine.execIdcode s
  | .segsel segment => Sys2Proof.Machine.execSegsel segment s
  | .segread => Sys2Proof.Machine.execSegread s
  | .bypass => Sys2Proof.Machine.execBypass s
  | .powerUp facts => Sys2Proof.Machine.execPowerUp facts s
  | .powerLoss => Sys2Proof.Machine.execPowerLoss s
  | .porstN facts => Sys2Proof.Machine.execPorstN facts s
  | .srstN facts => Sys2Proof.Machine.execSrstN facts s
  | .freeze h => Sys2Proof.Machine.execFreeze h s
  | .warmStart h facts => Sys2Proof.Machine.execWarmStart h facts s
  | .coldStart h clear facts => Sys2Proof.Machine.execColdStart h clear facts s
  | .clearMonitor h index => Sys2Proof.Machine.execClearMonitor h index s
  | .setBinning h index log2 base width => Sys2Proof.Machine.execSetBinning h index log2 base width s
  | .recalibrate h => Sys2Proof.Machine.execRecalibrate h s
  | .recalibrateDone counts => Sys2Proof.Machine.execRecalibrateDone counts s
  | .pathDelayMeasurement unit low => Sys2Proof.Machine.execPathDelayMeasurement unit low s
  | .temperatureSample sensor value => Sys2Proof.Machine.execTemperatureSample sensor value s
  | .hello h role part flags => Sys2Proof.Machine.execHello h role part flags s
  | .helloCreate h role flags desc => Sys2Proof.Machine.execHelloCreate h role flags desc s
  | .helloDestroy h role part flags => Sys2Proof.Machine.execHelloDestroy h role part flags s
  | .load h space addr data => Sys2Proof.Machine.execLoad h space addr data s
  | .loadHostPortRecord h data => Sys2Proof.Machine.execLoadHostPortRecord h data s
  | .read h space addr len => Sys2Proof.Machine.execRead h space addr len s
  | .start h cluster entry replace base image args => Sys2Proof.Machine.execStart h cluster entry replace base image args s
  | .xlateQuery h addr len arg => Sys2Proof.Machine.execXlateQuery h addr len arg s
  | .xlateMap h addr len arg => Sys2Proof.Machine.execXlateMap h addr len arg s
  | .xlateUnmap h addr len arg => Sys2Proof.Machine.execXlateUnmap h addr len arg s
  | .xlateSetAttributes h addr len arg => Sys2Proof.Machine.execXlateSetAttributes h addr len arg s
  | .xlateBindFabricWindow h addr len arg => Sys2Proof.Machine.execXlateBindFabricWindow h addr len arg s
  | .xlateMigrate h addr len arg => Sys2Proof.Machine.execXlateMigrate h addr len arg s
  | .atomicAdd32 h addr operand compare => Sys2Proof.Machine.execAtomicAdd32 h addr operand compare s
  | .atomicAdd64 h addr operand compare => Sys2Proof.Machine.execAtomicAdd64 h addr operand compare s
  | .atomicSwap32 h addr operand compare => Sys2Proof.Machine.execAtomicSwap32 h addr operand compare s
  | .atomicCas32 h addr operand compare => Sys2Proof.Machine.execAtomicCas32 h addr operand compare s
  | .atomicCas64 h addr operand compare => Sys2Proof.Machine.execAtomicCas64 h addr operand compare s
  | .ckptMsgStart h desc => Sys2Proof.Machine.execCkptMsgStart h desc s
  | .ckptMsgWait h desc => Sys2Proof.Machine.execCkptMsgWait h desc s
  | .ckptMsgPoll h desc => Sys2Proof.Machine.execCkptMsgPoll h desc s
  | .ckptMsgRstor h desc => Sys2Proof.Machine.execCkptMsgRstor h desc s
  | .plaganAck h => Sys2Proof.Machine.execPlaganAck h s
  | .retransmit session => Sys2Proof.Machine.execRetransmit session s
  | .neighbourSolicitation target => Sys2Proof.Machine.execNeighbourSolicitation target s
  | .nonPlaganFrame => Sys2Proof.Machine.execNonPlaganFrame s
  | .fabricPortDown port => Sys2Proof.Machine.execFabricPortDown port s
  | .fabricPortUp port => Sys2Proof.Machine.execFabricPortUp port s
  | .stopSignal port stop => Sys2Proof.Machine.execStopSignal port stop s
  | .fabricAcknowledgement core unit refused => Sys2Proof.Machine.execFabricAcknowledgement core unit refused s
  | .sweepEnd core lattice => Sys2Proof.Machine.execSweepEnd core lattice s
  | .matrixOperationComplete group op => Sys2Proof.Machine.execMatrixOperationComplete group op s
  | .rstorComplete part read => Sys2Proof.Machine.execRstorComplete part read s
  | .corruptPlaganMessage => Sys2Proof.Machine.execCorruptPlaganMessage s
  | .tripCooldown => Sys2Proof.Machine.execTripCooldown s
  | .calibrationExpiry hours => Sys2Proof.Machine.execCalibrationExpiry hours s

end Sys2Proof.Machine
end

