-- ==== Sys2Proof/Machine/Fetch.lean ====
section
/-! DEFINITION. Fetching: which word a move issues, with the hints of its run, or the event it is; and the passing of
cycles before a move. -/

namespace Sys2Proof.Machine

/-- Reads a run (03 R65). When the target alone is illegal it is the word that the issue names; when a hint is at
fault, or the run is at fault as a whole, the issue names the run's first word (04 R88, R89). A run that meets the end of
the section names the end, with the word 0. `bad` stands for an illegal word. -/
noncomputable def readRun (a : Actor) (ws : List Nat) (pc : Word) (bad : Instr) : Issue × Instr :=
  let r := decodeRun 4 ws {} 0
  let is : Issue :=
    { actor := a, hints := r.hints, runPc := pc, pc := pc + BitVec.ofNat 32 (4 * r.offset),
      word := BitVec.ofNat 32 r.word, first := BitVec.ofNat 32 (ws.headD 0) }
  match r.instr with
  | .ok i => (is, i)
  | .error _ =>
    if r.word / 2 ^ 26 % 32 = 0 && decide (r.offset < ws.length) then ({ is with word := is.first, pc := pc }, bad)
    else (is, bad)

/-- The issue of a group's set. A thread that falls through past the last word of the text section raises
ILLEGAL_INSTRUCTION at the last word (03 R56). -/
noncomputable def fetchGroup (s : State) (gid set : Nat) : Option (Issue × Instr) :=
  match groupTriple s gid with
  | none => none
  | some (g, t, l) =>
    if !deviceRuns s || t.killed || !setAdmitted s l g gid set then none
    else
      let pc := (laneAt g.regs (leastD (setLanes g.regs set) 0)).pc
      if pc.toNat = 4 * l.text.length then
        some ({ actor := .group gid set, runPc := pc - 4#32, pc := pc - 4#32 }, .illegalInstruction)
      else some (readRun (.group gid set) (sectionRun l.text pc.toNat) pc .illegalInstruction)

/-- The words of a cluster's control section from a byte offset on, enough for a run (04 R85, 07 R134). -/
def controlRun (s : State) (c : Nat) (k : Ctl) : List Nat :=
  ((upto 5).filter (fun j => decide (k.pc.toNat + 4 * j + 4 ≤ k.size))).map (fun j =>
    mreadN s.cmem (c * Config.controlBytes + k.base + k.pc.toNat + 4 * j) 4)

/-- The issue of a control core. A core that waits in an instruction issues it again, which asks whether it can
complete (07 R136). -/
noncomputable def fetchControl (s : State) (c : Nat) : Option (Issue × Instr) :=
  let k := (clusterAt s c).ctl
  if !deviceRuns s || !k.running || (partOf s c).isNone then none
  else some (readRun (.control c) (controlRun s c k) k.pc .ctlIllegal)

/-- The issue of a sequencer: not while an operation of its program waits for its commit, a sweep or an
acknowledgement. Hints have no place in its sections (04 R87, R90). DESIGN CHOICE (log entry 146): an entry of the offset
table beyond the section, or within a word, is taken as it stands. -/
noncomputable def fetchSequencer (s : State) (core unit : Nat) : Option (Issue × Instr) :=
  match seqAt s core unit with
  | none => none
  | some q =>
    let p := q.p
    if !deviceRuns s || p.op.isSome || p.sweeps != 0 || p.health.isSome || p.fabWait || p.sweptAt.isSome then none
    else
      let ws := match p.kind with
        | .copy => q.l.copy
        | .exchange => q.l.exch
        | .lattice => q.l.latt
      let pc := BitVec.ofNat 32 p.pc
      let is : Issue := { actor := .sequencer core unit, runPc := pc, pc := pc }
      match ws[p.pc / 4]? with
      | none => some (is, .engineIllegal)
      | some w =>
        match decodeWord w.toNat with
        | .ok i => some ({ is with word := w, first := w }, i)
        | .error _ => some ({ is with word := w, first := w }, .engineIllegal)

/-- Where a happening stands among those of its kind that meet in one cycle: strike reports, commits, KILLs and
rollbacks (08 R181, 23 R429); LAUNCH, QCFG and CKPT by cluster (07 R140, R148, 23 R421); closes by partition
(08 R163); PORST_N before SRST_N (24 R445); an XSIG before the XWTEs, whose tests it counts in (11 R253). -/
def turnPlace (m : Move) (i : Instr) : Option (Nat × Nat) :=
  match m, i with
  | .event _, .strikeReport _ => some (0, 0)
  | .event _, .chunkCommit _ => some (0, 1)
  | .control _, .kill _ _ _ _ => some (0, 2)
  | .event _, .scrub _ => some (0, 3)
  | .control c, .launch _ _ _ => some (1, c)
  | .control c, .qcfg _ _ _ _ => some (1, c)
  | .control c, .ckpt _ _ _ _ => some (1, c)
  | .event _, .boundaryClose n => some (2, n)
  | .event _, .porstN _ => some (4, 0)
  | .event _, .srstN _ => some (4, 1)
  | .sequencer _ _, .xsig _ _ _ => some (5, 0)
  | .sequencer _ _, .xwte _ _ _ => some (5, 1)
  | _, _ => none

/-- Whether a happening is still in time: none of its kind with a later place has come in this cycle. One that is not
comes in a later cycle. -/
def inTurn (s : State) (m : Move) (i : Instr) : Bool :=
  match turnPlace m i with
  | some (k, p) => decide (tgetD s.turn k 0 ≤ p)
  | none => true

/-- Notes how far the happenings of a cycle have come. -/
def noteTurn (s : State) (m : Move) (i : Instr) : State :=
  match turnPlace m i with
  | some (k, p) => { s with turn := tput s.turn k p }
  | none => s

/-- The instruction or event that a move names; none for a move that is not enabled. A word and the three events of an
illegal word come only from an executor; a test-access instruction is an event of its port (23 R426). -/
noncomputable def namedMove (s : State) (m : Move) : Option (Issue × Instr) :=
  match m with
  | .issue g set => fetchGroup s g set
  | .control c => fetchControl s c
  | .sequencer core unit => fetchSequencer s core unit
  | .event i =>
    match i with
    | .illegalInstruction => none
    | .ctlIllegal => none
    | .engineIllegal => none
    | .idcode => some ({}, i)
    | .segsel _ => some ({}, i)
    | .segread => some ({}, i)
    | .bypass => some ({}, i)
    | _ => if (encode i).isSome then none else some ({}, i)

/-- The instruction or event of a move, when it is enabled and in its turn. -/
noncomputable def fetchMove (s : State) (m : Move) : Option (Issue × Instr) :=
  (namedMove s m).filter (fun x => inTurn s m x.2)

/-- The next move: the first of the agenda, or a free one, with the cycles that pass before it. -/
def nextMove (s : State) : (Nat × Move) × State :=
  match s.agenda with
  | [] => (Config.freeMove s.freeCount, { s with freeCount := s.freeCount + 1 })
  | m :: rest => (m, { s with agenda := rest })

/-- The time of d cycles passes, once the arrivals of the cycle that ends are noted (24 R434); a frozen device's counter
stands (23 R425, 05 R107). -/
def passCycles (s : State) (d : Nat) : State :=
  { s with parts := noteArrivals s, cycle := if s.dev.frozen = .none then s.cycle + d else s.cycle, turn := if d = 0 then s.turn else [] }

/-! ### Placing a word where it is fetched next -/

/-- A launch that holds one word in each of its sections, with every register and 2 MiB of local memory. -/
def probeLaunch (part : Nat) (w : Word) : Launch :=
  { parseLaunch part 0 0 [] [] with
    alloc := { w := 16, v := 64, s := 64, t := 16, a := 16 }, groups := 1, lm := Config.localBytes, pref := 1, fb := 1,
    grid := (1, 1, 1), chunkq := 4096, phase := .running, checked := true, nextGang := 1,
    text := [w], exch := [], copy := [w], latt := [w] }

/-- A team of that launch on core 0. -/
def probeTeam (lid : Nat) : Team :=
  { launch := lid, gang := 0, index := 0, gangSize := 1, cluster := 0, cores := [0], logicalCore := 0,
    logicalCluster := 0, vbase := [0], pbase := [0], tslots := [0], nextLtid := 1, nextGroup := 1 }

/-- A group of that team with one thread at the word. -/
def probeGroup (tid : Nat) : Group :=
  { team := tid, index := 0, alloc := { w := 16, v := 64, s := 64, t := 16, a := 16 }, core := 0, slot := 0,
    regs := { lanes := [(0, { status := .live })] } }

/-- The partition that holds cluster 0, made when there is none. -/
def probePart (s : State) : State :=
  match partOf s 0 with
  | some _ => s
  | none => setPart s s.nextId
      { clusters := upto 16, weight := 1, ports := [], quota := 0, strag := 2 ^ 30, exch := 2 ^ 30, spanTag := 0, spanSize := 1 }

/-- Stores a word where `m` fetches it. -/
def placeWord (s : State) (w : Word) : State :=
  let s1 := probePart { s with dev := { s.dev with run := .running, frozen := .none } }
  let part := (partOf s1 0).getD 0
  let lid := s1.nextId + 1
  let tid := s1.nextId + 2
  let gid := s1.nextId + 3
  let s2 := { setTeam (setLaunch s1 lid (probeLaunch part w)) tid (probeTeam lid) with nextId := s1.nextId + 5, turn := [] }
  let prog := fun (k : ProgKind) => ({ uid := s1.nextId + 4, kind := k, team := tid, group := none, offset := 0, pc := 0 } : Prog)
  match w.toNat / 2 ^ 26 % 32 with
  | 27 =>
    let s3 := setLattice (setEngine s2 0 4 { run := some (prog .lattice) }) 0 ((physicalLattice s2 0 0).getD 0) { owner := some tid }
    { s3 with agenda := (0, .sequencer 0 4) :: s.agenda }
  | 28 => { setEngine s2 0 0 { run := some (prog .copy) } with agenda := (0, .sequencer 0 0) :: s.agenda }
  | 30 =>
    let s3 := storeControl (onCtl s2 0 (fun k => { k with running := true, base := 0, size := 4, pc := 0#32, wait := .none })) 0 (0, wordBytes w)
    { s3 with agenda := (0, .control 0) :: s.agenda }
  | _ => { setGroup s2 gid (probeGroup tid) with agenda := (0, .issue gid 0) :: s.agenda }

end Sys2Proof.Machine
end

