-- ==== Sys2Proof/Machine/Step.lean ====
section
/-! DEFINITION. One step of the device: cycles pass, then the next move takes place. -/

namespace Sys2Proof.Machine

/-- One step: the next move of the agenda, or a free one. A move that is not enabled changes nothing more. -/
noncomputable def step (s : State) : Host.Outcome State Fault Refusal :=
  let m := nextMove s
  let s1 := passCycles m.2 m.1.1
  match fetchMove s1 m.1.2 with
  | none => .next s1
  | some (is, i) => exec i (noteTurn { s1 with issue := is } m.1.2 i)

/-- The state with an instruction placed where the next step fetches it: a word in the program of the executor that
takes it, loaded as the image of a launch, a control program or an engine program; a test-access instruction as the
next event of the frozen device (23 R426). -/
noncomputable def State.withFetchWord (s : State) (nbits w : Nat) : State :=
  if nbits = 32 then placeWord s (BitVec.ofNat 32 w)
  else
    match decodeTap w with
    | .ok i => { s with dev := { s.dev with run := .running, frozen := .pin }, agenda := (0, .event i) :: s.agenda }
    | .error _ => s

end Sys2Proof.Machine
end

