-- ==== Sys2Proof/Safety.lean ====
section
/-! DEFINITION. What counts as a safe run, and the terms of the claims: when an executor issues a word that has its own
effect, what such a word leaves unchanged, and what it means that a register of one kind has been written. -/

namespace Sys2Proof

open Sys2Proof.Machine

/-- Every byte memory of the device is in canonical form. -/
def memoriesWf (s : Machine.State) : Bool :=
  Machine.Memory.wf s.lmem && Machine.Memory.wf s.lbits && Machine.Memory.wf s.lsnap && Machine.Memory.wf s.cmem && Machine.Memory.wf s.gmem

/-- A step that ends in a next state with canonical memories, or in a refusal. -/
def safeStep (s : Machine.State) : Prop :=
  match Machine.step s with
  | .next s' => memoriesWf s' = true
  | .fault _ => False
  | .refused _ => True

/-! ### A group's word -/

/-- An issue set of a group issues a word of form f that is legal for it (04 R88) and waits for no other set (16 R309);
i is what its meaning reads. -/
def GroupIssues (s : State) (f : Form) (i : In) : Prop :=
  ∃ gid set g t l, s.issue.actor = .group gid set ∧ groupTriple s gid = some (g, t, l) ∧
    i = issueIn s gid set f g t l ∧ formIllegal f s.issue.hints l.alloc = false ∧ (sourceHazard i).2 = false

/-- Every lane of the issue set is ready (06 R115). -/
def setReady (i : In) : Prop := ∀ k ∈ i.lanes, (laneAt i.g.regs k).wait = .ready

/-- The device without what a group's word may change: its groups, teams and cores, and the counter of results. -/
def outside (s : State) : State := { s with groups := [], teams := [], cores := [], nextId := 0 }

/-- The facts of a group that no word of its own changes: team, place, allocation, forks, busy tiles, run counts. -/
def standingOf (g : Group) : Group :=
  { g with regs := {}, inflight := [], cur := none, running := none, nextSet := 0, nextQuantum := 0, flights := [] }

/-- The architectural registers of a group but those of its trap service, whose parked sub-groups may enter a window of
their team (14 R287). -/
def withoutTrap (c : GroupCore) : GroupCore := { c with trap := {} }

/-- What a word of a group leaves as it was in the rest of the device: all memory and every unit, what the cores hold, the
registers of every other group, and every team register but the hazard counter (02 R45, R49). -/
structure RestKept (s t : State) (i : In) (g : Group) : Prop where
  device : outside t = outside s
  cores : t.cores = s.cores
  groups : ∀ k, k ≠ i.gid → (tget t.groups k).map (fun x => withoutTrap x.regs) = (tget s.groups k).map (fun x => withoutTrap x.regs)
  teams : ∀ k n, n ≠ 9 → (tget t.teams k).map (fun u => teamReg u n) = (tget s.teams k).map (fun u => teamReg u n)
  place : standingOf g = standingOf i.g

/-- A result that is outstanding: its class, register key, tag and value (02 R43, R46). -/
def flightFacts (f : Flight) : Nat × Nat × Nat × Word := (f.cls, f.key, f.tag, f.val)

/-- What a word adds to what the group's uncommitted chunks hold and to its outstanding results: bytes stored and bits
changed (newest first), other effects and results (in program order). What it does not add is as it was (08 R177). -/
structure ChunksGain (i : In) (g : Group) (stores : List Host.Cell) (tags : List TagStore) (effs : List Eff)
    (results : List (Nat × Nat × Nat × Word)) : Prop where
  stores : ownStores g = stores ++ ownStores i.g
  tags : ownTags g = tags ++ ownTags i.g
  effs : ownEffs g = ownEffs i.g ++ effs
  flights : g.flights.map flightFacts = i.g.flights.map flightFacts ++ results

/-- A word that stores nothing, has no effect that waits for a commit and has no outstanding result: a byte of local
memory reads in the group's view as before. -/
def ChunksKept (i : In) (g : Group) : Prop := ChunksGain i g [] [] [] []

/-- The registers besides the vector, uniform and predicate files: tiles, accumulators, masks, joins and the registers
that a delivered trap fills (02 R49). -/
structure SpecialsKept (i : In) (g : Group) : Prop where
  tiles : g.regs.tiles = i.g.regs.tiles
  accs : g.regs.accs = i.g.regs.accs
  masks : g.regs.masks = i.g.regs.masks
  unjoined : g.regs.unjoined = i.g.regs.unjoined
  trap : (g.regs.trap.cause, g.regs.trap.pc, g.regs.trap.addr, g.regs.trap.done, g.regs.trap.after) =
    (i.g.regs.trap.cause, i.g.regs.trap.pc, i.g.regs.trap.addr, i.g.regs.trap.done, i.g.regs.trap.after)

/-- Those of them that are neither masks nor the written trap_pc: tiles, accumulators, joins, and what else a delivered
trap fills (02 R49). -/
structure PoolsKept (i : In) (g : Group) : Prop where
  tiles : g.regs.tiles = i.g.regs.tiles
  accs : g.regs.accs = i.g.regs.accs
  unjoined : g.regs.unjoined = i.g.regs.unjoined
  trap : (g.regs.trap.cause, g.regs.trap.addr, g.regs.trap.done, g.regs.trap.after) =
    (i.g.regs.trap.cause, i.g.regs.trap.addr, i.g.regs.trap.done, i.g.regs.trap.after)

/-- The registers once the last uses of the word's sources have released theirs in the lanes `ls` (03 R61). -/
def released (i : In) (ls : List Nat) : GroupCore := releaseSources i ls i.g.regs

/-- Vector register d holds `f k` in every lane k of `ls`; every other register of the three files is as it was, but for
the released sources. -/
structure VectorWritten (i : In) (g : Group) (d : Nat) (ls : List Nat) (f : Nat → Word) : Prop where
  value : ∀ k ∈ ls, readV g.regs k d = (f k, false)
  others : ∀ k r, r < 64 → ¬(k ∈ ls ∧ r = d) → vreg g.regs k r = vreg (released i ls) k r
  uniform : g.regs.s = (released i ls).s
  preds : g.regs.p = (released i ls).p

/-- A register file in which results for these keys, in this order, have become outstanding (02 R43, R46). -/
def pendingFile (t : Table Reg) (keys : List Nat) : Table Reg :=
  keys.foldl (fun t k => tput t k (issuedReg (tgetD t k {}))) t

/-- The outstanding results of a class, by key and value, each with the tag that its register takes (02 R46). -/
def resultsOf (t : Table Reg) (cls : Nat) (vs : List (Nat × Word)) : List (Nat × Nat × Nat × Word) :=
  match vs with
  | [] => []
  | (k, v) :: rest => (cls, k, (tgetD t k {}).tag + 1, v) :: resultsOf (tput t k (issuedReg (tgetD t k {}))) cls rest

/-- The vector registers of these keys are pending with advanced tags; every other register of the three files is as it
was, but for the sources released in the lanes `ls`. -/
structure VectorsPending (i : In) (g : Group) (ls : List Nat) (keys : List Nat) : Prop where
  vector : g.regs.v = pendingFile (released i ls).v keys
  uniform : g.regs.s = (released i ls).s
  preds : g.regs.p = (released i ls).p

/-- What a parked sub-group keeps: its lanes, where it stands, the word after it, cause, address and done mask. -/
def parkFacts (p : Park) : LaneMask × Word × Word × Nat × Word × LaneMask := (p.lanes, p.pc, p.after, p.cause, p.addr, p.done)

/-- The lowest cause of a list of traps (lane, cause, address). -/
def leastCause (traps : List (Nat × Nat × Word)) : Nat := (traps.map (·.2.1)).foldl min ((traps.map (·.2.1)).headD 0)

/-- One more sub-group is parked: the lanes that `traps` names (lane, cause, address), at the first word of the run, with
the lowest cause, the address of the lowest lane with that cause, and the set's other lanes as done mask (06 R127,
21 R386). -/
structure SubgroupParked (i : In) (g : Group) (traps : List (Nat × Nat × Word)) : Prop where
  parks : ∃ k addr, (k, leastCause traps, addr) ∈ traps ∧ (∀ e ∈ traps, e.2.1 = leastCause traps → k ≤ e.1) ∧
    g.regs.trap.parks.map parkFacts = i.g.regs.trap.parks.map parkFacts ++
      [(maskOf (traps.map (·.1)), i.runPc, i.pc + 4#32, leastCause traps, addr,
        maskOf (i.lanes.filter (fun k => !(traps.map (·.1)).contains k)))]
  lanes : ∀ k ∈ traps.map (·.1), (laneAt g.regs k).wait = .parked ∧ (laneAt g.regs k).pc = i.runPc

/-! ### Accesses of local memory -/

/-- The physical address of the n bytes that lane k accesses, when they pass the checks of 09 R195. -/
def accessAt (i : In) (addr : Nat → Word) (n align k : Nat) : Option Nat :=
  match checkLocal i.s i.t i.l (addr k) n align with
  | .ok p => some p
  | .error _ => none

/-- The accesses of the executing lanes that pass the checks: lane and physical address, in the order of the lanes. -/
def passing (i : In) (addr : Nat → Word) (n align : Nat) : List (Nat × Nat) :=
  i.act.filterMap (fun k => (accessAt i addr n align k).map (fun p => (k, p)))

/-- The traps of the executing lanes that fail the checks: lane, cause, address. -/
def failing (i : In) (addr : Nat → Word) (n align : Nat) : List (Nat × Nat × Word) :=
  i.act.filterMap (fun k => match checkLocal i.s i.t i.l (addr k) n align with
    | .ok _ => none
    | .error e => some (k, e.1, e.2))

/-- The open chunk has room for an access to these lines, whose effect on it is `upd`: its signatures take them, as those of
a fresh chunk do in any case, and its store buffer takes the effect (08 R174, R175). -/
def roomFor (i : In) (reads writes : List Nat) (upd : Chunk → Chunk) : Prop :=
  ∃ c c1, i.g.cur = some c ∧ enterAccess c reads writes = some c1 ∧
    segmentsFit i.s i.l i.g (upd c1) i.gid = true

/-- The open chunk's signatures have room for an access (08 R174). -/
def signatureRoom (i : In) (reads writes : List Nat) : Prop :=
  ∃ c c1, i.g.cur = some c ∧ enterAccess c reads writes = some c1

/-- The lines that n bytes at each lane's address touch. -/
def linesAt (addr : Nat → Word) (n : Nat) (ls : List Nat) : List Nat := ls.flatMap (fun k => lineInputs (addr k).toNat n)

/-- The bytes that a store at p leaves, newest first. -/
def storedCells (p : Nat) (bs : List Byte) : List Host.Cell := ((upto bs.length).map (fun j => (p + j, bs.getD j 0#8))).reverse

/-- Uniform register d holds v when any lane executes; every other register is as it was, but for the released sources. -/
structure UniformWritten (i : In) (g : Group) (d : Nat) (v : Word) : Prop where
  value : i.act ≠ [] → readS g.regs d = (v, false)
  idle : i.act = [] → sreg g.regs d = sreg (released i i.act) d
  others : ∀ r, r ≠ d → sreg g.regs r = sreg (released i i.act) r
  vector : g.regs.v = (released i i.act).v
  preds : g.regs.p = (released i i.act).p

/-- Predicate d holds `f k` in every lane k of `ls`, unless it is p7, whose write is discarded (02 R40); every other
register is as it was, but for the released sources. -/
structure PredWritten (i : In) (g : Group) (d : Nat) (ls : List Nat) (f : Nat → Bool) : Prop where
  value : d ≠ 7 → ∀ k ∈ ls, readP g.regs k d = (f k, false)
  seventh : ∀ k, readP g.regs k 7 = (true, false)
  others : ∀ k r, r < 8 → ¬(k ∈ ls ∧ r = d) → preg g.regs k r = preg (released i ls) k r
  vector : g.regs.v = (released i ls).v
  uniform : g.regs.s = (released i ls).s

/-- Every register of the three files is as it was, but for the sources released in the lanes `ls`. -/
structure FilesKept (i : In) (g : Group) (ls : List Nat) : Prop where
  vector : g.regs.v = (released i ls).v
  uniform : g.regs.s = (released i ls).s
  preds : g.regs.p = (released i ls).p

/-- Lane k stands at an address in a wait. -/
def standsAt (g : Group) (k : Nat) (pc : Word) (w : Wait) : Prop := (laneAt g.regs k).pc = pc ∧ (laneAt g.regs k).wait = w

/-- The instruction, issued by a group, completes: it ends in a next state in which the group is the one that `P` tells
of, and the rest of the device is as it was. -/
def Completes (ins : Instr) (s : State) (i : In) (P : Group → Prop) : Prop :=
  ∃ t g, exec ins s = .next t ∧ tget t.groups i.gid = some g ∧ P g ∧ RestKept s t i g

/-! ### A control core's word -/

/-- A control core issues a word of form f that is legal for it, with its guard 1 (04 R85, R86, R89). -/
structure ControlIssues (s : State) (f : Form) (c : Nat) : Prop where
  actor : s.issue.actor = .control c
  legal : f.illegal = false
  plain : isRouted f.x = false ∧ isRouted f.y = false ∧ isRouted f.sx = false ∧ isRouted f.sy = false
  route : s.issue.hints.route = none
  imm : s.issue.hints.imm.isSome = true → f.imm = true
  guard : f.guarded = true → ctlPred (clusterAt s c).ctl (predField s.issue.hints 7) = true

/-- The control core of a cluster. -/
def ctlAt (s : State) (c : Nat) : Ctl := (clusterAt s c).ctl

/-- The device with a control core replaced and nothing else. -/
def withCtl (s : State) (c : Nat) (k : Ctl) : State := setCluster s c { clusterAt s c with ctl := k }

end Sys2Proof
end

