-- ==== Sys2Proof/Certificates/Slice0/Obligations.lean ====
section
/-! DEFINITION. The statements for the provers. Before each group of statements stand the tables of the spec that they
speak of, as functions and inductive relations: one constructor for each row of a table. -/

namespace Sys2Proof

open Sys2Proof.Machine

/-! ### Integer tables (05 R92-R98) -/

/-- The result of integer operation fn, 0 to 14, of the operands a and b (05 R92, R93). -/
def integerResult (fn : Nat) (a b : Word) : Word :=
  match fn with
  | 0 => BitVec.ofNat 32 (a.toNat + b.toNat)
  | 1 => BitVec.ofInt 32 ((a.toNat : Int) - b.toNat)
  | 2 => BitVec.ofNat 32 (a.toNat * b.toNat)
  | 3 => BitVec.ofInt 32 (a.toInt * b.toInt / 2 ^ 32)
  | 4 => BitVec.ofNat 32 (a.toNat * b.toNat / 2 ^ 32)
  | 5 => BitVec.ofInt 32 (min a.toInt b.toInt)
  | 6 => BitVec.ofInt 32 (max a.toInt b.toInt)
  | 7 => BitVec.ofNat 32 (min a.toNat b.toNat)
  | 8 => BitVec.ofNat 32 (max a.toNat b.toNat)
  | 9 => a &&& b
  | 10 => a ||| b
  | 11 => a ^^^ b
  | 12 => if b.toNat < 32 then BitVec.ofNat 32 (a.toNat * 2 ^ b.toNat) else 0#32
  | 13 => if b.toNat < 32 then BitVec.ofNat 32 (a.toNat / 2 ^ b.toNat) else 0#32
  | _ => if b.toNat < 32 then BitVec.ofInt 32 (a.toInt / 2 ^ b.toNat) else if a.toInt < 0 then 0xFFFFFFFF#32 else 0#32

/-- The immediate of a Format I word, or the unscaled offset of a Format M word (03 R64, R66). -/
def immediateOf (h : Hints) (low : BitVec 8) : Word :=
  let sx : Nat := if low.getLsbD 7 then 0xFFFFFF else 0
  let payload : Nat := match h.imm with
    | some p => p.toNat
    | none => 0
  BitVec.ofNat 32 ((payload ^^^ sx) * 2 ^ 8 + low.toNat)

/-- IALU, major 1, of fn 0 to 14 (05 R93). -/
inductive IaluOp : Instr → Bool → BitVec 6 → Src → Src → Nat → Prop
  | iadd (sw d x y) : IaluOp (.iadd sw d x y) sw d x y 0
  | isub (sw d x y) : IaluOp (.isub sw d x y) sw d x y 1
  | imul (sw d x y) : IaluOp (.imul sw d x y) sw d x y 2
  | imulh (sw d x y) : IaluOp (.imulh sw d x y) sw d x y 3
  | umulh (sw d x y) : IaluOp (.umulh sw d x y) sw d x y 4
  | imin (sw d x y) : IaluOp (.imin sw d x y) sw d x y 5
  | imax (sw d x y) : IaluOp (.imax sw d x y) sw d x y 6
  | umin (sw d x y) : IaluOp (.umin sw d x y) sw d x y 7
  | umax (sw d x y) : IaluOp (.umax sw d x y) sw d x y 8
  | vand (sw d x y) : IaluOp (.vand sw d x y) sw d x y 9
  | vor (sw d x y) : IaluOp (.vor sw d x y) sw d x y 10
  | vxor (sw d x y) : IaluOp (.vxor sw d x y) sw d x y 11
  | shl (sw d x y) : IaluOp (.shl sw d x y) sw d x y 12
  | shr (sw d x y) : IaluOp (.shr sw d x y) sw d x y 13
  | sra (sw d x y) : IaluOp (.sra sw d x y) sw d x y 14

/-- IALUI, major 2, of fn 0 to 14 (05 R95). -/
inductive IaluiOp : Instr → Bool → BitVec 6 → Src → BitVec 8 → Nat → Prop
  | iaddi (sw d x i) : IaluiOp (.iaddi sw d x i) sw d x i 0
  | isubi (sw d x i) : IaluiOp (.isubi sw d x i) sw d x i 1
  | imuli (sw d x i) : IaluiOp (.imuli sw d x i) sw d x i 2
  | imulhi (sw d x i) : IaluiOp (.imulhi sw d x i) sw d x i 3
  | umulhi (sw d x i) : IaluiOp (.umulhi sw d x i) sw d x i 4
  | imini (sw d x i) : IaluiOp (.imini sw d x i) sw d x i 5
  | imaxi (sw d x i) : IaluiOp (.imaxi sw d x i) sw d x i 6
  | umini (sw d x i) : IaluiOp (.umini sw d x i) sw d x i 7
  | umaxi (sw d x i) : IaluiOp (.umaxi sw d x i) sw d x i 8
  | andi (sw d x i) : IaluiOp (.andi sw d x i) sw d x i 9
  | ori (sw d x i) : IaluiOp (.ori sw d x i) sw d x i 10
  | xori (sw d x i) : IaluiOp (.xori sw d x i) sw d x i 11
  | shli (sw d x i) : IaluiOp (.shli sw d x i) sw d x i 12
  | shri (sw d x i) : IaluiOp (.shri sw d x i) sw d x i 13
  | srai (sw d x i) : IaluiOp (.srai sw d x i) sw d x i 14

/-- SALU, major 10, of fn 0 to 14 (05 R98). -/
inductive SaluOp : Instr → Bool → BitVec 6 → Src → Src → Nat → Prop
  | sadd (sw d x y) : SaluOp (.sadd sw d x y) sw d x y 0
  | ssub (sw d x y) : SaluOp (.ssub sw d x y) sw d x y 1
  | smul (sw d x y) : SaluOp (.smul sw d x y) sw d x y 2
  | smulh (sw d x y) : SaluOp (.smulh sw d x y) sw d x y 3
  | sumulh (sw d x y) : SaluOp (.sumulh sw d x y) sw d x y 4
  | smin (sw d x y) : SaluOp (.smin sw d x y) sw d x y 5
  | smax (sw d x y) : SaluOp (.smax sw d x y) sw d x y 6
  | sumin (sw d x y) : SaluOp (.sumin sw d x y) sw d x y 7
  | sumax (sw d x y) : SaluOp (.sumax sw d x y) sw d x y 8
  | sand (sw d x y) : SaluOp (.sand sw d x y) sw d x y 9
  | sor (sw d x y) : SaluOp (.sor sw d x y) sw d x y 10
  | sxor (sw d x y) : SaluOp (.sxor sw d x y) sw d x y 11
  | sshl (sw d x y) : SaluOp (.sshl sw d x y) sw d x y 12
  | sshr (sw d x y) : SaluOp (.sshr sw d x y) sw d x y 13
  | ssra (sw d x y) : SaluOp (.ssra sw d x y) sw d x y 14

/-- SALUI, major 11, of fn 0 to 14 (05 R98). -/
inductive SaluiOp : Instr → Bool → BitVec 6 → Src → BitVec 8 → Nat → Prop
  | saddi (sw d x i) : SaluiOp (.saddi sw d x i) sw d x i 0
  | ssubi (sw d x i) : SaluiOp (.ssubi sw d x i) sw d x i 1
  | smuli (sw d x i) : SaluiOp (.smuli sw d x i) sw d x i 2
  | smulhi (sw d x i) : SaluiOp (.smulhi sw d x i) sw d x i 3
  | sumulhi (sw d x i) : SaluiOp (.sumulhi sw d x i) sw d x i 4
  | smini (sw d x i) : SaluiOp (.smini sw d x i) sw d x i 5
  | smaxi (sw d x i) : SaluiOp (.smaxi sw d x i) sw d x i 6
  | sumini (sw d x i) : SaluiOp (.sumini sw d x i) sw d x i 7
  | sumaxi (sw d x i) : SaluiOp (.sumaxi sw d x i) sw d x i 8
  | sandi (sw d x i) : SaluiOp (.sandi sw d x i) sw d x i 9
  | sori (sw d x i) : SaluiOp (.sori sw d x i) sw d x i 10
  | sxori (sw d x i) : SaluiOp (.sxori sw d x i) sw d x i 11
  | sshli (sw d x i) : SaluiOp (.sshli sw d x i) sw d x i 12
  | sshri (sw d x i) : SaluiOp (.sshri sw d x i) sw d x i 13
  | ssrai (sw d x i) : SaluiOp (.ssrai sw d x i) sw d x i 14

/-- Bit i of a word of 32 bits set to b. -/
def withBit (r : Word) (i : Nat) (b : Bool) : Word := if b then r ||| (1#32 <<< i) else r &&& ~~~(1#32 <<< i)

/-- BFI: the low `len` bits of a into dv at `pos`; bits that would land above bit 31 are dropped (05 R97). -/
def insertField (a dv : Word) (pos len : Nat) : Word :=
  (List.range len).foldl (fun r i => if pos + i ≤ 31 then withBit r (pos + i) (a.getLsbD i) else r) dv

/-- BFE: the field of `len` bits at `pos`, sign-extended when sx is 1 and its top bit is 1 (05 R97). -/
def extractField (a : Word) (pos len : Nat) (sx : Bool) : Word :=
  let f : Nat := (List.range len).foldl (fun n i => n + (if pos + i ≤ 31 && a.getLsbD (pos + i) then 2 ^ i else 0)) 0
  if sx && decide (0 < len) && f.testBit (len - 1) then BitVec.ofInt 32 ((f : Int) - 2 ^ len) else BitVec.ofNat 32 f

/-- IEXT words of one source: what each makes of it, under .sat or not (05 R96). -/
inductive IextOne : Instr → Bool → BitVec 6 → Src → (Bool → Word → Word) → Prop
  | iabs (sw d x) : IextOne (.iabs sw d x) sw d x (fun sat a =>
      if a.toInt = -(2 ^ 31) then (if sat then 0x7FFFFFFF#32 else 0x80000000#32) else BitVec.ofInt 32 a.toInt.natAbs)
  | ineg (sw d x) : IextOne (.ineg sw d x) sw d x (fun sat a =>
      if a.toInt = -(2 ^ 31) then (if sat then 0x7FFFFFFF#32 else 0x80000000#32) else BitVec.ofInt 32 (-a.toInt))
  | vnot (sw d x) : IextOne (.vnot sw d x) sw d x (fun _ a => a ^^^ 0xFFFFFFFF#32)
  | clz (sw d x) : IextOne (.clz sw d x) sw d x (fun _ a =>
      BitVec.ofNat 32 ((List.range 32).takeWhile (fun i => !a.getLsbD (31 - i))).length)
  | popc (sw d x) : IextOne (.popc sw d x) sw d x (fun _ a =>
      BitVec.ofNat 32 ((List.range 32).countP (fun i => a.getLsbD i)))
  | brev (sw d x) : IextOne (.brev sw d x) sw d x (fun _ a => a.reverse)

/-- IEXT words of two sources that write vd only: what each makes of a and b (05 R96, R97). -/
inductive IextTwo : Instr → Bool → BitVec 6 → Src → Src → (Word → Word → Word) → Prop
  | bfe (sw d x y) : IextTwo (.bfe sw d x y) sw d x y (fun a b =>
      extractField a (b.toNat % 256) (min (b.toNat / 256 % 256) 32) (b.getLsbD 16))
  | iadds (sw d x y) : IextTwo (.iadds sw d x y) sw d x y (fun a b =>
      BitVec.ofInt 32 (max (-(2 ^ 31)) (min (2 ^ 31 - 1) (a.toInt + b.toInt))))
  | isubs (sw d x y) : IextTwo (.isubs sw d x y) sw d x y (fun a b =>
      BitVec.ofInt 32 (max (-(2 ^ 31)) (min (2 ^ 31 - 1) (a.toInt - b.toInt))))
  | uadds (sw d x y) : IextTwo (.uadds sw d x y) sw d x y (fun a b => BitVec.ofNat 32 (min (a.toNat + b.toNat) (2 ^ 32 - 1)))
  | rotl (sw d x y) : IextTwo (.rotl sw d x y) sw d x y (fun a b =>
      if b.toNat % 32 = 0 then a
      else BitVec.ofNat 32 (a.toNat * 2 ^ (b.toNat % 32) + a.toNat / 2 ^ (32 - b.toNat % 32)))
  | lea2 (sw d x y) : IextTwo (.lea2 sw d x y) sw d x y (fun a b => BitVec.ofNat 32 (a.toNat + b.toNat * 4))

/-- IEXT words that also read vd: what each makes of a, b and the prior value dv (05 R96, R97). -/
inductive IextThree : Instr → Bool → BitVec 6 → Src → Src → (Word → Word → Word → Word) → Prop
  | bfi (sw d x y) : IextThree (.bfi sw d x y) sw d x y (fun a b dv =>
      insertField a dv (b.toNat % 256) (min (b.toNat / 256 % 256) 32))
  | imad (sw d x y) : IextThree (.imad sw d x y) sw d x y (fun a b dv => BitVec.ofNat 32 (a.toNat * b.toNat + dv.toNat))
  | sad (sw d x y) : IextThree (.sad sw d x y) sw d x y (fun a b dv =>
      BitVec.ofInt 32 (dv.toInt + (a.toInt - b.toInt).natAbs))

/-- The words with a carry: the result and the new p6 of a, b and the old p6 (05 R94, R96). -/
inductive CarryOp : Instr → Bool → BitVec 6 → Src → Src → (Word → Word → Bool → Word × Bool) → Prop
  | iaddc (sw d x y) : CarryOp (.iaddc sw d x y) sw d x y (fun a b c =>
      (BitVec.ofNat 32 (a.toNat + b.toNat + c.toNat), decide (2 ^ 32 ≤ a.toNat + b.toNat + c.toNat)))
  | isubb (sw d x y) : CarryOp (.isubb sw d x y) sw d x y (fun a b c =>
      (BitVec.ofInt 32 ((a.toNat : Int) - b.toNat - c.toNat), decide (a.toNat < b.toNat + c.toNat)))

/-! ### Compares, moves and predicates (05 R100-R109) -/

/-- An FP32 code that is no NaN. -/
def orderedCode (a : Word) : Bool := decide (a.toNat % 2 ^ 31 ≤ 0x7F800000)

/-- The place of an FP32 code that is no NaN on the line of values: its magnitude, negated under the sign bit; both
zeros stand at 0 (05 R101). -/
def lineOf (a : Word) : Int := if a.msb then -((a.toNat % 2 ^ 31 : Nat) : Int) else (a.toNat : Int)

/-- ICMP, major 8: the condition of each fn (05 R101). -/
inductive CompareOp : Instr → Bool → BitVec 3 → BitVec 3 → Src → Src → (Word → Word → Bool) → Prop
  | eq (sw c p x y) : CompareOp (.icmpEq sw c p x y) sw c p x y (fun a b => decide (a.toNat = b.toNat))
  | ne (sw c p x y) : CompareOp (.icmpNe sw c p x y) sw c p x y (fun a b => decide (a.toNat ≠ b.toNat))
  | lt (sw c p x y) : CompareOp (.icmpLt sw c p x y) sw c p x y (fun a b => decide (a.toInt < b.toInt))
  | le (sw c p x y) : CompareOp (.icmpLe sw c p x y) sw c p x y (fun a b => decide (a.toInt ≤ b.toInt))
  | gt (sw c p x y) : CompareOp (.icmpGt sw c p x y) sw c p x y (fun a b => decide (a.toInt > b.toInt))
  | ge (sw c p x y) : CompareOp (.icmpGe sw c p x y) sw c p x y (fun a b => decide (a.toInt ≥ b.toInt))
  | ltn (sw c p x y) : CompareOp (.icmpLtn sw c p x y) sw c p x y (fun a b => decide (a.toNat < b.toNat))
  | len (sw c p x y) : CompareOp (.icmpLen sw c p x y) sw c p x y (fun a b => decide (a.toNat ≤ b.toNat))
  | gtn (sw c p x y) : CompareOp (.icmpGtn sw c p x y) sw c p x y (fun a b => decide (a.toNat > b.toNat))
  | gen (sw c p x y) : CompareOp (.icmpGen sw c p x y) sw c p x y (fun a b => decide (a.toNat ≥ b.toNat))

/-- ICMP of fn 10 to 15, whose operands are FP32 (05 R101). -/
inductive FpCompareOp : Instr → Bool → BitVec 3 → BitVec 3 → Src → Src → (Word → Word → Bool) → Prop
  | feq (sw c p x y) : FpCompareOp (.icmpFeq sw c p x y) sw c p x y (fun a b =>
      orderedCode a && orderedCode b && decide (lineOf a = lineOf b))
  | fne (sw c p x y) : FpCompareOp (.icmpFne sw c p x y) sw c p x y (fun a b =>
      !orderedCode a || !orderedCode b || decide (lineOf a ≠ lineOf b))
  | flt (sw c p x y) : FpCompareOp (.icmpFlt sw c p x y) sw c p x y (fun a b =>
      orderedCode a && orderedCode b && decide (lineOf a < lineOf b))
  | fle (sw c p x y) : FpCompareOp (.icmpFle sw c p x y) sw c p x y (fun a b =>
      orderedCode a && orderedCode b && decide (lineOf a ≤ lineOf b))
  | funo (sw c p x y) : FpCompareOp (.icmpFuno sw c p x y) sw c p x y (fun a b => !orderedCode a || !orderedCode b)
  | ford (sw c p x y) : FpCompareOp (.icmpFord sw c p x y) sw c p x y (fun a b => orderedCode a && orderedCode b)

/-- The combine of a compare with the old predicate (05 R100). -/
def combined (c : BitVec 3) (old new : Bool) : Bool :=
  if c = 0#3 then new else if c = 1#3 then old && new else if c = 2#3 then old || new else old ^^ new

/-- The predicates that a compare reads: its destination, unless it sets (05 R100). -/
def combineReads (c p : BitVec 3) : List Nat := if c = 0#3 then [] else [p.toNat]

/-- The selector of SEL: the predicate that HINT.MOD names, or p0 without a hint (05 R103). -/
def selectorOf (h : Hints) : Nat :=
  match h.mod with
  | some (_, _, p, _) => p.toNat
  | none => 0

/-- A predicate of a lane. -/
def predOf (i : In) (k : BitVec 3) (lane : Nat) : Bool := (readP i.g.regs lane k.toNat).1

/-- Moves to a vector register: the frame of each word and what every executing lane receives (05 R95, R102-R108). The
hints are those of the run. -/
inductive VectorMove : Hints → Instr → Form → BitVec 6 → (In → Nat → Word) → Prop
  | movi (h sw d v) : VectorMove h (.movi sw d v) { sw := sw, v := [d.toNat], imm := true } d (fun i _ => immediateOf i.hints v)
  | mov (h sw d x) : VectorMove h (.mov sw d x) { sw := sw, x := some x, v := [d.toNat] } d (fun i k => xVal i k)
  | vfroms (h sw d x) : VectorMove h (.vfroms sw d x) { sw := sw, sx := some x, v := [d.toNat] } d (fun i _ => sxVal i)
  | sel (h sw d x y) : VectorMove h (.sel sw d x y)
      { sw := sw, x := some x, y := some y, v := [d.toNat], pr := [selectorOf h], guarded := false } d
      (fun i k => if (readP i.g.regs k (selectorOf h)).1 then xVal i k else yVal i k)
  | ptov (h sw d x) : VectorMove h (.ptov sw d x) { sw := sw, v := [d.toNat], pr := [x.toNat] } d
      (fun i k => if predOf i x k then 1#32 else 0#32)
  | rdid (h sw d c) : VectorMove h (.rdid sw d c) { sw := sw, v := [d.toNat] } d (fun i k => identifier i c.toNat k)
  | clock (h sw d) : VectorMove h (.clock sw d) { sw := sw, v := [d.toNat] } d (fun i _ => BitVec.ofNat 32 i.s.cycle)
  | adr (h sw d o) : VectorMove h (.adr sw d o) { sw := sw, v := [d.toNat] } d
      (fun i _ => BitVec.ofInt 32 (i.runPc.toNat + 4 * o.toInt))

/-- Moves to a uniform register: the frame of each word and the value written when any lane executes (05 R98, R103). -/
inductive UniformMove : Instr → Form → BitVec 6 → (In → Word) → Prop
  | smov (sw d x) : UniformMove (.smov sw d x) { sw := sw, sx := some x, u := [d.toNat] } d (fun i => sxVal i)
  | smovi (sw d v) : UniformMove (.smovi sw d v) { sw := sw, u := [d.toNat], imm := true } d (fun i => immediateOf i.hints v)
  | sfromv (sw d x) : UniformMove (.sfromv sw d x) { sw := sw, x := some x, u := [d.toNat], low := true } d
      (fun i => xVal i (i.act.headD 0))

/-- Predicate logic: the frame of each word and what every executing lane receives (05 R102). -/
inductive PredMove : Instr → Form → BitVec 3 → (In → Nat → Bool) → Prop
  | pand (sw d x y) : PredMove (.pand sw d x y) { sw := sw, pr := [x.toNat, y.toNat] } d (fun i k => predOf i x k && predOf i y k)
  | por (sw d x y) : PredMove (.por sw d x y) { sw := sw, pr := [x.toNat, y.toNat] } d (fun i k => predOf i x k || predOf i y k)
  | pxor (sw d x y) : PredMove (.pxor sw d x y) { sw := sw, pr := [x.toNat, y.toNat] } d (fun i k => predOf i x k ^^ predOf i y k)
  | pnot (sw d x) : PredMove (.pnot sw d x) { sw := sw, pr := [x.toNat, x.toNat] } d (fun i k => !predOf i x k)
  | vtop (sw d x) : PredMove (.vtop sw d x) { sw := sw, x := some x } d (fun i k => decide (xVal i k ≠ 0#32))

/-! ### The same words on a control core (04 R85, R86) -/

/-- Words that write a register of a control core: frame, register, and the value made of the core before the word; n is
the cycle counter and h the hints of the run. -/
inductive ControlWrite (h : Hints) (n : Nat) : Instr → Form → BitVec 6 → (Ctl → Word) → Prop
  | ialu {ins sw d x y fn} : IaluOp ins sw d x y fn →
      ControlWrite h n ins { sw := sw, x := some x, y := some y, v := [d.toNat] } d
        (fun k => integerResult fn (ctlReg k x.reg.toNat) (ctlReg k y.reg.toNat))
  | ialui {ins sw d x v fn} : IaluiOp ins sw d x v fn →
      ControlWrite h n ins { sw := sw, x := some x, v := [d.toNat], imm := true } d
        (fun k => integerResult fn (ctlReg k x.reg.toNat) (immediateOf h v))
  | salu {ins sw d x y fn} : SaluOp ins sw d x y fn →
      ControlWrite h n ins { sw := sw, sx := some x, sy := some y, u := [d.toNat] } d
        (fun k => integerResult fn (ctlReg k x.reg.toNat) (ctlReg k y.reg.toNat))
  | salui {ins sw d x v fn} : SaluiOp ins sw d x v fn →
      ControlWrite h n ins { sw := sw, sx := some x, u := [d.toNat], imm := true } d
        (fun k => integerResult fn (ctlReg k x.reg.toNat) (immediateOf h v))
  | one {ins sw d x f} : IextOne ins sw d x f →
      ControlWrite h n ins { sw := sw, x := some x, v := [d.toNat] } d (fun k => f false (ctlReg k x.reg.toNat))
  | two {ins sw d x y f} : IextTwo ins sw d x y f →
      ControlWrite h n ins { sw := sw, x := some x, y := some y, v := [d.toNat] } d
        (fun k => f (ctlReg k x.reg.toNat) (ctlReg k y.reg.toNat))
  | three {ins sw d x y f} : IextThree ins sw d x y f →
      ControlWrite h n ins { sw := sw, x := some x, y := some y, v := [d.toNat], vr := [d.toNat] } d
        (fun k => f (ctlReg k x.reg.toNat) (ctlReg k y.reg.toNat) (ctlReg k d.toNat))
  | movi (sw d v) : ControlWrite h n (.movi sw d v) { sw := sw, v := [d.toNat], imm := true } d (fun _ => immediateOf h v)
  | mov (sw d x) : ControlWrite h n (.mov sw d x) { sw := sw, x := some x, v := [d.toNat] } d (fun k => ctlReg k x.reg.toNat)
  | smov (sw d x) : ControlWrite h n (.smov sw d x) { sw := sw, sx := some x, u := [d.toNat] } d (fun k => ctlReg k x.reg.toNat)
  | smovi (sw d v) : ControlWrite h n (.smovi sw d v) { sw := sw, u := [d.toNat], imm := true } d (fun _ => immediateOf h v)
  | clock (sw d) : ControlWrite h n (.clock sw d) { sw := sw, v := [d.toNat] } d (fun _ => BitVec.ofNat 32 n)
  | sel (sw d x y) : ControlWrite h n (.sel sw d x y)
      { sw := sw, x := some x, y := some y, v := [d.toNat], pr := [selectorOf h], guarded := false } d
      (fun k => if ctlPred k (selectorOf h) then ctlReg k x.reg.toNat else ctlReg k y.reg.toNat)

/-- Words that write a predicate of a control core: frame, predicate, and the value made of the core before the word. -/
inductive ControlPredWrite : Instr → Form → BitVec 3 → (Ctl → Bool) → Prop
  | compare {ins sw c p x y f} : CompareOp ins sw c p x y f →
      ControlPredWrite ins { sw := sw, x := some x, y := some y, pr := combineReads c p } p
        (fun k => combined c (ctlPred k p.toNat) (f (ctlReg k x.reg.toNat) (ctlReg k y.reg.toNat)))
  | fpCompare {ins sw c p x y f} : FpCompareOp ins sw c p x y f →
      ControlPredWrite ins { sw := sw, x := some x, y := some y, pr := combineReads c p } p
        (fun k => combined c (ctlPred k p.toNat) (f (ctlReg k x.reg.toNat) (ctlReg k y.reg.toNat)))
  | pand (sw d x y) : ControlPredWrite (.pand sw d x y) { sw := sw, pr := [x.toNat, y.toNat] } d
      (fun k => ctlPred k x.toNat && ctlPred k y.toNat)
  | por (sw d x y) : ControlPredWrite (.por sw d x y) { sw := sw, pr := [x.toNat, y.toNat] } d
      (fun k => ctlPred k x.toNat || ctlPred k y.toNat)
  | pxor (sw d x y) : ControlPredWrite (.pxor sw d x y) { sw := sw, pr := [x.toNat, y.toNat] } d
      (fun k => ctlPred k x.toNat ^^ ctlPred k y.toNat)
  | pnot (sw d x) : ControlPredWrite (.pnot sw d x) { sw := sw, pr := [x.toNat, x.toNat] } d (fun k => !ctlPred k x.toNat)

end Sys2Proof

section

open Sys2Proof Sys2Proof.Machine

/-- 05 R93, R91: an IALU word that a group issues completes; each executing lane receives the result of its operands, all read
before the write, and nothing else changes. 05 R95, 03 R66: an IALUI word does the same with the immediate as b. -/
def Obligations.IaluWritesResult : Prop :=
  (∀ ins sw d x y fn, IaluOp ins sw d x y fn → ∀ s i,
    GroupIssues s { sw := sw, x := some x, y := some y, v := [d.toNat] } i →
    Completes ins s i (fun g =>
      VectorWritten i g d.toNat i.act (fun k => integerResult fn (xVal i k) (yVal i k)) ∧ ChunksKept i g ∧ SpecialsKept i g)) ∧
  (∀ ins sw d x v fn, IaluiOp ins sw d x v fn → ∀ s i,
    GroupIssues s { sw := sw, x := some x, v := [d.toNat], imm := true } i →
    Completes ins s i (fun g =>
      VectorWritten i g d.toNat i.act (fun k => integerResult fn (xVal i k) (immediateOf i.hints v)) ∧
      ChunksKept i g ∧ SpecialsKept i g))

/-- 05 R98, R99: SALU and SALUI compute the IALU operation of the same fn on uniform registers, once for each issue in which
a thread has guard 1. -/
def Obligations.SaluWritesOnce : Prop :=
  (∀ ins sw d x y fn, SaluOp ins sw d x y fn → ∀ s i,
    GroupIssues s { sw := sw, sx := some x, sy := some y, u := [d.toNat] } i →
    Completes ins s i (fun g =>
      UniformWritten i g d.toNat (integerResult fn (sxVal i) (syVal i)) ∧ ChunksKept i g ∧ SpecialsKept i g)) ∧
  (∀ ins sw d x v fn, SaluiOp ins sw d x v fn → ∀ s i,
    GroupIssues s { sw := sw, sx := some x, u := [d.toNat], imm := true } i →
    Completes ins s i (fun g =>
      UniformWritten i g d.toNat (integerResult fn (sxVal i) (immediateOf i.hints v)) ∧ ChunksKept i g ∧ SpecialsKept i g))

/-- 05 R96, R97: what the IEXT words without a carry write. -/
def Obligations.IextWritesResult : Prop :=
  (∀ ins sw d x f, IextOne ins sw d x f → ∀ s i,
    GroupIssues s { sw := sw, x := some x, v := [d.toNat] } i →
    Completes ins s i (fun g =>
      VectorWritten i g d.toNat i.act (fun k => f (satField i.hints) (xVal i k)) ∧ ChunksKept i g ∧ SpecialsKept i g)) ∧
  (∀ ins sw d x y f, IextTwo ins sw d x y f → ∀ s i,
    GroupIssues s { sw := sw, x := some x, y := some y, v := [d.toNat] } i →
    Completes ins s i (fun g =>
      VectorWritten i g d.toNat i.act (fun k => f (xVal i k) (yVal i k)) ∧ ChunksKept i g ∧ SpecialsKept i g)) ∧
  (∀ ins sw d x y f, IextThree ins sw d x y f → ∀ s i,
    GroupIssues s { sw := sw, x := some x, y := some y, v := [d.toNat], vr := [d.toNat] } i →
    Completes ins s i (fun g =>
      VectorWritten i g d.toNat i.act (fun k => f (xVal i k) (yVal i k) (readV i.g.regs k d.toNat).1) ∧
      ChunksKept i g ∧ SpecialsKept i g))

/-- 05 R94, R96: IADDC and ISUBB add and subtract with p6 of each lane and leave the carry or borrow there; a lane whose guard
is 0 keeps both. -/
def Obligations.CarryGoesThroughP6 : Prop :=
  (∀ ins sw d x y f, CarryOp ins sw d x y f → ∀ s i,
    GroupIssues s { sw := sw, x := some x, y := some y, v := [d.toNat], pr := [6] } i →
    Completes ins s i (fun g =>
      (∀ k ∈ i.act, readV g.regs k d.toNat = ((f (xVal i k) (yVal i k) (predOf i 6#3 k)).1, false) ∧
        readP g.regs k 6 = ((f (xVal i k) (yVal i k) (predOf i 6#3 k)).2, false)) ∧
      (∀ k r, r < 64 → ¬(k ∈ i.act ∧ r = d.toNat) → vreg g.regs k r = vreg (released i i.act) k r) ∧
      (∀ k r, r < 8 → ¬(k ∈ i.act ∧ r = 6) → preg g.regs k r = preg i.g.regs k r) ∧
      g.regs.s = i.g.regs.s ∧ ChunksKept i g ∧ SpecialsKept i g)) ∧
  decodeTableWord 32 0x30618186 = some (.pxor false 6#3 6#3 6#3) ∧
  decodeTableWord 32 0x0440008F = some (.iaddc false 4#6 { reg := 0#6, use := .plain } { reg := 2#6, use := .plain }) ∧
  decodeTableWord 32 0x045040CF = some (.iaddc false 5#6 { reg := 1#6, use := .plain } { reg := 3#6, use := .plain })

/-- 05 R100, R101: a compare; an FP compare orders codes by value and counts, traps and updates nothing. -/
def Obligations.CompareWritesPredicate : Prop :=
  (∀ ins sw c p x y f, CompareOp ins sw c p x y f → ∀ s i,
    GroupIssues s { sw := sw, x := some x, y := some y, pr := combineReads c p } i →
    Completes ins s i (fun g =>
      PredWritten i g p.toNat i.act (fun k => combined c (predOf i p k) (f (xVal i k) (yVal i k))) ∧
      ChunksKept i g ∧ SpecialsKept i g)) ∧
  (∀ ins sw c p x y f, FpCompareOp ins sw c p x y f → ∀ s i,
    GroupIssues s { sw := sw, x := some x, y := some y, pr := combineReads c p } i →
    Completes ins s i (fun g =>
      PredWritten i g p.toNat i.act (fun k => combined c (predOf i p k) (f (xVal i k) (yVal i k))) ∧
      ChunksKept i g ∧ SpecialsKept i g))

/-- 05 R95, R98, R102-R104, R107, R108, 02 R40: moves and predicate logic. -/
def Obligations.MovesWriteValue : Prop :=
  (∀ s ins f d val, VectorMove s.issue.hints ins f d val → ∀ i, GroupIssues s f i →
    Completes ins s i (fun g => VectorWritten i g d.toNat i.act (val i) ∧ ChunksKept i g ∧ SpecialsKept i g)) ∧
  (∀ ins f d val, UniformMove ins f d val → ∀ s i, GroupIssues s f i →
    Completes ins s i (fun g => UniformWritten i g d.toNat (val i) ∧ ChunksKept i g ∧ SpecialsKept i g)) ∧
  (∀ ins f d val, PredMove ins f d val → ∀ s i, GroupIssues s f i →
    Completes ins s i (fun g => PredWritten i g d.toNat i.act (val i) ∧ ChunksKept i g ∧ SpecialsKept i g))

/-- 04 R85: on a control core these words address its registers s and predicates p; the next state is given whole. -/
def Obligations.ControlCoreWritesItsRegisters : Prop :=
  (∀ s ins f d val, ControlWrite s.issue.hints s.cycle ins f d val → ∀ c, ControlIssues s f c →
    exec ins s = .next (withCtl s c { ctlAt s c with
      pc := s.issue.pc + 4#32, s := tput (ctlAt s c).s d.toNat (val (ctlAt s c)) })) ∧
  (∀ ins f d val, ControlPredWrite ins f d val → ∀ s c, ControlIssues s f c →
    exec ins s = .next (withCtl s c { ctlAt s c with
      pc := s.issue.pc + 4#32,
      p := if d = 7#3 then (ctlAt s c).p else tput (ctlAt s c).p d.toNat (val (ctlAt s c)) })) ∧
  (∀ ins sw d x y f, CarryOp ins sw d x y f → ∀ s c,
    ControlIssues s { sw := sw, x := some x, y := some y, v := [d.toNat], pr := [6] } c →
    exec ins s = .next (withCtl s c { ctlAt s c with
      pc := s.issue.pc + 4#32,
      s := tput (ctlAt s c).s d.toNat (f (ctlReg (ctlAt s c) x.reg.toNat) (ctlReg (ctlAt s c) y.reg.toNat) (ctlPred (ctlAt s c) 6)).1,
      p := tput (ctlAt s c).p 6 (f (ctlReg (ctlAt s c) x.reg.toNat) (ctlReg (ctlAt s c) y.reg.toNat) (ctlPred (ctlAt s c) 6)).2 })) ∧
  (∀ sw s c, ControlIssues s { sw := sw, guarded := false } c →
    exec (.nop sw) s = .next (withCtl s c { ctlAt s c with pc := s.issue.pc + 4#32 }))

end

namespace Sys2Proof

open Sys2Proof.Machine

/-! ### Floating point (14 R269-R288, 15 R291-R305) -/

/-- A result that counts and signals nothing. -/
def quietOut (w : Word) : FpOut := { code := w.toNat }

/-- Half h of a word as a value: BF16 under f = 0, FP16 under f = 1 (04 R83). -/
def halfVal (f : BitVec 1) (w : Word) (h : Nat) : Fp := decodeFp (halfFmt f) (halfOf w h)

/-- HFMA of one half: the product plus the destination's half, rounded once (15 R298). -/
def halfFma (f : BitVec 1) (i : In) (d : BitVec 6) (k h : Nat) : FpOut :=
  fpFma (halfFmt f) (roundMode i.hints) (satField i.hints) (halfVal f (xVal i k) h) (halfVal f (yVal i k) h)
    (halfVal f (dVal i d k) h)

/-- Floating-point words of fixed latency: frame, destination, whether each source updates amax, and what a lane
computes: the code, the counted events and the signals (15 R294-R303). -/
inductive FloatOp : Instr → Form → BitVec 6 → Bool → (In → Nat → FpOut) → Prop
  | fadd (sw d x y) : FloatOp (.fadd sw d x y) { sw := sw, x := some x, y := some y, v := [d.toNat] } d false (fun i k =>
      fpAdd .fp32 (roundMode i.hints) (satField i.hints) (fx i k) (fy i k))
  | fsub (sw d x y) : FloatOp (.fsub sw d x y) { sw := sw, x := some x, y := some y, v := [d.toNat] } d false (fun i k =>
      fpSub .fp32 (roundMode i.hints) (satField i.hints) (fx i k) (fy i k))
  | fmul (sw d x y) : FloatOp (.fmul sw d x y) { sw := sw, x := some x, y := some y, v := [d.toNat] } d false (fun i k =>
      fpMul .fp32 (roundMode i.hints) (satField i.hints) (fx i k) (fy i k))
  | ffma (sw d x y) : FloatOp (.ffma sw d x y) { sw := sw, x := some x, y := some y, v := [d.toNat], vr := [d.toNat] } d false (fun i k =>
      fpFma .fp32 (roundMode i.hints) (satField i.hints) (fx i k) (fy i k) (fpOf (dVal i d k)))
  | ffnma (sw d x y) : FloatOp (.ffnma sw d x y) { sw := sw, x := some x, y := some y, v := [d.toNat], vr := [d.toNat] } d false (fun i k =>
      fpFma .fp32 (roundMode i.hints) (satField i.hints) (negFp (fx i k)) (fy i k) (fpOf (dVal i d k)))
  | fmin (sw d x y) : FloatOp (.fmin sw d x y) { sw := sw, x := some x, y := some y, v := [d.toNat] } d false (fun i k =>
      fpMinMax .fp32 false (xVal i k).toNat (yVal i k).toNat)
  | fmax (sw d x y) : FloatOp (.fmax sw d x y) { sw := sw, x := some x, y := some y, v := [d.toNat] } d false (fun i k =>
      fpMinMax .fp32 true (xVal i k).toNat (yVal i k).toNat)
  | fabs (sw d x) : FloatOp (.fabs sw d x) { sw := sw, x := some x, v := [d.toNat] } d false (fun i k =>
      quietOut (xVal i k &&& 0x7FFFFFFF#32))
  | fneg (sw d x) : FloatOp (.fneg sw d x) { sw := sw, x := some x, v := [d.toNat] } d false (fun i k =>
      quietOut (xVal i k ^^^ 0x80000000#32))
  | fcpys (sw d x y) : FloatOp (.fcpys sw d x y) { sw := sw, x := some x, y := some y, v := [d.toNat] } d false (fun i k =>
      quietOut ((xVal i k &&& 0x7FFFFFFF#32) ||| (yVal i k &&& 0x80000000#32)))
  | fdiv (sw d x y) : FloatOp (.fdiv sw d x y) { sw := sw, x := some x, y := some y, v := [d.toNat] } d false (fun i k =>
      fpDiv .fp32 (roundMode i.hints) (satField i.hints) (fx i k) (fy i k))
  | fsqrt (sw d x) : FloatOp (.fsqrt sw d x) { sw := sw, x := some x, v := [d.toNat] } d false (fun i k =>
      fpSqrt .fp32 (roundMode i.hints) (fx i k))
  | frint (sw d x m) : FloatOp (.frint sw d x m) { sw := sw, x := some x, v := [d.toNat] } d false (fun i k =>
      fpRint (rintMode i.hints m) (fx i k))
  | fclass (sw d x) : FloatOp (.fclass sw d x) { sw := sw, x := some x, v := [d.toNat] } d false (fun i k =>
      quietOut (fpClass (xVal i k)))
  | fscale (sw d x y) : FloatOp (.fscale sw d x y) { sw := sw, x := some x, y := some y, v := [d.toNat] } d false (fun i k =>
      fpScale (roundMode i.hints) (satField i.hints) (fx i k) (yVal i k).toInt)
  | ffrac (sw d x) : FloatOp (.ffrac sw d x) { sw := sw, x := some x, v := [d.toNat] } d false (fun i k =>
      fpFrac (fx i k))
  | hadd (sw d x y f) : FloatOp (.hadd sw d x y f) { sw := sw, x := some x, y := some y, v := [d.toNat] } d false (fun i k =>
      halves (fun a b => fpAdd (halfFmt f) (roundMode i.hints) (satField i.hints) (decodeFp (halfFmt f) a) (decodeFp (halfFmt f) b)) (xVal i k) (yVal i k))
  | hsub (sw d x y f) : FloatOp (.hsub sw d x y f) { sw := sw, x := some x, y := some y, v := [d.toNat] } d false (fun i k =>
      halves (fun a b => fpSub (halfFmt f) (roundMode i.hints) (satField i.hints) (decodeFp (halfFmt f) a) (decodeFp (halfFmt f) b)) (xVal i k) (yVal i k))
  | hmul (sw d x y f) : FloatOp (.hmul sw d x y f) { sw := sw, x := some x, y := some y, v := [d.toNat] } d false (fun i k =>
      halves (fun a b => fpMul (halfFmt f) (roundMode i.hints) (satField i.hints) (decodeFp (halfFmt f) a) (decodeFp (halfFmt f) b)) (xVal i k) (yVal i k))
  | hfma (sw d x y f) : FloatOp (.hfma sw d x y f) { sw := sw, x := some x, y := some y, v := [d.toNat], vr := [d.toNat] } d false (fun i k =>
      packHalves (halfFma f i d k 0) (halfFma f i d k 1))
  | hmin (sw d x y f) : FloatOp (.hmin sw d x y f) { sw := sw, x := some x, y := some y, v := [d.toNat] } d false (fun i k =>
      halves (fun a b => fpMinMax (halfFmt f) false a b) (xVal i k) (yVal i k))
  | hmax (sw d x y f) : FloatOp (.hmax sw d x y f) { sw := sw, x := some x, y := some y, v := [d.toNat] } d false (fun i k =>
      halves (fun a b => fpMinMax (halfFmt f) true a b) (xVal i k) (yVal i k))
  | hneg (sw d x f) : FloatOp (.hneg sw d x f) { sw := sw, x := some x, v := [d.toNat] } d false (fun i k =>
      quietOut (xVal i k ^^^ 0x80008000#32))
  | hdot2 (sw d x y f) : FloatOp (.hdot2 sw d x y f) { sw := sw, x := some x, y := some y, v := [d.toNat], vr := [d.toNat] } d false (fun i k =>
      fpDot2 (roundMode i.hints) (satField i.hints) (halfVal f (xVal i k) 0) (halfVal f (yVal i k) 0) (halfVal f (xVal i k) 1) (halfVal f (yVal i k) 1) (fpOf (dVal i d k)))
  | cvf2i (sw d x) : FloatOp (.cvf2i sw d x) { sw := sw, x := some x, v := [d.toNat] } d false (fun i k =>
      fpToInt true (roundMode i.hints) (fx i k))
  | cvi2f (sw d x) : FloatOp (.cvi2f sw d x) { sw := sw, x := some x, v := [d.toNat] } d false (fun i k =>
      intToFp (roundMode i.hints) (xVal i k).toInt)
  | cvn2f (sw d x) : FloatOp (.cvn2f sw d x) { sw := sw, x := some x, v := [d.toNat] } d false (fun i k =>
      intToFp (roundMode i.hints) (xVal i k).toNat)
  | cvf2n (sw d x) : FloatOp (.cvf2n sw d x) { sw := sw, x := some x, v := [d.toNat] } d false (fun i k =>
      fpToInt false (roundMode i.hints) (fx i k))
  | cvf2b (sw d x) : FloatOp (.cvf2b sw d x) { sw := sw, x := some x, v := [d.toNat] } d false (fun i k =>
      fpConvert .bf16 (roundMode i.hints) (satField i.hints) (fx i k))
  | cvb2f (sw d x) : FloatOp (.cvb2f sw d x) { sw := sw, x := some x, v := [d.toNat] } d false (fun i k =>
      fpConvert .fp32 .rne false (halfVal 0#1 (xVal i k) 0))
  | cvf2h (sw d x) : FloatOp (.cvf2h sw d x) { sw := sw, x := some x, v := [d.toNat] } d false (fun i k =>
      fpConvert .fp16 (roundMode i.hints) (satField i.hints) (fx i k))
  | cvh2f (sw d x) : FloatOp (.cvh2f sw d x) { sw := sw, x := some x, v := [d.toNat] } d false (fun i k =>
      fpConvert .fp32 .rne false (halfVal 1#1 (xVal i k) 0))
  | cve42f (sw d x y) : FloatOp (.cve42f sw d x y) { sw := sw, x := some x, y := some y, v := [d.toNat] } d false (fun i k =>
      fpWiden .e4m3 (roundMode i.hints) (satField i.hints) ((xVal i k).toNat % 256) ((yVal i k).toNat % 256))
  | cve52f (sw d x y) : FloatOp (.cve52f sw d x y) { sw := sw, x := some x, y := some y, v := [d.toNat] } d false (fun i k =>
      fpWiden .e5m2 (roundMode i.hints) (satField i.hints) ((xVal i k).toNat % 256) ((yVal i k).toNat % 256))
  | cve22f (sw d x y) : FloatOp (.cve22f sw d x y) { sw := sw, x := some x, y := some y, v := [d.toNat] } d false (fun i k =>
      fpWiden .e2m1 (roundMode i.hints) (satField i.hints) ((xVal i k).toNat % 16) ((yVal i k).toNat % 256))
  | pk2h (sw d x y) : FloatOp (.pk2h sw d x y) { sw := sw, x := some x, y := some y, v := [d.toNat] } d false (fun i k =>
      quietOut (BitVec.ofNat 32 (halfOf (xVal i k) 0 + 2 ^ 16 * halfOf (yVal i k) 0)))
  | pk4b (sw d x y) : FloatOp (.pk4b sw d x y) { sw := sw, x := some x, y := some y, v := [d.toNat], vr := [d.toNat] } d false (fun i k =>
      quietOut (BitVec.ofNat 32 ((dVal i d k).toNat * 2 ^ 16 % 2 ^ 32 + 2 ^ 8 * ((yVal i k).toNat % 256) + (xVal i k).toNat % 256)))
  | cvf2e4 (sw d x y) : FloatOp (.cvf2e4 sw d x y) { sw := sw, x := some x, y := some y, v := [d.toNat] } d true (fun i k =>
      fpNarrow .e4m3 (roundMode i.hints) (fx i k) ((yVal i k).toNat % 256))
  | cvf2e5 (sw d x y) : FloatOp (.cvf2e5 sw d x y) { sw := sw, x := some x, y := some y, v := [d.toNat] } d true (fun i k =>
      fpNarrow .e5m2 (roundMode i.hints) (fx i k) ((yVal i k).toNat % 256))
  | cvf2e2 (sw d x y) : FloatOp (.cvf2e2 sw d x y) { sw := sw, x := some x, y := some y, v := [d.toNat] } d true (fun i k =>
      fpNarrow .e2m1 (roundMode i.hints) (fx i k) ((yVal i k).toNat % 256))

/-- Special functions, whose results are outstanding until they return (15 R304, R305). -/
inductive SfuOp : Instr → Bool → BitVec 6 → Src → (RMode → Bool → Fp → FpOut) → Prop
  | exp2 (sw d x) : SfuOp (.exp2 sw d x) sw d x (sfuExp2)
  | log2 (sw d x) : SfuOp (.log2 sw d x) sw d x (fun m _ v => sfuLog2 m v)
  | rcp (sw d x) : SfuOp (.rcp sw d x) sw d x (sfuRcp)
  | rsqrt (sw d x) : SfuOp (.rsqrt sw d x) sw d x (fun m _ v => sfuRsqrt m v)
  | sinpi (sw d x) : SfuOp (.sinpi sw d x) sw d x (fun m _ v => sfuSinpi m v)
  | cospi (sw d x) : SfuOp (.cospi sw d x) sw d x (fun m _ v => sfuCospi m v)
  | tanh (sw d x) : SfuOp (.tanh sw d x) sw d x (fun m _ v => sfuTanh m v)
  | sigm (sw d x) : SfuOp (.sigm sw d x) sw d x (fun m _ v => sfuSigm m v)

/-- The FP causes that a lane raises with an outcome, under the team's fpctl as the group sees it (14 R285, R286, R288). -/
def raisedIn (i : In) (op : Nat → FpOut) (k : Nat) : Nat :=
  fpRaised (viewReg i.g i.t 4) (laneAt i.g.regs k).quiet (op k)

/-- The executing lanes that raise no enabled cause: they alone write, count and release (14 R286). -/
def soundLanes (i : In) (op : Nat → FpOut) : List Nat := i.act.filter (fun k => raisedIn i op k == 0)

/-- What the sound lanes add to their chunk: the amax update of the source where the word has one, and a count for each
event (14 R279, R283). -/
def fpEffects (i : In) (amax : Bool) (op : Nat → FpOut) : List Eff :=
  (soundLanes i op).flatMap (fun k =>
    (if amax then [amaxEff (xVal i k)] else []) ++ (op k).counts.map (fun n => Eff.count n 1))

/-! ### Cross-lane words (16 R308-R313) -/

/-- The integer sum of x over lanes. -/
def sumOver (i : In) (ls : List Nat) : Word := BitVec.ofNat 32 (ls.map (fun k => (xVal i k).toNat)).sum

/-- The executing lanes whose predicate is 1. -/
def votersOf (i : In) (p : BitVec 3) : List Nat := i.act.filter (fun k => predOf i p k)

/-- The executing lanes that hold the same bits of x as lane k. -/
def matching (i : In) (k : Nat) : List Nat := i.act.filter (fun j => decide (xVal i j = xVal i k))

/-- Cross-lane words with a vector result: frame and the result of each executing lane, by register key (16 R311, R313). -/
inductive CrossOp : Instr → Form → (In → List (Nat × Word)) → Prop
  | rsumi (sw d x) : CrossOp (.rsumi sw d x) { sw := sw, x := some x, v := [d.toNat] }
      (fun i => i.act.map (fun k => (64 * k + d.toNat, sumOver i i.act)))
  | rmini (sw d x) : CrossOp (.rmini sw d x) { sw := sw, x := some x, v := [d.toNat] }
      (fun i => i.act.map (fun k => (64 * k + d.toNat,
        BitVec.ofInt 32 ((i.act.map (fun j => (xVal i j).toInt)).foldl min (2 ^ 31 - 1)))))
  | rmaxi (sw d x) : CrossOp (.rmaxi sw d x) { sw := sw, x := some x, v := [d.toNat] }
      (fun i => i.act.map (fun k => (64 * k + d.toNat,
        BitVec.ofInt 32 ((i.act.map (fun j => (xVal i j).toInt)).foldl max (-(2 ^ 31))))))
  | scani (sw d x) : CrossOp (.scani sw d x) { sw := sw, x := some x, v := [d.toNat] }
      (fun i => i.act.map (fun k => (64 * k + d.toNat, sumOver i (i.act.filter (fun j => decide (j ≤ k))))))
  | scanxi (sw d x) : CrossOp (.scanxi sw d x) { sw := sw, x := some x, v := [d.toNat] }
      (fun i => i.act.map (fun k => (64 * k + d.toNat, sumOver i (i.act.filter (fun j => decide (j < k))))))
  | first (sw d x) : CrossOp (.first sw d x) { sw := sw, x := some x, v := [d.toNat] }
      (fun i => i.act.map (fun k => (64 * k + d.toNat, xVal i (i.act.headD 0))))
  | popm (sw d p) : CrossOp (.popm sw d p) { sw := sw, v := [d.toNat], pr := [p.toNat] }
      (fun i => i.act.map (fun k => (64 * k + d.toNat, BitVec.ofNat 32 (votersOf i p).length)))
  | cmpct (sw d p) : CrossOp (.cmpct sw d p) { sw := sw, v := [d.toNat], pr := [p.toNat] }
      (fun i => i.act.map (fun k => (64 * k + d.toNat, BitVec.ofNat 32
        ((votersOf i p).countP (fun j => decide ((laneAt i.g.regs j).ltid < (laneAt i.g.regs k).ltid))))))
  | ballot (sw) (d : BitVec 5) (p) : CrossOp (.ballot sw d p) { sw := sw, v := [2 * d.toNat, 2 * d.toNat + 1], pr := [p.toNat] }
      (fun i => i.act.map (fun k => (64 * k + 2 * d.toNat, loWord (maskOf (votersOf i p)))) ++
        i.act.map (fun k => (64 * k + (2 * d.toNat + 1), hiWord (maskOf (votersOf i p)))))
  | matchx (sw) (d : BitVec 5) (x) : CrossOp (.matchx sw d x) { sw := sw, x := some x, v := [2 * d.toNat, 2 * d.toNat + 1] }
      (fun i => i.act.map (fun k => (64 * k + 2 * d.toNat, loWord (maskOf (matching i k)))) ++
        i.act.map (fun k => (64 * k + (2 * d.toNat + 1), hiWord (maskOf (matching i k)))))

end Sys2Proof

section

open Sys2Proof Sys2Proof.Machine

/-- 15 R294-R303, 14 R283, R286: floating-point words of fixed latency. Where no lane raises an enabled cause, `soundLanes` is
every executing lane. -/
def Obligations.FloatWritesOutcome : Prop :=
  ∀ ins f d amax op, FloatOp ins f d amax op → ∀ s i, GroupIssues s f i →
    Completes ins s i (fun g =>
      VectorWritten i g d.toNat (soundLanes i (op i)) (fun k => BitVec.ofNat 32 (op i k).code) ∧
      ChunksGain i g [] [] (fpEffects i amax (op i)) [] ∧ SpecialsKept i g)

/-- 15 R304, R305, 02 R43, R46: a special function leaves its result outstanding. -/
def Obligations.SfuResultOutstanding : Prop :=
  ∀ ins sw d x op, SfuOp ins sw d x op → ∀ s i, GroupIssues s { sw := sw, x := some x, v := [d.toNat] } i →
    let out : Nat → FpOut := fun k => op (roundMode i.hints) (satField i.hints) (fx i k)
    let vs := (soundLanes i out).map (fun k => (64 * k + d.toNat, BitVec.ofNat 32 (out k).code))
    Completes ins s i (fun g =>
      VectorsPending i g (soundLanes i out) (vs.map (·.1)) ∧
      ChunksGain i g [] [] (fpEffects i false out) (resultsOf (released i (soundLanes i out)).v 0 vs) ∧ SpecialsKept i g)

/-- 14 R286, 21 R386, 06 R127: the raising lanes of a floating-point word park as one sub-group. -/
def Obligations.FpTrapParksLanes : Prop :=
  ∀ ins f d amax op, FloatOp ins f d amax op → ∀ s i, GroupIssues s f i →
    (i.act.filter (fun k => raisedIn i (op i) k != 0)) ≠ [] →
    Completes ins s i (fun g =>
      SubgroupParked i g ((i.act.filter (fun k => raisedIn i (op i) k != 0)).map (fun k => (k, fpCauseOf (raisedIn i (op i) k), 0#32))))

/-- 16 R311, R313: cross-lane words with a vector result. -/
def Obligations.CrossLaneResults : Prop :=
  ∀ ins f vals, CrossOp ins f vals → ∀ s i, GroupIssues s f i →
    Completes ins s i (fun g =>
      VectorsPending i g i.act ((vals i).map (·.1)) ∧
      ChunksGain i g [] [] [] (resultsOf (released i i.act).v 0 (vals i)) ∧ SpecialsKept i g)

/-- 16 R308, R309, R311, R312: SHFL, RSUMF and SCANF. -/
def Obligations.ShuffleReadsNamedLane : Prop :=
  (∀ sw d x y s i, GroupIssues s { sw := sw, x := some x, y := some y, v := [d.toNat], shfl := true } i →
    (∀ k ∈ i.act, (crossRead i.g.regs i.set x.reg.toNat (some ((yVal i k).toNat % i.l.alloc.w))).2.2 = false) →
    let vs := i.act.map (fun k => (64 * k + d.toNat,
      (crossRead i.g.regs i.set x.reg.toNat (some ((yVal i k).toNat % i.l.alloc.w))).1))
    Completes (.shfl sw d x y) s i (fun g =>
      VectorsPending i g i.act (vs.map (·.1)) ∧
      ChunksGain i g [] [] [] (resultsOf (released i i.act).v 0 vs) ∧ SpecialsKept i g)) ∧
  (∀ sw d x s i, GroupIssues s { sw := sw, x := some x, v := [d.toNat] } i → i.act ≠ [] →
    let vs := i.act.map (fun k => (64 * k + d.toNat, (treeSum i).val))
    Completes (.rsumf sw d x) s i (fun g =>
      VectorsPending i g i.act (vs.map (·.1)) ∧
      ChunksGain i g [] [] (nodeCounts (treeSum i)) (resultsOf (released i i.act).v 0 vs) ∧ SpecialsKept i g)) ∧
  (∀ sw d x s i, GroupIssues s { sw := sw, x := some x, v := [d.toNat] } i →
    let vs := (scanNodes i).map (fun e => (64 * e.1 + d.toNat, e.2.val))
    Completes (.scanf sw d x) s i (fun g =>
      VectorsPending i g i.act (vs.map (·.1)) ∧
      ChunksGain i g [] [] ((scanNodes i).flatMap (fun e => nodeCounts e.2)) (resultsOf (released i i.act).v 0 vs) ∧
      SpecialsKept i g))

/-- 16 R311, 02 R40: the votes. -/
def Obligations.VotesIssuePredicates : Prop :=
  ∀ sw (d x : BitVec 3) s i, GroupIssues s { sw := sw, pr := [x.toNat] } i →
    ∀ ins b, (ins = .vany sw d x ∧ b = decide (votersOf i x ≠ []) ∨ ins = .vall sw d x ∧ b = decide ((votersOf i x).length = i.act.length)) →
    let vs := if d = 7#3 then [] else i.act.map (fun k => (8 * k + d.toNat, if b then 1#32 else 0#32))
    Completes ins s i (fun g =>
      g.regs.v = i.g.regs.v ∧ g.regs.s = i.g.regs.s ∧ g.regs.p = pendingFile i.g.regs.p (vs.map (·.1)) ∧
      ChunksGain i g [] [] [] (resultsOf i.g.regs.p 2 vs) ∧ SpecialsKept i g)

end

namespace Sys2Proof

open Sys2Proof.Machine

/-! ### Local memory (09 R193-R205) -/

/-- The effective address of a lane: x plus the offset times the size, modulo 2^32 (03 R64). -/
def addrOf (i : In) (o : BitVec 8) (size k : Nat) : Word :=
  BitVec.ofNat 32 ((xVal i k).toNat + (immediateOf i.hints o).toNat * size)

/-- The bytes of local memory that a group sees at a physical address (08 R177). -/
def seenBytes (i : In) (p n : Nat) : List Byte := viewBytes i.s.lmem (ownStores i.g) p n

/-- Loads: destination, offset, size in bytes, registers written, and word j of the bytes read (09 R197). -/
inductive LoadOp : Instr → Bool → Nat → Src → BitVec 8 → Nat → Nat → (Nat → List Byte → Word) → Prop
  | ld8 (sw d x o) : LoadOp (.ld8 sw d x o) sw d.toNat x o 1 1 (fun _ bs => BitVec.ofNat 32 (leNat bs))
  | ld8s (sw d x o) : LoadOp (.ld8s sw d x o) sw d.toNat x o 1 1 (fun _ bs => (BitVec.ofNat 8 (leNat bs)).signExtend 32)
  | ld16 (sw d x o) : LoadOp (.ld16 sw d x o) sw d.toNat x o 2 1 (fun _ bs => BitVec.ofNat 32 (leNat bs))
  | ld16s (sw d x o) : LoadOp (.ld16s sw d x o) sw d.toNat x o 2 1 (fun _ bs => (BitVec.ofNat 16 (leNat bs)).signExtend 32)
  | ld32 (sw d x o) : LoadOp (.ld32 sw d x o) sw d.toNat x o 4 1 (fun _ bs => BitVec.ofNat 32 (leNat bs))
  | ld64 (sw) (d : BitVec 5) (x o) : LoadOp (.ld64 sw d x o) sw (2 * d.toNat) x o 8 2
      (fun j bs => BitVec.ofNat 32 (leNat bs / 2 ^ (32 * j)))
  | ld128 (sw) (d : BitVec 4) (x o) : LoadOp (.ld128 sw d x o) sw (4 * d.toNat) x o 16 4
      (fun j bs => BitVec.ofNat 32 (leNat bs / 2 ^ (32 * j)))

/-- Stores of data: first register, offset, size in bytes, registers read, and the bits that the word stored to gains
besides its dirty bit (09 R197, R201). -/
inductive StoreOp : Instr → Bool → Nat → Src → BitVec 8 → Nat → Nat → (Nat → List TagStore) → Prop
  | st8 (sw d x o) : StoreOp (.st8 sw d x o) sw d.toNat x o 1 1 (fun _ => [])
  | st16 (sw d x o) : StoreOp (.st16 sw d x o) sw d.toNat x o 2 1 (fun _ => [])
  | st32 (sw d x o) : StoreOp (.st32 sw d x o) sw d.toNat x o 4 1 (fun _ => [])
  | st64 (sw) (d : BitVec 5) (x o) : StoreOp (.st64 sw d x o) sw (2 * d.toNat) x o 8 2 (fun _ => [])
  | st128 (sw) (d : BitVec 4) (x o) : StoreOp (.st128 sw d x o) sw (4 * d.toNat) x o 16 4 (fun _ => [])
  | stf (sw d x o) : StoreOp (.stf sw d x o) sw d.toNat x o 4 1 (fun p => [{ addr := p, full := some true, dirty := none }])

/-- Words that change only the bits of a word of local memory: STE and STCD (09 R201). -/
inductive BitOp : Instr → Bool → Src → BitVec 8 → (Nat → TagStore) → Prop
  | ste (sw x o) : BitOp (.ste sw x o) sw x o (fun p => { addr := p, full := some false, dirty := none })
  | stcd (sw x o) : BitOp (.stcd sw x o) sw x o (fun p => { addr := p, full := none, dirty := some false })

/-- The low `size` bytes of consecutive vector registers of a lane, lowest byte first. -/
def laneBytes (i : In) (d size regs k : Nat) : List Byte :=
  ((upto regs).flatMap (fun j => natLE 4 (readV i.g.regs k (d + j)).1.toNat)).take size

/-- The loads of full words: what an empty word does to a lane, and whether a full one is marked empty (09 R199). -/
inductive FullOp : Instr → Bool → BitVec 6 → Src → BitVec 8 → FullCase → Bool → Prop
  | ldfe (sw d x o) : FullOp (.ldfe sw d x o) sw d x o .waits false
  | ldft (sw d x o) : FullOp (.ldft sw d x o) sw d x o .traps false
  | ldfc (sw d x o) : FullOp (.ldfc sw d x o) sw d x o .waits true

/-- Of a ready set, every lane but those parked stands ready at the next word. -/
def OthersGoOn (i : In) (g : Group) (parked : List Nat) : Prop :=
  setReady i → ∀ k ∈ i.lanes, k ∉ parked → standsAt g k (i.pc + 4#32) .ready

/-- The lanes of a load of full words in ascending order, each seeing what the lower ones marked (09 R199): the lanes that
take a word with its address and value, the others with theirs, and the bits changed (newest first). -/
def fullWalk (i : In) (take : Bool) : List (Nat × Nat) → List TagStore → List (Nat × Nat × Word) × List (Nat × Nat) × List TagStore
  | [], _ => ([], [], [])
  | (k, p) :: rest, tags =>
    if viewFull i.s.lbits (tags ++ ownTags i.g) p then
      let new : List TagStore := if take then [{ addr := p, full := some false, dirty := none }] else []
      let r := fullWalk i take rest (new ++ tags)
      ((k, p, BitVec.ofNat 32 (leNat (seenBytes i p 4))) :: r.1, r.2.1, r.2.2 ++ new)
    else
      let r := fullWalk i take rest tags
      (r.1, (k, p) :: r.2.1, r.2.2)

/-- What each local atomic makes of the word w, the operand b and the lane's prior destination; none leaves the word as it
is (09 R205). -/
inductive AtomicOp : Instr → Bool → BitVec 6 → Src → Src → Bool → (Word → Word → Word → Option Word) → Prop
  | aadd (sw d x y) : AtomicOp (.aadd sw d x y) sw d x y false (fun w b _ => some (w + b))
  | amin (sw d x y) : AtomicOp (.amin sw d x y) sw d x y false (fun w b _ => some (integerResult 5 w b))
  | amax (sw d x y) : AtomicOp (.amax sw d x y) sw d x y false (fun w b _ => some (integerResult 6 w b))
  | aminn (sw d x y) : AtomicOp (.aminn sw d x y) sw d x y false (fun w b _ => some (integerResult 7 w b))
  | amaxn (sw d x y) : AtomicOp (.amaxn sw d x y) sw d x y false (fun w b _ => some (integerResult 8 w b))
  | aand (sw d x y) : AtomicOp (.aand sw d x y) sw d x y false (fun w b _ => some (w &&& b))
  | aor (sw d x y) : AtomicOp (.aor sw d x y) sw d x y false (fun w b _ => some (w ||| b))
  | axor (sw d x y) : AtomicOp (.axor sw d x y) sw d x y false (fun w b _ => some (w ^^^ b))
  | axch (sw d x y) : AtomicOp (.axch sw d x y) sw d x y false (fun _ b _ => some b)
  | acas (sw d x y) : AtomicOp (.acas sw d x y) sw d x y true (fun w b dv => if w = dv then some b else none)
  | aincw (sw d x y) : AtomicOp (.aincw sw d x y) sw d x y false (fun w b _ => some (if w.toNat ≥ b.toNat then 0#32 else w + 1#32))

/-- The lanes of an atomic in ascending order, each seeing the results of the lower ones (09 R205): the old word of each,
and the bytes stored and the bits changed, newest first. `f` is given the lane too. -/
def atomWalk (i : In) (f : Nat → Word → Option Word) :
    List (Nat × Nat) → List Host.Cell → List (Nat × Word) × List Host.Cell × List TagStore
  | [], _ => ([], [], [])
  | (k, p) :: rest, stores =>
    let w := BitVec.ofNat 32 (leNat (viewBytes i.s.lmem stores p 4))
    let new : List Host.Cell × List TagStore := match f k w with
      | some v => (storedCells p (natLE 4 v.toNat), dirtyTags p 4)
      | none => ([], [])
    let r := atomWalk i f rest (new.1 ++ stores)
    ((k, w) :: r.1, r.2.1 ++ new.1, r.2.2 ++ new.2)

/-- A local atomic issues as a chunk of its own: the set's chunk for it is open, or none is open and it opens where a lane executes (09 R204). -/
def LatmIssues (s : State) (f : Form) (i : In) : Prop :=
  ∃ gid set g, s.issue.actor = .group gid set ∧ tget s.groups gid = some g ∧
    ((∃ c, g.cur = some c ∧ c.kind = .latm set) ∧ GroupIssues s f i ∨
     (g.cur = none ∧
      GroupIssues (setGroup (openLatm s g set f).1 gid (openLatm s g set f).2) f i))

/-- GRED words of one word: the function of each (09 R207). -/
inductive GredOp : Instr → Bool → BitVec 4 → Src → Src → Nat → Prop
  | gredRaddi (sw n x y) : GredOp (.gredRaddi sw n x y) sw n x y 0
  | gredRaddf (sw n x y) : GredOp (.gredRaddf sw n x y) sw n x y 1
  | gredRmini (sw n x y) : GredOp (.gredRmini sw n x y) sw n x y 2
  | gredRmaxi (sw n x y) : GredOp (.gredRmaxi sw n x y) sw n x y 3
  | gredRminf (sw n x y) : GredOp (.gredRminf sw n x y) sw n x y 4
  | gredRmaxf (sw n x y) : GredOp (.gredRmaxf sw n x y) sw n x y 5
  | gredRand (sw n x y) : GredOp (.gredRand sw n x y) sw n x y 6
  | gredRor (sw n x y) : GredOp (.gredRor sw n x y) sw n x y 7
  | gredRxor (sw n x y) : GredOp (.gredRxor sw n x y) sw n x y 8
  | gredRaddb2 (sw n x y) : GredOp (.gredRaddb2 sw n x y) sw n x y 9

/-- The contributions of a GRED fit (09 R207, R209): the extent is bound with reductions, every executing lane's element
lies inside it, and the team has room for an entry of each. -/
structure GredFits (i : In) (n size : Nat) : Prop where
  bound : ∃ e, tget i.l.extents n = some e ∧ e.access / 4 % 2 = 1 ∧ ∀ k ∈ i.act, (xVal i k).toNat * size + size ≤ e.len
  room : gredUsed i.s i.l i.gid i.g i.t + i.act.length ≤ gredCapacity i.s i.g i.t i.l

end Sys2Proof

section

open Sys2Proof Sys2Proof.Machine

/-- 09 R193-R198: a load. The lanes that pass are `passing`; where all do, it is every executing lane. -/
def Obligations.LoadsIssueSeenBytes : Prop :=
  ∀ ins sw d x o size regs word, LoadOp ins sw d x o size regs word → ∀ s i, GroupIssues s (loadForm sw d x regs) i →
    let ps := passing i (addrOf i o size) size size
    roomFor i (linesAt (addrOf i o size) size (ps.map (·.1))) [] id →
    let vs := ps.flatMap (fun e => (upto regs).map (fun j => (64 * e.1 + d + j, word j (seenBytes i e.2 size))))
    Completes ins s i (fun g =>
      VectorsPending i g (ps.map (·.1)) (vs.map (·.1)) ∧
      ChunksGain i g [] [] [] (resultsOf (released i (ps.map (·.1))).v 0 vs) ∧ SpecialsKept i g)

/-- 09 R195-R197, R201: a store of data. -/
def Obligations.StoresEnterTheChunk : Prop :=
  ∀ ins sw d x o size regs bits, StoreOp ins sw d x o size regs bits → ∀ s i, GroupIssues s (storeForm sw d x regs) i →
    let ps := passing i (addrOf i o size) size size
    let cells := (ps.map (fun e => storedCells e.2 (laneBytes i d size regs e.1))).reverse.flatten
    let tags := (ps.map (fun e => bits e.2 ++ dirtyTags e.2 size)).reverse.flatten
    roomFor i [] (linesAt (addrOf i o size) size (ps.map (·.1))) (fun c => { c with stores := cells ++ c.stores, tags := tags ++ c.tags }) →
    Completes ins s i (fun g =>
      ChunksGain i g cells tags [] [] ∧
      (∀ a, (∀ e ∈ ps, a < e.2 ∨ e.2 + size ≤ a) →
        viewByte s.lmem (ownStores g) a = viewByte s.lmem (ownStores i.g) a) ∧
      g.regs.v = (released i (ps.map (·.1))).v ∧ g.regs.s = i.g.regs.s ∧ g.regs.p = i.g.regs.p ∧ SpecialsKept i g)

/-- 09 R200, R201: the bits of words of local memory. -/
def Obligations.BitStoresAndTagLoads : Prop :=
  (∀ ins sw x o bit, BitOp ins sw x o bit → ∀ s i, GroupIssues s { sw := sw, x := some x, imm := true } i →
    let ps := passing i (addrOf i o 4) 4 4
    let tags := (ps.map (fun e => bit e.2)).reverse
    roomFor i [] (linesAt (addrOf i o 4) 4 (ps.map (·.1))) (fun c => { c with tags := tags ++ c.tags }) →
    Completes ins s i (fun g =>
      ChunksGain i g [] tags [] [] ∧ g.regs.v = (released i (ps.map (·.1))).v ∧ g.regs.s = i.g.regs.s ∧
      g.regs.p = i.g.regs.p ∧ SpecialsKept i g)) ∧
  (∀ sw d x o s i, GroupIssues s (loadForm sw d.toNat x 1) i →
    let ps := passing i (addrOf i o 4) 4 4
    roomFor i (linesAt (addrOf i o 4) 4 (ps.map (·.1))) [] id →
    let vs := ps.map (fun e => (64 * e.1 + d.toNat, BitVec.ofNat 32
      ((viewFull i.s.lbits (ownTags i.g) e.2).toNat + 2 * (viewDirty i.s.lbits (ownTags i.g) e.2).toNat)))
    Completes (.ldtag sw d x o) s i (fun g =>
      VectorsPending i g (ps.map (·.1)) (vs.map (·.1)) ∧
      ChunksGain i g [] [] [] (resultsOf (released i (ps.map (·.1))).v 0 vs) ∧ SpecialsKept i g))

/-- 09 R199: loads of full words. -/
def Obligations.FullLoadsTakeOrWait : Prop :=
  ∀ ins sw d x o c take, FullOp ins sw d x o c take → ∀ s i, GroupIssues s (loadForm sw d.toNat x 1) i →
    let r := fullWalk i take (passing i (addrOf i o 4) 4 4) []
    let took := r.1.map (·.1)
    roomFor i (linesAt (addrOf i o 4) 4 (if c = .traps then took else (passing i (addrOf i o 4) 4 4).map (·.1))) (if take then linesAt (addrOf i o 4) 4 took else []) (fun k => { k with tags := r.2.2 ++ k.tags }) →
    let vs := r.1.map (fun e => (64 * e.1 + d.toNat, e.2.2))
    Completes ins s i (fun g =>
      VectorsPending i g took (vs.map (·.1)) ∧
      ChunksGain i g [] r.2.2 [] (resultsOf (released i took).v 0 vs) ∧ SpecialsKept i g ∧
      (∀ e ∈ r.2.1, e.1 ∉ took → (c = .waits → (laneAt g.regs e.1).wait = Wait.full e.2) ∧
        (c = .traps → (laneAt g.regs e.1).wait = .parked)))

/-- 09 R202: uniform accesses. -/
def Obligations.UniformAccesses : Prop :=
  (∀ sw d x o s i p, GroupIssues s { sw := sw, sx := some x, u := [d.toNat], imm := true } i → i.act ≠ [] →
    let a := BitVec.ofNat 32 ((sxVal i).toNat + (immediateOf i.hints o).toNat * 4)
    accessAt i (fun _ => a) 4 4 0 = some p → roomFor i (lineInputs a.toNat 4) [] id →
    Completes (.lds32 sw d x o) s i (fun g =>
      g.regs.v = i.g.regs.v ∧ g.regs.p = i.g.regs.p ∧ g.regs.s = pendingFile (released i i.act).s [d.toNat] ∧
      ChunksGain i g [] [] [] (resultsOf (released i i.act).s 1 [(d.toNat, BitVec.ofNat 32 (leNat (seenBytes i p 4)))]) ∧
      SpecialsKept i g)) ∧
  (∀ sw d x o s i p, GroupIssues s { sw := sw, sx := some x, u := [d.toNat], ur := [d.toNat], imm := true } i → i.act ≠ [] →
    let a := BitVec.ofNat 32 ((sxVal i).toNat + (immediateOf i.hints o).toNat * 4)
    accessAt i (fun _ => a) 4 4 0 = some p →
    roomFor i [] (lineInputs a.toNat 4) (fun c => chunkStore c p (natLE 4 (readS i.g.regs d.toNat).1.toNat)) →
    Completes (.sts32 sw d x o) s i (fun g =>
      ChunksGain i g (storedCells p (natLE 4 (readS i.g.regs d.toNat).1.toNat)) (dirtyTags p 4) [] [] ∧
      (∀ b, b < p ∨ p + 4 ≤ b → viewByte s.lmem (ownStores g) b = viewByte s.lmem (ownStores i.g) b) ∧
      g.regs.v = i.g.regs.v ∧ g.regs.p = i.g.regs.p ∧ g.regs.s = (released i i.act).s ∧ SpecialsKept i g))

/-- 09 R195, 21 R386, 06 R127: failing accesses trap before the instruction. -/
def Obligations.FailingAccessParksLanes : Prop :=
  (∀ ins sw d x o size regs word, LoadOp ins sw d x o size regs word → ∀ s i, GroupIssues s (loadForm sw d x regs) i →
    roomFor i (linesAt (addrOf i o size) size ((passing i (addrOf i o size) size size).map (·.1))) [] id →
    failing i (addrOf i o size) size size ≠ [] →
    Completes ins s i (fun g => SubgroupParked i g (failing i (addrOf i o size) size size) ∧
      OthersGoOn i g ((failing i (addrOf i o size) size size).map (·.1)))) ∧
  (∀ ins sw d x o size regs bits, StoreOp ins sw d x o size regs bits → ∀ s i, GroupIssues s (storeForm sw d x regs) i →
    let ps := passing i (addrOf i o size) size size
    roomFor i [] (linesAt (addrOf i o size) size (ps.map (·.1))) (fun c =>
      { c with stores := (ps.map (fun e => storedCells e.2 (laneBytes i d size regs e.1))).reverse.flatten ++ c.stores,
               tags := (ps.map (fun e => bits e.2 ++ dirtyTags e.2 size)).reverse.flatten ++ c.tags }) →
    failing i (addrOf i o size) size size ≠ [] →
    Completes ins s i (fun g => SubgroupParked i g (failing i (addrOf i o size) size size) ∧
      OthersGoOn i g ((failing i (addrOf i o size) size size).map (·.1))))

/-- 04 R85, R89, 07 R134: accesses of control memory; the next state is given whole. -/
def Obligations.ControlCoreAccessesItsMemory : Prop :=
  (∀ ins sw d x o size regs word, LoadOp ins sw d x o size regs word → size ≤ 8 → ∀ s c, ControlIssues s (loadForm sw d x regs) c →
    let a := BitVec.ofNat 32 ((ctlReg (ctlAt s c) x.reg.toNat).toNat + (immediateOf s.issue.hints o).toNat * size)
    (ctlAccessOk a size = true →
      exec ins s = .next (withCtl s c { ctlAt s c with
        pc := s.issue.pc + 4#32,
        s := (upto regs).foldl (fun t j => tput t (d + j) (word j (mbytes s.cmem (c * Config.controlBytes + a.toNat) size))) (ctlAt s c).s })) ∧
    (ctlAccessOk a size = false → exec ins s = .next (stopControl s c 7 s.issue.word s.issue.pc a))) ∧
  (∀ ins sw d x o size regs bits, StoreOp ins sw d x o size regs bits → size ≤ 8 → (∀ p, bits p = []) → ∀ s c, ControlIssues s (storeForm sw d x regs) c →
    let a := BitVec.ofNat 32 ((ctlReg (ctlAt s c) x.reg.toNat).toNat + (immediateOf s.issue.hints o).toNat * size)
    let bs := ((upto regs).flatMap (fun j => natLE 4 (ctlReg (ctlAt s c) (d + j)).toNat)).take size
    let inside := decide (a.toNat < (ctlAt s c).base + (ctlAt s c).size ∧ (ctlAt s c).base < a.toNat + size)
    (ctlAccessOk a size = true → inside = false →
      exec ins s = .next { withCtl s c { ctlAt s c with pc := s.issue.pc + 4#32 } with
        cmem := mwrites s.cmem (c * Config.controlBytes + a.toNat) bs }) ∧
    (ctlAccessOk a size = false ∨ inside = true → exec ins s = .next (stopControl s c 7 s.issue.word s.issue.pc a)))

/-- 09 R203-R205: local atomics. -/
def Obligations.LocalAtomicsSerialInLanes : Prop :=
  (∀ ins sw d x y dest f, AtomicOp ins sw d x y dest f → ∀ s i,
    LatmIssues s { sw := sw, x := some x, y := some y, v := [d.toNat], vr := if dest then [d.toNat] else [] } i →
    let ps := passing i (fun k => xVal i k) 4 4
    let r := atomWalk i (fun k w => f w (yVal i k) (readV i.g.regs k d.toNat).1) ps (ownStores i.g)
    let lines := linesAt (fun k => xVal i k) 4 (ps.map (·.1))
    roomFor i lines lines (fun c => { c with stores := r.2.1 ++ c.stores, tags := r.2.2 ++ c.tags }) →
    let vs := r.1.map (fun e => (64 * e.1 + d.toNat, e.2))
    Completes ins s i (fun g =>
      VectorsPending i g (ps.map (·.1)) (vs.map (·.1)) ∧
      ChunksGain i g r.2.1 r.2.2 [] (resultsOf (released i (ps.map (·.1))).v 0 vs) ∧ SpecialsKept i g)) ∧
  (∀ sw d x y s i, LatmIssues s { sw := sw, x := some x, y := some y, v := [d.toNat] } i →
    let ps := passing i (fun k => xVal i k) 4 4
    let sum : Nat → Word → FpOut := fun k w => fpAdd .fp32 (roundMode i.hints) false (fpOf w) (fpOf (yVal i k))
    let r := atomWalk i (fun k w => some (BitVec.ofNat 32 (sum k w).code)) ps (ownStores i.g)
    let lines := linesAt (fun k => xVal i k) 4 (ps.map (·.1))
    roomFor i lines lines (fun c => { c with stores := r.2.1 ++ c.stores, tags := r.2.2 ++ c.tags }) →
    let vs := r.1.map (fun e => (64 * e.1 + d.toNat, e.2))
    Completes (.afadd sw d x y) s i (fun g =>
      VectorsPending i g (ps.map (·.1)) (vs.map (·.1)) ∧
      ChunksGain i g r.2.1 r.2.2 (r.1.flatMap (fun e => (sum e.1 e.2).counts.map (fun n => Eff.count n 1)))
        (resultsOf (released i (ps.map (·.1))).v 0 vs) ∧ SpecialsKept i g))

/-- 09 R207, R209: global reductions enter their contributions. -/
def Obligations.GredEntersContributions : Prop :=
  (∀ ins sw n x y fn, GredOp ins sw n x y fn → ∀ s i, GroupIssues s { sw := sw, x := some x, y := some y } i →
    GredFits i n.toNat 4 →
    Completes ins s i (fun g =>
      ChunksGain i g [] [] (i.act.map (fun k => Eff.gred n.toNat ((xVal i k).toNat * 4) fn (0#32 ++ yVal i k))) [] ∧
      g.regs.v = (released i i.act).v ∧ g.regs.s = i.g.regs.s ∧ g.regs.p = i.g.regs.p ∧ SpecialsKept i g)) ∧
  (∀ sw n x (y : BitVec 5) u s i, GroupIssues s { sw := sw, x := some x, y := some (pairSrc y u), pairY := true } i →
    GredFits i n.toNat 8 →
    Completes (.gredRaddi64 sw n x y u) s i (fun g =>
      ChunksGain i g [] [] (i.act.map (fun k => Eff.gred n.toNat ((xVal i k).toNat * 8) 10 (yVal2 i k ++ yVal i k))) [] ∧
      g.regs.v = (released i i.act).v ∧ g.regs.s = i.g.regs.s ∧ g.regs.p = i.g.regs.p ∧ SpecialsKept i g))

end

namespace Sys2Proof

open Sys2Proof.Machine

/-! ### Control flow (06 R117-R133) -/

/-- The target of a branch at the word's address: A + 4 times the offset, modulo 2^32 (06 R117). -/
def targetOf (pc : Word) (o : BitVec 19) : Word := BitVec.ofInt 32 (pc.toNat + 4 * o.toInt)

/-- The lanes of the set whose predicate is b. -/
def lanesWith (i : In) (p : BitVec 3) (b : Bool) : List Nat := i.lanes.filter (fun k => predOf i p k == b)

/-- Branches of a group: frame, the lanes that branch, the target of each, and whether the word links in v63 (06 R117,
R119). -/
inductive BranchOp : Instr → Form → (In → List Nat) → (In → Nat → Word) → Bool → Prop
  | br (sw o) : BranchOp (.br sw o) { sw := sw, guarded := false } (fun i => i.lanes) (fun i _ => targetOf i.pc o) false
  | brt (sw p o) : BranchOp (.brt sw p o) { sw := sw, guarded := false, pr := [p.toNat] } (fun i => lanesWith i p true)
      (fun i _ => targetOf i.pc o) false
  | brf (sw p o) : BranchOp (.brf sw p o) { sw := sw, guarded := false, pr := [p.toNat] } (fun i => lanesWith i p false)
      (fun i _ => targetOf i.pc o) false
  | brany (sw p o) : BranchOp (.brany sw p o) { sw := sw, guarded := false, pr := [p.toNat] }
      (fun i => if lanesWith i p true = [] then [] else i.lanes) (fun i _ => targetOf i.pc o) false
  | brall (sw p o) : BranchOp (.brall sw p o) { sw := sw, guarded := false, pr := [p.toNat] }
      (fun i => if lanesWith i p false = [] then i.lanes else []) (fun i _ => targetOf i.pc o) false
  | call (sw o) : BranchOp (.call sw o) { sw := sw, guarded := false, v := [63] } (fun i => i.lanes)
      (fun i _ => targetOf i.pc o) true
  | jr (sw x) : BranchOp (.jr sw x) { sw := sw, x := some x } (fun i => i.act) (fun i k => xVal i k) false
  | callr (sw x) : BranchOp (.callr sw x) { sw := sw, x := some x, v := [63] } (fun i => i.act) (fun i k => xVal i k) true
  | ret (sw) : BranchOp (.ret sw) { sw := sw, v := [63], vr := [63] } (fun i => i.act)
      (fun i k => (readV i.g.regs k 63).1) false

/-- The lanes of a list whose target is an instruction address of the text section (03 R56). -/
def arriving (i : In) (ls : List Nat) (target : Nat → Word) : List Nat := ls.filter (fun k => inText i.l (target k))

/-- Branches of a control core: frame, whether the core branches, the target, and whether the word links in s63
(06 R118, 04 R85). -/
inductive ControlBranch : Instr → Form → Word → (Ctl → Bool) → (Ctl → Word) → Bool → Prop
  | br (sw o pc) : ControlBranch (.br sw o) { sw := sw, guarded := false } pc (fun _ => true) (fun _ => targetOf pc o) false
  | brt (sw p o pc) : ControlBranch (.brt sw p o) { sw := sw, guarded := false, pr := [p.toNat] } pc
      (fun k => ctlPred k p.toNat) (fun _ => targetOf pc o) false
  | brf (sw p o pc) : ControlBranch (.brf sw p o) { sw := sw, guarded := false, pr := [p.toNat] } pc
      (fun k => !ctlPred k p.toNat) (fun _ => targetOf pc o) false
  | call (sw o pc) : ControlBranch (.call sw o) { sw := sw, guarded := false, v := [63] } pc (fun _ => true)
      (fun _ => targetOf pc o) true
  | jr (sw x pc) : ControlBranch (.jr sw x) { sw := sw, x := some x } pc (fun _ => true) (fun k => ctlReg k x.reg.toNat) false
  | callr (sw x pc) : ControlBranch (.callr sw x) { sw := sw, x := some x, v := [63] } pc (fun _ => true)
      (fun k => ctlReg k x.reg.toNat) true
  | ret (sw pc) : ControlBranch (.ret sw) { sw := sw, v := [63], vr := [63] } pc (fun _ => true) (fun k => ctlReg k 63) false

/-- The members of a mask of a group. -/
def membersOf (c : GroupCore) (m : BitVec 4) : LaneMask := tgetD c.masks m.toNat 0#64

/-- A lane waits at an MWAIT of mask m. -/
def waitsAtMask (c : GroupCore) (m : BitVec 4) (j : Nat) : Bool :=
  match (laneAt c j).wait with
  | .mask k _ _ _ => k == m.toNat
  | _ => false

/-- A member of mask m has arrived at its MWAIT: it is in the set that issues it, or waits there already. A thread in its
handler has not (06 R126). -/
def hasArrived (i : In) (m : BitVec 4) (j : Nat) : Bool :=
  !(laneAt i.g.regs j).handler && (i.lanes.contains j || waitsAtMask i.g.regs m j)

/-- Where a member of a mask goes on: after the MWAIT that its set issues, or after the one that it waits at. -/
def resumesAt (i : In) (j : Nat) : Word :=
  if i.lanes.contains j then i.pc + 4#32
  else match (laneAt i.g.regs j).wait with
    | .mask _ after _ _ => after
    | _ => 0#32

/-- A mask that keeps the members `kept`, all of them waiting at it and none in its handler, lets all of them go on after
their MWAIT (06 R122, R126). -/
def ReleasesWaiters (i : In) (m : BitVec 4) (kept : LaneMask) (g : Group) : Prop :=
  setReady i → m.toNat < 12 → kept ≠ 0#64 →
    (∀ j, j < 64 → kept.getLsbD j = true → (laneAt i.g.regs j).handler = false ∧ waitsAtMask i.g.regs m j = true) →
    ∀ j, j < 64 → kept.getLsbD j = true → standsAt g j (resumesAt i j) .ready

/-- A waiting thread that a mask loses, keeping `kept`, goes on after its MWAIT as an issue set of its own (06 R122). -/
def ReleasesRemoved (i : In) (m : BitVec 4) (kept : LaneMask) (g : Group) : Prop :=
  setReady i → ∀ j ∈ liveLanes i.g.regs, waitsAtMask i.g.regs m j = true → kept.getLsbD j = false →
    standsAt g j (resumesAt i j) .ready ∧
    ((∀ k ∈ liveLanes i.g.regs, (laneAt i.g.regs k).set < i.g.nextSet) →
      ∀ k ∈ liveLanes i.g.regs, k ≠ j → (laneAt g.regs k).set ≠ (laneAt g.regs j).set)

/-- The barrier words of a group and the wait that each leaves (09 R211, R212, R214). -/
inductive BarrierOp : Instr → Form → (In → Wait) → Prop
  | bart (sw) : BarrierOp (.bart sw) { sw := sw, guarded := false } (fun _ => .bart)
  | barg (sw) : BarrierOp (.barg sw) { sw := sw, guarded := false } (fun _ => .barg)
  | bartc (sw k c) : BarrierOp (.bartc sw k c) { sw := sw, guarded := false, illegal := c == 0#18 }
      (fun i => .bartc k.toNat c.toNat i.runPc ((i.g.cur.map (·.uid)).getD 0))
  | fenl (sw) : BarrierOp (.fenl sw) { sw := sw, guarded := false } (fun i => .fenl ((i.g.cur.map (·.uid)).getD 0))

/-- Words that a group only retires (05 R109, 06 R133). -/
inductive IdleOp : Instr → Form → Prop
  | nop (sw) : IdleOp (.nop sw) { sw := sw, guarded := false }
  | yield (sw) : IdleOp (.yield sw) { sw := sw }

/-- Software traps: the cause of each (21 R390). -/
inductive SoftTrapOp : Instr → Bool → BitVec 8 → Nat → Prop
  | trap (sw c) : SoftTrapOp (.trap sw c) sw c 13
  | brk (sw c) : SoftTrapOp (.brk sw c) sw c 12

/-- Writes of team registers by the lowest executing lane: frame, and the registers with their values (05 R105, 21 R393). -/
inductive TeamWrite : Instr → Form → (In → List (Nat × Word)) → Prop
  | setkey (sw x y) : TeamWrite (.setkey sw x y) { sw := sw, x := some x, y := some y, low := true }
      (fun i => [(0, xVal i (i.act.headD 0)), (1, yVal i (i.act.headD 0))])
  | setstrm (sw x) : TeamWrite (.setstrm sw x) { sw := sw, x := some x, low := true } (fun i => [(2, xVal i (i.act.headD 0))])
  | sethnd (sw x) : TeamWrite (.sethnd sw x) { sw := sw, x := some x, low := true } (fun i => [(17, xVal i (i.act.headD 0))])
  | wrst (sw n y) : TeamWrite (.wrst sw n y) { sw := sw, y := some y, low := true } (fun i => [(n.toNat, yVal i (i.act.headD 0))])

/-- The lanes that a trap return sends back, and where (21 R391): the written trap_pc, the word after a TRAP or BRK, or the
trapped run with FP traps suppressed once (14 R288). -/
def returnsTo (t : TrapState) : Word × Bool :=
  if t.written then (t.pc, false) else if t.cause = 12 ∨ t.cause = 13 then (t.after, false) else (t.pc, true)

end Sys2Proof

section

open Sys2Proof Sys2Proof.Machine

/-- 06 R117, R119: branches of a group. -/
def Obligations.BranchesMoveTheirLanes : Prop :=
  ∀ ins f taken target links, BranchOp ins f taken target links → ∀ s i, GroupIssues s f i → setReady i →
    let go := arriving i (taken i) (target i)
    Completes ins s i (fun g =>
      (∀ k ∈ go, standsAt g k (target i k) .ready) ∧
      (∀ k ∈ i.lanes, k ∉ taken i → standsAt g k (i.pc + 4#32) .ready) ∧
      (∀ k ∈ taken i, k ∉ go → standsAt g k i.runPc .parked) ∧
      (links = true → VectorWritten i g 63 go (fun _ => i.pc + 4#32)) ∧ (links = false → FilesKept i g go) ∧
      ChunksKept i g ∧ SpecialsKept i g)

/-- 06 R118, 07 R135: branches of a control core; the next state is given whole. -/
def Obligations.ControlCoreBranches : Prop :=
  ∀ s ins f take target links, ControlBranch ins f s.issue.pc take target links → ∀ c, ControlIssues s f c →
    let k := ctlAt s c
    let t := target k
    (take k = false → exec ins s = .next (withCtl s c { k with pc := s.issue.pc + 4#32 })) ∧
    (take k = true → t.toNat % 4 = 0 → t.toNat + 4 ≤ k.size →
      exec ins s = .next (withCtl s c { k with pc := t, s := if links then tput k.s 63 (s.issue.pc + 4#32) else k.s })) ∧
    (take k = true → ¬(t.toNat % 4 = 0 ∧ t.toNat + 4 ≤ k.size) →
      exec ins s = .next (stopControl s c 6 s.issue.word s.issue.pc 0#32))

/-- 06 R121, R122: masks. That a thread in its handler holds a mask back is log entry 128. -/
def Obligations.MaskWordsSetMembers : Prop :=
  (∀ sw m s i, GroupIssues s { sw := sw, guarded := false } i →
    Completes (.mjoin sw m) s i (fun g => g.regs.masks = tput i.g.regs.masks m.toNat (membersOf i.g.regs m ||| maskOf i.lanes) ∧
      FilesKept i g [] ∧ PoolsKept i g ∧ g.regs.trap.pc = i.g.regs.trap.pc ∧ ChunksKept i g) ∧
    Completes (.mleave sw m) s i (fun g => g.regs.masks = tput i.g.regs.masks m.toNat (membersOf i.g.regs m &&& ~~~(maskOf i.lanes)) ∧
      ReleasesWaiters i m (membersOf i.g.regs m &&& ~~~(maskOf i.lanes)) g ∧ FilesKept i g [] ∧ PoolsKept i g ∧ g.regs.trap.pc = i.g.regs.trap.pc ∧ ChunksKept i g) ∧
    Completes (.mclr sw m) s i (fun g => g.regs.masks = tput i.g.regs.masks m.toNat 0#64 ∧
      ReleasesRemoved i m 0#64 g ∧ FilesKept i g [] ∧ PoolsKept i g ∧ g.regs.trap.pc = i.g.regs.trap.pc ∧ ChunksKept i g) ∧
    (∀ d : BitVec 3, Completes (.mtest sw m d) s i (fun g =>
      PredWritten i g d.toNat i.act (fun k => (membersOf i.g.regs m).getLsbD k) ∧ ChunksKept i g ∧ SpecialsKept i g))) ∧
  (∀ sw m (j : BitVec 5) s i, GroupIssues s { sw := sw, guarded := false, u := [2 * j.toNat + 1], ur := [2 * j.toNat, 2 * j.toNat + 1] } i →
    let named := (readS i.g.regs (2 * j.toNat + 1)).1 ++ (readS i.g.regs (2 * j.toNat)).1
    let kept := named &&& maskOf ((liveLanes i.g.regs).filter (fun k => decide (k < i.l.alloc.w)))
    Completes (.mset sw m j) s i (fun g => g.regs.masks = tput i.g.regs.masks m.toNat kept ∧
      ReleasesWaiters i m kept g ∧ ReleasesRemoved i m kept g ∧ FilesKept i g [] ∧ PoolsKept i g ∧ g.regs.trap.pc = i.g.regs.trap.pc ∧ ChunksKept i g)) ∧
  (∀ sw m (j : BitVec 5) s i, GroupIssues s { sw := sw, guarded := false, u := [2 * j.toNat + 1] } i → i.act ≠ [] →
    Completes (.mget sw m j) s i (fun g =>
      readS g.regs (2 * j.toNat) = ((membersOf i.g.regs m).setWidth 32, false) ∧
      readS g.regs (2 * j.toNat + 1) = ((membersOf i.g.regs m >>> 32).setWidth 32, false) ∧
      (∀ r, r ≠ 2 * j.toNat → r ≠ 2 * j.toNat + 1 → sreg g.regs r = sreg i.g.regs r) ∧
      g.regs.v = i.g.regs.v ∧ g.regs.p = i.g.regs.p ∧ ChunksKept i g ∧ SpecialsKept i g))

/-- 06 R122, R126: MWAIT, and the release once every member waits. That a thread in its handler holds a mask back is log entry 128. -/
def Obligations.MaskWaitReleasesTogether : Prop :=
  ∀ sw (m : BitVec 4) s i, m.toNat < 12 → GroupIssues s { sw := sw, guarded := false } i → setReady i →
    (∀ k ∈ i.lanes, (membersOf i.g.regs m).getLsbD k = true) →
    ((∃ j, j < 64 ∧ (membersOf i.g.regs m).getLsbD j = true ∧ hasArrived i m j = false) →
      Completes (.mwait sw m) s i (fun g =>
        (∀ k ∈ i.lanes, standsAt g k (laneAt i.g.regs k).pc (.mask m.toNat (i.pc + 4#32) (chunkEnd i.hints) sw)) ∧
        FilesKept i g [] ∧ ChunksKept i g ∧ SpecialsKept i g)) ∧
    (i.lanes ≠ [] → (∀ j, j < 64 → (membersOf i.g.regs m).getLsbD j = true → hasArrived i m j = true) →
      Completes (.mwait sw m) s i (fun g =>
        (∀ j, j < 64 → (membersOf i.g.regs m).getLsbD j = true → standsAt g j (resumesAt i j) .ready) ∧
        FilesKept i g [] ∧ ChunksKept i g ∧ SpecialsKept i g))

/-- 09 R210-R212, R214: barriers, and the end of a chunk. -/
def Obligations.BarriersHoldTheirLanes : Prop :=
  (∀ ins f w, BarrierOp ins f w → ∀ s i, GroupIssues s f i → setReady i →
    Completes ins s i (fun g => (∀ k ∈ i.lanes, standsAt g k (i.pc + 4#32) (w i)) ∧
      FilesKept i g [] ∧ ChunksKept i g ∧ SpecialsKept i g)) ∧
  (∀ sw s i, GroupIssues s { sw := sw, guarded := false } i → setReady i →
    Completes (.chend sw) s i (fun g => (∀ k ∈ i.lanes, standsAt g k (i.pc + 4#32) .ready ∧
      ((laneAt g.regs k).ended = true ∨ g.cur = none)) ∧
      FilesKept i g [] ∧ ChunksKept i g ∧ SpecialsKept i g))

/-- 09 R213, 08 R164: PHASE. -/
def Obligations.PhaseNamesTheExchange : Prop :=
  ∀ sw (e : BitVec 18) s i,
    (e.toNat = 0x3FFFF ∨ e.toNat < i.l.exchOffsets.length) → GroupIssues s { sw := sw, guarded := false } i → setReady i →
    signatureRoom i [teamInput i.t 31] (if (viewName i.g i.t).isNone then [teamInput i.t 31] else []) →
    let clash := i.g.regs.unjoined ≠ [] ∨ ((viewName i.g i.t).isSome = true ∧ viewName i.g i.t ≠ some e.toNat)
    (¬clash → Completes (.phase sw e) s i (fun g =>
        (∀ k ∈ i.lanes, standsAt g k (i.pc + 4#32) (.phase e.toNat)) ∧ FilesKept i g [] ∧
        ChunksGain i g [] [] (if (viewName i.g i.t).isNone then [.exname e.toNat] else []) [] ∧ SpecialsKept i g)) ∧
    (clash → i.lanes ≠ [] → Completes (.phase sw e) s i (fun g =>
        SubgroupParked i g (i.lanes.map (fun k => (k, 3, 0#32))) ∧ FilesKept i g [] ∧ ChunksKept i g ∧ SpecialsKept i g))

/-- 06 R129, 02 R33: SPAWN with room. -/
def Obligations.SpawnReservesRecords : Prop :=
  ∀ sw x y s i entry bin, GroupIssues s { sw := sw, x := some x, y := some y } i → setReady i →
    (∀ k ∈ i.act, xVal i k = entry ∧ (laneAt i.g.regs k).block = 0) → inText i.l entry = true →
    let pend := rivalReservations i.s i.l i.t i.gid i.g ++ reservations i.g
    reserveBin (tgetD i.s.cores i.g.core {}) pend entry = some bin →
    (binLoad (tgetD i.s.cores i.g.core {}) pend bin).2 + i.act.length ≤ 64 →
    Completes (.spawn sw x y) s i (fun g =>
      ChunksGain i g [] [] (i.act.map (fun k => Eff.spawn bin entry (yVal i k) (laneAt i.g.regs k).ltid)) [] ∧
      (∀ k ∈ i.lanes, standsAt g k (i.pc + 4#32) .ready) ∧ FilesKept i g i.act ∧ SpecialsKept i g)

/-- 06 R131, R122: EXIT. That a thread in its handler holds a mask back is log entry 128. -/
def Obligations.ExitEndsThreads : Prop :=
  ∀ sw s i, GroupIssues s { sw := sw } i → setReady i →
    Completes (.exit sw) s i (fun g =>
      (∀ k ∈ i.act, (laneAt g.regs k).status = .exited) ∧
      (∀ m, tgetD g.regs.masks m 0#64 = tgetD i.g.regs.masks m 0#64 &&& ~~~(maskOf i.act)) ∧
      (∀ m, ReleasesWaiters i m (membersOf i.g.regs m &&& ~~~(maskOf i.act)) g) ∧
      (∀ k ∈ i.lanes, k ∉ i.act → standsAt g k (i.pc + 4#32) .ready) ∧ FilesKept i g [] ∧ PoolsKept i g ∧
      g.regs.trap.pc = i.g.regs.trap.pc ∧ ChunksKept i g)

/-- 05 R109, 06 R133: NOP, YIELD and SLEEP. -/
def Obligations.NopYieldAndSleep : Prop :=
  (∀ ins f, IdleOp ins f → ∀ s i, GroupIssues s f i → setReady i →
    Completes ins s i (fun g => (∀ k ∈ i.lanes, standsAt g k (i.pc + 4#32) .ready) ∧
      FilesKept i g [] ∧ ChunksKept i g ∧ SpecialsKept i g)) ∧
  (∀ sw x s i, GroupIssues s { sw := sw, x := some x } i → setReady i →
    let n := (i.act.map (fun k => min (xVal i k).toNat (2 ^ 20))).foldl max 0
    Completes (.sleep sw x) s i (fun g =>
      (∀ k ∈ i.lanes, standsAt g k (i.pc + 4#32) (if n = 0 then .ready else .sleep (s.cycle + n))) ∧
      FilesKept i g i.act ∧ ChunksKept i g ∧ SpecialsKept i g))

/-- 21 R390: TRAP and BRK take their trap. -/
def Obligations.SoftwareTrapsPark : Prop :=
  ∀ ins sw c cause, SoftTrapOp ins sw c cause → ∀ s i, GroupIssues s { sw := sw } i → i.act ≠ [] →
    Completes ins s i (fun g => SubgroupParked i g (i.act.map (fun k => (k, cause, c.setWidth 32))) ∧
      (∀ k ∈ i.act, (laneAt g.regs k).ended = true ∨ g.cur = none) ∧
      FilesKept i g [] ∧ ChunksKept i g ∧ SpecialsKept i g)

/-- 21 R391, 14 R288: the return from a trap. -/
def Obligations.TrapReturnResumes : Prop :=
  ∀ sw s i, GroupIssues s { sw := sw } i → setReady i →
    ((∀ k ∈ i.act, (laneAt i.g.regs k).handler = true) → inText i.l (returnsTo i.g.regs.trap).1 = true →
      Completes (.tret sw) s i (fun g =>
        (∀ k ∈ i.act, standsAt g k (returnsTo i.g.regs.trap).1 .ready ∧ (laneAt g.regs k).handler = false ∧
          (laneAt g.regs k).quiet = (returnsTo i.g.regs.trap).2) ∧
        FilesKept i g [] ∧ ChunksKept i g ∧ SpecialsKept i g)) ∧
    (let back := (returnsTo i.g.regs.trap).1
      let bad := i.act.filterMap (fun k =>
        if (laneAt i.g.regs k).handler = false then some (k, 1, 0#32) else if inText i.l back then none else some (k, 1, back))
      bad ≠ [] →
      Completes (.tret sw) s i (fun g => SubgroupParked i g bad ∧
        (∀ k ∈ i.act, k ∉ bad.map (·.1) → standsAt g k back .ready ∧ (laneAt g.regs k).handler = false) ∧
        FilesKept i g [] ∧ ChunksKept i g ∧ SpecialsKept i g))

/-- 05 R105, R106, 21 R393: writes of team registers take effect at commit. -/
def Obligations.TeamRegisterWritesWait : Prop :=
  ∀ ins f regs, TeamWrite ins f regs → ∀ s i, GroupIssues s f i →
    (i.act ≠ [] → signatureRoom i [] ((regs i).map (fun r => teamInput i.t r.1)) →
      Completes ins s i (fun g => ChunksGain i g [] [] ((regs i).map (fun r => Eff.wrst r.1 r.2)) [] ∧
        (∀ r ∈ regs i, viewReg g i.t r.1 = r.2) ∧ FilesKept i g i.act ∧ SpecialsKept i g)) ∧
    (i.act = [] → Completes ins s i (fun g => ChunksKept i g ∧ FilesKept i g [] ∧ SpecialsKept i g))

/-- 02 R50, 05 R105, R106, 21 R392, R394-R396: state registers with the low-first latch, counters, the FP trap report and trap_pc. What a counter shows of other groups is log entry 8. -/
def Obligations.StateRegisterReads : Prop :=
  (∀ sw d (n : BitVec 8) s i, GroupIssues s { sw := sw, v := [d.toNat] } i →
    (teamScoped n.toNat = true → i.act ≠ [] → signatureRoom i [teamInput i.t n.toNat] []) →
    Completes (.rdst sw d n) s i (fun g =>
      VectorWritten i g d.toNat i.act (fun k => stateReg i n.toNat k) ∧ ChunksKept i g ∧ SpecialsKept i g ∧
      -- while the chunk is open, each executing thread keeps the high word that a read of a low word latched (02 R50)
      (∀ k ∈ i.act, g.cur.isSome = true →
        (laneAt g.regs k).latchPhase = (if n = 6#8 then some (BitVec.ofNat 32 (boundaryCount i.s i.l / 2 ^ 32))
          else if n = 7#8 then none else (laneAt i.g.regs k).latchPhase) ∧
        (laneAt g.regs k).latchCycle = (if n = 19#8 then some (BitVec.ofNat 32 (s.cycle / 2 ^ 32))
          else if n = 20#8 then none else (laneAt i.g.regs k).latchCycle)) ∧
      (∀ k ∈ i.act, g.cur = none → (laneAt g.regs k).latchPhase = none ∧ (laneAt g.regs k).latchCycle = none))) ∧
  (∀ i k, stateReg i 6 k = BitVec.ofNat 32 (boundaryCount i.s i.l) ∧ stateReg i 19 k = BitVec.ofNat 32 i.s.cycle ∧
    stateReg i 7 k = (laneAt i.g.regs k).latchPhase.getD (BitVec.ofNat 32 (boundaryCount i.s i.l / 2 ^ 32)) ∧
    stateReg i 20 k = (laneAt i.g.regs k).latchCycle.getD (BitVec.ofNat 32 (i.s.cycle / 2 ^ 32))) ∧
  (∀ sw (d n : BitVec 5) s i, GroupIssues s { sw := sw, v := [2 * d.toNat + 1] } i →
    Completes (.rdcnt sw d n) s i (fun g =>
      (∀ k ∈ i.act, readV g.regs k (2 * d.toNat) = ((counterValue i n.toNat).setWidth 32, false) ∧
        readV g.regs k (2 * d.toNat + 1) = ((counterValue i n.toNat >>> 32).setWidth 32, false)) ∧
      (∀ k r, r < 64 → ¬(k ∈ i.act ∧ (r = 2 * d.toNat ∨ r = 2 * d.toNat + 1)) → vreg g.regs k r = vreg i.g.regs k r) ∧
      g.regs.s = i.g.regs.s ∧ g.regs.p = i.g.regs.p ∧ ChunksKept i g ∧ SpecialsKept i g)) ∧
  (∀ sw d s i, GroupIssues s { sw := sw, v := [d.toNat] } i → i.act ≠ [] →
    signatureRoom i [teamInput i.t 3] [teamInput i.t 3] →
    Completes (.amaxr sw d) s i (fun g =>
      VectorWritten i g d.toNat i.act (fun _ => viewReg i.g i.t 3) ∧ ChunksGain i g [] [] [.wrst 3 0#32] [] ∧ SpecialsKept i g)) ∧
  (∀ sw d (n : BitVec 2) s i, GroupIssues s { sw := sw, v := [d.toNat] } i →
    Completes (.rdtrap sw d n) s i (fun g =>
      VectorWritten i g d.toNat i.act (fun _ =>
        if inService i.s i.g.team i.t.fp = false then 0#32 else if n = 0#2 then BitVec.ofNat 32 i.t.fp.ltid else if n = 1#2 then i.t.fp.pc
        else if n = 2#2 then BitVec.ofNat 32 i.t.fp.count else BitVec.ofNat 32 i.t.fp.causes) ∧ ChunksKept i g ∧ SpecialsKept i g)) ∧
  (∀ sw y s i, GroupIssues s { sw := sw, y := some y, low := true } i → i.act ≠ [] →
    (∀ k ∈ i.act, (laneAt i.g.regs k).handler = true) →
    Completes (.wrtrap sw y) s i (fun g =>
      g.regs.trap.pc = yVal i (i.act.headD 0) ∧ g.regs.trap.written = true ∧ PoolsKept i g ∧ g.regs.masks = i.g.regs.masks ∧
      FilesKept i g i.act ∧ ChunksKept i g))

end

namespace Sys2Proof

open Sys2Proof.Machine

/-! ### Random numbers and sampling (16 R314-R323) -/

/-- The 32-bit draw of the team's key for a counter of a high and a low word (16 R314, R315). -/
def keyed (i : In) (hi lo : Word) : Word := chx (viewReg i.g i.t 1) (viewReg i.g i.t 0) hi lo

/-- Random-number words: frame, destination, whether the stream word is read, and each lane's number (16 R316). -/
inductive RandomOp : Instr → Form → BitVec 6 → Bool → (In → Nat → Word) → Prop
  | rng (sw d x) : RandomOp (.rng sw d x) { sw := sw, x := some x, v := [d.toNat] } d true
      (fun i k => keyed i (viewReg i.g i.t 2) (xVal i k))
  | rng2 (sw d x y) : RandomOp (.rng2 sw d x y) { sw := sw, x := some x, y := some y, v := [d.toNat] } d false
      (fun i k => keyed i (yVal i k) (xVal i k))
  | unif (sw d x) : RandomOp (.unif sw d x) { sw := sw, x := some x, v := [d.toNat] } d true
      (fun i k => unifOf (keyed i (viewReg i.g i.t 2) (xVal i k)))
  | bern (sw d x y) : RandomOp (.bern sw d x y) { sw := sw, x := some x, y := some y, v := [d.toNat] } d true
      (fun i k => if (keyed i (viewReg i.g i.t 2) (xVal i k)).toNat < (yVal i k).toNat then 1#32 else 0#32)

/-- The pseudo-addresses of the key words, and of the stream word where it is read; none when no lane executes (16 R315). -/
def keyReads (i : In) (stream : Bool) : List Nat :=
  if i.act = [] then [] else [teamInput i.t 0, teamInput i.t 1] ++ (if stream then [teamInput i.t 2] else [])

/-- Stochastic conversions: whether the source updates amax, and each lane's outcome (16 R317, R318). -/
inductive StochasticOp : Instr → Bool → BitVec 6 → Src → Src → Bool → (In → Nat → FpOut) → Prop
  | srbf (sw d x y) : StochasticOp (.srbf sw d x y) sw d x y false (fun i k => srBf (satField i.hints) (xVal i k) (yVal i k))
  | srf16 (sw d x y) : StochasticOp (.srf16 sw d x y) sw d x y false (fun i k => srF16 (satField i.hints) (xVal i k) (yVal i k))
  | sre4 (sw d x y) : StochasticOp (.sre4 sw d x y) sw d x y true (fun i k => srE .e4m3 (xVal i k) (yVal i k))
  | sre5 (sw d x y) : StochasticOp (.sre5 sw d x y) sw d x y true (fun i k => srE .e5m2 (xVal i k) (yVal i k))

/-- SAMPLE, TOPK and ARGMAX (16 R319). -/
inductive SampOp : Instr → Bool → BitVec 6 → Src → Src → SampKind → Prop
  | sample (sw d x y) : SampOp (.sample sw d x y) sw d x y .sample
  | topk (sw d x y) : SampOp (.topk sw d x y) sw d x y .topk
  | argmax (sw d x y) : SampOp (.argmax sw d x y) sw d x y .argmax

/-- The requests that perform: those of no trap, in ascending lanes (16 R319, R320). -/
def performed (i : In) (k : SampKind) : List (Nat × SampOut) := (sampRequests i k).1.filter (fun e => e.2.trap.isNone)

/-- The stores of the requests that perform: address and bytes. -/
def sampStores (i : In) (k : SampKind) : List (Nat × List Byte) := (performed i k).filterMap (fun e => e.2.store)

/-- The order σ of logits: every index once, values descending, +0 and -0 equal, ties to the lower index (16 R320). -/
structure LogitOrder (ls : List Fp) (σ : List Nat) : Prop where
  all : σ.Perm (upto ls.length)
  down : σ.Pairwise (fun a b => fpLt (ls.getD a (.inf true)) (ls.getD b (.inf true)) = false ∧
    (fpLt (ls.getD b (.inf true)) (ls.getD a (.inf true)) = true ∨ a < b))

/-- What a request traps with, returns, counts and stores. -/
def SampDoes (o : SampOut) (trap : Option (Nat × Word)) (val : Nat) (counts : List (Nat × Nat)) (store : Option (Nat × List Byte)) : Prop :=
  o.trap = trap ∧ (trap = none → o.val.toNat = val ∧ o.counts = counts) ∧ o.store = store

/-- What the request of lane l does whose n logits stand at `lp`, with the words `rec` of its record, in the view h: of
ARGMAX σ₀ (16 R322); of TOPK k″ with the first k″ indices at out (16 R323); of SAMPLE by its temperature (16 R321). -/
def SampServed (i : In) (h : Group) (kind : SampKind) (l : Nat) (o : SampOut) (recWord : Nat → Word) (lp : Nat) : Prop :=
  let n := (recWord 0).toNat
  let ws := (upto n).map (fun j => wordAt j (viewBytes i.s.lmem (ownStores h) lp (4 * n)))
  let ls := ws.map (fun w => if isNan (fpOf w) = true then .inf true else fpOf w)
  let nans := (ws.filter (fun w => isNan (fpOf w))).length
  let c := if nans = 0 then [] else [(25, nans)]
  let k := if (recWord 2).toNat = 0 ∨ n < (recWord 2).toNat then n else (recWord 2).toNat
  ∃ σ, LogitOrder ls σ ∧ match kind with
    | .argmax => SampDoes o none (σ.headD 0) c none
    | .topk =>
      let k2 := min k 64
      (∀ e, checkLocal i.s i.t i.l (recWord 5) (4 * k2) 4 = .error e → SampDoes o (some e) 0 [] none) ∧
      (∀ p, checkLocal i.s i.t i.l (recWord 5) (4 * k2) 4 = .ok p → SampDoes o none k2 c (some (p, (σ.take k2).flatMap (natLE 4))))
    | .sample =>
      let temp := fpOf (recWord 1)
      let invalid := isNan temp = true ∨ fpLt temp (fpOf 0#32) = true
      let traps := (viewReg i.g i.t 4).getLsbD 0 = true ∧ (laneAt i.g.regs l).quiet = false
      let empty := ∀ x ∈ ls, x = .inf true
      (invalid → traps → SampDoes o (some (7, 0#32)) 0 [] none) ∧
      (invalid → ¬traps → SampDoes o none 0xFFFFFFFF (c ++ [(27, 1)]) none) ∧
      (¬invalid → empty → SampDoes o none 0 (c ++ [(26, 1)]) none) ∧
      (¬invalid → ¬empty → fpEq temp (fpOf 0#32) = true → SampDoes o none (σ.headD 0) c none) ∧
      (¬invalid → ¬empty → fpEq temp (fpOf 0#32) = false → ∃ j v, j < k ∧ σ[j]? = some v ∧ SampDoes o none v c none)

/-- What a request does by the checks of 16 R320: of its record, of n, and of its logits. -/
def SampAnswers (i : In) (h : Group) (kind : SampKind) (l : Nat) (o : SampOut) : Prop :=
  (∀ e, checkLocal i.s i.t i.l (yVal i l) 32 32 = .error e → SampDoes o (some e) 0 [] none) ∧
  (∀ rp, checkLocal i.s i.t i.l (yVal i l) 32 32 = .ok rp →
    let recWord := fun j => wordAt j (viewBytes i.s.lmem (ownStores h) rp 32)
    let n := (recWord 0).toNat
    ((n = 0 ∨ 262144 < n) → SampDoes o none 0xFFFFFFFF [] none) ∧
    (0 < n → n ≤ 262144 →
      (∀ e, checkLocal i.s i.t i.l (xVal i l) (4 * n) 4 = .error e → SampDoes o (some e) 0 [] none) ∧
      (∀ lp, checkLocal i.s i.t i.l (xVal i l) (4 * n) 4 = .ok lp → SampServed i h kind l o recWord lp)))

/-! ### Matrix words (17 R325-R339) -/

/-- The registers besides tiles and accumulators: masks, joins and what a delivered trap fills. -/
def restSpecials (c : GroupCore) : Table LaneMask × List Nat × Nat × Word × Word × LaneMask × Word :=
  (c.masks, c.unjoined, c.trap.cause, c.trap.pc, c.trap.addr, c.trap.done, c.trap.after)

/-- An instruction that a group issues completes and holds these tiles and accumulators until its operation is complete
(02 R44): as `Completes`, with one more outstanding operation. -/
def CompletesHolding (ins : Instr) (s : State) (i : In) (ts accs : List Nat) (P : Group → Prop) : Prop :=
  ∃ t g op, exec ins s = .next t ∧ tget t.groups i.gid = some g ∧ P g ∧ outside t = outside s ∧
    (∀ k, { tgetD t.cores k {} with latch := none } = { tgetD s.cores k {} with latch := none }) ∧
    (∀ k, k ≠ i.gid → (tget t.groups k).map (fun x => withoutTrap x.regs) = (tget s.groups k).map (fun x => withoutTrap x.regs)) ∧
    (∀ k n, n ≠ 9 → (tget t.teams k).map (fun u => teamReg u n) = (tget s.teams k).map (fun u => teamReg u n)) ∧
    standingOf g = { standingOf i.g with busy := i.g.busy ++ [{ op := op, tiles := ts, accs := accs }] }

/-- Tiles but tile n, and every accumulator, are as they were. -/
def OtherTilesKept (i : In) (g : Group) (n : Nat) : Prop :=
  (∀ m, m ≠ n → tileAt g.regs m = tileAt i.g.regs m) ∧ g.regs.accs = i.g.regs.accs ∧ restSpecials g.regs = restSpecials i.g.regs

/-- Accumulators but accumulator n, and every tile, are as they were. -/
def OtherAccsKept (i : In) (g : Group) (n : Nat) : Prop :=
  (∀ m r c, m ≠ n → accElem g.regs m r c = accElem i.g.regs m r c) ∧ g.regs.tiles = i.g.regs.tiles ∧
    restSpecials g.regs = restSpecials i.g.regs

/-- The bytes that TST stores: half of the data, or the sidecar (17 R337). -/
def tstBytes (i : In) (n q : Nat) : List Byte :=
  if q = 2 then (upto 64).map (fun k => BitVec.ofNat 8 (sideByte (tileAt i.g.regs n) k))
  else (upto 1024).map (fun k => BitVec.ofNat 8 (tileByte (tileAt i.g.regs n) (1024 * q + k)))

/-- TLDT8 and TLDT16: element size and rows of the block (17 R336). -/
inductive TldtOp : Instr → Bool → BitVec 6 → Src → BitVec 4 → Nat → Nat → Prop
  | tldt8 (sw d x n) : TldtOp (.tldt8 sw d x n) sw d x n 1 32
  | tldt16 (sw d x n) : TldtOp (.tldt16 sw d x n) sw d x n 2 16

/-- The elements of a block that lie inside a local tensor: element number and address (17 R338). -/
def blockCells (r : Shape) (rows k0 c0 : Nat) : List (Nat × Nat) :=
  (upto rows).flatMap (fun k => (upto 64).filterMap (fun c => (tldtAddr r (k0 + k) (c0 + c)).map (fun a => (64 * k + c, a))))

/-- Element j of ACV8: E4M3 for q below 8, else E5M2, scaled by the auxiliary register or 127 (17 R339). -/
def narrowed (i : In) (h : Hints) (n q : BitVec 4) (l j : Nat) : FpOut :=
  fpNarrow (if q.toNat < 8 then .e4m3 else .e5m2) .rne (fpOf (accElem i.g.regs n.toNat l (8 * (q.toNat % 8) + j)))
    (match auxField h with
      | some a => (readV i.g.regs l a).1.toNat % 256
      | none => 127)

/-- The words that lanes read out of an accumulator: per lane and register the word, and the lane's effects (17 R336, R339). -/
inductive AccReadOp : Instr → Hints → Form → BitVec 4 → (In → List (Nat × Word)) → (In → List Eff) → Prop
  | ard (sw h) (d : BitVec 3) (n : BitVec 4) (q : BitVec 3) :
      AccReadOp (.ard sw d n q) h { sw := sw, guarded := false, a := [n.toNat], v := [8 * d.toNat + 7] } n
        (fun i => i.lanes.flatMap (fun l => (upto 8).map (fun j => (64 * l + 8 * d.toNat + j, accElem i.g.regs n.toNat l (8 * q.toNat + j)))))
        (fun _ => [])
  | acvb (sw h) (d n : BitVec 4) (q : BitVec 3) :
      AccReadOp (.acvb sw d n q) h { sw := sw, guarded := false, a := [n.toNat], v := [4 * d.toNat + 3] } n
        (fun i => i.lanes.flatMap (fun l => (upto 4).map (fun j => (64 * l + 4 * d.toNat + j, BitVec.ofNat 32
          ((fpConvert .bf16 .rne false (fpOf (accElem i.g.regs n.toNat l (8 * q.toNat + 2 * j)))).code +
            2 ^ 16 * (fpConvert .bf16 .rne false (fpOf (accElem i.g.regs n.toNat l (8 * q.toNat + 2 * j + 1)))).code)))))
        (fun i => i.lanes.flatMap (fun l => (upto 8).flatMap (fun j =>
          (fpConvert .bf16 .rne false (fpOf (accElem i.g.regs n.toNat l (8 * q.toNat + j)))).counts.map (fun k => Eff.count k 1))))
  | acv8 (sw h) (d : BitVec 5) (n q : BitVec 4) :
      AccReadOp (.acv8 sw d n q) h
        { sw := sw, guarded := false, a := [n.toNat], v := [2 * d.toNat + 1], vr := (auxField h).toList } n
        (fun i => i.lanes.flatMap (fun l => (upto 2).map (fun j => (64 * l + 2 * d.toNat + j,
          BitVec.ofNat 32 (leNat ((upto 4).map (fun b => BitVec.ofNat 8 (narrowed i h n q l (4 * j + b)).code)))))))
        (fun i => i.lanes.flatMap (fun l =>
          (upto 8).map (fun j => amaxEff (accElem i.g.regs n.toNat l (8 * (q.toNat % 8) + j))) ++
          (upto 8).flatMap (fun j => (narrowed i h n q l j).counts.map (fun k => Eff.count k 1))))
/-! ### Engine control by groups (11 R238-R241, R257-R260) -/

/-- The registers besides the three files and the joins: tiles, accumulators, masks and what a delivered trap fills. -/
def besidesJoins (c : GroupCore) : Table Tile × Table (Table Word) × Table LaneMask × Nat × Word × Word × LaneMask × Word :=
  (c.tiles, c.accs, c.masks, c.trap.cause, c.trap.pc, c.trap.addr, c.trap.done, c.trap.after)

/-- FORKC and FORKL: unit and words of the section that holds the program (11 R239). -/
inductive ForkOp : Instr → Bool → Src → Nat → (In → List Word) → Prop
  | forkc (sw) (q : BitVec 2) (x) : ForkOp (.forkc sw q x) sw x q.toNat (fun i => i.l.copy)
  | forkl (sw) (l : BitVec 1) (x) : ForkOp (.forkl sw l x) sw x (4 + l.toNat) (fun i => i.l.latt)

end Sys2Proof

section

open Sys2Proof Sys2Proof.Machine

/-- 16 R314-R318: keyed random numbers and stochastic conversions. -/
def Obligations.RandomNumbersOutstanding : Prop :=
  (∀ ins f d stream val, RandomOp ins f d stream val → ∀ s i, GroupIssues s f i → signatureRoom i (keyReads i stream) [] →
    let vs := i.act.map (fun k => (64 * k + d.toNat, val i k))
    Completes ins s i (fun g => VectorsPending i g i.act (vs.map (·.1)) ∧
      ChunksGain i g [] [] [] (resultsOf (released i i.act).v 0 vs) ∧ SpecialsKept i g)) ∧
  (∀ sw (d : BitVec 3) x y s i, GroupIssues s { sw := sw, x := some x, y := some y } i → signatureRoom i (keyReads i true) [] →
    let vs := if d = 7#3 then [] else i.act.map (fun k => (8 * k + d.toNat,
      if (keyed i (viewReg i.g i.t 2) (xVal i k)).toNat < (yVal i k).toNat then 1#32 else 0#32))
    Completes (.bernp sw d x y) s i (fun g =>
      g.regs.v = (released i i.act).v ∧ g.regs.s = i.g.regs.s ∧ g.regs.p = pendingFile i.g.regs.p (vs.map (·.1)) ∧
      ChunksGain i g [] [] [] (resultsOf i.g.regs.p 2 vs) ∧ SpecialsKept i g)) ∧
  (∀ ins sw d x y amax out, StochasticOp ins sw d x y amax out → ∀ s i,
    GroupIssues s { sw := sw, x := some x, y := some y, v := [d.toNat] } i →
    let vs := (soundLanes i (out i)).map (fun k => (64 * k + d.toNat, BitVec.ofNat 32 (out i k).code))
    Completes ins s i (fun g => VectorsPending i g (soundLanes i (out i)) (vs.map (·.1)) ∧
      ChunksGain i g [] [] (fpEffects i amax (out i)) (resultsOf (released i (soundLanes i (out i))).v 0 vs) ∧
      SpecialsKept i g))

/-- 16 R319-R323: sampling requests, served one lane after the other. Which of the first k indices a draw at a positive
temperature takes is not said here. -/
def Obligations.SamplingServesLanesInOrder : Prop :=
  (∀ i kind, (sampRequests i kind).1.map (·.1) = i.act) ∧
  (∀ i kind below l above, i.act = below ++ l :: above → ∃ o h, (sampRequests i kind).1[below.length]? = some (l, o) ∧
    SampAnswers i h kind l o ∧
    (i.g.cur.isSome = true → ownStores h = (((((sampRequests i kind).1.take below.length).filterMap (fun e => e.2.store)).map
      (fun e => storedCells e.1 e.2)).reverse.flatten ++ ownStores i.g))) ∧
  (∀ ins sw d x y kind, SampOp ins sw d x y kind → ∀ s i,
    GroupIssues s { sw := sw, x := some x, y := some y, v := [d.toNat] } i →
    let good := performed i kind
    let sts := sampStores i kind
    let cells := (sts.map (fun e => storedCells e.1 e.2)).reverse.flatten
    let tags := (sts.map (fun e => dirtyTags e.1 e.2.length)).reverse.flatten
    let reads := (sampRequests i kind).1.flatMap (fun e => e.2.reads)
    roomFor i (reads ++ (if kind = .sample ∧ reads ≠ [] then keyReads i true else []))
      (good.flatMap (fun e => e.2.writes)) (fun c => { c with stores := cells ++ c.stores, tags := tags ++ c.tags }) →
    let vs := good.map (fun e => (64 * e.1 + d.toNat, e.2.val))
    Completes ins s i (fun g =>
      VectorsPending i g (good.map (·.1)) (vs.map (·.1)) ∧
      ChunksGain i g cells tags (good.flatMap (fun e => e.2.counts.map (fun c => Eff.count c.1 c.2)))
        (resultsOf (released i (good.map (·.1))).v 0 vs) ∧
      (∀ a, (∀ e ∈ sts, a < e.1 ∨ e.1 + e.2.length ≤ a) →
        viewByte s.lmem (ownStores g) a = viewByte s.lmem (ownStores i.g) a) ∧ SpecialsKept i g))

/-- 17 R336, R339: tile and accumulator words that touch no memory. -/
def Obligations.TileAndAccumulatorRegisters : Prop :=
  (∀ sw (n : BitVec 4) s i, GroupIssues s { sw := sw, guarded := false, low := true, t := [n.toNat] } i → tileBusy i.g [n.toNat] [] = false →
    Completes (.tzero sw n) s i (fun g => (∀ k, tileByte (tileAt g.regs n.toNat) k = 0 ∧ sideByte (tileAt g.regs n.toNat) k = 0x7F) ∧
      OtherTilesKept i g n.toNat ∧ FilesKept i g [] ∧ ChunksKept i g)) ∧
  (∀ sw (n q : BitVec 4) s i, GroupIssues s { sw := sw, guarded := false, low := true, t := [n.toNat, q.toNat] } i →
    tileBusy i.g [n.toNat, q.toNat] [] = false →
    Completes (.tmov sw n q) s i (fun g => tileAt g.regs n.toNat = tileAt i.g.regs q.toNat ∧
      OtherTilesKept i g n.toNat ∧ FilesKept i g [] ∧ ChunksKept i g)) ∧
  (∀ sw (n : BitVec 4) s i, GroupIssues s { sw := sw, guarded := false, low := true, a := [n.toNat] } i → tileBusy i.g [] [n.toNat] = false →
    Completes (.azero sw n) s i (fun g => (∀ r c, accElem g.regs n.toNat r c = 0#32) ∧
      OtherAccsKept i g n.toNat ∧ FilesKept i g [] ∧ ChunksKept i g)) ∧
  (∀ sw (x : BitVec 3) u (n : BitVec 4) (q : BitVec 3) s i,
    let rs := (upto 8).map (fun j => 8 * x.toNat + j)
    GroupIssues s { sw := sw, x := some { reg := BitVec.ofNat 6 (8 * x.toNat), use := u }, guarded := false, a := [n.toNat], v := rs, vr := rs } i →
    tileBusy i.g [] [n.toNat] = false →
    Completes (.awr sw x u n q) s i (fun g =>
      (∀ l ∈ i.lanes, ∀ j, j < 8 → accElem g.regs n.toNat l (8 * q.toNat + j) = (readV i.g.regs l (8 * x.toNat + j)).1) ∧
      (∀ l c, c < 64 → ¬(l ∈ i.lanes ∧ 8 * q.toNat ≤ c ∧ c < 8 * q.toNat + 8) →
        accElem g.regs n.toNat l c = accElem i.g.regs n.toNat l c) ∧
      OtherAccsKept i g n.toNat ∧ FilesKept i g [] ∧ ChunksKept i g)) ∧
  (∀ ins h f n vals effs, AccReadOp ins h f n vals effs → ∀ s i, s.issue.hints = h → GroupIssues s f i →
    tileBusy i.g [] [n.toNat] = false →
    Completes ins s i (fun g => VectorsPending i g [] ((vals i).map (·.1)) ∧
      ChunksGain i g [] [] (effs i) (resultsOf i.g.regs.v 0 (vals i)) ∧ SpecialsKept i g))

/-- 17 R336-R338, 02 R44: tile words that access local memory. -/
def Obligations.TileMemoryWords : Prop :=
  (∀ sw x (n : BitVec 4) s i p, GroupIssues s { sw := sw, x := some x, guarded := false, low := true, t := [n.toNat] } i →
    tileBusy i.g [n.toNat] [] = false →
    let a := xVal i (i.lanes.headD 0)
    (accessAt i (fun _ => a) 2048 64 0 = some p → roomFor i (lineInputs a.toNat 2048) [] id →
      CompletesHolding (.tld sw x n) s i [n.toNat] [] (fun g =>
        (∀ k, k < 2048 → tileByte (tileAt g.regs n.toNat) k = ((seenBytes i p 2048).getD k 0#8).toNat) ∧
        (tileAt g.regs n.toNat).side = (tileAt i.g.regs n.toNat).side ∧ OtherTilesKept i g n.toNat ∧ FilesKept i g [] ∧ ChunksKept i g)) ∧
    (accessAt i (fun _ => a) 64 64 0 = some p → roomFor i (lineInputs a.toNat 64) [] id →
      CompletesHolding (.tscl sw x n) s i [n.toNat] [] (fun g =>
        (∀ k, k < 64 → sideByte (tileAt g.regs n.toNat) k = ((seenBytes i p 64).getD k 0#8).toNat) ∧
        (tileAt g.regs n.toNat).data = (tileAt i.g.regs n.toNat).data ∧ OtherTilesKept i g n.toNat ∧ FilesKept i g [] ∧ ChunksKept i g)) ∧
    (∀ q : BitVec 4, q.toNat ≤ 2 →
      let size := (tstBytes i n.toNat q.toNat).length
      accessAt i (fun _ => a) size size 0 = some p →
      roomFor i [] (lineInputs a.toNat size) (fun c => chunkStore c p (tstBytes i n.toNat q.toNat)) →
      CompletesHolding (.tst sw x n q) s i [n.toNat] [] (fun g =>
        ChunksGain i g (storedCells p (tstBytes i n.toNat q.toNat)) (dirtyTags p size) [] [] ∧
        (∀ b, b < p ∨ p + size ≤ b → viewByte s.lmem (ownStores g) b = viewByte s.lmem (ownStores i.g) b) ∧
        FilesKept i g [] ∧ SpecialsKept i g))) ∧
  (∀ ins sw d x n size rows, TldtOp ins sw d x n size rows → ∀ s i r,
    GroupIssues s { sw := sw, x := some x, guarded := false, low := true, t := [n.toNat], v := [d.toNat] } i →
    tileBusy i.g [n.toNat] [] = false →
    let l0 := i.lanes.headD 0
    let o := (readV i.g.regs l0 d.toNat).1
    let cells := blockCells r rows (o.toNat % 2 ^ 16) (o.toNat / 2 ^ 16)
    handleShape i (xVal i l0) = some r → r.space = 0 → r.dims.getD 2 1 = 1 → r.dims.getD 3 1 = 1 →
    ((size = 1 ∧ r.type ≤ 3) ∨ (size = 2 ∧ (r.type = 4 ∨ r.type = 5))) →
    (∀ e ∈ cells, (accessAt i (fun _ => BitVec.ofNat 32 e.2) size size 0).isSome) →
    roomFor i (slotInput ((xVal i l0).toNat / 2 ^ 20) :: cells.flatMap (fun e => lineInputs e.2 size)) [] id →
    CompletesHolding ins s i [n.toNat] [] (fun g =>
      (∀ e ∈ cells, ∀ p b, accessAt i (fun _ => BitVec.ofNat 32 e.2) size size 0 = some p → b < size →
        tileByte (tileAt g.regs n.toNat) (size * e.1 + b) = ((seenBytes i p size).getD b 0#8).toNat) ∧
      (∀ k b, k < 2048 / size → b < size → k ∉ cells.map (·.1) → tileByte (tileAt g.regs n.toNat) (size * k + b) = 0) ∧
      (tileAt g.regs n.toNat).side = (tileAt i.g.regs n.toNat).side ∧ OtherTilesKept i g n.toNat ∧ FilesKept i g [] ∧ ChunksKept i g)) ∧
  (∀ sw x (n q : BitVec 4) s i, GroupIssues s { sw := sw, x := some x, guarded := false, a := [n.toNat] } i →
    tileBusy i.g [] [n.toNat] = false → failing i (xVal i) 16 16 = [] →
    let ps := passing i (xVal i) 16 16
    (roomFor i (linesAt (xVal i) 16 (ps.map (·.1))) [] id →
      CompletesHolding (.ald sw x n q) s i [] [n.toNat] (fun g =>
        (∀ e ∈ ps, ∀ j, j < 4 → accElem g.regs n.toNat e.1 (4 * q.toNat + j) = wordAt j (seenBytes i e.2 16)) ∧
        (∀ l c, c < 64 → ¬(l ∈ ps.map (·.1) ∧ 4 * q.toNat ≤ c ∧ c < 4 * q.toNat + 4) →
          accElem g.regs n.toNat l c = accElem i.g.regs n.toNat l c) ∧
        OtherAccsKept i g n.toNat ∧ FilesKept i g [] ∧ ChunksKept i g)) ∧
    (let row : Nat → List Byte := fun l => (upto 4).flatMap (fun j => wordBytes (accElem i.g.regs n.toNat l (4 * q.toNat + j)))
     let cells := (ps.map (fun e => storedCells e.2 (row e.1))).reverse.flatten
     let tags := (ps.map (fun e => dirtyTags e.2 16)).reverse.flatten
     roomFor i [] (linesAt (xVal i) 16 (ps.map (·.1))) (fun c => { c with stores := cells ++ c.stores, tags := tags ++ c.tags }) →
      CompletesHolding (.ast sw x n q) s i [] [n.toNat] (fun g =>
        ChunksGain i g cells tags [] [] ∧
        (∀ b, (∀ e ∈ ps, b < e.2 ∨ e.2 + 16 ≤ b) → viewByte s.lmem (ownStores g) b = viewByte s.lmem (ownStores i.g) b) ∧
        FilesKept i g [] ∧ SpecialsKept i g)))

/-- 17 R328-R333: MMA. A live thread outside the set raises ILLEGAL_CONVERGENCE instead. -/
def Obligations.MmaAccumulatesActiveElements : Prop :=
  ∀ sw (a : BitVec 4) (b : BitVec 3) (t : BitVec 4) (r : BitVec 1) (p : BitVec 3) (c k : BitVec 4) s i,
    let scaled := k.toNat == 9 || k.toNat == 10
    let m : MmaArgs := { acc := a.toNat, base := 8 * b.toNat, tile := t.toNat, reuse := r = 1#1, row := p.toNat,
                         col := 2 * c.toNat, type := k.toNat, scale := if scaled then auxField s.issue.hints else none }
    let ts := if k.toNat == 10 then [t.toNat, t.toNat + 1] else [t.toNat]
    GroupIssues s { sw := sw, v := [8 * b.toNat + 7], u := [2 * c.toNat + 1], t := ts, a := [a.toNat], pr := [p.toNat],
                    ur := [2 * c.toNat, 2 * c.toNat + 1], guarded := false,
                    illegal := scaled && (auxField s.issue.hints).isNone } i →
    (liveLanes i.g.regs).all (fun l => i.lanes.contains l) = true → tileBusy i.g ts [a.toNat] = false →
    let mask := (readS i.g.regs (2 * c.toNat + 1)).1 ++ (readS i.g.regs (2 * c.toNat)).1
    let rows := i.lanes.filter (fun l => (readP i.g.regs l p.toNat).1)
    let cols := (upto 64).filter (fun e => mask.getLsbD e)
    CompletesHolding (.mma sw a b t r p c k) s i ts [a.toNat] (fun g =>
      (∀ l e, e < 64 → accElem g.regs a.toNat l e =
        if l ∈ rows ∧ e ∈ cols then ((mmaAt i m l e).1).getD (accElem i.g.regs a.toNat l e) else accElem i.g.regs a.toNat l e) ∧
      OtherAccsKept i g a.toNat ∧ FilesKept i g [] ∧
      ChunksGain i g [] [] (rows.flatMap (fun l => cols.flatMap (fun e => (mmaAt i m l e).2.map (fun n => Eff.count n 1)))) [])

/-- 11 R239-R241, R257-R260: engine control. Pairs are low word first. -/
def Obligations.EngineControlEntersTheChunk : Prop :=
  (∀ ins sw x u words, ForkOp ins sw x u words → ∀ s i, GroupIssues s { sw := sw, x := some x, low := true } i → setReady i → i.act ≠ [] →
    let off := (xVal i (i.act.headD 0)).toNat
    off % 4 = 0 → off < 4 * (words i).length →
    Completes ins s i (fun g => ChunksGain i g [] [] [.fork u off] [] ∧ FilesKept i g i.act ∧
      (∀ n, n ∈ g.regs.unjoined ↔ n ∈ i.g.regs.unjoined ∨ (4 ≤ u ∧ n = u)) ∧ besidesJoins g.regs = besidesJoins i.g.regs ∧
      (∀ k ∈ i.lanes, standsAt g k (i.pc + 4#32) .ready ∧ ((laneAt g.regs k).ended = true ∨ g.cur = none)))) ∧
  (∀ sw (u : BitVec 3) s i, GroupIssues s { sw := sw } i → setReady i → i.act ≠ [] →
    Completes (.rdv sw u) s i (fun g => ChunksKept i g ∧ FilesKept i g [] ∧
      (∀ n, n ∈ g.regs.unjoined ↔ n ∈ i.g.regs.unjoined ∧ (n ≠ u.toNat ∨ ∃ c, i.g.cur = some c ∧ ∃ off, Eff.fork u.toNat off ∈ c.effs)) ∧
      besidesJoins g.regs = besidesJoins i.g.regs ∧
      g.regs.joining = i.g.regs.joining ++ [(u.toNat,
        i.g.forks.countP (fun f => f.unit == u.toNat) + (i.g.inflight.map (forksOn u.toNat)).sum)] ∧
      (∀ k ∈ i.lanes, standsAt g k (i.pc + 4#32) .ready ∧ ((laneAt g.regs k).ended = true ∨ g.cur = none)))) ∧
  (∀ sw (n : BitVec 5) (q : BitVec 2) y u s i, GroupIssues s { sw := sw, y := some (pairSrc y u), pairY := true, low := true } i → i.act ≠ [] →
    signatureRoom i [] [engineInput i.t (coreIndex i.g i.t) q.toNat n.toNat] →
    Completes (.erset sw n q y u) s i (fun g =>
      ChunksGain i g [] [] [.erset q.toNat n.toNat (yVal2 i (i.act.headD 0) ++ yVal i (i.act.headD 0))] [] ∧
      FilesKept i g i.act ∧ SpecialsKept i g)) ∧
  (∀ sw (d : BitVec 5) (q : BitVec 2) (n : BitVec 5) s i, GroupIssues s { sw := sw, v := [2 * d.toNat + 1] } i → i.act ≠ [] →
    signatureRoom i [engineInput i.t (coreIndex i.g i.t) q.toNat n.toNat] [] →
    let v := viewEreg i.g i.t (coreIndex i.g i.t) q.toNat n.toNat
    Completes (.erget sw d q n) s i (fun g =>
      (∀ k ∈ i.act, readV g.regs k (2 * d.toNat) = (v.setWidth 32, false) ∧ readV g.regs k (2 * d.toNat + 1) = ((v >>> 32).setWidth 32, false)) ∧
      (∀ k r, r < 64 → ¬(k ∈ i.act ∧ (r = 2 * d.toNat ∨ r = 2 * d.toNat + 1)) → vreg g.regs k r = vreg i.g.regs k r) ∧
      g.regs.s = i.g.regs.s ∧ g.regs.p = i.g.regs.p ∧ ChunksKept i g ∧ SpecialsKept i g)) ∧
  (∀ sw d x y s i p, GroupIssues s { sw := sw, x := some x, y := some y, v := [d.toNat], low := true } i → i.act ≠ [] →
    let a := xVal i (i.act.headD 0)
    let k := (yVal i (i.act.headD 0)).toNat
    accessAt i (fun _ => a) 64 64 0 = some p →
    let r := (parseShape (seenBytes i p 64)).bind (fun sh => (hloadSlot i k).map (fun n => (sh, n)))
    signatureRoom i (lineInputs a.toNat 64 ++ (if k < 4096 then [slotInput k] else [])) (if r.isSome ∧ k < 4096 then [slotInput k] else []) →
    let h : Word := match r with
      | some e => BitVec.ofNat 32 (k * 2 ^ 20 + e.2)
      | none => 0#32
    let vs := i.act.map (fun l => (64 * l + d.toNat, h))
    Completes (.hload sw d x y) s i (fun g => VectorsPending i g i.act (vs.map (·.1)) ∧
      ChunksGain i g [] [] (match r with
        | some e => [.hload k e.2 e.1]
        | none => []) (resultsOf (released i i.act).v 0 vs) ∧ SpecialsKept i g)) ∧
  (∀ sw x s i sh, GroupIssues s { sw := sw, x := some x, low := true } i → i.act ≠ [] →
    let h := xVal i (i.act.headD 0)
    handleShape i h = some sh → signatureRoom i [slotInput (h.toNat / 2 ^ 20)] [slotInput (h.toNat / 2 ^ 20)] →
    Completes (.hdrop sw x) s i (fun g => ChunksGain i g [] [] [.hdrop (h.toNat / 2 ^ 20)] [] ∧ FilesKept i g i.act ∧ SpecialsKept i g)) ∧
  (∀ sw d (u : BitVec 3) s i, GroupIssues s { sw := sw, v := [d.toNat] } i →
    Completes (.estat sw d u) s i (fun g =>
      VectorWritten i g d.toNat i.act (fun _ => BitVec.ofNat 32 (forkStatus i.g u.toNat)) ∧ ChunksKept i g ∧ SpecialsKept i g))

end

namespace Sys2Proof

open Sys2Proof.Machine

/-! ### Sequencers (11 R235-R255, 18 R341-R361) -/

/-- A sequencer issues a word: a lattice sequencer where `lat` is set, else a copy sequencer; q is its running program with
its team and launch. -/
def SeqIssues (s : State) (lat : Bool) (q : Seq) : Prop :=
  s.issue.actor = .sequencer q.core q.unit ∧ q.unit < 8 ∧ decide (q.unit < 4) = !lat ∧ seqAt s q.core q.unit = some q

/-- No other unit's program changes, and the unit keeps its list. -/
def OtherUnitsKept (s t : State) (q : Seq) : Prop :=
  (∀ c u, u < 8 → ¬(c = q.core ∧ u = q.unit) → engineAt t c u = engineAt s c u) ∧
    (engineAt t q.core q.unit).list = (engineAt s q.core q.unit).list

/-- The device besides its engines is as it was. -/
def OnlyEngines (s t : State) : Prop := { t with engines := [] } = { s with engines := [] }

/-- A word of a sequencer completes: the running program becomes p, `P` holds of the device after it, and no other unit's
program changes. -/
def SeqCompletes (ins : Instr) (s : State) (q : Seq) (p : Prog) (P : State → Prop) : Prop :=
  ∃ t, exec ins s = .next t ∧ (engineAt t q.core q.unit).run = some p ∧ OtherUnitsKept s t q ∧ P t

/-- The program at its next word. -/
def onward (p : Prog) : Prog := { p with pc := p.pc + 4, index := p.index + 1 }

/-- The number in register e<n> and in n<k> of the running program. -/
def eNum (q : Seq) (n : BitVec 5) : Nat := (tgetD q.p.e n.toNat 0#64).toNat
def nNum (q : Seq) (n : BitVec 4) : Nat := (tgetD q.p.n n.toNat 0#32).toNat

/-- A 12-bit immediate in two's complement. -/
def imm12 (i : BitVec 12) : Int := if i.toNat < 2048 then i.toNat else (i.toNat : Int) - 4096

/-- XALU: destination and value (11 R254); SHL takes counts up to 63. -/
inductive XaluOp : Instr → BitVec 5 → (Seq → DWord) → Prop
  | li (sw d i) : XaluOp (.xaluLi sw d i) d (fun _ => BitVec.ofInt 64 (imm12 i))
  | add (sw d x) : XaluOp (.xaluAdd sw d x) d (fun q => BitVec.ofNat 64 (eNum q d + eNum q x))
  | shl (sw d) (i : BitVec 12) (h : i.toNat ≤ 63) : XaluOp (.xaluShl sw d i) d (fun q => BitVec.ofNat 64 (eNum q d * 2 ^ i.toNat))
  | mul (sw d x) : XaluOp (.xaluMul sw d x) d (fun q => BitVec.ofNat 64 (eNum q d * eNum q x))

/-- LALU: destination and value (18 R360). -/
inductive LaluOp : Instr → BitVec 4 → (Seq → Word) → Prop
  | li (sw d i) : LaluOp (.laluLi sw d i) d (fun _ => BitVec.ofInt 32 (imm12 i))
  | add (sw d x) : LaluOp (.laluAdd sw d x) d (fun q => BitVec.ofNat 32 (nNum q d + nNum q x))

/-- The exchange in progress of the program's partition in a state. -/
def exchangeIn (s : State) (q : Seq) : Exch := ((tget s.parts q.l.part).map (·.exchange)).getD {}

/-- The device besides its engines and the exchange of the program's partition is as it was. -/
def OnlyExchange (s t : State) (q : Seq) : Prop :=
  { t with engines := [], parts := [] } = { s with engines := [], parts := [] } ∧
    (∀ k, k ≠ q.l.part → tget t.parts k = tget s.parts k) ∧
    (tget t.parts q.l.part).map (fun p => { p with exchange := {} }) = (tget s.parts q.l.part).map (fun p => { p with exchange := {} })

/-- The words that an operation writes in an exchange, each with its place, under the operation's tag and the joins of its
queue (10 R223, R224). -/
def writesOf (q : Seq) (ws : List (Place × Word)) : List XWrite :=
  ws.map (fun w =>
    { space := (placeKey w.1).1, addr := (placeKey w.1).2, val := w.2, tag := q.tag, team := q.p.team, queue := q.key
      seq := tgetD (exchangeIn q.s q).seqs q.key 0, seen := tgetD (exchangeIn q.s q).joins q.key [] })

/-- The exchange gains these writes as one operation of the queue; folds, ghosts, signals and joins are as they were. -/
def ExchangeGains (s t : State) (q : Seq) (ws : List (Place × Word)) : Prop :=
  OnlyExchange s t q ∧ (exchangeIn t q).writes = (exchangeIn s q).writes ++ writesOf q ws ∧
    (exchangeIn t q).seqs = tput (exchangeIn s q).seqs q.key (tgetD (exchangeIn s q).seqs q.key 0 + 1) ∧
    (exchangeIn t q).folds = (exchangeIn s q).folds ∧ (exchangeIn t q).ghosts = (exchangeIn s q).ghosts ∧
    (exchangeIn t q).sigs = (exchangeIn s q).sigs ∧ (exchangeIn t q).joins = (exchangeIn s q).joins

/-- Copies of a run of words in an exchange: kinds and access of destination and source (11 R245). -/
inductive CopyOp : Instr → BitVec 5 → BitVec 5 → BitVec 5 → RefKind → RefKind → Nat → Nat → Prop
  | xcp (sw d x y) : CopyOp (.xcp sw d x y) d x y .loc .loc 0 0
  | xget (sw d x y) : CopyOp (.xget sw d x y) d x y .loc .glob 0 3
  | xput (sw d x y) : CopyOp (.xput sw d x y) d x y .glob .loc 2 0

/-- The references and the control word of a transfer are right: forms, op 0 to `ops` - 1, length, places, limits
(11 R243, R244). -/
structure TransferFits (q : Seq) (kd kx : RefKind) (d x y : BitVec 5) (needD needX ops op n : Nat) (pd px : Place) : Prop where
  control : controlWord (ereg q y.toNat) = some (op, n)
  opLess : op < ops
  forms : refForm kd (ereg q d.toNat) = true ∧ refForm kx (ereg q x.toNat) = true
  pair : op = 11 → y.toNat ≤ 30
  length : n ≠ 0 ∧ n % 4 = 0 ∧ n ≤ 2 ^ 24
  dst : placeOf q kd (ereg q d.toNat) n needD = some pd
  src : placeOf q kx (ereg q x.toNat) n needX = some px

/-- The program's operation waits in an engine chunk for its commit, and no memory changes before (10 R219). -/
def ChunkWaits (ins : Instr) (s : State) (q : Seq) (stores : List Host.Cell) (tags : List TagStore) (effs : List Eff) : Prop :=
  ∃ c t, SeqCompletes ins s q { q.p with op := some c, mark := none } (fun u => u = t) ∧
    c.kind = .engine ∧ c.stores = stores ∧ c.tags = tags ∧ c.effs = effs ∧
    { t with engines := [], nextId := 0 } = { s with engines := [], nextId := 0 }

/-- Bulk loads of a lattice: function, limit of first plus count, whether items are bits, bytes for n items (18 R355). -/
inductive LoadLatOp : Instr → BitVec 4 → BitVec 4 → BitVec 4 → Nat → Nat → Bool → (Nat → Nat) → Prop
  | lnld (sw d x y) : LoadLatOp (.lnld sw d x y) d x y 1 Config.nodes false (fun n => 4 * n)
  | ljld (sw d x y) : LoadLatOp (.ljld sw d x y) d x y 2 Config.nodes false (fun n => 32 * n)
  | lhld (sw d x y) : LoadLatOp (.lhld sw d x y) d x y 3 Config.nodes false (fun n => 2 * n)
  | lsld (sw d x y) : LoadLatOp (.lsld sw d x y) d x y 4 Config.nodes true (fun n => n / 8)
  | lclmp (sw d x y) : LoadLatOp (.lclmp sw d x y) d x y 6 Config.nodes true (fun n => n / 8)
  | lgmap (sw d x y) : LoadLatOp (.lgmap sw d x y) d x y 10 16 false (fun n => 64 * n)
  | lgref (sw d x y) : LoadLatOp (.lgref sw d x y) d x y 11 256 false (fun n => 4 * n)

/-- Stores of a lattice: limit, whether items are bits, and the bytes (18 R355). -/
inductive StoreLatOp : Instr → BitVec 4 → BitVec 4 → BitVec 4 → Bool → (Seq → Nat → Nat → List Byte) → Prop
  | lsst (sw d x y) : StoreLatOp (.lsst sw d x y) d x y true (fun q f n => stateBytes (ownLattice q).2 f n)
  | lcnt (sw d x y) : StoreLatOp (.lcnt sw d x y) d x y false
      (fun q f n => (upto n).flatMap (fun k => natLE 2 (tgetD (ownLattice q).2.count (f + k) 0)))

/-- LCFG and LKEY: function and bytes read (18 R353, R354). -/
inductive ParamLatOp : Instr → BitVec 4 → Nat → Nat → Prop
  | lcfg (sw x) : ParamLatOp (.lcfg sw x) x 0 16
  | lkey (sw x) : ParamLatOp (.lkey sw x) x 13 8

/-- A program's end: the unit is free, and the group that forked it, where there is one, holds the status (11 R241, R242). -/
def EndsWith (ins : Instr) (s : State) (q : Seq) (status : Nat) : Prop :=
  ∃ t, exec ins s = .next t ∧ (engineAt t q.core q.unit).run = none ∧ OtherUnitsKept s t q ∧
    (∀ gid g, q.p.group = some gid → tget s.groups gid = some g → tget t.groups gid = some (noteStatus g q.p.uid status)) ∧
    t.gmem = s.gmem ∧ t.lmem = s.lmem ∧ t.lattices = s.lattices ∧ t.parts = s.parts

end Sys2Proof

section

open Sys2Proof Sys2Proof.Machine

/-- 11 R254, R255, 18 R360, R361: sequencer arithmetic and loops. -/
def Obligations.SequencerArithmeticAndLoops : Prop :=
  (∀ ins d val, XaluOp ins d val → ∀ s q, SeqIssues s false q →
    ∃ p, (∀ n, tgetD p.e n 0#64 = if n = d.toNat then val q else tgetD q.p.e n 0#64) ∧
      (∀ n, n ∈ p.written ↔ n = d.toNat ∨ n ∈ q.p.written) ∧
      { p with e := [], written := [] } = { onward q.p with e := [], written := [] } ∧
      SeqCompletes ins s q p (OnlyEngines s)) ∧
  (∀ ins d val, LaluOp ins d val → ∀ s q, SeqIssues s true q →
    ∃ p, (∀ n, tgetD p.n n 0#32 = if n = d.toNat then val q else tgetD q.p.n n 0#32) ∧
      { p with n := [] } = { onward q.p with n := [] } ∧ SeqCompletes ins s q p (OnlyEngines s)) ∧
  (∀ sw s q lat, SeqIssues s lat q →
    let ins : Instr := if lat then .lbrcLoop sw else .xbrcLoop sw
    (q.p.loops.length < 4 → SeqCompletes ins s q { onward q.p with loops := (q.p.pc + 4) :: q.p.loops } (OnlyEngines s)) ∧
    (4 ≤ q.p.loops.length → EndsWith ins s q 3)) ∧
  (∀ sw (d : BitVec 5) s q top rest, SeqIssues s false q → q.p.loops = top :: rest →
    let p := if 1 < eNum q d then { q.p with pc := top, index := q.p.index + 1 } else { onward q.p with loops := rest }
    SeqCompletes (.xbrcNext sw d) s q { p with e := tput q.p.e d.toNat (BitVec.ofNat 64 (eNum q d - 1)) } (OnlyEngines s)) ∧
  (∀ sw (d : BitVec 4) s q top rest, SeqIssues s true q → q.p.loops = top :: rest →
    let p := if 1 < nNum q d then { q.p with pc := top, index := q.p.index + 1 } else { onward q.p with loops := rest }
    SeqCompletes (.lbrcNext sw d) s q { p with n := tput q.p.n d.toNat (BitVec.ofNat 32 (nNum q d - 1)) } (OnlyEngines s)) ∧
  (∀ sw s q lat (d : BitVec 5) (e : BitVec 4), SeqIssues s lat q →
    EndsWith (if lat then .lbrcEnd sw else .xbrcEnd sw) s q 0 ∧
    (q.p.loops = [] → EndsWith (if lat then .lbrcNext sw e else .xbrcNext sw d) s q 3)) ∧
  (decodeTableWord 32 0x7000000F = some (.xbrcLoop false) ∧ decodeTableWord 32 0x7000020F = some (.xbrcEnd false) ∧
    ∀ n : BitVec 5, decodeTableWord 32 (0x7000010F + n.toNat * 0x100000) = some (.xbrcNext false n))

/-- 11 R245-R249: transfers in an exchange. That XCPT locates each source element by itself is log 126. -/
def Obligations.ExchangeTransfersEnterTheExchange : Prop :=
  (∀ ins d x y kd kx nd nx, CopyOp ins d x y kd kx nd nx → ∀ s q n pd px ws, SeqIssues s false q → q.exch = true →
    (tget s.parts q.l.part).isSome → TransferFits q kd kx d x y nd nx 1 0 n pd px → exchangeWords q px (n / 4) = some ws →
    SeqCompletes ins s q (onward q.p) (fun t => ExchangeGains s t q (wordRun pd ws))) ∧
  (∀ sw d x y s q n pd px ws, SeqIssues s false q → q.exch = true → (tget s.parts q.l.part).isSome →
    TransferFits q .glob .loc d x y 2 0 1 0 n pd px → exchangeWords q px (n / 4) = some ws →
    SeqCompletes (.xputd sw d x y) s q (onward q.p) (fun t => ExchangeGains s t q
      (((upto (n / 4)).filter (fun k => dirtyInView q (physOf px + 4 * k))).map (fun k => (placeAdd pd (4 * k), ws.getD k 0#32))))) ∧
  (∀ sw (d x : BitVec 5) s q sh pd, SeqIssues s false q → q.exch = true → (tget s.parts q.l.part).isSome →
    let srcs := (transposed sh).filterMap (fun a => if a < 0 then none else locate q q.t.logicalCluster a.toNat (elemSize sh.type))
    let n := sh.dims.getD 1 1 * sh.dims.getD 0 1 * elemSize sh.type
    refForm .loc (ereg q d.toNat) = true → (ereg q x.toNat).toNat < 2 ^ 32 → engineShape q (ereg q x.toNat).toNat = some sh →
    sh.space = 0 → (sh.dims.drop 2).all (fun k => k == 1) = true → elemSize sh.type ≤ 2 → sh.type ≠ 8 →
    locate q (refCluster (ereg q d.toNat)) (refAddr (ereg q d.toNat)) n = some pd → srcs.length = (transposed sh).length →
    lenFits n = true →
    SeqCompletes (.xcpt sw d x) s q (onward q.p) (fun t => ExchangeGains s t q
      (wordRun (.loc pd) (bytesWords n (srcs.flatMap (fun a => exchangeBytes q a (elemSize sh.type))))))) ∧
  (∀ sw d x y s q op n pd px ws, SeqIssues s false q → q.exch = true → (tget s.parts q.l.part).isSome →
    TransferFits q .glob .loc d x y 4 0 12 op n pd px → exchangeWords q px (n / 4) = some ws →
    SeqCompletes (.xred sw d x y) s q (onward q.p) (fun t => OnlyExchange s t q ∧
      (exchangeIn t q).writes = (exchangeIn s q).writes ∧
      (exchangeIn t q).folds = (exchangeIn s q).folds ++ (upto ws.length).map (fun k =>
        { addr := physOf pd + 4 * k, op := op, v := ws.getD k 0#32, a := loWord (ereg q (y.toNat + 1)),
          b := hiWord (ereg q (y.toNat + 1)), tag := q.tag, team := q.p.team }))) ∧
  (∀ sw d x y s q size n pl gs (ws : List (List Word)), SeqIssues s false q → q.exch = true → (tget s.parts q.l.part).isSome →
    elementRefs q (ereg q d.toNat) (ereg q x.toNat) y.toNat 3 = .ok (size, n, pl, gs) →
    gs.map (fun g => exchangeWords q (.glob g) (size / 4)) = ws.map some →
    SeqCompletes (.xgth sw d x y) s q (onward q.p) (fun t => ExchangeGains s t q (wordRun (.loc pl) ws.flatten))) ∧
  (∀ sw d x y s q size n pl gs ws, SeqIssues s false q → q.exch = true → (tget s.parts q.l.part).isSome →
    elementRefs q (ereg q x.toNat) (ereg q d.toNat) y.toNat 2 = .ok (size, n, pl, gs) →
    exchangeWords q (.loc pl) (n * size / 4) = some ws →
    SeqCompletes (.xsct sw d x y) s q (onward q.p) (fun t => ExchangeGains s t q
      (lastWrites ((upto n).flatMap (fun k => wordRun (.glob (gs.getD k 0)) ((ws.drop (k * (size / 4))).take (size / 4))))))) ∧
  (∀ sw (d x y : BitVec 5) s q mask n g (ps : List Nat) ws, SeqIssues s false q → q.exch = true → (tget s.parts q.l.part).isSome →
    controlWord (ereg q y.toNat) = some (mask, n) → mask ≠ 0 → eNum q d < 2 ^ 32 → refForm .loc (ereg q d.toNat) = true →
    refForm .glob (ereg q x.toNat) = true → n ≠ 0 → lenFits n = true → placeOf q .glob (ereg q x.toNat) n 3 = some g →
    ((upto 16).filter (fun c => mask / 2 ^ c % 2 = 1)).map (fun c => locate q c (refAddr (ereg q d.toNat)) n) = ps.map some →
    exchangeWords q g (n / 4) = some ws →
    SeqCompletes (.xbc sw d x y) s q (onward q.p) (fun t => ExchangeGains s t q (ps.flatMap (fun p => wordRun (.loc p) ws)))) ∧
  (∀ sw (d x y : BitVec 5) s q n ld ls, SeqIssues s false q → q.exch = true → (tget s.parts q.l.part).isSome →
    controlWord (ereg q y.toNat) = some (0, n) → nodeForm (eNum q d) = true → nodeForm (eNum q x) = true → n ≠ 0 →
    eNum q x % 2 ^ 13 + n ≤ Config.nodes → eNum q d % 2 ^ 13 + n ≤ 256 →
    nodeRef q (eNum q d) = some ld → nodeRef q (eNum q x) = some ls →
    SeqCompletes (.xlat sw d x y) s q (onward q.p) (fun t => OnlyExchange s t q ∧
      (exchangeIn t q).writes = (exchangeIn s q).writes ∧ (exchangeIn t q).folds = (exchangeIn s q).folds ∧
      (exchangeIn t q).ghosts = (exchangeIn s q).ghosts ++ (upto n).map (fun k =>
        { lat := ld, slot := eNum q d % 2 ^ 13 + k,
          state := tgetD (tgetD s.lattices ls {}).state (eNum q x % 2 ^ 13 + k) false, tag := q.tag })))

/-- 11 R245, R246, R250, R252, R253, 10 R219. XFAB waiting on any stopped live port is log 35, the ignored upper bits of XSIG and XWTE log 124, the sources of XCPT log 126. -/
def Obligations.SequencerChunksSignalsAndFabric : Prop :=
  (∀ sw d x y s q n a b, SeqIssues s false q → q.exch = false → TransferFits q .loc .loc d x y 0 0 1 0 n (.loc a) (.loc b) →
    reservedIn s a n = none → reservedIn s b n = none →
    ChunkWaits (.xcp sw d x y) s q (storedCells a (mbytes s.lmem b n)) (dirtyTags a n) []) ∧
  (∀ sw (d x : BitVec 5) s q sh pd, SeqIssues s false q → q.exch = false →
    let srcs := (transposed sh).filterMap (fun a => if a < 0 then none else locate q q.t.logicalCluster a.toNat (elemSize sh.type))
    let n := sh.dims.getD 1 1 * sh.dims.getD 0 1 * elemSize sh.type
    let bs := srcs.flatMap (fun a => mbytes s.lmem a (elemSize sh.type))
    refForm .loc (ereg q d.toNat) = true → (ereg q x.toNat).toNat < 2 ^ 32 → engineShape q (ereg q x.toNat).toNat = some sh →
    sh.space = 0 → (sh.dims.drop 2).all (fun k => k == 1) = true → elemSize sh.type ≤ 2 → sh.type ≠ 8 →
    locate q (refCluster (ereg q d.toNat)) (refAddr (ereg q d.toNat)) n = some pd → srcs.length = (transposed sh).length →
    lenFits n = true → reservedIn s pd n = none → (∀ a ∈ srcs, reservedIn s a (elemSize sh.type) = none) →
    ChunkWaits (.xcpt sw d x) s q (storedCells pd bs) (dirtyTags pd bs.length) []) ∧
  (∀ sw (d x y : BitVec 5) s q n px ws, SeqIssues s false q → q.exch = true →
    controlWord (ereg q y.toNat) = some (0, n) → eNum q d < 2 ^ 62 → eNum q d % 4 = 0 → refForm .loc (ereg q x.toNat) = true →
    n ≠ 0 → lenFits n = true → placeOf q .loc (ereg q x.toNat) n 0 = some px → livePorts q ≠ [] →
    exchangeWords q px (n / 4) = some ws →
    ((∃ k ∈ livePorts q, k ∈ s.dev.portStop) → exec (.xfab sw d x y) s = .next s) ∧
    ((∀ k ∈ livePorts q, k ∉ s.dev.portStop) →
      SeqCompletes (.xfab sw d x y) s q { q.p with fabWait := true } (fun t =>
        { t with engines := [], fabricOut := [] } = { s with engines := [], fabricOut := [] } ∧
        t.fabricOut = s.fabricOut ++ [(eNum q d / 2 ^ 52,
          { device := s.dev.number, tag := q.tag, part := q.l.part, window := eNum q d / 2 ^ 48 % 16,
            offset := eNum q d % 2 ^ 48, data := ws,
            sent := (tget s.parts q.l.part).bind (fun p => if p.spanTag = 0 then none else some p.boundary) })]))) ∧
  (∀ sw (x : BitVec 5) s q core, SeqIssues s false q → eNum q x < 2 ^ 12 →
    (clusterNamed q (eNum q x / 2 ^ 8)).bind (fun c => physicalCore s c (eNum q x / 2 ^ 2 % 64)) = some core →
    let other := core * 8 + eNum q x % 4
    let e := engineAt s core (eNum q x % 4)
    (other ≠ q.key ∧ (e.run ≠ none ∨ e.list ≠ []) → exec (.xfen sw x) s = .next s) ∧
    ((other = q.key ∨ (e.run = none ∧ e.list = [])) →
      (q.exch = false → SeqCompletes (.xfen sw x) s q (onward q.p) (OnlyEngines s)) ∧
      (q.exch = true → (tget s.parts q.l.part).isSome → SeqCompletes (.xfen sw x) s q (onward q.p) (fun t => OnlyExchange s t q ∧
        exchangeIn t q = joinQueue (exchangeIn s q) q.key other (tgetD (exchangeIn s q).seqs other 0)
          (tgetD (exchangeIn s q).joins other []))))) ∧
  (∀ sw (x y : BitVec 5) s q c k post, SeqIssues s false q → counterRef q (eNum q x) = .ok (c, k, post) →
    SeqCompletes (.xsig sw x y) s q (onward q.p) (fun t =>
      (∀ j m, tgetD (clusterAt t j).counters m 0#32 =
        if j = c ∧ m = k then tgetD (clusterAt s c).counters k 0#32 + 1#32 else tgetD (clusterAt s j).counters m 0#32) ∧
      t.gmem = s.gmem ∧ t.lmem = s.lmem ∧ t.groups = s.groups ∧ t.teams = s.teams ∧ t.lattices = s.lattices)) ∧
  (∀ sw (x y : BitVec 5) s q c k, SeqIssues s false q → counterRef q (eNum q x) = .ok (c, k, false) →
    let reached := decide (eNum q y % 2 ^ 32 ≤ (tgetD (clusterAt s c).counters k 0#32).toNat)
    (reached = false → exec (.xwte sw x y) s = .next s) ∧
    (reached = true → (q.exch = false → SeqCompletes (.xwte sw x y) s q (onward q.p) (OnlyEngines s)) ∧
      (q.exch = true → (tget s.parts q.l.part).isSome → SeqCompletes (.xwte sw x y) s q (onward q.p) (fun t =>
        OnlyExchange s t q ∧ exchangeIn t q = ((exchangeIn s q).sigs.filter (fun g => g.1 == c * 64 + k)).foldl
          (fun e g => joinQueue e q.key g.2.1 g.2.2.1 g.2.2.2) (exchangeIn s q)))))

/-- 18 R352-R358, R361: the lattice sequencer's words. -/
def Obligations.LatticeWordsLoadStoreAndSweep : Prop :=
  (∀ ins x fn bytes, ParamLatOp ins x fn bytes → ∀ s q p, SeqIssues s true q →
    operandAt q (nreg q x.toNat) bytes 4 = .ok p →
    ChunkWaits ins s q [] [] [.lat fn 0 0 (mreadN s.lmem p bytes)]) ∧
  (∀ ins d x y fn limit bits bytes, LoadLatOp ins d x y fn limit bits bytes → ∀ s q, SeqIssues s true q →
    (nNum q d = 0 → SeqCompletes ins s q (onward q.p) (OnlyEngines s)) ∧
    (∀ p, nNum q d ≠ 0 → nNum q y + nNum q d ≤ limit → (bits = true → nNum q y % 32 = 0 ∧ nNum q d % 32 = 0) →
      operandAt q (nreg q x.toNat) (bytes (nNum q d)) 4 = .ok p →
      ChunkWaits ins s q [] [] [.lat fn (nNum q y) (nNum q d) (mreadN s.lmem p (bytes (nNum q d)))])) ∧
  (∀ ins d x y bits bytes, StoreLatOp ins d x y bits bytes → ∀ s q, SeqIssues s true q →
    (nNum q d = 0 → SeqCompletes ins s q (onward q.p) (OnlyEngines s)) ∧
    (∀ p, nNum q d ≠ 0 → nNum q y + nNum q d ≤ Config.nodes → (bits = true → nNum q y % 32 = 0 ∧ nNum q d % 32 = 0) →
      let bs := bytes q (nNum q y) (nNum q d)
      operandAt q (nreg q x.toNat) bs.length 4 = .ok p →
      ChunkWaits ins s q (storedCells p bs) (dirtyTags p bs.length) [])) ∧
  (∀ sw (x : BitVec 4) s q, SeqIssues s true q →
    SeqCompletes (.lrstc sw x) s q
      { q.p with sweptAt := some s.cycle, shadows := [(s.cycle, takeShadow (ownLattice q).2 0)] } (fun t =>
      latticeAt t q.core (ownLattice q).1 = { (ownLattice q).2 with count := [], ctr := nreg q x.toNat } ∧
      (∀ k, k ≠ q.core * 2 + (ownLattice q).1 → tget t.lattices k = tget s.lattices k) ∧
      { t with engines := [], lattices := [] } = { s with engines := [], lattices := [] })) ∧
  (∀ sw (d x : BitVec 4) s q c, SeqIssues s true q → (ownLattice q).2.cfg = some c →
    (c.replay = true ∨ q.core * 2 + (ownLattice q).1 ∉ s.biased) →
    let p := { q.p with n := tput q.p.n d.toNat (BitVec.ofNat 32 (samePairs c (ownLattice q).2)) }
    (nNum q x = 0 → SeqCompletes (.lswp sw d x) s q (onward p) (OnlyEngines s)) ∧
    (nNum q x ≠ 0 → ∃ sh, SeqCompletes (.lswp sw d x) s q { p with sweeps := nNum q x, swept := 0, shadows := sh } (OnlyEngines s))) ∧
  (∀ sw (d x : BitVec 4) s q, SeqIssues s true q → (ownLattice q).2.cfg = none → EndsWith (.lswp sw d x) s q 3) ∧
  (∀ sw (d x : BitVec 4) s q c, SeqIssues s true q → (ownLattice q).2.cfg = some c → c.replay = false →
    q.core * 2 + (ownLattice q).1 ∈ s.biased → EndsWith (.lswp sw d x) s q 8) ∧
  (∀ sw (x y : BitVec 4) s q p, SeqIssues s true q → nNum q y / 2 ^ 13 % 8 = 0 → nNum q y % 2 ^ 13 ≤ Config.nodes →
    operandAt q (nreg q x.toNat) 128 64 = .ok p →
    SeqCompletes (.lhlth sw x y) s q { q.p with health := some (nreg q x.toNat, nreg q y.toNat) } (OnlyEngines s)) ∧
  (∀ sw (x : BitVec 4) s q, SeqIssues s true q →
    SeqCompletes (.lbrcSig sw x) s q (onward q.p) (fun t =>
      (clusterAt t (q.core / 64)).events = pushEvent (clusterAt s (q.core / 64)).events
        { type := 10, source := sourceOf 2 (q.core * 2 + (ownLattice q).1), seq := (clusterAt s (q.core / 64)).eventSeq,
          phase := s.chipPhase, payload := packPayload [(1, logicalCore s q.core), (1, q.unit - 4), (2, 0), (4, nNum q x),
            (4, (ownLattice q).2.ctr.toNat), (4, q.p.offset)] } ∧
      (clusterAt t (q.core / 64)).eventSeq = ((clusterAt s (q.core / 64)).eventSeq + 1) % 2 ^ 32 ∧
      (∀ c, c ≠ q.core / 64 → clusterAt t c = clusterAt s c) ∧
      t.lattices = s.lattices ∧ t.lmem = s.lmem ∧ t.gmem = s.gmem ∧ t.groups = s.groups ∧ t.parts = s.parts))

end

namespace Sys2Proof

open Sys2Proof.Machine

/-! ### Control words (07 R136-R159, 23 R418-R424) -/

/-- A control core of partition n issues a CTL word whose run holds neither HINT.ROUTE nor HINT.IMM, with its guard 1
(04 R86, 07 R136). -/
structure CtlIssues (s : State) (c n : Nat) : Prop where
  actor : s.issue.actor = .control c
  route : s.issue.hints.route = none
  imm : s.issue.hints.imm = none
  guard : ctlPred (ctlAt s c) (predField s.issue.hints 7) = true
  part : partOf s c = some n

/-- Register s<n> of a control core, as a number. -/
def cNum (s : State) (c : Nat) (x : BitVec 6) : Nat := (ctlReg (ctlAt s c) x.toNat).toNat

/-- The device u with the control core at the next word, not waiting, and sd holding v. -/
def answered (s u : State) (c d : Nat) (v : Word) : State :=
  withCtl u c { ctlAt u c with s := tput (ctlAt u c).s d v, pc := s.issue.pc + 4#32, wait := .none }

/-- The same with a pair, low word first. -/
def answeredPair (s u : State) (c d : Nat) (v : DWord) : State :=
  withCtl u c { ctlAt u c with
    s := tput (tput (ctlAt u c).s d (v.setWidth 32)) (d + 1) ((v >>> 32).setWidth 32), pc := s.issue.pc + 4#32, wait := .none }

/-- The device u with the control core waiting in its word. -/
def ctlWaiting (s u : State) (c : Nat) (w : CtlWait) : State :=
  withCtl u c { ctlAt u c with wait := w, after := s.issue.pc + 4#32 }

/-- The device with a partition replaced. -/
def withPart (s : State) (n : Nat) (p : Part) : State := { s with parts := tput s.parts n p }

/-- The values that PHASEC reads (07 R159). -/
def phaseValue (s : State) (p : Part) (k : Nat) : Nat :=
  if k = 0 then p.boundary else if k = 1 then s.chipPhase
  else match p.pstate with
    | .compute => 0
    | .exchange => 1
    | .opened => 2

/-- The launches of a queue of a partition below a number. -/
def launchesBelow (s : State) (n k below : Nat) : List Launch :=
  (s.launches.map (·.2)).filter (fun l => l.part == n && l.queue == k && decide (l.number < below))

end Sys2Proof

section

open Sys2Proof Sys2Proof.Machine

/-- 07 R139-R159: words of the control core. `withCtl` replaces one control core and nothing else. PREEMPT of killed and relaunching teams is log 121, the source of EVSIG log 44, EVPOP of an empty queue log 107. -/
def Obligations.ControlWordsAnswer : Prop :=
  (∀ sw (d x : BitVec 6) s c n p, CtlIssues s c n → tget s.parts n = some p →
    let a := ctlReg (ctlAt s c) x.toNat
    let r := mbytes s.cmem (c * 2 ^ 20 + a.toNat) 64
    let bind := BitVec.ofNat 32 (leNat ((r.drop 44).take 4))
    a.toNat % 64 = 0 → a.toNat + 64 ≤ 2 ^ 20 → bind.toNat % 64 = 0 → bind.toNat + 320 ≤ 2 ^ 20 →
    let b := mbytes s.cmem (c * 2 ^ 20 + bind.toNat) 320
    let l := parseLaunch n p.nextLaunch c r b
    (launchReject p s.launches n true r b l = none →
      exec (.launch sw d x) s = .next (answered s { s with
        parts := tput s.parts n { p with nextLaunch := p.nextLaunch + 1 }, launches := tput s.launches s.nextId l,
        nextId := s.nextId + 1 } c d.toNat (BitVec.ofNat 32 p.nextLaunch))) ∧
    (∀ code, launchReject p s.launches n true r b l = some code → exec (.launch sw d x) s = .next (answered s s c d.toNat code))) ∧
  (∀ sw (d x : BitVec 6) s c n, CtlIssues s c n →
    ((clusterAt s c).events ≠ [] →
      exec (.evwait sw d x) s = .next (answered s s c d.toNat (BitVec.ofNat 32 (clusterAt s c).events.length))) ∧
    ((clusterAt s c).events = [] → (ctlAt s c).wait = .none →
      exec (.evwait sw d x) s = .next (ctlWaiting s s c
        (.events d.toNat (if cNum s c x = 0 then none else some (s.cycle + cNum s c x)))))) ∧
  (∀ sw (d x : BitVec 6) s c n, CtlIssues s c n →
    ((clusterAt s c).events = [] → exec (.evpop sw d x) s = .next (answered s s c d.toNat 0#32)) ∧
    (∀ e rest, (clusterAt s c).events = e :: rest → cNum s c x % 32 = 0 → cNum s c x + 32 ≤ 2 ^ 20 →
      inCode (ctlAt s c) (cNum s c x) 32 = false → ∃ t, exec (.evpop sw d x) s = .next t ∧
      { t with cmem := [] } = { answered s (setCluster s c { clusterAt s c with events := rest }) c d.toNat (BitVec.ofNat 32 e.type) with cmem := [] } ∧
      (∀ j, j < 32 → mread t.cmem (c * 2 ^ 20 + cNum s c x + j) = (eventBytes e).getD j 0#8) ∧
      (∀ b, (b < c * 2 ^ 20 + cNum s c x ∨ c * 2 ^ 20 + cNum s c x + 32 ≤ b) → mread t.cmem b = mread s.cmem b))) ∧
  (∀ sw (d x y : BitVec 6) s c n p, CtlIssues s c n → tget s.parts n = some p → cNum s c x ≠ 2 ^ 32 - 1 →
    (cNum s c x ∉ p.clusters → exec (.evsig sw d x y) s = .next (answered s s c d.toNat 1#32)) ∧
    (cNum s c x ∈ p.clusters → 4095 ≤ (clusterAt s (cNum s c x)).events.length →
      exec (.evsig sw d x y) s = .next (answered s s c d.toNat 2#32)) ∧
    (cNum s c x ∈ p.clusters → (clusterAt s (cNum s c x)).events.length < 4095 →
      let e : Event := { type := 5, source := sourceOf 3 c, seq := (clusterAt s (cNum s c x)).eventSeq, phase := s.chipPhase,
                         payload := packPayload [(4, c), (4, cNum s c y)] }
      let k := clusterAt s (cNum s c x)
      exec (.evsig sw d x y) s = .next (answered s (setCluster s (cNum s c x)
        { k with events := k.events ++ [e], eventSeq := (k.eventSeq + 1) % 2 ^ 32 }) c d.toNat 0#32))) ∧
  (∀ sw (d x y : BitVec 6) s c n p, CtlIssues s c n → tget s.parts n = some p → cNum s c x = 2 ^ 32 - 1 →
    let e : Event := { type := 5, source := sourceOf 3 c, seq := p.hostSeq, phase := s.chipPhase,
                       payload := packPayload [(4, c), (4, cNum s c y)] }
    let u := withPart s n { p with hostSeq := (p.hostSeq + 1) % 2 ^ 32 }
    (∀ sid z, p.session = some sid → tget s.sessions sid = some z → exec (.evsig sw d x y) s = .next (answered s
      (sendFrame u sid { session := sid, type := 5, payload := eventBytes e, peer := z.peer, port := z.port }) c d.toNat 0#32)) ∧
    ((∀ sid, p.session = some sid → tget s.sessions sid = none) →
      exec (.evsig sw d x y) s = .next (answered s (bumpMgmt u 1 1) c d.toNat 0#32))) ∧
  (∀ sw (d x y : BitVec 6) s c n p, CtlIssues s c n → tget s.parts n = some p →
    let v := configure p (ctlReg (ctlAt s c) x.toNat) (ctlReg (ctlAt s c) y.toNat)
    (∀ p', v = some p' → exec (.qcfg sw d x y) s = .next (answered s (withPart s n p') c d.toNat 0#32)) ∧
    (v = none → exec (.qcfg sw d x y) s = .next (answered s s c d.toNat 1#32))) ∧
  (∀ sw (d x : BitVec 6) s c n p, CtlIssues s c n → tget s.parts n = some p → (ctlAt s c).wait = .none →
    (63 < cNum s c x → exec (.qfence sw d x) s = .next (answered s s c d.toNat 0xFFFFFFFF#32)) ∧
    (cNum s c x ≤ 63 →
      let ls := launchesBelow s n (cNum s c x) p.nextLaunch
      ((∃ l ∈ ls, ¬(l.phase = .ended ∧ l.chained = true)) →
        exec (.qfence sw d x) s = .next (ctlWaiting s s c (.fence d.toNat (cNum s c x) p.nextLaunch))) ∧
      ((∀ l ∈ ls, l.phase = .ended ∧ l.chained = true) →
        let mark := tgetD (ctlAt s c).marks (cNum s c x) 0
        let u := answered s s c d.toNat (BitVec.ofNat 32 (ls.filter (fun l => decide (mark ≤ l.number) && l.status != 0)).length)
        exec (.qfence sw d x) s = .next (withCtl u c { ctlAt u c with
          marks := tput (ctlAt u c).marks (cNum s c x) (max mark p.nextLaunch) })))) ∧
  (∀ sw (d : BitVec 5) (x : BitVec 6) s c n p, CtlIssues s c n → tget s.parts n = some p →
    exec (.qdig sw d x) s = .next (answeredPair s s c (2 * d.toNat)
      (if 63 < cNum s c x then BitVec.allOnes 64 else (tgetD p.queues (cNum s c x) {}).hash)) ∧
    exec (.phasec sw d x) s = .next (answeredPair s s c (2 * d.toNat)
      (if 2 < cNum s c x then BitVec.allOnes 64 else BitVec.ofNat 64 (phaseValue s p (cNum s c x))))) ∧
  (∀ sw (d x : BitVec 6) s c n, CtlIssues s c n →
    (launchNumbered s n (cNum s c x) = none → exec (.preempt sw d x) s = .next (answered s s c d.toNat 1#32)) ∧
    (∀ lid l, launchNumbered s n (cNum s c x) = some (lid, l) →
      let runs := l.phase ≠ .ended ∧ ∃ e ∈ s.teams, e.2.launch = lid ∧ (e.2.killed = false ∨ e.2.relaunch = true)
      (runs → exec (.preempt sw d x) s = .next (answered s { s with launches := tput s.launches lid { l with preempt := true } } c d.toNat 0#32)) ∧
      (¬runs → exec (.preempt sw d x) s = .next (answered s s c d.toNat 1#32)))) ∧
  (∀ sw (d x y : BitVec 6) s c n p, CtlIssues s c n → tget s.parts n = some p →
    let v := cNum s c y
    (cNum s c x = 0 → exec (.ptout sw d x y) s = .next
      (if v < 1024 then answered s s c d.toNat 1#32 else answered s (withPart s n { p with strag := v }) c d.toNat 0#32)) ∧
    (cNum s c x = 1 → exec (.ptout sw d x y) s = .next
      (if v < 1024 then answered s s c d.toNat 1#32 else answered s (withPart s n { p with exch := v }) c d.toNat 0#32)) ∧
    (cNum s c x = 2 → due p.stragAt s.cycle = false → v ≠ 0 → exec (.ptout sw d x y) s = .next (match p.stragAt with
      | none => answered s s c d.toNat 2#32
      | some t => answered s (withPart s n { p with stragAt := some (s.cycle + min (2 ^ 32 - 1) (t - s.cycle + v)) }) c d.toNat 0#32)) ∧
    (cNum s c x = 3 → due p.exchAt s.cycle = false → v ≠ 0 → exec (.ptout sw d x y) s = .next (match p.exchAt with
      | none => answered s s c d.toNat 2#32
      | some t => answered s (withPart s n { p with exchAt := some (s.cycle + min (2 ^ 32 - 1) (t - s.cycle + v)) }) c d.toNat 0#32)) ∧
    (3 < cNum s c x → exec (.ptout sw d x y) s = .next (answered s s c d.toNat 1#32)))

/-- 23 R418, R420, R421, R423: checkpoint words of the control core. Mode 2 before the capture and the order 3, 2, 9 of RSTOR are log 73; 5 after a capture that failed by its size is log 72. -/
def Obligations.CheckpointWordsAnswerOrWait : Prop :=
  (∀ sw (d x y : BitVec 6) s c n p, CtlIssues s c n → tget s.parts n = some p → (ctlAt s c).wait = .none →
    cNum s c x % 64 = 0 → cNum s c x + 64 ≤ 2 ^ 20 →
    let desc := mbytes s.cmem (c * 2 ^ 20 + cNum s c x) 64
    let m := cNum s c y
    let at_ := p.ckpt.phase
    (2 < m ∨ descFits desc = false → exec (.ckpt sw d x y) s = .next (answered s s c d.toNat 3#32)) ∧
    (m = 0 → descFits desc = true → (at_ = 1 ∨ at_ = 2) → exec (.ckpt sw d x y) s = .next (answered s s c d.toNat 2#32)) ∧
    (m = 0 → descFits desc = true → ¬(at_ = 1 ∨ at_ = 2) → exec (.ckpt sw d x y) s = .next (ctlWaiting s (withPart s n
      { p with ckpt := { p.ckpt with phase := 1, desc := desc, starter := some (.ctl c), waiters := [] } }) c (.capture d.toNat))) ∧
    (1 ≤ m ∧ m ≤ 2 → descFits desc = true → (at_ = 0 ∨ at_ = 3 ∨ at_ = 4) →
      exec (.ckpt sw d x y) s = .next (answered s s c d.toNat (if at_ = 0 then 6#32 else if at_ = 3 then 0#32 else 5#32))) ∧
    (m = 2 → descFits desc = true → (at_ = 1 ∨ at_ = 2) → exec (.ckpt sw d x y) s = .next (answered s s c d.toNat 1#32)) ∧
    (m = 1 → descFits desc = true → (at_ = 1 ∨ at_ = 2) → exec (.ckpt sw d x y) s = .next (ctlWaiting s (withPart s n
      { p with ckpt := { p.ckpt with waiters := p.ckpt.waiters ++ [.ctl c] } }) c (.drained d.toNat)))) ∧
  (∀ sw (d x : BitVec 6) s c n p, CtlIssues s c n → tget s.parts n = some p → (ctlAt s c).wait = .none →
    cNum s c x % 64 = 0 → cNum s c x + 64 ≤ 2 ^ 20 →
    let desc := mbytes s.cmem (c * 2 ^ 20 + cNum s c x) 64
    let busy := p.ckpt.phase = 1 ∨ p.ckpt.phase = 2 ∨ p.ckpt.restoring ≠ none
    let live := ∃ e ∈ s.launches, e.2.part = n ∧ e.2.phase ≠ .ended
    (descFits desc = false → exec (.rstor sw d x) s = .next (answered s s c d.toNat 3#32)) ∧
    (descFits desc = true → busy → exec (.rstor sw d x) s = .next (answered s s c d.toNat 2#32)) ∧
    (descFits desc = true → ¬busy → live → exec (.rstor sw d x) s = .next (answered s s c d.toNat 9#32)) ∧
    (descFits desc = true → ¬busy → ¬live → exec (.rstor sw d x) s = .next (ctlWaiting s (withPart s n
      { p with ckpt := { p.ckpt with restoring := some (.ctl c, desc) } }) c (.restore d.toNat))))

/-- 07 R156, 21 R397, 04 R88-R90. -/
def Obligations.KillsAndIllegalWords : Prop :=
  (∀ sw (d x y : BitVec 6) s c n p, CtlIssues s c n → tget s.parts n = some p →
    let ans : State → Word → Prop := fun u v => exec (.kill sw d x y) s = .next (settleKills (answered s u c d.toNat v))
    (1 < cNum s c y → ans s 3#32) ∧
    (cNum s c y ≤ 1 → launchNumbered s n (cNum s c x) = none → ans s 1#32) ∧
    (∀ lid l, cNum s c y ≤ 1 → launchNumbered s n (cNum s c x) = some (lid, l) →
      (l.phase = .ended → ans s 1#32) ∧
      (l.phase ≠ .ended → cNum s c y = 0 → ans (abortLaunch s lid 1) 0#32) ∧
      (l.phase ≠ .ended → cNum s c y = 1 → lateTeams s p lid = [] → ans s 2#32) ∧
      (l.phase ≠ .ended → cNum s c y = 1 → lateTeams s p lid ≠ [] →
        ans ((lateTeams s p lid).foldl (fun u tid => killTeam u tid true) s) 0#32))) ∧
  (∀ sw s i, GroupIssues s { sw := sw } i →
    exec (.killt sw) s = .next (settleKills (if i.act = [] then finish i (issueWork i)
      else killTeam (finish i (issueWork i)) i.g.team true))) ∧
  (∀ s tid t keep, tget s.teams tid = some t → t.killed = false →
    let u := killTeam s tid keep
    (tget u.teams tid).map (·.killed) = some true ∧
    (∀ k, k ≠ tid → tget u.teams k = tget s.teams k) ∧
    (∀ k g, tget s.groups k = some g → g.team ≠ tid → tget u.groups k = some g) ∧
    (∀ k g, tget s.groups k = some g → g.team = tid → tget u.groups k = some (dropGroup g)) ∧
    u.lmem = s.lmem ∧ u.lbits = s.lbits ∧ u.gmem = s.gmem ∧ u.cmem = s.cmem ∧ u.pages = s.pages ∧ u.dev = s.dev) ∧
  (∀ s gid set g t l, s.issue.actor = .group gid set → groupTriple s gid = some (g, t, l) →
    let i := issueIn s gid set { sw := false, illegal := true } g t l
    i.lanes ≠ [] →
    Completes .illegalInstruction s i (fun h => SubgroupParked i h (i.lanes.map (fun k => (k, 1, 0#32))) ∧
      FilesKept i h [] ∧ ChunksKept i h ∧ SpecialsKept i h)) ∧
  (∀ s c, s.issue.actor = .control c → s.issue.hints.route = none →
    ∃ t, exec .ctlIllegal s = .next t ∧ (ctlAt t c).running = false ∧ (ctlAt t c).s = (ctlAt s c).s ∧
      (clusterAt t c).events = pushEvent (clusterAt s c).events
        { type := 6, source := sourceOf 3 c, seq := (clusterAt s c).eventSeq, phase := s.chipPhase,
          payload := packPayload [(4, s.issue.word.toNat), (4, s.issue.pc.toNat), (4, 0)] } ∧
      t.cmem = s.cmem ∧ t.gmem = s.gmem ∧ t.lmem = s.lmem) ∧
  (∀ s q lat, SeqIssues s lat q → EndsWith .engineIllegal s q 3)

end

namespace Sys2Proof

open Sys2Proof.Machine

/-! ### Events (02 R33-R46, 07, 08, 10, 21, 23, 24) -/

/-- The events of a running device: none of them changes a device that is off, starting, in safe mode or frozen (23 R425). -/
inductive RunEvent : Instr → Prop
  | resultReturn (a b) : RunEvent (.resultReturn a b)
  | matrixOperationComplete (a b) : RunEvent (.matrixOperationComplete a b)
  | chunkCommit (a) : RunEvent (.chunkCommit a)
  | spawnBinTimer (a b) : RunEvent (.spawnBinTimer a b)
  | sleepExpiry (a b) : RunEvent (.sleepExpiry a b)
  | replayDiverge (a b) : RunEvent (.replayDiverge a b)
  | evwaitTimeout (a) : RunEvent (.evwaitTimeout a)
  | trapDelivery (a) : RunEvent (.trapDelivery a)
  | fpTrapWindowClose (a) : RunEvent (.fpTrapWindowClose a)
  | engineProgramStart (a b) : RunEvent (.engineProgramStart a b)
  | fabricAcknowledgement (a b r) : RunEvent (.fabricAcknowledgement a b r)
  | sweepEnd (a b) : RunEvent (.sweepEnd a b)
  | boundaryOpen (n) : RunEvent (.boundaryOpen n)
  | exchangeOpen (n) : RunEvent (.exchangeOpen n)
  | boundaryClose (n) : RunEvent (.boundaryClose n)
  | boundaryMessage (n m p c e) : RunEvent (.boundaryMessage n m p c e)
  | straggler (n) : RunEvent (.straggler n)
  | exchangeLate (n) : RunEvent (.exchangeLate n)
  | phaseMaxExpiry (n) : RunEvent (.phaseMaxExpiry n)
  | fabricWriteArrival (w) : RunEvent (.fabricWriteArrival w)
  | strikeReport (r) : RunEvent (.strikeReport r)
  | scrub (f) : RunEvent (.scrub f)
  | checkpointDrainEnd (n) : RunEvent (.checkpointDrainEnd n)
  | checkpointDrainTimeout (n) : RunEvent (.checkpointDrainTimeout n)
  | rstorComplete (n b) : RunEvent (.rstorComplete n b)
  | recalibrateDone (b) : RunEvent (.recalibrateDone b)
  | fabricPortDown (k) : RunEvent (.fabricPortDown k)
  | fabricPortUp (k) : RunEvent (.fabricPortUp k)
  | stopSignal (k b) : RunEvent (.stopSignal k b)

/-- The events of a device that is up, in safe mode or not (01 R24, 24 R434, R437, R445). -/
inductive UpEvent : Instr → Prop
  | throttle : UpEvent .throttle
  | throttleEnd : UpEvent .throttleEnd
  | pathDelayMeasurement (u b) : UpEvent (.pathDelayMeasurement u b)
  | temperatureSample (a v) : UpEvent (.temperatureSample a v)
  | calibrationExpiry (h) : UpEvent (.calibrationExpiry h)

/-- The device besides its groups, or besides its partitions, is as it was. -/
def OnlyGroups (s t : State) : Prop := { t with groups := [] } = { s with groups := [] }

/-- Group gid becomes `f` of what it was, and nothing else changes. -/
def GroupBecomes (s t : State) (gid : Nat) (f : Group → Group) : Prop :=
  OnlyGroups s t ∧ ∀ k, tget t.groups k = (tget s.groups k).map (fun g => if k = gid then f g else g)

/-- Partition n becomes p, and nothing else changes. -/
def PartBecomes (s t : State) (n : Nat) (p : Part) : Prop :=
  { t with parts := [] } = { s with parts := [] } ∧ ∀ k, tget t.parts k = if k = n then some p else tget s.parts k

/-- The chunks that CHUNK_COMMIT of a cluster commits, in set order: none when a set of it has committed in this cycle
(08 R179). -/
def commitMembers (s : State) (c : Nat) : List Cand :=
  if (clusterAt s c).commitAt = some s.cycle then []
  else setOrder (grantToken (settleSweeps s c) c) (commitSet 4 (grantToken (settleSweeps s c) c) c
    (candidates (grantToken (settleSweeps s c) c) c) [])

/-- The state once those have committed, before the broadcasts and what they release. -/
def afterMembers (s : State) (c : Nat) : State :=
  (commitMembers s c).foldl commitOne (grantToken (settleSweeps s c) c)

/-- The byte that an address holds once a chunk's stores are visible: that of its youngest store there. -/
def storedByte (k : Chunk) (a : Nat) (old : Byte) : Byte := ((k.stores.find? (fun x => x.1 == a)).map (·.2)).getD old

/-- The bits of a word once a chunk's bit changes are visible, oldest first; held as 1 for empty and 2 for dirty. -/
def storedBits (k : Chunk) (a : Nat) (old : Byte) : Byte :=
  k.tags.foldr (fun x b =>
    if x.addr = a then
      BitVec.ofNat 8 ((if x.full.getD (!b.getLsbD 0) then 0 else 1) + (if x.dirty.getD (b.getLsbD 1) then 2 else 0))
    else b) old

/-- The chunk's stores and bit changes stand in local memory, and every other byte and bit is kept (08 R177, R178). -/
structure StoresVisible (s v : State) (k : Chunk) : Prop where
  bytes : ∀ a, mread v.lmem a = storedByte k a (mread s.lmem a)
  bits : ∀ a, mread v.lbits a = storedBits k a (mread s.lbits a)

/-- The forks of a chunk on a unit, in program order. -/
def chunkForks (k : Chunk) (u : Nat) : List Nat :=
  k.effs.filterMap (fun e => match e with
    | .fork w off => if w = u then some off else none
    | _ => none)

/-- The spawn reservations of a chunk in a bin, by parent and then program order: argument and parent (02 R35). -/
def chunkSpawns (k : Chunk) (b : Nat) : List (Word × Nat) :=
  (sortBy (fun x y => decide (x.2 < y.2)) (k.effs.filterMap (fun e => match e with
    | .spawn c _ a p => if c = b then some (a, p) else none
    | _ => none)))

/-- An engine register once a chunk's ERSETs take effect: its last one to the register. -/
def chunkEreg (g : Group) (t : Team) (k : Chunk) (n : Nat) : DWord :=
  k.effs.foldl (fun x e => match e with
    | .erset q m v => if (coreIndex g t * 4 + q) * 32 + m = n then v else x
    | _ => x) (tgetD t.eregs n 0#64)

/-- The entry that a group's contributions hold for a word and a function. -/
def entryOf (es : List Entry) (gid n off fn : Nat) : Option DWord :=
  (es.find? (fun e => e.group == gid && e.ext == n && e.off == off && e.fn == fn)).map (·.partialVal)

/-- The same once a chunk's contributions have joined it, each folded into the one entry of its key (09 R207). -/
def entryAfter (k : Chunk) (n off fn : Nat) (old : Option DWord) : Option DWord :=
  k.effs.foldl (fun o e => match e with
    | .gred n' off' fn' v =>
      if n' = n ∧ off' = off ∧ fn' = fn then some ((o.map (fun p => (foldRed fn p v).1)).getD v) else o
    | _ => o) old

/-- A chunk but for the trap service of its shadow, whose parked sub-groups may enter a window of their team (14 R287). -/
def bareChunk (c : Chunk) : Chunk := { c with start := withoutTrap c.start }

/-- What the commit of the oldest chunk of group gid does (08 R178): stores and bits reach local memory, WRSTs and ERSETs
the team, forks the lists of their units, spawn reservations the bins of the core, GRED contributions the atomic buffer. -/
structure ChunkCommitted (s v : State) (gid : Nat) (g : Group) (t : Team) (k : Chunk) (rest : List Chunk) : Prop where
  stores : StoresVisible s v k
  left : (tget v.groups gid).map (fun h => h.inflight.map bareChunk) = some (rest.map bareChunk)
  regs : ∀ n, (tget v.teams g.team).map (fun u => teamReg u n) = some (applyReg n (teamReg t n) k.effs)
  eregs : ∀ n, (tget v.teams g.team).map (fun u => tgetD u.eregs n 0#64) = some (chunkEreg g t k n)
  forks : ∀ u, (engineAt v g.core u).list.map (fun p => (p.team, p.group, p.offset)) =
    (engineAt s g.core u).list.map (fun p => (p.team, p.group, p.offset)) ++ (chunkForks k u).map (fun off => (g.team, some gid, off))
  spawns : ∀ b, (tgetD (tgetD v.cores g.core {}).bins b default).recs.map (fun r => (r.team, r.arg, r.parent)) =
    (tgetD (tgetD s.cores g.core {}).bins b default).recs.map (fun r => (r.team, r.arg, r.parent)) ++
      (chunkSpawns k b).map (fun x => (g.team, x.1, x.2))
  gred : ∀ n off fn, entryOf v.gred gid n off fn = entryAfter k n off fn (entryOf s.gred gid n off fn)
  others : v.gred.filter (fun e => e.group != gid) = s.gred.filter (fun e => e.group != gid)
  control : v.cmem = s.cmem

/-- The state with only its device record changed. -/
def onDevice (s : State) (f : Device → Device) : State := { s with dev := f s.dev }

end Sys2Proof

section

open Sys2Proof Sys2Proof.Machine

/-- Each clause after the first names one event and concludes that exec answers its next state: 02 R34, R44, R46, 06 R133, 07 R147, 08 R177, R178, R190, 11 R235, 21 R387, R388, 14 R287, 18 R348. Delivery between two chunks in the ordered modes, and the quantum from which a handler runs there, are log 140. -/
def Obligations.ComputePhaseEvents : Prop :=
  (∀ ins, RunEvent ins → ∀ s, deviceRuns s = false → exec ins s = .next s) ∧
  -- RESULT_RETURN of a resident group (02 R46)
  (∀ s gid fid g f, deviceRuns s = true → tget s.groups gid = some g → g.flights.find? (fun x => x.uid == fid) = some f →
    ∃ t h, exec (.resultReturn gid fid) s = .next t ∧ tget t.groups gid = some h ∧ t.lmem = s.lmem ∧ t.gmem = s.gmem ∧
      h.flights = g.flights.filter (fun x => x.uid != fid) ∧
      (tagMatches g.regs f = true →
        t.teams = s.teams ∧ h.regs.masks = g.regs.masks ∧ h.regs.tiles = g.regs.tiles ∧ h.regs.accs = g.regs.accs ∧
        -- of the three files (class 0 vector, 1 uniform, 2 predicate) only the register that waits for the result changes
        (let landed : Bool → Nat → Reg → Reg := fun own k r =>
          if own = true ∧ k = f.key ∧ r.pending = true then { r with val := f.val, pending := false, released := false } else r
         ∀ k, tgetD h.regs.v k {} = landed (f.cls == 0) k (tgetD g.regs.v k {}) ∧
           tgetD h.regs.s k {} = landed (f.cls == 1) k (tgetD g.regs.s k {}) ∧
           tgetD h.regs.p k {} = landed (f.cls != 0 && f.cls != 1) k (tgetD g.regs.p k {}))) ∧
      (tagMatches g.regs f = false → h.regs = g.regs ∧
        (tget t.teams g.team).map (fun u => teamReg u 10) =
          (tget s.teams g.team).map (fun u => BitVec.ofNat 32 (min 0xFFFFFFFF ((teamReg u 10).toNat + 1))))) ∧
  -- RESULT_RETURN of a group that has left its core (02 R46)
  (∀ s gid fid tid t, deviceRuns s = true → tget s.groups gid = none → tget s.teams tid = some t → (gid, fid) ∈ t.stray →
    ∃ u v, exec (.resultReturn gid fid) s = .next u ∧ tget u.teams tid = some v ∧ (gid, fid) ∉ v.stray ∧
      teamReg v 10 = BitVec.ofNat 32 (min 0xFFFFFFFF ((teamReg t 10).toNat + 1)) ∧ u.groups = s.groups ∧ u.lmem = s.lmem) ∧
  -- MATRIX_OPERATION_COMPLETE (02 R44)
  (∀ s gid op, deviceRuns s = true → ∃ t, exec (.matrixOperationComplete gid op) s = .next t ∧
    GroupBecomes s t gid (fun g => { g with busy := g.busy.filter (fun b => b.op != op) })) ∧
  -- SLEEP_EXPIRY (06 R133)
  (∀ s gid set, deviceRuns s = true → ∃ t, exec (.sleepExpiry gid set) s = .next t ∧ OnlyGroups s t ∧
    (∀ k, k ≠ gid → tget t.groups k = tget s.groups k) ∧
    (∀ g, tget s.groups gid = some g → ∃ h, tget t.groups gid = some h ∧
      ∀ l x, tget g.regs.lanes l = some x → tget h.regs.lanes l = some (match x.wait with
        | .sleep c => if x.set = set ∧ c ≤ s.cycle then { x with wait := .ready } else x
        | _ => x))) ∧
  -- EVWAIT_TIMEOUT (07 R147)
  (∀ s c sd d, deviceRuns s = true → (ctlAt s c).wait = .events sd (some d) →
    (d ≤ s.cycle → exec (.evwaitTimeout c) s = .next (withCtl s c { ctlAt s c with
      s := tput (ctlAt s c).s sd (BitVec.ofNat 32 (clusterAt s c).events.length), pc := (ctlAt s c).after, wait := .none })) ∧
    (s.cycle < d → exec (.evwaitTimeout c) s = .next s)) ∧
  -- SPAWN_BIN_TIMER (02 R34)
  (∀ s core bin x r rest d, deviceRuns s = true → tget (tgetD s.cores core {}).bins bin = some x → x.recs = r :: rest →
    x.timerAt = some d →
    (s.cycle < d → exec (.spawnBinTimer core bin) s = .next s) ∧
    (d ≤ s.cycle → exec (.spawnBinTimer core bin) s = .next
      (settleCluster (setBin s core bin { x with timerAt := none, expired := some r.team }) (core / 64) []))) ∧
  -- CHUNK_COMMIT (08 R178-R180): a set commits, and what follows keeps its stores
  (∀ s c, deviceRuns s = true → ∃ t, exec (.chunkCommit c) s = .next t ∧
    t.lmem = (afterMembers s c).lmem ∧ t.lbits = (afterMembers s c).lbits ∧ t.cmem = s.cmem) ∧
  -- CHUNK_COMMIT of one group's chunk, from the state before to the state after
  (∀ s c gid g t l k rest x, deviceRuns s = true → Memory.wf s.lmem = true → Memory.wf s.lbits = true →
    groupTriple s gid = some (g, t, l) → g.inflight = k :: rest → commitMembers s c = [x] → x.owner = .group gid → x.empty = false →
    ∃ u, exec (.chunkCommit c) s = .next u ∧ StoresVisible s u k) ∧
  -- what each group's chunk of the set does as it commits (08 R177, R178)
  (∀ s gid g t l k rest, Memory.wf s.lmem = true → Memory.wf s.lbits = true → groupTriple s gid = some (g, t, l) →
    g.inflight = k :: rest → ChunkCommitted s (commitGroup s gid) gid g t k rest) ∧
  -- and each engine chunk (10 R219)
  (∀ s core u q k, Memory.wf s.lmem = true → Memory.wf s.lbits = true → seqAt s core u = some q → q.p.op = some k →
    StoresVisible s (commitUnit s core u) k) ∧
  -- REPLAY_DIVERGE (08 R190)
  (∀ s lid c l, deviceRuns s = true → tget s.launches lid = some l → l.mode = 3 → l.phase = .running → l.abort = none →
    (∀ e, nextEntry s l c = some e → entryPassed s l lid c e = true → exec (.replayDiverge lid c) s = .next (abortLaunch s lid 4))) ∧
  (∀ s lid c l, deviceRuns s = true → tget s.launches lid = some l → l.mode ≠ 3 → exec (.replayDiverge lid c) s = .next s) ∧
  -- TRAP_DELIVERY (21 R388)
  (∀ s gid g t l h p, deviceRuns s = true → groupTriple s gid = some (g, t, l) → t.killed = false → handlerOf g t l = some h →
    g.regs.trap.inService = false → (parksInOrder g).find? (windowClosed t) = some p → (ordered l = true → g.cur = none) →
    let since := if l.mode = 1 ∧ p.causes ≠ [] then t.fp.runsAt.getD 0 else 0
    ∃ u k, exec (.trapDelivery gid) s = .next u ∧ OnlyGroups s u ∧ tget u.groups gid = some k ∧
      (k.regs.trap.cause, k.regs.trap.pc, k.regs.trap.addr, k.regs.trap.done) = (p.cause, p.pc, p.addr, p.done) ∧
      k.regs.trap.inService = true ∧ k.regs.trap.parks = g.regs.trap.parks.filter (· != p) ∧
      k.regs.v = g.regs.v ∧ k.regs.s = g.regs.s ∧ k.regs.p = g.regs.p ∧
      ∀ j x, tget g.regs.lanes j = some x → tget k.regs.lanes j =
        some (if p.lanes.getLsbD j then { x with pc := h, wait := .ready, readyQ := since, handler := true } else x)) ∧
  (∀ s gid g t l, deviceRuns s = true → groupTriple s gid = some (g, t, l) →
    (t.killed = true ∨ g.regs.trap.inService = true ∨ g.regs.trap.parks = [] ∨ (ordered l = true ∧ g.cur.isSome = true)) →
    exec (.trapDelivery gid) s = .next s) ∧
  -- and of a team without a handler (21 R387): it is killed once the chunk that trapped has committed
  (∀ s gid g t l p, deviceRuns s = true → groupTriple s gid = some (g, t, l) → t.killed = false → handlerOf g t l = none →
    g.regs.trap.inService = false → (ordered l = true → g.cur = none) →
    (parksInOrder g).find? (fun q => windowClosed t q || q.win.isNone) = some p →
    (parkCommitted g p = true → exec (.trapDelivery gid) s = .next (killNow s g.team)) ∧
    (parkCommitted g p = false → exec (.trapDelivery gid) s = .next s)) ∧
  -- a trap inside the handler (21 R388): the word dooms the team, and the commit of its chunk kills it
  (∀ ins sw c cause s i, SoftTrapOp ins sw c cause → GroupIssues s { sw := sw } i →
    (∃ k ∈ i.act, (laneAt i.g.regs k).handler = true) →
    Completes ins s i (fun g => g.regs.trap.doom = i.g.cur.map (·.uid) ∧ g.regs.trap.doom.isSome = true)) ∧
  (∀ s c gid g t l k rest x, deviceRuns s = true → groupTriple s gid = some (g, t, l) → g.inflight = k :: rest →
    g.core / 64 = c → g.regs.trap.doom = some k.uid → (∀ j ∈ rest ++ g.cur.toList, j.uid ≠ k.uid) →
    commitMembers s c = [x] → x.owner = .group gid →
    ∃ u, exec (.chunkCommit c) s = .next u ∧ (tget u.teams g.team).map (·.killed) = some true) ∧
  -- FP_TRAP_WINDOW_CLOSE (14 R287)
  (∀ s tid t, deviceRuns s = true → tget s.teams tid = some t → teamMode s tid = 0 →
    (t.fp.isOpen = true → t.fp.closeAt ≤ s.cycle → exec (.fpTrapWindowClose tid) s = .next
      (openWindow (setTeam s tid { t with fp := windowReport s tid t.fp }) tid)) ∧
    ((t.fp.isOpen = false ∨ s.cycle < t.fp.closeAt) → exec (.fpTrapWindowClose tid) s = .next s)) ∧
  (∀ s tid t l, deviceRuns s = true → tget s.teams tid = some t → tget s.launches t.launch = some l → (l.mode = 1 ∨ l.mode = 3) →
    let t1 := { t with fp := { t.fp with runsAt := some (t.fp.runsAt.getD (startQuantum l t.cluster t.cohort)) } }
    let s1 := if t.fp.runsAt.isSome then s else assignWindow (setTeam s tid t1) tid t.fp.n (fun p => p.quantum == t.fp.quantum)
    (windowOver s tid t l = true → exec (.fpTrapWindowClose tid) s = .next
      (noteWindow 1 (openWindow (setTeam s1 tid { t1 with fp := windowReport s1 tid t1.fp }) tid) tid)) ∧
    (windowOver s tid t l = false → exec (.fpTrapWindowClose tid) s = .next s)) ∧
  -- ENGINE_PROGRAM_START (11 R235)
  (∀ s core u p rest t, deviceRuns s = true → u < 4 → (engineAt s core u).run = none → (engineAt s core u).list = p :: rest →
    tget s.teams p.team = some t → ∃ v q, exec (.engineProgramStart core u) s = .next v ∧ OnlyEngines s v ∧
      engineAt v core u = { run := some q, list := rest } ∧ { q with e := [] } = { p with e := [], pc := p.offset } ∧
      (∀ n, n < 32 → tgetD q.e n 0#64 = tgetD t.eregs (((if t.cores.getD 0 0 = core then 0 else 1) * 4 + u) * 32 + n) 0#64) ∧
      (∀ c k, k < 8 → ¬(c = core ∧ k = u) → engineAt v c k = engineAt s c k)) ∧
  -- FABRIC_ACKNOWLEDGEMENT (10 R232, 11 R250)
  (∀ s core u q, deviceRuns s = true → u < 8 → seqAt s core u = some q → q.p.fabWait = true →
    (∃ v, exec (.fabricAcknowledgement core u false) s = .next v ∧
      (engineAt v core u).run = some (onward { q.p with fabWait := false }) ∧ v.lmem = s.lmem ∧ v.gmem = s.gmem ∧ v.groups = s.groups) ∧
    (∃ v, exec (.fabricAcknowledgement core u true) s = .next v ∧ (engineAt v core u).run = none ∧ v.lmem = s.lmem ∧ v.gmem = s.gmem)) ∧
  -- SWEEP_END (18 R347, R348)
  (∀ s core l q c, deviceRuns s = true → seqAt s core (4 + l) = some q → q.p.health = none → q.p.sweeps ≠ 0 → q.p.op = none →
    (ownLattice q).2.cfg = some c → ∃ v, exec (.sweepEnd core l) s = .next v ∧ v = runSweep q c ∧
    (staleSweep c (agedGhosts (ownLattice q).2) = false → ∃ p, (engineAt v core (4 + l)).run = some p ∧
      p.sweeps = q.p.sweeps - 1 ∧ p.swept = q.p.swept + 1 ∧
      (latticeAt v core (ownLattice q).1).ctr = (ownLattice q).2.ctr + 1#32))

/-- 08 R162-R167, 07 R157, 21 R400, 10 R231, 11 R250, 01 R22. The count that a boundary message carries is log 77, the partition that a fabric write names log 74. -/
def Obligations.BoundaryEvents : Prop :=
  -- BOUNDARY_OPEN (08 R162, R166, 07 R157)
  (∀ s n p, deviceRuns s = true → tget s.parts n = some p →
    (p.pstate = .compute → boundaryOpens s n p = true → ∃ t, exec (.boundaryOpen n) s = .next t ∧ PartBecomes s t n
      { p with pstate := .opened, stragAt := some (s.cycle + p.strag), firstArrival := s.cycle }) ∧
    (p.pstate ≠ .compute ∨ boundaryOpens s n p = false → exec (.boundaryOpen n) s = .next s)) ∧
  -- EXCHANGE_OPEN (08 R165, R167)
  (∀ s n p, deviceRuns s = true → tget s.parts n = some p →
    (p.pstate ≠ .opened → exec (.exchangeOpen n) s = .next s) ∧
    (p.pstate = .opened → relaunchPending s n = false → (partCores s p).any (fun k => !coreArrived s k) = true →
      exec (.exchangeOpen n) s = .next s) ∧
    (p.pstate = .opened → relaunchPending s n = false → (partCores s p).all (coreArrived s) = true → spanReady p false = true →
      ∃ t q, exec (.exchangeOpen n) s = .next t ∧ t = openExchange (sendSpan s n p false) n ∧
        tget t.parts n = some q ∧ q.pstate = .exchange ∧ q.exchAt = some (s.cycle + p.exch) ∧ q.stragAt = none ∧ q.late = [])) ∧
  -- BOUNDARY_CLOSE (08 R163, R165)
  (∀ s n p, deviceRuns s = true → tget s.parts n = some p →
    ((p.pstate ≠ .exchange ∨ (partCores s p).any (exchangeBusy s) = true) → exec (.boundaryClose n) s = .next s) ∧
    (p.pstate = .exchange → (partCores s p).any (exchangeBusy s) = false → spanReady p true = true →
      ∃ t q, exec (.boundaryClose n) s = .next t ∧ t = closeBoundary (sendSpan s n p true) n { p with spanSent := 2 } ∧
        t.chipPhase = s.chipPhase + 1 ∧ tget t.parts n = some q ∧ q.pstate = .compute ∧ q.boundary = p.boundary + 1 ∧
        q.computeAt = s.cycle ∧ q.stragAt = none ∧ q.exchAt = none)) ∧
  (∀ u n p, tget u.parts n = some p → let v := countBoundary u n
    v.chipPhase = u.chipPhase + 1 ∧ (tget v.parts n).map (·.boundary) = some (p.boundary + 1) ∧ v.gmem = u.gmem) ∧
  (∀ u n p, tget u.parts n = some p → let v := beginCompute u n
    ∃ q, tget v.parts n = some q ∧ q.pstate = .compute ∧ q.boundary = p.boundary ∧ q.computeAt = u.cycle ∧ q.stragAt = none ∧ q.exchAt = none) ∧
  -- BOUNDARY_MESSAGE (08 R167, 01 R22)
  (∀ s n p m k c, deviceRuns s = true → tget s.parts n = some p → p.spanTag ≠ 0 → k ∈ p.ports → k ∉ s.dev.portDown → p.boundary ≤ c →
    (∃ t q, exec (.boundaryMessage n m k c false) s = .next t ∧ PartBecomes s t n q ∧ (m, c) ∈ q.spanArrived ∧
      { q with spanArrived := [] } = { p with spanArrived := [] } ∧ ((m, c) ∈ p.spanArrived → q = p)) ∧
    (∃ t q, exec (.boundaryMessage n m k c true) s = .next t ∧ PartBecomes s t n q ∧ (m, c) ∈ q.spanEnded ∧
      { q with spanEnded := [] } = { p with spanEnded := [] } ∧ ((m, c) ∈ p.spanEnded → q = p))) ∧
  -- STRAGGLER and EXCHANGE_LATE (07 R157)
  (∀ s n p d, deviceRuns s = true → tget s.parts n = some p →
    (p.stragAt = some d → d ≤ s.cycle → ∃ t q, exec (.straggler n) s = .next t ∧ tget t.parts n = some q ∧
      q.stragAt = some (s.cycle + p.strag) ∧ (∀ k, k ∈ q.late ↔ k ∈ p.late ∨ k ∈ lateCores s p) ∧ t.groups = s.groups ∧ t.gmem = s.gmem) ∧
    (p.stragAt = some d → s.cycle < d → exec (.straggler n) s = .next s) ∧
    (p.exchAt = some d → d ≤ s.cycle → ∃ t q, exec (.exchangeLate n) s = .next t ∧ tget t.parts n = some q ∧
      q.exchAt = some (s.cycle + p.exch) ∧ (∀ k, k ∈ q.late ↔ k ∈ p.late ∨ k ∈ lateCores s p) ∧ t.groups = s.groups ∧ t.gmem = s.gmem) ∧
    (p.exchAt = some d → s.cycle < d → exec (.exchangeLate n) s = .next s)) ∧
  -- PHASE_MAX_EXPIRY (21 R400)
  (∀ s lid l p, deviceRuns s = true → tget s.launches lid = some l → tget s.parts l.part = some p →
    let slow := (partCores s p).filter (fun k => !l.phaseTold.contains k && !coreArrived s k && (residents s k).any (fun e => e.2.launch == lid))
    (l.phaseMax ≠ 0 → p.pstate ≠ .exchange → p.computeAt + l.phaseMax ≤ s.cycle → slow ≠ [] →
      ∃ t q m, exec (.phaseMaxExpiry lid) s = .next t ∧ t = reportLate (setLaunch s lid { l with phaseTold := l.phaseTold ++ slow }) l.part p 3 slow false ∧
        tget t.parts l.part = some q ∧ (∀ k, k ∈ q.late ↔ k ∈ p.late ∨ k ∈ slow) ∧
        tget t.launches lid = some m ∧ m.phaseTold = l.phaseTold ++ slow ∧ t.groups = s.groups ∧ t.gmem = s.gmem) ∧
    ((l.phaseMax = 0 ∨ s.cycle < p.computeAt + l.phaseMax) → exec (.phaseMaxExpiry lid) s = .next s)) ∧
  -- FABRIC_WRITE_ARRIVAL (10 R231, 11 R250)
  (∀ s (w : FabWrite) b len, deviceRuns s = true → (tget s.parts w.part).bind (fun p => tget p.windows w.window) = some (b, len) →
    (w.offset % 4 = 0 → w.offset + 4 * w.data.length ≤ len → exec (.fabricWriteArrival w) s = .next { s with fabric := s.fabric ++ [(b + w.offset, w)] }) ∧
    (¬(w.offset % 4 = 0 ∧ w.offset + 4 * w.data.length ≤ len) → exec (.fabricWriteArrival w) s = .next (bumpMgmt s 8 1))) ∧
  -- FABRIC_PORT_DOWN, FABRIC_PORT_UP and STOP_SIGNAL (01 R22)
  (∀ s k, deviceRuns s = true → k < 24 →
    (∃ t, exec (.fabricPortDown k) s = .next t ∧ (∀ j, j ∈ t.dev.portDown ↔ j = k ∨ j ∈ s.dev.portDown) ∧
      onDevice t (fun d => { d with portDown := [] }) = onDevice s (fun d => { d with portDown := [] })) ∧
    (k ∉ s.dev.wear.ports → ∃ t, exec (.fabricPortUp k) s = .next t ∧ (∀ j, j ∈ t.dev.portDown ↔ j ≠ k ∧ j ∈ s.dev.portDown) ∧
      onDevice t (fun d => { d with portDown := [] }) = onDevice s (fun d => { d with portDown := [] })) ∧
    (∀ b, ∃ t, exec (.stopSignal k b) s = .next t ∧
      (∀ j, j ∈ t.dev.portStop ↔ if j = k then b = true else j ∈ s.dev.portStop) ∧
      onDevice t (fun d => { d with portStop := [] }) = onDevice s (fun d => { d with portStop := [] })))

end

namespace Sys2Proof

open Sys2Proof.Machine

/-! ### Recovery and the device (01, 23, 24) -/

/-- The four cores of the core region that holds a core (23 R408). -/
def regionCores (core : Nat) : List Nat := [core / 4 * 4, core / 4 * 4 + 1, core / 4 * 4 + 2, core / 4 * 4 + 3]

/-- What a start or a power loss destroys is gone; HBM is apart (24 R442). -/
structure Erased (t : State) : Prop where
  parts : t.parts = [] ∧ t.launches = [] ∧ t.teams = [] ∧ t.retired = [] ∧ t.groups = []
  units : t.clusters = [] ∧ t.cores = [] ∧ t.engines = [] ∧ t.lattices = [] ∧ t.gred = []
  memory : t.lmem = [] ∧ t.lbits = [] ∧ t.lsnap = [] ∧ t.cmem = [] ∧ t.pages = [] ∧ t.lost = [] ∧ t.lags = []
  host : t.sessions = []

/-- Word k of `n` bits of a number, least significant first. -/
def bitsFrom (n v : Nat) : List Bool := (List.range n).map (fun k => v / 2 ^ k % 2 = 1)

end Sys2Proof

section

open Sys2Proof Sys2Proof.Machine

/-- 23 R408, R409, R411, R412, R415-R417, R422, R423. The order 5, 9, 7, 8 is log 73, how an image reads back log 136. -/
def Obligations.RecoveryEvents : Prop :=
  (∀ s c j, deviceRuns s = true → j < 16 → exec (.strikeReport (.cores c j)) s = .next (strikeCores s (regionCores (64 * c + 4 * j)))) ∧
  (∀ s k, deviceRuns s = true → exec (.strikeReport (.control k)) s = .next s ∧ exec (.strikeReport (.banks k)) s = .next s ∧
    exec (.strikeReport (.io k)) s = .next s) ∧
  (∀ s gid g ch rest, deviceRuns s = true → tget s.groups gid = some g → g.inflight ++ g.cur.toList = ch :: rest →
    ∃ t, exec (.scrub (.shadowed gid)) s = .next t ∧
      (∃ h, tget t.groups gid = some h ∧ withoutTrap h.regs = withoutTrap (restoreCore g.regs ch.start) ∧
        { h with regs := {} } = { g with regs := {}, inflight := [], cur := none, running := none, nextQuantum := ch.quantum,
                                         busy := [], strikes := g.strikes + 1 }) ∧
      (∀ k, k ≠ gid → (tget t.groups k).map (fun x => withoutTrap x.regs) = (tget s.groups k).map (fun x => withoutTrap x.regs)) ∧
      ((∀ u, tget s.teams g.team = some u → u.fp.service = false) →
        (tget t.groups gid).map (·.regs) = some (restoreCore g.regs ch.start) ∧ ∀ k, k ≠ gid → tget t.groups k = tget s.groups k) ∧
      t.lmem = s.lmem ∧ t.lbits = s.lbits ∧ t.gmem = s.gmem) ∧
  (∀ s gid, deviceRuns s = true → (∀ g, tget s.groups gid = some g → g.inflight ++ g.cur.toList = []) →
    exec (.scrub (.shadowed gid)) s = .next s) ∧
  (∀ s, deviceRuns s = true → exec (.scrub .clean) s = .next s ∧
    ∃ t, exec (.scrub .corrected) s = .next t ∧ tgetD t.dev.counters 4 0 = tgetD s.dev.counters 4 0 + 1 ∧
      { t.dev with counters := [] } = { s.dev with counters := [] } ∧ { t with dev := s.dev } = s) ∧
  (∀ s line, deviceRuns s = true → mread s.lsnap line = 0#8 → exec (.scrub (.localLine line)) s = .next s) ∧
  (∀ s line tid, deviceRuns s = true → mread s.lsnap line ≠ 0#8 → ownerOf s (64 * line) = some tid →
    exec (.scrub (.localLine line)) s = exec (.scrub (.late tid)) s) ∧
  (∀ s tid u l, deviceRuns s = true → anyTeam s tid = some u → tget s.launches u.launch = some l →
    (((tget s.parts l.part).map (·.pstate)) = some .exchange → exec (.scrub (.late tid)) s = .next (killNow (revive s tid) tid)) ∧
    (((tget s.parts l.part).map (·.pstate)) ≠ some .exchange → exec (.scrub (.late tid)) s = .next (rollback s tid))) ∧
  (∀ s tid core u l, deviceRuns s = true → anyTeam s tid = some u → tget s.launches u.launch = some l → u.killed = false →
    (((tget s.parts l.part).map (·.pstate)) = some .exchange → exec (.scrub (.consumed tid core)) s = .next (killNow (revive s tid) tid)) ∧
    (((tget s.parts l.part).map (·.pstate)) ≠ some .exchange → (∀ e ∈ s.retired, tget s.teams e.1 = none) →
      ∃ t m g, exec (.scrub (.consumed tid core)) s = .next t ∧ tget t.launches u.launch = some m ∧ m.saved = l.saved ++ [g] ∧
        g.index = u.gang ∧ g.relaunch = true ∧ g.avoid = regionCores core ∧
        ∀ k v, tget s.teams k = some v → v.launch = u.launch → v.gang = u.gang → v.killed = false →
          ∃ w, tget t.teams k = some w ∧ w.killed = true ∧ w.relaunch = true)) ∧
  (∀ s a, deviceRuns s = true → ∃ t, exec (.scrub (.globalWord a)) s = .next t ∧ a / 4 * 4 ∈ t.lost ∧
    (∀ w, w ∈ t.lost → w = a / 4 * 4 ∨ w ∈ s.lost) ∧ (∀ x, x / 4 ≠ a / 4 → mread t.gmem x = mread s.gmem x) ∧
    t.lmem = s.lmem ∧ t.cmem = s.cmem ∧ t.groups = s.groups ∧ t.teams = s.teams) ∧
  (∀ s c a, deviceRuns s = true → (ctlAt s c).running = false → exec (.scrub (.controlWord c a)) s = .next s) ∧
  (∀ s c a, deviceRuns s = true → (ctlAt s c).running = true → ∃ t, exec (.scrub (.controlWord c a)) s = .next t ∧
    (ctlAt t c).running = false ∧ (ctlAt t c).pc = (ctlAt s c).pc ∧ t.cmem = s.cmem ∧
    ∃ e, (clusterAt t c).events = pushEvent (clusterAt s c).events e ∧ e.type = 7 ∧ e.source = sourceOf 3 c) ∧
  (∀ s tid u, deviceRuns s = true → tget s.teams tid = some u → ∃ t, exec (.scrub (.snapshot tid)) s = .next t ∧
    tget t.teams tid = some { u with snap := u.snap.map (fun x => { x with bad := true }) } ∧ t.groups = s.groups ∧ t.lmem = s.lmem) ∧
  (∀ s n p i, deviceRuns s = true → tget s.parts n = some p → p.ckpt.phase = 2 → p.ckpt.image = some i →
    let ended := fun (k : Nat) => tmod s.parts n (fun q => { q with ckpt := { q.ckpt with phase := k, image := none, waiters := [] } })
    exec (.checkpointDrainEnd n) s = .next (answerAll
      { s with pool := tput s.pool (descTarget p.ckpt.desc) { i with complete := true }, parts := ended 3 } p.ckpt.waiters 0) ∧
    exec (.checkpointDrainTimeout n) s = .next (answerAll { s with parts := ended 4 } p.ckpt.waiters 5)) ∧
  (∀ s n p, deviceRuns s = true → tget s.parts n = some p → p.ckpt.phase ≠ 2 →
    exec (.checkpointDrainEnd n) s = .next s ∧ exec (.checkpointDrainTimeout n) s = .next s) ∧
  (∀ s n p b, deviceRuns s = true → tget s.parts n = some p → p.ckpt.restoring = none → exec (.rstorComplete n b) s = .next s) ∧
  (∀ s n p who desc, deviceRuns s = true → tget s.parts n = some p → p.ckpt.restoring = some (who, desc) →
    let u := { s with parts := tmod s.parts n (fun q => { q with ckpt := { q.ckpt with restoring := none } }) }
    let live := ∃ e ∈ s.launches, e.2.part = n ∧ e.2.phase ≠ .ended
    exec (.rstorComplete n none) s = .next (answerWaiter u who 5) ∧
    ∀ changed,
    (live → exec (.rstorComplete n (some changed)) s = .next (answerWaiter u who 9)) ∧
    (¬live → (tget s.pool (descTarget desc) = none ∨ ∃ i, tget s.pool (descTarget desc) = some i ∧ imageHolds i changed = false) →
      exec (.rstorComplete n (some changed)) s = .next (answerWaiter u who 7)) ∧
    (∀ i, ¬live → tget s.pool (descTarget desc) = some i → imageHolds i changed = true →
      (i.clusters ≠ p.clusters.length ∨ rangesMapped u n i = false) →
      exec (.rstorComplete n (some changed)) s = .next (answerWaiter u who 8)) ∧
    (∀ i, ¬live → tget s.pool (descTarget desc) = some i → imageHolds i changed = true → i.clusters = p.clusters.length →
      rangesMapped u n i = true →
      exec (.rstorComplete n (some changed)) s = .next (answerWaiter (restoreImage u n p { i with bytes := pagesRead i changed }) who 0))) ∧
  (∀ i, imageHolds i [] = i.complete ∧ (∀ v, v ≠ 0x43#8 → imageHolds i [(0, v)] = false) ∧ pagesRead i [] = i.bytes) ∧
  (∀ s n p i, tget s.parts n = some p → let t := restoreImage s n p i
    (tget t.parts n).map (fun q => (q.queues, q.classes, q.boundary, q.nextLaunch)) = some (i.queues, i.classes, i.boundary, i.nextLaunch) ∧
    t.lmem = s.lmem ∧ t.cmem = s.cmem ∧ t.teams = s.teams ∧ t.groups = s.groups ∧
    (∀ a, (∀ e ∈ i.ranges, a / Config.pageBytes ∉ pagesOf e.base e.len) → (∀ c ∈ i.bytes, c.1 ≠ a) → mread t.gmem a = mread s.gmem a) ∧
    (Memory.wf s.gmem = true → Memory.wf i.bytes = true → ∀ a, (∃ e ∈ i.ranges, a / Config.pageBytes ∈ pagesOf e.base e.len) →
      mread t.gmem a = mread i.bytes a))

/-- 01 R24, 23 R425-R427, 24 R434, R437-R439, R442, R444. Domain levels and marks as the model reads R437 (log 86); the captured bit of BYPASS and the layout of segments are log 7, a write that a power loss cuts off log 133. -/
def Obligations.DeviceEvents : Prop :=
  (∀ ins, UpEvent ins → ∀ s, deviceUp s = false → exec ins s = .next s) ∧
  (∀ s, deviceUp s = true →
    (s.dev.throttled = true → exec .throttle s = .next s ∧ ∃ t, exec .throttleEnd s = .next t ∧ t.dev.throttled = false ∧
      tgetD t.dev.counters 5 0 = tgetD s.dev.counters 5 0 + (s.cycle - s.dev.throttleAt) ∧ { t with dev := s.dev } = s) ∧
    (s.dev.throttled = false → exec .throttleEnd s = .next s ∧ ∃ t, exec .throttle s = .next t ∧ t.dev.throttled = true ∧
      t.dev.throttleAt = s.cycle ∧ t.dev.noticesPosted = s.dev.noticesPosted + 1 ∧ t.dev.wear = s.dev.wear ∧
      { t with dev := s.dev, freeCount := s.freeCount } = s)) ∧
  (∀ s kind unit, let t := postNotice s kind unit
    (∃ x : Notice, t.dev.notices = (s.dev.notices ++ [x]).drop (s.dev.notices.length + 1 - 64) ∧
      (x.kind, x.unit, x.phase, x.cycle, x.seen) = (kind, unit, s.chipPhase, s.cycle, false)) ∧
    t.dev.noticesPosted = s.dev.noticesPosted + 1 ∧ (s.dev.notices.length < 64 → t.dev.counters = s.dev.counters) ∧
    (∀ a rest, s.dev.notices = a :: rest → 64 ≤ s.dev.notices.length → a.seen = false →
      tgetD t.dev.counters 7 0 = tgetD s.dev.counters 7 0 + 1)) ∧
  (∀ s a v, deviceUp s = true →
    (36 ≤ a → exec (.temperatureSample a v) s = .next s) ∧
    (a < 36 → ∃ t, exec (.temperatureSample a v) s = .next t ∧ { t with dev := s.dev } = s ∧
      monitorAt t.dev (2146 + a) = sampleInto (monitorAt s.dev (2146 + a)) (v % 2 ^ 32) ∧
      (∀ k, k ≠ 2146 + a → monitorAt t.dev k = monitorAt s.dev k))) ∧
  (∀ m v, let x := sampleInto m v
    x.least = min m.least v ∧ x.greatest = max m.greatest v ∧ x.count = min (2 ^ 48 - 1) (m.count + 1) ∧
    (∀ b, tgetD x.bins b 0 = if b = binOf m v then min (2 ^ 48 - 1) (tgetD m.bins b 0 + 1) else tgetD m.bins b 0) ∧
    (m.log2 = true → binOf m v = if v = 0 then 0 else min 31 (Nat.log2 v + 1)) ∧
    (m.log2 = false → binOf m v = min 31 ((v - m.base) / 2 ^ m.width))) ∧
  (∀ s u, deviceUp s = true → exec (.pathDelayMeasurement u false) s = .next (sampleLevel s (domainOf u))) ∧
  (∀ s u, deviceUp s = true → s.dev.wearCut = false → levelOf s.dev (domainOf u) < 30 →
    (bandDue s.dev.bandAt (domainOf u) s.cycle = false → exec (.pathDelayMeasurement u true) s = .next (sampleLevel s (domainOf u))) ∧
    (bandDue s.dev.bandAt (domainOf u) s.cycle = true → ∃ t, exec (.pathDelayMeasurement u true) s = .next t ∧
      (∀ k, levelOf t.dev k = levelOf s.dev k + if k = domainOf u then 1 else 0) ∧ tget t.dev.bandAt (domainOf u) = some s.cycle ∧
      t.dev.noticesPosted = s.dev.noticesPosted + 1 ∧ t.groups = s.groups ∧ t.gmem = s.gmem)) ∧
  (∀ s u, deviceUp s = true → 30 ≤ levelOf s.dev (domainOf u) →
    exec (.pathDelayMeasurement u true) s = .next (markUnit (sampleLevel s (domainOf u)) u)) ∧
  (∀ s n, s.dev.wearCut = false → tgetD s.dev.wear.hbm n 0 = 0 → let t := markUnit s (.stack n)
    tgetD t.dev.wear.hbm n 0 = 1 ∧ (∀ k, k ≠ n → tgetD t.dev.wear.hbm k 0 = tgetD s.dev.wear.hbm k 0) ∧ t.dev.hbm = s.dev.hbm) ∧
  (∀ s counts, deviceRuns s = true → ∃ t, exec (.recalibrateDone counts) s = .next t ∧ t.dev.recal = [] ∧
    (∀ n p, tget s.parts n = some p → ∃ q, tget t.parts n = some q ∧ q.joining = [] ∧ ∀ c, c ∈ q.clusters ↔ c ∈ p.clusters ∨ c ∈ p.joining) ∧
    (let tested := s.dev.recal.flatMap (clusterLats s.dev)
      ∀ k, k ∈ t.biased ↔ (∃ j, tested[j]? = some k ∧ ∃ v ∈ counts.getD j [], 1311 < ((v : Int) - 32768).natAbs) ∨
        (k ∈ s.biased ∧ k ∉ tested)) ∧
    (∀ c ∈ s.dev.recal, tgetD t.dev.wear.calHours c 0 = s.dev.hours) ∧ t.groups = s.groups ∧ t.gmem = s.gmem) ∧
  (∀ s h, deviceUp s = true → exec (.calibrationExpiry h) s =
    .next (onDevice s (fun d => { d with hours := max d.hours h }))) ∧
  (∀ s f, (s.dev.run = .off → exec (.powerUp f) s = .next (startDevice s true f) ∧ exec (.porstN f) s = .next s ∧ exec (.srstN f) s = .next s) ∧
    (s.dev.run ≠ .off → exec (.powerUp f) s = .next s ∧
      exec (.porstN f) s = .next { startDevice s true f with turn := tput (startDevice s true f).turn 3 1 } ∧
      (tgetD s.turn 3 0 = 1 → exec (.srstN f) s = .next s) ∧
      (tgetD s.turn 3 0 ≠ 1 → exec (.srstN f) s = .next (startDevice s false f)))) ∧
  (∀ s cold f, Erased (startDevice s cold f) ∧ (startDevice s cold f).dev.frozen = .none ∧
    (startDevice s cold f).dev.startKind = (if cold then 0 else 1)) ∧
  (∀ s f a, ((tget s.pages (a / Config.pageBytes)).map (·.shared)) ≠ some true → mread (startDevice s false f).gmem a = mread s.gmem a) ∧
  (∀ s, ∃ t, exec .powerLoss s = .next t ∧ Erased t ∧ t.dev.run = .off ∧ t.dev.wear = s.dev.wear ∧ t.dev.wearOld = s.dev.wearOld ∧
    t.dev.hostRec = s.dev.hostRec ∧ t.chipPhase = 0 ∧ (t.dev.wearCut = true ↔ s.dev.wearCut = true ∨ s.cycle < s.dev.wearTill) ∧
    t.dev.hours = (if t.dev.wearCut then s.dev.wearOld else s.dev.wear).hours) ∧
  (∀ s, (s.dev.run ≠ .off → s.dev.frozen = .none →
      exec .frzNFall s = .next (onDevice s (fun d => { d with frz := false, resumePending := false, frozen := .pin })) ∧
      exec .thermalTrip s = .next (onDevice s (fun d => { d with tripped := true, frozen := .thermal }))) ∧
    ((s.dev.run = .off ∨ s.dev.frozen ≠ .none) → exec .frzNFall s = .next (onDevice s (fun d => { d with frz := false, resumePending := false }))) ∧
    (s.dev.run = .off → exec .thermalTrip s = .next s) ∧
    (s.dev.run ≠ .off → s.dev.frozen ≠ .none → exec .thermalTrip s = .next (onDevice s (fun d => { d with tripped := true })))) ∧
  (∀ s, let up := onDevice s (fun d => { d with frz := true })
    ((s.dev.frz = true ∨ s.dev.frozen = .none) → exec .frzNRise s = .next up) ∧
    (s.dev.frz = false → s.dev.frozen ≠ .none → s.dev.tripped = true →
      exec .frzNRise s = .next (onDevice up (fun d => { d with resumePending := true }))) ∧
    (s.dev.frz = false → s.dev.frozen ≠ .none → s.dev.tripped = false → s.dev.run = .running →
      exec .frzNRise s = .next (strikeAll (onDevice up (fun d => { d with frozen := .none, resumePending := false }))))) ∧
  (∀ s, let cool := onDevice s (fun d => { d with tripped := false })
    (s.dev.resumePending = false → exec .tripCooldown s = .next cool) ∧
    (s.dev.resumePending = true → s.dev.run = .running →
      exec .tripCooldown s = .next (strikeAll (onDevice cool (fun d => { d with frozen := .none, resumePending := false }))))) ∧
  (∀ s, s.dev.frozen ≠ .none → s.dev.run ≠ .off →
    exec .idcode s = .next (onDevice s (fun d =>
      { d with tapIr := 1, tapOut := bitsFrom 32 (s.dev.stepping % 16 * 2 ^ 28 + 0x4810 * 2 ^ 12 + 0x2B5 * 2 + 1) })) ∧
    (∀ n, n < 1050 → exec (.segsel n) s = .next (onDevice s (fun d => { d with tapIr := 0x20, tapSeg := n }))) ∧
    exec .bypass s = .next (onDevice s (fun d => { d with tapIr := 0xFF, tapOut := [false] })) ∧
    exec .segread s = .next { onDevice s (fun d => { d with tapIr := 0x21, tapOut := segmentBits s d.tapSeg }) with
      freeCount := s.freeCount + 1 }) ∧
  (∀ s n, s.dev.frozen = .none ∨ s.dev.run = .off → exec .idcode s = .next s ∧ exec (.segsel n) s = .next s ∧
    exec .segread s = .next s ∧ exec .bypass s = .next s)

end

namespace Sys2Proof

open Sys2Proof.Machine

/-! ### The host port (01 R19-R20, 21 R374-R385, 24 R430-R436) -/

/-- The host port is up: the device runs or is in safe mode, and is not frozen. -/
def PortUp (s : State) : Prop := s.dev.frozen = .none ∧ (s.dev.run = .running ∨ s.dev.run = .safe)

/-- A frame reaches the host port: the port is up, and the frame's tag is the port's (01 R20). -/
structure FrameArrives (s : State) (vlan : Option Nat) : Prop where
  port : PortUp s
  tag : vlan = s.dev.vlan

/-- A Plagan datagram reaches the host port: its frame does, and it is for an address of the port (01 R19, R20). -/
structure DatagramArrives (s : State) (h : MsgHdr) : Prop where
  frame : FrameArrives s h.vlan
  addressed : ∀ a, h.dest = some a → a = linkLocal s.dev.mac ∨ globalAddress s.dev = some a

/-- A datagram for an address that the port does not have (01 R20). -/
def Unaddressed (s : State) (h : MsgHdr) : Prop := ∃ a, h.dest = some a ∧ a ≠ linkLocal s.dev.mac ∧ globalAddress s.dev ≠ some a

/-- A message is the next in order of an open session x, no command of which waits to be acted on (21 R382, 24 R432). -/
structure NextInOrder (s : State) (h : MsgHdr) (x : Session) : Prop where
  frame : DatagramArrives s h
  session : tget s.sessions h.session = some x
  order : h.seq = x.rxNext
  quiet : s.dev.cmds = [] ∧ ∀ f ∈ x.backlog, f.command = none

/-- The header of a message is that of its row: its type and its operation code, its other fields within their limits
(21 R381, R383). -/
structure HeaderOf (h : MsgHdr) : Prop where
  fits : h.fits = true
  type : h.type = none
  op : h.op = none

/-- A message has been received: its acknowledgement taken, the next sequence number awaited (21 R382). -/
def received (s : State) (h : MsgHdr) : State :=
  { takeAck s h.session h.ack with
    sessions := tmod (takeAck s h.session h.ack).sessions h.session (fun y => { y with rxNext := y.rxNext + 1 }) }

/-- A request of a session with none before it has been received and is performed; it has taken an arrival number. -/
def performing (s : State) (h : MsgHdr) : State :=
  { received s h with
    sessions := tmod (received s h).sessions h.session (fun y => { y with waiting := [], held := false }),
    nextId := (received s h).nextId + 1 }

/-- The same with the request waiting for a boundary (10 R229). -/
def holding (s : State) (h : MsgHdr) (type : Nat) (r : HostReq) : State :=
  { received s h with
    sessions := tmod (received s h).sessions h.session (fun y => { y with
      waiting := [{ arrival := s.nextId, origin := originOf h type, req := r }], held := true }),
    nextId := (received s h).nextId + 1 }

/-- The window of a session has room for a reply once the message's acknowledgement is taken (21 R382). -/
def windowRoom (h : MsgHdr) (x : Session) : Prop :=
  x.backlog = [] ∧ (x.unacked.filter (fun u => decide (h.ack < u.1.seq))).length < 64

/-- A command has been answered. -/
def replied (s : State) (h : MsgHdr) : State := replyTo (received s h) h.session (originOf h 2) 0 []

/-- A monitor cleared now under a binning: the samples of the same cycle come after the clear (24 R434, R436). -/
def clearedTo (s : State) (k : Nat) (log2 : Bool) (base width : Nat) : Monitor :=
  samplesInto { log2 := log2, base := base, width := width, least := 0xFFFFFFFF, greatest := 0, count := 0, bins := [] }
    (if s.dev.freshAt = s.cycle then tgetD s.dev.fresh k [] else [])

/-- The words of a management command, by the value that they write to the command word (24 R432). -/
inductive CommandWord : Instr → MsgHdr → Nat → StartFacts → Prop
  | freeze (h) : CommandWord (.freeze h) h 1 {}
  | warmStart (h f) : CommandWord (.warmStart h f) h 2 f
  | coldStart (h c f) : CommandWord (.coldStart h c f) h (if c then 259 else 3) f
  | clearMonitor (h i) : CommandWord (.clearMonitor h i) h (4 + 256 * i.toNat) {}
  | setBinning (h i l b w) : CommandWord (.setBinning h i l b w) h
      (5 + 256 * i.toNat + (if l then 2 ^ 20 else 0) + 2 ^ 21 * b.toNat + 2 ^ 37 * w.toNat) {}
  | recalibrate (h) : CommandWord (.recalibrate h) h 6 {}

/-- The requests that a partition session makes, by the type of their reply (21 R383). -/
inductive PartitionRequest : Instr → MsgHdr → Nat → HostReq → Prop
  | start (h c e r b m a) : PartitionRequest (.start h c e r b m a) h 4 (.start c e r b m a)
  | query (h a n g) : PartitionRequest (.xlateQuery h a n g) h 6 (.xlate 0 a n g)
  | map (h a n g) : PartitionRequest (.xlateMap h a n g) h 6 (.xlate 1 a n g)
  | unmap (h a n g) : PartitionRequest (.xlateUnmap h a n g) h 6 (.xlate 2 a n g)
  | attributes (h a n g) : PartitionRequest (.xlateSetAttributes h a n g) h 6 (.xlate 3 a n g)
  | window (h a n g) : PartitionRequest (.xlateBindFabricWindow h a n g) h 6 (.xlate 4 a n g)
  | migrate (h a n g) : PartitionRequest (.xlateMigrate h a n g) h 6 (.xlate 5 a n g)
  | add32 (h a v c) : PartitionRequest (.atomicAdd32 h a v c) h 7 (.atomic 0 a v c)
  | add64 (h a v c) : PartitionRequest (.atomicAdd64 h a v c) h 7 (.atomic 1 a v c)
  | swap32 (h a v c) : PartitionRequest (.atomicSwap32 h a v c) h 7 (.atomic 2 a v c)
  | cas32 (h a v c) : PartitionRequest (.atomicCas32 h a v c) h 7 (.atomic 3 a v c)
  | cas64 (h a v c) : PartitionRequest (.atomicCas64 h a v c) h 7 (.atomic 4 a v c)
  | ckptStart (h d) : PartitionRequest (.ckptMsgStart h d) h 8 (.ckpt 0 d)
  | ckptWait (h d) : PartitionRequest (.ckptMsgWait h d) h 8 (.ckpt 1 d)
  | ckptPoll (h d) : PartitionRequest (.ckptMsgPoll h d) h 8 (.ckpt 2 d)
  | ckptRstor (h d) : PartitionRequest (.ckptMsgRstor h d) h 8 (.ckpt 3 d)

/-- Every request of a partition session: those, LOAD and READ. -/
inductive SessionRequest : Instr → MsgHdr → Nat → HostReq → Prop
  | own {i h t r} : PartitionRequest i h t r → SessionRequest i h t r
  | load (h p a d) : SessionRequest (.load h p a d) h 2 (.load p a d)
  | record (h d) : SessionRequest (.loadHostPortRecord h d) h 2 (.load 0x200 0x3000 d)
  | read (h p a n) : SessionRequest (.read h p a n) h 3 (.read p a n)

/-- The three forms of a HELLO: role, partition, flags and descriptor (21 R383). -/
inductive HelloForm : Instr → MsgHdr → Nat → Nat → Nat → List Byte → Prop
  | hello (h r p f) : HelloForm (.hello h r p f) h r p f []
  | create (h r f d) : HelloForm (.helloCreate h r f d) h r (byteField d 4 1) f d
  | destroy (h r p f) : HelloForm (.helloDestroy h r p f) h r p f []

/-- The reply to a HELLO that opens a session: its payload is the session's number (21 R382). -/
def helloReply (s : State) (h : MsgHdr) : Frame :=
  { session := s.nextSession, seq := 1, ack := h.seq, type := 1, flags := 2, status := 0, payload := natLE 4 s.nextSession,
    peer := h.peer, port := h.port, vlan := s.dev.vlan }

/-- The session that a HELLO opens, its reply sent and not yet acknowledged (21 R382). -/
def openedSession (s : State) (h : MsgHdr) (admin : Bool) (part : Nat) : Session :=
  { admin := admin, part := part, peer := h.peer, port := h.port, rxNext := h.seq + 1, txSeq := 2,
    unacked := [(helloReply s h, 0, s.cycle + 2 ^ 21)] }

/-- A session opens under the next number, and its reply says which (21 R382, R383). -/
structure SessionOpens (s u t : State) (h : MsgHdr) (admin : Bool) (part : Nat) : Prop where
  session : tget t.sessions s.nextSession = some (openedSession s h admin part)
  number : t.nextSession = s.nextSession + 1
  sent : t.sent = s.sent ++ [helloReply s h]
  others : ∀ k, k ≠ s.nextSession → tget t.sessions k = tget u.sessions k
  memory : t.gmem = u.gmem ∧ t.pages = u.pages ∧ t.launches = u.launches ∧ t.teams = u.teams

/-- A HELLO is refused: a reply in no session, and nothing else (21 R383). -/
def helloRefused (s : State) (h : MsgHdr) (status : Nat) : State :=
  let no : Frame := { session := 0, seq := 1, ack := h.seq, type := 1, flags := 2, status := status,
                      peer := h.peer, port := h.port, vlan := s.dev.vlan }
  { s with sent := s.sent ++ [no] }

/-- The bytes of a page are where they are, its attributes are those of `arg` (21 R378, R385). -/
def attributed (arg : Nat) (p : Page) : Page :=
  { p with nonatomic := arg / 8 % 2 == 1, replicate := arg / 16 % 2 == 1, sysAtomic := arg / 32 % 2 == 1,
           replicas := if arg / 16 % 2 = 1 then p.replicas else [], histCount := 0 }

/-- A partition whose pages from a on, n bytes of them, the host has written since the exchange before (10 R227). -/
def hostWrote (p : Part) (a n : Nat) : Part :=
  { p with exchange := { p.exchange with
      wrotePages := p.exchange.wrotePages ++ ((runPages a n).map (fun g => (g, 8))).filter (fun r => !p.exchange.wrotePages.contains r) } }

/-- The value that a host atomic stores (10 R230). -/
def hostAtomicValue (op old operand compare : Nat) : Nat :=
  match op with
  | 0 => (old + operand) % 2 ^ 32
  | 1 => (old + operand) % 2 ^ 64
  | 2 => operand % 2 ^ 32
  | 3 => if old = compare % 2 ^ 32 then operand % 2 ^ 32 else old
  | _ => if old = compare % 2 ^ 64 then operand % 2 ^ 64 else old

end Sys2Proof

section

open Sys2Proof Sys2Proof.Machine

/-- 24 R430, R432, R436, R439, R445, 01 R20, 21 R383. MALFORMED for a refused record is log 91, the argument bit of COLD_START log 106, acting after a delayed reply log 90. -/
def Obligations.ManagementCommands : Prop :=
  (∀ ins h v f s, CommandWord ins h v f → ¬PortUp s → exec ins s = .next s) ∧
  (∀ ins h v f s, CommandWord ins h v f → PortUp s → (h.vlan ≠ s.dev.vlan ∨ Unaddressed s h) →
    exec ins s = .next (bumpMgmt s 0 1)) ∧
  (∀ ins h v f s x, CommandWord ins h v f → NextInOrder s h x → HeaderOf h → x.admin = false →
    exec ins s = exec (.load h 0x200 0x1000 (natLE 8 v)) s) ∧
  -- FREEZE, WARM_START and COLD_START once their reply is sent
  (∀ s h x, NextInOrder s h x → HeaderOf h → x.admin = true → windowRoom h x → s.dev.run = .running →
    exec (.freeze h) s = .next (onDevice (replied s h) (fun d => { d with frozen := .command }))) ∧
  (∀ s h x f, NextInOrder s h x → HeaderOf h → x.admin = true → windowRoom h x →
    exec (.warmStart h f) s = .next (startDevice (replied s h) false f) ∧
    exec (.coldStart h false f) s = .next (startDevice (replied s h) true f) ∧
    exec (.coldStart h true f) s = .next (startDevice (writeWear (replied s h) (fun w => { w with attempts := 0 })) true f)) ∧
  -- and while it waits for the window
  (∀ ins h v f s x, CommandWord ins h v f → v % 256 ≤ 3 → NextInOrder s h x → HeaderOf h → x.admin = true → x.backlog = [] →
    64 ≤ (x.unacked.filter (fun u => decide (h.ack < u.1.seq))).length → s.dev.run = .running →
    ∃ t y fr, exec ins s = .next t ∧ t.dev = s.dev ∧ t.sent = s.sent ∧ tget t.sessions h.session = some y ∧
      y.backlog = [fr] ∧ fr.command = some (v, f) ∧ fr.status = 0) ∧
  -- CLEAR_MONITOR
  (∀ s h x i, NextInOrder s h x → HeaderOf h → x.admin = true → s.dev.run = .running →
    (i.toNat < 2182 → ∃ t, exec (.clearMonitor h i) s = .next t ∧
      t = replyTo (onDevice (received s h) (fun _ => t.dev)) h.session (originOf h 2) 0 [] ∧
      { t.dev with monitors := [], hbmAt := [] } = { s.dev with monitors := [], hbmAt := [] } ∧
      ∀ k, monitorAt t.dev k = if k = i.toNat then
        clearedTo s k (monitorAt s.dev k).log2 (monitorAt s.dev k).base (monitorAt s.dev k).width else monitorAt s.dev k) ∧
    (i = 0xFFF#12 → ∃ t, exec (.clearMonitor h i) s = .next t ∧
      t = replyTo (onDevice (received s h) (fun _ => t.dev)) h.session (originOf h 2) 0 [] ∧
      { t.dev with monitors := [], hbmAt := [] } = { s.dev with monitors := [], hbmAt := [] } ∧
      ∀ k, k < 2182 → monitorAt t.dev k =
        clearedTo s k (monitorAt s.dev k).log2 (monitorAt s.dev k).base (monitorAt s.dev k).width) ∧
    (2182 ≤ i.toNat → i ≠ 0xFFF#12 → exec (.clearMonitor h i) s = .next (replyTo (received s h) h.session (originOf h 2) 4 []))) ∧
  -- SET_BINNING
  (∀ s h x i log2 base width, NextInOrder s h x → HeaderOf h → x.admin = true → s.dev.run = .running →
    (i.toNat < 2182 → ∃ t, exec (.setBinning h i log2 base width) s = .next t ∧
      t = replyTo (onDevice (received s h) (fun _ => t.dev)) h.session (originOf h 2) 0 [] ∧
      { t.dev with monitors := [], hbmAt := [] } = { s.dev with monitors := [], hbmAt := [] } ∧
      ∀ k, monitorAt t.dev k = if k = i.toNat then clearedTo s k log2 base.toNat width.toNat else monitorAt s.dev k) ∧
    (2182 ≤ i.toNat → exec (.setBinning h i log2 base width) s = .next (replyTo (received s h) h.session (originOf h 2) 4 []))) ∧
  -- RECALIBRATE
  (∀ s h x, NextInOrder s h x → HeaderOf h → x.admin = true → s.dev.run = .running → ∃ t, exec (.recalibrate h) s = .next t ∧
    t = replyTo (onDevice (received s h) (fun d => { d with recal := t.dev.recal })) h.session (originOf h 2) 0 [] ∧
    ∀ c, c ∈ t.dev.recal ↔ c ∈ s.dev.recal ∨ (c < 16 ∧ ∀ e ∈ s.parts, c ∉ e.2.clusters ∧ c ∉ e.2.joining)) ∧
  (∀ s h x i log2 base width, NextInOrder s h x → HeaderOf h → x.admin = true → s.dev.run = .safe →
    let no := replyTo (received s h) h.session (originOf h 2) 4 []
    exec (.freeze h) s = .next no ∧ exec (.clearMonitor h i) s = .next no ∧ exec (.setBinning h i log2 base width) s = .next no ∧
    exec (.recalibrate h) s = .next no) ∧
  -- LOAD_HOST_PORT_RECORD
  (∀ s h x data, NextInOrder s h x → HeaderOf h → x.admin = true →
    (hostRecordFits data = true → s.dev.run = .running → exec (.loadHostPortRecord h data) s =
      .next (replyTo { onDevice (received s h) (fun d => { d with
        hostRec := some data, hostRecOld := d.hostRec, hostTill := s.cycle + Config.writeCycles s.freeCount }) with
          freeCount := s.freeCount + 1 } h.session (originOf h 2) 0 [])) ∧
    ((hostRecordFits data = false ∨ s.dev.run = .safe) →
      exec (.loadHostPortRecord h data) s = .next (replyTo (received s h) h.session (originOf h 2) 4 []))) ∧
  (∀ s h x data, NextInOrder s h x → HeaderOf h → x.admin = false →
    exec (.loadHostPortRecord h data) s = exec (.load h 0x200 0x3000 data) s)

/-- 01 R19, R20, 21 R374, R381-R383. The frame of a refused HELLO is log 92, sequence 0 of acknowledging frames log 67, the advertisement log 94, messages of a foreign type log 102. -/
def Obligations.HostMessages : Prop :=
  (∀ ins h t r s, SessionRequest ins h t r → ¬PortUp s → exec ins s = .next s) ∧
  (∀ ins h r p f d s, HelloForm ins h r p f d → ¬PortUp s → exec ins s = .next s) ∧
  (∀ ins h s, ((∃ t r, SessionRequest ins h t r) ∨ (∃ r p f d, HelloForm ins h r p f d) ∨ ins = .plaganAck h) → PortUp s →
    (h.vlan ≠ s.dev.vlan ∨ Unaddressed s h) → exec ins s = .next (bumpMgmt s 0 1)) ∧
  (∀ s h, s.dev.hostAddr = [] → (Unaddressed s h ↔ ∃ a, h.dest = some a ∧ a ≠ linkLocal s.dev.mac)) ∧
  (∀ s h k a, ¬PortUp s → exec (.plaganAck h) s = .next s ∧ exec (.retransmit k) s = .next s ∧
    exec (.neighbourSolicitation a) s = .next s ∧ exec .nonPlaganFrame s = .next s ∧ exec .corruptPlaganMessage s = .next s) ∧
  (∀ s, PortUp s → exec .nonPlaganFrame s = .next (bumpMgmt s 0 1) ∧ exec .corruptPlaganMessage s = .next (bumpMgmt s 1 1)) ∧
  (∀ s (a : Solicitation), FrameArrives s a.vlan →
    ((a.address = linkLocal s.dev.mac ∨ globalAddress s.dev = some a.address) → exec (.neighbourSolicitation a) s =
      .next { s with sent := s.sent ++ [{ session := 0, type := 0, payload := natBE 16 a.address, vlan := s.dev.vlan }] }) ∧
    (a.address ≠ linkLocal s.dev.mac → globalAddress s.dev ≠ some a.address →
      exec (.neighbourSolicitation a) s = .next (bumpMgmt s 0 1))) ∧
  (∀ s (a : Solicitation), PortUp s → a.vlan ≠ s.dev.vlan → exec (.neighbourSolicitation a) s = .next (bumpMgmt s 0 1)) ∧
  (∀ s k n, let t := bumpMgmt s k n
    { t with dev := s.dev } = s ∧ { t.dev with counters := [] } = { s.dev with counters := [] } ∧
    ∀ j, tgetD t.dev.counters j 0 = tgetD s.dev.counters j 0 + if j = k then n else 0) ∧
  (∀ ins h t r s, SessionRequest ins h t r ∨ (∃ f, CommandWord ins h t f) → DatagramArrives s h →
    (tget s.sessions h.session = none → exec ins s = .next (bumpMgmt s 1 1)) ∧
    (∀ x, tget s.sessions h.session = some x → x.rxNext < h.seq → exec ins s = .next (takeAck s h.session h.ack)) ∧
    (∀ x, tget s.sessions h.session = some x → h.seq < x.rxNext → ∃ u, exec ins s = .next u ∧
      u = { takeAck s h.session h.ack with sent := (takeAck s h.session h.ack).sent ++
        [{ session := h.session, seq := 0, ack := x.rxNext - 1, type := 0, flags := 1, peer := h.peer, port := h.port,
           vlan := (takeAck s h.session h.ack).dev.vlan }] })) ∧
  (∀ s sid ack x, tget s.sessions sid = some x → x.backlog = [] → s.dev.cmds = [] → takeAck s sid ack =
    { s with sessions := tmod s.sessions sid (fun y => { y with unacked := y.unacked.filter (fun u => decide (ack < u.1.seq)) }) }) ∧
  (∀ ins h t r s x, PartitionRequest ins h t r → NextInOrder s h x → HeaderOf h → x.admin = true →
    exec ins s = .next (replyTo (received s h) h.session (originOf h t) 2 [])) ∧
  (∀ ins h t r s x, SessionRequest ins h t r → NextInOrder s h x → x.admin = true → h.fits = false →
    h.type = none → exec ins s = .next (replyTo (received s h) h.session (originOf h t) 4 [])) ∧
  (∀ ins h t r s x k, SessionRequest ins h t r → NextInOrder s h x → x.admin = true → h.type = some k → (k = 5 ∨ k = 0 ∨ 8 < k) →
    exec ins s = .next (replyTo (received s h) h.session (originOf h k) 4 [])) ∧
  (∀ s h, DatagramArrives s h → ((tget s.sessions h.session).isSome = true → exec (.plaganAck h) s = .next (takeAck s h.session h.ack)) ∧
    (tget s.sessions h.session = none → exec (.plaganAck h) s = .next (bumpMgmt s 1 1))) ∧
  (∀ s k, PortUp s → tget s.sessions k = none → exec (.retransmit k) s = .next s) ∧
  (∀ s k x, PortUp s → tget s.sessions k = some x → (∀ u ∈ x.unacked, s.cycle < u.2.2) → exec (.retransmit k) s = .next s) ∧
  (∀ s k x fr n d, PortUp s → tget s.sessions k = some x → x.unacked.find? (fun u => decide (u.2.2 ≤ s.cycle)) = some (fr, n, d) →
    (8 ≤ n → ∃ t, exec (.retransmit k) s = .next t ∧ tget t.sessions k = none ∧ (∀ j, j ≠ k → tget t.sessions j = tget s.sessions j) ∧
      tgetD t.dev.counters 2 0 = tgetD s.dev.counters 2 0 + 1 ∧ t.sent = s.sent) ∧
    (n < 8 → ∃ t y, exec (.retransmit k) s = .next t ∧ t.sent = s.sent ++ [{ fr with ack := x.rxNext - 1, vlan := s.dev.vlan }] ∧
      tget t.sessions k = some y ∧ ({ fr with ack := x.rxNext - 1, vlan := s.dev.vlan }, n + 1, s.cycle + 2 ^ 21) ∈ y.unacked ∧
      y.unacked.length = x.unacked.length ∧ { y with unacked := [] } = { x with unacked := [] })) ∧
  (∀ ins h r p f d s, HelloForm ins h r p f d → DatagramArrives s h → HeaderOf h → (1 < r ∨ 3 ≤ f ∨ (r = 1 ∧ f ≠ 0)) →
    exec ins s = .next (helloRefused s h 4)) ∧
  (∀ ins h r p f d s, HelloForm ins h r p f d → DatagramArrives s h →
    (h.type = none → h.fits = false → exec ins s = .next (helloRefused s h 4)) ∧
    (∀ k, h.type = some k → (k = 5 ∨ k = 0 ∨ 8 < k) → exec ins s = .next (bumpMgmt s 1 1))) ∧
  (∀ ins h p d s, HelloForm ins h 1 p 0 d → DatagramArrives s h → HeaderOf h →
    (tget s.parts p = none → exec ins s = .next (helloRefused s h 5)) ∧
    (∀ q, tget s.parts p = some q → ∃ t, exec ins s = .next t ∧ SessionOpens s s t h false p ∧
      tget t.parts p = some { q with session := some s.nextSession } ∧ ∀ k, k ≠ p → tget t.parts k = tget s.parts k)) ∧
  (∀ ins h p d s, HelloForm ins h 0 p 0 d → DatagramArrives s h → HeaderOf h → ∃ t, exec ins s = .next t ∧ SessionOpens s s t h true 16 ∧ t.parts = s.parts) ∧
  (∀ h d s, DatagramArrives s h → HeaderOf h →
    (s.dev.run = .safe → exec (.helloCreate h 0 1 d) s = .next (helloRefused s h 1)) ∧
    (s.dev.run = .running → descriptorFits s d = false → exec (.helloCreate h 0 1 d) s = .next (helloRefused s h 4)) ∧
    (s.dev.run = .running → descriptorFits s d = true → (tget s.parts (byteField d 4 1)).isSome = true →
      exec (.helloCreate h 0 1 d) s = .next (helloRefused s h 1)) ∧
    (s.dev.run = .running → descriptorFits s d = true → s.parts = [] → s.dev.recal = [] →
      ∃ t q, exec (.helloCreate h 0 1 d) s = .next t ∧ SessionOpens s s t h true 16 ∧ tget t.parts (byteField d 4 1) = some q ∧
        (∀ k, k ≠ byteField d 4 1 → tget t.parts k = none) ∧
        (∀ c, c ∈ q.clusters ↔ c < 16 ∧ (byteField d 0 4).testBit c = true) ∧ (∀ k, k ∈ q.ports ↔ k < 24 ∧ (byteField d 8 4).testBit k = true) ∧
        q.quota = byteField d 12 4 ∧ q.weight = byteField d 5 1 ∧ q.boundary = 0 ∧ q.pstate = .compute ∧
        q.strag = (if byteField d 16 4 = 0 then 2 ^ 24 else byteField d 16 4) ∧
        q.exch = (if byteField d 20 4 = 0 then 2 ^ 22 else byteField d 20 4) ∧ q.spanTag = byteField d 24 2 ∧ q.spanSize = byteField d 26 2)) ∧
  (∀ h n s, DatagramArrives s h → HeaderOf h →
    (tget s.parts n = none → exec (.helloDestroy h 0 n 2) s = .next (helloRefused s h 5)) ∧
    (∀ p, tget s.parts n = some p → (∃ e ∈ s.launches, e.2.part = n ∧ e.2.phase ≠ .ended) →
      exec (.helloDestroy h 0 n 2) s = .next (helloRefused s h 1)) ∧
    (∀ p, tget s.parts n = some p → (∀ e ∈ s.launches, e.2.part = n → e.2.phase = .ended) →
      ∃ u t, exec (.helloDestroy h 0 n 2) s = .next t ∧ SessionOpens s u t h true 16 ∧ tget t.parts n = none ∧
        (∀ k, k ≠ n → tget t.parts k = tget s.parts k) ∧ (∀ e ∈ t.pages, e.2.part ≠ n) ∧ (∀ e ∈ t.launches, e.2.part ≠ n) ∧
        (∀ e ∈ t.engines, e.1 / 512 ∉ p.clusters) ∧ t.gmem = s.gmem))

/-- 07 R134, 10 R227, R229, R230, 21 R378, R380, R382, R383, R385, 23 R417, R420, R424. Waiting requests rest on log 67, START on logs 32 and 118, changes that wait for the boundary on logs 65, 66, 141 and 142, CKPT before the capture on log 73. -/
def Obligations.HostRequests : Prop :=
  (∀ ins h t r s x, SessionRequest ins h t r → NextInOrder s h x → HeaderOf h → x.admin = false → x.busy.isSome = true →
    exec ins s = .next { received s h with
      sessions := tmod (received s h).sessions h.session (fun y => { y with
        waiting := y.waiting ++ [{ arrival := s.nextId, origin := originOf h t, req := r }] }),
      nextId := s.nextId + 1 }) ∧
  (∀ ins h t r s x, SessionRequest ins h t r → NextInOrder s h x → h.type = none → x.admin = false → x.busy = none → x.waiting = [] →
    x.held = false →
    (h.fits = false → exec ins s = .next (replyTo (performing s h) h.session (originOf h t) 4 [])) ∧
    (∀ k op a b c v w d, h.fits = true → h.op = some k → (tget s.parts x.part).isSome = true →
      ((r = .xlate op a b c ∧ 5 < k) ∨ (r = .atomic op a v w ∧ 4 < k) ∨ (r = .ckpt op d ∧ 3 < k)) →
      exec ins s = .next (replyTo (performing s h) h.session (originOf h t) 4 []))) ∧
  (∀ s h x p, NextInOrder s h x → HeaderOf h → x.admin = false → x.busy = none → x.waiting = [] → x.held = false →
    tget s.parts x.part = some p →
    let answer := fun (u : State) (type status : Nat) (bytes : List Byte) => replyTo u h.session (originOf h type) status bytes
    let on := performing s h
    let n := x.part
    (∀ space a data, (a % 4 ≠ 0 ∨ data.length % 4 ≠ 0 ∨ data.length < 4 ∨ 8192 < data.length) → space ≠ 0x200 →
      exec (.load h space a data) s = .next (answer on 2 4 [])) ∧
    (∀ space a len, (a % 4 ≠ 0 ∨ len % 4 ≠ 0 ∨ len < 4 ∨ 8192 < len) → space ≠ 0x200 →
      exec (.read h space a len) s = .next (answer on 3 4 [])) ∧
    (∀ a data len, exec (.load h 0x200 a data) s = .next (answer on 2 2 []) ∧ exec (.read h 0x200 a len) s = .next (answer on 3 2 []) ∧
      exec (.loadHostPortRecord h data) s = .next (answer on 2 2 [])) ∧
    (∀ a data, runFits a data.length = true → ownedRange s n a data.length true = false →
      exec (.load h 0 a data) s = .next (answer on 2 2 [])) ∧
    (∀ a data, Memory.wf s.gmem = true → runFits a data.length = true → ownedRange s n a data.length true = true →
      boundRange s n a data.length = false → ∃ u, exec (.load h 0 a data) s = .next (answer u 2 0 []) ∧
        { u with gmem := [], lags := [], lost := [], parts := [] } = { on with gmem := [], lags := [], lost := [], parts := [] } ∧
        (∀ k, tget u.parts k = if k = n then some (hostWrote p a data.length) else tget s.parts k) ∧
        ∀ b, mread u.gmem b = if a ≤ b ∧ b < a + data.length then data.getD (b - a) 0#8 else mread s.gmem b) ∧
    (∀ a data, runFits a data.length = true → ownedRange s n a data.length true = true → boundRange s n a data.length = true →
      exec (.load h 0 a data) s = .next (holding s h 2 (.load 0 a data))) ∧
    (∀ a len, runFits a len = true → ownedRange s n a len false = true → boundRange s n a len = true →
      exec (.read h 0 a len) s = .next (holding s h 3 (.read 0 a len))) ∧
    (∀ a len, runFits a len = true → ownedRange s n a len false = true → boundRange s n a len = false →
      (lostIn s a len = false → exec (.read h 0 a len) s = .next (answer on 3 0 (mbytes s.gmem a len))) ∧
      (lostIn s a len = true → exec (.read h 0 a len) s = .next (answer on 3 2 []))) ∧
    (∀ c a data, Memory.wf s.cmem = true → c ∈ p.clusters → c < 16 → runFits a data.length = true → a + data.length ≤ Config.controlBytes →
      (ctlAt s c).running = false → ∃ u, exec (.load h (0x100 + c) a data) s = .next (answer u 2 0 []) ∧
        { u with cmem := [] } = { on with cmem := [] } ∧
        ∀ b, mread u.cmem b = if c * Config.controlBytes + a ≤ b ∧ b < c * Config.controlBytes + a + data.length
          then data.getD (b - (c * Config.controlBytes + a)) 0#8 else mread s.cmem b) ∧
    (∀ c a len, c ∈ p.clusters → c < 16 → runFits a len = true → a + len ≤ Config.controlBytes →
      exec (.read h (0x100 + c) a len) s = .next (answer on 3 0 (mbytes s.cmem (c * Config.controlBytes + a) len))) ∧
    (∀ c entry replace base image args, c ∉ p.clusters → exec (.start h c entry replace base image args) s = .next (answer on 4 2 [])) ∧
    (∀ c entry replace base image args off size, Memory.wf s.cmem = true → c ∈ p.clusters → ownedRange s n image 128 false = true →
      mreadN s.gmem image 4 = 0x4B4C525A → mreadN s.gmem (image + 4) 2 = 1 →
      crc32 (mbytes s.gmem image 120) = BitVec.ofNat 32 (mreadN s.gmem (image + 120) 4) →
      off = mreadN s.gmem (image + 88) 4 → size = mreadN s.gmem (image + 92) 4 → entry % 4 = 0 → entry < size →
      ownedRange s n (image + off) size false = true → base % 64 = 0 → base + size ≤ Config.controlBytes →
      ((ctlAt s c).running = true → replace = 0 → exec (.start h c entry replace base image args) s = .next (answer on 4 1 [])) ∧
      ((ctlAt s c).running = false ∨ replace ≠ 0 →
        ∃ u, exec (.start h c entry replace base image args) s = .next (answer u 4 0 []) ∧
          (ctlAt u c).running = true ∧ (ctlAt u c).base = base ∧ (ctlAt u c).size = size ∧ (ctlAt u c).pc = BitVec.ofNat 32 entry ∧
          (ctlAt u c).wait = .none ∧ (∀ k, tgetD (ctlAt u c).s k 0#32 = if k < 4 then args.getD k 0#32 else 0#32) ∧
          (∀ k, k < size → mread u.cmem (c * Config.controlBytes + base + k) = mread s.gmem (image + off + k)) ∧
          (∀ k, k ≠ c → clusterAt u k = clusterAt s k) ∧ u.gmem = s.gmem)) ∧
    (∀ a len arg, (a % 4 ≠ 0 ∨ arg ≠ 0) → exec (.xlateQuery h a len arg) s = .next (answer on 6 4 [])) ∧
    (∀ a len g, a % 4 = 0 → tget s.pages (a / Config.pageBytes) = some g → g.part = n →
      let bit := fun (b : Bool) => if b then 1 else 0
      exec (.xlateQuery h a len 0) s = .next (answer on 6 0 ([g.part, if g.writable then 3 else 1, bit g.shared, bit g.nonatomic,
        bit g.replicate, bit g.sysAtomic, g.home, 0].map (BitVec.ofNat 8)))) ∧
    (∀ a len arg u, a % Config.pageBytes = 0 → len % Config.pageBytes = 0 → a + len ≤ 2 ^ 64 → arg < 64 → (arg % 4 = 1 ∨ arg % 4 = 3) →
      (∀ g ∈ pagesOf a len, tget s.pages g = none) → (pagesOf a len).length ≤ quotaLeft s n p →
      mapPages on n arg (pagesOf a len) = some u → exec (.xlateMap h a len arg) s = .next (answer u 6 0 [])) ∧
    (∀ a len, a % Config.pageBytes = 0 → len % Config.pageBytes = 0 → a + len ≤ 2 ^ 64 → ownsPages s n a len = true →
      (resolvedRange s n a len = false → ∃ u, exec (.xlateUnmap h a len 0) s = .next (answer u 6 0 []) ∧
        (∀ g, tget u.pages g = if g ∈ pagesOf a len then none else tget s.pages g) ∧
        (∀ q, tget u.parts n = some q → ∀ x ∈ q.attrPend ++ q.movePend, x.1 ∉ pagesOf a len) ∧ u.gmem = s.gmem) ∧
      (resolvedRange s n a len = true → exec (.xlateUnmap h a len 0) s = .next (holding s h 6 (.xlate 2 a len 0)))) ∧
    (∀ a len arg, a % Config.pageBytes = 0 → len % Config.pageBytes = 0 → a + len ≤ 2 ^ 64 → arg % 8 = 0 → arg < 64 →
      ownsPages s n a len = true →
      (resolvedRange s n a len = false → ∃ u, exec (.xlateSetAttributes h a len arg) s = .next (answer u 6 0 []) ∧
        PartBecomes on u n { p with attrPend := p.attrPend ++ (pagesOf a len).map (fun g => (g, arg)) }) ∧
      (resolvedRange s n a len = true → exec (.xlateSetAttributes h a len arg) s = .next (holding s h 6 (.xlate 3 a len arg)))) ∧
    (∀ a len arg, a % 4 = 0 → len % 4 = 0 → arg < 16 → ownedRange s n a len true = true →
      tget p.windows arg = none → p.windowPend = [] → ∃ u, exec (.xlateBindFabricWindow h a len arg) s = .next (answer u 6 0 []) ∧
        PartBecomes on u n { p with windows := tput p.windows arg (a, len) }) ∧
    (∀ a len arg w, a % 4 = 0 → len % 4 = 0 → arg < 16 → (len = 0 ∨ ownedRange s n a len false = true) → tget p.windows arg = some w →
      ∃ u, exec (.xlateBindFabricWindow h a len (16 + arg)) s = .next (answer u 6 0 []) ∧
        PartBecomes on u n { p with windowPend := p.windowPend ++ [(arg, none)] }) ∧
    (∀ a len arg, a % Config.pageBytes = 0 → len % Config.pageBytes = 0 → a + len ≤ 2 ^ 64 → arg < 8 → ownsPages s n a len = true →
      ∃ u, exec (.xlateMigrate h a len arg) s = .next (answer u 6 0 []) ∧
        PartBecomes on u n { p with movePend := p.movePend ++ (pagesOf a len).map (fun g => (g, arg)) }) ∧
    (∀ ins op a v c g, PartitionRequest ins h 7 (.atomic op a v c) → let size := if op = 1 ∨ op = 4 then 8 else 4
      (a % size ≠ 0 → exec ins s = .next (answer on 7 4 [])) ∧
      (a % size = 0 → ownedRange s n a size true = false → exec ins s = .next (answer on 7 2 [])) ∧
      (a % size = 0 → ownedRange s n a size true = true → tget s.pages (a / Config.pageBytes) = some g → g.sysAtomic = false →
        exec ins s = .next (answer (bumpMgmt on 3 1) 7 3 [])) ∧
      (Memory.wf s.gmem = true → a % size = 0 → ownedRange s n a size true = true → tget s.pages (a / Config.pageBytes) = some g →
        g.sysAtomic = true → boundRange s n a size = false → lostIn s a size = false →
        ∃ u, exec ins s = .next (answer u 7 0 (natLE 8 (mreadN s.gmem a size))) ∧
          { u with gmem := [], lags := [], lost := [], parts := [] } = { on with gmem := [], lags := [], lost := [], parts := [] } ∧
          (∀ k, tget u.parts k = if k = n ∧ (op ≤ 2 ∨ mreadN s.gmem a size = c.toNat % 2 ^ (8 * size)) then some (hostWrote p a size)
            else tget s.parts k) ∧
          mreadN u.gmem a size = hostAtomicValue op (mreadN s.gmem a size) v.toNat c.toNat ∧
          ∀ b, ¬(a ≤ b ∧ b < a + size) → mread u.gmem b = mread s.gmem b)) ∧
    (∀ d, descFits d = true → (p.ckpt.phase ≠ 1 → p.ckpt.phase ≠ 2 → ∃ u, exec (.ckptMsgStart h d) s =
        .next { u with sessions := tmod u.sessions h.session (fun y => { y with busy := some (originOf h 8) }) } ∧
        PartBecomes on u n { p with ckpt := { p.ckpt with phase := 1, desc := d, starter := some (.host h.session), waiters := [] } }) ∧
      ((p.ckpt.phase = 1 ∨ p.ckpt.phase = 2) → exec (.ckptMsgStart h d) s = .next (answer on 8 0 (natLE 4 2)) ∧
        exec (.ckptMsgPoll h d) s = .next (answer on 8 0 (natLE 4 1)) ∧ exec (.ckptMsgRstor h d) s = .next (answer on 8 0 (natLE 4 2)) ∧
        ∃ u, exec (.ckptMsgWait h d) s = .next { u with sessions := tmod u.sessions h.session (fun y => { y with busy := some (originOf h 8) }) } ∧
          PartBecomes on u n { p with ckpt := { p.ckpt with waiters := p.ckpt.waiters ++ [.host h.session] } }) ∧
      (∀ k v, (k, v) ∈ [(0, 6), (3, 0), (4, 5)] → p.ckpt.phase = k →
        exec (.ckptMsgWait h d) s = .next (answer on 8 0 (natLE 4 v)) ∧ exec (.ckptMsgPoll h d) s = .next (answer on 8 0 (natLE 4 v))) ∧
      (p.ckpt.phase ≠ 1 → p.ckpt.phase ≠ 2 → p.ckpt.restoring = none → (∀ e ∈ s.launches, e.2.part = n → e.2.phase = .ended) →
        ∃ u, exec (.ckptMsgRstor h d) s = .next { u with sessions := tmod u.sessions h.session (fun y => { y with busy := some (originOf h 8) }) } ∧
          PartBecomes on u n { p with ckpt := { p.ckpt with restoring := some (.host h.session, d) } })) ∧
    (∀ d, descFits d = false → exec (.ckptMsgStart h d) s = .next (answer on 8 0 (natLE 4 3)) ∧
      exec (.ckptMsgWait h d) s = .next (answer on 8 0 (natLE 4 3)) ∧ exec (.ckptMsgPoll h d) s = .next (answer on 8 0 (natLE 4 3)) ∧
      exec (.ckptMsgRstor h d) s = .next (answer on 8 0 (natLE 4 3)))) ∧
  (∀ s n arg g k, tget (setAttributes s n arg g).pages k =
    if k = g then (tget s.pages k).map (fun p => if p.part = n then attributed arg p else p) else tget s.pages k) ∧
  (∀ s n arg gs u, mapPages s n arg gs = some u →
    (∀ g ∈ gs, ∃ p, tget u.pages g = some p ∧ (p.part, p.writable, p.shared, p.nonatomic, p.replicate, p.sysAtomic) =
        (n, arg % 4 == 3, arg / 4 % 2 == 1, arg / 8 % 2 == 1, arg / 16 % 2 == 1, arg / 32 % 2 == 1) ∧
      ∀ b, b / Config.pageBytes = g → mread u.gmem b = 0#8) ∧
    (∀ g, g ∉ gs → tget u.pages g = tget s.pages g ∧ ∀ b, b / Config.pageBytes = g → mread u.gmem b = mread s.gmem b))

end

namespace Sys2Proof

open Sys2Proof.Machine

/-! ### Words and steps (03 R56-R70, 04 R81-R90, 24 R442) -/

/-- The instructions of the test access port, each with its code; they are no words of a program (23 R426). -/
inductive PortCode : Instr → Nat → Prop
  | idcode : PortCode .idcode 0x01
  | segsel (n) : PortCode (.segsel n) (0x20 + 256 * n)
  | segread : PortCode .segread 0x21
  | bypass : PortCode .bypass 0xFF

/-- A word from its fields, each with the position of its low bit (00 R4, 03 R56). -/
def wordOf (fields : List (Nat × Nat)) : Nat := fields.foldl (fun w f => w + f.1 * 2 ^ f.2) 0

/-- The state in which the next move of an agenda takes place: the cycles before it have passed, unless the device is
frozen (05 R107, 23 R425), and a partition notes its last arrival (24 R434). What has come in a cycle is noted for that
cycle alone. -/
def atMove (s : State) (d : Nat) (rest : List (Nat × Move)) : State :=
  { s with
    agenda := rest,
    parts := noteArrivals s,
    cycle := if s.dev.frozen = .none then s.cycle + d else s.cycle,
    turn := if d = 0 then s.turn else [] }

/-- The issue of the target of a run (03 R65): its hints, the address of the first word and of the target. -/
def issueOf (a : Actor) (pc : Word) (ws : List Nat) (r : Run) : Issue :=
  { actor := a, hints := r.hints, runPc := pc, pc := pc + BitVec.ofNat 32 (4 * r.offset), word := BitVec.ofNat 32 r.word,
    first := BitVec.ofNat 32 (ws.headD 0) }

end Sys2Proof

section

open Sys2Proof Sys2Proof.Machine

/-- 03 R56, R60, R66-R70, 04 R83, R87. -/
def Obligations.DecodeOfEncode : Prop :=
  (∀ i w, wellFormed i = true → encode i = some w → (¬∃ k, PortCode i k) → w < 2 ^ 32 ∧ decodeWord w = .ok i ∧ decodeTableWord 32 w = some i) ∧
  (∀ i w, decodeWord w = .ok i → wellFormed i = true ∧ encode i = some w) ∧
  (∀ h, hintLegal h = true → encodeHint h < 2 ^ 26 ∧ decodeHint (encodeHint h) = .ok h) ∧
  (∀ h w, decodeHint w = .ok h → hintLegal h = true ∧ encodeHint h = w) ∧
  (∀ i k, PortCode i k → encode i = some k ∧ decodeTap k = .ok i)

/-- The canonical form is the model's; what the memories hold is 08 R178, 21 R378. -/
def Obligations.StepKeepsMemoriesCanonical : Prop :=
  ∀ s t, memoriesWf s = true → Machine.step s = .next t → memoriesWf t = true

/-- 24 R442, R443, 05 R107, 08 R163. The healthy part, the empty ring of notices and the empty counters are the choice of log 1 (24 R433 posts a notice for a completed start); zero HBM is that of log 108. -/
def Obligations.ResetState : Prop :=
  let s := State.reset
  s.cycle = 0 ∧ s.chipPhase = 0 ∧ deviceRuns s = true ∧ memoriesWf s = true ∧
  (∀ c, c < 16 → tgetD s.dev.cores c [] = List.range 64) ∧ (∀ k, k < 1024 → tgetD s.dev.lats k [] = [0, 1]) ∧
  s.dev.hbm = List.range 16 ∧ configNum s.dev = 0 ∧ Erased s ∧
  (∀ a, mread s.lmem a = 0#8 ∧ mread s.lbits a = 0#8 ∧ mread s.cmem a = 0#8 ∧ mread s.gmem a = 0#8) ∧
  s.biased = [] ∧ s.dev.notices = [] ∧ s.dev.counters = [] ∧ s.dev.portDown = []

/-- 03 R56, R65, 04 R81, R85, R88-R90. The order of moves is the model's agenda (log 3); that one which comes out of its turn in a cycle changes nothing then is log 138. -/
def Obligations.StepRunsDecodedInstruction : Prop :=
  (∀ s d gid set rest g t l, s.agenda = (d, .issue gid set) :: rest → let u := atMove s d rest
    deviceRuns u = true → groupTriple u gid = some (g, t, l) → t.killed = false → setAdmitted u l g gid set = true →
    let pc := (laneAt g.regs (leastD (setLanes g.regs set) 0)).pc
    let ws := sectionRun l.text pc.toNat
    pc.toNat ≠ 4 * l.text.length →
    (∀ i, (decodeRun 4 ws {} 0).instr = .ok i →
      Machine.step s = exec i { u with issue := issueOf (.group gid set) pc ws (decodeRun 4 ws {} 0) }) ∧
    (∀ e, (decodeRun 4 ws {} 0).instr = .error e → ∃ is, is.actor = .group gid set ∧ is.runPc = pc ∧
      Machine.step s = exec .illegalInstruction { u with issue := is })) ∧
  (∀ s d c rest, s.agenda = (d, .control c) :: rest → let u := atMove s d rest
    deviceRuns u = true → (ctlAt u c).running = true → (partOf u c).isSome = true →
    let pc := (ctlAt u c).pc
    let ws := controlRun u c (ctlAt u c)
    (∀ i, (decodeRun 4 ws {} 0).instr = .ok i →
      (inTurn u (.control c) i = true →
        Machine.step s = exec i (noteTurn { u with issue := issueOf (.control c) pc ws (decodeRun 4 ws {} 0) } (.control c) i)) ∧
      (inTurn u (.control c) i = false → Machine.step s = .next u)) ∧
    (∀ e, (decodeRun 4 ws {} 0).instr = .error e → ∃ is, is.actor = .control c ∧ is.runPc = pc ∧
      Machine.step s = exec .ctlIllegal { u with issue := is })) ∧
  (∀ s d core unit rest q w, s.agenda = (d, .sequencer core unit) :: rest → let u := atMove s d rest
    deviceRuns u = true → seqAt u core unit = some q → q.p.op = none → q.p.sweeps = 0 → q.p.health = none → q.p.fabWait = false →
    q.p.sweptAt = none →
    (match q.p.kind with | .copy => q.l.copy | .exchange => q.l.exch | .lattice => q.l.latt)[q.p.pc / 4]? = some w →
    let is : Issue := { actor := .sequencer core unit, runPc := BitVec.ofNat 32 q.p.pc, pc := BitVec.ofNat 32 q.p.pc, word := w, first := w }
    (∀ i, decodeWord w.toNat = .ok i →
      (inTurn u (.sequencer core unit) i = true →
        Machine.step s = exec i (noteTurn { u with issue := is } (.sequencer core unit) i)) ∧
      (inTurn u (.sequencer core unit) i = false → Machine.step s = .next u)) ∧
    (∀ e, decodeWord w.toNat = .error e → Machine.step s = exec .engineIllegal { u with issue := is })) ∧
  (∀ s d i rest, s.agenda = (d, .event i) :: rest → (encode i = none ∨ ∃ k, PortCode i k) → i ≠ .illegalInstruction → i ≠ .ctlIllegal → i ≠ .engineIllegal →
    (inTurn (atMove s d rest) (.event i) i = true →
      Machine.step s = exec i (noteTurn { atMove s d rest with issue := {} } (.event i) i)) ∧
    (inTurn (atMove s d rest) (.event i) i = false → Machine.step s = .next (atMove s d rest))) ∧
  -- happenings of one cycle come in their order (08 R163, R181, 07 R140, R148, 11 R253, 23 R421, R429, 24 R445); every other move in any
  (∀ s m i, inTurn s m i = match turnPlace m i with
    | some (k, p) => decide (tgetD s.turn k 0 ≤ p)
    | none => true) ∧
  (∀ s m i k p, turnPlace m i = some (k, p) → tgetD (noteTurn s m i).turn k 0 = p ∧ { noteTurn s m i with turn := s.turn } = s) ∧
  (∀ s, s.agenda = [] → Machine.step s = Machine.step { s with agenda := [Config.freeMove s.freeCount], freeCount := s.freeCount + 1 }) ∧
  (∀ n w ws hs k, w / 2 ^ 26 % 32 ≠ 0 → decodeRun n (w :: ws) hs k = { hints := hs, offset := k, word := w, instr := decodeWord w }) ∧
  (∀ n h ws hs hs' k, hintLegal h = true → addHint hs h = some hs' →
    decodeRun (n + 1) (encodeHint h :: ws) hs k = decodeRun n ws hs' (k + 1))

/-- 03 R56, R60, 04 R83 and the opcode tables of the chapters. -/
def Obligations.SampleWordsDecode : Prop :=
  decodeTableWord 32 (wordOf [(1, 31), (1, 26), (5, 20), (2, 14), (1, 12), (3, 6), (2, 4), (0, 0)]) = some (.iadd true 5#6 { reg := 2#6, use := .last } { reg := 3#6, use := .keep }) ∧
  decodeTableWord 32 (wordOf [(2, 26), (7, 20), (9, 14), (254, 0)]) = some (.iaddi false 7#6 { reg := 9#6, use := .plain } 0xFE#8) ∧
  decodeTableWord 32 (wordOf [(3, 26), (1, 20), (63, 14), (3, 12), (4, 0)]) = some (.clz false 1#6 { reg := 63#6, use := .routed }) ∧
  decodeTableWord 32 (wordOf [(4, 26), (4, 20), (5, 14), (6, 6)]) = some (.fadd false 4#6 { reg := 5#6, use := .plain } { reg := 6#6, use := .plain }) ∧
  decodeTableWord 32 (wordOf [(5, 26), (4, 20), (5, 14), (6, 6), (1, 3)]) = some (.hadd false 4#6 { reg := 5#6, use := .plain } { reg := 6#6, use := .plain } 1#1) ∧
  decodeTableWord 32 (wordOf [(6, 26), (8, 20), (9, 14)]) = some (.cvf2i false 8#6 { reg := 9#6, use := .plain }) ∧
  decodeTableWord 32 (wordOf [(7, 26), (8, 20), (9, 14), (2, 0)]) = some (.rcp false 8#6 { reg := 9#6, use := .plain }) ∧
  decodeTableWord 32 (wordOf [(8, 26), (1, 23), (6, 20), (1, 14), (2, 6), (2, 0)]) = some (.icmpLt false 1#3 6#3 { reg := 1#6, use := .plain } { reg := 2#6, use := .plain }) ∧
  decodeTableWord 32 (wordOf [(9, 26), (1, 20), (2, 14), (3, 6)]) = some (.shfl false 1#6 { reg := 2#6, use := .plain } { reg := 3#6, use := .plain }) ∧
  decodeTableWord 32 (wordOf [(10, 26), (1, 20), (2, 14), (3, 6), (1, 0)]) = some (.ssub false 1#6 { reg := 2#6, use := .plain } { reg := 3#6, use := .plain }) ∧
  decodeTableWord 32 (wordOf [(11, 26), (1, 20), (2, 14), (128, 0)]) = some (.saddi false 1#6 { reg := 2#6, use := .plain } 0x80#8) ∧
  decodeTableWord 32 (wordOf [(12, 26), (1, 20), (2, 14), (1, 0)]) = some (.vfroms false 1#6 { reg := 2#6, use := .plain }) ∧
  decodeTableWord 32 (wordOf [(13, 26), (1, 20), (2, 14), (255, 4), (1, 0)]) = some (.ld8s false 1#6 { reg := 2#6, use := .plain } 0xFF#8) ∧
  decodeTableWord 32 (wordOf [(1, 31), (14, 26), (1, 20), (2, 14), (4, 4), (2, 0)]) = some (.st32 true 1#6 { reg := 2#6, use := .plain } 4#8) ∧
  decodeTableWord 32 (wordOf [(15, 26), (1, 20), (2, 14), (3, 6), (1, 0)]) = some (.amin false 1#6 { reg := 2#6, use := .plain } { reg := 3#6, use := .plain }) ∧
  decodeTableWord 32 (wordOf [(16, 26), (15, 20), (2, 14), (3, 6), (2, 0)]) = some (.gredRmini false 15#4 { reg := 2#6, use := .plain } { reg := 3#6, use := .plain }) ∧
  decodeTableWord 32 (wordOf [(17, 26), (1, 22), (3, 19), (524287, 0)]) = some (.brt false 3#3 0x7FFFF#19) ∧
  decodeTableWord 32 (wordOf [(18, 26), (31, 14)]) = some (.jr false { reg := 31#6, use := .plain }) ∧
  decodeTableWord 32 (wordOf [(19, 26), (2, 22), (11, 18)]) = some (.mwait false 11#4) ∧
  decodeTableWord 32 (wordOf [(20, 26), (2, 22), (175053, 0)]) = some (.phase false 0x2ABCD#18) ∧
  decodeTableWord 32 (wordOf [(21, 26), (2, 14), (3, 6)]) = some (.spawn false { reg := 2#6, use := .plain } { reg := 3#6, use := .plain }) ∧
  decodeTableWord 32 (wordOf [(22, 26), (1, 22), (2, 19), (3, 12), (1, 11), (5, 8), (6, 4), (10, 0)]) = some (.mma false 1#4 2#3 3#4 1#1 5#3 6#4 10#4) ∧
  decodeTableWord 32 (wordOf [(23, 26), (1, 20), (2, 14), (15, 8), (1, 0)]) = some (.tldt8 false 1#6 { reg := 2#6, use := .plain } 15#4) ∧
  decodeTableWord 32 (wordOf [(24, 26), (1, 20), (2, 14), (2, 0)]) = some (.unif false 1#6 { reg := 2#6, use := .plain }) ∧
  decodeTableWord 32 (wordOf [(25, 26), (1, 20), (2, 14), (3, 6), (2, 0)]) = some (.argmax false 1#6 { reg := 2#6, use := .plain } { reg := 3#6, use := .plain }) ∧
  decodeTableWord 32 (wordOf [(26, 26), (3, 20), (2, 14)]) = some (.forkc false 3#2 { reg := 2#6, use := .plain }) ∧
  decodeTableWord 32 (wordOf [(27, 26), (1, 20), (2, 14), (3, 6), (1, 0)]) = some (.lnld false 1#4 2#4 3#4) ∧
  decodeTableWord 32 (wordOf [(28, 26), (1, 20), (2, 14), (31, 6)]) = some (.xcp false 1#5 2#5 31#5) ∧
  decodeTableWord 32 (wordOf [(29, 26), (165, 4)]) = some (.trap false 0xA5#8) ∧
  decodeTableWord 32 (wordOf [(30, 26), (1, 20), (2, 14), (2, 0)]) = some (.evpop false 1#6 2#6)

end
end

