-- ==== Sys2Proof/Laws/Table.lean ====
section
/-! SUPPORT. Reading a table after its operations: a write is read back, and leaves every other key alone. -/

namespace Sys2Proof.Machine

@[simp] theorem tget_tput_self {α : Type} (t : Table α) (k : Nat) (a : α) : tget (tput t k a) k = some a := by
  induction t with
  | nil => simp [tput, tget]
  | cons e rest ih =>
    obtain ⟨j, b⟩ := e
    simp only [tput]
    split
    · simp [tget]
    · split
      · simp [tget]
      · have : ¬ j = k := fun h => by simp_all
        simp [tget, this, ih]

theorem tget_tput_ne {α : Type} (t : Table α) (k j : Nat) (a : α) (h : j ≠ k) : tget (tput t k a) j = tget t j := by
  induction t with
  | nil => simp [tput, tget, Ne.symm h]
  | cons e rest ih =>
    obtain ⟨m, b⟩ := e
    simp only [tput]
    split
    · simp [tget, Ne.symm h]
    · split
      · rename_i hk
        subst hk
        simp [tget, Ne.symm h]
      · simp [tget, ih]

theorem tget_tput {α : Type} (t : Table α) (k j : Nat) (a : α) :
    tget (tput t k a) j = if j = k then some a else tget t j := by
  by_cases h : j = k
  · subst h; simp
  · simp [h, tget_tput_ne _ _ _ _ h]

@[simp] theorem tgetD_tput_self {α : Type} (t : Table α) (k : Nat) (a d : α) : tgetD (tput t k a) k d = a := by
  simp [tgetD]

theorem tgetD_tput_ne {α : Type} (t : Table α) (k j : Nat) (a d : α) (h : j ≠ k) :
    tgetD (tput t k a) j d = tgetD t j d := by
  simp [tgetD, tget_tput_ne _ _ _ _ h]

theorem tget_tmap {α : Type} (t : Table α) (f : Nat → α → α) (k : Nat) :
    tget (tmap t f) k = (tget t k).map (f k) := by
  induction t with
  | nil => rfl
  | cons e rest ih =>
    obtain ⟨j, b⟩ := e
    by_cases h : j = k
    · subst h; simp [tmap, tget]
    · have := ih
      simp only [tmap, List.map_cons, tget, h, if_false] at this ⊢
      exact this

theorem tmap_id {α : Type} (t : Table α) (f : Nat → α → α) (h : ∀ k a, f k a = a) : tmap t f = t := by
  simp [tmap, h]

theorem tget_tmod {α : Type} (t : Table α) (k j : Nat) (f : α → α) :
    tget (tmod t k f) j = if j = k then (tget t j).map f else tget t j := by
  induction t with
  | nil => simp [tmod, tget]
  | cons e rest ih =>
    obtain ⟨m, b⟩ := e
    by_cases h : m = k <;> by_cases h2 : m = j <;> simp_all [tmod, tget]

end Sys2Proof.Machine
end

