-- ==== Sys2Proof/Laws/Finish.lean ====
section
/-! SUPPORT. What the end of a group's word can change: `Quiet a b` says that group b has the register files, the place
and the uncommitted effects of a; every operation that finishes a word is quiet. -/

namespace Sys2Proof.Machine

open Sys2Proof

/-- Group b has the registers, the place and the uncommitted effects of group a. -/
structure Quiet (a b : Group) : Prop where
  v : b.regs.v = a.regs.v
  s : b.regs.s = a.regs.s
  p : b.regs.p = a.regs.p
  tiles : b.regs.tiles = a.regs.tiles
  accs : b.regs.accs = a.regs.accs
  masks : b.regs.masks = a.regs.masks
  unjoined : b.regs.unjoined = a.regs.unjoined
  trap : (b.regs.trap.cause, b.regs.trap.pc, b.regs.trap.addr, b.regs.trap.done, b.regs.trap.after) =
    (a.regs.trap.cause, a.regs.trap.pc, a.regs.trap.addr, a.regs.trap.done, a.regs.trap.after)
  place : standingOf b = standingOf a
  flights : b.flights = a.flights
  stores : ownStores b = ownStores a
  tags : ownTags b = ownTags a
  effs : ownEffs b = ownEffs a

theorem Quiet.refl (a : Group) : Quiet a a := ⟨rfl, rfl, rfl, rfl, rfl, rfl, rfl, rfl, rfl, rfl, rfl, rfl, rfl⟩

theorem Quiet.trans {a b c : Group} (h : Quiet a b) (k : Quiet b c) : Quiet a c :=
  ⟨k.v.trans h.v, k.s.trans h.s, k.p.trans h.p, k.tiles.trans h.tiles, k.accs.trans h.accs, k.masks.trans h.masks,
    k.unjoined.trans h.unjoined, k.trap.trans h.trap, k.place.trans h.place, k.flights.trans h.flights,
    k.stores.trans h.stores, k.tags.trans h.tags, k.effs.trans h.effs⟩

/-- A change of lanes, of the running set and of the next set number is quiet. -/
theorem quiet_lanes (g : Group) (ls : Table Lane) (n : Nat) :
    Quiet g { g with regs := { g.regs with lanes := ls }, nextSet := n } :=
  ⟨rfl, rfl, rfl, rfl, rfl, rfl, rfl, rfl, rfl, rfl, rfl, rfl, rfl⟩

theorem ite_quiet (b : Bool) (g a : Group) (h : Quiet g a) : Quiet g (if b = true then a else g) := by
  cases b
  · exact Quiet.refl g
  · exact h

theorem placeLanes_quiet (i : In) (f : Table Fate) (g : Group) : Quiet g (placeLanes i f g) := quiet_lanes g _ _

theorem takeTrap_quiet (g : Group) (ls : List Nat) (tr : Table (Nat × Word)) (pc after : Word) (nd : Bool)
    (cs : Table Nat) (win : Option Nat) : Quiet g (takeTrap g ls tr pc after nd cs win) := by
  cases tr with
  | nil => exact Quiet.refl g
  | cons e rest => exact ⟨rfl, rfl, rfl, rfl, rfl, rfl, rfl, rfl, rfl, rfl, rfl, rfl, rfl⟩

theorem freeSlot_quiet (g : Group) (c : GroupCore) (h : Quiet g { g with regs := c }) :
    Quiet g { g with regs := freeSlot c } := by
  unfold freeSlot
  split
  · exact ⟨h.v, h.s, h.p, h.tiles, h.accs, h.masks, h.unjoined, h.trap, rfl, rfl, rfl, rfl, rfl⟩
  · exact h

theorem setRunning_quiet (g : Group) (r : Option Nat) : Quiet g { g with running := r } :=
  ⟨rfl, rfl, rfl, rfl, rfl, rfl, rfl, rfl, rfl, rfl, rfl, rfl, rfl⟩

theorem leaveMasks_nil (c : GroupCore) : leaveMasks [] c = c := by
  have : tmap c.masks (fun _ m => m &&& ~~~(maskOf [])) = c.masks := tmap_id _ _ (fun _ a => BitVec.and_allOnes (x := a))
  simp [leaveMasks, this]

theorem releaseMask_quiet (q : Nat) (g : Group) (k : Nat) : Quiet g (releaseMask q g k) := by
  unfold releaseMask
  dsimp only
  split
  · exact quiet_lanes g _ _
  · exact Quiet.refl g

theorem releaseMasks_quiet (q : Nat) (g : Group) : Quiet g (releaseMasks q g) := by
  unfold releaseMasks
  generalize upto 12 = l
  induction l generalizing g with
  | nil => exact Quiet.refl g
  | cons k rest ih => exact (releaseMask_quiet q g k).trans (ih _)

theorem endSwitch_lanes (c : GroupCore) : ∃ ls, endSwitch c = { c with lanes := ls } := by
  unfold endSwitch
  split
  · exact ⟨c.lanes, rfl⟩
  · exact ⟨_, rfl⟩

theorem endChunk_quiet (n : Nat) (g : Group) : Quiet g (endChunk n g) := by
  unfold endChunk
  split
  · exact Quiet.refl g
  · rename_i c hc
    split
    · refine ⟨rfl, rfl, rfl, rfl, rfl, rfl, rfl, rfl, rfl, rfl, ?_, ?_, ?_⟩ <;>
        simp [ownStores, ownTags, ownEffs, ownChunks, hc]
    · exact Quiet.refl g

/-- A change of the parked sub-groups is quiet, in the state and in the shadows. -/
theorem mapCores_quiet (f : GroupCore → GroupCore) (g : Group)
    (h : ∀ c : GroupCore, ∃ ps, f c = { c with trap := { c.trap with parks := ps } }) :
    Quiet g (mapCores f g) ∧ withoutTrap (mapCores f g).regs = withoutTrap g.regs := by
  obtain ⟨ps, hp⟩ := h g.regs
  constructor
  · refine ⟨?_, ?_, ?_, ?_, ?_, ?_, ?_, ?_, ?_, rfl, ?_, ?_, ?_⟩ <;>
      (cases hc : g.cur <;>
        simp [mapCores, hp, standingOf, ownStores, ownTags, ownEffs, ownChunks, hc, List.flatMap, Function.comp_def])
  · simp [mapCores, hp, withoutTrap]

/-- What opening or settling a window of FP traps may change: parked sub-groups, and the window of the team. -/
structure WindowOnly (s t : State) : Prop where
  device : outside t = outside s
  cores : t.cores = s.cores
  nextId : t.nextId = s.nextId
  none : ∀ k, tget s.groups k = none → tget t.groups k = none
  some : ∀ k g, tget s.groups k = some g → ∃ g', tget t.groups k = some g' ∧ Quiet g g' ∧ withoutTrap g'.regs = withoutTrap g.regs
  teams : ∀ k n, (tget t.teams k).map (fun u => teamReg u n) = (tget s.teams k).map (fun u => teamReg u n)

theorem WindowOnly.refl (s : State) : WindowOnly s s :=
  ⟨rfl, rfl, rfl, fun _ h => h, fun _ g h => ⟨g, h, Quiet.refl g, rfl⟩, fun _ _ => rfl⟩

theorem WindowOnly.trans {a b c : State} (h : WindowOnly a b) (k : WindowOnly b c) : WindowOnly a c where
  device := k.device.trans h.device
  cores := k.cores.trans h.cores
  nextId := k.nextId.trans h.nextId
  none := fun n e => k.none n (h.none n e)
  some := fun n g e => by
    obtain ⟨g', e', q, w⟩ := h.some n g e
    obtain ⟨g'', e'', q', w'⟩ := k.some n g' e'
    exact ⟨g'', e'', q.trans q', w'.trans w⟩
  teams := fun n m => (k.teams n m).trans (h.teams n m)

theorem setTeam_windowOnly (s : State) (tid : Nat) (t : Team) (w : FpWindow) (h : tget s.teams tid = some t) :
    WindowOnly s (setTeam s tid { t with fp := w }) := by
  refine ⟨rfl, rfl, rfl, fun _ h => h, fun _ g h => ⟨g, h, Quiet.refl g, rfl⟩, fun k n => ?_⟩
  simp only [setTeam, tget_tput]
  split
  · rename_i e; subst e; simp [h, teamReg]
  · rfl

theorem assignWindow_windowOnly (s : State) (tid n : Nat) (pick : Park → Bool) :
    WindowOnly s (assignWindow s tid n pick) := by
  refine ⟨rfl, rfl, rfl, fun k h => ?_, fun k g h => ?_, fun _ _ => rfl⟩
  · simp [assignWindow, tget_tmap, h]
  · simp only [assignWindow, tget_tmap, h, Option.map_some]
    split
    · exact ⟨_, rfl, (mapCores_quiet _ g (fun c => ⟨_, rfl⟩))⟩
    · exact ⟨g, rfl, Quiet.refl g, rfl⟩

theorem openWindow_windowOnly (s : State) (tid : Nat) : WindowOnly s (openWindow s tid) := by
  unfold openWindow
  split
  · exact WindowOnly.refl s
  · rename_i t ht
    split
    · exact WindowOnly.refl s
    · dsimp only
      split
      · exact WindowOnly.refl s
      · split
        · split
          · exact WindowOnly.refl s
          · exact setTeam_windowOnly s tid t _ ht
        · split
          · exact WindowOnly.refl s
          · exact (setTeam_windowOnly s tid t _ ht).trans (assignWindow_windowOnly _ _ _ _)

theorem settleWindow_windowOnly (s : State) (tid : Nat) : WindowOnly s (settleWindow s tid) := by
  unfold settleWindow
  split
  · exact WindowOnly.refl s
  · rename_i t ht
    dsimp only
    split
    · exact (setTeam_windowOnly s tid t _ ht).trans (openWindow_windowOnly _ _)
    · exact WindowOnly.refl s

theorem enterWindow_regs (c : Nat) (l : Launch) (t : Team) (fp h : Bool) (n : Nat) :
    teamReg (enterWindow c l t fp h).1 n = teamReg t n := by
  unfold enterWindow
  split
  · rfl
  · split
    · rfl
    · rfl

theorem bumpTeam_reg_ne (t : Team) (m k n : Nat) (h : n ≠ m) : teamReg (bumpTeam t m k) n = teamReg t n := by
  simp [teamReg, bumpTeam, tgetD_tput_ne _ _ _ _ _ h]

theorem hazardTeam_reg (t : Team) (b : Bool) (n : Nat) (h : n ≠ 9) :
    teamReg (if b then bumpTeam t 9 1 else t) n = teamReg t n := by
  cases b
  · rfl
  · exact bumpTeam_reg_ne t 9 1 n h

/-- What the device holds outside the issuing group after a word that changes no core and no team beside its hazards. -/
structure Outer (i : In) (t : State) (g : Group) : Prop where
  device : outside t = outside i.s
  cores : t.cores = i.s.cores
  groups : ∀ k, k ≠ i.gid → (tget t.groups k).map (fun x => withoutTrap x.regs) = (tget i.s.groups k).map (fun x => withoutTrap x.regs)
  teams : ∀ k n, n ≠ 9 → (tget t.teams k).map (fun u => teamReg u n) = (tget i.s.teams k).map (fun u => teamReg u n)

theorem WindowOnly.outer {i : In} {a b : State} {g : Group} (h : WindowOnly a b) (k : Outer i a g) : Outer i b g where
  device := h.device.trans k.device
  cores := h.cores.trans k.cores
  groups := fun n e => by
    rw [← k.groups n e]
    cases c : tget a.groups n with
    | none => rw [h.none n c]
    | some x =>
      obtain ⟨y, hy, _, hw⟩ := h.some n x c
      simp [hy, hw]
  teams := fun n m e => (h.teams n m).trans (k.teams n m e)

theorem putBack_outer (i : In) (w : Work) (g : Group) (t : Team) (hc : w.core = tgetD i.s.cores i.g.core {})
    (ht : tget i.s.teams i.g.team = some i.t) (hr : ∀ n, n ≠ 9 → teamReg t n = teamReg i.t n) :
    Outer i (putBack i w g t) g where
  device := rfl
  cores := by simp [putBack, hc]
  groups := fun k e => by simp [putBack, tget_tput_ne _ _ _ _ e]
  teams := fun k n e => by
    simp only [putBack, tget_tput]
    split
    · rename_i h; subst h; simp [ht, hr n e]
    · rfl

theorem placedGroup_quiet (i : In) (w : Work) (causes : Table Nat) (win : Option Nat)
    (hl : ∀ e ∈ w.fates, e.2 ≠ Fate.leave) : Quiet w.g (placedGroup i w causes win) := by
  have hleave : (w.fates.filter (fun e => e.2 == Fate.leave)).map (·.1) = [] := by
    rw [List.filter_eq_nil_iff.mpr, List.map_nil]
    intro e he
    simpa using hl e he
  unfold placedGroup
  rw [hleave]
  generalize hg : takeTrap (placeLanes i w.fates w.g) i.lanes (trapTable w.fates) i.runPc (i.pc + 4#32) w.illegal causes win = g
  have q : Quiet w.g g := hg ▸ (placeLanes_quiet i w.fates w.g).trans (takeTrap_quiet _ _ _ _ _ _ _ _)
  exact ((q.trans (freeSlot_quiet g (leaveMasks [] g.regs) (by rw [leaveMasks_nil]; exact Quiet.refl g))).trans
    (setRunning_quiet _ _)).trans (releaseMasks_quiet _ _)

theorem endParts_quiet (g : Group) : Quiet g (endParts g) := quiet_lanes g _ g.nextSet

theorem closedGroup_quiet (i : In) (doomed : Bool) (g : Group) : Quiet g (closedGroup i doomed g) := by
  unfold closedGroup
  have q := ite_quiet (endsWithWord g) g (endParts g) (endParts_quiet g)
  generalize (if endsWithWord g = true then endParts g else g) = g1 at q ⊢
  refine (q.trans ?_).trans (endChunk_quiet _ _)
  obtain ⟨ls, hls⟩ := endSwitch_lanes g1.regs
  rw [hls]
  cases doomed <;> exact ⟨rfl, rfl, rfl, rfl, rfl, rfl, rfl, rfl, rfl, rfl, rfl, rfl, rfl⟩

/-- THE END OF A GROUP'S WORD that neither waits, nor retries, nor kills, and ends no thread: the device but for the
group is as it was, and the group is the one that the meaning made. -/
theorem finish_group (i : In) (w : Work) (hs : w.stall = false) (hr : w.retry = false) (hk : w.kill = false)
    (hl : ∀ e ∈ w.fates, e.2 ≠ Fate.leave) (ht : tget i.s.teams i.g.team = some i.t)
    (hw : ∀ n, n ≠ 9 → teamReg w.t n = teamReg i.t n) (hc : w.core = tgetD i.s.cores i.g.core {}) :
    ∃ g, tget (finish i w).groups i.gid = some g ∧ Quiet w.g g ∧ Outer i (finish i w) g := by
  simp only [finish, hs, hr, hk, Bool.false_eq_true, if_false]
  generalize List.map (fun e => (e.1, tgetD w.causes e.1 0)) ((trapTable w.fates).filter fun e => fpCause e.2.1) = causes
  have hreg : ∀ n, n ≠ 9 → teamReg (enterWindow i.s.cycle i.l (if w.hazard = true then bumpTeam w.t 9 1 else w.t)
      (!causes.isEmpty) (handlerOf w.g (if w.hazard = true then bumpTeam w.t 9 1 else w.t) i.l).isSome).1 n =
      teamReg i.t n := fun n hn => by rw [enterWindow_regs, hazardTeam_reg _ _ _ hn, hw n hn]
  generalize enterWindow i.s.cycle i.l (if w.hazard = true then bumpTeam w.t 9 1 else w.t) (!causes.isEmpty)
    (handlerOf w.g (if w.hazard = true then bumpTeam w.t 9 1 else w.t) i.l).isSome = win at hreg ⊢
  have q := (placedGroup_quiet i w causes win.2 hl).trans
    (closedGroup_quiet i (handlerTraps w.g (trapTable w.fates) || handlerWaits w.g w.fates) _)
  generalize closedGroup i (handlerTraps w.g (trapTable w.fates) || handlerWaits w.g w.fates) (placedGroup i w causes win.2) = g
    at q ⊢
  have hp : tget (putBack i w g win.1).groups i.gid = some g := by simp [putBack]
  have ho := putBack_outer i w g win.1 hc ht hreg
  exact ⟨g, hp, q, ho⟩

end Sys2Proof.Machine
end

