-- ==== Sys2Proof/Laws/Group.lean ====
section
/-! SUPPORT. A group's word that has its own effect: what it answers, and what the register writes of a meaning leave. -/

namespace Sys2Proof.Machine

open Sys2Proof

/-- What is known of the input of a meaning when its word issues. -/
structure IssueFacts (s : State) (f : Form) (i : In) : Prop where
  form : i.form = f
  hints : i.hints = s.issue.hints
  device : outside i.s = outside s
  groups : i.s.groups = s.groups
  teams : i.s.teams = s.teams
  cores : i.s.cores = s.cores
  team : tget s.teams i.g.team = some i.t
  opened : i.g.cur.isSome = true

theorem groupIssues_facts {s : State} {f : Form} {i : In} (h : GroupIssues s f i) : IssueFacts s f i := by
  obtain ⟨gid, set, g, t, l, -, ht, rfl, -, -⟩ := h
  have hteam : tget s.teams g.team = some t := by
    unfold groupTriple at ht
    split at ht
    · cases ht
    · split at ht
      · cases ht
      · split at ht
        · cases ht
        · cases ht; assumption
  by_cases hc : g.cur.isSome = true
  · refine ⟨rfl, rfl, ?_, ?_, ?_, ?_, ?_, ?_⟩ <;> simp [issueIn, hc, hteam]
  · refine ⟨rfl, rfl, ?_, ?_, ?_, ?_, ?_, ?_⟩ <;> simp [issueIn, hc, hteam, openChunk, outside]

/-- A word of a group that has its own effect answers the end of its meaning's work. -/
theorem groupIssue_next {s : State} {f : Form} {i : In} (h : GroupIssues s f i) (body : In → Work → Work) :
    ∃ gid set, s.issue.actor = .group gid set ∧ groupIssue s gid set f body = .next (finish i (body i (issueWork i))) := by
  obtain ⟨gid, set, g, t, l, ha, ht, rfl, hf, hz⟩ := h
  refine ⟨gid, set, ha, ?_⟩
  simp [groupIssue, ht, hf, hz]

theorem groupOnly_next {s : State} {f : Form} {i : In} (h : GroupIssues s f i) (body : In → Work → Work) :
    groupOnly s f body = .next (finish i (body i (issueWork i))) := by
  obtain ⟨gid, set, ha, e⟩ := groupIssue_next h body
  simp [groupOnly, ha, e]

theorem groupOrControl_next {s : State} {f : Form} {i : In} (h : GroupIssues s f i) (body : In → Work → Work)
    (cbody : CIn → CWork) : groupOrControl s f body cbody = .next (finish i (body i (issueWork i))) := by
  obtain ⟨gid, set, ha, e⟩ := groupIssue_next h body
  simp [groupOrControl, ha, e]

/-- The work of a meaning that goes on: nothing waits, retries, kills or leaves, and no team register but 9 changes. -/
structure Plain (i : In) (w : Work) : Prop where
  stall : w.stall = false
  retry : w.retry = false
  kill : w.kill = false
  fates : ∀ e ∈ w.fates, e.2 ≠ Fate.leave
  team : ∀ n, n ≠ 9 → teamReg w.t n = teamReg i.t n
  core : w.core = tgetD i.s.cores i.g.core {}
  standing : standingOf w.g = standingOf i.g

/-- THE LAW OF A GROUP'S WORD: a meaning whose work is plain ends in a next state in which the group is the one the
meaning made, but for its lanes, its trap service and the end of its chunk; the rest of the device is as it was. -/
theorem finish_plain {s : State} {f : Form} {i : In} (h : GroupIssues s f i) {w : Work} (p : Plain i w) :
    ∃ g, tget (finish i w).groups i.gid = some g ∧ Quiet w.g g ∧ RestKept s (finish i w) i g := by
  have hf := groupIssues_facts h
  obtain ⟨g, hg, q, o⟩ := finish_group i w p.stall p.retry p.kill p.fates (by rw [hf.teams]; exact hf.team) p.team p.core
  exact ⟨g, hg, q, ⟨o.device.trans hf.device, o.cores.trans hf.cores,
    fun k e => (o.groups k e).trans (by rw [hf.groups]), fun k n e => (o.teams k n e).trans (by rw [hf.teams]),
    q.place.trans p.standing⟩⟩

/-! ### Register writes -/

theorem key_ne {k l r d : Nat} (hr : r < 64) (hd : d < 64) (h : ¬(k = l ∧ r = d)) : 64 * k + r ≠ 64 * l + d := by
  omega

theorem pkey_ne {k l r d : Nat} (hr : r < 8) (hd : d < 8) (h : ¬(k = l ∧ r = d)) : 8 * k + r ≠ 8 * l + d := by
  omega

@[simp] theorem writeV_s (c : GroupCore) (l r : Nat) (v : Word) : (writeV c l r v).s = c.s := rfl
@[simp] theorem writeV_p (c : GroupCore) (l r : Nat) (v : Word) : (writeV c l r v).p = c.p := rfl
@[simp] theorem writeS_v (c : GroupCore) (r : Nat) (v : Word) : (writeS c r v).v = c.v := rfl
@[simp] theorem writeS_p (c : GroupCore) (r : Nat) (v : Word) : (writeS c r v).p = c.p := rfl

/-- Two states of a group's registers that agree but for the three register files. -/
structure SameSpecials (a b : GroupCore) : Prop where
  lanes : b.lanes = a.lanes
  tiles : b.tiles = a.tiles
  accs : b.accs = a.accs
  masks : b.masks = a.masks
  unjoined : b.unjoined = a.unjoined
  trap : b.trap = a.trap
  joining : b.joining = a.joining

theorem SameSpecials.refl (a : GroupCore) : SameSpecials a a := ⟨rfl, rfl, rfl, rfl, rfl, rfl, rfl⟩

theorem SameSpecials.trans {a b c : GroupCore} (h : SameSpecials a b) (k : SameSpecials b c) : SameSpecials a c :=
  ⟨k.lanes.trans h.lanes, k.tiles.trans h.tiles, k.accs.trans h.accs, k.masks.trans h.masks,
    k.unjoined.trans h.unjoined, k.trap.trans h.trap, k.joining.trans h.joining⟩

theorem sameSpecials_foldl {α : Type} (f : GroupCore → α → GroupCore) (h : ∀ c a, SameSpecials c (f c a)) (ls : List α)
    (c : GroupCore) : SameSpecials c (ls.foldl f c) := by
  induction ls generalizing c with
  | nil => exact SameSpecials.refl c
  | cons a rest ih => exact (h c a).trans (ih _)

theorem releaseV_special (c : GroupCore) (l r : Nat) : SameSpecials c (releaseV c l r) := ⟨rfl, rfl, rfl, rfl, rfl, rfl, rfl⟩
theorem releaseS_special (c : GroupCore) (r : Nat) : SameSpecials c (releaseS c r) := ⟨rfl, rfl, rfl, rfl, rfl, rfl, rfl⟩
theorem writeV_special (c : GroupCore) (l r : Nat) (v : Word) : SameSpecials c (writeV c l r v) :=
  ⟨rfl, rfl, rfl, rfl, rfl, rfl, rfl⟩
theorem writeS_special (c : GroupCore) (r : Nat) (v : Word) : SameSpecials c (writeS c r v) :=
  ⟨rfl, rfl, rfl, rfl, rfl, rfl, rfl⟩
theorem writeP_special (c : GroupCore) (l k : Nat) (b : Bool) : SameSpecials c (writeP c l k b) := by
  unfold writeP
  split
  · exact SameSpecials.refl c
  · exact ⟨rfl, rfl, rfl, rfl, rfl, rfl, rfl⟩

theorem releaseSources_special (i : In) (ls : List Nat) (c : GroupCore) : SameSpecials c (releaseSources i ls c) := by
  have vec : ∀ (s : Option Src) (isY : Bool) (offs : List Nat) (c : GroupCore),
      SameSpecials c (match s with
        | some x => if releases i x isY then
            offs.foldl (fun c o => ls.foldl (fun c l => releaseV c l (x.reg.toNat + o)) c) c else c
        | none => c) := by
    intro s isY offs c
    cases s with
    | none => exact SameSpecials.refl c
    | some x =>
      dsimp only
      split
      · exact sameSpecials_foldl _ (fun c o => sameSpecials_foldl _ (fun c l => releaseV_special c l _) ls c) offs c
      · exact SameSpecials.refl c
  have uni : ∀ (s : Option Src) (c : GroupCore),
      SameSpecials c (match s with
        | some x => if x.use == .last && !ls.isEmpty then releaseS c x.reg.toNat else c
        | none => c) := by
    intro s c
    cases s with
    | none => exact SameSpecials.refl c
    | some x =>
      dsimp only
      split
      · exact releaseS_special c _
      · exact SameSpecials.refl c
  exact (((vec _ _ _ _).trans (vec _ _ _ _)).trans (uni _ _)).trans (uni _ _)

/-- A vector register after writes of register d in the lanes of a list. -/
theorem vreg_writeLanes (ls : List Nat) (d : Nat) (f : Nat → Word) (c : GroupCore) (hd : d < 64) :
    (∀ k ∈ ls, readV (ls.foldl (fun c l => writeV c l d (f l)) c) k d = (f k, false)) ∧
    (∀ k r, r < 64 → ¬(k ∈ ls ∧ r = d) → vreg (ls.foldl (fun c l => writeV c l d (f l)) c) k r = vreg c k r) ∧
    (ls.foldl (fun c l => writeV c l d (f l)) c).s = c.s ∧ (ls.foldl (fun c l => writeV c l d (f l)) c).p = c.p := by
  induction ls generalizing c with
  | nil => simp
  | cons a rest ih =>
    obtain ⟨h1, h2, h3, h4⟩ := ih (writeV c a d (f a))
    refine ⟨?_, ?_, by simpa using h3, by simpa using h4⟩
    · intro k hk
      by_cases hr : k ∈ rest
      · exact h1 k hr
      · have hka : k = a := by simpa [hr] using hk
        subst hka
        have := h2 k d hd (by simp [hr])
        simp only [List.foldl_cons, readV, this]
        simp [vreg, writeV, writtenReg, readReg]
    · intro k r hr hn
      have hn' : ¬(k ∈ rest ∧ r = d) := fun h => hn ⟨List.mem_cons_of_mem _ h.1, h.2⟩
      simp only [List.foldl_cons, h2 k r hr hn']
      have : 64 * k + r ≠ 64 * a + d := key_ne hr hd (fun h => hn ⟨by simp [h.1], h.2⟩)
      simp [vreg, writeV, tgetD_tput_ne _ _ _ _ _ this]

/-- Vector registers after variable-latency results. -/
theorem writeLanes_written (i : In) (d : Nat) (hd : d < 64) (f : Nat → Word) :
    let c := writeLanes d f i (released i i.act)
    (∀ k ∈ i.act, readV c k d = (f k, false)) ∧
    (∀ k r, r < 64 → ¬(k ∈ i.act ∧ r = d) → vreg c k r = vreg (released i i.act) k r) ∧
    c.s = (released i i.act).s ∧ c.p = (released i i.act).p := vreg_writeLanes i.act d f _ hd

theorem preg_writePreds (ls : List Nat) (d : Nat) (f : Nat → Bool) (c : GroupCore) (hd : d < 8) :
    (d ≠ 7 → ∀ k ∈ ls, readP (ls.foldl (fun c l => writeP c l d (f l)) c) k d = (f k, false)) ∧
    (∀ k r, r < 8 → ¬(k ∈ ls ∧ r = d) → preg (ls.foldl (fun c l => writeP c l d (f l)) c) k r = preg c k r) ∧
    (ls.foldl (fun c l => writeP c l d (f l)) c).s = c.s ∧ (ls.foldl (fun c l => writeP c l d (f l)) c).v = c.v := by
  have wv : ∀ c l, (writeP c l d (f l)).v = c.v := by intro c l; unfold writeP; split <;> rfl
  have ws : ∀ c l, (writeP c l d (f l)).s = c.s := by intro c l; unfold writeP; split <;> rfl
  induction ls generalizing c with
  | nil => simp
  | cons a rest ih =>
    obtain ⟨h1, h2, h3, h4⟩ := ih (writeP c a d (f a))
    refine ⟨?_, ?_, by simpa [ws] using h3, by simpa [wv] using h4⟩
    · intro h7 k hk
      by_cases hr : k ∈ rest
      · exact h1 h7 k hr
      · have hka : k = a := by simpa [hr] using hk
        subst hka
        have := h2 k d hd (by simp [hr])
        simp only [List.foldl_cons, readP, this]
        cases f k <;> simp [preg, h7, writeP, writtenReg, readReg, boolWord]
    · intro k r hr hn
      have hn' : ¬(k ∈ rest ∧ r = d) := fun h => hn ⟨List.mem_cons_of_mem _ h.1, h.2⟩
      simp only [List.foldl_cons, h2 k r hr hn']
      have : 8 * k + r ≠ 8 * a + d := pkey_ne hr hd (fun h => hn ⟨by simp [h.1], h.2⟩)
      unfold preg writeP
      split
      · rfl
      · split
        · rfl
        · simp [tgetD_tput_ne _ _ _ _ _ this]

theorem readP_seven (c : GroupCore) (k : Nat) : readP c k 7 = (true, false) := by
  simp [readP, preg, readReg]

end Sys2Proof.Machine
end

