-- ==== Sys2Proof/Laws/Shapes.lean ====
section
/-! SUPPORT. The shapes of a group's word: what the device holds after a word that writes vector registers, a uniform
register or a predicate. -/

namespace Sys2Proof.Machine

open Sys2Proof

theorem issueWork_plain {s : State} {f : Form} {i : In} (_ : GroupIssues s f i) : Plain i (issueWork i) :=
  ⟨rfl, rfl, rfl, by simp [issueWork, startWork], fun _ _ => rfl, rfl, rfl⟩

/-- A word whose work only changes the group's registers. -/
theorem onRegs_completes {ins : Instr} {s : State} {f : Form} {i : In} (h : GroupIssues s f i)
    (F : GroupCore → GroupCore) (hs : SameSpecials i.g.regs (F i.g.regs))
    (he : exec ins s = .next (finish i (onRegs (issueWork i) F))) (P : Group → Prop)
    (hP : ∀ g, g.regs.v = (F i.g.regs).v → g.regs.s = (F i.g.regs).s → g.regs.p = (F i.g.regs).p → P g) :
    Completes ins s i (fun g => P g ∧ ChunksKept i g ∧ SpecialsKept i g) := by
  have pl : Plain i (onRegs (issueWork i) F) :=
    ⟨rfl, rfl, rfl, by simp [onRegs, issueWork, startWork], fun _ _ => rfl, rfl, rfl⟩
  obtain ⟨g, hg, q, r⟩ := finish_plain h pl
  refine ⟨_, g, he, hg, ⟨hP g q.v q.s q.p, ⟨?_, ?_, ?_, ?_⟩, ⟨?_, ?_, ?_, ?_, ?_⟩⟩, r⟩
  · exact q.stores
  · exact q.tags
  · rw [q.effs]; simp [onRegs, issueWork, startWork, ownEffs, ownChunks]
  · rw [q.flights]; simp [onRegs, issueWork, startWork]
  · exact q.tiles.trans hs.tiles
  · exact q.accs.trans hs.accs
  · exact q.masks.trans hs.masks
  · exact q.unjoined.trans hs.unjoined
  · rw [q.trap]; simp [onRegs, issueWork, startWork, hs.trap]

/-- A word that writes vector register d in the executing lanes. -/
theorem vector_completes {ins : Instr} {s : State} {f : Form} {i : In} (h : GroupIssues s f i) (d : Nat) (hd : d < 64)
    (val : Nat → Word)
    (he : exec ins s = .next (finish i (regsBody (writeLanes d val) i (issueWork i)))) :
    Completes ins s i (fun g => VectorWritten i g d i.act val ∧ ChunksKept i g ∧ SpecialsKept i g) := by
  obtain ⟨h1, h2, h3, h4⟩ := writeLanes_written i d hd val
  refine onRegs_completes h _ ?_ he _ ?_
  · exact (releaseSources_special i i.act i.g.regs).trans
      (sameSpecials_foldl _ (fun c l => writeV_special c l d (val l)) _ _)
  · intro g hv hs hp
    refine ⟨?_, ?_, hs.trans h3, hp.trans h4⟩
    · intro k hk
      rw [← h1 k hk]
      simp [readV, vreg, hv, released]
    · intro k r hr hn
      rw [← h2 k r hr hn]
      simp [vreg, hv, released]

/-- A word that writes predicate d in the executing lanes. -/
theorem pred_completes {ins : Instr} {s : State} {f : Form} {i : In} (h : GroupIssues s f i) (d : Nat) (hd : d < 8)
    (val : Nat → Bool)
    (he : exec ins s = .next (finish i (regsBody (writePreds d val) i (issueWork i)))) :
    Completes ins s i (fun g => PredWritten i g d i.act val ∧ ChunksKept i g ∧ SpecialsKept i g) := by
  obtain ⟨h1, h2, h3, h4⟩ := preg_writePreds i.act d val (released i i.act) hd
  refine onRegs_completes h _ ?_ he _ ?_
  · exact (releaseSources_special i i.act i.g.regs).trans
      (sameSpecials_foldl _ (fun c l => writeP_special c l d (val l)) _ _)
  · intro g hv hs hp
    refine ⟨?_, fun k => readP_seven _ k, ?_, hv.trans h4, hs.trans h3⟩
    · intro h7 k hk
      rw [← h1 h7 k hk]
      simp [readP, preg, hp, released, writePreds]
    · intro k r hr hn
      rw [← h2 k r hr hn]
      simp [preg, hp, released, writePreds]

/-- A word that writes uniform register d when any lane executes. -/
theorem uniform_completes {ins : Instr} {s : State} {f : Form} {i : In} (h : GroupIssues s f i) (d : Nat) (val : Word)
    (he : exec ins s = .next (finish i (regsBody (writeOnce d val) i (issueWork i)))) :
    Completes ins s i (fun g => UniformWritten i g d val ∧ ChunksKept i g ∧ SpecialsKept i g) := by
  refine onRegs_completes h _ ?_ he _ ?_
  · refine (releaseSources_special i i.act i.g.regs).trans ?_
    unfold writeOnce
    split
    · exact SameSpecials.refl _
    · exact writeS_special _ d val
  · intro g hv hs hp
    by_cases ha : i.act = []
    · refine ⟨fun h => absurd ha h, fun _ => ?_, fun r _ => ?_, ?_, ?_⟩
      · simp [sreg, hs, writeOnce, ha, released]
      · simp [sreg, hs, writeOnce, ha, released]
      · simp [hv, writeOnce, ha, released]
      · simp [hp, writeOnce, ha, released]
    · refine ⟨fun _ => ?_, fun h => absurd h ha, fun r hr => ?_, ?_, ?_⟩
      · simp [readS, sreg, hs, writeOnce, ha, writeS, writtenReg, readReg]
      · simp [sreg, hs, writeOnce, ha, released, writeS, tgetD_tput_ne _ _ _ _ _ hr]
      · simp [hv, writeOnce, ha, released]
      · simp [hp, writeOnce, ha, released]

/-- A control core's word of a legal form with its guard 1. -/
theorem controlIssue_next {s : State} {f : Form} {c : Nat} (h : ControlIssues s f c) (body : CIn → CWork) (k : Ctl)
    (hb : body { s := s, c := c, ctl := ctlAt s c, hints := s.issue.hints, pc := s.issue.pc,
                 x := ctlSource (ctlAt s c) f.x f.sx, y := ctlSource (ctlAt s c) f.y f.sy } = { ctl := k }) :
    controlIssue s c f body = withCtl s c k := by
  obtain ⟨ha, hl, ⟨h1, h2, h3, h4⟩, hr, hi, hg⟩ := h
  have hi' : (s.issue.hints.imm.isSome && !f.imm) = false := by
    cases e : s.issue.hints.imm.isSome
    · rfl
    · simp [hi e]
  have hg' : (f.guarded && !ctlPred (clusterAt s c).ctl (predField s.issue.hints 7)) = false := by
    cases e : f.guarded
    · rfl
    · simp [hg e]
  simp only [controlIssue, hl, h1, h2, h3, h4, hr, hi', hg', Bool.or_false, Option.isSome_none, Bool.false_eq_true,
    if_false]
  simp only [ctlAt] at hb
  simp [hb, withCtl]

theorem groupOrControl_control {s : State} {f : Form} {c : Nat} (h : ControlIssues s f c) (body : In → Work → Work)
    (cbody : CIn → CWork) (k : Ctl)
    (hb : cbody { s := s, c := c, ctl := ctlAt s c, hints := s.issue.hints, pc := s.issue.pc,
                  x := ctlSource (ctlAt s c) f.x f.sx, y := ctlSource (ctlAt s c) f.y f.sy } = { ctl := k }) :
    groupOrControl s f body cbody = .next (withCtl s c k) := by
  simp only [groupOrControl, h.actor, controlIssue_next h cbody k hb]

end Sys2Proof.Machine
end

