-- ==== Sys2Proof/Laws/Late.lean ====
section
/-! SUPPORT. Outstanding results and floating-point words: what issuing results leaves, what the lanes of a
floating-point word leave, and what parking a sub-group leaves. -/

namespace Sys2Proof.Machine

open Sys2Proof

/-- Results of one class issued in order. -/
def flyAll (w : Work) (cls : Nat) (vs : List (Nat × Word)) : Work := vs.foldl (fun w e => flyOut w cls e.1 e.2) w

/-- What issuing vector results makes of the work: the file is pending, the results are outstanding, all else stands. -/
theorem flyAll_vector (vs : List (Nat × Word)) (w : Work) :
    let w' := flyAll w 0 vs
    w'.g.regs.v = pendingFile w.g.regs.v (vs.map (·.1)) ∧
    w'.g.flights.map flightFacts = w.g.flights.map flightFacts ++ resultsOf w.g.regs.v 0 vs ∧
    (∃ fl, w'.g = { w.g with regs := { w.g.regs with v := w'.g.regs.v }, flights := fl }) ∧
    (∃ n, w' = { w with g := w'.g, nextId := n }) := by
  induction vs generalizing w with
  | nil => exact ⟨rfl, by simp [flyAll, resultsOf], ⟨w.g.flights, rfl⟩, ⟨w.nextId, rfl⟩⟩
  | cons e rest ih =>
    obtain ⟨k, v⟩ := e
    obtain ⟨h1, h2, ⟨fl, h3⟩, ⟨n, h4⟩⟩ := ih (flyOut w 0 k v)
    refine ⟨?_, ?_, ⟨fl, ?_⟩, ⟨n, ?_⟩⟩
    · simpa [flyAll, pendingFile, flyOut, issueResult] using h1
    · simpa [flyAll, resultsOf, flyOut, issueResult, flightFacts] using h2
    · simpa [flyAll, flyOut, issueResult] using h3
    · simpa [flyAll, flyOut] using h4

/-- The same for predicates, whose seventh takes nothing. -/
theorem flyAll_pred (vs : List (Nat × Word)) (h : ∀ e ∈ vs, e.1 % 8 ≠ 7) (w : Work) :
    let w' := flyAll w 2 vs
    w'.g.regs.p = pendingFile w.g.regs.p (vs.map (·.1)) ∧
    w'.g.flights.map flightFacts = w.g.flights.map flightFacts ++ resultsOf w.g.regs.p 2 vs ∧
    (∃ fl, w'.g = { w.g with regs := { w.g.regs with p := w'.g.regs.p }, flights := fl }) ∧
    (∃ n, w' = { w with g := w'.g, nextId := n }) := by
  induction vs generalizing w with
  | nil => exact ⟨rfl, by simp [flyAll, resultsOf], ⟨w.g.flights, rfl⟩, ⟨w.nextId, rfl⟩⟩
  | cons e rest ih =>
    obtain ⟨k, v⟩ := e
    have hk : k % 8 ≠ 7 := h (k, v) (by simp)
    obtain ⟨h1, h2, ⟨fl, h3⟩, ⟨n, h4⟩⟩ := ih (fun e he => h e (by simp [he])) (flyOut w 2 k v)
    refine ⟨?_, ?_, ⟨fl, ?_⟩, ⟨n, ?_⟩⟩
    · simpa [flyAll, pendingFile, flyOut, issueResult, hk] using h1
    · simpa [flyAll, resultsOf, flyOut, issueResult, flightFacts, hk] using h2
    · simpa [flyAll, flyOut, issueResult, hk] using h3
    · simpa [flyAll, flyOut] using h4

theorem flyAll_seventh (vs : List (Nat × Word)) (h : ∀ e ∈ vs, e.1 % 8 = 7) (w : Work) :
    ∃ n, flyAll w 2 vs = { w with nextId := n } := by
  induction vs generalizing w with
  | nil => exact ⟨w.nextId, rfl⟩
  | cons e rest ih =>
    have hk : e.1 % 8 = 7 := h e (by simp)
    obtain ⟨n, hn⟩ := ih (fun e he => h e (by simp [he])) (flyOut w 2 e.1 e.2)
    exact ⟨n, by simpa [flyAll, flyOut, issueResult, hk] using hn⟩

theorem flyLanes_eq (d : Nat) (f : Nat → Word) (i : In) (w : Work) :
    flyLanes d f i w = flyAll w 0 (i.act.map (fun k => (64 * k + d, f k))) := by
  simp [flyLanes, flyAll, List.foldl_map]

theorem flyPreds_eq (d : Nat) (b : Bool) (i : In) (w : Work) :
    flyPreds d b i w = flyAll w 2 (i.act.map (fun k => (8 * k + d, boolWord b))) := by
  simp [flyPreds, flyAll, List.foldl_map]

theorem flyAll_append (w : Work) (cls : Nat) (a b : List (Nat × Word)) :
    flyAll (flyAll w cls a) cls b = flyAll w cls (a ++ b) := by simp [flyAll]

/-- The uncommitted effects of a group whose open chunk gains some. -/
theorem ownEffs_addEffs (w : Work) (es : List Eff) (h : w.g.cur.isSome = true) :
    ownEffs (addEffs w es).g = ownEffs w.g ++ es ∧ ownStores (addEffs w es).g = ownStores w.g ∧
    ownTags (addEffs w es).g = ownTags w.g := by
  obtain ⟨c, hc⟩ := Option.isSome_iff_exists.mp h
  simp [addEffs, onChunk, ownEffs, ownStores, ownTags, ownChunks, hc]

/-- A word that releases sources in `ls`, leaves vector results outstanding and adds effects. -/
theorem late_completes {ins : Instr} {s : State} {f : Form} {i : In} (h : GroupIssues s f i) (ls : List Nat)
    (vs : List (Nat × Word)) (es : List Eff) (w0 : Work) (hw0 : w0.g = (issueWork i).g) (hp : Plain i w0)
    (he : exec ins s = .next (finish i (addEffs (flyAll (onRegs w0 (releaseSources i ls)) 0 vs) es))) :
    Completes ins s i (fun g => VectorsPending i g ls (vs.map (·.1)) ∧
      ChunksGain i g [] [] es (resultsOf (released i ls).v 0 vs) ∧ SpecialsKept i g) := by
  set w1 := onRegs w0 (releaseSources i ls) with hw1
  have hg1 : w1.g = { i.g with regs := released i ls } := by
    rw [hw1]; simp only [onRegs, hw0]; rfl
  obtain ⟨h1, h2, ⟨fl, h3⟩, ⟨n, h4⟩⟩ := flyAll_vector vs w1
  set w2 := flyAll w1 0 vs with hw2
  have hspec := releaseSources_special i ls i.g.regs
  have hcur : w2.g.cur = i.g.cur := by rw [h3, hg1]
  have hopen : w2.g.cur.isSome = true := by rw [hcur]; exact (groupIssues_facts h).opened
  have pl : Plain i (addEffs w2 es) := by
    refine ⟨?_, ?_, ?_, ?_, ?_, ?_, ?_⟩
    · simp only [addEffs, onChunk]; rw [h4]; exact hp.stall
    · simp only [addEffs, onChunk]; rw [h4]; exact hp.retry
    · simp only [addEffs, onChunk]; rw [h4]; exact hp.kill
    · simp only [addEffs, onChunk]; rw [h4]; exact hp.fates
    · simp only [addEffs, onChunk]; rw [h4]; exact hp.team
    · simp only [addEffs, onChunk]; rw [h4]; exact hp.core
    · simp only [addEffs, onChunk, standingOf]; rw [h3, hg1]
  obtain ⟨g, hg, q, r⟩ := finish_plain h pl
  obtain ⟨e1, e2, e3⟩ := ownEffs_addEffs w2 es hopen
  have hinf : w2.g.inflight = i.g.inflight := by rw [h3, hg1]
  have own : ownStores w2.g = ownStores i.g ∧ ownTags w2.g = ownTags i.g ∧ ownEffs w2.g = ownEffs i.g := by
    simp [ownStores, ownTags, ownEffs, ownChunks, hcur, hinf]
  have hregs : (addEffs w2 es).g.regs = { released i ls with v := w2.g.regs.v } := by
    simp only [addEffs, onChunk]; rw [h3, hg1]
  refine ⟨_, g, he, hg, ⟨⟨?_, ?_, ?_⟩, ⟨?_, ?_, ?_, ?_⟩, ⟨?_, ?_, ?_, ?_, ?_⟩⟩, r⟩
  · rw [q.v, hregs]; simp only [h1, hg1]
  · rw [q.s, hregs]
  · rw [q.p, hregs]
  · rw [q.stores, e2, own.1]; rfl
  · rw [q.tags, e3, own.2.1]; rfl
  · rw [q.effs, e1, own.2.2]
  · rw [q.flights]
    show (addEffs w2 es).g.flights.map flightFacts = _
    have : (addEffs w2 es).g.flights = w2.g.flights := rfl
    rw [this, h2, hg1]
  · rw [q.tiles, hregs]; exact hspec.tiles
  · rw [q.accs, hregs]; exact hspec.accs
  · rw [q.masks, hregs]; exact hspec.masks
  · rw [q.unjoined, hregs]; exact hspec.unjoined
  · rw [q.trap, hregs]; simp only [released, hspec.trap]

theorem addEffs_nil (w : Work) : addEffs w [] = w := by
  obtain ⟨n, c, g, t, _, _, _, _, _, _, _⟩ := w
  obtain ⟨_, _, _, _, _, _, _, cur, _, _, _, _, _, _, _, _, _⟩ := g
  cases cur <;> simp [addEffs, onChunk]

/-! ### Floating-point words -/

/-- The mask of causes that a lane raises. -/
def raisedMask (i : In) (op : Nat → FpOut) (k : Nat) : Nat := fpRaised (viewReg i.g i.t 4) (laneAt i.g.regs k).quiet (op k)

/-- The executing lanes that raise nothing. -/
def goodLanes (i : In) (op : Nat → FpOut) : List Nat := i.act.filter (fun k => raisedMask i op k == 0)

/-- The executing lanes that raise a cause. -/
def badLanes (i : In) (op : Nat → FpOut) : List Nat := i.act.filter (fun k => raisedMask i op k != 0)

theorem tgetD_marked (ls : List Nat) (f : Nat → Nat) (k : Nat) :
    tgetD ((ls.map (fun l => (l, f l))).filter (fun e => e.2 != 0)) k 0 = if k ∈ ls then f k else 0 := by
  induction ls with
  | nil => simp [tgetD, tget]
  | cons a rest ih =>
    by_cases h0 : f a = 0
    · have : ((a :: rest).map (fun l => (l, f l))).filter (fun e => e.2 != 0) =
          (rest.map (fun l => (l, f l))).filter (fun e => e.2 != 0) := by simp [h0]
      rw [this, ih]
      by_cases hk : k = a
      · subst hk; simp [h0]
      · simp [hk]
    · by_cases hk : a = k
      · subst hk; simp [tgetD, tget, h0]
      · have := ih
        simp only [tgetD] at this ⊢
        simp [tget, h0, hk, Ne.symm hk, this]

/-- A floating-point word acts on the lanes that raise nothing, and the others trap. -/
theorem fpLanes_eq (op : Nat → FpOut) (amax : Bool) (put : Nat → FpOut → Work → Work) (i : In) (w : Work) :
    fpLanes op amax put i w =
      { addEffs ((goodLanes i op).foldl (fun w k => put k (op k) w) (onRegs w (releaseSources i (goodLanes i op))))
          ((goodLanes i op).flatMap (fun k =>
            (if amax then [amaxEff (xVal i k)] else []) ++ (op k).counts.map (fun n => Eff.count n 1))) with
        fates := ((badLanes i op).map (fun k => (k, raisedMask i op k))).foldl
          (fun t e => tput t e.1 (.trap (fpCauseOf e.2) 0#32))
          (addEffs ((goodLanes i op).foldl (fun w k => put k (op k) w) (onRegs w (releaseSources i (goodLanes i op))))
            ((goodLanes i op).flatMap (fun k =>
              (if amax then [amaxEff (xVal i k)] else []) ++ (op k).counts.map (fun n => Eff.count n 1)))).fates,
        causes := ((badLanes i op).map (fun k => (k, raisedMask i op k))).foldl (fun t e => tput t e.1 e.2)
          (addEffs ((goodLanes i op).foldl (fun w k => put k (op k) w) (onRegs w (releaseSources i (goodLanes i op))))
            ((goodLanes i op).flatMap (fun k =>
              (if amax then [amaxEff (xVal i k)] else []) ++ (op k).counts.map (fun n => Eff.count n 1)))).causes } := by
  have hraised : (i.act.map (fun l => (l, op l))).map (fun e => (e.1, fpRaised (viewReg i.g i.t 4) (laneAt i.g.regs e.1).quiet e.2)) =
      i.act.map (fun l => (l, raisedMask i op l)) := by simp [raisedMask, Function.comp_def]
  have hbad : (i.act.map (fun l => (l, raisedMask i op l))).filter (fun e => e.2 != 0) =
      (badLanes i op).map (fun k => (k, raisedMask i op k)) := by
    rw [badLanes, List.filter_map]; rfl
  have hgood : (i.act.map (fun l => (l, op l))).filter (fun e =>
      tgetD ((badLanes i op).map (fun k => (k, raisedMask i op k))) e.1 0 == 0) =
      (goodLanes i op).map (fun k => (k, op k)) := by
    rw [← hbad, goodLanes, List.filter_map]
    congr 1
    apply List.filter_congr
    intro k hk
    simp [tgetD_marked, hk]
  simp only [fpLanes, hraised, hbad, hgood, List.map_map, List.foldl_map, List.flatMap_map, Function.comp_def, List.map_id']

theorem foldl_tput_mem {α : Type} (es : List (Nat × α)) (t : Table Fate) (f : α → Fate) (P : Fate → Prop)
    (ht : ∀ e ∈ t, P e.2) (hf : ∀ a, P (f a)) : ∀ e ∈ es.foldl (fun t e => tput t e.1 (f e.2)) t, P e.2 := by
  have one : ∀ (t : Table Fate) (k : Nat) (a : Fate), (∀ e ∈ t, P e.2) → P a → ∀ e ∈ tput t k a, P e.2 := by
    intro t k a h ha
    induction t with
    | nil => intro e he; simp only [tput, List.mem_singleton] at he; subst he; exact ha
    | cons x rest ih =>
      intro e he
      simp only [tput] at he
      split at he
      · rcases List.mem_cons.mp he with rfl | he
        · exact ha
        · exact h e he
      · split at he
        · rcases List.mem_cons.mp he with rfl | he
          · exact ha
          · exact h e (List.mem_cons_of_mem _ he)
        · rcases List.mem_cons.mp he with rfl | he
          · exact h _ (by simp)
          · exact ih (fun e he => h e (List.mem_cons_of_mem _ he)) e he
  induction es generalizing t with
  | nil => exact ht
  | cons e rest ih => exact ih _ (one t e.1 (f e.2) ht (hf _))

/-- A work with other fates and causes, none of which leaves, is as plain. -/
theorem Plain.fated {i : In} {w : Work} (h : Plain i w) (f : Table Fate) (c : Table Nat) (hf : ∀ e ∈ f, e.2 ≠ Fate.leave) :
    Plain i { w with fates := f, causes := c } := ⟨h.stall, h.retry, h.kill, hf, h.team, h.core, h.standing⟩

theorem addEffs_plain {i : In} {w : Work} (h : Plain i w) (es : List Eff) : Plain i (addEffs w es) :=
  ⟨h.stall, h.retry, h.kill, h.fates, h.team, h.core, by
    have := h.standing
    simpa [addEffs, onChunk, standingOf] using this⟩

/-- A floating-point word of fixed latency. -/
theorem float_completes {ins : Instr} {s : State} {f : Form} {i : In} (h : GroupIssues s f i) (d : Nat) (hd : d < 64)
    (amax : Bool) (op : Nat → FpOut)
    (he : exec ins s = .next (finish i (fpLanes op amax (putVec d) i (issueWork i)))) :
    Completes ins s i (fun g => VectorWritten i g d (goodLanes i op) (fun k => BitVec.ofNat 32 (op k).code) ∧
      ChunksGain i g [] [] ((goodLanes i op).flatMap (fun k =>
        (if amax then [amaxEff (xVal i k)] else []) ++ (op k).counts.map (fun n => Eff.count n 1))) [] ∧
      SpecialsKept i g) := by
  set good := goodLanes i op with hgood
  set es := good.flatMap (fun k => (if amax then [amaxEff (xVal i k)] else []) ++ (op k).counts.map (fun n => Eff.count n 1)) with hes
  have hput : good.foldl (fun w k => putVec d k (op k) w) (onRegs (issueWork i) (releaseSources i good)) =
      onRegs (issueWork i) (fun c => good.foldl (fun c k => writeV c k d (BitVec.ofNat 32 (op k).code)) (releaseSources i good c)) := by
    have : ∀ (ls : List Nat) (w : Work), ls.foldl (fun w k => putVec d k (op k) w) w =
        onRegs w (fun c => ls.foldl (fun c k => writeV c k d (BitVec.ofNat 32 (op k).code)) c) := by
      intro ls
      induction ls with
      | nil => intro w; rfl
      | cons a rest ih => intro w; simp only [List.foldl_cons, ih]; rfl
    rw [this]; rfl
  rw [fpLanes_eq, ← hgood, ← hes, hput] at he
  set F : GroupCore → GroupCore := fun c =>
    good.foldl (fun c k => writeV c k d (BitVec.ofNat 32 (op k).code)) (releaseSources i good c) with hF
  obtain ⟨v1, v2, v3, v4⟩ := vreg_writeLanes good d (fun k => BitVec.ofNat 32 (op k).code) (released i good) hd
  have hspec : SameSpecials i.g.regs (F i.g.regs) := (releaseSources_special i good i.g.regs).trans
    (sameSpecials_foldl _ (fun c l => writeV_special c l d _) _ _)
  set w1 := addEffs (onRegs (issueWork i) F) es with hw1
  have pl0 : Plain i w1 := addEffs_plain
    ⟨rfl, rfl, rfl, by simp [onRegs, issueWork, startWork], fun _ _ => rfl, rfl, rfl⟩ es
  have hf : ∀ e ∈ ((badLanes i op).map (fun k => (k, raisedMask i op k))).foldl
      (fun t e => tput t e.1 (Fate.trap (fpCauseOf e.2) 0#32)) w1.fates, e.2 ≠ Fate.leave :=
    foldl_tput_mem _ _ (fun a => Fate.trap (fpCauseOf a) 0#32) (· ≠ Fate.leave) pl0.fates (by simp)
  obtain ⟨g, hg, q, r⟩ := finish_plain h (pl0.fated _ _ hf)
  obtain ⟨e1, e2, e3⟩ := ownEffs_addEffs (onRegs (issueWork i) F) es (groupIssues_facts h).opened
  have hregs : w1.g.regs = F i.g.regs := rfl
  refine ⟨_, g, he, hg, ⟨⟨?_, ?_, ?_, ?_⟩, ⟨?_, ?_, ?_, ?_⟩, ⟨?_, ?_, ?_, ?_, ?_⟩⟩, r⟩
  · intro k hk; rw [← v1 k hk]; simp only [readV, vreg, q.v, hregs]; rfl
  · intro k r hr hn; rw [← v2 k r hr hn]; simp only [vreg, q.v, hregs]; rfl
  · rw [q.s, hregs]; exact v3
  · rw [q.p, hregs]; exact v4
  · exact q.stores.trans e2
  · exact q.tags.trans e3
  · exact q.effs.trans e1
  · rw [q.flights]; simp [hw1, addEffs, onChunk, onRegs, issueWork, startWork]
  · exact q.tiles.trans hspec.tiles
  · exact q.accs.trans hspec.accs
  · exact q.masks.trans hspec.masks
  · exact q.unjoined.trans hspec.unjoined
  · rw [q.trap, hregs, hspec.trap]

end Sys2Proof.Machine
end

