-- ==== Sys2Proof/Laws/Access.lean ====
section
/-! SUPPORT. Accesses of local memory: which lanes pass the checks, what entering an access makes of the open chunk, and
what a word that accesses memory leaves. -/

namespace Sys2Proof.Machine

open Sys2Proof

/-- Entering an access changes signatures only. -/
theorem enterAccess_contents {c c1 : Chunk} {r w : List Nat} (h : enterAccess c r w = some c1) :
    c1.stores = c.stores ∧ c1.tags = c.tags ∧ c1.effs = c.effs := by
  unfold enterAccess at h
  dsimp only at h
  split at h
  · cases h; exact ⟨rfl, rfl, rfl⟩
  · split at h
    · cases h; exact ⟨rfl, rfl, rfl⟩
    · cases h

/-- With room, an access performs in the open chunk. -/
theorem memAccess_room {i : In} {w : Work} {r u : List Nat} {upd : Chunk → Chunk} (hw : w.g = i.g)
    (h : roomFor i r u upd) :
    ∃ c c1, i.g.cur = some c ∧ enterAccess c r u = some c1 ∧
      memAccess i w r u upd = { w with g := { w.g with cur := some (upd c1) } } := by
  obtain ⟨c, c1, hc, he, hf⟩ := h
  exact ⟨c, c1, hc, he, by simp [memAccess, hw, hc, he, hf]⟩

/-- Room for an access is what its meaning judges. -/
theorem accessFits_room {i : In} {r u : List Nat} {upd : Chunk → Chunk} (h : roomFor i r u upd) :
    accessFits i r u upd = true := by
  obtain ⟨c, c1, hc, he, hf⟩ := h
  simp [accessFits, hc, he, hf]

/-- Where all the accesses have room, all perform. -/
theorem performing_all {i : In} {as : List LaneAccess} {fits : List LaneAccess → Bool} (h : fits as = true) :
    performing i as fits = as := by
  simp [performing, h]

/-- What performs is the accesses of the first lanes. -/
theorem performing_prefix (i : In) (as : List LaneAccess) (fits : List LaneAccess → Bool) :
    performing i as fits <+: as := by
  unfold performing
  split
  · exact List.prefix_rfl
  · cases hf : List.find? (fun bs => !bs.isEmpty && fits bs) ((upto as.length).reverse.map (fun n => as.take n)) with
    | none => exact List.prefix_rfl
    | some bs =>
      obtain ⟨n, -, rfl⟩ := List.mem_map.1 (List.mem_of_find?_eq_some hf)
      exact List.take_prefix n as

@[simp] theorem endIfCut_self (as : List LaneAccess) (c : Chunk) : endIfCut as as c = c := by simp [endIfCut]

@[simp] theorem holdRest_self (as : List LaneAccess) (x : Wait) (w : Work) : holdRest as as x w = w := by
  simp [holdRest, setFates]

/-- The lanes that pass the checks and those that fail, as the meanings see them. -/
theorem checkLanes_eq (i : In) (addr : Nat → Word) (n align : Nat) :
    checkLanes i addr n align =
      ((passing i addr n align).map (fun e => (e.1, addr e.1, e.2)), (failing i addr n align).map (fun e => (e.1, (e.2.1, e.2.2)))) := by
  unfold checkLanes passing failing
  suffices h : ∀ (ls : List Nat) (a : List LaneAccess) (b : Table (Nat × Word)),
      ls.foldl (fun (acc : List LaneAccess × Table (Nat × Word)) l =>
        match checkLocal i.s i.t i.l (addr l) n align with
        | .ok p => (acc.1 ++ [(l, addr l, p)], acc.2)
        | .error e => (acc.1, acc.2 ++ [(l, e)])) (a, b) =
      (a ++ (ls.filterMap (fun k => (accessAt i addr n align k).map (fun p => (k, p)))).map (fun e => (e.1, addr e.1, e.2)),
       b ++ (ls.filterMap (fun k => match checkLocal i.s i.t i.l (addr k) n align with
          | .ok _ => none
          | .error e => some (k, e.1, e.2))).map (fun e => (e.1, (e.2.1, e.2.2)))) by
    have h0 := h i.act [] []
    simp only [List.nil_append] at h0
    exact h0
  intro ls
  induction ls with
  | nil => simp
  | cons k rest ih =>
    intro a b
    simp only [List.foldl_cons, List.filterMap_cons, accessAt]
    cases hk : checkLocal i.s i.t i.l (addr k) n align with
    | ok p => simp only [Option.map_some]; rw [ih]; simp [accessAt]
    | error e => simp only [Option.map_none]; rw [ih]; simp [accessAt]

theorem trapLanes_fates (w : Work) (ts : Table (Nat × Word)) (h : ∀ e ∈ w.fates, e.2 ≠ Fate.leave) :
    ∀ e ∈ (trapLanes w ts).fates, e.2 ≠ Fate.leave :=
  foldl_tput_mem ts w.fates (fun a => Fate.trap a.1 a.2) (· ≠ Fate.leave) h (by simp)

/-- A word that accesses memory: it enters its access, releases sources in `ls`, leaves vector results outstanding, adds
effects, and gives lanes fates other than leaving. -/
theorem access_completes {ins : Instr} {s : State} {f : Form} {i : In} (h : GroupIssues s f i) (r u : List Nat)
    (upd : Chunk → Chunk) (room : roomFor i r u upd) (ls : List Nat) (vs : List (Nat × Word)) (es : List Eff)
    (stores : List Host.Cell) (tags : List TagStore)
    (hupd : ∀ c c1, i.g.cur = some c → c1.stores = c.stores → c1.tags = c.tags → c1.effs = c.effs →
      (upd c1).stores = stores ++ c.stores ∧ (upd c1).tags = tags ++ c.tags ∧ (upd c1).effs = c.effs)
    (w : Work) (fates : Table Fate) (hf : ∀ e ∈ fates, e.2 ≠ Fate.leave)
    (hw : w = { addEffs (flyAll (onRegs (memAccess i (issueWork i) r u upd) (releaseSources i ls)) 0 vs) es with fates := fates })
    (he : exec ins s = .next (finish i w)) (Q : Group → Prop)
    (hQ : ∀ g, tget (finish i w).groups i.gid = some g → Q g) :
    Completes ins s i (fun g => VectorsPending i g ls (vs.map (·.1)) ∧
      ChunksGain i g stores tags es (resultsOf (released i ls).v 0 vs) ∧ SpecialsKept i g ∧ Q g) := by
  obtain ⟨c, c1, hc, hent, hmem⟩ := memAccess_room (w := issueWork i) rfl room
  obtain ⟨k1, k2, k3⟩ := enterAccess_contents hent
  obtain ⟨u1, u2, u3⟩ := hupd c c1 hc k1 k2 k3
  set w1 := onRegs (memAccess i (issueWork i) r u upd) (releaseSources i ls) with hw1
  have hg1 : w1.g = { i.g with regs := released i ls, cur := some (upd c1) } := by rw [hw1, hmem]; rfl
  obtain ⟨h1, h2, ⟨fl, h3⟩, ⟨n, h4⟩⟩ := flyAll_vector vs w1
  set w2 := flyAll w1 0 vs with hw2
  have hspec := releaseSources_special i ls i.g.regs
  have hcur : w2.g.cur = some (upd c1) := by rw [h3, hg1]
  have hopen : w2.g.cur.isSome = true := by rw [hcur]; rfl
  have pl : Plain i w := by
    rw [hw]
    refine ⟨?_, ?_, ?_, hf, ?_, ?_, ?_⟩
    · simp only [addEffs, onChunk]; rw [h4]; simp only [hw1, hmem, onRegs]; rfl
    · simp only [addEffs, onChunk]; rw [h4]; simp only [hw1, hmem, onRegs]; rfl
    · simp only [addEffs, onChunk]; rw [h4]; simp only [hw1, hmem, onRegs]; rfl
    · simp only [addEffs, onChunk]; rw [h4]; simp only [hw1, hmem, onRegs]; exact fun _ _ => rfl
    · simp only [addEffs, onChunk]; rw [h4]; simp only [hw1, hmem, onRegs]; rfl
    · simp only [addEffs, onChunk, standingOf]; rw [h3, hg1]
  obtain ⟨g, hg, q, rk⟩ := finish_plain h pl
  obtain ⟨e1, e2, e3⟩ := ownEffs_addEffs w2 es hopen
  have hinf : w2.g.inflight = i.g.inflight := by rw [h3, hg1]
  have own : ownStores w2.g = stores ++ ownStores i.g ∧ ownTags w2.g = tags ++ ownTags i.g ∧ ownEffs w2.g = ownEffs i.g := by
    simp [ownStores, ownTags, ownEffs, ownChunks, hcur, hinf, hc, u1, u2, u3]
  have hwg : w.g = (addEffs w2 es).g := by rw [hw]
  have hregs : w.g.regs = { released i ls with v := w2.g.regs.v } := by
    rw [hwg]; simp only [addEffs, onChunk]; rw [h3, hg1]
  refine ⟨_, g, he, hg, ⟨⟨?_, ?_, ?_⟩, ⟨?_, ?_, ?_, ?_⟩, ⟨?_, ?_, ?_, ?_, ?_⟩, hQ g hg⟩, rk⟩
  · rw [q.v, hregs]; simp only [h1, hg1]
  · rw [q.s, hregs]
  · rw [q.p, hregs]
  · rw [q.stores, hwg, e2, own.1]
  · rw [q.tags, hwg, e3, own.2.1]
  · rw [q.effs, hwg, e1, own.2.2]
  · rw [q.flights, hwg]
    have : (addEffs w2 es).g.flights = w2.g.flights := rfl
    rw [this, h2, hg1]
  · rw [q.tiles, hregs]; exact hspec.tiles
  · rw [q.accs, hregs]; exact hspec.accs
  · rw [q.masks, hregs]; exact hspec.masks
  · rw [q.unjoined, hregs]; exact hspec.unjoined
  · rw [q.trap, hregs]; simp only [released, hspec.trap]

end Sys2Proof.Machine
end

