-- ==== Sys2Proof/Laws/State.lean ====
section
/-! SUPPORT. What each named update of State does to each field of it, true by rfl, so that no proof unfolds a record
update; and reading back the one entry that an update sets. -/

namespace Sys2Proof.Machine

/-! ### setGroup -/

@[simp] theorem setGroup_cycle (s : State) (k : Nat) (v : Group) : (setGroup s k v).cycle = s.cycle := rfl
@[simp] theorem setGroup_chipPhase (s : State) (k : Nat) (v : Group) : (setGroup s k v).chipPhase = s.chipPhase := rfl
@[simp] theorem setGroup_dev (s : State) (k : Nat) (v : Group) : (setGroup s k v).dev = s.dev := rfl
@[simp] theorem setGroup_parts (s : State) (k : Nat) (v : Group) : (setGroup s k v).parts = s.parts := rfl
@[simp] theorem setGroup_launches (s : State) (k : Nat) (v : Group) : (setGroup s k v).launches = s.launches := rfl
@[simp] theorem setGroup_teams (s : State) (k : Nat) (v : Group) : (setGroup s k v).teams = s.teams := rfl
@[simp] theorem setGroup_retired (s : State) (k : Nat) (v : Group) : (setGroup s k v).retired = s.retired := rfl
@[simp] theorem setGroup_groups (s : State) (k : Nat) (v : Group) : (setGroup s k v).groups = tput s.groups k v := rfl
@[simp] theorem setGroup_clusters (s : State) (k : Nat) (v : Group) : (setGroup s k v).clusters = s.clusters := rfl
@[simp] theorem setGroup_cores (s : State) (k : Nat) (v : Group) : (setGroup s k v).cores = s.cores := rfl
@[simp] theorem setGroup_engines (s : State) (k : Nat) (v : Group) : (setGroup s k v).engines = s.engines := rfl
@[simp] theorem setGroup_lattices (s : State) (k : Nat) (v : Group) : (setGroup s k v).lattices = s.lattices := rfl
@[simp] theorem setGroup_biased (s : State) (k : Nat) (v : Group) : (setGroup s k v).biased = s.biased := rfl
@[simp] theorem setGroup_gred (s : State) (k : Nat) (v : Group) : (setGroup s k v).gred = s.gred := rfl
@[simp] theorem setGroup_lmem (s : State) (k : Nat) (v : Group) : (setGroup s k v).lmem = s.lmem := rfl
@[simp] theorem setGroup_lbits (s : State) (k : Nat) (v : Group) : (setGroup s k v).lbits = s.lbits := rfl
@[simp] theorem setGroup_lsnap (s : State) (k : Nat) (v : Group) : (setGroup s k v).lsnap = s.lsnap := rfl
@[simp] theorem setGroup_cmem (s : State) (k : Nat) (v : Group) : (setGroup s k v).cmem = s.cmem := rfl
@[simp] theorem setGroup_gmem (s : State) (k : Nat) (v : Group) : (setGroup s k v).gmem = s.gmem := rfl
@[simp] theorem setGroup_pages (s : State) (k : Nat) (v : Group) : (setGroup s k v).pages = s.pages := rfl
@[simp] theorem setGroup_lags (s : State) (k : Nat) (v : Group) : (setGroup s k v).lags = s.lags := rfl
@[simp] theorem setGroup_lost (s : State) (k : Nat) (v : Group) : (setGroup s k v).lost = s.lost := rfl
@[simp] theorem setGroup_fabric (s : State) (k : Nat) (v : Group) : (setGroup s k v).fabric = s.fabric := rfl
@[simp] theorem setGroup_fabricOut (s : State) (k : Nat) (v : Group) : (setGroup s k v).fabricOut = s.fabricOut := rfl
@[simp] theorem setGroup_spanOut (s : State) (k : Nat) (v : Group) : (setGroup s k v).spanOut = s.spanOut := rfl
@[simp] theorem setGroup_pool (s : State) (k : Nat) (v : Group) : (setGroup s k v).pool = s.pool := rfl
@[simp] theorem setGroup_sessions (s : State) (k : Nat) (v : Group) : (setGroup s k v).sessions = s.sessions := rfl
@[simp] theorem setGroup_nextSession (s : State) (k : Nat) (v : Group) : (setGroup s k v).nextSession = s.nextSession := rfl
@[simp] theorem setGroup_sent (s : State) (k : Nat) (v : Group) : (setGroup s k v).sent = s.sent := rfl
@[simp] theorem setGroup_issue (s : State) (k : Nat) (v : Group) : (setGroup s k v).issue = s.issue := rfl
@[simp] theorem setGroup_agenda (s : State) (k : Nat) (v : Group) : (setGroup s k v).agenda = s.agenda := rfl
@[simp] theorem setGroup_nextId (s : State) (k : Nat) (v : Group) : (setGroup s k v).nextId = s.nextId := rfl
@[simp] theorem setGroup_freeCount (s : State) (k : Nat) (v : Group) : (setGroup s k v).freeCount = s.freeCount := rfl

/-! ### setTeam -/

@[simp] theorem setTeam_cycle (s : State) (k : Nat) (v : Team) : (setTeam s k v).cycle = s.cycle := rfl
@[simp] theorem setTeam_chipPhase (s : State) (k : Nat) (v : Team) : (setTeam s k v).chipPhase = s.chipPhase := rfl
@[simp] theorem setTeam_dev (s : State) (k : Nat) (v : Team) : (setTeam s k v).dev = s.dev := rfl
@[simp] theorem setTeam_parts (s : State) (k : Nat) (v : Team) : (setTeam s k v).parts = s.parts := rfl
@[simp] theorem setTeam_launches (s : State) (k : Nat) (v : Team) : (setTeam s k v).launches = s.launches := rfl
@[simp] theorem setTeam_teams (s : State) (k : Nat) (v : Team) : (setTeam s k v).teams = tput s.teams k v := rfl
@[simp] theorem setTeam_retired (s : State) (k : Nat) (v : Team) : (setTeam s k v).retired = s.retired := rfl
@[simp] theorem setTeam_groups (s : State) (k : Nat) (v : Team) : (setTeam s k v).groups = s.groups := rfl
@[simp] theorem setTeam_clusters (s : State) (k : Nat) (v : Team) : (setTeam s k v).clusters = s.clusters := rfl
@[simp] theorem setTeam_cores (s : State) (k : Nat) (v : Team) : (setTeam s k v).cores = s.cores := rfl
@[simp] theorem setTeam_engines (s : State) (k : Nat) (v : Team) : (setTeam s k v).engines = s.engines := rfl
@[simp] theorem setTeam_lattices (s : State) (k : Nat) (v : Team) : (setTeam s k v).lattices = s.lattices := rfl
@[simp] theorem setTeam_biased (s : State) (k : Nat) (v : Team) : (setTeam s k v).biased = s.biased := rfl
@[simp] theorem setTeam_gred (s : State) (k : Nat) (v : Team) : (setTeam s k v).gred = s.gred := rfl
@[simp] theorem setTeam_lmem (s : State) (k : Nat) (v : Team) : (setTeam s k v).lmem = s.lmem := rfl
@[simp] theorem setTeam_lbits (s : State) (k : Nat) (v : Team) : (setTeam s k v).lbits = s.lbits := rfl
@[simp] theorem setTeam_lsnap (s : State) (k : Nat) (v : Team) : (setTeam s k v).lsnap = s.lsnap := rfl
@[simp] theorem setTeam_cmem (s : State) (k : Nat) (v : Team) : (setTeam s k v).cmem = s.cmem := rfl
@[simp] theorem setTeam_gmem (s : State) (k : Nat) (v : Team) : (setTeam s k v).gmem = s.gmem := rfl
@[simp] theorem setTeam_pages (s : State) (k : Nat) (v : Team) : (setTeam s k v).pages = s.pages := rfl
@[simp] theorem setTeam_lags (s : State) (k : Nat) (v : Team) : (setTeam s k v).lags = s.lags := rfl
@[simp] theorem setTeam_lost (s : State) (k : Nat) (v : Team) : (setTeam s k v).lost = s.lost := rfl
@[simp] theorem setTeam_fabric (s : State) (k : Nat) (v : Team) : (setTeam s k v).fabric = s.fabric := rfl
@[simp] theorem setTeam_fabricOut (s : State) (k : Nat) (v : Team) : (setTeam s k v).fabricOut = s.fabricOut := rfl
@[simp] theorem setTeam_spanOut (s : State) (k : Nat) (v : Team) : (setTeam s k v).spanOut = s.spanOut := rfl
@[simp] theorem setTeam_pool (s : State) (k : Nat) (v : Team) : (setTeam s k v).pool = s.pool := rfl
@[simp] theorem setTeam_sessions (s : State) (k : Nat) (v : Team) : (setTeam s k v).sessions = s.sessions := rfl
@[simp] theorem setTeam_nextSession (s : State) (k : Nat) (v : Team) : (setTeam s k v).nextSession = s.nextSession := rfl
@[simp] theorem setTeam_sent (s : State) (k : Nat) (v : Team) : (setTeam s k v).sent = s.sent := rfl
@[simp] theorem setTeam_issue (s : State) (k : Nat) (v : Team) : (setTeam s k v).issue = s.issue := rfl
@[simp] theorem setTeam_agenda (s : State) (k : Nat) (v : Team) : (setTeam s k v).agenda = s.agenda := rfl
@[simp] theorem setTeam_nextId (s : State) (k : Nat) (v : Team) : (setTeam s k v).nextId = s.nextId := rfl
@[simp] theorem setTeam_freeCount (s : State) (k : Nat) (v : Team) : (setTeam s k v).freeCount = s.freeCount := rfl

/-! ### setLaunch -/

@[simp] theorem setLaunch_cycle (s : State) (k : Nat) (v : Launch) : (setLaunch s k v).cycle = s.cycle := rfl
@[simp] theorem setLaunch_chipPhase (s : State) (k : Nat) (v : Launch) : (setLaunch s k v).chipPhase = s.chipPhase := rfl
@[simp] theorem setLaunch_dev (s : State) (k : Nat) (v : Launch) : (setLaunch s k v).dev = s.dev := rfl
@[simp] theorem setLaunch_parts (s : State) (k : Nat) (v : Launch) : (setLaunch s k v).parts = s.parts := rfl
@[simp] theorem setLaunch_launches (s : State) (k : Nat) (v : Launch) : (setLaunch s k v).launches = tput s.launches k v := rfl
@[simp] theorem setLaunch_teams (s : State) (k : Nat) (v : Launch) : (setLaunch s k v).teams = s.teams := rfl
@[simp] theorem setLaunch_retired (s : State) (k : Nat) (v : Launch) : (setLaunch s k v).retired = s.retired := rfl
@[simp] theorem setLaunch_groups (s : State) (k : Nat) (v : Launch) : (setLaunch s k v).groups = s.groups := rfl
@[simp] theorem setLaunch_clusters (s : State) (k : Nat) (v : Launch) : (setLaunch s k v).clusters = s.clusters := rfl
@[simp] theorem setLaunch_cores (s : State) (k : Nat) (v : Launch) : (setLaunch s k v).cores = s.cores := rfl
@[simp] theorem setLaunch_engines (s : State) (k : Nat) (v : Launch) : (setLaunch s k v).engines = s.engines := rfl
@[simp] theorem setLaunch_lattices (s : State) (k : Nat) (v : Launch) : (setLaunch s k v).lattices = s.lattices := rfl
@[simp] theorem setLaunch_biased (s : State) (k : Nat) (v : Launch) : (setLaunch s k v).biased = s.biased := rfl
@[simp] theorem setLaunch_gred (s : State) (k : Nat) (v : Launch) : (setLaunch s k v).gred = s.gred := rfl
@[simp] theorem setLaunch_lmem (s : State) (k : Nat) (v : Launch) : (setLaunch s k v).lmem = s.lmem := rfl
@[simp] theorem setLaunch_lbits (s : State) (k : Nat) (v : Launch) : (setLaunch s k v).lbits = s.lbits := rfl
@[simp] theorem setLaunch_lsnap (s : State) (k : Nat) (v : Launch) : (setLaunch s k v).lsnap = s.lsnap := rfl
@[simp] theorem setLaunch_cmem (s : State) (k : Nat) (v : Launch) : (setLaunch s k v).cmem = s.cmem := rfl
@[simp] theorem setLaunch_gmem (s : State) (k : Nat) (v : Launch) : (setLaunch s k v).gmem = s.gmem := rfl
@[simp] theorem setLaunch_pages (s : State) (k : Nat) (v : Launch) : (setLaunch s k v).pages = s.pages := rfl
@[simp] theorem setLaunch_lags (s : State) (k : Nat) (v : Launch) : (setLaunch s k v).lags = s.lags := rfl
@[simp] theorem setLaunch_lost (s : State) (k : Nat) (v : Launch) : (setLaunch s k v).lost = s.lost := rfl
@[simp] theorem setLaunch_fabric (s : State) (k : Nat) (v : Launch) : (setLaunch s k v).fabric = s.fabric := rfl
@[simp] theorem setLaunch_fabricOut (s : State) (k : Nat) (v : Launch) : (setLaunch s k v).fabricOut = s.fabricOut := rfl
@[simp] theorem setLaunch_spanOut (s : State) (k : Nat) (v : Launch) : (setLaunch s k v).spanOut = s.spanOut := rfl
@[simp] theorem setLaunch_pool (s : State) (k : Nat) (v : Launch) : (setLaunch s k v).pool = s.pool := rfl
@[simp] theorem setLaunch_sessions (s : State) (k : Nat) (v : Launch) : (setLaunch s k v).sessions = s.sessions := rfl
@[simp] theorem setLaunch_nextSession (s : State) (k : Nat) (v : Launch) : (setLaunch s k v).nextSession = s.nextSession := rfl
@[simp] theorem setLaunch_sent (s : State) (k : Nat) (v : Launch) : (setLaunch s k v).sent = s.sent := rfl
@[simp] theorem setLaunch_issue (s : State) (k : Nat) (v : Launch) : (setLaunch s k v).issue = s.issue := rfl
@[simp] theorem setLaunch_agenda (s : State) (k : Nat) (v : Launch) : (setLaunch s k v).agenda = s.agenda := rfl
@[simp] theorem setLaunch_nextId (s : State) (k : Nat) (v : Launch) : (setLaunch s k v).nextId = s.nextId := rfl
@[simp] theorem setLaunch_freeCount (s : State) (k : Nat) (v : Launch) : (setLaunch s k v).freeCount = s.freeCount := rfl

/-! ### setPart -/

@[simp] theorem setPart_cycle (s : State) (k : Nat) (v : Part) : (setPart s k v).cycle = s.cycle := rfl
@[simp] theorem setPart_chipPhase (s : State) (k : Nat) (v : Part) : (setPart s k v).chipPhase = s.chipPhase := rfl
@[simp] theorem setPart_dev (s : State) (k : Nat) (v : Part) : (setPart s k v).dev = s.dev := rfl
@[simp] theorem setPart_parts (s : State) (k : Nat) (v : Part) : (setPart s k v).parts = tput s.parts k v := rfl
@[simp] theorem setPart_launches (s : State) (k : Nat) (v : Part) : (setPart s k v).launches = s.launches := rfl
@[simp] theorem setPart_teams (s : State) (k : Nat) (v : Part) : (setPart s k v).teams = s.teams := rfl
@[simp] theorem setPart_retired (s : State) (k : Nat) (v : Part) : (setPart s k v).retired = s.retired := rfl
@[simp] theorem setPart_groups (s : State) (k : Nat) (v : Part) : (setPart s k v).groups = s.groups := rfl
@[simp] theorem setPart_clusters (s : State) (k : Nat) (v : Part) : (setPart s k v).clusters = s.clusters := rfl
@[simp] theorem setPart_cores (s : State) (k : Nat) (v : Part) : (setPart s k v).cores = s.cores := rfl
@[simp] theorem setPart_engines (s : State) (k : Nat) (v : Part) : (setPart s k v).engines = s.engines := rfl
@[simp] theorem setPart_lattices (s : State) (k : Nat) (v : Part) : (setPart s k v).lattices = s.lattices := rfl
@[simp] theorem setPart_biased (s : State) (k : Nat) (v : Part) : (setPart s k v).biased = s.biased := rfl
@[simp] theorem setPart_gred (s : State) (k : Nat) (v : Part) : (setPart s k v).gred = s.gred := rfl
@[simp] theorem setPart_lmem (s : State) (k : Nat) (v : Part) : (setPart s k v).lmem = s.lmem := rfl
@[simp] theorem setPart_lbits (s : State) (k : Nat) (v : Part) : (setPart s k v).lbits = s.lbits := rfl
@[simp] theorem setPart_lsnap (s : State) (k : Nat) (v : Part) : (setPart s k v).lsnap = s.lsnap := rfl
@[simp] theorem setPart_cmem (s : State) (k : Nat) (v : Part) : (setPart s k v).cmem = s.cmem := rfl
@[simp] theorem setPart_gmem (s : State) (k : Nat) (v : Part) : (setPart s k v).gmem = s.gmem := rfl
@[simp] theorem setPart_pages (s : State) (k : Nat) (v : Part) : (setPart s k v).pages = s.pages := rfl
@[simp] theorem setPart_lags (s : State) (k : Nat) (v : Part) : (setPart s k v).lags = s.lags := rfl
@[simp] theorem setPart_lost (s : State) (k : Nat) (v : Part) : (setPart s k v).lost = s.lost := rfl
@[simp] theorem setPart_fabric (s : State) (k : Nat) (v : Part) : (setPart s k v).fabric = s.fabric := rfl
@[simp] theorem setPart_fabricOut (s : State) (k : Nat) (v : Part) : (setPart s k v).fabricOut = s.fabricOut := rfl
@[simp] theorem setPart_spanOut (s : State) (k : Nat) (v : Part) : (setPart s k v).spanOut = s.spanOut := rfl
@[simp] theorem setPart_pool (s : State) (k : Nat) (v : Part) : (setPart s k v).pool = s.pool := rfl
@[simp] theorem setPart_sessions (s : State) (k : Nat) (v : Part) : (setPart s k v).sessions = s.sessions := rfl
@[simp] theorem setPart_nextSession (s : State) (k : Nat) (v : Part) : (setPart s k v).nextSession = s.nextSession := rfl
@[simp] theorem setPart_sent (s : State) (k : Nat) (v : Part) : (setPart s k v).sent = s.sent := rfl
@[simp] theorem setPart_issue (s : State) (k : Nat) (v : Part) : (setPart s k v).issue = s.issue := rfl
@[simp] theorem setPart_agenda (s : State) (k : Nat) (v : Part) : (setPart s k v).agenda = s.agenda := rfl
@[simp] theorem setPart_nextId (s : State) (k : Nat) (v : Part) : (setPart s k v).nextId = s.nextId := rfl
@[simp] theorem setPart_freeCount (s : State) (k : Nat) (v : Part) : (setPart s k v).freeCount = s.freeCount := rfl

/-! ### setCluster -/

@[simp] theorem setCluster_cycle (s : State) (k : Nat) (v : Cluster) : (setCluster s k v).cycle = s.cycle := rfl
@[simp] theorem setCluster_chipPhase (s : State) (k : Nat) (v : Cluster) : (setCluster s k v).chipPhase = s.chipPhase := rfl
@[simp] theorem setCluster_dev (s : State) (k : Nat) (v : Cluster) : (setCluster s k v).dev = s.dev := rfl
@[simp] theorem setCluster_parts (s : State) (k : Nat) (v : Cluster) : (setCluster s k v).parts = s.parts := rfl
@[simp] theorem setCluster_launches (s : State) (k : Nat) (v : Cluster) : (setCluster s k v).launches = s.launches := rfl
@[simp] theorem setCluster_teams (s : State) (k : Nat) (v : Cluster) : (setCluster s k v).teams = s.teams := rfl
@[simp] theorem setCluster_retired (s : State) (k : Nat) (v : Cluster) : (setCluster s k v).retired = s.retired := rfl
@[simp] theorem setCluster_groups (s : State) (k : Nat) (v : Cluster) : (setCluster s k v).groups = s.groups := rfl
@[simp] theorem setCluster_clusters (s : State) (k : Nat) (v : Cluster) : (setCluster s k v).clusters = tput s.clusters k v := rfl
@[simp] theorem setCluster_cores (s : State) (k : Nat) (v : Cluster) : (setCluster s k v).cores = s.cores := rfl
@[simp] theorem setCluster_engines (s : State) (k : Nat) (v : Cluster) : (setCluster s k v).engines = s.engines := rfl
@[simp] theorem setCluster_lattices (s : State) (k : Nat) (v : Cluster) : (setCluster s k v).lattices = s.lattices := rfl
@[simp] theorem setCluster_biased (s : State) (k : Nat) (v : Cluster) : (setCluster s k v).biased = s.biased := rfl
@[simp] theorem setCluster_gred (s : State) (k : Nat) (v : Cluster) : (setCluster s k v).gred = s.gred := rfl
@[simp] theorem setCluster_lmem (s : State) (k : Nat) (v : Cluster) : (setCluster s k v).lmem = s.lmem := rfl
@[simp] theorem setCluster_lbits (s : State) (k : Nat) (v : Cluster) : (setCluster s k v).lbits = s.lbits := rfl
@[simp] theorem setCluster_lsnap (s : State) (k : Nat) (v : Cluster) : (setCluster s k v).lsnap = s.lsnap := rfl
@[simp] theorem setCluster_cmem (s : State) (k : Nat) (v : Cluster) : (setCluster s k v).cmem = s.cmem := rfl
@[simp] theorem setCluster_gmem (s : State) (k : Nat) (v : Cluster) : (setCluster s k v).gmem = s.gmem := rfl
@[simp] theorem setCluster_pages (s : State) (k : Nat) (v : Cluster) : (setCluster s k v).pages = s.pages := rfl
@[simp] theorem setCluster_lags (s : State) (k : Nat) (v : Cluster) : (setCluster s k v).lags = s.lags := rfl
@[simp] theorem setCluster_lost (s : State) (k : Nat) (v : Cluster) : (setCluster s k v).lost = s.lost := rfl
@[simp] theorem setCluster_fabric (s : State) (k : Nat) (v : Cluster) : (setCluster s k v).fabric = s.fabric := rfl
@[simp] theorem setCluster_fabricOut (s : State) (k : Nat) (v : Cluster) : (setCluster s k v).fabricOut = s.fabricOut := rfl
@[simp] theorem setCluster_spanOut (s : State) (k : Nat) (v : Cluster) : (setCluster s k v).spanOut = s.spanOut := rfl
@[simp] theorem setCluster_pool (s : State) (k : Nat) (v : Cluster) : (setCluster s k v).pool = s.pool := rfl
@[simp] theorem setCluster_sessions (s : State) (k : Nat) (v : Cluster) : (setCluster s k v).sessions = s.sessions := rfl
@[simp] theorem setCluster_nextSession (s : State) (k : Nat) (v : Cluster) : (setCluster s k v).nextSession = s.nextSession := rfl
@[simp] theorem setCluster_sent (s : State) (k : Nat) (v : Cluster) : (setCluster s k v).sent = s.sent := rfl
@[simp] theorem setCluster_issue (s : State) (k : Nat) (v : Cluster) : (setCluster s k v).issue = s.issue := rfl
@[simp] theorem setCluster_agenda (s : State) (k : Nat) (v : Cluster) : (setCluster s k v).agenda = s.agenda := rfl
@[simp] theorem setCluster_nextId (s : State) (k : Nat) (v : Cluster) : (setCluster s k v).nextId = s.nextId := rfl
@[simp] theorem setCluster_freeCount (s : State) (k : Nat) (v : Cluster) : (setCluster s k v).freeCount = s.freeCount := rfl

/-! ### setEngine -/

@[simp] theorem setEngine_cycle (s : State) (k u : Nat) (v : Engine) : (setEngine s k u v).cycle = s.cycle := rfl
@[simp] theorem setEngine_chipPhase (s : State) (k u : Nat) (v : Engine) : (setEngine s k u v).chipPhase = s.chipPhase := rfl
@[simp] theorem setEngine_dev (s : State) (k u : Nat) (v : Engine) : (setEngine s k u v).dev = s.dev := rfl
@[simp] theorem setEngine_parts (s : State) (k u : Nat) (v : Engine) : (setEngine s k u v).parts = s.parts := rfl
@[simp] theorem setEngine_launches (s : State) (k u : Nat) (v : Engine) : (setEngine s k u v).launches = s.launches := rfl
@[simp] theorem setEngine_teams (s : State) (k u : Nat) (v : Engine) : (setEngine s k u v).teams = s.teams := rfl
@[simp] theorem setEngine_retired (s : State) (k u : Nat) (v : Engine) : (setEngine s k u v).retired = s.retired := rfl
@[simp] theorem setEngine_groups (s : State) (k u : Nat) (v : Engine) : (setEngine s k u v).groups = s.groups := rfl
@[simp] theorem setEngine_clusters (s : State) (k u : Nat) (v : Engine) : (setEngine s k u v).clusters = s.clusters := rfl
@[simp] theorem setEngine_cores (s : State) (k u : Nat) (v : Engine) : (setEngine s k u v).cores = s.cores := rfl
@[simp] theorem setEngine_engines (s : State) (k u : Nat) (v : Engine) : (setEngine s k u v).engines = tput s.engines (k * 8 + u) v := rfl
@[simp] theorem setEngine_lattices (s : State) (k u : Nat) (v : Engine) : (setEngine s k u v).lattices = s.lattices := rfl
@[simp] theorem setEngine_biased (s : State) (k u : Nat) (v : Engine) : (setEngine s k u v).biased = s.biased := rfl
@[simp] theorem setEngine_gred (s : State) (k u : Nat) (v : Engine) : (setEngine s k u v).gred = s.gred := rfl
@[simp] theorem setEngine_lmem (s : State) (k u : Nat) (v : Engine) : (setEngine s k u v).lmem = s.lmem := rfl
@[simp] theorem setEngine_lbits (s : State) (k u : Nat) (v : Engine) : (setEngine s k u v).lbits = s.lbits := rfl
@[simp] theorem setEngine_lsnap (s : State) (k u : Nat) (v : Engine) : (setEngine s k u v).lsnap = s.lsnap := rfl
@[simp] theorem setEngine_cmem (s : State) (k u : Nat) (v : Engine) : (setEngine s k u v).cmem = s.cmem := rfl
@[simp] theorem setEngine_gmem (s : State) (k u : Nat) (v : Engine) : (setEngine s k u v).gmem = s.gmem := rfl
@[simp] theorem setEngine_pages (s : State) (k u : Nat) (v : Engine) : (setEngine s k u v).pages = s.pages := rfl
@[simp] theorem setEngine_lags (s : State) (k u : Nat) (v : Engine) : (setEngine s k u v).lags = s.lags := rfl
@[simp] theorem setEngine_lost (s : State) (k u : Nat) (v : Engine) : (setEngine s k u v).lost = s.lost := rfl
@[simp] theorem setEngine_fabric (s : State) (k u : Nat) (v : Engine) : (setEngine s k u v).fabric = s.fabric := rfl
@[simp] theorem setEngine_fabricOut (s : State) (k u : Nat) (v : Engine) : (setEngine s k u v).fabricOut = s.fabricOut := rfl
@[simp] theorem setEngine_spanOut (s : State) (k u : Nat) (v : Engine) : (setEngine s k u v).spanOut = s.spanOut := rfl
@[simp] theorem setEngine_pool (s : State) (k u : Nat) (v : Engine) : (setEngine s k u v).pool = s.pool := rfl
@[simp] theorem setEngine_sessions (s : State) (k u : Nat) (v : Engine) : (setEngine s k u v).sessions = s.sessions := rfl
@[simp] theorem setEngine_nextSession (s : State) (k u : Nat) (v : Engine) : (setEngine s k u v).nextSession = s.nextSession := rfl
@[simp] theorem setEngine_sent (s : State) (k u : Nat) (v : Engine) : (setEngine s k u v).sent = s.sent := rfl
@[simp] theorem setEngine_issue (s : State) (k u : Nat) (v : Engine) : (setEngine s k u v).issue = s.issue := rfl
@[simp] theorem setEngine_agenda (s : State) (k u : Nat) (v : Engine) : (setEngine s k u v).agenda = s.agenda := rfl
@[simp] theorem setEngine_nextId (s : State) (k u : Nat) (v : Engine) : (setEngine s k u v).nextId = s.nextId := rfl
@[simp] theorem setEngine_freeCount (s : State) (k u : Nat) (v : Engine) : (setEngine s k u v).freeCount = s.freeCount := rfl

/-! ### setLattice -/

@[simp] theorem setLattice_cycle (s : State) (k l : Nat) (v : Lattice) : (setLattice s k l v).cycle = s.cycle := rfl
@[simp] theorem setLattice_chipPhase (s : State) (k l : Nat) (v : Lattice) : (setLattice s k l v).chipPhase = s.chipPhase := rfl
@[simp] theorem setLattice_dev (s : State) (k l : Nat) (v : Lattice) : (setLattice s k l v).dev = s.dev := rfl
@[simp] theorem setLattice_parts (s : State) (k l : Nat) (v : Lattice) : (setLattice s k l v).parts = s.parts := rfl
@[simp] theorem setLattice_launches (s : State) (k l : Nat) (v : Lattice) : (setLattice s k l v).launches = s.launches := rfl
@[simp] theorem setLattice_teams (s : State) (k l : Nat) (v : Lattice) : (setLattice s k l v).teams = s.teams := rfl
@[simp] theorem setLattice_retired (s : State) (k l : Nat) (v : Lattice) : (setLattice s k l v).retired = s.retired := rfl
@[simp] theorem setLattice_groups (s : State) (k l : Nat) (v : Lattice) : (setLattice s k l v).groups = s.groups := rfl
@[simp] theorem setLattice_clusters (s : State) (k l : Nat) (v : Lattice) : (setLattice s k l v).clusters = s.clusters := rfl
@[simp] theorem setLattice_cores (s : State) (k l : Nat) (v : Lattice) : (setLattice s k l v).cores = s.cores := rfl
@[simp] theorem setLattice_engines (s : State) (k l : Nat) (v : Lattice) : (setLattice s k l v).engines = s.engines := rfl
@[simp] theorem setLattice_lattices (s : State) (k l : Nat) (v : Lattice) : (setLattice s k l v).lattices = tput s.lattices (k * 2 + l) v := rfl
@[simp] theorem setLattice_biased (s : State) (k l : Nat) (v : Lattice) : (setLattice s k l v).biased = s.biased := rfl
@[simp] theorem setLattice_gred (s : State) (k l : Nat) (v : Lattice) : (setLattice s k l v).gred = s.gred := rfl
@[simp] theorem setLattice_lmem (s : State) (k l : Nat) (v : Lattice) : (setLattice s k l v).lmem = s.lmem := rfl
@[simp] theorem setLattice_lbits (s : State) (k l : Nat) (v : Lattice) : (setLattice s k l v).lbits = s.lbits := rfl
@[simp] theorem setLattice_lsnap (s : State) (k l : Nat) (v : Lattice) : (setLattice s k l v).lsnap = s.lsnap := rfl
@[simp] theorem setLattice_cmem (s : State) (k l : Nat) (v : Lattice) : (setLattice s k l v).cmem = s.cmem := rfl
@[simp] theorem setLattice_gmem (s : State) (k l : Nat) (v : Lattice) : (setLattice s k l v).gmem = s.gmem := rfl
@[simp] theorem setLattice_pages (s : State) (k l : Nat) (v : Lattice) : (setLattice s k l v).pages = s.pages := rfl
@[simp] theorem setLattice_lags (s : State) (k l : Nat) (v : Lattice) : (setLattice s k l v).lags = s.lags := rfl
@[simp] theorem setLattice_lost (s : State) (k l : Nat) (v : Lattice) : (setLattice s k l v).lost = s.lost := rfl
@[simp] theorem setLattice_fabric (s : State) (k l : Nat) (v : Lattice) : (setLattice s k l v).fabric = s.fabric := rfl
@[simp] theorem setLattice_fabricOut (s : State) (k l : Nat) (v : Lattice) : (setLattice s k l v).fabricOut = s.fabricOut := rfl
@[simp] theorem setLattice_spanOut (s : State) (k l : Nat) (v : Lattice) : (setLattice s k l v).spanOut = s.spanOut := rfl
@[simp] theorem setLattice_pool (s : State) (k l : Nat) (v : Lattice) : (setLattice s k l v).pool = s.pool := rfl
@[simp] theorem setLattice_sessions (s : State) (k l : Nat) (v : Lattice) : (setLattice s k l v).sessions = s.sessions := rfl
@[simp] theorem setLattice_nextSession (s : State) (k l : Nat) (v : Lattice) : (setLattice s k l v).nextSession = s.nextSession := rfl
@[simp] theorem setLattice_sent (s : State) (k l : Nat) (v : Lattice) : (setLattice s k l v).sent = s.sent := rfl
@[simp] theorem setLattice_issue (s : State) (k l : Nat) (v : Lattice) : (setLattice s k l v).issue = s.issue := rfl
@[simp] theorem setLattice_agenda (s : State) (k l : Nat) (v : Lattice) : (setLattice s k l v).agenda = s.agenda := rfl
@[simp] theorem setLattice_nextId (s : State) (k l : Nat) (v : Lattice) : (setLattice s k l v).nextId = s.nextId := rfl
@[simp] theorem setLattice_freeCount (s : State) (k l : Nat) (v : Lattice) : (setLattice s k l v).freeCount = s.freeCount := rfl

/-! ### bumpMgmt -/

@[simp] theorem bumpMgmt_cycle (s : State) (k n : Nat) : (bumpMgmt s k n).cycle = s.cycle := rfl
@[simp] theorem bumpMgmt_chipPhase (s : State) (k n : Nat) : (bumpMgmt s k n).chipPhase = s.chipPhase := rfl
@[simp] theorem bumpMgmt_dev (s : State) (k n : Nat) : (bumpMgmt s k n).dev = { s.dev with counters := tupd s.dev.counters k 0 (· + n) } := rfl
@[simp] theorem bumpMgmt_parts (s : State) (k n : Nat) : (bumpMgmt s k n).parts = s.parts := rfl
@[simp] theorem bumpMgmt_launches (s : State) (k n : Nat) : (bumpMgmt s k n).launches = s.launches := rfl
@[simp] theorem bumpMgmt_teams (s : State) (k n : Nat) : (bumpMgmt s k n).teams = s.teams := rfl
@[simp] theorem bumpMgmt_retired (s : State) (k n : Nat) : (bumpMgmt s k n).retired = s.retired := rfl
@[simp] theorem bumpMgmt_groups (s : State) (k n : Nat) : (bumpMgmt s k n).groups = s.groups := rfl
@[simp] theorem bumpMgmt_clusters (s : State) (k n : Nat) : (bumpMgmt s k n).clusters = s.clusters := rfl
@[simp] theorem bumpMgmt_cores (s : State) (k n : Nat) : (bumpMgmt s k n).cores = s.cores := rfl
@[simp] theorem bumpMgmt_engines (s : State) (k n : Nat) : (bumpMgmt s k n).engines = s.engines := rfl
@[simp] theorem bumpMgmt_lattices (s : State) (k n : Nat) : (bumpMgmt s k n).lattices = s.lattices := rfl
@[simp] theorem bumpMgmt_biased (s : State) (k n : Nat) : (bumpMgmt s k n).biased = s.biased := rfl
@[simp] theorem bumpMgmt_gred (s : State) (k n : Nat) : (bumpMgmt s k n).gred = s.gred := rfl
@[simp] theorem bumpMgmt_lmem (s : State) (k n : Nat) : (bumpMgmt s k n).lmem = s.lmem := rfl
@[simp] theorem bumpMgmt_lbits (s : State) (k n : Nat) : (bumpMgmt s k n).lbits = s.lbits := rfl
@[simp] theorem bumpMgmt_lsnap (s : State) (k n : Nat) : (bumpMgmt s k n).lsnap = s.lsnap := rfl
@[simp] theorem bumpMgmt_cmem (s : State) (k n : Nat) : (bumpMgmt s k n).cmem = s.cmem := rfl
@[simp] theorem bumpMgmt_gmem (s : State) (k n : Nat) : (bumpMgmt s k n).gmem = s.gmem := rfl
@[simp] theorem bumpMgmt_pages (s : State) (k n : Nat) : (bumpMgmt s k n).pages = s.pages := rfl
@[simp] theorem bumpMgmt_lags (s : State) (k n : Nat) : (bumpMgmt s k n).lags = s.lags := rfl
@[simp] theorem bumpMgmt_lost (s : State) (k n : Nat) : (bumpMgmt s k n).lost = s.lost := rfl
@[simp] theorem bumpMgmt_fabric (s : State) (k n : Nat) : (bumpMgmt s k n).fabric = s.fabric := rfl
@[simp] theorem bumpMgmt_fabricOut (s : State) (k n : Nat) : (bumpMgmt s k n).fabricOut = s.fabricOut := rfl
@[simp] theorem bumpMgmt_spanOut (s : State) (k n : Nat) : (bumpMgmt s k n).spanOut = s.spanOut := rfl
@[simp] theorem bumpMgmt_pool (s : State) (k n : Nat) : (bumpMgmt s k n).pool = s.pool := rfl
@[simp] theorem bumpMgmt_sessions (s : State) (k n : Nat) : (bumpMgmt s k n).sessions = s.sessions := rfl
@[simp] theorem bumpMgmt_nextSession (s : State) (k n : Nat) : (bumpMgmt s k n).nextSession = s.nextSession := rfl
@[simp] theorem bumpMgmt_sent (s : State) (k n : Nat) : (bumpMgmt s k n).sent = s.sent := rfl
@[simp] theorem bumpMgmt_issue (s : State) (k n : Nat) : (bumpMgmt s k n).issue = s.issue := rfl
@[simp] theorem bumpMgmt_agenda (s : State) (k n : Nat) : (bumpMgmt s k n).agenda = s.agenda := rfl
@[simp] theorem bumpMgmt_nextId (s : State) (k n : Nat) : (bumpMgmt s k n).nextId = s.nextId := rfl
@[simp] theorem bumpMgmt_freeCount (s : State) (k n : Nat) : (bumpMgmt s k n).freeCount = s.freeCount := rfl

/-! ### setProg -/

@[simp] theorem setProg_cycle (s : State) (k u : Nat) (v : Prog) : (setProg s k u v).cycle = s.cycle := rfl
@[simp] theorem setProg_chipPhase (s : State) (k u : Nat) (v : Prog) : (setProg s k u v).chipPhase = s.chipPhase := rfl
@[simp] theorem setProg_dev (s : State) (k u : Nat) (v : Prog) : (setProg s k u v).dev = s.dev := rfl
@[simp] theorem setProg_parts (s : State) (k u : Nat) (v : Prog) : (setProg s k u v).parts = s.parts := rfl
@[simp] theorem setProg_launches (s : State) (k u : Nat) (v : Prog) : (setProg s k u v).launches = s.launches := rfl
@[simp] theorem setProg_teams (s : State) (k u : Nat) (v : Prog) : (setProg s k u v).teams = s.teams := rfl
@[simp] theorem setProg_retired (s : State) (k u : Nat) (v : Prog) : (setProg s k u v).retired = s.retired := rfl
@[simp] theorem setProg_groups (s : State) (k u : Nat) (v : Prog) : (setProg s k u v).groups = s.groups := rfl
@[simp] theorem setProg_clusters (s : State) (k u : Nat) (v : Prog) : (setProg s k u v).clusters = s.clusters := rfl
@[simp] theorem setProg_cores (s : State) (k u : Nat) (v : Prog) : (setProg s k u v).cores = s.cores := rfl
@[simp] theorem setProg_engines (s : State) (k u : Nat) (v : Prog) : (setProg s k u v).engines = tput s.engines (k * 8 + u) { engineAt s k u with run := some v } := rfl
@[simp] theorem setProg_lattices (s : State) (k u : Nat) (v : Prog) : (setProg s k u v).lattices = s.lattices := rfl
@[simp] theorem setProg_biased (s : State) (k u : Nat) (v : Prog) : (setProg s k u v).biased = s.biased := rfl
@[simp] theorem setProg_gred (s : State) (k u : Nat) (v : Prog) : (setProg s k u v).gred = s.gred := rfl
@[simp] theorem setProg_lmem (s : State) (k u : Nat) (v : Prog) : (setProg s k u v).lmem = s.lmem := rfl
@[simp] theorem setProg_lbits (s : State) (k u : Nat) (v : Prog) : (setProg s k u v).lbits = s.lbits := rfl
@[simp] theorem setProg_lsnap (s : State) (k u : Nat) (v : Prog) : (setProg s k u v).lsnap = s.lsnap := rfl
@[simp] theorem setProg_cmem (s : State) (k u : Nat) (v : Prog) : (setProg s k u v).cmem = s.cmem := rfl
@[simp] theorem setProg_gmem (s : State) (k u : Nat) (v : Prog) : (setProg s k u v).gmem = s.gmem := rfl
@[simp] theorem setProg_pages (s : State) (k u : Nat) (v : Prog) : (setProg s k u v).pages = s.pages := rfl
@[simp] theorem setProg_lags (s : State) (k u : Nat) (v : Prog) : (setProg s k u v).lags = s.lags := rfl
@[simp] theorem setProg_lost (s : State) (k u : Nat) (v : Prog) : (setProg s k u v).lost = s.lost := rfl
@[simp] theorem setProg_fabric (s : State) (k u : Nat) (v : Prog) : (setProg s k u v).fabric = s.fabric := rfl
@[simp] theorem setProg_fabricOut (s : State) (k u : Nat) (v : Prog) : (setProg s k u v).fabricOut = s.fabricOut := rfl
@[simp] theorem setProg_spanOut (s : State) (k u : Nat) (v : Prog) : (setProg s k u v).spanOut = s.spanOut := rfl
@[simp] theorem setProg_pool (s : State) (k u : Nat) (v : Prog) : (setProg s k u v).pool = s.pool := rfl
@[simp] theorem setProg_sessions (s : State) (k u : Nat) (v : Prog) : (setProg s k u v).sessions = s.sessions := rfl
@[simp] theorem setProg_nextSession (s : State) (k u : Nat) (v : Prog) : (setProg s k u v).nextSession = s.nextSession := rfl
@[simp] theorem setProg_sent (s : State) (k u : Nat) (v : Prog) : (setProg s k u v).sent = s.sent := rfl
@[simp] theorem setProg_issue (s : State) (k u : Nat) (v : Prog) : (setProg s k u v).issue = s.issue := rfl
@[simp] theorem setProg_agenda (s : State) (k u : Nat) (v : Prog) : (setProg s k u v).agenda = s.agenda := rfl
@[simp] theorem setProg_nextId (s : State) (k u : Nat) (v : Prog) : (setProg s k u v).nextId = s.nextId := rfl
@[simp] theorem setProg_freeCount (s : State) (k u : Nat) (v : Prog) : (setProg s k u v).freeCount = s.freeCount := rfl

/-! ### Reading back -/

@[simp] theorem clusterAt_setCluster_self (s : State) (k : Nat) (v : Cluster) : clusterAt (setCluster s k v) k = v := by
  simp [clusterAt]

theorem clusterAt_setCluster_ne (s : State) (k j : Nat) (v : Cluster) (h : j ≠ k) :
    clusterAt (setCluster s k v) j = clusterAt s j := by
  simp [clusterAt, tgetD_tput_ne _ _ _ _ _ h]

@[simp] theorem engineAt_setEngine_self (s : State) (k u : Nat) (v : Engine) : engineAt (setEngine s k u v) k u = v := by
  simp [engineAt]

theorem engineAt_setEngine_ne (s : State) (k u j w : Nat) (v : Engine) (h : j * 8 + w ≠ k * 8 + u) :
    engineAt (setEngine s k u v) j w = engineAt s j w := by
  simp [engineAt, tgetD_tput_ne _ _ _ _ _ h]

@[simp] theorem latticeAt_setLattice_self (s : State) (k l : Nat) (v : Lattice) : latticeAt (setLattice s k l v) k l = v := by
  simp [latticeAt]

@[simp] theorem deviceRuns_setGroup (s : State) (k : Nat) (v : Group) : deviceRuns (setGroup s k v) = deviceRuns s := rfl

@[simp] theorem deviceRuns_setCluster (s : State) (k : Nat) (v : Cluster) : deviceRuns (setCluster s k v) = deviceRuns s := rfl

end Sys2Proof.Machine
end

