-- ==== Sys2Proof/Laws/Device.lean ====
section
/-! SUPPORT. What the shared operations of the host port, of events and of engine programs leave as it was: one lemma for
each, which says everything that the operation can change. -/

namespace Sys2Proof.Machine

/-- Only the sessions, the frames sent, the commands whose replies have been sent and the management counters may differ. -/
structure PortOnly (s t : State) : Prop where
  rest : { t with sessions := s.sessions, sent := s.sent, dev := s.dev } = s
  device : { t.dev with counters := s.dev.counters, cmds := s.dev.cmds } = s.dev

theorem PortOnly.refl (s : State) : PortOnly s s := ⟨rfl, rfl⟩

theorem PortOnly.trans {a b c : State} (h : PortOnly a b) (k : PortOnly b c) : PortOnly a c where
  rest := by
    have := congrArg (fun x : State => { x with sessions := a.sessions, sent := a.sent, dev := a.dev }) k.rest
    exact this.trans h.rest
  device := by
    have := congrArg (fun x : Device => { x with counters := a.dev.counters, cmds := a.dev.cmds }) k.device
    exact this.trans h.device

theorem bumpMgmt_port (s : State) (i n : Nat) : PortOnly s (bumpMgmt s i n) := ⟨rfl, rfl⟩

theorem onSession_port (s : State) (sid : Nat) (f : Session → Session) : PortOnly s (onSession s sid f) := ⟨rfl, rfl⟩

/-- What a window admits is sent; nothing else changes (21 R382). -/
theorem pumpSession_port (n : Nat) (s : State) (sid : Nat) : PortOnly s (pumpSession s sid n) := by
  induction n generalizing s with
  | zero => exact .refl s
  | succ n ih =>
    simp only [pumpSession]
    split
    · exact .refl s
    · split
      · exact .refl s
      · split
        · exact .refl s
        · refine PortOnly.trans ?_ (ih _)
          exact ⟨rfl, rfl⟩

theorem sendFrame_port (s : State) (sid : Nat) (fr : Frame) : PortOnly s (sendFrame s sid fr) := by
  simp only [sendFrame]
  split
  · exact .refl s
  · refine PortOnly.trans ?_ (pumpSession_port _ _ sid)
    exact ⟨rfl, rfl⟩

/-- A reply changes the sessions and what was sent, and nothing else (21 R382). -/
theorem replyTo_port (s : State) (sid : Nat) (o : Origin) (status : Nat) (payload : List Byte) :
    PortOnly s (replyTo s sid o status payload) := sendFrame_port s sid _

/-- An acknowledgement changes nothing else, before a command is acted on whose reply it lets go (24 R432). -/
theorem takeAck_port (s : State) (sid ack : Nat) :
    takeAck s sid ack = s ∨ ∃ t, PortOnly s t ∧ takeAck s sid ack = actCommands t := by
  simp only [takeAck]
  split
  · exact .inl rfl
  · exact .inr ⟨_, (onSession_port s sid _).trans (pumpSession_port _ _ sid), rfl⟩

theorem hostEvent_port (s : State) (part : Nat) (e : Event) : PortOnly s (hostEvent s part e) := by
  simp only [hostEvent]
  split
  · split
    · exact sendFrame_port s _ _
    · exact bumpMgmt_port s 1 1
  · exact bumpMgmt_port s 1 1

/-- An event joins its cluster's queue; besides, only a frame to the host may be sent (07 R144-R146). -/
theorem postEvent_only (s : State) (c type source : Nat) (payload : BitVec 128) :
    ∃ e : Event, PortOnly (setCluster s c { clusterAt s c with
        events := pushEvent (clusterAt s c).events e, eventSeq := ((clusterAt s c).eventSeq + 1) % 2 ^ 32 })
      (postEvent s c type source payload) ∧ e.type = type ∧ e.source = source ∧ e.payload = payload ∧ e.phase = s.chipPhase := by
  refine ⟨{ type := type, source := source, seq := (clusterAt s c).eventSeq, phase := s.chipPhase, payload := payload },
    ?_, rfl, rfl, rfl, rfl⟩
  simp only [postEvent, postNaming]
  split
  · split
    · exact hostEvent_port _ _ _
    · exact .refl _
  · exact .refl _

theorem PortOnly.memory {s t : State} (h : PortOnly s t) :
    t.lmem = s.lmem ∧ t.lbits = s.lbits ∧ t.lsnap = s.lsnap ∧ t.cmem = s.cmem ∧ t.gmem = s.gmem := by
  refine ⟨?_, ?_, ?_, ?_, ?_⟩
  · have e := congrArg State.lmem h.rest; exact e
  · have e := congrArg State.lbits h.rest; exact e
  · have e := congrArg State.lsnap h.rest; exact e
  · have e := congrArg State.cmem h.rest; exact e
  · have e := congrArg State.gmem h.rest; exact e

theorem PortOnly.tables {s t : State} (h : PortOnly s t) :
    t.parts = s.parts ∧ t.launches = s.launches ∧ t.teams = s.teams ∧ t.groups = s.groups ∧ t.clusters = s.clusters ∧
      t.engines = s.engines ∧ t.lattices = s.lattices ∧ t.pages = s.pages := by
  refine ⟨?_, ?_, ?_, ?_, ?_, ?_, ?_, ?_⟩
  · have e := congrArg State.parts h.rest; exact e
  · have e := congrArg State.launches h.rest; exact e
  · have e := congrArg State.teams h.rest; exact e
  · have e := congrArg State.groups h.rest; exact e
  · have e := congrArg State.clusters h.rest; exact e
  · have e := congrArg State.engines h.rest; exact e
  · have e := congrArg State.lattices h.rest; exact e
  · have e := congrArg State.pages h.rest; exact e

/-- The end of an engine program changes no memory and no group but the forks of the one that forked it (11 R236, R241). -/
theorem endProgram_memory (s : State) (core unit status off : Nat) (word : Word) : let t := endProgram s core unit status off word
    t.lmem = s.lmem ∧ t.lbits = s.lbits ∧ t.lsnap = s.lsnap ∧ t.cmem = s.cmem ∧ t.gmem = s.gmem := by
  simp only [endProgram]
  split
  · exact ⟨rfl, rfl, rfl, rfl, rfl⟩
  · split
    · obtain ⟨e, h, -⟩ := postEvent_only _ _ _ _ _
      have := h.memory
      simp only [setCluster_lmem, setCluster_lbits, setCluster_lsnap, setCluster_cmem, setCluster_gmem] at this
      obtain ⟨h1, h2, h3, h4, h5⟩ := this
      rw [h1, h2, h3, h4, h5]
      split <;> split <;> exact ⟨rfl, rfl, rfl, rfl, rfl⟩
    · split <;> split <;> exact ⟨rfl, rfl, rfl, rfl, rfl⟩

end Sys2Proof.Machine
end

