-- ==== Sys2Proof/Laws/Memory.lean ====
section
/-! SUPPORT. The byte memories: every operation on them keeps the canonical form; a byte written is read back, and every
other byte reads as before. -/

namespace Sys2Proof.Machine

/-! ### The canonical form -/

theorem mwfFrom_weaken {lo lo' : Option Nat} {m : Memory} (h : mwfFrom lo m = true)
    (hl : ∀ a, lo' = some a → ∃ b, lo = some b ∧ a ≤ b) : mwfFrom lo' m = true := by
  cases m with
  | nil => rfl
  | cons c rest =>
    obtain ⟨b, v⟩ := c
    cases lo' with
    | none => cases lo <;> simp_all [mwfFrom]
    | some a =>
      obtain ⟨c, rfl, hc⟩ := hl a rfl
      simp only [mwfFrom, Bool.and_eq_true, decide_eq_true_eq] at h ⊢
      exact ⟨⟨by omega, h.1.2⟩, h.2⟩

/-- An entry above `lo` before a canonical rest. -/
theorem mwfFrom_cons (lo : Option Nat) (a : Nat) (v : Byte) (rest : Memory) (ha : ∀ l, lo = some l → l < a)
    (hv : v ≠ 0#8) (hr : mwfFrom (some a) rest = true) : mwfFrom lo ((a, v) :: rest) = true := by
  cases lo with
  | none => simpa [mwfFrom] using ⟨hv, hr⟩
  | some l => simpa [mwfFrom] using ⟨⟨ha l rfl, hv⟩, hr⟩

theorem mwfFrom_head {lo : Option Nat} {b : Nat} {v : Byte} {rest : Memory} (h : mwfFrom lo ((b, v) :: rest) = true) :
    (∀ l, lo = some l → l < b) ∧ v ≠ 0#8 ∧ mwfFrom (some b) rest = true := by
  cases lo with
  | none => simpa [mwfFrom] using h
  | some l => simpa [mwfFrom, and_assoc] using h

theorem mwrite_wfFrom (m : Memory) (lo : Option Nat) (a : Nat) (v : Byte) (h : mwfFrom lo m = true)
    (ha : ∀ l, lo = some l → l < a) : mwfFrom lo (mwrite m a v) = true := by
  induction m generalizing lo with
  | nil =>
    simp only [mwrite]
    split
    · rfl
    · rename_i hv
      exact mwfFrom_cons lo a v [] ha hv rfl
  | cons c rest ih =>
    obtain ⟨b, w⟩ := c
    obtain ⟨hb, hw, hr⟩ := mwfFrom_head h
    simp only [mwrite]
    split
    · rename_i hab
      split
      · exact h
      · rename_i hv
        refine mwfFrom_cons lo a v _ ha hv (mwfFrom_cons _ b w rest ?_ hw hr)
        intro l hl
        cases hl
        exact hab
    · split
      · rename_i hab
        subst hab
        split
        · refine mwfFrom_weaken hr (fun l hl => ⟨a, rfl, ?_⟩)
          exact Nat.le_of_lt (ha l hl)
        · rename_i hv
          exact mwfFrom_cons lo a v rest ha hv hr
      · rename_i h1 h2
        refine mwfFrom_cons lo b w _ hb hw (ih (some b) hr ?_)
        intro l hl
        cases hl
        omega

/-- A written byte keeps the canonical form. -/
theorem mwrite_wf (m : Memory) (a : Nat) (v : Byte) (h : Memory.wf m = true) : Memory.wf (mwrite m a v) = true :=
  mwrite_wfFrom m none a v h (fun _ hl => nomatch hl)

theorem mwrites_wf (bs : List Byte) (m : Memory) (a : Nat) (h : Memory.wf m = true) : Memory.wf (mwrites m a bs) = true := by
  induction bs generalizing m a with
  | nil => exact h
  | cons b rest ih => exact ih _ _ (mwrite_wf m a b h)

theorem mwriteN_wf (m : Memory) (a n v : Nat) (h : Memory.wf m = true) : Memory.wf (mwriteN m a n v) = true :=
  mwrites_wf _ m a h

theorem filter_wfFrom (p : Host.Cell → Bool) (m : Memory) (lo : Option Nat) (h : mwfFrom lo m = true) :
    mwfFrom lo (m.filter p) = true := by
  induction m generalizing lo with
  | nil => rfl
  | cons c rest ih =>
    obtain ⟨b, v⟩ := c
    obtain ⟨hb, hv, hr⟩ := mwfFrom_head h
    rw [List.filter_cons]
    split
    · exact mwfFrom_cons lo b v _ hb hv (ih _ hr)
    · exact mwfFrom_weaken (ih _ hr) (fun l hl => ⟨b, rfl, Nat.le_of_lt (hb l hl)⟩)

/-- A part of a memory is in canonical form. -/
theorem filter_wf (p : Host.Cell → Bool) (m : Memory) (h : Memory.wf m = true) : Memory.wf (m.filter p) = true :=
  filter_wfFrom p m none h

theorem mclear_wf (m : Memory) (a n : Nat) (h : Memory.wf m = true) : Memory.wf (mclear m a n) = true := filter_wf _ m h

/-- Any sequence of byte writes keeps the canonical form. -/
theorem foldl_mwrite_wf {α : Type} (ls : List α) (f : Memory → α → Memory)
    (hf : ∀ m x, Memory.wf m = true → Memory.wf (f m x) = true) (m : Memory) (h : Memory.wf m = true) :
    Memory.wf (ls.foldl f m) = true := by
  induction ls generalizing m with
  | nil => exact h
  | cons x rest ih => exact ih _ (hf m x h)

theorem putRange_wf (m : Memory) (lo n key : Nat) (cs : List Host.Cell) (h : Memory.wf m = true) :
    Memory.wf (putRange m lo n key cs) = true :=
  foldl_mwrite_wf _ _ (fun m c hm => mwrite_wf m _ c.2 hm) _ (mclear_wf m lo n h)

theorem applyStores_wf (s : State) (c : Chunk) (h : Memory.wf s.lmem = true ∧ Memory.wf s.lbits = true ∧ Memory.wf s.lsnap = true) :
    Memory.wf (applyStores s c).lmem = true ∧ Memory.wf (applyStores s c).lbits = true ∧ Memory.wf (applyStores s c).lsnap = true :=
  ⟨foldl_mwrite_wf _ _ (fun m _ hm => mwrite_wf m _ _ hm) _ h.1, foldl_mwrite_wf _ _ (fun m _ hm => mwrite_wf m _ _ hm) _ h.2.1,
    foldl_mwrite_wf _ _ (fun m _ hm => mwrite_wf m _ _ hm) _ h.2.2⟩

/-! ### Reading -/

theorem mread_mwrite_ne (m : Memory) (a b : Nat) (v : Byte) (h : b ≠ a) : mread (mwrite m a v) b = mread m b := by
  induction m with
  | nil =>
    simp only [mwrite]
    split <;> simp [mread, Ne.symm h]
  | cons c rest ih =>
    obtain ⟨k, w⟩ := c
    simp only [mwrite]
    split
    · split <;> simp [mread, Ne.symm h]
    · split
      · rename_i hk
        subst hk
        split <;> simp [mread, Ne.symm h]
      · simp only [mread]
        split
        · rfl
        · exact ih

theorem mread_above {m : Memory} {l a : Nat} (h : mwfFrom (some l) m = true) (ha : a ≤ l) : mread m a = 0#8 := by
  induction m generalizing l with
  | nil => rfl
  | cons c rest ih =>
    obtain ⟨b, v⟩ := c
    simp only [mwfFrom, Bool.and_eq_true, decide_eq_true_eq] at h
    have hb : ¬ b = a := by omega
    simp only [mread, hb, if_false]
    exact ih h.2 (by omega)

theorem mread_mwrite_self_from (m : Memory) (lo : Option Nat) (a : Nat) (v : Byte) (h : mwfFrom lo m = true) :
    mread (mwrite m a v) a = v := by
  induction m generalizing lo with
  | nil =>
    simp only [mwrite]
    split
    · rename_i hv
      simp [mread, hv]
    · simp [mread]
  | cons c rest ih =>
    obtain ⟨b, w⟩ := c
    simp only [mwfFrom, Bool.and_eq_true] at h
    simp only [mwrite]
    split
    · rename_i hab
      split
      · rename_i hv
        have hb : ¬ b = a := by omega
        simp only [mread, hb, if_false]
        rw [hv]
        exact mread_above h.2 (by omega)
      · simp [mread]
    · split
      · rename_i hab
        subst hab
        split
        · rename_i hv
          rw [hv]
          exact mread_above h.2 (Nat.le_refl a)
        · simp [mread]
      · rename_i h1 h2
        have hb : ¬ b = a := fun e => h2 e.symm
        simp only [mread, hb, if_false]
        exact ih _ h.2

/-- A byte written is read back. -/
theorem mread_mwrite_self (m : Memory) (a : Nat) (v : Byte) (h : Memory.wf m = true) : mread (mwrite m a v) a = v :=
  mread_mwrite_self_from m none a v h

theorem mread_mwrite (m : Memory) (a b : Nat) (v : Byte) (h : Memory.wf m = true) :
    mread (mwrite m a v) b = if b = a then v else mread m b := by
  by_cases hb : b = a
  · subst hb
    simp [mread_mwrite_self _ _ _ h]
  · simp [hb, mread_mwrite_ne _ _ _ _ hb]

theorem mread_mwrites_ne (bs : List Byte) (m : Memory) (a b : Nat) (h : ¬(a ≤ b ∧ b < a + bs.length)) :
    mread (mwrites m a bs) b = mread m b := by
  induction bs generalizing m a with
  | nil => rfl
  | cons v rest ih =>
    simp only [List.length_cons] at h
    rw [mwrites, ih _ _ (by omega), mread_mwrite_ne _ _ _ _ (by omega)]

/-- A run of bytes written is read back, and every other byte reads as before. -/
theorem mread_mwrites (bs : List Byte) (m : Memory) (a b : Nat) (h : Memory.wf m = true) :
    mread (mwrites m a bs) b = if a ≤ b ∧ b < a + bs.length then bs.getD (b - a) 0#8 else mread m b := by
  induction bs generalizing m a with
  | nil =>
    have : ¬(a ≤ b ∧ b < a + ([] : List Byte).length) := by simp
    simp only [this, if_false]
    rfl
  | cons v rest ih =>
    rw [mwrites, ih _ _ (mwrite_wf m a v h), mread_mwrite _ _ _ _ h]
    simp only [List.length_cons]
    by_cases h1 : b = a
    · subst h1
      have e1 : ¬(b + 1 ≤ b ∧ b < b + 1 + rest.length) := by omega
      have e2 : b ≤ b ∧ b < b + (rest.length + 1) := by omega
      simp [e2]
    · by_cases h2 : a + 1 ≤ b ∧ b < a + 1 + rest.length
      · have e2 : a ≤ b ∧ b < a + (rest.length + 1) := by omega
        have e3 : b - a = (b - (a + 1)) + 1 := by omega
        simp only [h2, e2, and_self, if_true, e3, List.getD_cons_succ]
      · have e2 : ¬(a ≤ b ∧ b < a + (rest.length + 1)) := by omega
        simp only [h1, h2, e2, if_false]

theorem mread_filter (p : Host.Cell → Bool) (m : Memory) (a : Nat) (h : ∀ v, p (a, v) = true) :
    mread (m.filter p) a = mread m a := by
  induction m with
  | nil => rfl
  | cons c rest ih =>
    obtain ⟨b, v⟩ := c
    rw [List.filter_cons]
    by_cases hb : b = a
    · subst hb
      simp [mread, h v]
    · split <;> simp [mread, hb, ih]

theorem mread_mclear (m : Memory) (a n b : Nat) :
    mread (mclear m a n) b = if a ≤ b ∧ b < a + n then 0#8 else mread m b := by
  induction m with
  | nil => simp [mclear, mread]
  | cons c rest ih =>
    obtain ⟨k, v⟩ := c
    simp only [mclear] at ih ⊢
    rw [List.filter_cons]
    by_cases hk : k = b
    · subst hk
      by_cases hr : a ≤ k ∧ k < a + n
      · have e : (decide (k < a) || decide (a + n ≤ k)) = false := by simp; omega
        simp only [e, Bool.false_eq_true, if_false, ih]
        simp [hr]
      · have e : (decide (k < a) || decide (a + n ≤ k)) = true := by simp; omega
        simp [e, hr, mread]
    · split <;> simp [mread, hk, ih]

end Sys2Proof.Machine
end

