-- ==== Sys2Proof/Laws/PerInstr.lean ====
section
/-! SUPPORT. For every instruction: its word lies in the 32 bits of a word and has a major opcode of 1 to 30, or it is an
instruction of the test access port (03 R56, 04 R82, 23 R426). -/

namespace Sys2Proof.Laws.WordRange

/-- A word of a program has 32 bits and an assigned major opcode; what has another code is of the test access port. -/
def Statement (i : Instr) : Prop :=
  ∀ w, encode i = some w → (w < 2 ^ 32 ∧ 1 ≤ w / 2 ^ 26 % 32 ∧ w / 2 ^ 26 % 32 ≤ 30) ∨ ∃ j, decodeTap w = .ok j

theorem useCode_lt (u : Use) : useCode u < 4 := by cases u <;> decide

theorem srcCode_lt (x : Src) : srcCode x < 256 := by
  have := x.reg.isLt
  have := useCode_lt x.use
  simp only [srcCode]
  omega

/-- The number that fields add to a word. -/
def weight (fs : List (Nat × Nat)) : Nat :=
  match fs with
  | [] => 0
  | f :: rest => f.1 * 2 ^ f.2 + weight rest

theorem foldl_weight (fs : List (Nat × Nat)) (a : Nat) : fs.foldl (fun a f => a + f.1 * 2 ^ f.2) a = a + weight fs := by
  induction fs generalizing a with
  | nil => rfl
  | cons f rest ih => rw [List.foldl_cons, ih, weight, Nat.add_assoc]

/-- Fields below bit 26 leave the major opcode of the base, and bit 31 is S. -/
theorem of_pack (m b : Nat) (sw : Bool) (fs : List (Nat × Nat)) (hm : 1 ≤ m) (hm' : m ≤ 30) (h : b + weight fs < 2 ^ 26) (w : Nat)
    (hw : some (pack (m * 2 ^ 26 + b) sw fs) = some w) :
    (w < 2 ^ 32 ∧ 1 ≤ w / 2 ^ 26 % 32 ∧ w / 2 ^ 26 % 32 ≤ 30) ∨ ∃ j, decodeTap w = .ok j := by
  left
  cases hw
  simp only [pack, foldl_weight]
  generalize weight fs = z at h
  have hs : sw.toNat = 0 ∨ sw.toNat = 1 := by cases sw <;> simp
  omega

theorem iadd (sw : Bool) (d : BitVec 6) (x : Src) (y : Src) : Statement (.iadd sw d x y) := by
  have := d.isLt
  have := srcCode_lt x
  have := srcCode_lt y
  exact of_pack 1 0 sw _ (by decide) (by decide) (by simp only [weight]; omega)
theorem isub (sw : Bool) (d : BitVec 6) (x : Src) (y : Src) : Statement (.isub sw d x y) := by
  have := d.isLt
  have := srcCode_lt x
  have := srcCode_lt y
  exact of_pack 1 1 sw _ (by decide) (by decide) (by simp only [weight]; omega)
theorem imul (sw : Bool) (d : BitVec 6) (x : Src) (y : Src) : Statement (.imul sw d x y) := by
  have := d.isLt
  have := srcCode_lt x
  have := srcCode_lt y
  exact of_pack 1 2 sw _ (by decide) (by decide) (by simp only [weight]; omega)
theorem imulh (sw : Bool) (d : BitVec 6) (x : Src) (y : Src) : Statement (.imulh sw d x y) := by
  have := d.isLt
  have := srcCode_lt x
  have := srcCode_lt y
  exact of_pack 1 3 sw _ (by decide) (by decide) (by simp only [weight]; omega)
theorem umulh (sw : Bool) (d : BitVec 6) (x : Src) (y : Src) : Statement (.umulh sw d x y) := by
  have := d.isLt
  have := srcCode_lt x
  have := srcCode_lt y
  exact of_pack 1 4 sw _ (by decide) (by decide) (by simp only [weight]; omega)
theorem imin (sw : Bool) (d : BitVec 6) (x : Src) (y : Src) : Statement (.imin sw d x y) := by
  have := d.isLt
  have := srcCode_lt x
  have := srcCode_lt y
  exact of_pack 1 5 sw _ (by decide) (by decide) (by simp only [weight]; omega)
theorem imax (sw : Bool) (d : BitVec 6) (x : Src) (y : Src) : Statement (.imax sw d x y) := by
  have := d.isLt
  have := srcCode_lt x
  have := srcCode_lt y
  exact of_pack 1 6 sw _ (by decide) (by decide) (by simp only [weight]; omega)
theorem umin (sw : Bool) (d : BitVec 6) (x : Src) (y : Src) : Statement (.umin sw d x y) := by
  have := d.isLt
  have := srcCode_lt x
  have := srcCode_lt y
  exact of_pack 1 7 sw _ (by decide) (by decide) (by simp only [weight]; omega)
theorem umax (sw : Bool) (d : BitVec 6) (x : Src) (y : Src) : Statement (.umax sw d x y) := by
  have := d.isLt
  have := srcCode_lt x
  have := srcCode_lt y
  exact of_pack 1 8 sw _ (by decide) (by decide) (by simp only [weight]; omega)
theorem vand (sw : Bool) (d : BitVec 6) (x : Src) (y : Src) : Statement (.vand sw d x y) := by
  have := d.isLt
  have := srcCode_lt x
  have := srcCode_lt y
  exact of_pack 1 9 sw _ (by decide) (by decide) (by simp only [weight]; omega)
theorem vor (sw : Bool) (d : BitVec 6) (x : Src) (y : Src) : Statement (.vor sw d x y) := by
  have := d.isLt
  have := srcCode_lt x
  have := srcCode_lt y
  exact of_pack 1 10 sw _ (by decide) (by decide) (by simp only [weight]; omega)
theorem vxor (sw : Bool) (d : BitVec 6) (x : Src) (y : Src) : Statement (.vxor sw d x y) := by
  have := d.isLt
  have := srcCode_lt x
  have := srcCode_lt y
  exact of_pack 1 11 sw _ (by decide) (by decide) (by simp only [weight]; omega)
theorem shl (sw : Bool) (d : BitVec 6) (x : Src) (y : Src) : Statement (.shl sw d x y) := by
  have := d.isLt
  have := srcCode_lt x
  have := srcCode_lt y
  exact of_pack 1 12 sw _ (by decide) (by decide) (by simp only [weight]; omega)
theorem shr (sw : Bool) (d : BitVec 6) (x : Src) (y : Src) : Statement (.shr sw d x y) := by
  have := d.isLt
  have := srcCode_lt x
  have := srcCode_lt y
  exact of_pack 1 13 sw _ (by decide) (by decide) (by simp only [weight]; omega)
theorem sra (sw : Bool) (d : BitVec 6) (x : Src) (y : Src) : Statement (.sra sw d x y) := by
  have := d.isLt
  have := srcCode_lt x
  have := srcCode_lt y
  exact of_pack 1 14 sw _ (by decide) (by decide) (by simp only [weight]; omega)
theorem iaddc (sw : Bool) (d : BitVec 6) (x : Src) (y : Src) : Statement (.iaddc sw d x y) := by
  have := d.isLt
  have := srcCode_lt x
  have := srcCode_lt y
  exact of_pack 1 15 sw _ (by decide) (by decide) (by simp only [weight]; omega)
theorem iaddi (sw : Bool) (d : BitVec 6) (x : Src) (i : BitVec 8) : Statement (.iaddi sw d x i) := by
  have := d.isLt
  have := srcCode_lt x
  have := i.isLt
  exact of_pack 2 0 sw _ (by decide) (by decide) (by simp only [weight]; omega)
theorem isubi (sw : Bool) (d : BitVec 6) (x : Src) (i : BitVec 8) : Statement (.isubi sw d x i) := by
  have := d.isLt
  have := srcCode_lt x
  have := i.isLt
  exact of_pack 2 256 sw _ (by decide) (by decide) (by simp only [weight]; omega)
theorem imuli (sw : Bool) (d : BitVec 6) (x : Src) (i : BitVec 8) : Statement (.imuli sw d x i) := by
  have := d.isLt
  have := srcCode_lt x
  have := i.isLt
  exact of_pack 2 512 sw _ (by decide) (by decide) (by simp only [weight]; omega)
theorem imulhi (sw : Bool) (d : BitVec 6) (x : Src) (i : BitVec 8) : Statement (.imulhi sw d x i) := by
  have := d.isLt
  have := srcCode_lt x
  have := i.isLt
  exact of_pack 2 768 sw _ (by decide) (by decide) (by simp only [weight]; omega)
theorem umulhi (sw : Bool) (d : BitVec 6) (x : Src) (i : BitVec 8) : Statement (.umulhi sw d x i) := by
  have := d.isLt
  have := srcCode_lt x
  have := i.isLt
  exact of_pack 2 1024 sw _ (by decide) (by decide) (by simp only [weight]; omega)
theorem imini (sw : Bool) (d : BitVec 6) (x : Src) (i : BitVec 8) : Statement (.imini sw d x i) := by
  have := d.isLt
  have := srcCode_lt x
  have := i.isLt
  exact of_pack 2 1280 sw _ (by decide) (by decide) (by simp only [weight]; omega)
theorem imaxi (sw : Bool) (d : BitVec 6) (x : Src) (i : BitVec 8) : Statement (.imaxi sw d x i) := by
  have := d.isLt
  have := srcCode_lt x
  have := i.isLt
  exact of_pack 2 1536 sw _ (by decide) (by decide) (by simp only [weight]; omega)
theorem umini (sw : Bool) (d : BitVec 6) (x : Src) (i : BitVec 8) : Statement (.umini sw d x i) := by
  have := d.isLt
  have := srcCode_lt x
  have := i.isLt
  exact of_pack 2 1792 sw _ (by decide) (by decide) (by simp only [weight]; omega)
theorem umaxi (sw : Bool) (d : BitVec 6) (x : Src) (i : BitVec 8) : Statement (.umaxi sw d x i) := by
  have := d.isLt
  have := srcCode_lt x
  have := i.isLt
  exact of_pack 2 2048 sw _ (by decide) (by decide) (by simp only [weight]; omega)
theorem andi (sw : Bool) (d : BitVec 6) (x : Src) (i : BitVec 8) : Statement (.andi sw d x i) := by
  have := d.isLt
  have := srcCode_lt x
  have := i.isLt
  exact of_pack 2 2304 sw _ (by decide) (by decide) (by simp only [weight]; omega)
theorem ori (sw : Bool) (d : BitVec 6) (x : Src) (i : BitVec 8) : Statement (.ori sw d x i) := by
  have := d.isLt
  have := srcCode_lt x
  have := i.isLt
  exact of_pack 2 2560 sw _ (by decide) (by decide) (by simp only [weight]; omega)
theorem xori (sw : Bool) (d : BitVec 6) (x : Src) (i : BitVec 8) : Statement (.xori sw d x i) := by
  have := d.isLt
  have := srcCode_lt x
  have := i.isLt
  exact of_pack 2 2816 sw _ (by decide) (by decide) (by simp only [weight]; omega)
theorem shli (sw : Bool) (d : BitVec 6) (x : Src) (i : BitVec 8) : Statement (.shli sw d x i) := by
  have := d.isLt
  have := srcCode_lt x
  have := i.isLt
  exact of_pack 2 3072 sw _ (by decide) (by decide) (by simp only [weight]; omega)
theorem shri (sw : Bool) (d : BitVec 6) (x : Src) (i : BitVec 8) : Statement (.shri sw d x i) := by
  have := d.isLt
  have := srcCode_lt x
  have := i.isLt
  exact of_pack 2 3328 sw _ (by decide) (by decide) (by simp only [weight]; omega)
theorem srai (sw : Bool) (d : BitVec 6) (x : Src) (i : BitVec 8) : Statement (.srai sw d x i) := by
  have := d.isLt
  have := srcCode_lt x
  have := i.isLt
  exact of_pack 2 3584 sw _ (by decide) (by decide) (by simp only [weight]; omega)
theorem movi (sw : Bool) (d : BitVec 6) (i : BitVec 8) : Statement (.movi sw d i) := by
  have := d.isLt
  have := i.isLt
  exact of_pack 2 3840 sw _ (by decide) (by decide) (by simp only [weight]; omega)
theorem isubb (sw : Bool) (d : BitVec 6) (x : Src) (y : Src) : Statement (.isubb sw d x y) := by
  have := d.isLt
  have := srcCode_lt x
  have := srcCode_lt y
  exact of_pack 3 0 sw _ (by decide) (by decide) (by simp only [weight]; omega)
theorem iabs (sw : Bool) (d : BitVec 6) (x : Src) : Statement (.iabs sw d x) := by
  have := d.isLt
  have := srcCode_lt x
  exact of_pack 3 1 sw _ (by decide) (by decide) (by simp only [weight]; omega)
theorem ineg (sw : Bool) (d : BitVec 6) (x : Src) : Statement (.ineg sw d x) := by
  have := d.isLt
  have := srcCode_lt x
  exact of_pack 3 2 sw _ (by decide) (by decide) (by simp only [weight]; omega)
theorem vnot (sw : Bool) (d : BitVec 6) (x : Src) : Statement (.vnot sw d x) := by
  have := d.isLt
  have := srcCode_lt x
  exact of_pack 3 3 sw _ (by decide) (by decide) (by simp only [weight]; omega)
theorem clz (sw : Bool) (d : BitVec 6) (x : Src) : Statement (.clz sw d x) := by
  have := d.isLt
  have := srcCode_lt x
  exact of_pack 3 4 sw _ (by decide) (by decide) (by simp only [weight]; omega)
theorem popc (sw : Bool) (d : BitVec 6) (x : Src) : Statement (.popc sw d x) := by
  have := d.isLt
  have := srcCode_lt x
  exact of_pack 3 5 sw _ (by decide) (by decide) (by simp only [weight]; omega)
theorem brev (sw : Bool) (d : BitVec 6) (x : Src) : Statement (.brev sw d x) := by
  have := d.isLt
  have := srcCode_lt x
  exact of_pack 3 6 sw _ (by decide) (by decide) (by simp only [weight]; omega)
theorem bfe (sw : Bool) (d : BitVec 6) (x : Src) (y : Src) : Statement (.bfe sw d x y) := by
  have := d.isLt
  have := srcCode_lt x
  have := srcCode_lt y
  exact of_pack 3 7 sw _ (by decide) (by decide) (by simp only [weight]; omega)
theorem bfi (sw : Bool) (d : BitVec 6) (x : Src) (y : Src) : Statement (.bfi sw d x y) := by
  have := d.isLt
  have := srcCode_lt x
  have := srcCode_lt y
  exact of_pack 3 8 sw _ (by decide) (by decide) (by simp only [weight]; omega)
theorem iadds (sw : Bool) (d : BitVec 6) (x : Src) (y : Src) : Statement (.iadds sw d x y) := by
  have := d.isLt
  have := srcCode_lt x
  have := srcCode_lt y
  exact of_pack 3 9 sw _ (by decide) (by decide) (by simp only [weight]; omega)
theorem isubs (sw : Bool) (d : BitVec 6) (x : Src) (y : Src) : Statement (.isubs sw d x y) := by
  have := d.isLt
  have := srcCode_lt x
  have := srcCode_lt y
  exact of_pack 3 10 sw _ (by decide) (by decide) (by simp only [weight]; omega)
theorem uadds (sw : Bool) (d : BitVec 6) (x : Src) (y : Src) : Statement (.uadds sw d x y) := by
  have := d.isLt
  have := srcCode_lt x
  have := srcCode_lt y
  exact of_pack 3 11 sw _ (by decide) (by decide) (by simp only [weight]; omega)
theorem imad (sw : Bool) (d : BitVec 6) (x : Src) (y : Src) : Statement (.imad sw d x y) := by
  have := d.isLt
  have := srcCode_lt x
  have := srcCode_lt y
  exact of_pack 3 12 sw _ (by decide) (by decide) (by simp only [weight]; omega)
theorem sad (sw : Bool) (d : BitVec 6) (x : Src) (y : Src) : Statement (.sad sw d x y) := by
  have := d.isLt
  have := srcCode_lt x
  have := srcCode_lt y
  exact of_pack 3 13 sw _ (by decide) (by decide) (by simp only [weight]; omega)
theorem rotl (sw : Bool) (d : BitVec 6) (x : Src) (y : Src) : Statement (.rotl sw d x y) := by
  have := d.isLt
  have := srcCode_lt x
  have := srcCode_lt y
  exact of_pack 3 14 sw _ (by decide) (by decide) (by simp only [weight]; omega)
theorem lea2 (sw : Bool) (d : BitVec 6) (x : Src) (y : Src) : Statement (.lea2 sw d x y) := by
  have := d.isLt
  have := srcCode_lt x
  have := srcCode_lt y
  exact of_pack 3 15 sw _ (by decide) (by decide) (by simp only [weight]; omega)
theorem fadd (sw : Bool) (d : BitVec 6) (x : Src) (y : Src) : Statement (.fadd sw d x y) := by
  have := d.isLt
  have := srcCode_lt x
  have := srcCode_lt y
  exact of_pack 4 0 sw _ (by decide) (by decide) (by simp only [weight]; omega)
theorem fsub (sw : Bool) (d : BitVec 6) (x : Src) (y : Src) : Statement (.fsub sw d x y) := by
  have := d.isLt
  have := srcCode_lt x
  have := srcCode_lt y
  exact of_pack 4 1 sw _ (by decide) (by decide) (by simp only [weight]; omega)
theorem fmul (sw : Bool) (d : BitVec 6) (x : Src) (y : Src) : Statement (.fmul sw d x y) := by
  have := d.isLt
  have := srcCode_lt x
  have := srcCode_lt y
  exact of_pack 4 2 sw _ (by decide) (by decide) (by simp only [weight]; omega)
theorem ffma (sw : Bool) (d : BitVec 6) (x : Src) (y : Src) : Statement (.ffma sw d x y) := by
  have := d.isLt
  have := srcCode_lt x
  have := srcCode_lt y
  exact of_pack 4 3 sw _ (by decide) (by decide) (by simp only [weight]; omega)
theorem ffnma (sw : Bool) (d : BitVec 6) (x : Src) (y : Src) : Statement (.ffnma sw d x y) := by
  have := d.isLt
  have := srcCode_lt x
  have := srcCode_lt y
  exact of_pack 4 4 sw _ (by decide) (by decide) (by simp only [weight]; omega)
theorem fmin (sw : Bool) (d : BitVec 6) (x : Src) (y : Src) : Statement (.fmin sw d x y) := by
  have := d.isLt
  have := srcCode_lt x
  have := srcCode_lt y
  exact of_pack 4 5 sw _ (by decide) (by decide) (by simp only [weight]; omega)
theorem fmax (sw : Bool) (d : BitVec 6) (x : Src) (y : Src) : Statement (.fmax sw d x y) := by
  have := d.isLt
  have := srcCode_lt x
  have := srcCode_lt y
  exact of_pack 4 6 sw _ (by decide) (by decide) (by simp only [weight]; omega)
theorem fabs (sw : Bool) (d : BitVec 6) (x : Src) : Statement (.fabs sw d x) := by
  have := d.isLt
  have := srcCode_lt x
  exact of_pack 4 7 sw _ (by decide) (by decide) (by simp only [weight]; omega)
theorem fneg (sw : Bool) (d : BitVec 6) (x : Src) : Statement (.fneg sw d x) := by
  have := d.isLt
  have := srcCode_lt x
  exact of_pack 4 8 sw _ (by decide) (by decide) (by simp only [weight]; omega)
theorem fcpys (sw : Bool) (d : BitVec 6) (x : Src) (y : Src) : Statement (.fcpys sw d x y) := by
  have := d.isLt
  have := srcCode_lt x
  have := srcCode_lt y
  exact of_pack 4 9 sw _ (by decide) (by decide) (by simp only [weight]; omega)
theorem fdiv (sw : Bool) (d : BitVec 6) (x : Src) (y : Src) : Statement (.fdiv sw d x y) := by
  have := d.isLt
  have := srcCode_lt x
  have := srcCode_lt y
  exact of_pack 4 10 sw _ (by decide) (by decide) (by simp only [weight]; omega)
theorem fsqrt (sw : Bool) (d : BitVec 6) (x : Src) : Statement (.fsqrt sw d x) := by
  have := d.isLt
  have := srcCode_lt x
  exact of_pack 4 11 sw _ (by decide) (by decide) (by simp only [weight]; omega)
theorem frint (sw : Bool) (d : BitVec 6) (x : Src) (m : BitVec 2) : Statement (.frint sw d x m) := by
  have := d.isLt
  have := srcCode_lt x
  have := m.isLt
  exact of_pack 4 12 sw _ (by decide) (by decide) (by simp only [weight]; omega)
theorem fclass (sw : Bool) (d : BitVec 6) (x : Src) : Statement (.fclass sw d x) := by
  have := d.isLt
  have := srcCode_lt x
  exact of_pack 4 13 sw _ (by decide) (by decide) (by simp only [weight]; omega)
theorem fscale (sw : Bool) (d : BitVec 6) (x : Src) (y : Src) : Statement (.fscale sw d x y) := by
  have := d.isLt
  have := srcCode_lt x
  have := srcCode_lt y
  exact of_pack 4 14 sw _ (by decide) (by decide) (by simp only [weight]; omega)
theorem ffrac (sw : Bool) (d : BitVec 6) (x : Src) : Statement (.ffrac sw d x) := by
  have := d.isLt
  have := srcCode_lt x
  exact of_pack 4 15 sw _ (by decide) (by decide) (by simp only [weight]; omega)
theorem hadd (sw : Bool) (d : BitVec 6) (x : Src) (y : Src) (f : BitVec 1) : Statement (.hadd sw d x y f) := by
  have := d.isLt
  have := srcCode_lt x
  have := srcCode_lt y
  have := f.isLt
  exact of_pack 5 0 sw _ (by decide) (by decide) (by simp only [weight]; omega)
theorem hsub (sw : Bool) (d : BitVec 6) (x : Src) (y : Src) (f : BitVec 1) : Statement (.hsub sw d x y f) := by
  have := d.isLt
  have := srcCode_lt x
  have := srcCode_lt y
  have := f.isLt
  exact of_pack 5 1 sw _ (by decide) (by decide) (by simp only [weight]; omega)
theorem hmul (sw : Bool) (d : BitVec 6) (x : Src) (y : Src) (f : BitVec 1) : Statement (.hmul sw d x y f) := by
  have := d.isLt
  have := srcCode_lt x
  have := srcCode_lt y
  have := f.isLt
  exact of_pack 5 2 sw _ (by decide) (by decide) (by simp only [weight]; omega)
theorem hfma (sw : Bool) (d : BitVec 6) (x : Src) (y : Src) (f : BitVec 1) : Statement (.hfma sw d x y f) := by
  have := d.isLt
  have := srcCode_lt x
  have := srcCode_lt y
  have := f.isLt
  exact of_pack 5 3 sw _ (by decide) (by decide) (by simp only [weight]; omega)
theorem hmin (sw : Bool) (d : BitVec 6) (x : Src) (y : Src) (f : BitVec 1) : Statement (.hmin sw d x y f) := by
  have := d.isLt
  have := srcCode_lt x
  have := srcCode_lt y
  have := f.isLt
  exact of_pack 5 4 sw _ (by decide) (by decide) (by simp only [weight]; omega)
theorem hmax (sw : Bool) (d : BitVec 6) (x : Src) (y : Src) (f : BitVec 1) : Statement (.hmax sw d x y f) := by
  have := d.isLt
  have := srcCode_lt x
  have := srcCode_lt y
  have := f.isLt
  exact of_pack 5 5 sw _ (by decide) (by decide) (by simp only [weight]; omega)
theorem hneg (sw : Bool) (d : BitVec 6) (x : Src) (f : BitVec 1) : Statement (.hneg sw d x f) := by
  have := d.isLt
  have := srcCode_lt x
  have := f.isLt
  exact of_pack 5 6 sw _ (by decide) (by decide) (by simp only [weight]; omega)
theorem hdot2 (sw : Bool) (d : BitVec 6) (x : Src) (y : Src) (f : BitVec 1) : Statement (.hdot2 sw d x y f) := by
  have := d.isLt
  have := srcCode_lt x
  have := srcCode_lt y
  have := f.isLt
  exact of_pack 5 7 sw _ (by decide) (by decide) (by simp only [weight]; omega)
theorem cvf2i (sw : Bool) (d : BitVec 6) (x : Src) : Statement (.cvf2i sw d x) := by
  have := d.isLt
  have := srcCode_lt x
  exact of_pack 6 0 sw _ (by decide) (by decide) (by simp only [weight]; omega)
theorem cvi2f (sw : Bool) (d : BitVec 6) (x : Src) : Statement (.cvi2f sw d x) := by
  have := d.isLt
  have := srcCode_lt x
  exact of_pack 6 1 sw _ (by decide) (by decide) (by simp only [weight]; omega)
theorem cvn2f (sw : Bool) (d : BitVec 6) (x : Src) : Statement (.cvn2f sw d x) := by
  have := d.isLt
  have := srcCode_lt x
  exact of_pack 6 2 sw _ (by decide) (by decide) (by simp only [weight]; omega)
theorem cvf2n (sw : Bool) (d : BitVec 6) (x : Src) : Statement (.cvf2n sw d x) := by
  have := d.isLt
  have := srcCode_lt x
  exact of_pack 6 3 sw _ (by decide) (by decide) (by simp only [weight]; omega)
theorem cvf2b (sw : Bool) (d : BitVec 6) (x : Src) : Statement (.cvf2b sw d x) := by
  have := d.isLt
  have := srcCode_lt x
  exact of_pack 6 4 sw _ (by decide) (by decide) (by simp only [weight]; omega)
theorem cvb2f (sw : Bool) (d : BitVec 6) (x : Src) : Statement (.cvb2f sw d x) := by
  have := d.isLt
  have := srcCode_lt x
  exact of_pack 6 5 sw _ (by decide) (by decide) (by simp only [weight]; omega)
theorem cvf2h (sw : Bool) (d : BitVec 6) (x : Src) : Statement (.cvf2h sw d x) := by
  have := d.isLt
  have := srcCode_lt x
  exact of_pack 6 6 sw _ (by decide) (by decide) (by simp only [weight]; omega)
theorem cvh2f (sw : Bool) (d : BitVec 6) (x : Src) : Statement (.cvh2f sw d x) := by
  have := d.isLt
  have := srcCode_lt x
  exact of_pack 6 7 sw _ (by decide) (by decide) (by simp only [weight]; omega)
theorem cvf2e4 (sw : Bool) (d : BitVec 6) (x : Src) (y : Src) : Statement (.cvf2e4 sw d x y) := by
  have := d.isLt
  have := srcCode_lt x
  have := srcCode_lt y
  exact of_pack 6 8 sw _ (by decide) (by decide) (by simp only [weight]; omega)
theorem cvf2e5 (sw : Bool) (d : BitVec 6) (x : Src) (y : Src) : Statement (.cvf2e5 sw d x y) := by
  have := d.isLt
  have := srcCode_lt x
  have := srcCode_lt y
  exact of_pack 6 9 sw _ (by decide) (by decide) (by simp only [weight]; omega)
theorem cvf2e2 (sw : Bool) (d : BitVec 6) (x : Src) (y : Src) : Statement (.cvf2e2 sw d x y) := by
  have := d.isLt
  have := srcCode_lt x
  have := srcCode_lt y
  exact of_pack 6 10 sw _ (by decide) (by decide) (by simp only [weight]; omega)
theorem cve42f (sw : Bool) (d : BitVec 6) (x : Src) (y : Src) : Statement (.cve42f sw d x y) := by
  have := d.isLt
  have := srcCode_lt x
  have := srcCode_lt y
  exact of_pack 6 11 sw _ (by decide) (by decide) (by simp only [weight]; omega)
theorem cve52f (sw : Bool) (d : BitVec 6) (x : Src) (y : Src) : Statement (.cve52f sw d x y) := by
  have := d.isLt
  have := srcCode_lt x
  have := srcCode_lt y
  exact of_pack 6 12 sw _ (by decide) (by decide) (by simp only [weight]; omega)
theorem cve22f (sw : Bool) (d : BitVec 6) (x : Src) (y : Src) : Statement (.cve22f sw d x y) := by
  have := d.isLt
  have := srcCode_lt x
  have := srcCode_lt y
  exact of_pack 6 13 sw _ (by decide) (by decide) (by simp only [weight]; omega)
theorem pk2h (sw : Bool) (d : BitVec 6) (x : Src) (y : Src) : Statement (.pk2h sw d x y) := by
  have := d.isLt
  have := srcCode_lt x
  have := srcCode_lt y
  exact of_pack 6 14 sw _ (by decide) (by decide) (by simp only [weight]; omega)
theorem pk4b (sw : Bool) (d : BitVec 6) (x : Src) (y : Src) : Statement (.pk4b sw d x y) := by
  have := d.isLt
  have := srcCode_lt x
  have := srcCode_lt y
  exact of_pack 6 15 sw _ (by decide) (by decide) (by simp only [weight]; omega)
theorem exp2 (sw : Bool) (d : BitVec 6) (x : Src) : Statement (.exp2 sw d x) := by
  have := d.isLt
  have := srcCode_lt x
  exact of_pack 7 0 sw _ (by decide) (by decide) (by simp only [weight]; omega)
theorem log2 (sw : Bool) (d : BitVec 6) (x : Src) : Statement (.log2 sw d x) := by
  have := d.isLt
  have := srcCode_lt x
  exact of_pack 7 1 sw _ (by decide) (by decide) (by simp only [weight]; omega)
theorem rcp (sw : Bool) (d : BitVec 6) (x : Src) : Statement (.rcp sw d x) := by
  have := d.isLt
  have := srcCode_lt x
  exact of_pack 7 2 sw _ (by decide) (by decide) (by simp only [weight]; omega)
theorem rsqrt (sw : Bool) (d : BitVec 6) (x : Src) : Statement (.rsqrt sw d x) := by
  have := d.isLt
  have := srcCode_lt x
  exact of_pack 7 3 sw _ (by decide) (by decide) (by simp only [weight]; omega)
theorem sinpi (sw : Bool) (d : BitVec 6) (x : Src) : Statement (.sinpi sw d x) := by
  have := d.isLt
  have := srcCode_lt x
  exact of_pack 7 4 sw _ (by decide) (by decide) (by simp only [weight]; omega)
theorem cospi (sw : Bool) (d : BitVec 6) (x : Src) : Statement (.cospi sw d x) := by
  have := d.isLt
  have := srcCode_lt x
  exact of_pack 7 5 sw _ (by decide) (by decide) (by simp only [weight]; omega)
theorem tanh (sw : Bool) (d : BitVec 6) (x : Src) : Statement (.tanh sw d x) := by
  have := d.isLt
  have := srcCode_lt x
  exact of_pack 7 6 sw _ (by decide) (by decide) (by simp only [weight]; omega)
theorem sigm (sw : Bool) (d : BitVec 6) (x : Src) : Statement (.sigm sw d x) := by
  have := d.isLt
  have := srcCode_lt x
  exact of_pack 7 7 sw _ (by decide) (by decide) (by simp only [weight]; omega)
theorem icmpEq (sw : Bool) (c : BitVec 3) (p : BitVec 3) (x : Src) (y : Src) : Statement (.icmpEq sw c p x y) := by
  have := c.isLt
  have := p.isLt
  have := srcCode_lt x
  have := srcCode_lt y
  exact of_pack 8 0 sw _ (by decide) (by decide) (by simp only [weight]; omega)
theorem icmpNe (sw : Bool) (c : BitVec 3) (p : BitVec 3) (x : Src) (y : Src) : Statement (.icmpNe sw c p x y) := by
  have := c.isLt
  have := p.isLt
  have := srcCode_lt x
  have := srcCode_lt y
  exact of_pack 8 1 sw _ (by decide) (by decide) (by simp only [weight]; omega)
theorem icmpLt (sw : Bool) (c : BitVec 3) (p : BitVec 3) (x : Src) (y : Src) : Statement (.icmpLt sw c p x y) := by
  have := c.isLt
  have := p.isLt
  have := srcCode_lt x
  have := srcCode_lt y
  exact of_pack 8 2 sw _ (by decide) (by decide) (by simp only [weight]; omega)
theorem icmpLe (sw : Bool) (c : BitVec 3) (p : BitVec 3) (x : Src) (y : Src) : Statement (.icmpLe sw c p x y) := by
  have := c.isLt
  have := p.isLt
  have := srcCode_lt x
  have := srcCode_lt y
  exact of_pack 8 3 sw _ (by decide) (by decide) (by simp only [weight]; omega)
theorem icmpGt (sw : Bool) (c : BitVec 3) (p : BitVec 3) (x : Src) (y : Src) : Statement (.icmpGt sw c p x y) := by
  have := c.isLt
  have := p.isLt
  have := srcCode_lt x
  have := srcCode_lt y
  exact of_pack 8 4 sw _ (by decide) (by decide) (by simp only [weight]; omega)
theorem icmpGe (sw : Bool) (c : BitVec 3) (p : BitVec 3) (x : Src) (y : Src) : Statement (.icmpGe sw c p x y) := by
  have := c.isLt
  have := p.isLt
  have := srcCode_lt x
  have := srcCode_lt y
  exact of_pack 8 5 sw _ (by decide) (by decide) (by simp only [weight]; omega)
theorem icmpLtn (sw : Bool) (c : BitVec 3) (p : BitVec 3) (x : Src) (y : Src) : Statement (.icmpLtn sw c p x y) := by
  have := c.isLt
  have := p.isLt
  have := srcCode_lt x
  have := srcCode_lt y
  exact of_pack 8 6 sw _ (by decide) (by decide) (by simp only [weight]; omega)
theorem icmpLen (sw : Bool) (c : BitVec 3) (p : BitVec 3) (x : Src) (y : Src) : Statement (.icmpLen sw c p x y) := by
  have := c.isLt
  have := p.isLt
  have := srcCode_lt x
  have := srcCode_lt y
  exact of_pack 8 7 sw _ (by decide) (by decide) (by simp only [weight]; omega)
theorem icmpGtn (sw : Bool) (c : BitVec 3) (p : BitVec 3) (x : Src) (y : Src) : Statement (.icmpGtn sw c p x y) := by
  have := c.isLt
  have := p.isLt
  have := srcCode_lt x
  have := srcCode_lt y
  exact of_pack 8 8 sw _ (by decide) (by decide) (by simp only [weight]; omega)
theorem icmpGen (sw : Bool) (c : BitVec 3) (p : BitVec 3) (x : Src) (y : Src) : Statement (.icmpGen sw c p x y) := by
  have := c.isLt
  have := p.isLt
  have := srcCode_lt x
  have := srcCode_lt y
  exact of_pack 8 9 sw _ (by decide) (by decide) (by simp only [weight]; omega)
theorem icmpFeq (sw : Bool) (c : BitVec 3) (p : BitVec 3) (x : Src) (y : Src) : Statement (.icmpFeq sw c p x y) := by
  have := c.isLt
  have := p.isLt
  have := srcCode_lt x
  have := srcCode_lt y
  exact of_pack 8 10 sw _ (by decide) (by decide) (by simp only [weight]; omega)
theorem icmpFne (sw : Bool) (c : BitVec 3) (p : BitVec 3) (x : Src) (y : Src) : Statement (.icmpFne sw c p x y) := by
  have := c.isLt
  have := p.isLt
  have := srcCode_lt x
  have := srcCode_lt y
  exact of_pack 8 11 sw _ (by decide) (by decide) (by simp only [weight]; omega)
theorem icmpFlt (sw : Bool) (c : BitVec 3) (p : BitVec 3) (x : Src) (y : Src) : Statement (.icmpFlt sw c p x y) := by
  have := c.isLt
  have := p.isLt
  have := srcCode_lt x
  have := srcCode_lt y
  exact of_pack 8 12 sw _ (by decide) (by decide) (by simp only [weight]; omega)
theorem icmpFle (sw : Bool) (c : BitVec 3) (p : BitVec 3) (x : Src) (y : Src) : Statement (.icmpFle sw c p x y) := by
  have := c.isLt
  have := p.isLt
  have := srcCode_lt x
  have := srcCode_lt y
  exact of_pack 8 13 sw _ (by decide) (by decide) (by simp only [weight]; omega)
theorem icmpFuno (sw : Bool) (c : BitVec 3) (p : BitVec 3) (x : Src) (y : Src) : Statement (.icmpFuno sw c p x y) := by
  have := c.isLt
  have := p.isLt
  have := srcCode_lt x
  have := srcCode_lt y
  exact of_pack 8 14 sw _ (by decide) (by decide) (by simp only [weight]; omega)
theorem icmpFord (sw : Bool) (c : BitVec 3) (p : BitVec 3) (x : Src) (y : Src) : Statement (.icmpFord sw c p x y) := by
  have := c.isLt
  have := p.isLt
  have := srcCode_lt x
  have := srcCode_lt y
  exact of_pack 8 15 sw _ (by decide) (by decide) (by simp only [weight]; omega)
theorem shfl (sw : Bool) (d : BitVec 6) (x : Src) (y : Src) : Statement (.shfl sw d x y) := by
  have := d.isLt
  have := srcCode_lt x
  have := srcCode_lt y
  exact of_pack 9 0 sw _ (by decide) (by decide) (by simp only [weight]; omega)
theorem ballot (sw : Bool) (d : BitVec 5) (x : BitVec 3) : Statement (.ballot sw d x) := by
  have := d.isLt
  have := x.isLt
  exact of_pack 9 1 sw _ (by decide) (by decide) (by simp only [weight]; omega)
theorem vany (sw : Bool) (d : BitVec 3) (x : BitVec 3) : Statement (.vany sw d x) := by
  have := d.isLt
  have := x.isLt
  exact of_pack 9 2 sw _ (by decide) (by decide) (by simp only [weight]; omega)
theorem vall (sw : Bool) (d : BitVec 3) (x : BitVec 3) : Statement (.vall sw d x) := by
  have := d.isLt
  have := x.isLt
  exact of_pack 9 3 sw _ (by decide) (by decide) (by simp only [weight]; omega)
theorem rsumi (sw : Bool) (d : BitVec 6) (x : Src) : Statement (.rsumi sw d x) := by
  have := d.isLt
  have := srcCode_lt x
  exact of_pack 9 4 sw _ (by decide) (by decide) (by simp only [weight]; omega)
theorem rmini (sw : Bool) (d : BitVec 6) (x : Src) : Statement (.rmini sw d x) := by
  have := d.isLt
  have := srcCode_lt x
  exact of_pack 9 5 sw _ (by decide) (by decide) (by simp only [weight]; omega)
theorem rmaxi (sw : Bool) (d : BitVec 6) (x : Src) : Statement (.rmaxi sw d x) := by
  have := d.isLt
  have := srcCode_lt x
  exact of_pack 9 6 sw _ (by decide) (by decide) (by simp only [weight]; omega)
theorem rsumf (sw : Bool) (d : BitVec 6) (x : Src) : Statement (.rsumf sw d x) := by
  have := d.isLt
  have := srcCode_lt x
  exact of_pack 9 7 sw _ (by decide) (by decide) (by simp only [weight]; omega)
theorem scani (sw : Bool) (d : BitVec 6) (x : Src) : Statement (.scani sw d x) := by
  have := d.isLt
  have := srcCode_lt x
  exact of_pack 9 8 sw _ (by decide) (by decide) (by simp only [weight]; omega)
theorem scanf (sw : Bool) (d : BitVec 6) (x : Src) : Statement (.scanf sw d x) := by
  have := d.isLt
  have := srcCode_lt x
  exact of_pack 9 9 sw _ (by decide) (by decide) (by simp only [weight]; omega)
theorem scanxi (sw : Bool) (d : BitVec 6) (x : Src) : Statement (.scanxi sw d x) := by
  have := d.isLt
  have := srcCode_lt x
  exact of_pack 9 10 sw _ (by decide) (by decide) (by simp only [weight]; omega)
theorem matchx (sw : Bool) (d : BitVec 5) (x : Src) : Statement (.matchx sw d x) := by
  have := d.isLt
  have := srcCode_lt x
  exact of_pack 9 11 sw _ (by decide) (by decide) (by simp only [weight]; omega)
theorem popm (sw : Bool) (d : BitVec 6) (x : BitVec 3) : Statement (.popm sw d x) := by
  have := d.isLt
  have := x.isLt
  exact of_pack 9 12 sw _ (by decide) (by decide) (by simp only [weight]; omega)
theorem first (sw : Bool) (d : BitVec 6) (x : Src) : Statement (.first sw d x) := by
  have := d.isLt
  have := srcCode_lt x
  exact of_pack 9 13 sw _ (by decide) (by decide) (by simp only [weight]; omega)
theorem cmpct (sw : Bool) (d : BitVec 6) (x : BitVec 3) : Statement (.cmpct sw d x) := by
  have := d.isLt
  have := x.isLt
  exact of_pack 9 14 sw _ (by decide) (by decide) (by simp only [weight]; omega)
theorem sadd (sw : Bool) (d : BitVec 6) (x : Src) (y : Src) : Statement (.sadd sw d x y) := by
  have := d.isLt
  have := srcCode_lt x
  have := srcCode_lt y
  exact of_pack 10 0 sw _ (by decide) (by decide) (by simp only [weight]; omega)
theorem ssub (sw : Bool) (d : BitVec 6) (x : Src) (y : Src) : Statement (.ssub sw d x y) := by
  have := d.isLt
  have := srcCode_lt x
  have := srcCode_lt y
  exact of_pack 10 1 sw _ (by decide) (by decide) (by simp only [weight]; omega)
theorem smul (sw : Bool) (d : BitVec 6) (x : Src) (y : Src) : Statement (.smul sw d x y) := by
  have := d.isLt
  have := srcCode_lt x
  have := srcCode_lt y
  exact of_pack 10 2 sw _ (by decide) (by decide) (by simp only [weight]; omega)
theorem smulh (sw : Bool) (d : BitVec 6) (x : Src) (y : Src) : Statement (.smulh sw d x y) := by
  have := d.isLt
  have := srcCode_lt x
  have := srcCode_lt y
  exact of_pack 10 3 sw _ (by decide) (by decide) (by simp only [weight]; omega)
theorem sumulh (sw : Bool) (d : BitVec 6) (x : Src) (y : Src) : Statement (.sumulh sw d x y) := by
  have := d.isLt
  have := srcCode_lt x
  have := srcCode_lt y
  exact of_pack 10 4 sw _ (by decide) (by decide) (by simp only [weight]; omega)
theorem smin (sw : Bool) (d : BitVec 6) (x : Src) (y : Src) : Statement (.smin sw d x y) := by
  have := d.isLt
  have := srcCode_lt x
  have := srcCode_lt y
  exact of_pack 10 5 sw _ (by decide) (by decide) (by simp only [weight]; omega)
theorem smax (sw : Bool) (d : BitVec 6) (x : Src) (y : Src) : Statement (.smax sw d x y) := by
  have := d.isLt
  have := srcCode_lt x
  have := srcCode_lt y
  exact of_pack 10 6 sw _ (by decide) (by decide) (by simp only [weight]; omega)
theorem sumin (sw : Bool) (d : BitVec 6) (x : Src) (y : Src) : Statement (.sumin sw d x y) := by
  have := d.isLt
  have := srcCode_lt x
  have := srcCode_lt y
  exact of_pack 10 7 sw _ (by decide) (by decide) (by simp only [weight]; omega)
theorem sumax (sw : Bool) (d : BitVec 6) (x : Src) (y : Src) : Statement (.sumax sw d x y) := by
  have := d.isLt
  have := srcCode_lt x
  have := srcCode_lt y
  exact of_pack 10 8 sw _ (by decide) (by decide) (by simp only [weight]; omega)
theorem sand (sw : Bool) (d : BitVec 6) (x : Src) (y : Src) : Statement (.sand sw d x y) := by
  have := d.isLt
  have := srcCode_lt x
  have := srcCode_lt y
  exact of_pack 10 9 sw _ (by decide) (by decide) (by simp only [weight]; omega)
theorem sor (sw : Bool) (d : BitVec 6) (x : Src) (y : Src) : Statement (.sor sw d x y) := by
  have := d.isLt
  have := srcCode_lt x
  have := srcCode_lt y
  exact of_pack 10 10 sw _ (by decide) (by decide) (by simp only [weight]; omega)
theorem sxor (sw : Bool) (d : BitVec 6) (x : Src) (y : Src) : Statement (.sxor sw d x y) := by
  have := d.isLt
  have := srcCode_lt x
  have := srcCode_lt y
  exact of_pack 10 11 sw _ (by decide) (by decide) (by simp only [weight]; omega)
theorem sshl (sw : Bool) (d : BitVec 6) (x : Src) (y : Src) : Statement (.sshl sw d x y) := by
  have := d.isLt
  have := srcCode_lt x
  have := srcCode_lt y
  exact of_pack 10 12 sw _ (by decide) (by decide) (by simp only [weight]; omega)
theorem sshr (sw : Bool) (d : BitVec 6) (x : Src) (y : Src) : Statement (.sshr sw d x y) := by
  have := d.isLt
  have := srcCode_lt x
  have := srcCode_lt y
  exact of_pack 10 13 sw _ (by decide) (by decide) (by simp only [weight]; omega)
theorem ssra (sw : Bool) (d : BitVec 6) (x : Src) (y : Src) : Statement (.ssra sw d x y) := by
  have := d.isLt
  have := srcCode_lt x
  have := srcCode_lt y
  exact of_pack 10 14 sw _ (by decide) (by decide) (by simp only [weight]; omega)
theorem smov (sw : Bool) (d : BitVec 6) (x : Src) : Statement (.smov sw d x) := by
  have := d.isLt
  have := srcCode_lt x
  exact of_pack 10 15 sw _ (by decide) (by decide) (by simp only [weight]; omega)
theorem saddi (sw : Bool) (d : BitVec 6) (x : Src) (i : BitVec 8) : Statement (.saddi sw d x i) := by
  have := d.isLt
  have := srcCode_lt x
  have := i.isLt
  exact of_pack 11 0 sw _ (by decide) (by decide) (by simp only [weight]; omega)
theorem ssubi (sw : Bool) (d : BitVec 6) (x : Src) (i : BitVec 8) : Statement (.ssubi sw d x i) := by
  have := d.isLt
  have := srcCode_lt x
  have := i.isLt
  exact of_pack 11 256 sw _ (by decide) (by decide) (by simp only [weight]; omega)
theorem smuli (sw : Bool) (d : BitVec 6) (x : Src) (i : BitVec 8) : Statement (.smuli sw d x i) := by
  have := d.isLt
  have := srcCode_lt x
  have := i.isLt
  exact of_pack 11 512 sw _ (by decide) (by decide) (by simp only [weight]; omega)
theorem smulhi (sw : Bool) (d : BitVec 6) (x : Src) (i : BitVec 8) : Statement (.smulhi sw d x i) := by
  have := d.isLt
  have := srcCode_lt x
  have := i.isLt
  exact of_pack 11 768 sw _ (by decide) (by decide) (by simp only [weight]; omega)
theorem sumulhi (sw : Bool) (d : BitVec 6) (x : Src) (i : BitVec 8) : Statement (.sumulhi sw d x i) := by
  have := d.isLt
  have := srcCode_lt x
  have := i.isLt
  exact of_pack 11 1024 sw _ (by decide) (by decide) (by simp only [weight]; omega)
theorem smini (sw : Bool) (d : BitVec 6) (x : Src) (i : BitVec 8) : Statement (.smini sw d x i) := by
  have := d.isLt
  have := srcCode_lt x
  have := i.isLt
  exact of_pack 11 1280 sw _ (by decide) (by decide) (by simp only [weight]; omega)
theorem smaxi (sw : Bool) (d : BitVec 6) (x : Src) (i : BitVec 8) : Statement (.smaxi sw d x i) := by
  have := d.isLt
  have := srcCode_lt x
  have := i.isLt
  exact of_pack 11 1536 sw _ (by decide) (by decide) (by simp only [weight]; omega)
theorem sumini (sw : Bool) (d : BitVec 6) (x : Src) (i : BitVec 8) : Statement (.sumini sw d x i) := by
  have := d.isLt
  have := srcCode_lt x
  have := i.isLt
  exact of_pack 11 1792 sw _ (by decide) (by decide) (by simp only [weight]; omega)
theorem sumaxi (sw : Bool) (d : BitVec 6) (x : Src) (i : BitVec 8) : Statement (.sumaxi sw d x i) := by
  have := d.isLt
  have := srcCode_lt x
  have := i.isLt
  exact of_pack 11 2048 sw _ (by decide) (by decide) (by simp only [weight]; omega)
theorem sandi (sw : Bool) (d : BitVec 6) (x : Src) (i : BitVec 8) : Statement (.sandi sw d x i) := by
  have := d.isLt
  have := srcCode_lt x
  have := i.isLt
  exact of_pack 11 2304 sw _ (by decide) (by decide) (by simp only [weight]; omega)
theorem sori (sw : Bool) (d : BitVec 6) (x : Src) (i : BitVec 8) : Statement (.sori sw d x i) := by
  have := d.isLt
  have := srcCode_lt x
  have := i.isLt
  exact of_pack 11 2560 sw _ (by decide) (by decide) (by simp only [weight]; omega)
theorem sxori (sw : Bool) (d : BitVec 6) (x : Src) (i : BitVec 8) : Statement (.sxori sw d x i) := by
  have := d.isLt
  have := srcCode_lt x
  have := i.isLt
  exact of_pack 11 2816 sw _ (by decide) (by decide) (by simp only [weight]; omega)
theorem sshli (sw : Bool) (d : BitVec 6) (x : Src) (i : BitVec 8) : Statement (.sshli sw d x i) := by
  have := d.isLt
  have := srcCode_lt x
  have := i.isLt
  exact of_pack 11 3072 sw _ (by decide) (by decide) (by simp only [weight]; omega)
theorem sshri (sw : Bool) (d : BitVec 6) (x : Src) (i : BitVec 8) : Statement (.sshri sw d x i) := by
  have := d.isLt
  have := srcCode_lt x
  have := i.isLt
  exact of_pack 11 3328 sw _ (by decide) (by decide) (by simp only [weight]; omega)
theorem ssrai (sw : Bool) (d : BitVec 6) (x : Src) (i : BitVec 8) : Statement (.ssrai sw d x i) := by
  have := d.isLt
  have := srcCode_lt x
  have := i.isLt
  exact of_pack 11 3584 sw _ (by decide) (by decide) (by simp only [weight]; omega)
theorem smovi (sw : Bool) (d : BitVec 6) (i : BitVec 8) : Statement (.smovi sw d i) := by
  have := d.isLt
  have := i.isLt
  exact of_pack 11 3840 sw _ (by decide) (by decide) (by simp only [weight]; omega)
theorem mov (sw : Bool) (d : BitVec 6) (x : Src) : Statement (.mov sw d x) := by
  have := d.isLt
  have := srcCode_lt x
  exact of_pack 12 0 sw _ (by decide) (by decide) (by simp only [weight]; omega)
theorem vfroms (sw : Bool) (d : BitVec 6) (x : Src) : Statement (.vfroms sw d x) := by
  have := d.isLt
  have := srcCode_lt x
  exact of_pack 12 1 sw _ (by decide) (by decide) (by simp only [weight]; omega)
theorem sfromv (sw : Bool) (d : BitVec 6) (x : Src) : Statement (.sfromv sw d x) := by
  have := d.isLt
  have := srcCode_lt x
  exact of_pack 12 2 sw _ (by decide) (by decide) (by simp only [weight]; omega)
theorem sel (sw : Bool) (d : BitVec 6) (x : Src) (y : Src) : Statement (.sel sw d x y) := by
  have := d.isLt
  have := srcCode_lt x
  have := srcCode_lt y
  exact of_pack 12 3 sw _ (by decide) (by decide) (by simp only [weight]; omega)
theorem pand (sw : Bool) (d : BitVec 3) (x : BitVec 3) (y : BitVec 3) : Statement (.pand sw d x y) := by
  have := d.isLt
  have := x.isLt
  have := y.isLt
  exact of_pack 12 4 sw _ (by decide) (by decide) (by simp only [weight]; omega)
theorem por (sw : Bool) (d : BitVec 3) (x : BitVec 3) (y : BitVec 3) : Statement (.por sw d x y) := by
  have := d.isLt
  have := x.isLt
  have := y.isLt
  exact of_pack 12 5 sw _ (by decide) (by decide) (by simp only [weight]; omega)
theorem pxor (sw : Bool) (d : BitVec 3) (x : BitVec 3) (y : BitVec 3) : Statement (.pxor sw d x y) := by
  have := d.isLt
  have := x.isLt
  have := y.isLt
  exact of_pack 12 6 sw _ (by decide) (by decide) (by simp only [weight]; omega)
theorem pnot (sw : Bool) (d : BitVec 3) (x : BitVec 3) : Statement (.pnot sw d x) := by
  have := d.isLt
  have := x.isLt
  exact of_pack 12 7 sw _ (by decide) (by decide) (by simp only [weight]; omega)
theorem ptov (sw : Bool) (d : BitVec 6) (x : BitVec 3) : Statement (.ptov sw d x) := by
  have := d.isLt
  have := x.isLt
  exact of_pack 12 8 sw _ (by decide) (by decide) (by simp only [weight]; omega)
theorem vtop (sw : Bool) (d : BitVec 3) (x : Src) : Statement (.vtop sw d x) := by
  have := d.isLt
  have := srcCode_lt x
  exact of_pack 12 9 sw _ (by decide) (by decide) (by simp only [weight]; omega)
theorem rdid (sw : Bool) (d : BitVec 6) (c : BitVec 8) : Statement (.rdid sw d c) := by
  have := d.isLt
  have := c.isLt
  exact of_pack 12 10 sw _ (by decide) (by decide) (by simp only [weight]; omega)
theorem rdst (sw : Bool) (d : BitVec 6) (n : BitVec 8) : Statement (.rdst sw d n) := by
  have := d.isLt
  have := n.isLt
  exact of_pack 12 11 sw _ (by decide) (by decide) (by simp only [weight]; omega)
theorem wrst (sw : Bool) (n : BitVec 8) (y : Src) : Statement (.wrst sw n y) := by
  have := n.isLt
  have := srcCode_lt y
  exact of_pack 12 12 sw _ (by decide) (by decide) (by simp only [weight]; omega)
theorem clock (sw : Bool) (d : BitVec 6) : Statement (.clock sw d) := by
  have := d.isLt
  exact of_pack 12 13 sw _ (by decide) (by decide) (by simp only [weight]; omega)
theorem adr (sw : Bool) (d : BitVec 6) (o : BitVec 16) : Statement (.adr sw d o) := by
  have := d.isLt
  have := o.isLt
  exact of_pack 12 14 sw _ (by decide) (by decide) (by simp only [weight]; omega)
theorem nop (sw : Bool) : Statement (.nop sw) := of_pack 12 15 sw [] (by decide) (by decide) (by decide)
theorem ld8 (sw : Bool) (d : BitVec 6) (x : Src) (o : BitVec 8) : Statement (.ld8 sw d x o) := by
  have := d.isLt
  have := srcCode_lt x
  have := o.isLt
  exact of_pack 13 0 sw _ (by decide) (by decide) (by simp only [weight]; omega)
theorem ld8s (sw : Bool) (d : BitVec 6) (x : Src) (o : BitVec 8) : Statement (.ld8s sw d x o) := by
  have := d.isLt
  have := srcCode_lt x
  have := o.isLt
  exact of_pack 13 1 sw _ (by decide) (by decide) (by simp only [weight]; omega)
theorem ld16 (sw : Bool) (d : BitVec 6) (x : Src) (o : BitVec 8) : Statement (.ld16 sw d x o) := by
  have := d.isLt
  have := srcCode_lt x
  have := o.isLt
  exact of_pack 13 2 sw _ (by decide) (by decide) (by simp only [weight]; omega)
theorem ld16s (sw : Bool) (d : BitVec 6) (x : Src) (o : BitVec 8) : Statement (.ld16s sw d x o) := by
  have := d.isLt
  have := srcCode_lt x
  have := o.isLt
  exact of_pack 13 3 sw _ (by decide) (by decide) (by simp only [weight]; omega)
theorem ld32 (sw : Bool) (d : BitVec 6) (x : Src) (o : BitVec 8) : Statement (.ld32 sw d x o) := by
  have := d.isLt
  have := srcCode_lt x
  have := o.isLt
  exact of_pack 13 4 sw _ (by decide) (by decide) (by simp only [weight]; omega)
theorem ld64 (sw : Bool) (d : BitVec 5) (x : Src) (o : BitVec 8) : Statement (.ld64 sw d x o) := by
  have := d.isLt
  have := srcCode_lt x
  have := o.isLt
  exact of_pack 13 5 sw _ (by decide) (by decide) (by simp only [weight]; omega)
theorem ld128 (sw : Bool) (d : BitVec 4) (x : Src) (o : BitVec 8) : Statement (.ld128 sw d x o) := by
  have := d.isLt
  have := srcCode_lt x
  have := o.isLt
  exact of_pack 13 6 sw _ (by decide) (by decide) (by simp only [weight]; omega)
theorem ldfe (sw : Bool) (d : BitVec 6) (x : Src) (o : BitVec 8) : Statement (.ldfe sw d x o) := by
  have := d.isLt
  have := srcCode_lt x
  have := o.isLt
  exact of_pack 13 7 sw _ (by decide) (by decide) (by simp only [weight]; omega)
theorem ldft (sw : Bool) (d : BitVec 6) (x : Src) (o : BitVec 8) : Statement (.ldft sw d x o) := by
  have := d.isLt
  have := srcCode_lt x
  have := o.isLt
  exact of_pack 13 8 sw _ (by decide) (by decide) (by simp only [weight]; omega)
theorem ldfc (sw : Bool) (d : BitVec 6) (x : Src) (o : BitVec 8) : Statement (.ldfc sw d x o) := by
  have := d.isLt
  have := srcCode_lt x
  have := o.isLt
  exact of_pack 13 9 sw _ (by decide) (by decide) (by simp only [weight]; omega)
theorem lds32 (sw : Bool) (d : BitVec 6) (x : Src) (o : BitVec 8) : Statement (.lds32 sw d x o) := by
  have := d.isLt
  have := srcCode_lt x
  have := o.isLt
  exact of_pack 13 10 sw _ (by decide) (by decide) (by simp only [weight]; omega)
theorem ldtag (sw : Bool) (d : BitVec 6) (x : Src) (o : BitVec 8) : Statement (.ldtag sw d x o) := by
  have := d.isLt
  have := srcCode_lt x
  have := o.isLt
  exact of_pack 13 11 sw _ (by decide) (by decide) (by simp only [weight]; omega)
theorem st8 (sw : Bool) (d : BitVec 6) (x : Src) (o : BitVec 8) : Statement (.st8 sw d x o) := by
  have := d.isLt
  have := srcCode_lt x
  have := o.isLt
  exact of_pack 14 0 sw _ (by decide) (by decide) (by simp only [weight]; omega)
theorem st16 (sw : Bool) (d : BitVec 6) (x : Src) (o : BitVec 8) : Statement (.st16 sw d x o) := by
  have := d.isLt
  have := srcCode_lt x
  have := o.isLt
  exact of_pack 14 1 sw _ (by decide) (by decide) (by simp only [weight]; omega)
theorem st32 (sw : Bool) (d : BitVec 6) (x : Src) (o : BitVec 8) : Statement (.st32 sw d x o) := by
  have := d.isLt
  have := srcCode_lt x
  have := o.isLt
  exact of_pack 14 2 sw _ (by decide) (by decide) (by simp only [weight]; omega)
theorem st64 (sw : Bool) (d : BitVec 5) (x : Src) (o : BitVec 8) : Statement (.st64 sw d x o) := by
  have := d.isLt
  have := srcCode_lt x
  have := o.isLt
  exact of_pack 14 3 sw _ (by decide) (by decide) (by simp only [weight]; omega)
theorem st128 (sw : Bool) (d : BitVec 4) (x : Src) (o : BitVec 8) : Statement (.st128 sw d x o) := by
  have := d.isLt
  have := srcCode_lt x
  have := o.isLt
  exact of_pack 14 4 sw _ (by decide) (by decide) (by simp only [weight]; omega)
theorem stf (sw : Bool) (d : BitVec 6) (x : Src) (o : BitVec 8) : Statement (.stf sw d x o) := by
  have := d.isLt
  have := srcCode_lt x
  have := o.isLt
  exact of_pack 14 5 sw _ (by decide) (by decide) (by simp only [weight]; omega)
theorem ste (sw : Bool) (x : Src) (o : BitVec 8) : Statement (.ste sw x o) := by
  have := srcCode_lt x
  have := o.isLt
  exact of_pack 14 6 sw _ (by decide) (by decide) (by simp only [weight]; omega)
theorem sts32 (sw : Bool) (d : BitVec 6) (x : Src) (o : BitVec 8) : Statement (.sts32 sw d x o) := by
  have := d.isLt
  have := srcCode_lt x
  have := o.isLt
  exact of_pack 14 7 sw _ (by decide) (by decide) (by simp only [weight]; omega)
theorem stcd (sw : Bool) (x : Src) (o : BitVec 8) : Statement (.stcd sw x o) := by
  have := srcCode_lt x
  have := o.isLt
  exact of_pack 14 8 sw _ (by decide) (by decide) (by simp only [weight]; omega)
theorem aadd (sw : Bool) (d : BitVec 6) (x : Src) (y : Src) : Statement (.aadd sw d x y) := by
  have := d.isLt
  have := srcCode_lt x
  have := srcCode_lt y
  exact of_pack 15 0 sw _ (by decide) (by decide) (by simp only [weight]; omega)
theorem amin (sw : Bool) (d : BitVec 6) (x : Src) (y : Src) : Statement (.amin sw d x y) := by
  have := d.isLt
  have := srcCode_lt x
  have := srcCode_lt y
  exact of_pack 15 1 sw _ (by decide) (by decide) (by simp only [weight]; omega)
theorem amax (sw : Bool) (d : BitVec 6) (x : Src) (y : Src) : Statement (.amax sw d x y) := by
  have := d.isLt
  have := srcCode_lt x
  have := srcCode_lt y
  exact of_pack 15 2 sw _ (by decide) (by decide) (by simp only [weight]; omega)
theorem aminn (sw : Bool) (d : BitVec 6) (x : Src) (y : Src) : Statement (.aminn sw d x y) := by
  have := d.isLt
  have := srcCode_lt x
  have := srcCode_lt y
  exact of_pack 15 3 sw _ (by decide) (by decide) (by simp only [weight]; omega)
theorem amaxn (sw : Bool) (d : BitVec 6) (x : Src) (y : Src) : Statement (.amaxn sw d x y) := by
  have := d.isLt
  have := srcCode_lt x
  have := srcCode_lt y
  exact of_pack 15 4 sw _ (by decide) (by decide) (by simp only [weight]; omega)
theorem aand (sw : Bool) (d : BitVec 6) (x : Src) (y : Src) : Statement (.aand sw d x y) := by
  have := d.isLt
  have := srcCode_lt x
  have := srcCode_lt y
  exact of_pack 15 5 sw _ (by decide) (by decide) (by simp only [weight]; omega)
theorem aor (sw : Bool) (d : BitVec 6) (x : Src) (y : Src) : Statement (.aor sw d x y) := by
  have := d.isLt
  have := srcCode_lt x
  have := srcCode_lt y
  exact of_pack 15 6 sw _ (by decide) (by decide) (by simp only [weight]; omega)
theorem axor (sw : Bool) (d : BitVec 6) (x : Src) (y : Src) : Statement (.axor sw d x y) := by
  have := d.isLt
  have := srcCode_lt x
  have := srcCode_lt y
  exact of_pack 15 7 sw _ (by decide) (by decide) (by simp only [weight]; omega)
theorem axch (sw : Bool) (d : BitVec 6) (x : Src) (y : Src) : Statement (.axch sw d x y) := by
  have := d.isLt
  have := srcCode_lt x
  have := srcCode_lt y
  exact of_pack 15 8 sw _ (by decide) (by decide) (by simp only [weight]; omega)
theorem acas (sw : Bool) (d : BitVec 6) (x : Src) (y : Src) : Statement (.acas sw d x y) := by
  have := d.isLt
  have := srcCode_lt x
  have := srcCode_lt y
  exact of_pack 15 9 sw _ (by decide) (by decide) (by simp only [weight]; omega)
theorem afadd (sw : Bool) (d : BitVec 6) (x : Src) (y : Src) : Statement (.afadd sw d x y) := by
  have := d.isLt
  have := srcCode_lt x
  have := srcCode_lt y
  exact of_pack 15 10 sw _ (by decide) (by decide) (by simp only [weight]; omega)
theorem aincw (sw : Bool) (d : BitVec 6) (x : Src) (y : Src) : Statement (.aincw sw d x y) := by
  have := d.isLt
  have := srcCode_lt x
  have := srcCode_lt y
  exact of_pack 15 11 sw _ (by decide) (by decide) (by simp only [weight]; omega)
theorem gredRaddi (sw : Bool) (n : BitVec 4) (x : Src) (y : Src) : Statement (.gredRaddi sw n x y) := by
  have := n.isLt
  have := srcCode_lt x
  have := srcCode_lt y
  exact of_pack 16 0 sw _ (by decide) (by decide) (by simp only [weight]; omega)
theorem gredRaddf (sw : Bool) (n : BitVec 4) (x : Src) (y : Src) : Statement (.gredRaddf sw n x y) := by
  have := n.isLt
  have := srcCode_lt x
  have := srcCode_lt y
  exact of_pack 16 1 sw _ (by decide) (by decide) (by simp only [weight]; omega)
theorem gredRmini (sw : Bool) (n : BitVec 4) (x : Src) (y : Src) : Statement (.gredRmini sw n x y) := by
  have := n.isLt
  have := srcCode_lt x
  have := srcCode_lt y
  exact of_pack 16 2 sw _ (by decide) (by decide) (by simp only [weight]; omega)
theorem gredRmaxi (sw : Bool) (n : BitVec 4) (x : Src) (y : Src) : Statement (.gredRmaxi sw n x y) := by
  have := n.isLt
  have := srcCode_lt x
  have := srcCode_lt y
  exact of_pack 16 3 sw _ (by decide) (by decide) (by simp only [weight]; omega)
theorem gredRminf (sw : Bool) (n : BitVec 4) (x : Src) (y : Src) : Statement (.gredRminf sw n x y) := by
  have := n.isLt
  have := srcCode_lt x
  have := srcCode_lt y
  exact of_pack 16 4 sw _ (by decide) (by decide) (by simp only [weight]; omega)
theorem gredRmaxf (sw : Bool) (n : BitVec 4) (x : Src) (y : Src) : Statement (.gredRmaxf sw n x y) := by
  have := n.isLt
  have := srcCode_lt x
  have := srcCode_lt y
  exact of_pack 16 5 sw _ (by decide) (by decide) (by simp only [weight]; omega)
theorem gredRand (sw : Bool) (n : BitVec 4) (x : Src) (y : Src) : Statement (.gredRand sw n x y) := by
  have := n.isLt
  have := srcCode_lt x
  have := srcCode_lt y
  exact of_pack 16 6 sw _ (by decide) (by decide) (by simp only [weight]; omega)
theorem gredRor (sw : Bool) (n : BitVec 4) (x : Src) (y : Src) : Statement (.gredRor sw n x y) := by
  have := n.isLt
  have := srcCode_lt x
  have := srcCode_lt y
  exact of_pack 16 7 sw _ (by decide) (by decide) (by simp only [weight]; omega)
theorem gredRxor (sw : Bool) (n : BitVec 4) (x : Src) (y : Src) : Statement (.gredRxor sw n x y) := by
  have := n.isLt
  have := srcCode_lt x
  have := srcCode_lt y
  exact of_pack 16 8 sw _ (by decide) (by decide) (by simp only [weight]; omega)
theorem gredRaddb2 (sw : Bool) (n : BitVec 4) (x : Src) (y : Src) : Statement (.gredRaddb2 sw n x y) := by
  have := n.isLt
  have := srcCode_lt x
  have := srcCode_lt y
  exact of_pack 16 9 sw _ (by decide) (by decide) (by simp only [weight]; omega)
theorem gredRaddi64 (sw : Bool) (n : BitVec 4) (x : Src) (y : BitVec 5) (uy : Use) : Statement (.gredRaddi64 sw n x y uy) := by
  have := n.isLt
  have := srcCode_lt x
  have := y.isLt
  have := useCode_lt uy
  exact of_pack 16 10 sw _ (by decide) (by decide) (by simp only [weight]; omega)
theorem br (sw : Bool) (o : BitVec 19) : Statement (.br sw o) := by
  have := o.isLt
  exact of_pack 17 0 sw _ (by decide) (by decide) (by simp only [weight]; omega)
theorem brt (sw : Bool) (p : BitVec 3) (o : BitVec 19) : Statement (.brt sw p o) := by
  have := p.isLt
  have := o.isLt
  exact of_pack 17 4194304 sw _ (by decide) (by decide) (by simp only [weight]; omega)
theorem brf (sw : Bool) (p : BitVec 3) (o : BitVec 19) : Statement (.brf sw p o) := by
  have := p.isLt
  have := o.isLt
  exact of_pack 17 8388608 sw _ (by decide) (by decide) (by simp only [weight]; omega)
theorem brany (sw : Bool) (p : BitVec 3) (o : BitVec 19) : Statement (.brany sw p o) := by
  have := p.isLt
  have := o.isLt
  exact of_pack 17 12582912 sw _ (by decide) (by decide) (by simp only [weight]; omega)
theorem brall (sw : Bool) (p : BitVec 3) (o : BitVec 19) : Statement (.brall sw p o) := by
  have := p.isLt
  have := o.isLt
  exact of_pack 17 16777216 sw _ (by decide) (by decide) (by simp only [weight]; omega)
theorem call (sw : Bool) (o : BitVec 19) : Statement (.call sw o) := by
  have := o.isLt
  exact of_pack 17 20971520 sw _ (by decide) (by decide) (by simp only [weight]; omega)
theorem jr (sw : Bool) (x : Src) : Statement (.jr sw x) := by
  have := srcCode_lt x
  exact of_pack 18 0 sw _ (by decide) (by decide) (by simp only [weight]; omega)
theorem callr (sw : Bool) (x : Src) : Statement (.callr sw x) := by
  have := srcCode_lt x
  exact of_pack 18 1 sw _ (by decide) (by decide) (by simp only [weight]; omega)
theorem ret (sw : Bool) : Statement (.ret sw) := of_pack 18 2 sw [] (by decide) (by decide) (by decide)
theorem mjoin (sw : Bool) (m : BitVec 4) : Statement (.mjoin sw m) := by
  have := m.isLt
  exact of_pack 19 0 sw _ (by decide) (by decide) (by simp only [weight]; omega)
theorem mleave (sw : Bool) (m : BitVec 4) : Statement (.mleave sw m) := by
  have := m.isLt
  exact of_pack 19 4194304 sw _ (by decide) (by decide) (by simp only [weight]; omega)
theorem mwait (sw : Bool) (m : BitVec 4) : Statement (.mwait sw m) := by
  have := m.isLt
  exact of_pack 19 8388608 sw _ (by decide) (by decide) (by simp only [weight]; omega)
theorem mset (sw : Bool) (m : BitVec 4) (j : BitVec 5) : Statement (.mset sw m j) := by
  have := m.isLt
  have := j.isLt
  exact of_pack 19 12582912 sw _ (by decide) (by decide) (by simp only [weight]; omega)
theorem mget (sw : Bool) (m : BitVec 4) (j : BitVec 5) : Statement (.mget sw m j) := by
  have := m.isLt
  have := j.isLt
  exact of_pack 19 16777216 sw _ (by decide) (by decide) (by simp only [weight]; omega)
theorem mclr (sw : Bool) (m : BitVec 4) : Statement (.mclr sw m) := by
  have := m.isLt
  exact of_pack 19 20971520 sw _ (by decide) (by decide) (by simp only [weight]; omega)
theorem mtest (sw : Bool) (m : BitVec 4) (d : BitVec 3) : Statement (.mtest sw m d) := by
  have := m.isLt
  have := d.isLt
  exact of_pack 19 25165824 sw _ (by decide) (by decide) (by simp only [weight]; omega)
theorem bart (sw : Bool) : Statement (.bart sw) := of_pack 20 0 sw [] (by decide) (by decide) (by decide)
theorem barg (sw : Bool) : Statement (.barg sw) := of_pack 20 4194304 sw [] (by decide) (by decide) (by decide)
theorem phase (sw : Bool) (e : BitVec 18) : Statement (.phase sw e) := by
  have := e.isLt
  exact of_pack 20 8388608 sw _ (by decide) (by decide) (by simp only [weight]; omega)
theorem chend (sw : Bool) : Statement (.chend sw) := of_pack 20 12582912 sw [] (by decide) (by decide) (by decide)
theorem fenl (sw : Bool) : Statement (.fenl sw) := of_pack 20 16777216 sw [] (by decide) (by decide) (by decide)
theorem bartc (sw : Bool) (k : BitVec 4) (c : BitVec 18) : Statement (.bartc sw k c) := by
  have := k.isLt
  have := c.isLt
  exact of_pack 20 20971520 sw _ (by decide) (by decide) (by simp only [weight]; omega)
theorem spawn (sw : Bool) (x : Src) (y : Src) : Statement (.spawn sw x y) := by
  have := srcCode_lt x
  have := srcCode_lt y
  exact of_pack 21 0 sw _ (by decide) (by decide) (by simp only [weight]; omega)
theorem exit (sw : Bool) : Statement (.exit sw) := of_pack 21 1 sw [] (by decide) (by decide) (by decide)
theorem yield (sw : Bool) : Statement (.yield sw) := of_pack 21 2 sw [] (by decide) (by decide) (by decide)
theorem sleep (sw : Bool) (x : Src) : Statement (.sleep sw x) := by
  have := srcCode_lt x
  exact of_pack 21 3 sw _ (by decide) (by decide) (by simp only [weight]; omega)
theorem mma (sw : Bool) (a : BitVec 4) (b : BitVec 3) (t : BitVec 4) (r : BitVec 1) (p : BitVec 3) (c : BitVec 4) (k : BitVec 4) : Statement (.mma sw a b t r p c k) := by
  have := a.isLt
  have := b.isLt
  have := t.isLt
  have := r.isLt
  have := p.isLt
  have := c.isLt
  have := k.isLt
  exact of_pack 22 0 sw _ (by decide) (by decide) (by simp only [weight]; omega)
theorem tld (sw : Bool) (x : Src) (i : BitVec 4) : Statement (.tld sw x i) := by
  have := srcCode_lt x
  have := i.isLt
  exact of_pack 23 0 sw _ (by decide) (by decide) (by simp only [weight]; omega)
theorem tldt8 (sw : Bool) (d : BitVec 6) (x : Src) (i : BitVec 4) : Statement (.tldt8 sw d x i) := by
  have := d.isLt
  have := srcCode_lt x
  have := i.isLt
  exact of_pack 23 1 sw _ (by decide) (by decide) (by simp only [weight]; omega)
theorem tldt16 (sw : Bool) (d : BitVec 6) (x : Src) (i : BitVec 4) : Statement (.tldt16 sw d x i) := by
  have := d.isLt
  have := srcCode_lt x
  have := i.isLt
  exact of_pack 23 2 sw _ (by decide) (by decide) (by simp only [weight]; omega)
theorem tst (sw : Bool) (x : Src) (i : BitVec 4) (q : BitVec 4) : Statement (.tst sw x i q) := by
  have := srcCode_lt x
  have := i.isLt
  have := q.isLt
  exact of_pack 23 3 sw _ (by decide) (by decide) (by simp only [weight]; omega)
theorem tzero (sw : Bool) (i : BitVec 4) : Statement (.tzero sw i) := by
  have := i.isLt
  exact of_pack 23 4 sw _ (by decide) (by decide) (by simp only [weight]; omega)
theorem tscl (sw : Bool) (x : Src) (i : BitVec 4) : Statement (.tscl sw x i) := by
  have := srcCode_lt x
  have := i.isLt
  exact of_pack 23 5 sw _ (by decide) (by decide) (by simp only [weight]; omega)
theorem azero (sw : Bool) (i : BitVec 4) : Statement (.azero sw i) := by
  have := i.isLt
  exact of_pack 23 6 sw _ (by decide) (by decide) (by simp only [weight]; omega)
theorem ard (sw : Bool) (d : BitVec 3) (i : BitVec 4) (q : BitVec 3) : Statement (.ard sw d i q) := by
  have := d.isLt
  have := i.isLt
  have := q.isLt
  exact of_pack 23 7 sw _ (by decide) (by decide) (by simp only [weight]; omega)
theorem awr (sw : Bool) (x : BitVec 3) (ux : Use) (i : BitVec 4) (q : BitVec 3) : Statement (.awr sw x ux i q) := by
  have := x.isLt
  have := useCode_lt ux
  have := i.isLt
  have := q.isLt
  exact of_pack 23 8 sw _ (by decide) (by decide) (by simp only [weight]; omega)
theorem ald (sw : Bool) (x : Src) (i : BitVec 4) (q : BitVec 4) : Statement (.ald sw x i q) := by
  have := srcCode_lt x
  have := i.isLt
  have := q.isLt
  exact of_pack 23 9 sw _ (by decide) (by decide) (by simp only [weight]; omega)
theorem ast (sw : Bool) (x : Src) (i : BitVec 4) (q : BitVec 4) : Statement (.ast sw x i q) := by
  have := srcCode_lt x
  have := i.isLt
  have := q.isLt
  exact of_pack 23 10 sw _ (by decide) (by decide) (by simp only [weight]; omega)
theorem acvb (sw : Bool) (d : BitVec 4) (i : BitVec 4) (q : BitVec 3) : Statement (.acvb sw d i q) := by
  have := d.isLt
  have := i.isLt
  have := q.isLt
  exact of_pack 23 11 sw _ (by decide) (by decide) (by simp only [weight]; omega)
theorem acv8 (sw : Bool) (d : BitVec 5) (i : BitVec 4) (q : BitVec 4) : Statement (.acv8 sw d i q) := by
  have := d.isLt
  have := i.isLt
  have := q.isLt
  exact of_pack 23 12 sw _ (by decide) (by decide) (by simp only [weight]; omega)
theorem tmov (sw : Bool) (i : BitVec 4) (q : BitVec 4) : Statement (.tmov sw i q) := by
  have := i.isLt
  have := q.isLt
  exact of_pack 23 13 sw _ (by decide) (by decide) (by simp only [weight]; omega)
theorem rng (sw : Bool) (d : BitVec 6) (x : Src) : Statement (.rng sw d x) := by
  have := d.isLt
  have := srcCode_lt x
  exact of_pack 24 0 sw _ (by decide) (by decide) (by simp only [weight]; omega)
theorem rng2 (sw : Bool) (d : BitVec 6) (x : Src) (y : Src) : Statement (.rng2 sw d x y) := by
  have := d.isLt
  have := srcCode_lt x
  have := srcCode_lt y
  exact of_pack 24 1 sw _ (by decide) (by decide) (by simp only [weight]; omega)
theorem unif (sw : Bool) (d : BitVec 6) (x : Src) : Statement (.unif sw d x) := by
  have := d.isLt
  have := srcCode_lt x
  exact of_pack 24 2 sw _ (by decide) (by decide) (by simp only [weight]; omega)
theorem bern (sw : Bool) (d : BitVec 6) (x : Src) (y : Src) : Statement (.bern sw d x y) := by
  have := d.isLt
  have := srcCode_lt x
  have := srcCode_lt y
  exact of_pack 24 3 sw _ (by decide) (by decide) (by simp only [weight]; omega)
theorem bernp (sw : Bool) (d : BitVec 3) (x : Src) (y : Src) : Statement (.bernp sw d x y) := by
  have := d.isLt
  have := srcCode_lt x
  have := srcCode_lt y
  exact of_pack 24 4 sw _ (by decide) (by decide) (by simp only [weight]; omega)
theorem srbf (sw : Bool) (d : BitVec 6) (x : Src) (y : Src) : Statement (.srbf sw d x y) := by
  have := d.isLt
  have := srcCode_lt x
  have := srcCode_lt y
  exact of_pack 24 5 sw _ (by decide) (by decide) (by simp only [weight]; omega)
theorem srf16 (sw : Bool) (d : BitVec 6) (x : Src) (y : Src) : Statement (.srf16 sw d x y) := by
  have := d.isLt
  have := srcCode_lt x
  have := srcCode_lt y
  exact of_pack 24 6 sw _ (by decide) (by decide) (by simp only [weight]; omega)
theorem sre4 (sw : Bool) (d : BitVec 6) (x : Src) (y : Src) : Statement (.sre4 sw d x y) := by
  have := d.isLt
  have := srcCode_lt x
  have := srcCode_lt y
  exact of_pack 24 7 sw _ (by decide) (by decide) (by simp only [weight]; omega)
theorem sre5 (sw : Bool) (d : BitVec 6) (x : Src) (y : Src) : Statement (.sre5 sw d x y) := by
  have := d.isLt
  have := srcCode_lt x
  have := srcCode_lt y
  exact of_pack 24 8 sw _ (by decide) (by decide) (by simp only [weight]; omega)
theorem sample (sw : Bool) (d : BitVec 6) (x : Src) (y : Src) : Statement (.sample sw d x y) := by
  have := d.isLt
  have := srcCode_lt x
  have := srcCode_lt y
  exact of_pack 25 0 sw _ (by decide) (by decide) (by simp only [weight]; omega)
theorem topk (sw : Bool) (d : BitVec 6) (x : Src) (y : Src) : Statement (.topk sw d x y) := by
  have := d.isLt
  have := srcCode_lt x
  have := srcCode_lt y
  exact of_pack 25 1 sw _ (by decide) (by decide) (by simp only [weight]; omega)
theorem argmax (sw : Bool) (d : BitVec 6) (x : Src) (y : Src) : Statement (.argmax sw d x y) := by
  have := d.isLt
  have := srcCode_lt x
  have := srcCode_lt y
  exact of_pack 25 2 sw _ (by decide) (by decide) (by simp only [weight]; omega)
theorem forkc (sw : Bool) (q : BitVec 2) (x : Src) : Statement (.forkc sw q x) := by
  have := q.isLt
  have := srcCode_lt x
  exact of_pack 26 0 sw _ (by decide) (by decide) (by simp only [weight]; omega)
theorem forkl (sw : Bool) (l : BitVec 1) (x : Src) : Statement (.forkl sw l x) := by
  have := l.isLt
  have := srcCode_lt x
  exact of_pack 26 1 sw _ (by decide) (by decide) (by simp only [weight]; omega)
theorem rdv (sw : Bool) (u : BitVec 3) : Statement (.rdv sw u) := by
  have := u.isLt
  exact of_pack 26 2 sw _ (by decide) (by decide) (by simp only [weight]; omega)
theorem erset (sw : Bool) (n : BitVec 5) (q : BitVec 2) (y : BitVec 5) (uy : Use) : Statement (.erset sw n q y uy) := by
  have := n.isLt
  have := q.isLt
  have := y.isLt
  have := useCode_lt uy
  exact of_pack 26 3 sw _ (by decide) (by decide) (by simp only [weight]; omega)
theorem erget (sw : Bool) (d : BitVec 5) (q : BitVec 2) (n : BitVec 5) : Statement (.erget sw d q n) := by
  have := d.isLt
  have := q.isLt
  have := n.isLt
  exact of_pack 26 4 sw _ (by decide) (by decide) (by simp only [weight]; omega)
theorem hload (sw : Bool) (d : BitVec 6) (x : Src) (y : Src) : Statement (.hload sw d x y) := by
  have := d.isLt
  have := srcCode_lt x
  have := srcCode_lt y
  exact of_pack 26 5 sw _ (by decide) (by decide) (by simp only [weight]; omega)
theorem hdrop (sw : Bool) (x : Src) : Statement (.hdrop sw x) := by
  have := srcCode_lt x
  exact of_pack 26 6 sw _ (by decide) (by decide) (by simp only [weight]; omega)
theorem estat (sw : Bool) (d : BitVec 6) (u : BitVec 3) : Statement (.estat sw d u) := by
  have := d.isLt
  have := u.isLt
  exact of_pack 26 7 sw _ (by decide) (by decide) (by simp only [weight]; omega)
theorem lcfg (sw : Bool) (x : BitVec 4) : Statement (.lcfg sw x) := by
  have := x.isLt
  exact of_pack 27 0 sw _ (by decide) (by decide) (by simp only [weight]; omega)
theorem lnld (sw : Bool) (d : BitVec 4) (x : BitVec 4) (y : BitVec 4) : Statement (.lnld sw d x y) := by
  have := d.isLt
  have := x.isLt
  have := y.isLt
  exact of_pack 27 1 sw _ (by decide) (by decide) (by simp only [weight]; omega)
theorem ljld (sw : Bool) (d : BitVec 4) (x : BitVec 4) (y : BitVec 4) : Statement (.ljld sw d x y) := by
  have := d.isLt
  have := x.isLt
  have := y.isLt
  exact of_pack 27 2 sw _ (by decide) (by decide) (by simp only [weight]; omega)
theorem lhld (sw : Bool) (d : BitVec 4) (x : BitVec 4) (y : BitVec 4) : Statement (.lhld sw d x y) := by
  have := d.isLt
  have := x.isLt
  have := y.isLt
  exact of_pack 27 3 sw _ (by decide) (by decide) (by simp only [weight]; omega)
theorem lsld (sw : Bool) (d : BitVec 4) (x : BitVec 4) (y : BitVec 4) : Statement (.lsld sw d x y) := by
  have := d.isLt
  have := x.isLt
  have := y.isLt
  exact of_pack 27 4 sw _ (by decide) (by decide) (by simp only [weight]; omega)
theorem lsst (sw : Bool) (d : BitVec 4) (x : BitVec 4) (y : BitVec 4) : Statement (.lsst sw d x y) := by
  have := d.isLt
  have := x.isLt
  have := y.isLt
  exact of_pack 27 5 sw _ (by decide) (by decide) (by simp only [weight]; omega)
theorem lclmp (sw : Bool) (d : BitVec 4) (x : BitVec 4) (y : BitVec 4) : Statement (.lclmp sw d x y) := by
  have := d.isLt
  have := x.isLt
  have := y.isLt
  exact of_pack 27 6 sw _ (by decide) (by decide) (by simp only [weight]; omega)
theorem lswp (sw : Bool) (d : BitVec 4) (x : BitVec 4) : Statement (.lswp sw d x) := by
  have := d.isLt
  have := x.isLt
  exact of_pack 27 7 sw _ (by decide) (by decide) (by simp only [weight]; omega)
theorem lcnt (sw : Bool) (d : BitVec 4) (x : BitVec 4) (y : BitVec 4) : Statement (.lcnt sw d x y) := by
  have := d.isLt
  have := x.isLt
  have := y.isLt
  exact of_pack 27 8 sw _ (by decide) (by decide) (by simp only [weight]; omega)
theorem lrstc (sw : Bool) (x : BitVec 4) : Statement (.lrstc sw x) := by
  have := x.isLt
  exact of_pack 27 9 sw _ (by decide) (by decide) (by simp only [weight]; omega)
theorem lgmap (sw : Bool) (d : BitVec 4) (x : BitVec 4) (y : BitVec 4) : Statement (.lgmap sw d x y) := by
  have := d.isLt
  have := x.isLt
  have := y.isLt
  exact of_pack 27 10 sw _ (by decide) (by decide) (by simp only [weight]; omega)
theorem lgref (sw : Bool) (d : BitVec 4) (x : BitVec 4) (y : BitVec 4) : Statement (.lgref sw d x y) := by
  have := d.isLt
  have := x.isLt
  have := y.isLt
  exact of_pack 27 11 sw _ (by decide) (by decide) (by simp only [weight]; omega)
theorem lhlth (sw : Bool) (x : BitVec 4) (y : BitVec 4) : Statement (.lhlth sw x y) := by
  have := x.isLt
  have := y.isLt
  exact of_pack 27 12 sw _ (by decide) (by decide) (by simp only [weight]; omega)
theorem lkey (sw : Bool) (x : BitVec 4) : Statement (.lkey sw x) := by
  have := x.isLt
  exact of_pack 27 13 sw _ (by decide) (by decide) (by simp only [weight]; omega)
theorem laluLi (sw : Bool) (d : BitVec 4) (imm : BitVec 12) : Statement (.laluLi sw d imm) := by
  have := d.isLt
  have := imm.isLt
  exact of_pack 27 14 sw _ (by decide) (by decide) (by simp only [weight]; omega)
theorem laluAdd (sw : Bool) (d : BitVec 4) (x : BitVec 4) : Statement (.laluAdd sw d x) := by
  have := d.isLt
  have := x.isLt
  exact of_pack 27 270 sw _ (by decide) (by decide) (by simp only [weight]; omega)
theorem lbrcLoop (sw : Bool) : Statement (.lbrcLoop sw) := of_pack 27 15 sw [] (by decide) (by decide) (by decide)
theorem lbrcNext (sw : Bool) (d : BitVec 4) : Statement (.lbrcNext sw d) := by
  have := d.isLt
  exact of_pack 27 271 sw _ (by decide) (by decide) (by simp only [weight]; omega)
theorem lbrcSig (sw : Bool) (x : BitVec 4) : Statement (.lbrcSig sw x) := by
  have := x.isLt
  exact of_pack 27 527 sw _ (by decide) (by decide) (by simp only [weight]; omega)
theorem lbrcEnd (sw : Bool) : Statement (.lbrcEnd sw) := of_pack 27 783 sw [] (by decide) (by decide) (by decide)
theorem xcp (sw : Bool) (d : BitVec 5) (x : BitVec 5) (y : BitVec 5) : Statement (.xcp sw d x y) := by
  have := d.isLt
  have := x.isLt
  have := y.isLt
  exact of_pack 28 0 sw _ (by decide) (by decide) (by simp only [weight]; omega)
theorem xcpt (sw : Bool) (d : BitVec 5) (x : BitVec 5) : Statement (.xcpt sw d x) := by
  have := d.isLt
  have := x.isLt
  exact of_pack 28 1 sw _ (by decide) (by decide) (by simp only [weight]; omega)
theorem xget (sw : Bool) (d : BitVec 5) (x : BitVec 5) (y : BitVec 5) : Statement (.xget sw d x y) := by
  have := d.isLt
  have := x.isLt
  have := y.isLt
  exact of_pack 28 2 sw _ (by decide) (by decide) (by simp only [weight]; omega)
theorem xput (sw : Bool) (d : BitVec 5) (x : BitVec 5) (y : BitVec 5) : Statement (.xput sw d x y) := by
  have := d.isLt
  have := x.isLt
  have := y.isLt
  exact of_pack 28 3 sw _ (by decide) (by decide) (by simp only [weight]; omega)
theorem xputd (sw : Bool) (d : BitVec 5) (x : BitVec 5) (y : BitVec 5) : Statement (.xputd sw d x y) := by
  have := d.isLt
  have := x.isLt
  have := y.isLt
  exact of_pack 28 4 sw _ (by decide) (by decide) (by simp only [weight]; omega)
theorem xred (sw : Bool) (d : BitVec 5) (x : BitVec 5) (y : BitVec 5) : Statement (.xred sw d x y) := by
  have := d.isLt
  have := x.isLt
  have := y.isLt
  exact of_pack 28 5 sw _ (by decide) (by decide) (by simp only [weight]; omega)
theorem xgth (sw : Bool) (d : BitVec 5) (x : BitVec 5) (y : BitVec 5) : Statement (.xgth sw d x y) := by
  have := d.isLt
  have := x.isLt
  have := y.isLt
  exact of_pack 28 6 sw _ (by decide) (by decide) (by simp only [weight]; omega)
theorem xsct (sw : Bool) (d : BitVec 5) (x : BitVec 5) (y : BitVec 5) : Statement (.xsct sw d x y) := by
  have := d.isLt
  have := x.isLt
  have := y.isLt
  exact of_pack 28 7 sw _ (by decide) (by decide) (by simp only [weight]; omega)
theorem xbc (sw : Bool) (d : BitVec 5) (x : BitVec 5) (y : BitVec 5) : Statement (.xbc sw d x y) := by
  have := d.isLt
  have := x.isLt
  have := y.isLt
  exact of_pack 28 8 sw _ (by decide) (by decide) (by simp only [weight]; omega)
theorem xlat (sw : Bool) (d : BitVec 5) (x : BitVec 5) (y : BitVec 5) : Statement (.xlat sw d x y) := by
  have := d.isLt
  have := x.isLt
  have := y.isLt
  exact of_pack 28 9 sw _ (by decide) (by decide) (by simp only [weight]; omega)
theorem xfab (sw : Bool) (d : BitVec 5) (x : BitVec 5) (y : BitVec 5) : Statement (.xfab sw d x y) := by
  have := d.isLt
  have := x.isLt
  have := y.isLt
  exact of_pack 28 10 sw _ (by decide) (by decide) (by simp only [weight]; omega)
theorem xfen (sw : Bool) (x : BitVec 5) : Statement (.xfen sw x) := by
  have := x.isLt
  exact of_pack 28 11 sw _ (by decide) (by decide) (by simp only [weight]; omega)
theorem xsig (sw : Bool) (x : BitVec 5) (y : BitVec 5) : Statement (.xsig sw x y) := by
  have := x.isLt
  have := y.isLt
  exact of_pack 28 12 sw _ (by decide) (by decide) (by simp only [weight]; omega)
theorem xwte (sw : Bool) (x : BitVec 5) (y : BitVec 5) : Statement (.xwte sw x y) := by
  have := x.isLt
  have := y.isLt
  exact of_pack 28 13 sw _ (by decide) (by decide) (by simp only [weight]; omega)
theorem xaluLi (sw : Bool) (d : BitVec 5) (imm : BitVec 12) : Statement (.xaluLi sw d imm) := by
  have := d.isLt
  have := imm.isLt
  exact of_pack 28 14 sw _ (by decide) (by decide) (by simp only [weight]; omega)
theorem xaluAdd (sw : Bool) (d : BitVec 5) (x : BitVec 5) : Statement (.xaluAdd sw d x) := by
  have := d.isLt
  have := x.isLt
  exact of_pack 28 270 sw _ (by decide) (by decide) (by simp only [weight]; omega)
theorem xaluShl (sw : Bool) (d : BitVec 5) (imm : BitVec 12) : Statement (.xaluShl sw d imm) := by
  have := d.isLt
  have := imm.isLt
  exact of_pack 28 526 sw _ (by decide) (by decide) (by simp only [weight]; omega)
theorem xaluMul (sw : Bool) (d : BitVec 5) (x : BitVec 5) : Statement (.xaluMul sw d x) := by
  have := d.isLt
  have := x.isLt
  exact of_pack 28 782 sw _ (by decide) (by decide) (by simp only [weight]; omega)
theorem xbrcLoop (sw : Bool) : Statement (.xbrcLoop sw) := of_pack 28 15 sw [] (by decide) (by decide) (by decide)
theorem xbrcNext (sw : Bool) (d : BitVec 5) : Statement (.xbrcNext sw d) := by
  have := d.isLt
  exact of_pack 28 271 sw _ (by decide) (by decide) (by simp only [weight]; omega)
theorem xbrcEnd (sw : Bool) : Statement (.xbrcEnd sw) := of_pack 28 527 sw [] (by decide) (by decide) (by decide)
theorem trap (sw : Bool) (c : BitVec 8) : Statement (.trap sw c) := by
  have := c.isLt
  exact of_pack 29 0 sw _ (by decide) (by decide) (by simp only [weight]; omega)
theorem tret (sw : Bool) : Statement (.tret sw) := of_pack 29 1 sw [] (by decide) (by decide) (by decide)
theorem brk (sw : Bool) (c : BitVec 8) : Statement (.brk sw c) := by
  have := c.isLt
  exact of_pack 29 2 sw _ (by decide) (by decide) (by simp only [weight]; omega)
theorem setkey (sw : Bool) (x : Src) (y : Src) : Statement (.setkey sw x y) := by
  have := srcCode_lt x
  have := srcCode_lt y
  exact of_pack 29 3 sw _ (by decide) (by decide) (by simp only [weight]; omega)
theorem setstrm (sw : Bool) (x : Src) : Statement (.setstrm sw x) := by
  have := srcCode_lt x
  exact of_pack 29 4 sw _ (by decide) (by decide) (by simp only [weight]; omega)
theorem rdcnt (sw : Bool) (d : BitVec 5) (n : BitVec 5) : Statement (.rdcnt sw d n) := by
  have := d.isLt
  have := n.isLt
  exact of_pack 29 5 sw _ (by decide) (by decide) (by simp only [weight]; omega)
theorem amaxr (sw : Bool) (d : BitVec 6) : Statement (.amaxr sw d) := by
  have := d.isLt
  exact of_pack 29 6 sw _ (by decide) (by decide) (by simp only [weight]; omega)
theorem rdtrap (sw : Bool) (d : BitVec 6) (k : BitVec 2) : Statement (.rdtrap sw d k) := by
  have := d.isLt
  have := k.isLt
  exact of_pack 29 7 sw _ (by decide) (by decide) (by simp only [weight]; omega)
theorem wrtrap (sw : Bool) (y : Src) : Statement (.wrtrap sw y) := by
  have := srcCode_lt y
  exact of_pack 29 8 sw _ (by decide) (by decide) (by simp only [weight]; omega)
theorem sethnd (sw : Bool) (x : Src) : Statement (.sethnd sw x) := by
  have := srcCode_lt x
  exact of_pack 29 9 sw _ (by decide) (by decide) (by simp only [weight]; omega)
theorem killt (sw : Bool) : Statement (.killt sw) := of_pack 29 10 sw [] (by decide) (by decide) (by decide)
theorem launch (sw : Bool) (d : BitVec 6) (x : BitVec 6) : Statement (.launch sw d x) := by
  have := d.isLt
  have := x.isLt
  exact of_pack 30 0 sw _ (by decide) (by decide) (by simp only [weight]; omega)
theorem evwait (sw : Bool) (d : BitVec 6) (x : BitVec 6) : Statement (.evwait sw d x) := by
  have := d.isLt
  have := x.isLt
  exact of_pack 30 1 sw _ (by decide) (by decide) (by simp only [weight]; omega)
theorem evpop (sw : Bool) (d : BitVec 6) (x : BitVec 6) : Statement (.evpop sw d x) := by
  have := d.isLt
  have := x.isLt
  exact of_pack 30 2 sw _ (by decide) (by decide) (by simp only [weight]; omega)
theorem evsig (sw : Bool) (d : BitVec 6) (x : BitVec 6) (y : BitVec 6) : Statement (.evsig sw d x y) := by
  have := d.isLt
  have := x.isLt
  have := y.isLt
  exact of_pack 30 3 sw _ (by decide) (by decide) (by simp only [weight]; omega)
theorem qcfg (sw : Bool) (d : BitVec 6) (x : BitVec 6) (y : BitVec 6) : Statement (.qcfg sw d x y) := by
  have := d.isLt
  have := x.isLt
  have := y.isLt
  exact of_pack 30 4 sw _ (by decide) (by decide) (by simp only [weight]; omega)
theorem qfence (sw : Bool) (d : BitVec 6) (x : BitVec 6) : Statement (.qfence sw d x) := by
  have := d.isLt
  have := x.isLt
  exact of_pack 30 5 sw _ (by decide) (by decide) (by simp only [weight]; omega)
theorem qdig (sw : Bool) (d : BitVec 5) (x : BitVec 6) : Statement (.qdig sw d x) := by
  have := d.isLt
  have := x.isLt
  exact of_pack 30 6 sw _ (by decide) (by decide) (by simp only [weight]; omega)
theorem preempt (sw : Bool) (d : BitVec 6) (x : BitVec 6) : Statement (.preempt sw d x) := by
  have := d.isLt
  have := x.isLt
  exact of_pack 30 7 sw _ (by decide) (by decide) (by simp only [weight]; omega)
theorem kill (sw : Bool) (d : BitVec 6) (x : BitVec 6) (y : BitVec 6) : Statement (.kill sw d x y) := by
  have := d.isLt
  have := x.isLt
  have := y.isLt
  exact of_pack 30 8 sw _ (by decide) (by decide) (by simp only [weight]; omega)
theorem ptout (sw : Bool) (d : BitVec 6) (x : BitVec 6) (y : BitVec 6) : Statement (.ptout sw d x y) := by
  have := d.isLt
  have := x.isLt
  have := y.isLt
  exact of_pack 30 9 sw _ (by decide) (by decide) (by simp only [weight]; omega)
theorem ckpt (sw : Bool) (d : BitVec 6) (x : BitVec 6) (y : BitVec 6) : Statement (.ckpt sw d x y) := by
  have := d.isLt
  have := x.isLt
  have := y.isLt
  exact of_pack 30 10 sw _ (by decide) (by decide) (by simp only [weight]; omega)
theorem rstor (sw : Bool) (d : BitVec 6) (x : BitVec 6) : Statement (.rstor sw d x) := by
  have := d.isLt
  have := x.isLt
  exact of_pack 30 11 sw _ (by decide) (by decide) (by simp only [weight]; omega)
theorem phasec (sw : Bool) (d : BitVec 5) (x : BitVec 6) : Statement (.phasec sw d x) := by
  have := d.isLt
  have := x.isLt
  exact of_pack 30 12 sw _ (by decide) (by decide) (by simp only [weight]; omega)
theorem illegalInstruction : Statement (.illegalInstruction) := fun _ h => nomatch h
theorem ctlIllegal : Statement (.ctlIllegal) := fun _ h => nomatch h
theorem engineIllegal : Statement (.engineIllegal) := fun _ h => nomatch h
theorem resultReturn (group : Nat) (flight : Nat) : Statement (.resultReturn group flight) := fun _ h => nomatch h
theorem chunkCommit (cluster : Nat) : Statement (.chunkCommit cluster) := fun _ h => nomatch h
theorem spawnBinTimer (core : Nat) (bin : Nat) : Statement (.spawnBinTimer core bin) := fun _ h => nomatch h
theorem sleepExpiry (group : Nat) (set : Nat) : Statement (.sleepExpiry group set) := fun _ h => nomatch h
theorem replayDiverge (launch : Nat) (cluster : Nat) : Statement (.replayDiverge launch cluster) := fun _ h => nomatch h
theorem boundaryOpen (part : Nat) : Statement (.boundaryOpen part) := fun _ h => nomatch h
theorem exchangeOpen (part : Nat) : Statement (.exchangeOpen part) := fun _ h => nomatch h
theorem boundaryClose (part : Nat) : Statement (.boundaryClose part) := fun _ h => nomatch h
theorem boundaryMessage (part : Nat) (member : Nat) (plane : Nat) (count : Nat) (atEnd : Bool) : Statement (.boundaryMessage part member plane count atEnd) := fun _ h => nomatch h
theorem straggler (part : Nat) : Statement (.straggler part) := fun _ h => nomatch h
theorem exchangeLate (part : Nat) : Statement (.exchangeLate part) := fun _ h => nomatch h
theorem phaseMaxExpiry (launch : Nat) : Statement (.phaseMaxExpiry launch) := fun _ h => nomatch h
theorem evwaitTimeout (cluster : Nat) : Statement (.evwaitTimeout cluster) := fun _ h => nomatch h
theorem engineProgramStart (core : Nat) (unit : Nat) : Statement (.engineProgramStart core unit) := fun _ h => nomatch h
theorem fabricWriteArrival (w : FabWrite) : Statement (.fabricWriteArrival w) := fun _ h => nomatch h
theorem trapDelivery (group : Nat) : Statement (.trapDelivery group) := fun _ h => nomatch h
theorem fpTrapWindowClose (team : Nat) : Statement (.fpTrapWindowClose team) := fun _ h => nomatch h
theorem strikeReport (region : Region) : Statement (.strikeReport region) := fun _ h => nomatch h
theorem scrub (find : Finding) : Statement (.scrub find) := fun _ h => nomatch h
theorem checkpointDrainEnd (part : Nat) : Statement (.checkpointDrainEnd part) := fun _ h => nomatch h
theorem checkpointDrainTimeout (part : Nat) : Statement (.checkpointDrainTimeout part) := fun _ h => nomatch h
theorem throttle : Statement (.throttle) := fun _ h => nomatch h
theorem throttleEnd : Statement (.throttleEnd) := fun _ h => nomatch h
theorem thermalTrip : Statement (.thermalTrip) := fun _ h => nomatch h
theorem frzNFall : Statement (.frzNFall) := fun _ h => nomatch h
theorem frzNRise : Statement (.frzNRise) := fun _ h => nomatch h
theorem idcode : Statement (.idcode) := fun _ h => by
  right
  cases h
  exact ⟨_, rfl⟩
theorem segsel (segment : Nat) : Statement (.segsel segment) := fun w h => by
  right
  cases h
  have e : (0x20 + segment * 2 ^ 8) % 256 = 0x20 := by omega
  exact ⟨.segsel ((0x20 + segment * 2 ^ 8) / 2 ^ 8), by simp only [decodeTap, e]⟩
theorem segread : Statement (.segread) := fun _ h => by
  right
  cases h
  exact ⟨_, rfl⟩
theorem bypass : Statement (.bypass) := fun _ h => by
  right
  cases h
  exact ⟨_, rfl⟩
theorem powerUp (facts : StartFacts) : Statement (.powerUp facts) := fun _ h => nomatch h
theorem powerLoss : Statement (.powerLoss) := fun _ h => nomatch h
theorem porstN (facts : StartFacts) : Statement (.porstN facts) := fun _ h => nomatch h
theorem srstN (facts : StartFacts) : Statement (.srstN facts) := fun _ h => nomatch h
theorem freeze (h : MsgHdr) : Statement (.freeze h) := fun _ h => nomatch h
theorem warmStart (h : MsgHdr) (facts : StartFacts) : Statement (.warmStart h facts) := fun _ h => nomatch h
theorem coldStart (h : MsgHdr) (clear : Bool) (facts : StartFacts) : Statement (.coldStart h clear facts) := fun _ h => nomatch h
theorem clearMonitor (h : MsgHdr) (index : BitVec 12) : Statement (.clearMonitor h index) := fun _ h => nomatch h
theorem setBinning (h : MsgHdr) (index : BitVec 12) (log2 : Bool) (base : BitVec 16) (width : BitVec 5) : Statement (.setBinning h index log2 base width) := fun _ h => nomatch h
theorem recalibrate (h : MsgHdr) : Statement (.recalibrate h) := fun _ h => nomatch h
theorem recalibrateDone (counts : List (List Nat)) : Statement (.recalibrateDone counts) := fun _ h => nomatch h
theorem pathDelayMeasurement (unit : DelayUnit) (low : Bool) : Statement (.pathDelayMeasurement unit low) := fun _ h => nomatch h
theorem temperatureSample (sensor : Nat) (value : Nat) : Statement (.temperatureSample sensor value) := fun _ h => nomatch h
theorem hello (h : MsgHdr) (role : Nat) (part : Nat) (flags : Nat) : Statement (.hello h role part flags) := fun _ h => nomatch h
theorem helloCreate (h : MsgHdr) (role : Nat) (flags : Nat) (desc : List Byte) : Statement (.helloCreate h role flags desc) := fun _ h => nomatch h
theorem helloDestroy (h : MsgHdr) (role : Nat) (part : Nat) (flags : Nat) : Statement (.helloDestroy h role part flags) := fun _ h => nomatch h
theorem load (h : MsgHdr) (space : Nat) (addr : Nat) (data : List Byte) : Statement (.load h space addr data) := fun _ h => nomatch h
theorem loadHostPortRecord (h : MsgHdr) (data : List Byte) : Statement (.loadHostPortRecord h data) := fun _ h => nomatch h
theorem read (h : MsgHdr) (space : Nat) (addr : Nat) (len : Nat) : Statement (.read h space addr len) := fun _ h => nomatch h
theorem start (h : MsgHdr) (cluster : Nat) (entry : Nat) (replace : Nat) (base : Nat) (image : Nat) (args : List Word) : Statement (.start h cluster entry replace base image args) := fun _ h => nomatch h
theorem xlateQuery (h : MsgHdr) (addr : Nat) (len : Nat) (arg : Nat) : Statement (.xlateQuery h addr len arg) := fun _ h => nomatch h
theorem xlateMap (h : MsgHdr) (addr : Nat) (len : Nat) (arg : Nat) : Statement (.xlateMap h addr len arg) := fun _ h => nomatch h
theorem xlateUnmap (h : MsgHdr) (addr : Nat) (len : Nat) (arg : Nat) : Statement (.xlateUnmap h addr len arg) := fun _ h => nomatch h
theorem xlateSetAttributes (h : MsgHdr) (addr : Nat) (len : Nat) (arg : Nat) : Statement (.xlateSetAttributes h addr len arg) := fun _ h => nomatch h
theorem xlateBindFabricWindow (h : MsgHdr) (addr : Nat) (len : Nat) (arg : Nat) : Statement (.xlateBindFabricWindow h addr len arg) := fun _ h => nomatch h
theorem xlateMigrate (h : MsgHdr) (addr : Nat) (len : Nat) (arg : Nat) : Statement (.xlateMigrate h addr len arg) := fun _ h => nomatch h
theorem atomicAdd32 (h : MsgHdr) (addr : Nat) (operand : DWord) (compare : DWord) : Statement (.atomicAdd32 h addr operand compare) := fun _ h => nomatch h
theorem atomicAdd64 (h : MsgHdr) (addr : Nat) (operand : DWord) (compare : DWord) : Statement (.atomicAdd64 h addr operand compare) := fun _ h => nomatch h
theorem atomicSwap32 (h : MsgHdr) (addr : Nat) (operand : DWord) (compare : DWord) : Statement (.atomicSwap32 h addr operand compare) := fun _ h => nomatch h
theorem atomicCas32 (h : MsgHdr) (addr : Nat) (operand : DWord) (compare : DWord) : Statement (.atomicCas32 h addr operand compare) := fun _ h => nomatch h
theorem atomicCas64 (h : MsgHdr) (addr : Nat) (operand : DWord) (compare : DWord) : Statement (.atomicCas64 h addr operand compare) := fun _ h => nomatch h
theorem ckptMsgStart (h : MsgHdr) (desc : List Byte) : Statement (.ckptMsgStart h desc) := fun _ h => nomatch h
theorem ckptMsgWait (h : MsgHdr) (desc : List Byte) : Statement (.ckptMsgWait h desc) := fun _ h => nomatch h
theorem ckptMsgPoll (h : MsgHdr) (desc : List Byte) : Statement (.ckptMsgPoll h desc) := fun _ h => nomatch h
theorem ckptMsgRstor (h : MsgHdr) (desc : List Byte) : Statement (.ckptMsgRstor h desc) := fun _ h => nomatch h
theorem plaganAck (h : MsgHdr) : Statement (.plaganAck h) := fun _ h => nomatch h
theorem retransmit (session : Nat) : Statement (.retransmit session) := fun _ h => nomatch h
theorem neighbourSolicitation (target : Solicitation) : Statement (.neighbourSolicitation target) := fun _ h => nomatch h
theorem nonPlaganFrame : Statement (.nonPlaganFrame) := fun _ h => nomatch h
theorem fabricPortDown (port : Nat) : Statement (.fabricPortDown port) := fun _ h => nomatch h
theorem fabricPortUp (port : Nat) : Statement (.fabricPortUp port) := fun _ h => nomatch h
theorem stopSignal (port : Nat) (stop : Bool) : Statement (.stopSignal port stop) := fun _ h => nomatch h
theorem fabricAcknowledgement (core : Nat) (unit : Nat) (refused : Bool) : Statement (.fabricAcknowledgement core unit refused) := fun _ h => nomatch h
theorem sweepEnd (core : Nat) (lattice : Nat) : Statement (.sweepEnd core lattice) := fun _ h => nomatch h
theorem matrixOperationComplete (group : Nat) (op : Nat) : Statement (.matrixOperationComplete group op) := fun _ h => nomatch h
theorem rstorComplete (part : Nat) (read : Option (List (Nat × Byte))) : Statement (.rstorComplete part read) := fun _ h => nomatch h
theorem corruptPlaganMessage : Statement (.corruptPlaganMessage) := fun _ h => nomatch h
theorem tripCooldown : Statement (.tripCooldown) := fun _ h => nomatch h
theorem calibrationExpiry (hours : Nat) : Statement (.calibrationExpiry hours) := fun _ h => nomatch h

end Sys2Proof.Laws.WordRange
end

