-- ==== Sys2Proof/Tests/Slice0.lean ====
section
/-! SUPPORT. Tests: an ill-formed term for each check of WellFormed, decodings of words written from the encoding tables,
small steps with results from the spec's own examples and tables, and for every statement with hypotheses a state and
operands that meet them. -/

namespace Sys2Proof.Tests

open Sys2Proof.Machine

set_option Elab.async false

/-! ### A small device: one partition, launch, team and group with one thread in lane 0 -/

def part : Part :=
  { clusters := [0], weight := 1, ports := [0], quota := 8, strag := 1024, exch := 1024, spanTag := 0, spanSize := 0 }

def launch : Launch :=
  { probeLaunch 0 0x50000000#32 with
    exchOffsets := [0], text := [0x04000000#32, 0x04000001#32], copy := [0x70000000#32], latt := [0x6C000000#32],
    extents := [(0, { base := 0x100000000, len := 4096, access := 7 })] }

def team : Team := probeTeam 1

def group : Group := probeGroup 2

/-- The device with this group, team and launch, the group issuing a word. -/
def stateOf (g : Group) (t : Team) (l : Launch) : State :=
  { State.reset with parts := [(0, part)], launches := [(1, l)], teams := [(2, t)], groups := [(3, g)], nextId := 10,
                     issue := { actor := .group 3 0 } }

def base : State := stateOf group team launch

/-- What a word of form f reads there. -/
def inOf (f : Form) (g : Group) (t : Team) (l : Launch) : In := issueIn (stateOf g t l) 3 0 f g t l

theorem issues {f : Form} {g : Group} {t : Team} {l : Launch} (hg : g.team = 2) (ht : t.launch = 1)
    (h : (!formIllegal f {} l.alloc && !(sourceHazard (inOf f g t l)).2) = true) : GroupIssues (stateOf g t l) f (inOf f g t l) := by
  simp only [Bool.and_eq_true, Bool.not_eq_true'] at h
  refine ⟨3, 0, g, t, l, rfl, ?_, rfl, h.1, h.2⟩
  simp [groupTriple, stateOf, tget, hg, ht]

/-- Whether a chunk has room, as `roomFor` says. -/
def roomCheck (i : In) (r w : List Nat) (upd : Chunk → Chunk) : Bool :=
  match i.g.cur with
  | none => false
  | some c =>
    match enterAccess c r w with
    | none => false
    | some c1 => segmentsFit i.s i.l i.g (upd c1) i.gid

theorem room {i : In} {r w : List Nat} {upd : Chunk → Chunk} (h : roomCheck i r w upd = true) : roomFor i r w upd := by
  simp only [roomCheck] at h
  split at h
  · cases h
  · rename_i c hc
    split at h
    · cases h
    · rename_i c1 h1
      refine ⟨c, c1, hc, h1, ?_⟩
      simpa using h

theorem sigRoom {i : In} {r w : List Nat} (h : (match i.g.cur with
    | none => false
    | some c => (enterAccess c r w).isSome) = true) : signatureRoom i r w := by
  split at h
  · cases h
  · rename_i c hc
    obtain ⟨c1, h1⟩ := Option.isSome_iff_exists.mp h
    exact ⟨c, c1, hc, h1⟩

def r (n : Nat) : Src := { reg := BitVec.ofNat 6 n, use := .plain }

theorem here (f : Form) (h : (!formIllegal f {} launch.alloc && !(sourceHazard (inOf f group team launch)).2) = true) :
    ∃ i, GroupIssues base f i := ⟨_, issues rfl rfl h⟩

/-! ### Witnesses: vector, uniform, predicate and floating-point words -/

theorem witness_IaluWritesResult :
    (∃ ins fn s i, IaluOp ins false 1#6 (r 2) (r 3) fn ∧ GroupIssues s { sw := false, x := some (r 2), y := some (r 3), v := [1] } i) ∧
    (∃ ins fn s i, IaluiOp ins false 63#6 (r 2) 0xFF#8 fn ∧ GroupIssues s { sw := false, x := some (r 2), v := [63], imm := true } i) :=
  ⟨⟨_, _, _, _, .iadd .., issues (g := group) (t := team) (l := launch) rfl rfl (by decide +kernel)⟩,
   ⟨_, _, _, _, .iaddi .., issues (g := group) (t := team) (l := launch) rfl rfl (by decide +kernel)⟩⟩

theorem witness_SaluWritesOnce :
    (∃ ins fn s i, SaluOp ins false 0#6 (r 2) (r 3) fn ∧ GroupIssues s { sw := false, sx := some (r 2), sy := some (r 3), u := [0] } i) ∧
    (∃ ins fn s i, SaluiOp ins true 63#6 (r 2) 0x80#8 fn ∧ GroupIssues s { sw := true, sx := some (r 2), u := [63], imm := true } i) :=
  ⟨⟨_, _, _, _, .sadd .., issues (g := group) (t := team) (l := launch) rfl rfl (by decide +kernel)⟩,
   ⟨_, _, _, _, .saddi .., issues (g := group) (t := team) (l := launch) rfl rfl (by decide +kernel)⟩⟩

theorem witness_IextWritesResult :
    (∃ ins f s i, IextOne ins false 1#6 (r 2) f ∧ GroupIssues s { sw := false, x := some (r 2), v := [1] } i) ∧
    (∃ ins f s i, IextTwo ins false 1#6 (r 2) (r 3) f ∧ GroupIssues s { sw := false, x := some (r 2), y := some (r 3), v := [1] } i) ∧
    (∃ ins f s i, IextThree ins false 1#6 (r 2) (r 3) f ∧
      GroupIssues s { sw := false, x := some (r 2), y := some (r 3), v := [1], vr := [1] } i) :=
  ⟨⟨_, _, _, _, .iabs .., issues (g := group) (t := team) (l := launch) rfl rfl (by decide +kernel)⟩,
   ⟨_, _, _, _, .bfe .., issues (g := group) (t := team) (l := launch) rfl rfl (by decide +kernel)⟩,
   ⟨_, _, _, _, .bfi .., issues (g := group) (t := team) (l := launch) rfl rfl (by decide +kernel)⟩⟩

theorem witness_CarryGoesThroughP6 : ∃ ins f s i, CarryOp ins false 1#6 (r 2) (r 3) f ∧
    GroupIssues s { sw := false, x := some (r 2), y := some (r 3), v := [1], pr := [6] } i :=
  ⟨_, _, _, _, .iaddc .., issues (g := group) (t := team) (l := launch) rfl rfl (by decide +kernel)⟩

theorem witness_CompareWritesPredicate :
    (∃ ins f s i, CompareOp ins false 1#3 7#3 (r 2) (r 3) f ∧
      GroupIssues s { sw := false, x := some (r 2), y := some (r 3), pr := combineReads 1#3 7#3 } i) ∧
    (∃ ins f s i, FpCompareOp ins false 0#3 0#3 (r 2) (r 3) f ∧
      GroupIssues s { sw := false, x := some (r 2), y := some (r 3), pr := combineReads 0#3 0#3 } i) :=
  ⟨⟨_, _, _, _, .eq .., issues (g := group) (t := team) (l := launch) rfl rfl (by decide +kernel)⟩,
   ⟨_, _, _, _, .feq .., issues (g := group) (t := team) (l := launch) rfl rfl (by decide +kernel)⟩⟩

theorem witness_MovesWriteValue :
    (∃ ins f val i, VectorMove base.issue.hints ins f 1#6 val ∧ GroupIssues base f i) ∧
    (∃ ins f val i, UniformMove ins f 1#6 val ∧ GroupIssues base f i) ∧
    (∃ ins f val i, PredMove ins f 7#3 val ∧ GroupIssues base f i) :=
  ⟨⟨_, _, _, _, .mov _ false _ (r 2), issues (g := group) (t := team) (l := launch) rfl rfl (by decide +kernel)⟩,
   ⟨_, _, _, _, .smov false _ (r 2), issues (g := group) (t := team) (l := launch) rfl rfl (by decide +kernel)⟩,
   ⟨_, _, _, _, .pand false _ 0#3 7#3, issues (g := group) (t := team) (l := launch) rfl rfl (by decide +kernel)⟩⟩

theorem witness_FloatWritesOutcome : ∃ ins f amax op s i, FloatOp ins f 1#6 amax op ∧ GroupIssues s f i :=
  ⟨_, _, _, _, _, _, .fadd false _ (r 2) (r 3), issues (g := group) (t := team) (l := launch) rfl rfl (by decide +kernel)⟩

theorem witness_SfuResultOutstanding : ∃ ins op s i, SfuOp ins false 1#6 (r 2) op ∧
    GroupIssues s { sw := false, x := some (r 2), v := [1] } i :=
  ⟨_, _, _, _, .rcp .., issues (g := group) (t := team) (l := launch) rfl rfl (by decide +kernel)⟩

/-- The group whose lane 0 has these values in registers 2 and 3. -/
def withXY (a b : Word) : Group :=
  { group with regs := { group.regs with v := [(2, { val := a }), (3, { val := b })] } }

/-- The team with a trap enabled for every FP cause (14 R285). -/
def trapTeam : Team := { team with regs := [(4, 0xFFFFFFFF#32)] }

theorem witness_FpTrapParksLanes : ∃ ins f amax op s i, FloatOp ins f 1#6 amax op ∧ GroupIssues s f i ∧
    (i.act.filter (fun k => raisedIn i (op i) k != 0)) ≠ [] :=
  ⟨_, _, _, _, _, _, .fadd false _ (r 2) (r 3),
   issues (g := withXY 0x7F800000#32 0xFF800000#32) (t := trapTeam) (l := launch) rfl rfl (by decide +kernel), by decide +kernel⟩

theorem witness_CrossLaneResults : ∃ ins f vals s i, CrossOp ins f vals ∧ GroupIssues s f i :=
  ⟨_, _, _, _, _, .rsumi false 1#6 (r 2), issues (g := group) (t := team) (l := launch) rfl rfl (by decide +kernel)⟩

theorem witness_ShuffleReadsNamedLane :
    (∃ s i, GroupIssues s { sw := false, x := some (r 2), y := some (r 3), v := [1], shfl := true } i ∧
      ∀ k ∈ i.act, (crossRead i.g.regs i.set 2 (some ((yVal i k).toNat % i.l.alloc.w))).2.2 = false) ∧
    (∃ s i, GroupIssues s { sw := false, x := some (r 2), v := [1] } i ∧ i.act ≠ []) :=
  ⟨⟨_, _, issues (g := withXY 5#32 15#32) (t := team) (l := launch) rfl rfl (by decide +kernel), by decide +kernel⟩,
   ⟨_, _, issues (g := group) (t := team) (l := launch) rfl rfl (by decide +kernel), by decide +kernel⟩⟩

theorem witness_VotesIssuePredicates : ∃ s i, GroupIssues s { sw := false, pr := [7] } i :=
  ⟨_, _, issues (g := group) (t := team) (l := launch) rfl rfl (by decide +kernel)⟩

/-! ### Witnesses: accesses of local memory -/

/-- An address that fails no check: the last line below the spill area (09 R194). -/
def lastLine : Word := BitVec.ofNat 32 (Config.localBytes - spillOf Config.localBytes - 64)

theorem witness_LoadsIssueSeenBytes : ∃ ins word s i, LoadOp ins false 1 (r 2) 0#8 4 1 word ∧ GroupIssues s (loadForm false 1 (r 2) 1) i ∧
    passing i (addrOf i 0#8 4) 4 4 ≠ [] ∧
    roomFor i (linesAt (addrOf i 0#8 4) 4 ((passing i (addrOf i 0#8 4) 4 4).map (·.1))) [] id :=
  ⟨_, _, _, _, .ld32 false 1#6 (r 2) 0#8, issues (g := withXY lastLine 0#32) (t := team) (l := launch) rfl rfl (by decide +kernel),
   by decide +kernel, room (by decide +kernel)⟩

theorem witness_StoresEnterTheChunk : ∃ ins bits s i, StoreOp ins false 1 (r 2) 0#8 4 1 bits ∧ GroupIssues s (storeForm false 1 (r 2) 1) i ∧
    (let ps := passing i (addrOf i 0#8 4) 4 4
     let cells := (ps.map (fun e => storedCells e.2 (laneBytes i 1 4 1 e.1))).reverse.flatten
     let tags := (ps.map (fun e => bits e.2 ++ dirtyTags e.2 4)).reverse.flatten
     ps ≠ [] ∧ roomFor i [] (linesAt (addrOf i 0#8 4) 4 (ps.map (·.1))) (fun c => { c with stores := cells ++ c.stores, tags := tags ++ c.tags })) :=
  ⟨_, _, _, _, .st32 false 1#6 (r 2) 0#8, issues (g := withXY lastLine 0#32) (t := team) (l := launch) rfl rfl (by decide +kernel),
   by decide +kernel, room (by decide +kernel)⟩

theorem witness_BitStoresAndTagLoads :
    (∃ ins bit s i, BitOp ins false (r 2) 0#8 bit ∧ GroupIssues s { sw := false, x := some (r 2), imm := true } i ∧
      (let ps := passing i (addrOf i 0#8 4) 4 4
       let tags := (ps.map (fun e => bit e.2)).reverse
       ps ≠ [] ∧ roomFor i [] (linesAt (addrOf i 0#8 4) 4 (ps.map (·.1))) (fun c => { c with tags := tags ++ c.tags }))) ∧
    (∃ s i, GroupIssues s (loadForm false 1 (r 2) 1) i ∧ passing i (addrOf i 0#8 4) 4 4 ≠ [] ∧
      roomFor i (linesAt (addrOf i 0#8 4) 4 ((passing i (addrOf i 0#8 4) 4 4).map (·.1))) [] id) :=
  ⟨⟨_, _, _, _, .ste .., issues (g := group) (t := team) (l := launch) rfl rfl (by decide +kernel), by decide +kernel, room (by decide +kernel)⟩,
   ⟨_, _, issues (g := group) (t := team) (l := launch) rfl rfl (by decide +kernel), by decide +kernel, room (by decide +kernel)⟩⟩

/-- The group whose chunk has marked the word at 0 empty. -/
def emptied : Group :=
  { group with cur := some { uid := 9, start := group.regs, tags := [{ addr := 0, full := some false, dirty := none }] } }

theorem witness_FullLoadsTakeOrWait :
    (∃ ins s i, FullOp ins false 1#6 (r 2) 0#8 .waits true ∧ GroupIssues s (loadForm false 1 (r 2) 1) i ∧
      (let w := fullWalk i true (passing i (addrOf i 0#8 4) 4 4) []
       w.1 ≠ [] ∧ roomFor i (linesAt (addrOf i 0#8 4) 4 ((passing i (addrOf i 0#8 4) 4 4).map (·.1))) (linesAt (addrOf i 0#8 4) 4 (w.1.map (·.1)))
         (fun k => { k with tags := w.2.2 ++ k.tags }))) ∧
    (∃ ins s i, FullOp ins false 1#6 (r 2) 0#8 .traps false ∧ GroupIssues s (loadForm false 1 (r 2) 1) i ∧
      (let w := fullWalk i false (passing i (addrOf i 0#8 4) 4 4) []
       w.1 = [] ∧ w.2.1 ≠ [] ∧ roomFor i (linesAt (addrOf i 0#8 4) 4 (w.1.map (·.1))) [] (fun k => { k with tags := w.2.2 ++ k.tags }))) :=
  ⟨⟨_, _, _, .ldfc .., issues (g := group) (t := team) (l := launch) rfl rfl (by decide +kernel), by decide +kernel, room (by decide +kernel)⟩,
   ⟨_, _, _, .ldft .., issues (g := emptied) (t := team) (l := launch) rfl rfl (by decide +kernel), by decide +kernel,
    by decide +kernel, room (by decide +kernel)⟩⟩

theorem witness_UniformAccesses :
    (∃ s i p, GroupIssues s { sw := false, sx := some (r 2), u := [1], imm := true } i ∧ i.act ≠ [] ∧
      accessAt i (fun _ => BitVec.ofNat 32 ((sxVal i).toNat + (immediateOf i.hints 1#8).toNat * 4)) 4 4 0 = some p ∧
      roomFor i (lineInputs (BitVec.ofNat 32 ((sxVal i).toNat + (immediateOf i.hints 1#8).toNat * 4)).toNat 4) [] id) ∧
    (∃ s i p, GroupIssues s { sw := false, sx := some (r 2), u := [1], ur := [1], imm := true } i ∧ i.act ≠ [] ∧
      accessAt i (fun _ => BitVec.ofNat 32 ((sxVal i).toNat + (immediateOf i.hints 1#8).toNat * 4)) 4 4 0 = some p ∧
      roomFor i [] (lineInputs (BitVec.ofNat 32 ((sxVal i).toNat + (immediateOf i.hints 1#8).toNat * 4)).toNat 4)
        (fun c => chunkStore c p (natLE 4 (readS i.g.regs 1).1.toNat))) :=
  ⟨⟨_, _, 4, issues (g := group) (t := team) (l := launch) rfl rfl (by decide +kernel), by decide +kernel, by decide +kernel, room (by decide +kernel)⟩,
   ⟨_, _, 4, issues (g := group) (t := team) (l := launch) rfl rfl (by decide +kernel), by decide +kernel, by decide +kernel, room (by decide +kernel)⟩⟩

theorem witness_FailingAccessParksLanes :
    (∃ ins word s i, LoadOp ins false 1 (r 2) 0#8 4 1 word ∧ GroupIssues s (loadForm false 1 (r 2) 1) i ∧
      roomFor i (linesAt (addrOf i 0#8 4) 4 ((passing i (addrOf i 0#8 4) 4 4).map (·.1))) [] id ∧ failing i (addrOf i 0#8 4) 4 4 ≠ []) ∧
    (∃ ins bits s i, StoreOp ins false 1 (r 2) 0#8 4 1 bits ∧ GroupIssues s (storeForm false 1 (r 2) 1) i ∧
      (let ps := passing i (addrOf i 0#8 4) 4 4
       roomFor i [] (linesAt (addrOf i 0#8 4) 4 (ps.map (·.1))) (fun c =>
        { c with stores := (ps.map (fun e => storedCells e.2 (laneBytes i 1 4 1 e.1))).reverse.flatten ++ c.stores,
                 tags := (ps.map (fun e => bits e.2 ++ dirtyTags e.2 4)).reverse.flatten ++ c.tags }) ∧
       failing i (addrOf i 0#8 4) 4 4 ≠ [])) :=
  ⟨⟨_, _, _, _, .ld32 false 1#6 (r 2) 0#8, issues (g := withXY 2#32 0#32) (t := team) (l := launch) rfl rfl (by decide +kernel),
    room (by decide +kernel), by decide +kernel⟩,
   ⟨_, _, _, _, .st32 false 1#6 (r 2) 0#8, issues (g := withXY 0x200000#32 0#32) (t := team) (l := launch) rfl rfl (by decide +kernel),
    room (by decide +kernel), by decide +kernel⟩⟩

/-! ### Witnesses: atomics, GRED, control flow -/

theorem witness_LocalAtomicsSerialInLanes :
    (∃ ins f s i, AtomicOp ins false 1#6 (r 2) (r 3) false f ∧
      LatmIssues s { sw := false, x := some (r 2), y := some (r 3), v := [1], vr := [] } i ∧
      (let ps := passing i (fun k => xVal i k) 4 4
       let w := atomWalk i (fun k a => f a (yVal i k) (readV i.g.regs k 1).1) ps (ownStores i.g)
       let lines := linesAt (fun k => xVal i k) 4 (ps.map (·.1))
       ps ≠ [] ∧ roomFor i lines lines (fun c => { c with stores := w.2.1 ++ c.stores, tags := w.2.2 ++ c.tags }))) ∧
    (∃ s i, LatmIssues s { sw := false, x := some (r 2), y := some (r 3), v := [1] } i) := by
  refine ⟨⟨_, _, base, _, .aadd .., ⟨3, 0, group, rfl, rfl, .inr ⟨rfl, ⟨3, 0, _, _, _, rfl, rfl, rfl, ?_, ?_⟩⟩⟩, ?_⟩,
    ⟨base, _, ⟨3, 0, group, rfl, rfl, .inr ⟨rfl, ⟨3, 0, _, _, _, rfl, rfl, rfl, ?_, ?_⟩⟩⟩⟩⟩
  · decide +kernel
  · decide +kernel
  · exact ⟨by decide +kernel, room (by decide +kernel)⟩
  · decide +kernel
  · decide +kernel

theorem witness_GredEntersContributions :
    (∃ ins fn s i, GredOp ins false 0#4 (r 2) (r 3) fn ∧ GroupIssues s { sw := false, x := some (r 2), y := some (r 3) } i ∧ GredFits i 0 4) ∧
    (∃ s i, GroupIssues s { sw := false, x := some (r 2), y := some (pairSrc 2#5 .plain), pairY := true } i ∧ GredFits i 0 8) :=
  ⟨⟨_, _, _, _, .gredRaddi .., issues (g := withXY 1023#32 1#32) (t := team) (l := launch) rfl rfl (by decide +kernel),
    ⟨⟨{ base := 0x100000000, len := 4096, access := 7 }, by decide +kernel, rfl, by decide +kernel⟩, by decide +kernel⟩⟩,
   ⟨_, _, issues (g := withXY 511#32 1#32) (t := team) (l := launch) rfl rfl (by decide +kernel),
    ⟨⟨{ base := 0x100000000, len := 4096, access := 7 }, by decide +kernel, rfl, by decide +kernel⟩, by decide +kernel⟩⟩⟩

theorem witness_BranchesMoveTheirLanes : ∃ ins f taken target s i, BranchOp ins f taken target false ∧ GroupIssues s f i ∧ setReady i ∧
    arriving i (taken i) (target i) ≠ [] :=
  ⟨_, _, _, _, _, _, .br false 1#19, issues (g := group) (t := team) (l := launch) rfl rfl (by decide +kernel),
   by unfold setReady; decide +kernel, by decide +kernel⟩

/-! ### Witnesses: words of a control core -/

/-- The device whose cluster 0 runs a control program of these words at 0, with this state of its control core. -/
def ctlState (k : Ctl) : State :=
  { setCluster base 0 { ctl := { k with running := true, base := 0, size := 64 } } with
    issue := { actor := .control 0, pc := 0#32, word := 0x78000000#32, first := 0x78000000#32 } }

def ctlBase : State := ctlState {}

theorem plainIssue {s : State} {f : Form} (ha : s.issue.actor = .control 0) (hh : s.issue.hints = {}) (hf : f.illegal = false)
    (hp : isRouted f.x = false ∧ isRouted f.y = false ∧ isRouted f.sx = false ∧ isRouted f.sy = false) : ControlIssues s f 0 := by
  refine ⟨ha, hf, hp, by rw [hh], (by rw [hh]; intro h; cases h), ?_⟩
  intro _
  simp [hh, predField, ctlPred]

theorem ctlIssue {f : Form} (hf : f.illegal = false)
    (hp : isRouted f.x = false ∧ isRouted f.y = false ∧ isRouted f.sx = false ∧ isRouted f.sy = false) : ControlIssues ctlBase f 0 :=
  plainIssue rfl rfl hf hp

theorem witness_ControlCoreWritesItsRegisters :
    (∃ ins f d val, ControlWrite ctlBase.issue.hints ctlBase.cycle ins f d val ∧ ControlIssues ctlBase f 0) ∧
    (∃ ins f d val, ControlPredWrite ins f d val ∧ ControlIssues ctlBase f 0) ∧
    (∃ ins f, CarryOp ins true 63#6 (r 2) (r 3) f ∧
      ControlIssues ctlBase { sw := true, x := some (r 2), y := some (r 3), v := [63], pr := [6] } 0) ∧
    ControlIssues ctlBase { sw := false, guarded := false } 0 :=
  ⟨⟨_, _, _, _, .ialu (.iadd false 1#6 (r 2) (r 3)), ctlIssue rfl (by decide)⟩,
   ⟨_, _, _, _, .compare (.ltn false 3#3 7#3 (r 2) (r 3)), ctlIssue rfl (by decide)⟩,
   ⟨_, _, .iaddc .., ctlIssue rfl (by decide)⟩, ctlIssue rfl (by decide)⟩

/-- The control core whose register s2 holds a. -/
def ctlAddr (a : Word) : State := ctlState { s := [(2, a)] }

theorem addrIssue (a : Word) {f : Form} (hf : f.illegal = false)
    (hp : isRouted f.x = false ∧ isRouted f.y = false ∧ isRouted f.sx = false ∧ isRouted f.sy = false) :
    ControlIssues (ctlAddr a) f 0 := plainIssue rfl rfl hf hp

theorem witness_ControlCoreAccessesItsMemory :
    (∃ ins word a, LoadOp ins false 1 (r 2) 0#8 4 1 word ∧ ControlIssues (ctlAddr a) (loadForm false 1 (r 2) 1) 0 ∧
      ctlAccessOk ((ctlReg (ctlAt (ctlAddr a) 0) 2)) 4 = true) ∧
    (∃ ins word a, LoadOp ins false 2 (r 2) 0#8 8 2 word ∧ ControlIssues (ctlAddr a) (loadForm false 2 (r 2) 2) 0 ∧
      ctlAccessOk ((ctlReg (ctlAt (ctlAddr a) 0) 2)) 8 = false) ∧
    (∃ ins bits a, StoreOp ins false 1 (r 2) 0#8 4 1 bits ∧ (∀ p, bits p = []) ∧
      ControlIssues (ctlAddr a) (storeForm false 1 (r 2) 1) 0 ∧ ctlAccessOk (ctlReg (ctlAt (ctlAddr a) 0) 2) 4 = true ∧
      ¬((ctlReg (ctlAt (ctlAddr a) 0) 2).toNat < (ctlAt (ctlAddr a) 0).base + (ctlAt (ctlAddr a) 0).size)) ∧
    (∃ ins bits a, StoreOp ins false 1 (r 2) 0#8 4 1 bits ∧ ControlIssues (ctlAddr a) (storeForm false 1 (r 2) 1) 0 ∧
      (ctlReg (ctlAt (ctlAddr a) 0) 2).toNat < (ctlAt (ctlAddr a) 0).base + (ctlAt (ctlAddr a) 0).size) :=
  ⟨⟨_, _, 0xFFFFC#32, .ld32 false 1#6 (r 2) 0#8, addrIssue _ rfl (by decide), by decide +kernel⟩,
   ⟨_, _, 0x100000#32, .ld64 false 1#5 (r 2) 0#8, addrIssue _ rfl (by decide), by decide +kernel⟩,
   ⟨_, _, 64#32, .st32 false 1#6 (r 2) 0#8, fun _ => rfl, addrIssue _ rfl (by decide), by decide +kernel⟩,
   ⟨_, _, 60#32, .st32 false 1#6 (r 2) 0#8, addrIssue _ rfl (by decide), by decide +kernel⟩⟩

theorem witness_ControlCoreBranches :
    (∃ ins f take target links, ControlBranch ins f 0#32 take target links ∧ ControlIssues ctlBase f 0 ∧ take (ctlAt ctlBase 0) = false) ∧
    (∃ ins f take target links, ControlBranch ins f 0#32 take target links ∧ ControlIssues ctlBase f 0 ∧ take (ctlAt ctlBase 0) = true ∧
      (target (ctlAt ctlBase 0)).toNat % 4 = 0 ∧ (target (ctlAt ctlBase 0)).toNat + 4 = (ctlAt ctlBase 0).size) ∧
    (∃ ins f take target links, ControlBranch ins f 0#32 take target links ∧ ControlIssues ctlBase f 0 ∧ take (ctlAt ctlBase 0) = true ∧
      (target (ctlAt ctlBase 0)).toNat = (ctlAt ctlBase 0).size) :=
  ⟨⟨_, _, _, _, _, .brf false 7#3 15#19 0#32, ctlIssue rfl (by decide), by decide +kernel⟩,
   ⟨_, _, _, _, _, .call false 15#19 0#32, ctlIssue rfl (by decide), by decide +kernel⟩,
   ⟨_, _, _, _, _, .br false 16#19 0#32, ctlIssue rfl (by decide), by decide +kernel⟩⟩

/-! ### Witnesses: masks, barriers, threads and traps of a group -/

/-- The group with these masks. -/
def masked (ms : Table LaneMask) : Group := { group with regs := { group.regs with masks := ms } }

/-- The group whose lane 1 waits for mask 0 at another word. -/
def gathered : Group :=
  let away : Lane := { status := .live, pc := 8#32, set := 1, wait := .mask 0 12#32 false false }
  { group with regs := { group.regs with lanes := [(0, { status := .live }), (1, away)], masks := [(0, 3#64)] }, nextSet := 2 }

/-- That group with a word in s0. -/
def named (a : Word) : Group := { gathered with regs := { gathered.regs with s := [(0, { val := a })] } }

theorem ready {i : In} (h : i.lanes.all (fun k => decide ((laneAt i.g.regs k).wait = .ready)) = true) : setReady i := by
  intro k hk
  simpa using List.all_eq_true.mp h k hk

theorem witness_MaskWordsSetMembers :
    (∃ s i, GroupIssues s { sw := false, guarded := false } i) ∧
    (∃ s i, GroupIssues s { sw := false, guarded := false, u := [63], ur := [62, 63] } i) ∧
    (∃ s i, GroupIssues s { sw := false, guarded := false, u := [1] } i ∧ i.act ≠ []) ∧
    -- lane 0 leaves mask 0, where lane 1 waits
    (∃ s i, GroupIssues s { sw := false, guarded := false } i ∧ setReady i ∧
      let kept := membersOf i.g.regs 0#4 &&& ~~~(maskOf i.lanes)
      kept = 2#64 ∧ (∀ j, j < 64 → kept.getLsbD j = true → (laneAt i.g.regs j).handler = false ∧ waitsAtMask i.g.regs 0#4 j = true) ∧
      resumesAt i 1 = 12#32) ∧
    -- MSET that keeps it, and one that removes it, as MCLR does
    (∀ a ∈ [0#32, 2#32], ∃ s i, GroupIssues s { sw := false, guarded := false, u := [1], ur := [0, 1] } i ∧ setReady i ∧
      1 ∈ liveLanes i.g.regs ∧ waitsAtMask i.g.regs 0#4 1 = true ∧ (laneAt i.g.regs 1).handler = false ∧
      ((readS i.g.regs 1).1 ++ (readS i.g.regs 0).1) &&& maskOf ((liveLanes i.g.regs).filter (fun k => decide (k < i.l.alloc.w))) =
        BitVec.setWidth 64 a ∧
      ∀ k ∈ liveLanes i.g.regs, (laneAt i.g.regs k).set < i.g.nextSet) :=
  ⟨⟨_, _, issues (g := masked [(11, 1#64)]) (t := team) (l := launch) rfl rfl (by decide +kernel)⟩,
   ⟨_, _, issues (g := group) (t := team) (l := launch) rfl rfl (by decide +kernel)⟩,
   ⟨_, _, issues (g := masked [(0, 1#64)]) (t := team) (l := launch) rfl rfl (by decide +kernel), by decide +kernel⟩,
   ⟨_, _, issues (g := gathered) (t := team) (l := launch) rfl rfl (by decide +kernel), ready (by decide +kernel), by decide +kernel⟩,
   fun a ha => ⟨_, _, issues (g := named a) (t := team) (l := launch) rfl rfl (by fin_cases ha <;> decide +kernel),
     ready (by fin_cases ha <;> decide +kernel), by fin_cases ha <;> decide +kernel⟩⟩

theorem witness_MaskWaitReleasesTogether :
    (∃ s i, GroupIssues s { sw := false, guarded := false } i ∧ setReady i ∧
      (∀ k ∈ i.lanes, (membersOf i.g.regs 11#4).getLsbD k = true) ∧
      (∃ j, j < 64 ∧ (membersOf i.g.regs 11#4).getLsbD j = true ∧ hasArrived i 11#4 j = false)) ∧
    (∃ s i, GroupIssues s { sw := false, guarded := false } i ∧ setReady i ∧
      (∀ k ∈ i.lanes, (membersOf i.g.regs 0#4).getLsbD k = true) ∧ i.lanes ≠ [] ∧
      (∀ j, j < 64 → (membersOf i.g.regs 0#4).getLsbD j = true → hasArrived i 0#4 j = true)) ∧
    (∃ s i, GroupIssues s { sw := false, guarded := false } i ∧ setReady i ∧
      (∀ k ∈ i.lanes, (membersOf i.g.regs 0#4).getLsbD k = true) ∧ i.lanes = [0] ∧ (membersOf i.g.regs 0#4).getLsbD 1 = true ∧
      resumesAt i 1 = 12#32 ∧ (∀ j, j < 64 → (membersOf i.g.regs 0#4).getLsbD j = true → hasArrived i 0#4 j = true)) :=
  ⟨⟨_, _, issues (g := masked [(11, 3#64)]) (t := team) (l := launch) rfl rfl (by decide +kernel), ready (by decide +kernel),
    by decide +kernel, 1, by decide, by decide +kernel⟩,
   ⟨_, _, issues (g := masked [(0, 1#64)]) (t := team) (l := launch) rfl rfl (by decide +kernel), ready (by decide +kernel),
    by decide +kernel⟩,
   ⟨_, _, issues (g := gathered) (t := team) (l := launch) rfl rfl (by decide +kernel), ready (by decide +kernel), by decide +kernel⟩⟩

theorem witness_BarriersHoldTheirLanes :
    (∃ ins f w s i, BarrierOp ins f w ∧ GroupIssues s f i ∧ setReady i) ∧
    (∃ s i, GroupIssues s { sw := false, guarded := false } i ∧ setReady i) :=
  ⟨⟨_, _, _, _, _, .bartc false 0#4 0x3FFFF#18, issues (g := group) (t := team) (l := launch) rfl rfl (by decide +kernel), ready (by decide +kernel)⟩,
   ⟨_, _, issues (g := group) (t := team) (l := launch) rfl rfl (by decide +kernel), ready (by decide +kernel)⟩⟩

/-- The group with a program on lattice 0 that it has not joined. -/
def forker : Group := { group with regs := { group.regs with unjoined := [4] } }

theorem witness_PhaseNamesTheExchange :
    (∃ (e : BitVec 18) (s : State) (i : In), e.toNat < i.l.exchOffsets.length ∧ GroupIssues s { sw := false, guarded := false } i ∧ setReady i ∧
      signatureRoom i [teamInput i.t 31] (if (viewName i.g i.t).isNone then [teamInput i.t 31] else []) ∧
      ¬(i.g.regs.unjoined ≠ [] ∨ ((viewName i.g i.t).isSome = true ∧ viewName i.g i.t ≠ some e.toNat))) ∧
    (∃ (e : BitVec 18) (s : State) (i : In), e.toNat = 0x3FFFF ∧ GroupIssues s { sw := false, guarded := false } i ∧ setReady i ∧
      signatureRoom i [teamInput i.t 31] (if (viewName i.g i.t).isNone then [teamInput i.t 31] else []) ∧
      i.g.regs.unjoined ≠ [] ∧ i.lanes ≠ []) ∧
    (∃ (e : BitVec 18) (s : State) (i : In), e.toNat = 0x3FFFF ∧ GroupIssues s { sw := false, guarded := false } i ∧ setReady i ∧
      signatureRoom i [teamInput i.t 31] (if (viewName i.g i.t).isNone then [teamInput i.t 31] else []) ∧
      (viewName i.g i.t).isSome = true ∧ viewName i.g i.t ≠ some e.toNat ∧ i.lanes ≠ []) :=
  ⟨⟨0#18, _, _, by decide +kernel, issues (g := group) (t := team) (l := launch) rfl rfl (by decide +kernel), ready (by decide +kernel),
    sigRoom (by decide +kernel), by decide +kernel⟩,
   ⟨0x3FFFF#18, _, _, by decide, issues (g := forker) (t := team) (l := launch) rfl rfl (by decide +kernel), ready (by decide +kernel),
    sigRoom (by decide +kernel), by decide +kernel⟩,
   ⟨0x3FFFF#18, _, _, by decide, issues (g := group) (t := { team with exname := some 0 }) (l := launch) rfl rfl (by decide +kernel),
    ready (by decide +kernel), sigRoom (by decide +kernel), by decide +kernel⟩⟩

theorem witness_SpawnReservesRecords : ∃ s i entry bin, GroupIssues s { sw := false, x := some (r 2), y := some (r 3) } i ∧ setReady i ∧
    (∀ k ∈ i.act, xVal i k = entry ∧ (laneAt i.g.regs k).block = 0) ∧ i.act ≠ [] ∧ inText i.l entry = true ∧
    reserveBin (tgetD i.s.cores i.g.core {}) (rivalReservations i.s i.l i.t i.gid i.g ++ reservations i.g) entry = some bin ∧
    (binLoad (tgetD i.s.cores i.g.core {}) (rivalReservations i.s i.l i.t i.gid i.g ++ reservations i.g) bin).2 + i.act.length ≤ 64 :=
  ⟨_, _, 4#32, 0, issues (g := withXY 4#32 9#32) (t := team) (l := launch) rfl rfl (by decide +kernel), ready (by decide +kernel),
   by decide +kernel⟩

theorem witness_ExitEndsThreads :
    (∃ s i, GroupIssues s { sw := false } i ∧ setReady i) ∧
    (∃ s i, GroupIssues s { sw := false } i ∧ setReady i ∧ let kept := membersOf i.g.regs 0#4 &&& ~~~(maskOf i.act)
      kept = 2#64 ∧ ∀ j, j < 64 → kept.getLsbD j = true → (laneAt i.g.regs j).handler = false ∧ waitsAtMask i.g.regs 0#4 j = true) :=
  ⟨⟨_, _, issues (g := group) (t := team) (l := launch) rfl rfl (by decide +kernel), ready (by decide +kernel)⟩,
   ⟨_, _, issues (g := gathered) (t := team) (l := launch) rfl rfl (by decide +kernel), ready (by decide +kernel), by decide +kernel⟩⟩

theorem witness_NopYieldAndSleep :
    (∃ ins f s i, IdleOp ins f ∧ GroupIssues s f i ∧ setReady i) ∧
    (∃ s i, GroupIssues s { sw := false, x := some (r 2) } i ∧ setReady i) ∧
    (∃ s i, GroupIssues s { sw := false, x := some (r 2) } i ∧ setReady i ∧ (xVal i 0).toNat = 2 ^ 32 - 1) :=
  ⟨⟨_, _, _, _, .yield false, issues (g := group) (t := team) (l := launch) rfl rfl (by decide +kernel), ready (by decide +kernel)⟩,
   ⟨_, _, issues (g := withXY 0#32 0#32) (t := team) (l := launch) rfl rfl (by decide +kernel), ready (by decide +kernel)⟩,
   ⟨_, _, issues (g := withXY 0xFFFFFFFF#32 0#32) (t := team) (l := launch) rfl rfl (by decide +kernel), ready (by decide +kernel), by decide +kernel⟩⟩

theorem witness_SoftwareTrapsPark : ∃ ins cause s i, SoftTrapOp ins false 0xA5#8 cause ∧ GroupIssues s { sw := false } i ∧ i.act ≠ [] :=
  ⟨_, _, _, _, .trap .., issues (g := group) (t := team) (l := launch) rfl rfl (by decide +kernel), by decide +kernel⟩

/-- The group whose thread serves a trap of this cause. -/
def server (cause : Nat) : Group :=
  { group with regs := { lanes := [(0, { status := .live, handler := true })], trap := { cause := cause, pc := 4#32, after := 0#32, inService := true } } }

/-- The same with a return address that is no word of the text. -/
def astray : Group := { group with regs := { (server 7).regs with trap := { cause := 7, pc := 2#32, after := 2#32, inService := true } } }

theorem witness_TrapReturnResumes :
    (∃ s i, GroupIssues s { sw := false } i ∧ setReady i ∧ (∀ k ∈ i.act, (laneAt i.g.regs k).handler = true) ∧ i.act ≠ [] ∧
      inText i.l (returnsTo i.g.regs.trap).1 = true ∧ (returnsTo i.g.regs.trap).2 = true) ∧
    (∃ s i, GroupIssues s { sw := false } i ∧ setReady i ∧ (∀ k ∈ i.act, (laneAt i.g.regs k).handler = true) ∧ i.act ≠ [] ∧
      inText i.l (returnsTo i.g.regs.trap).1 = true ∧ (returnsTo i.g.regs.trap).2 = false) ∧
    (∃ s i, GroupIssues s { sw := false } i ∧ setReady i ∧ ∃ k ∈ i.act, (laneAt i.g.regs k).handler = false) ∧
    (∃ s i, GroupIssues s { sw := false } i ∧ setReady i ∧ inText i.l (returnsTo i.g.regs.trap).1 = false ∧
      ∃ k ∈ i.act, (laneAt i.g.regs k).handler = true) :=
  ⟨⟨_, _, issues (g := server 7) (t := team) (l := launch) rfl rfl (by decide +kernel), ready (by decide +kernel), by decide +kernel⟩,
   ⟨_, _, issues (g := server 13) (t := team) (l := launch) rfl rfl (by decide +kernel), ready (by decide +kernel), by decide +kernel⟩,
   ⟨_, _, issues (g := group) (t := team) (l := launch) rfl rfl (by decide +kernel), ready (by decide +kernel), 0, by decide +kernel⟩,
   ⟨_, _, issues (g := astray) (t := team) (l := launch) rfl rfl (by decide +kernel), ready (by decide +kernel), by decide +kernel, 0, by decide +kernel⟩⟩

/-- The device whose group issues a word of a run that guards it with p0, which holds 0 (03 R68). -/
def guardedState : State := { base with issue := { actor := .group 3 0, hints := { mod := some (0#3, false, 0#3, 0#6) } } }

theorem witness_TeamRegisterWritesWait :
    (∃ ins f regs s i, TeamWrite ins f regs ∧ GroupIssues s f i ∧ i.act ≠ [] ∧
      signatureRoom i [] ((regs i).map (fun e => teamInput i.t e.1))) ∧
    (∃ ins f regs s i, TeamWrite ins f regs ∧ GroupIssues s f i ∧ i.act = []) :=
  ⟨⟨_, _, _, _, _, .setkey false (r 2) (r 3), issues (g := group) (t := team) (l := launch) rfl rfl (by decide +kernel), by decide +kernel,
    sigRoom (by decide +kernel)⟩,
   ⟨_, _, _, guardedState, _, .wrst false 17#8 (r 3), ⟨3, 0, group, team, launch, rfl, rfl, rfl, by decide +kernel⟩, by decide +kernel⟩⟩

/-- What RDST of phaselo by lane 0 leaves: whether the chunk is still open, and the latch of the lane. -/
def rdstLeaves (q : Nat) : Option (Bool × Option Word) :=
  match exec (.rdst false 1#6 6#8) (stateOf group team { launch with chunkq := q }) with
  | .next t => (tget t.groups 3).map (fun g => (g.cur.isSome, (laneAt g.regs 0).latchPhase))
  | _ => none

theorem witness_StateRegisterReads :
    -- a chunk that stays open after the word, and one that ends with it
    (rdstLeaves 4096 = some (true, some 0#32) ∧ rdstLeaves 1 = some (false, none)) ∧
    (∃ i, (laneAt i.g.regs 0).latchPhase = some 5#32 ∧ boundaryCount i.s i.l = 0 ∧ stateReg i 7 0 = 5#32) ∧
    (∃ s i, GroupIssues s { sw := false, v := [1] } i ∧ (teamScoped 4 = true → i.act ≠ [] → signatureRoom i [teamInput i.t 4] [])) ∧
    (∃ s i, GroupIssues s { sw := false, v := [63] } i) ∧
    (∃ s i, GroupIssues s { sw := false, v := [1] } i ∧ i.act ≠ [] ∧ signatureRoom i [teamInput i.t 3] [teamInput i.t 3]) ∧
    (∃ s i, GroupIssues s { sw := false, y := some (r 3), low := true } i ∧ i.act ≠ [] ∧
      (∀ k ∈ i.act, (laneAt i.g.regs k).handler = true)) :=
  ⟨by decide +kernel,
   ⟨inOf { sw := false } { group with regs := { group.regs with lanes := [(0, { status := .live, latchPhase := some 5#32 })] } } team launch,
     by decide +kernel⟩,
   ⟨_, _, issues (g := group) (t := team) (l := launch) rfl rfl (by decide +kernel), fun _ _ => sigRoom (by decide +kernel)⟩,
   ⟨_, _, issues (g := group) (t := team) (l := launch) rfl rfl (by decide +kernel)⟩,
   ⟨_, _, issues (g := group) (t := team) (l := launch) rfl rfl (by decide +kernel), by decide +kernel, sigRoom (by decide +kernel)⟩,
   ⟨_, _, issues (g := server 7) (t := team) (l := launch) rfl rfl (by decide +kernel), by decide +kernel⟩⟩

/-! ### Witnesses: random numbers, sampling, tiles and engine control -/

theorem witness_RandomNumbersOutstanding :
    (∃ ins f stream val s i, RandomOp ins f 63#6 stream val ∧ GroupIssues s f i ∧ signatureRoom i (keyReads i stream) []) ∧
    (∃ s i, GroupIssues s { sw := false, x := some (r 2), y := some (r 3) } i ∧ signatureRoom i (keyReads i true) []) ∧
    (∃ ins amax out s i, StochasticOp ins false 1#6 (r 2) (r 3) amax out ∧
      GroupIssues s { sw := false, x := some (r 2), y := some (r 3), v := [1] } i) :=
  ⟨⟨_, _, _, _, _, _, .rng false 63#6 (r 2), issues (g := group) (t := team) (l := launch) rfl rfl (by decide +kernel), sigRoom (by decide +kernel)⟩,
   ⟨_, _, issues (g := group) (t := team) (l := launch) rfl rfl (by decide +kernel), sigRoom (by decide +kernel)⟩,
   ⟨_, _, _, _, _, .sre4 .., issues (g := group) (t := team) (l := launch) rfl rfl (by decide +kernel)⟩⟩

/-- What a word of form f reads in a state whose group 3 issues it. -/
theorem issuesAt {s : State} {f : Form} {g : Group} {t : Team} {l : Launch} (ha : s.issue.actor = .group 3 0)
    (hg : groupTriple s 3 = some (g, t, l))
    (h : (!formIllegal f s.issue.hints l.alloc && !(sourceHazard (issueIn s 3 0 f g t l)).2) = true) :
    GroupIssues s f (issueIn s 3 0 f g t l) := by
  simp only [Bool.and_eq_true, Bool.not_eq_true'] at h
  exact ⟨3, 0, g, t, l, ha, hg, rfl, h.1, h.2⟩

/-- Registers 2 and 3 of lane 0, and bytes of local memory. -/
def withBytes (a b : Word) (m : List Host.Cell) : State := { stateOf (withXY a b) team launch with lmem := m }

theorem bytesIssue {a b : Word} {m : List Host.Cell} {f : Form}
    (h : (!formIllegal f {} launch.alloc && !(sourceHazard (issueIn (withBytes a b m) 3 0 f (withXY a b) team launch)).2) = true) :
    GroupIssues (withBytes a b m) f (issueIn (withBytes a b m) 3 0 f (withXY a b) team launch) := issuesAt rfl rfl h

/-- What a SAMP word of lane 0 reads with the logits at `a` and the record at `b`. -/
def sampIn (a b : Word) (m : List Host.Cell) : In :=
  issueIn (withBytes a b m) 3 0 { sw := false, x := some (r 2), y := some (r 3), v := [1] } (withXY a b) team launch

/-- The record at 64 with n, temp, top_k and out, and one logit at 0, by their bytes that are not 0. -/
def record (n temp out logit : Nat) : List Host.Cell :=
  ((natLE 4 logit ++ List.replicate 60 0#8 ++ natLE 4 n ++ natLE 4 temp ++ natLE 4 0 ++ natLE 4 0 ++ natLE 4 0 ++ natLE 4 out).zipIdx.filter (fun e => e.1 != 0#8)).map (fun e => (e.2, e.1))

/-- Word j of the record that the request of lane 0 reads. -/
def recordWord (i : In) (j : Nat) : Word := wordAt j (viewBytes i.s.lmem (ownStores i.g) 64 32)

/-- The checks of a record at 64 with n logits at 0 that pass, in an open chunk. -/
abbrev served (i : In) (n : Nat) : Prop :=
  i.act = [0] ∧ i.g.cur.isSome = true ∧ checkLocal i.s i.t i.l (yVal i 0) 32 32 = .ok 64 ∧ (recordWord i 0).toNat = n ∧
    checkLocal i.s i.t i.l (xVal i 0) (4 * n) 4 = .ok 0

/-- Inputs of each clause about a request: a record and logits that fail their check, n at and beyond its ends, an output
that fails its check, and temperatures that are NaN, below 0, 0 and above 0, with and without a logit above minus infinity. -/
theorem witness_SampRequests :
    (checkLocal (sampIn 0#32 65#32 []).s team launch (yVal (sampIn 0#32 65#32 []) 0) 32 32 = .error (5, 65#32)) ∧
    (∀ n ∈ [0, 262145], let i := sampIn 0#32 64#32 (record n 0 0 0)
      checkLocal i.s i.t i.l (yVal i 0) 32 32 = .ok 64 ∧ (recordWord i 0).toNat = n) ∧
    (∀ n ∈ [1, 262144], let i := sampIn 1#32 64#32 (record n 0 0 0)
      (recordWord i 0).toNat = n ∧ checkLocal i.s i.t i.l (xVal i 0) (4 * n) 4 = .error (5, 1#32)) ∧
    (∀ n ∈ [1, 16], served (sampIn 0#32 64#32 (record n 0 0 0)) n) ∧
    (∀ out ∈ [2, 4], let i := sampIn 0#32 64#32 (record 1 0 out 0)
      served i 1 ∧ checkLocal i.s i.t i.l (recordWord i 5) 4 4 = if out = 2 then .error (5, 2#32) else .ok 4) ∧
    (∀ e ∈ [0x7FC00000, 0xBF800000, 0x80000000, 0x3F800000], let i := sampIn 0#32 64#32 (record 1 e 0 0)
      served i 1 ∧ (recordWord i 1).toNat = e) ∧
    (isNan (fpOf 0x7FC00000#32) = true ∧ fpLt (fpOf 0xBF800000#32) (fpOf 0#32) = true ∧ fpLt (fpOf 0x80000000#32) (fpOf 0#32) = false ∧
      fpEq (fpOf 0x80000000#32) (fpOf 0#32) = true ∧ fpLt (fpOf 0x3F800000#32) (fpOf 0#32) = false ∧
      fpEq (fpOf 0x3F800000#32) (fpOf 0#32) = false) ∧
    (∀ e ∈ [0, 0xFF800000, 0x7FC00000], let i := sampIn 0#32 64#32 (record 1 0 0 e)
      served i 1 ∧ (wordAt 0 (viewBytes i.s.lmem (ownStores i.g) 0 4)).toNat = e) ∧
    (fpOf 0xFF800000#32 = .inf true ∧ fpOf 0#32 ≠ .inf true) ∧ (viewReg (withXY 0#32 0#32) trapTeam 4).getLsbD 0 = true := by
  refine ⟨?_, ?_, ?_, ?_, ?_, ?_, ?_, ?_, ?_, ?_⟩ <;> decide +kernel

theorem witness_SamplingServesLanesInOrder : ∃ ins kind s i, SampOp ins false 1#6 (r 2) (r 3) kind ∧
    GroupIssues s { sw := false, x := some (r 2), y := some (r 3), v := [1] } i ∧ performed i kind ≠ [] ∧
    (let reads := (sampRequests i kind).1.flatMap (fun e => e.2.reads)
     roomFor i (reads ++ (if kind = .sample ∧ reads ≠ [] then keyReads i true else []))
      ((performed i kind).flatMap (fun e => e.2.writes))
      (fun c => { c with stores := ((sampStores i kind).map (fun e => storedCells e.1 e.2)).reverse.flatten ++ c.stores,
                         tags := ((sampStores i kind).map (fun e => dirtyTags e.1 e.2.length)).reverse.flatten ++ c.tags })) :=
  ⟨_, _, _, _, .topk .., bytesIssue (a := 0#32) (b := 64#32) (m := [(64, 1#8), (85, 2#8)]) (by decide +kernel), by decide +kernel, room (by decide +kernel)⟩

theorem witness_TileAndAccumulatorRegisters :
    (∃ s i, GroupIssues s { sw := false, guarded := false, low := true, t := [15] } i ∧ tileBusy i.g [15] [] = false) ∧
    (∃ s i, GroupIssues s { sw := false, guarded := false, low := true, t := [15, 0] } i ∧ tileBusy i.g [15, 0] [] = false) ∧
    (∃ s i, GroupIssues s { sw := false, guarded := false, low := true, a := [15] } i ∧ tileBusy i.g [] [15] = false) ∧
    (∃ s i, GroupIssues s { sw := false, guarded := false, a := [0], v := (upto 8).map (fun j => 56 + j), vr := (upto 8).map (fun j => 56 + j) } i ∧
      tileBusy i.g [] [0] = false) ∧
    (∃ ins h f vals effs s i, AccReadOp ins h f 15#4 vals effs ∧ s.issue.hints = h ∧ GroupIssues s f i ∧ tileBusy i.g [] [15] = false) :=
  ⟨⟨_, _, issues (g := group) (t := team) (l := launch) rfl rfl (by decide +kernel), by decide +kernel⟩,
   ⟨_, _, issues (g := group) (t := team) (l := launch) rfl rfl (by decide +kernel), by decide +kernel⟩,
   ⟨_, _, issues (g := group) (t := team) (l := launch) rfl rfl (by decide +kernel), by decide +kernel⟩,
   ⟨_, _, issues (g := group) (t := team) (l := launch) rfl rfl (by decide +kernel), by decide +kernel⟩,
   ⟨_, {}, _, _, _, _, _, .acv8 false {} 31#5 15#4 7#4, rfl, issues (g := group) (t := team) (l := launch) rfl rfl (by decide +kernel), by decide +kernel⟩⟩

/-- A record of one element of a byte at local address 0. -/
def oneByte : Shape := { type := 0, ndim := 1, space := 0, extent := 0, dims := [1, 1, 1, 1], strides := [0, 0, 0, 0], base := 0 }

/-- The device in which the team holds slot 1 with that record, and register 2 holds its handle. -/
def handleState : State :=
  { stateOf (withXY 0x00100001#32 1#32) team launch with
    parts := [(0, { part with slots := [(1, { owner := some 2, gen := 1, shape := some oneByte })] })] }

theorem handleIssue {f : Form} (h : (!formIllegal f {} launch.alloc && !(sourceHazard (issueIn handleState 3 0 f (withXY 0x00100001#32 1#32) team launch)).2) = true) :
    GroupIssues handleState f (issueIn handleState 3 0 f (withXY 0x00100001#32 1#32) team launch) := issuesAt rfl rfl h

theorem twoRooms {i : In} {a b : List Nat} (h : (match i.g.cur with
    | none => false
    | some c => match enterAccess c a [] with
      | none => false
      | some c1 => match enterAccess c1 b [] with
        | none => false
        | some c2 => segmentsFit i.s i.l i.g c2 i.gid) = true) :
    ∃ c c1 c2, i.g.cur = some c ∧ enterAccess c a [] = some c1 ∧ enterAccess c1 b [] = some c2 ∧ segmentsFit i.s i.l i.g c2 i.gid = true := by
  split at h
  · cases h
  · rename_i c hc
    split at h
    · cases h
    · rename_i c1 h1
      split at h
      · cases h
      · rename_i c2 h2
        exact ⟨c, c1, c2, hc, h1, h2, h⟩

theorem witness_TileMemoryWords :
    (∃ s i p, GroupIssues s { sw := false, x := some (r 2), guarded := false, low := true, t := [0] } i ∧ tileBusy i.g [0] [] = false ∧
      accessAt i (fun _ => xVal i (i.lanes.headD 0)) 2048 64 0 = some p ∧ roomFor i (lineInputs (xVal i (i.lanes.headD 0)).toNat 2048) [] id) ∧
    (∃ s i p, GroupIssues s { sw := false, x := some (r 2), guarded := false, low := true, t := [0] } i ∧ tileBusy i.g [0] [] = false ∧
      accessAt i (fun _ => xVal i (i.lanes.headD 0)) 64 64 0 = some p ∧ roomFor i (lineInputs (xVal i (i.lanes.headD 0)).toNat 64) [] id) ∧
    (∃ s i p, GroupIssues s { sw := false, x := some (r 2), guarded := false, low := true, t := [0] } i ∧ tileBusy i.g [0] [] = false ∧
      accessAt i (fun _ => xVal i (i.lanes.headD 0)) (tstBytes i 0 2).length (tstBytes i 0 2).length 0 = some p ∧
      roomFor i [] (lineInputs (xVal i (i.lanes.headD 0)).toNat (tstBytes i 0 2).length) (fun c => chunkStore c p (tstBytes i 0 2))) ∧
    (∃ ins s i r0 c c1 c2, TldtOp ins false 1#6 (r 2) 0#4 1 32 ∧
      GroupIssues s { sw := false, x := some (r 2), guarded := false, low := true, t := [0], v := [1] } i ∧ tileBusy i.g [0] [] = false ∧
      handleShape i (xVal i (i.lanes.headD 0)) = some r0 ∧ r0.space = 0 ∧ r0.dims.getD 2 1 = 1 ∧ r0.dims.getD 3 1 = 1 ∧ r0.type ≤ 3 ∧
      blockCells r0 32 0 0 ≠ [] ∧ (∀ e ∈ blockCells r0 32 0 0, (accessAt i (fun _ => BitVec.ofNat 32 e.2) 1 1 0).isSome) ∧
      i.g.cur = some c ∧ enterAccess c [slotInput ((xVal i (i.lanes.headD 0)).toNat / 2 ^ 20)] [] = some c1 ∧
      enterAccess c1 ((blockCells r0 32 0 0).flatMap (fun e => lineInputs e.2 1)) [] = some c2 ∧ segmentsFit i.s i.l i.g c2 i.gid = true) ∧
    (∃ s i, GroupIssues s { sw := false, x := some (r 2), guarded := false, a := [15] } i ∧ tileBusy i.g [] [15] = false ∧
      failing i (xVal i) 16 16 = [] ∧ passing i (xVal i) 16 16 ≠ [] ∧
      roomFor i (linesAt (xVal i) 16 ((passing i (xVal i) 16 16).map (·.1))) [] id) := by
  refine ⟨⟨_, _, 0, issues (g := group) (t := team) (l := launch) rfl rfl (by decide +kernel), by decide +kernel, by decide +kernel, room (by decide +kernel)⟩,
    ⟨_, _, 0, issues (g := group) (t := team) (l := launch) rfl rfl (by decide +kernel), by decide +kernel, by decide +kernel, room (by decide +kernel)⟩,
    ⟨_, _, 0, issues (g := group) (t := team) (l := launch) rfl rfl (by decide +kernel), by decide +kernel, by decide +kernel, room (by decide +kernel)⟩,
    ?_,
    ⟨_, _, issues (g := withXY (lastLine + 48#32) 0#32) (t := team) (l := launch) rfl rfl (by decide +kernel), by decide +kernel, by decide +kernel, by decide +kernel,
      room (by decide +kernel)⟩⟩
  obtain ⟨c, c1, c2, h0, h1, h2, h3⟩ := twoRooms
    (i := issueIn handleState 3 0 { sw := false, x := some (r 2), guarded := false, low := true, t := [0], v := [1] } (withXY 0x00100001#32 1#32) team launch)
    (a := [slotInput 1]) (b := [0]) (by decide +kernel)
  exact ⟨_, _, _, oneByte, c, c1, c2, .tldt8 .., handleIssue (by decide +kernel), by decide +kernel, by decide +kernel, rfl, rfl, rfl, by decide,
    by decide +kernel, by decide +kernel, h0, h1, h2, h3⟩

/-- The device whose group issues a word of a run that names auxiliary register v5 (03 R68). -/
def scaledState : State := { base with issue := { actor := .group 3 0, hints := { mod := some (0#3, false, 7#3, 5#6) } } }

theorem witness_MmaAccumulatesActiveElements :
    (∃ s i, GroupIssues s { sw := false, v := [63], u := [31], t := [15], a := [15], pr := [7], ur := [30, 31], guarded := false } i ∧
      (liveLanes i.g.regs).all (fun l => i.lanes.contains l) = true ∧ tileBusy i.g [15] [15] = false) ∧
    (∃ s i, s.issue.hints = scaledState.issue.hints ∧
      GroupIssues s { sw := false, v := [63], u := [31], t := [14, 15], a := [15], pr := [7], ur := [30, 31], guarded := false,
                      illegal := (auxField s.issue.hints).isNone } i ∧
      (liveLanes i.g.regs).all (fun l => i.lanes.contains l) = true ∧ tileBusy i.g [14, 15] [15] = false) :=
  ⟨⟨_, _, issues (g := group) (t := team) (l := launch) rfl rfl (by decide +kernel), by decide +kernel⟩,
   ⟨scaledState, _, rfl, issuesAt (s := scaledState) (g := group) (t := team) (l := launch) rfl rfl (by decide +kernel), by decide +kernel⟩⟩

theorem witness_EngineControlEntersTheChunk :
    (∃ ins u words s i, ForkOp ins false (r 2) u words ∧ GroupIssues s { sw := false, x := some (r 2), low := true } i ∧ setReady i ∧
      i.act ≠ [] ∧ (xVal i (i.act.headD 0)).toNat % 4 = 0 ∧ (xVal i (i.act.headD 0)).toNat < 4 * (words i).length) ∧
    (∃ s i, GroupIssues s { sw := false } i ∧ setReady i ∧ i.act ≠ []) ∧
    (∃ s i, GroupIssues s { sw := false, y := some (pairSrc 31#5 .plain), pairY := true, low := true } i ∧ i.act ≠ [] ∧
      signatureRoom i [] [engineInput i.t (coreIndex i.g i.t) 3 31]) ∧
    (∃ s i, GroupIssues s { sw := false, v := [63] } i ∧ i.act ≠ [] ∧ signatureRoom i [engineInput i.t (coreIndex i.g i.t) 0 0] []) ∧
    (∃ s i p e, GroupIssues s { sw := false, x := some (r 2), y := some (r 3), v := [1], low := true } i ∧ i.act ≠ [] ∧
      accessAt i (fun _ => xVal i (i.act.headD 0)) 64 64 0 = some p ∧
      (parseShape (seenBytes i p 64)).bind (fun sh => (hloadSlot i (yVal i (i.act.headD 0)).toNat).map (fun n => (sh, n))) = some e ∧
      signatureRoom i (lineInputs (xVal i (i.act.headD 0)).toNat 64 ++ [slotInput (yVal i (i.act.headD 0)).toNat])
        [slotInput (yVal i (i.act.headD 0)).toNat]) ∧
    (∃ s i p, GroupIssues s { sw := false, x := some (r 2), y := some (r 3), v := [1], low := true } i ∧ i.act ≠ [] ∧
      accessAt i (fun _ => xVal i (i.act.headD 0)) 64 64 0 = some p ∧ (yVal i (i.act.headD 0)).toNat = 4096 ∧
      (parseShape (seenBytes i p 64)).bind (fun sh => (hloadSlot i (yVal i (i.act.headD 0)).toNat).map (fun n => (sh, n))) = none ∧
      signatureRoom i (lineInputs (xVal i (i.act.headD 0)).toNat 64 ++ []) []) ∧
    (∃ s i sh, GroupIssues s { sw := false, x := some (r 2), low := true } i ∧ i.act ≠ [] ∧
      handleShape i (xVal i (i.act.headD 0)) = some sh ∧ signatureRoom i [slotInput 1] [slotInput 1]) := by
  refine ⟨⟨_, _, _, _, _, .forkl false 1#1 (r 2), issues (g := group) (t := team) (l := launch) rfl rfl (by decide +kernel), ready (by decide +kernel),
      by decide +kernel⟩,
    ⟨_, _, issues (g := group) (t := team) (l := launch) rfl rfl (by decide +kernel), ready (by decide +kernel), by decide +kernel⟩,
    ⟨_, _, issues (g := group) (t := team) (l := launch) rfl rfl (by decide +kernel), by decide +kernel, sigRoom (by decide +kernel)⟩,
    ⟨_, _, issues (g := group) (t := team) (l := launch) rfl rfl (by decide +kernel), by decide +kernel, sigRoom (by decide +kernel)⟩,
    ⟨_, _, 0, (oneByte, 1), bytesIssue (a := 0#32) (b := 1#32) (m := [(1, 1#8), (4, 1#8), (8, 1#8), (12, 1#8), (16, 1#8)]) (by decide +kernel),
      by decide +kernel, by decide +kernel, by decide +kernel, sigRoom (by decide +kernel)⟩,
    ⟨_, _, 0, issues (g := withXY 0#32 4096#32) (t := team) (l := launch) rfl rfl (by decide +kernel), by decide +kernel, by decide +kernel,
      by decide +kernel, by decide +kernel, sigRoom (by decide +kernel)⟩,
    ⟨_, _, oneByte, handleIssue (by decide +kernel), by decide +kernel, by decide +kernel, sigRoom (by decide +kernel)⟩⟩

/-! ### Witnesses: copy, exchange and lattice programs -/

/-- A program of the team at its first word. -/
def prog (k : ProgKind) (e : Table DWord) (n : Table Word) : Prog :=
  { uid := 9, kind := k, team := 2, group := none, offset := 0, pc := 0, e := e, n := n }

/-- The device in which a unit of core 0 runs a program, its sequencer issuing. -/
def unitState (s : State) (unit : Nat) (p : Prog) : State :=
  { s with engines := [(unit, { run := some p })], issue := { actor := .sequencer 0 unit } }

/-- That program with its team and launch. -/
def seqOf (s : State) (unit : Nat) (p : Prog) : Seq := { s := unitState s unit p, core := 0, unit := unit, p := p, t := team, l := launch }

theorem copyIssue (p : Prog) (h : p.team = 2) : SeqIssues (unitState base 0 p) false (seqOf base 0 p) := by
  refine ⟨rfl, Nat.le_of_ble_eq_true rfl, rfl, ?_⟩
  simp [seqAt, engineAt, anyTeam, unitState, tgetD, tget, h, base, stateOf, team, probeTeam, seqOf]

theorem latIssue (p : Prog) (h : p.team = 2) : SeqIssues (unitState base 4 p) true (seqOf base 4 p) := by
  refine ⟨rfl, Nat.le_of_ble_eq_true rfl, rfl, ?_⟩
  simp [seqAt, engineAt, anyTeam, unitState, tgetD, tget, h, base, stateOf, team, probeTeam, seqOf]

theorem witness_SequencerArithmeticAndLoops :
    (∃ ins val s q, XaluOp ins 31#5 val ∧ SeqIssues s false q) ∧
    (∃ ins val s q, LaluOp ins 15#4 val ∧ SeqIssues s true q) ∧
    (∃ s q, SeqIssues s false q ∧ q.p.loops.length = 3) ∧ (∃ s q, SeqIssues s true q ∧ q.p.loops.length = 4) ∧
    (∃ s q top rest, SeqIssues s false q ∧ q.p.loops = top :: rest ∧ eNum q 0#5 = 2) ∧
    (∃ s q top rest, SeqIssues s true q ∧ q.p.loops = top :: rest ∧ nNum q 0#4 = 1) ∧
    (∃ s q, SeqIssues s false q ∧ q.p.loops = []) :=
  ⟨⟨_, _, _, _, .shl false 31#5 63#12 (by decide), copyIssue (prog .copy [] []) rfl⟩,
   ⟨_, _, _, _, .add false 15#4 0#4, latIssue (prog .lattice [] []) rfl⟩,
   ⟨_, _, copyIssue { prog .copy [] [] with loops := [4, 4, 4] } rfl, rfl⟩,
   ⟨_, _, latIssue { prog .lattice [] [] with loops := [4, 4, 4, 4] } rfl, rfl⟩,
   ⟨_, _, _, _, copyIssue { prog .copy [(0, 2#64)] [] with loops := [4] } rfl, rfl, by decide +kernel⟩,
   ⟨_, _, _, _, latIssue { prog .lattice [] [(0, 1#32)] with loops := [4] } rfl, rfl, by decide +kernel⟩,
   ⟨_, _, copyIssue (prog .copy [] []) rfl, rfl⟩⟩

/-- Four bytes in a column, whose transposing copy is four bytes long. -/
def fourBytes : Shape := { oneByte with dims := [4, 1, 1, 1], strides := [1, 0, 0, 0], base := 64 }

def latCfg : LatCfg := { replay := false, order := 0, ncol := 1, beta := 0, smax := 65535, perm := [0] }

/-- The device with a handle slot for that record and a lattice of the team. -/
def rich : State :=
  { base with parts := [(0, { part with slots := [(1, { owner := some 2, gen := 1, shape := some fourBytes })] })],
              lattices := [(0, { owner := some 2, cfg := some latCfg })] }

theorem richIssue (u : Nat) (hu : u < 4) (s : State) (p : Prog) (h : p.team = 2) (ht : s.teams = base.teams) (hl : s.launches = base.launches) :
    SeqIssues (unitState s u p) false (seqOf s u p) := by
  refine ⟨rfl, by simp only [seqOf]; omega, decide_eq_true hu, ?_⟩
  simp [seqAt, engineAt, anyTeam, unitState, tgetD, tget, h, ht, hl, base, stateOf, team, probeTeam, seqOf]

theorem latticeIssue (s : State) (p : Prog) (h : p.team = 2) (ht : s.teams = base.teams) (hl : s.launches = base.launches) :
    SeqIssues (unitState s 4 p) true (seqOf s 4 p) := by
  refine ⟨rfl, Nat.le_of_ble_eq_true rfl, rfl, ?_⟩
  simp [seqAt, engineAt, anyTeam, unitState, tgetD, tget, h, ht, hl, base, stateOf, team, probeTeam, seqOf]

/-- An exchange program on queue 0 whose e0, e1, e2 and e3 hold these. -/
def exchange (a b c d : Nat) : Prog := prog .exchange [(0, BitVec.ofNat 64 a), (1, BitVec.ofNat 64 b), (2, BitVec.ofNat 64 c), (3, BitVec.ofNat 64 d)] []

theorem witness_ExchangeTransfersEnterTheExchange :
    (∃ ins kd kx nd nx s q n pd px ws, CopyOp ins 0#5 1#5 2#5 kd kx nd nx ∧ SeqIssues s false q ∧ q.exch = true ∧
      (tget s.parts q.l.part).isSome ∧ TransferFits q kd kx 0#5 1#5 2#5 nd nx 1 0 n pd px ∧ exchangeWords q px (n / 4) = some ws) ∧
    (∃ s q n pd px ws, SeqIssues s false q ∧ q.exch = true ∧ (tget s.parts q.l.part).isSome ∧
      TransferFits q .glob .loc 0#5 1#5 2#5 2 0 1 0 n pd px ∧ exchangeWords q px (n / 4) = some ws) ∧
    (∃ s q sh pd, SeqIssues s false q ∧ q.exch = true ∧ (tget s.parts q.l.part).isSome ∧ refForm .loc (ereg q 0) = true ∧
      (ereg q 1).toNat < 2 ^ 32 ∧ engineShape q (ereg q 1).toNat = some sh ∧ sh.space = 0 ∧ (sh.dims.drop 2).all (fun k => k == 1) = true ∧
      elemSize sh.type ≤ 2 ∧ sh.type ≠ 8 ∧ locate q (refCluster (ereg q 0)) (refAddr (ereg q 0)) (sh.dims.getD 1 1 * sh.dims.getD 0 1 * elemSize sh.type) = some pd ∧
      ((transposed sh).filterMap (fun a => if a < 0 then none else locate q q.t.logicalCluster a.toNat (elemSize sh.type))).length = (transposed sh).length ∧
      lenFits (sh.dims.getD 1 1 * sh.dims.getD 0 1 * elemSize sh.type) = true) ∧
    (∃ s q n pd px ws, SeqIssues s false q ∧ q.exch = true ∧ (tget s.parts q.l.part).isSome ∧
      TransferFits q .glob .loc 0#5 1#5 2#5 4 0 12 11 n pd px ∧ exchangeWords q px (n / 4) = some ws) ∧
    (∃ s q size n pl gs, ∃ ws : List (List Word), SeqIssues s false q ∧ q.exch = true ∧ (tget s.parts q.l.part).isSome ∧
      elementRefs q (ereg q 0) (ereg q 1) 2 3 = .ok (size, n, pl, gs) ∧
      gs.map (fun g => exchangeWords q (.glob g) (size / 4)) = ws.map some) ∧
    (∃ s q size n pl gs ws, SeqIssues s false q ∧ q.exch = true ∧ (tget s.parts q.l.part).isSome ∧
      elementRefs q (ereg q 1) (ereg q 0) 2 2 = .ok (size, n, pl, gs) ∧ exchangeWords q (.loc pl) (n * size / 4) = some ws) ∧
    (∃ s q mask n g, ∃ ps : List Nat, ∃ ws, SeqIssues s false q ∧ q.exch = true ∧ (tget s.parts q.l.part).isSome ∧
      controlWord (ereg q 2) = some (mask, n) ∧ mask ≠ 0 ∧ eNum q 0#5 < 2 ^ 32 ∧ refForm .loc (ereg q 0) = true ∧
      refForm .glob (ereg q 1) = true ∧ n ≠ 0 ∧ lenFits n = true ∧ placeOf q .glob (ereg q 1) n 3 = some g ∧
      ((upto 16).filter (fun c => mask / 2 ^ c % 2 = 1)).map (fun c => locate q c (refAddr (ereg q 0)) n) = ps.map some ∧
      exchangeWords q g (n / 4) = some ws) ∧
    (∃ s q n ld ls, SeqIssues s false q ∧ q.exch = true ∧ (tget s.parts q.l.part).isSome ∧ controlWord (ereg q 2) = some (0, n) ∧
      nodeForm (eNum q 0#5) = true ∧ nodeForm (eNum q 1#5) = true ∧ n ≠ 0 ∧ eNum q 1#5 % 2 ^ 13 + n = Config.nodes ∧
      eNum q 0#5 % 2 ^ 13 + n = 256 ∧ nodeRef q (eNum q 0#5) = some ld ∧ nodeRef q (eNum q 1#5) = some ls) :=
  ⟨⟨_, _, _, _, _, _, _, 4, .loc 0, .glob 0x100000FFC, [0#32], .xget false _ _ _, richIssue 0 (by decide) rich (exchange 0 0xFFC 4 0) rfl rfl rfl, rfl, by decide +kernel,
      ⟨by decide +kernel, by decide, by decide +kernel, by decide, by decide, by decide +kernel, by decide +kernel⟩, by decide +kernel⟩,
   ⟨_, _, 4, .glob 0x100000000, .loc 64, [0#32], richIssue 0 (by decide) rich (exchange 0 64 4 0) rfl rfl rfl, rfl, by decide +kernel,
      ⟨by decide +kernel, by decide, by decide +kernel, by decide, by decide, by decide +kernel, by decide +kernel⟩, by decide +kernel⟩,
   ⟨_, _, fourBytes, 0, richIssue 0 (by decide) rich (exchange 0 0x00100001 0 0) rfl rfl rfl, rfl, by decide +kernel⟩,
   ⟨_, _, 4, .glob 0x100000000, .loc 64, [0#32], richIssue 0 (by decide) rich (exchange 0 64 (11 * 2 ^ 32 + 4) 0) rfl rfl rfl, rfl, by decide +kernel,
      ⟨by decide +kernel, by decide, by decide +kernel, by decide, by decide, by decide +kernel, by decide +kernel⟩, by decide +kernel⟩,
   ⟨_, _, 4, 1, 0, [0x100000000], [[0#32]], richIssue 0 (by decide) rich (exchange 0 0 (2 * 2 ^ 32 + 1) 64) rfl rfl rfl, rfl, by decide +kernel, rfl, by decide +kernel⟩,
   ⟨_, _, 8, 1, 0, [0x100000000], [0#32, 0#32], richIssue 0 (by decide) rich (exchange 0 0 (3 * 2 ^ 32 + 1) 64) rfl rfl rfl, rfl, by decide +kernel, rfl, by decide +kernel⟩,
   ⟨_, _, 1, 4, .glob 0x100000000, [0], [0#32], richIssue 0 (by decide) rich (exchange 0 0 (2 ^ 32 + 4) 0) rfl rfl rfl, rfl, by decide +kernel, by decide +kernel,
      by decide, by decide +kernel, by decide +kernel, by decide +kernel, by decide, by decide, by decide +kernel⟩,
   ⟨_, _, 1, 0, 0, richIssue 0 (by decide) rich (exchange 255 4095 1 0) rfl rfl rfl, rfl, by decide +kernel, by decide +kernel, by decide +kernel, by decide +kernel,
      by decide, by decide +kernel⟩⟩

/-- The same program in a compute phase. -/
def copying (a b c d : Nat) : Prog := { exchange a b c d with kind := .copy }

/-- The device whose port 0 has its stop signal up. -/
def stopped : State := { rich with dev := { rich.dev with portStop := [0] } }

/-- The device whose cluster 0 has counter 0 at 5. -/
def counted : State := { rich with clusters := [(0, { counters := [(0, 5#32)] })] }

/-- Queue 0 with a program, and queue 1 of the same core with one too. -/
def twoQueues (p : Prog) : State :=
  { unitState rich 0 p with engines := [(0, { run := some p }), (1, { run := some (copying 0 0 0 0) })] }

theorem twoIssue (p : Prog) (h : p.team = 2) :
    SeqIssues (twoQueues p) false { s := twoQueues p, core := 0, unit := 0, p := p, t := team, l := launch } := by
  refine ⟨rfl, Nat.le_of_ble_eq_true rfl, rfl, ?_⟩
  simp [seqAt, engineAt, anyTeam, twoQueues, unitState, tgetD, tget, h, rich, base, stateOf, team, probeTeam]

theorem witness_SequencerChunksSignalsAndFabric :
    (∃ s q n a b, SeqIssues s false q ∧ q.exch = false ∧ TransferFits q .loc .loc 0#5 1#5 2#5 0 0 1 0 n (.loc a) (.loc b) ∧
      reservedIn s a n = none ∧ reservedIn s b n = none) ∧
    (∃ s q sh pd, SeqIssues s false q ∧ q.exch = false ∧ refForm .loc (ereg q 0) = true ∧
      (ereg q 1).toNat < 2 ^ 32 ∧ engineShape q (ereg q 1).toNat = some sh ∧ sh.space = 0 ∧ (sh.dims.drop 2).all (fun k => k == 1) = true ∧
      elemSize sh.type ≤ 2 ∧ sh.type ≠ 8 ∧ locate q (refCluster (ereg q 0)) (refAddr (ereg q 0)) (sh.dims.getD 1 1 * sh.dims.getD 0 1 * elemSize sh.type) = some pd ∧
      (let srcs := (transposed sh).filterMap (fun a => if a < 0 then none else locate q q.t.logicalCluster a.toNat (elemSize sh.type))
       srcs.length = (transposed sh).length ∧ ∀ a ∈ srcs, reservedIn s a (elemSize sh.type) = none) ∧
      lenFits (sh.dims.getD 1 1 * sh.dims.getD 0 1 * elemSize sh.type) = true ∧
      reservedIn s pd (sh.dims.getD 1 1 * sh.dims.getD 0 1 * elemSize sh.type) = none) ∧
    (∃ s q n px ws, SeqIssues s false q ∧ q.exch = true ∧ controlWord (ereg q 2) = some (0, n) ∧ eNum q 0#5 < 2 ^ 62 ∧ eNum q 0#5 % 4 = 0 ∧
      refForm .loc (ereg q 1) = true ∧ n ≠ 0 ∧ lenFits n = true ∧ placeOf q .loc (ereg q 1) n 0 = some px ∧ livePorts q ≠ [] ∧
      exchangeWords q px (n / 4) = some ws ∧ ∀ k ∈ livePorts q, k ∉ s.dev.portStop) ∧
    (∃ s q n px ws, SeqIssues s false q ∧ q.exch = true ∧ controlWord (ereg q 2) = some (0, n) ∧ eNum q 0#5 < 2 ^ 62 ∧ eNum q 0#5 % 4 = 0 ∧
      refForm .loc (ereg q 1) = true ∧ n ≠ 0 ∧ lenFits n = true ∧ placeOf q .loc (ereg q 1) n 0 = some px ∧
      exchangeWords q px (n / 4) = some ws ∧ ∃ k ∈ livePorts q, k ∈ s.dev.portStop) ∧
    (∃ s q core, SeqIssues s false q ∧ eNum q 0#5 < 2 ^ 12 ∧
      (clusterNamed q (eNum q 0#5 / 2 ^ 8)).bind (fun c => physicalCore s c (eNum q 0#5 / 2 ^ 2 % 64)) = some core ∧
      core * 8 + eNum q 0#5 % 4 = q.key ∧ q.exch = true ∧ (tget s.parts q.l.part).isSome) ∧
    (∃ s q core, SeqIssues s false q ∧ eNum q 0#5 < 2 ^ 12 ∧
      (clusterNamed q (eNum q 0#5 / 2 ^ 8)).bind (fun c => physicalCore s c (eNum q 0#5 / 2 ^ 2 % 64)) = some core ∧
      core * 8 + eNum q 0#5 % 4 ≠ q.key ∧ (engineAt s core (eNum q 0#5 % 4)).run.isSome = true) ∧
    (∃ s q core, SeqIssues s false q ∧ eNum q 0#5 < 2 ^ 12 ∧
      (clusterNamed q (eNum q 0#5 / 2 ^ 8)).bind (fun c => physicalCore s c (eNum q 0#5 / 2 ^ 2 % 64)) = some core ∧
      engineAt s core (eNum q 0#5 % 4) = {} ∧ q.exch = false) ∧
    (∃ s q c k post, SeqIssues s false q ∧ counterRef q (eNum q 0#5) = .ok (c, k, post)) ∧
    (∃ s q c k, SeqIssues s false q ∧ counterRef q (eNum q 0#5) = .ok (c, k, false) ∧
      decide (eNum q 1#5 % 2 ^ 32 ≤ (tgetD (clusterAt s c).counters k 0#32).toNat) = true ∧ q.exch = true ∧ (tget s.parts q.l.part).isSome) ∧
    (∃ s q c k, SeqIssues s false q ∧ counterRef q (eNum q 0#5) = .ok (c, k, false) ∧
      decide (eNum q 1#5 % 2 ^ 32 ≤ (tgetD (clusterAt s c).counters k 0#32).toNat) = false) :=
  ⟨⟨_, _, 4, 0, 64, richIssue 0 (by decide) rich (copying 0 64 4 0) rfl rfl rfl, rfl,
      ⟨by decide +kernel, by decide, by decide +kernel, by decide, by decide, by decide +kernel, by decide +kernel⟩, by decide +kernel⟩,
   ⟨_, _, fourBytes, 0, richIssue 0 (by decide) rich (copying 0 0x00100001 0 0) rfl rfl rfl, rfl, by decide +kernel⟩,
   ⟨_, _, 4, .loc 64, [0#32], richIssue 0 (by decide) rich (exchange (2 ^ 62 - 4) 64 4 0) rfl rfl rfl, rfl, by decide +kernel, by decide +kernel, by decide +kernel,
      by decide +kernel, by decide, by decide, by decide +kernel⟩,
   ⟨_, _, 4, .loc 64, [0#32], richIssue 0 (by decide) stopped (exchange 0 64 4 0) rfl rfl rfl, rfl, by decide +kernel, by decide +kernel, by decide +kernel,
      by decide +kernel, by decide, by decide, by decide +kernel⟩,
   ⟨_, _, 0, richIssue 0 (by decide) rich (exchange 0 0 0 0) rfl rfl rfl, by decide +kernel, by decide +kernel, by decide +kernel, rfl, by decide +kernel⟩,
   ⟨_, _, 0, twoIssue (copying 1 0 0 0) rfl, by decide +kernel⟩,
   ⟨_, _, 63, richIssue 0 (by decide) rich (copying 255 0 0 0) rfl rfl rfl, by decide +kernel, by decide +kernel, by decide +kernel, rfl⟩,
   ⟨_, _, 0, 63, true, richIssue 0 (by decide) rich (copying (2 ^ 16 + 63) 0 0 0) rfl rfl rfl, rfl⟩,
   ⟨_, _, 0, 0, richIssue 0 (by decide) counted (exchange 0 5 0 0) rfl rfl rfl, rfl, by decide +kernel, rfl, by decide +kernel⟩,
   ⟨_, _, 0, 0, richIssue 0 (by decide) counted (copying 0 6 0 0) rfl rfl rfl, rfl, by decide +kernel⟩⟩

/-- A lattice program whose n0, n1 and n2 hold these. -/
def sweeping (a b c : Nat) : Prog := prog .lattice [] [(0, BitVec.ofNat 32 a), (1, BitVec.ofNat 32 b), (2, BitVec.ofNat 32 c)]

theorem witness_LatticeWordsLoadStoreAndSweep :
    (∃ ins fn bytes s q p, ParamLatOp ins 0#4 fn bytes ∧ SeqIssues s true q ∧ operandAt q (nreg q 0) bytes 4 = .ok p) ∧
    (∃ ins fn limit bits bytes s q, LoadLatOp ins 0#4 1#4 2#4 fn limit bits bytes ∧ SeqIssues s true q ∧ nNum q 0#4 = 0) ∧
    (∃ ins fn limit bits bytes s q p, LoadLatOp ins 0#4 1#4 2#4 fn limit bits bytes ∧ SeqIssues s true q ∧ nNum q 0#4 ≠ 0 ∧
      nNum q 2#4 + nNum q 0#4 = limit ∧ (bits = true → nNum q 2#4 % 32 = 0 ∧ nNum q 0#4 % 32 = 0) ∧
      operandAt q (nreg q 1) (bytes (nNum q 0#4)) 4 = .ok p) ∧
    (∃ ins bits bytes s q p, StoreLatOp ins 0#4 1#4 2#4 bits bytes ∧ SeqIssues s true q ∧ nNum q 0#4 ≠ 0 ∧
      nNum q 2#4 + nNum q 0#4 = Config.nodes ∧ (bits = true → nNum q 2#4 % 32 = 0 ∧ nNum q 0#4 % 32 = 0) ∧
      operandAt q (nreg q 1) (bytes q (nNum q 2#4) (nNum q 0#4)).length 4 = .ok p) ∧
    (∃ s q, SeqIssues s true q) ∧
    (∃ s q c, SeqIssues s true q ∧ (ownLattice q).2.cfg = some c ∧ (c.replay = true ∨ q.core * 2 + (ownLattice q).1 ∉ s.biased) ∧ nNum q 1#4 = 0) ∧
    (∃ s q c, SeqIssues s true q ∧ (ownLattice q).2.cfg = some c ∧ (c.replay = true ∨ q.core * 2 + (ownLattice q).1 ∉ s.biased) ∧ nNum q 1#4 ≠ 0) ∧
    (∃ s q, SeqIssues s true q ∧ (ownLattice q).2.cfg = none) ∧
    (∃ s q c, SeqIssues s true q ∧ (ownLattice q).2.cfg = some c ∧ c.replay = false ∧ q.core * 2 + (ownLattice q).1 ∈ s.biased) ∧
    (∃ s q p, SeqIssues s true q ∧ nNum q 1#4 / 2 ^ 13 % 8 = 0 ∧ nNum q 1#4 % 2 ^ 13 = Config.nodes ∧ operandAt q (nreg q 0) 128 64 = .ok p) :=
  ⟨⟨_, _, _, _, _, 0, .lcfg false 0#4, latticeIssue rich (sweeping 0 0 0) rfl rfl rfl, by decide +kernel⟩,
   ⟨_, _, _, _, _, _, _, .lsld false 0#4 1#4 2#4, latticeIssue rich (sweeping 0 0 1) rfl rfl rfl, by decide +kernel⟩,
   ⟨_, _, _, _, _, _, _, 0, .lclmp false 0#4 1#4 2#4, latticeIssue rich (sweeping 32 0 4064) rfl rfl rfl, by decide +kernel⟩,
   ⟨_, _, _, _, _, 0, .lsst false 0#4 1#4 2#4, latticeIssue rich (sweeping 32 0 4064) rfl rfl rfl, by decide +kernel⟩,
   ⟨_, _, latticeIssue rich (sweeping 0 0 0) rfl rfl rfl⟩,
   ⟨_, _, latCfg, latticeIssue rich (sweeping 0 0 0) rfl rfl rfl, by decide +kernel⟩,
   ⟨_, _, latCfg, latticeIssue rich (sweeping 0 0xFFFFFFFF 0) rfl rfl rfl, by decide +kernel⟩,
   ⟨_, _, latIssue (sweeping 0 0 0) rfl, by decide +kernel⟩,
   ⟨_, _, latCfg, latticeIssue { rich with biased := [0] } (sweeping 0 0 0) rfl rfl rfl, by decide +kernel⟩,
   ⟨_, _, 0, latticeIssue rich (sweeping 0 4096 0) rfl rfl rfl, by decide +kernel⟩⟩

/-! ### Witnesses: words of the class CTL -/

/-- A device whose control core 0 issues, with these registers s2 and s3 and these events. -/
def ctlOn (s : State) (a b : Word) (es : List Event) : State :=
  { setCluster s 0 { ctl := { running := true, base := 0, size := 64, s := [(2, a), (3, b)] }, events := es } with
    issue := { actor := .control 0, pc := 0#32, word := 0x78000000#32, first := 0x78000000#32 } }

theorem ctlWord {s : State} (ha : s.issue.actor = .control 0) (hh : s.issue.hints = {})
    (h : (ctlPred (ctlAt s 0) (predField s.issue.hints 7) && decide (partOf s 0 = some 0)) = true) : CtlIssues s 0 0 := by
  simp only [Bool.and_eq_true, decide_eq_true_eq] at h
  exact ⟨ha, by rw [hh], by rw [hh], h.1, h.2⟩

/-- A launch record at 64 of control memory and its binding block at 128: one thread, queue 0 (07 R137, R138). -/
def recordBytes : List Host.Cell :=
  [(72, 16#8), (73, 8#8), (74, 8#8), (77, 1#8), (80, 64#8), (84, 1#8), (85, 1#8), (88, 1#8), (92, 1#8), (96, 1#8), (100, 16#8), (108, 128#8)] ++
    (upto 16).map (fun k => (112 + k, 255#8))

/-- The device with that record, its queue 0 enabled or not. -/
def launching (on : Bool) : State :=
  { base with parts := [(0, { part with queues := [(0, { enable := on })] })], cmem := recordBytes }

/-- The device whose partition counts one launch accepted and has both time-outs armed, with a late core. -/
def waiting : State := { base with parts := [(0, { part with nextLaunch := 1, stragAt := some 7, exchAt := some 7, late := [0] })] }

def someEvent : Event := { type := 1, source := 0, seq := 0, phase := 0, payload := 0#128 }

/-- The device whose launch has ended and been chained. -/
def endedLaunch : State :=
  { waiting with launches := [(1, { launch with phase := .ended, chained := true, status := 2 })], teams := [], groups := [] }

/-- The device with a session of the partition open. -/
def hosting : State :=
  { base with parts := [(0, { part with session := some 1 })], sessions := [(1, { admin := false, part := 0, peer := 5, port := 6 })] }

theorem witness_ControlWordsAnswer :
    (∃ s p a r b bind l, CtlIssues s 0 0 ∧ tget s.parts 0 = some p ∧ a = ctlReg (ctlAt s 0) 2 ∧ r = mbytes s.cmem a.toNat 64 ∧
      bind = BitVec.ofNat 32 (leNat ((r.drop 44).take 4)) ∧ a.toNat % 64 = 0 ∧ a.toNat + 64 ≤ 2 ^ 20 ∧ bind.toNat % 64 = 0 ∧
      bind.toNat + 320 ≤ 2 ^ 20 ∧ b = mbytes s.cmem bind.toNat 320 ∧ l = parseLaunch 0 p.nextLaunch 0 r b ∧
      launchReject p s.launches 0 true r b l = none) ∧
    (∃ s p a r b bind l, CtlIssues s 0 0 ∧ tget s.parts 0 = some p ∧ a = ctlReg (ctlAt s 0) 2 ∧ r = mbytes s.cmem a.toNat 64 ∧
      bind = BitVec.ofNat 32 (leNat ((r.drop 44).take 4)) ∧ a.toNat % 64 = 0 ∧ a.toNat + 64 ≤ 2 ^ 20 ∧ bind.toNat % 64 = 0 ∧
      bind.toNat + 320 ≤ 2 ^ 20 ∧ b = mbytes s.cmem bind.toNat 320 ∧ l = parseLaunch 0 p.nextLaunch 0 r b ∧
      launchReject p s.launches 0 true r b l = some 0xFFFFFF04#32) ∧
    (∃ s, CtlIssues s 0 0 ∧ (clusterAt s 0).events ≠ []) ∧
    (∃ s, CtlIssues s 0 0 ∧ (clusterAt s 0).events = [] ∧ (ctlAt s 0).wait = .none) ∧
    (∃ s e rest, CtlIssues s 0 0 ∧ (clusterAt s 0).events = e :: rest ∧ cNum s 0 2#6 % 32 = 0 ∧ cNum s 0 2#6 + 32 = 2 ^ 20 ∧
      inCode (ctlAt s 0) (cNum s 0 2#6) 32 = false) ∧
    (∃ s p, CtlIssues s 0 0 ∧ tget s.parts 0 = some p ∧ cNum s 0 2#6 ≠ 2 ^ 32 - 1 ∧ cNum s 0 2#6 ∉ p.clusters) ∧
    (∃ s p, CtlIssues s 0 0 ∧ tget s.parts 0 = some p ∧ cNum s 0 2#6 ∈ p.clusters ∧ (clusterAt s (cNum s 0 2#6)).events.length = 4095) ∧
    (∃ s p, CtlIssues s 0 0 ∧ tget s.parts 0 = some p ∧ cNum s 0 2#6 ∈ p.clusters ∧ (clusterAt s (cNum s 0 2#6)).events.length = 4094) ∧
    (∃ s p sid z, CtlIssues s 0 0 ∧ tget s.parts 0 = some p ∧ cNum s 0 2#6 = 2 ^ 32 - 1 ∧ p.session = some sid ∧ tget s.sessions sid = some z) ∧
    (∃ s p, CtlIssues s 0 0 ∧ tget s.parts 0 = some p ∧ cNum s 0 2#6 = 2 ^ 32 - 1 ∧ ∀ sid, p.session = some sid → tget s.sessions sid = none) ∧
    (∃ s p p', CtlIssues s 0 0 ∧ tget s.parts 0 = some p ∧ configure p (ctlReg (ctlAt s 0) 2) (ctlReg (ctlAt s 0) 3) = some p') ∧
    (∃ s p, CtlIssues s 0 0 ∧ tget s.parts 0 = some p ∧ configure p (ctlReg (ctlAt s 0) 2) (ctlReg (ctlAt s 0) 3) = none) ∧
    (∃ s p, CtlIssues s 0 0 ∧ tget s.parts 0 = some p ∧ (ctlAt s 0).wait = .none ∧ cNum s 0 2#6 = 64) ∧
    (∃ s p, CtlIssues s 0 0 ∧ tget s.parts 0 = some p ∧ (ctlAt s 0).wait = .none ∧ cNum s 0 2#6 ≤ 63 ∧
      ∃ l ∈ launchesBelow s 0 (cNum s 0 2#6) p.nextLaunch, ¬(l.phase = .ended ∧ l.chained = true)) ∧
    (∃ s p, CtlIssues s 0 0 ∧ tget s.parts 0 = some p ∧ (ctlAt s 0).wait = .none ∧ cNum s 0 2#6 ≤ 63 ∧
      launchesBelow s 0 (cNum s 0 2#6) p.nextLaunch ≠ [] ∧
      ∀ l ∈ launchesBelow s 0 (cNum s 0 2#6) p.nextLaunch, l.phase = .ended ∧ l.chained = true) ∧
    (∃ s, CtlIssues s 0 0 ∧ launchNumbered s 0 (cNum s 0 2#6) = none) ∧
    (∃ s lid l, CtlIssues s 0 0 ∧ launchNumbered s 0 (cNum s 0 2#6) = some (lid, l) ∧ l.phase ≠ .ended ∧
      ∃ e ∈ s.teams, e.2.launch = lid ∧ e.2.killed = false) ∧
    (∃ s lid l, CtlIssues s 0 0 ∧ launchNumbered s 0 (cNum s 0 2#6) = some (lid, l) ∧ l.phase = .ended) ∧
    (∃ s p, CtlIssues s 0 0 ∧ tget s.parts 0 = some p ∧ cNum s 0 2#6 = 0 ∧ cNum s 0 3#6 = 1023) ∧
    (∃ s p, CtlIssues s 0 0 ∧ tget s.parts 0 = some p ∧ cNum s 0 2#6 = 1 ∧ cNum s 0 3#6 = 1024) ∧
    (∃ s p, CtlIssues s 0 0 ∧ tget s.parts 0 = some p ∧ cNum s 0 2#6 = 2 ∧ due p.stragAt s.cycle = false ∧ cNum s 0 3#6 ≠ 0) ∧
    (∃ s p, CtlIssues s 0 0 ∧ tget s.parts 0 = some p ∧ cNum s 0 2#6 = 3 ∧ due p.exchAt s.cycle = false ∧ cNum s 0 3#6 ≠ 0) ∧
    (∃ s p, CtlIssues s 0 0 ∧ tget s.parts 0 = some p ∧ cNum s 0 2#6 = 4) := by
  refine ⟨⟨ctlOn (launching true) 64#32 0#32 [], _, 64#32, _, _, 128#32, _, ctlWord rfl rfl (by decide +kernel), rfl, by decide +kernel, rfl, by decide +kernel, by decide,
      by decide, by decide, by decide, rfl, rfl, by decide +kernel⟩,
    ⟨ctlOn (launching false) 64#32 0#32 [], _, 64#32, _, _, 128#32, _, ctlWord rfl rfl (by decide +kernel), rfl, by decide +kernel, rfl, by decide +kernel, by decide,
      by decide, by decide, by decide, rfl, rfl, by decide +kernel⟩,
    ⟨ctlOn base 0#32 0#32 [someEvent], ctlWord rfl rfl (by decide +kernel), by decide +kernel⟩,
    ⟨ctlOn base 0#32 0#32 [], ctlWord rfl rfl (by decide +kernel), by decide +kernel⟩,
    ⟨ctlOn base 0xFFFE0#32 0#32 [someEvent], someEvent, [], ctlWord rfl rfl (by decide +kernel), by decide +kernel⟩,
    ⟨ctlOn base 1#32 0#32 [], part, ctlWord rfl rfl (by decide +kernel), rfl, by decide +kernel⟩,
    ⟨ctlOn base 0#32 0#32 (List.replicate 4095 someEvent), part, ctlWord rfl rfl (by decide +kernel), rfl, by decide +kernel, ?_⟩,
    ⟨ctlOn base 0#32 0#32 (List.replicate 4094 someEvent), part, ctlWord rfl rfl (by decide +kernel), rfl, by decide +kernel, ?_⟩,
    ⟨ctlOn hosting 0xFFFFFFFF#32 0#32 [], _, 1, _, ctlWord rfl rfl (by decide +kernel), rfl, by decide +kernel, rfl, rfl⟩,
    ⟨ctlOn base 0xFFFFFFFF#32 0#32 [], part, ctlWord rfl rfl (by decide +kernel), rfl, by decide +kernel, nofun⟩,
    ⟨ctlOn base 259#32 255#32 [], part, _, ctlWord rfl rfl (by decide +kernel), rfl, rfl⟩,
    ⟨ctlOn base 260#32 0#32 [], part, ctlWord rfl rfl (by decide +kernel), rfl, by decide +kernel⟩,
    ⟨ctlOn base 64#32 0#32 [], part, ctlWord rfl rfl (by decide +kernel), rfl, by decide +kernel⟩,
    ⟨ctlOn waiting 0#32 0#32 [], _, ctlWord rfl rfl (by decide +kernel), rfl, by decide +kernel⟩,
    ⟨ctlOn endedLaunch 0#32 0#32 [], _, ctlWord rfl rfl (by decide +kernel), rfl, by decide +kernel⟩,
    ⟨ctlOn base 1#32 0#32 [], ctlWord rfl rfl (by decide +kernel), by decide +kernel⟩,
    ⟨ctlOn base 0#32 0#32 [], 1, launch, ctlWord rfl rfl (by decide +kernel), by decide +kernel⟩,
    ⟨ctlOn endedLaunch 0#32 0#32 [], 1, _, ctlWord rfl rfl (by decide +kernel), rfl, by decide +kernel⟩,
    ⟨ctlOn base 0#32 1023#32 [], part, ctlWord rfl rfl (by decide +kernel), rfl, by decide +kernel⟩,
    ⟨ctlOn base 1#32 1024#32 [], part, ctlWord rfl rfl (by decide +kernel), rfl, by decide +kernel⟩,
    ⟨ctlOn waiting 2#32 1#32 [], _, ctlWord rfl rfl (by decide +kernel), rfl, by decide +kernel⟩,
    ⟨ctlOn base 3#32 1#32 [], part, ctlWord rfl rfl (by decide +kernel), rfl, by decide +kernel⟩,
    ⟨ctlOn base 4#32 0#32 [], part, ctlWord rfl rfl (by decide +kernel), rfl, by decide +kernel⟩⟩
  · exact List.length_replicate
  · exact List.length_replicate

/-- The device with a checkpoint descriptor at 64 of control memory (23 R418) and the checkpoint at a phase. -/
def ckptState (phase : Nat) : State :=
  { base with parts := [(0, { part with ckpt := { phase := phase } })], cmem := [(81, 16#8)] }

/-- The same with its launch ended. -/
def quiet (phase : Nat) : State := { ckptState phase with launches := [(1, { launch with phase := .ended })], teams := [], groups := [] }

/-- A CKPT of mode m while the checkpoint is at phase k. -/
def CkptCase (k : Nat) (m : Word) : Prop :=
  ∃ s p, CtlIssues s 0 0 ∧ tget s.parts 0 = some p ∧ p.ckpt.phase = k ∧ (ctlAt s 0).wait = .none ∧ cNum s 0 2#6 = 64 ∧
    cNum s 0 3#6 = m.toNat ∧ descFits (mbytes s.cmem (cNum s 0 2#6) 64) = true

/-- A start with none and with one under way, waits and polls at each phase. -/
def ckptCases : List (Nat × Word) := [(0, 0#32), (2, 0#32), (0, 1#32), (3, 2#32), (4, 1#32), (1, 2#32), (2, 1#32)]

/-- The decidable part of a case. -/
def ckptCheck (e : Nat × Word) : Bool :=
  let s := ctlOn (ckptState e.1) 64#32 e.2 []
  ctlPred (ctlAt s 0) 7 && decide (partOf s 0 = some 0) && decide (cNum s 0 2#6 = 64) && decide (cNum s 0 3#6 = e.2.toNat) &&
    descFits (mbytes s.cmem (cNum s 0 2#6) 64)

theorem ckptCase {e : Nat × Word} (h : ckptCheck e = true) : CkptCase e.1 e.2 := by
  simp only [ckptCheck, Bool.and_eq_true, decide_eq_true_eq] at h
  obtain ⟨⟨⟨⟨h1, h2⟩, h3⟩, h4⟩, h5⟩ := h
  exact ⟨_, _, ⟨rfl, rfl, rfl, h1, h2⟩, rfl, rfl, rfl, h3, h4, h5⟩

theorem ckptChecks : ckptCases.all ckptCheck = true := by decide +kernel

theorem witness_CheckpointWordsAnswerOrWait :
    (∃ s p, CtlIssues s 0 0 ∧ tget s.parts 0 = some p ∧ (ctlAt s 0).wait = .none ∧ cNum s 0 2#6 % 64 = 0 ∧ cNum s 0 2#6 + 64 ≤ 2 ^ 20 ∧
      cNum s 0 3#6 = 3 ∧ descFits (mbytes s.cmem (cNum s 0 2#6) 64) = true) ∧
    (∃ s p, CtlIssues s 0 0 ∧ tget s.parts 0 = some p ∧ (ctlAt s 0).wait = .none ∧ cNum s 0 2#6 % 64 = 0 ∧ cNum s 0 2#6 + 64 = 2 ^ 20 ∧
      descFits (mbytes s.cmem (cNum s 0 2#6) 64) = false) ∧
    (∀ e ∈ ckptCases, CkptCase e.1 e.2) ∧
    (∃ s p, CtlIssues s 0 0 ∧ tget s.parts 0 = some p ∧ (ctlAt s 0).wait = .none ∧ descFits (mbytes s.cmem (cNum s 0 2#6) 64) = true ∧
      p.ckpt.phase = 0 ∧ p.ckpt.restoring = none ∧ ∃ e ∈ s.launches, e.2.part = 0 ∧ e.2.phase ≠ .ended) ∧
    (∃ s p, CtlIssues s 0 0 ∧ tget s.parts 0 = some p ∧ (ctlAt s 0).wait = .none ∧ descFits (mbytes s.cmem (cNum s 0 2#6) 64) = true ∧
      p.ckpt.phase = 3 ∧ p.ckpt.restoring = none ∧ ¬∃ e ∈ s.launches, e.2.part = 0 ∧ e.2.phase ≠ .ended) := by
  refine ⟨⟨ctlOn (ckptState 0) 64#32 3#32 [], _, ctlWord rfl rfl (by decide +kernel), rfl, by decide +kernel⟩,
    ⟨ctlOn (ckptState 0) 0xFFFC0#32 0#32 [], _, ctlWord rfl rfl (by decide +kernel), rfl, by decide +kernel⟩,
    fun e h => ckptCase (List.all_eq_true.mp ckptChecks e h),
    ⟨ctlOn (ckptState 0) 64#32 0#32 [], _, ctlWord rfl rfl (by decide +kernel), rfl, by decide +kernel, by decide +kernel, rfl, rfl, by decide +kernel⟩,
    ⟨ctlOn (quiet 3) 64#32 0#32 [], _, ctlWord rfl rfl (by decide +kernel), rfl, by decide +kernel, by decide +kernel, rfl, rfl, by decide +kernel⟩⟩
theorem witness_KillsAndIllegalWords :
    (∃ s p, CtlIssues s 0 0 ∧ tget s.parts 0 = some p ∧ cNum s 0 3#6 = 2) ∧
    (∃ s p, CtlIssues s 0 0 ∧ tget s.parts 0 = some p ∧ cNum s 0 3#6 ≤ 1 ∧ launchNumbered s 0 (cNum s 0 2#6) = none) ∧
    (∃ s p lid l, CtlIssues s 0 0 ∧ tget s.parts 0 = some p ∧ cNum s 0 3#6 ≤ 1 ∧ launchNumbered s 0 (cNum s 0 2#6) = some (lid, l) ∧ l.phase = .ended) ∧
    (∃ s p lid l, CtlIssues s 0 0 ∧ tget s.parts 0 = some p ∧ cNum s 0 3#6 = 0 ∧ launchNumbered s 0 (cNum s 0 2#6) = some (lid, l) ∧ l.phase ≠ .ended) ∧
    (∃ s p lid l, CtlIssues s 0 0 ∧ tget s.parts 0 = some p ∧ cNum s 0 3#6 = 1 ∧ launchNumbered s 0 (cNum s 0 2#6) = some (lid, l) ∧ l.phase ≠ .ended ∧
      lateTeams s p lid = []) ∧
    (∃ s p lid l, CtlIssues s 0 0 ∧ tget s.parts 0 = some p ∧ cNum s 0 3#6 = 1 ∧ launchNumbered s 0 (cNum s 0 2#6) = some (lid, l) ∧ l.phase ≠ .ended ∧
      lateTeams s p lid ≠ []) ∧
    (∃ s i, GroupIssues s { sw := false } i) ∧ (∃ (s : State) (t : Team), tget s.teams 2 = some t ∧ t.killed = false) ∧
    (∃ (s : State) (g : Group) (t : Team) (l : Launch), s.issue.actor = .group 3 0 ∧ groupTriple s 3 = some (g, t, l) ∧
      (issueIn s 3 0 { sw := false, illegal := true } g t l).lanes ≠ []) ∧
    (∃ s : State, s.issue.actor = .control 0 ∧ s.issue.hints.route = none) ∧ (∃ s q lat, SeqIssues s lat q) :=
  ⟨⟨ctlOn base 0#32 2#32 [], part, ctlWord rfl rfl (by decide +kernel), rfl, by decide +kernel⟩,
   ⟨ctlOn base 1#32 1#32 [], part, ctlWord rfl rfl (by decide +kernel), rfl, by decide +kernel⟩,
   ⟨ctlOn endedLaunch 0#32 0#32 [], _, 1, _, ctlWord rfl rfl (by decide +kernel), rfl, by decide +kernel, rfl, by decide +kernel⟩,
   ⟨ctlOn base 0#32 0#32 [], part, 1, launch, ctlWord rfl rfl (by decide +kernel), rfl, by decide +kernel⟩,
   ⟨ctlOn base 0#32 1#32 [], part, 1, launch, ctlWord rfl rfl (by decide +kernel), rfl, by decide +kernel⟩,
   ⟨ctlOn waiting 0#32 1#32 [], _, 1, launch, ctlWord rfl rfl (by decide +kernel), rfl, by decide +kernel⟩,
   here { sw := false } (by decide +kernel) |>.elim (fun i h => ⟨_, i, h⟩), ⟨base, team, rfl, by decide⟩,
   ⟨base, group, team, launch, rfl, rfl, by decide +kernel⟩, ⟨ctlOn base 0#32 0#32 [], rfl, rfl⟩,
   ⟨_, _, _, copyIssue (prog .copy [] []) rfl⟩⟩

/-! ### Witnesses: events -/

/-- The device frozen by its pin. -/
def frozen : State := { base with dev := { base.dev with frozen := .pin, frz := false } }

/-- The device whose group 3 is this one. -/
def withGroup (g : Group) : State := { base with groups := [(3, g)] }

def withTeam (t : Team) : State := { base with teams := [(2, t)] }

def withPartition (p : Part) : State := { base with parts := [(0, p)] }

/-- An outstanding result for register 1 of a class under a tag. -/
def flight (cls tag : Nat) : Flight := { uid := 5, cls := cls, key := 1, tag := tag, val := 7#32, chunk := 1 }

/-- The group whose register 1 of each class waits under tag 1 for that result. -/
def flying (cls tag : Nat) : Group :=
  let waits : Table Reg := [(1, { tag := 1, pending := true })]
  { group with regs := { group.regs with v := waits, s := waits, p := waits }, flights := [flight cls tag] }

/-- A lane that stands in a wait. -/
def lane (w : Wait) : Group := { group with regs := { lanes := [(0, { status := .live, wait := w })] } }

def waitState (d : Nat) : State :=
  { setCluster base 0 { ctl := { running := true, size := 64, wait := .events 1 (some d) } } with issue := {} }

def binState (d : Nat) : State :=
  { base with cores := [(0, { bins := [(0, { entry := 0#32, recs := [{ team := 2, arg := 0#32, parent := 0, ltid := 1 }], timerAt := some d })] })] }

/-- A replay of a log whose next entry is an engine chunk that has committed (08 R188, R190). -/
def replayLaunch : Launch := { launch with mode := 3, extents := [(15, { base := 0x100000000, len := 2048, access := 3 })], engineOps := [(0, 1)] }

def replaying : State := { base with launches := [(1, replayLaunch)], gmem := [(0x100000010, 1#8), (0x100000047, 0x40#8)] }

/-- A parked sub-group whose chunk has ended, the team that names 4 as its handler, and a deterministic launch. -/
def aPark : Park := { lanes := 1#64, pc := 0#32, after := 4#32, cause := 4, addr := 0#32, done := 0#64, chunk := 9 }

def parkedGroup : Group :=
  { group with regs := { lanes := [(0, { status := .live, wait := .parked })], trap := { parks := [aPark] } } }

def detLaunch : Launch := { launch with mode := 1 }

def handlerTeam : Team := { team with regs := [(17, 4#32)] }

def fpTeam (isOpen : Bool) (at_ : Nat) : Team := { team with fp := { n := 1, isOpen := isOpen, closeAt := at_ } }

/-- Slots never filled are of age 65,535, which the greatest limit admits. -/
theorem neverFilled {c : LatCfg} {x : Lattice} (hc : c.smax = 65535) (hx : x.ghosts = []) : staleSweep c (agedGhosts x) = false := by
  simp [staleSweep, ghostAt, agedGhosts, hx, hc, tmap, tgetD, tget]

/-- A chunk that has ended, with a store, an empty mark and a WRST. -/
def endedChunk : Chunk :=
  { uid := 9, start := group.regs, stores := [(0x40, 7#8)],
    tags := [{ addr := 0x44, full := some false, dirty := some true }], effs := [.wrst 12 5#32] }

/-- The group with that chunk in flight, and the device whose commit set it is alone. -/
def ending : State := { withGroup { group with inflight := [endedChunk] } with cycle := Config.dCycles }

/-- The parked group with the chunk that trapped committed or still in flight. -/
def parkedIn (committed : Bool) : Group := { parkedGroup with inflight := if committed then [] else [endedChunk] }

/-- The group whose chunk trapped inside the handler. -/
def doomedGroup : Group := { group with inflight := [endedChunk], regs := { group.regs with trap := { doom := some 9 } } }

def doomed : State := { withGroup doomedGroup with cycle := Config.dCycles }

theorem witness_ComputePhaseEvents :
    (∃ s t, deviceRuns s = true ∧ tget s.groups 9 = none ∧ tget s.teams 2 = some t ∧ (9, 5) ∈ t.stray) ∧
    (∃ s g t l k x, deviceRuns s = true ∧ Memory.wf s.lmem = true ∧ Memory.wf s.lbits = true ∧ groupTriple s 3 = some (g, t, l) ∧
      g.inflight = [k] ∧ commitMembers s 0 = [x] ∧ x.owner = .group 3 ∧ x.empty = false ∧ storedByte k 0x40 0#8 = 7#8 ∧
      storedBits k 0x44 0#8 = 3#8) ∧
    (∃ s q k, Memory.wf s.lmem = true ∧ Memory.wf s.lbits = true ∧ seqAt s 0 0 = some q ∧ q.p.op = some k) ∧
    (∃ ins s, RunEvent ins ∧ deviceRuns s = false) ∧
    (∀ n ∈ [0, 1, 2], ∃ s g f, deviceRuns s = true ∧ tget s.groups 3 = some g ∧ g.flights.find? (fun x => x.uid == 5) = some f ∧
      tagMatches g.regs f = true ∧ f.cls = n ∧ (tgetD g.regs.v f.key {}).pending = true ∧ (tgetD g.regs.s f.key {}).pending = true ∧
      (tgetD g.regs.p f.key {}).pending = true) ∧
    (∃ s g f, deviceRuns s = true ∧ tget s.groups 3 = some g ∧ g.flights.find? (fun x => x.uid == 5) = some f ∧ tagMatches g.regs f = false) ∧
    (∃ s g, deviceRuns s = true ∧ tget s.groups 3 = some g ∧ (laneAt g.regs 0).wait = .sleep 0) ∧
    (∃ s sd d, deviceRuns s = true ∧ (ctlAt s 0).wait = .events sd (some d) ∧ d ≤ s.cycle) ∧
    (∃ s sd d, deviceRuns s = true ∧ (ctlAt s 0).wait = .events sd (some d) ∧ s.cycle < d) ∧
    (∀ d ∈ [0, 1], ∃ s x e rest, deviceRuns s = true ∧ tget (tgetD s.cores 0 {}).bins 0 = some x ∧ x.recs = e :: rest ∧ x.timerAt = some d ∧ s.cycle = 0) ∧
    (∃ s l, deviceRuns s = true ∧ tget s.launches 1 = some l ∧ l.mode = 3 ∧ l.phase = .running ∧ l.abort = none ∧
      ∃ e, nextEntry s l 0 = some e ∧ entryPassed s l 1 0 e = true) ∧
    (∃ s l, deviceRuns s = true ∧ tget s.launches 1 = some l ∧ l.mode ≠ 3) ∧
    (∃ s g t l h p, deviceRuns s = true ∧ groupTriple s 3 = some (g, t, l) ∧ t.killed = false ∧ handlerOf g t l = some h ∧
      g.regs.trap.inService = false ∧ (parksInOrder g).find? (windowClosed t) = some p ∧ ordered l = true ∧ g.cur = none) ∧
    (∀ own, ∃ s g t l p, deviceRuns s = true ∧ groupTriple s 3 = some (g, t, l) ∧ t.killed = false ∧ handlerOf g t l = none ∧
      g.regs.trap.inService = false ∧ (ordered l = true → g.cur = none) ∧
      (parksInOrder g).find? (fun q => windowClosed t q || q.win.isNone) = some p ∧ parkCommitted g p = own) ∧
    (∃ ins s i, SoftTrapOp ins false 0xA5#8 13 ∧ GroupIssues s { sw := false } i ∧ ∃ k ∈ i.act, (laneAt i.g.regs k).handler = true) ∧
    (∃ s g t l k x, deviceRuns s = true ∧ groupTriple s 3 = some (g, t, l) ∧ g.inflight = [k] ∧ g.cur = none ∧ g.core / 64 = 0 ∧
      g.regs.trap.doom = some k.uid ∧ commitMembers s 0 = [x] ∧ x.owner = .group 3) ∧
    (∀ b : Bool, ∃ s t l, deviceRuns s = true ∧ tget s.teams 2 = some t ∧ tget s.launches t.launch = some l ∧ l.mode = 1 ∧
      windowOver s 2 t l = b) ∧
    (∃ s t, deviceRuns s = true ∧ tget s.teams 2 = some t ∧ teamMode s 2 = 0 ∧ t.fp.isOpen = true ∧ t.fp.closeAt = s.cycle) ∧
    (∃ s t, deviceRuns s = true ∧ tget s.teams 2 = some t ∧ teamMode s 2 = 0 ∧ t.fp.isOpen = true ∧ t.fp.closeAt = s.cycle + 1) ∧
    (∃ s t, deviceRuns s = true ∧ tget s.teams 2 = some t ∧ teamMode s 2 = 0 ∧ t.fp.isOpen = false) ∧
    (∃ s p rest t, deviceRuns s = true ∧ (engineAt s 0 3).run = none ∧ (engineAt s 0 3).list = p :: rest ∧ tget s.teams p.team = some t) ∧
    (∃ s q, deviceRuns s = true ∧ seqAt s 0 0 = some q ∧ q.p.fabWait = true) ∧
    (∃ s q c, deviceRuns s = true ∧ seqAt s 0 4 = some q ∧ q.p.health = none ∧ q.p.sweeps ≠ 0 ∧ q.p.op = none ∧
      (ownLattice q).2.cfg = some c ∧ staleSweep c (agedGhosts (ownLattice q).2) = false) :=
  ⟨⟨withTeam { team with stray := [(9, 5)] }, _, rfl, rfl, rfl, by decide⟩,
   ⟨ending, _, team, launch, endedChunk, _, rfl, rfl, rfl, rfl, rfl, rfl, rfl, rfl, by decide +kernel⟩,
   ⟨unitState base 0 { prog .copy [] [] with op := some endedChunk }, _, _, rfl, rfl, rfl, rfl⟩,
   ⟨.sweepEnd 0 0, frozen, .sweepEnd 0 0, rfl⟩,
   fun n hn => ⟨withGroup (flying n 1), flying n 1, flight n 1, rfl, rfl, rfl, by fin_cases hn <;> decide, rfl, by fin_cases hn <;> decide⟩,
   ⟨withGroup (flying 0 0), flying 0 0, flight 0 0, rfl, rfl, rfl, by decide⟩,
   ⟨withGroup (lane (.sleep 0)), lane (.sleep 0), rfl, rfl, by decide⟩,
   ⟨waitState 0, 1, 0, rfl, rfl, by decide⟩, ⟨waitState 1, 1, 1, rfl, rfl, by decide⟩,
   fun d _ => ⟨binState d, _, _, _, rfl, rfl, rfl, rfl, rfl⟩,
   ⟨replaying, replayLaunch, rfl, rfl, rfl, rfl, rfl, (1, 0, 0), by decide +kernel⟩,
   ⟨base, launch, rfl, rfl, by decide⟩,
   ⟨stateOf parkedGroup handlerTeam detLaunch, parkedGroup, handlerTeam, detLaunch, 4#32, aPark, rfl, rfl, rfl, by decide +kernel, rfl,
     by decide +kernel⟩,
   fun own => ⟨withGroup (parkedIn own), parkedIn own, team, launch, aPark, rfl, rfl, rfl, by cases own <;> decide +kernel⟩,
   ⟨_, _, _, .trap .., issues (g := server 7) (t := team) (l := launch) rfl rfl (by decide +kernel), 0, by decide +kernel⟩,
   ⟨doomed, doomedGroup, team, launch, endedChunk, _, rfl, rfl, rfl, rfl, rfl, rfl, rfl, rfl⟩,
   fun b => ⟨stateOf { group with nextQuantum := 1 } (fpTeam b 0) detLaunch, fpTeam b 0, detLaunch, rfl, rfl, rfl, rfl, by cases b <;> decide +kernel⟩,
   ⟨withTeam (fpTeam true 0), fpTeam true 0, rfl, rfl, by decide +kernel, rfl, rfl⟩,
   ⟨withTeam (fpTeam true 1), fpTeam true 1, rfl, rfl, by decide +kernel, rfl, rfl⟩,
   ⟨withTeam (fpTeam false 0), fpTeam false 0, rfl, rfl, by decide +kernel, rfl⟩,
   ⟨{ base with engines := [(3, { list := [prog .copy [] []] })] }, _, _, team, rfl, rfl, rfl, rfl⟩,
   ⟨unitState base 0 { prog .exchange [] [] with fabWait := true }, _, rfl, rfl, rfl⟩,
   ⟨unitState rich 4 { prog .lattice [] [] with sweeps := 1 }, _, latCfg, rfl, rfl, rfl, by decide, rfl, by decide +kernel, neverFilled rfl (by decide +kernel)⟩⟩

/-- The device whose only thread has arrived at PHASE (08 R164). -/
def arrived (p : Part) : State := { withPartition p with groups := [(3, lane (.phase 0))] }

/-- A span of two partitions (08 R167). -/
def spanPart : Part := { part with spanTag := 7, spanSize := 2 }

/-- The partition with both time-outs armed for a cycle. -/
def armed (d : Nat) : Part := { part with stragAt := some d, exchAt := some d }

theorem witness_BoundaryEvents :
    (∃ s p, deviceRuns s = true ∧ tget s.parts 0 = some p ∧ p.pstate = .compute ∧ boundaryOpens s 0 p = true) ∧
    (∃ s p, deviceRuns s = true ∧ tget s.parts 0 = some p ∧ p.pstate = .compute ∧ boundaryOpens s 0 p = false) ∧
    (∃ s p, deviceRuns s = true ∧ tget s.parts 0 = some p ∧ p.pstate ≠ .compute) ∧
    (∃ s p, deviceRuns s = true ∧ tget s.parts 0 = some p ∧ p.pstate ≠ .opened) ∧
    (∃ s p, deviceRuns s = true ∧ tget s.parts 0 = some p ∧ p.pstate = .opened ∧ relaunchPending s 0 = false ∧
      (partCores s p).any (fun k => !coreArrived s k) = true) ∧
    (∃ s p, deviceRuns s = true ∧ tget s.parts 0 = some p ∧ p.pstate = .opened ∧ relaunchPending s 0 = false ∧
      (partCores s p).all (coreArrived s) = true ∧ spanReady p false = true) ∧
    (∃ s p, deviceRuns s = true ∧ tget s.parts 0 = some p ∧ p.pstate = .exchange ∧ (partCores s p).any (exchangeBusy s) = true) ∧
    (∃ s p, deviceRuns s = true ∧ tget s.parts 0 = some p ∧ p.pstate = .exchange ∧ (partCores s p).any (exchangeBusy s) = false ∧ spanReady p true = true) ∧
    (∃ s p k c, deviceRuns s = true ∧ tget s.parts 0 = some p ∧ p.spanTag ≠ 0 ∧ k ∈ p.ports ∧ k ∉ s.dev.portDown ∧ p.boundary ≤ c) ∧
    (∀ d ∈ [0, 1], ∃ s p, deviceRuns s = true ∧ tget s.parts 0 = some p ∧ p.stragAt = some d ∧ p.exchAt = some d ∧ s.cycle = 0) ∧
    (∃ s l p, deviceRuns s = true ∧ tget s.launches 1 = some l ∧ tget s.parts l.part = some p ∧ l.phaseMax ≠ 0 ∧ p.pstate ≠ .exchange ∧
      p.computeAt + l.phaseMax = s.cycle ∧
      (partCores s p).filter (fun k => !l.phaseTold.contains k && !coreArrived s k && (residents s k).any (fun e => e.2.launch == 1)) ≠ []) ∧
    (∃ s l p, deviceRuns s = true ∧ tget s.launches 1 = some l ∧ tget s.parts l.part = some p ∧ l.phaseMax = 0) ∧
    (∃ s, ∃ w : FabWrite, ∃ b len, deviceRuns s = true ∧ (tget s.parts w.part).bind (fun p => tget p.windows w.window) = some (b, len) ∧
      w.offset % 4 = 0 ∧ w.offset + 4 * w.data.length = len) ∧
    (∃ s, ∃ w : FabWrite, ∃ b len, deviceRuns s = true ∧ (tget s.parts w.part).bind (fun p => tget p.windows w.window) = some (b, len) ∧
      w.offset + 4 * w.data.length = len + 4) ∧
    (∃ s k, deviceRuns s = true ∧ k < 24 ∧ k ∉ s.dev.wear.ports) :=
  ⟨⟨arrived part, part, rfl, rfl, rfl, by decide +kernel⟩, ⟨base, part, rfl, rfl, rfl, by decide +kernel⟩,
   ⟨withPartition { part with pstate := .opened }, _, rfl, rfl, by decide⟩, ⟨base, part, rfl, rfl, by decide⟩,
   ⟨withPartition { part with pstate := .opened }, _, rfl, rfl, rfl, by decide +kernel⟩,
   ⟨arrived { part with pstate := .opened }, _, rfl, rfl, rfl, by decide +kernel⟩,
   ⟨{ withPartition { part with pstate := .exchange } with engines := [(0, { run := some (exchange 0 0 0 0) })] }, _, rfl, rfl, rfl, by decide +kernel⟩,
   ⟨withPartition { part with pstate := .exchange }, _, rfl, rfl, rfl, by decide +kernel⟩,
   ⟨withPartition spanPart, spanPart, 0, 0, rfl, rfl, by decide, by decide, by decide, by decide⟩,
   fun d _ => ⟨withPartition (armed d), armed d, rfl, rfl, rfl, rfl, rfl⟩,
   ⟨{ base with cycle := 5, launches := [(1, { launch with phaseMax := 5 })] }, _, part, rfl, rfl, rfl, by decide, by decide, rfl, by decide +kernel⟩,
   ⟨base, launch, part, rfl, rfl, rfl, by decide +kernel⟩,
   ⟨withPartition { part with windows := [(15, (0x100000000, 8))] }, { device := 0, tag := [], part := 0, window := 15, offset := 4, data := [0#32] },
     _, _, rfl, rfl, by decide, by decide⟩,
   ⟨withPartition { part with windows := [(15, (0x100000000, 8))] }, { device := 0, tag := [], part := 0, window := 15, offset := 8, data := [0#32] },
     _, _, rfl, rfl, by decide⟩,
   ⟨base, 23, rfl, by decide, by decide⟩⟩

/-- A complete image of a partition of n clusters with no page. -/
def imageOf (n : Nat) (complete : Bool) : Image :=
  { complete := complete, ckptId := 0#64, boundary := 0, phase := 0, configNum := 0, clusters := n, ranges := [], bytes := [], lost := [],
    queues := [], classes := [], launches := [], teams := [], nextLaunch := 0 }

/-- An image with a range of one page. -/
def rangedImage : Image :=
  { imageOf 1 true with ranges := [{ base := 0, len := Config.pageBytes, perm := 3, shared := false, nonatomic := false, replicate := false, sysAtomic := false }] }

def descBytes : List Byte := (upto 64).map (fun k => if k = 17 then 16#8 else 0#8)

/-- A device that restores for its control core 0, with this pool, with a live launch or none. -/
def restoring (live : Bool) (pool : Table Image) : State :=
  { (if live then base else endedLaunch) with
    parts := [(0, { part with ckpt := { restoring := some (.ctl 0, descBytes) } })], pool := pool }

/-- The group with an open chunk. -/
def chunked : Group := { group with cur := some { uid := 9, start := group.regs } }

theorem witness_RecoveryEvents :
    (∃ s, deviceRuns s = true) ∧
    (∃ s g ch rest, deviceRuns s = true ∧ tget s.groups 3 = some g ∧ g.inflight ++ g.cur.toList = ch :: rest) ∧
    (∃ s g ch rest, deviceRuns s = true ∧ tget s.groups 3 = some g ∧ g.inflight ++ g.cur.toList = ch :: rest ∧
      ∀ u, tget s.teams g.team = some u → u.fp.service = false) ∧
    (∃ s, deviceRuns s = true ∧ ∀ g, tget s.groups 3 = some g → g.inflight ++ g.cur.toList = []) ∧
    (∃ s, deviceRuns s = true ∧ mread s.lsnap 0 = 0#8) ∧
    (∃ s, deviceRuns s = true ∧ mread s.lsnap 0 ≠ 0#8 ∧ ownerOf s (64 * 0) = some 2) ∧
    (∃ s u l, deviceRuns s = true ∧ anyTeam s 2 = some u ∧ tget s.launches u.launch = some l ∧
      ((tget s.parts l.part).map (·.pstate)) ≠ some .exchange ∧ tget s.teams 2 = none ∧ u.killed = false ∧
      ∀ e ∈ s.retired, tget s.teams e.1 = none) ∧
    (∃ s u l, deviceRuns s = true ∧ tget s.teams 2 = some u ∧ tget s.launches u.launch = some l ∧ u.killed = false ∧
      ((tget s.parts l.part).map (·.pstate)) = some .exchange) ∧
    (∃ s u l, deviceRuns s = true ∧ tget s.teams 2 = some u ∧ tget s.launches u.launch = some l ∧ u.killed = false ∧
      ((tget s.parts l.part).map (·.pstate)) ≠ some .exchange ∧ ∀ e ∈ s.retired, tget s.teams e.1 = none) ∧
    (∃ s, deviceRuns s = true ∧ (ctlAt s 0).running = false) ∧ (∃ s, deviceRuns s = true ∧ (ctlAt s 0).running = true) ∧
    (∃ s p i, deviceRuns s = true ∧ tget s.parts 0 = some p ∧ p.ckpt.phase = 2 ∧ p.ckpt.image = some i) ∧
    (∃ s p, deviceRuns s = true ∧ tget s.parts 0 = some p ∧ p.ckpt.phase ≠ 2 ∧ p.ckpt.restoring = none) ∧
    (∃ s p who desc, deviceRuns s = true ∧ tget s.parts 0 = some p ∧ p.ckpt.restoring = some (who, desc) ∧
      ∃ e ∈ s.launches, e.2.part = 0 ∧ e.2.phase ≠ .ended) ∧
    (∃ s p who desc, deviceRuns s = true ∧ tget s.parts 0 = some p ∧ p.ckpt.restoring = some (who, desc) ∧
      (¬∃ e ∈ s.launches, e.2.part = 0 ∧ e.2.phase ≠ .ended) ∧ tget s.pool (descTarget desc) = none) ∧
    (∃ s p who desc i, deviceRuns s = true ∧ tget s.parts 0 = some p ∧ p.ckpt.restoring = some (who, desc) ∧
      (¬∃ e ∈ s.launches, e.2.part = 0 ∧ e.2.phase ≠ .ended) ∧ tget s.pool (descTarget desc) = some i ∧ imageHolds i [] = false) ∧
    (∃ s p who desc i, deviceRuns s = true ∧ tget s.parts 0 = some p ∧ p.ckpt.restoring = some (who, desc) ∧
      (¬∃ e ∈ s.launches, e.2.part = 0 ∧ e.2.phase ≠ .ended) ∧ tget s.pool (descTarget desc) = some i ∧ imageHolds i [] = true ∧ i.clusters ≠ p.clusters.length) ∧
    (∃ s p who desc i, deviceRuns s = true ∧ tget s.parts 0 = some p ∧ p.ckpt.restoring = some (who, desc) ∧
      (¬∃ e ∈ s.launches, e.2.part = 0 ∧ e.2.phase ≠ .ended) ∧ tget s.pool (descTarget desc) = some i ∧ imageHolds i [] = true ∧ i.clusters = p.clusters.length ∧
      rangesMapped { s with parts := tmod s.parts 0 (fun q => { q with ckpt := { q.ckpt with restoring := none } }) } 0 i = false) ∧
    (∃ s p who desc i, deviceRuns s = true ∧ tget s.parts 0 = some p ∧ p.ckpt.restoring = some (who, desc) ∧
      (¬∃ e ∈ s.launches, e.2.part = 0 ∧ e.2.phase ≠ .ended) ∧ tget s.pool (descTarget desc) = some i ∧ imageHolds i [] = true ∧ i.clusters = p.clusters.length ∧
      rangesMapped { s with parts := tmod s.parts 0 (fun q => { q with ckpt := { q.ckpt with restoring := none } }) } 0 i = true) :=
  ⟨⟨base, rfl⟩, ⟨withGroup chunked, chunked, _, _, rfl, rfl, rfl⟩,
   ⟨withGroup chunked, chunked, _, _, rfl, rfl, rfl, by intro u hu; cases hu; rfl⟩,
   ⟨base, rfl, by intro g hg; cases hg; rfl⟩, ⟨base, rfl, by decide +kernel⟩,
   ⟨{ base with lsnap := [(0, 1#8)] }, rfl, by decide +kernel⟩,
   ⟨{ base with teams := [], retired := [(2, team)] }, team, launch, rfl, rfl, rfl, by decide, rfl, rfl, by decide +kernel⟩,
   ⟨withPartition { part with pstate := .exchange }, team, launch, rfl, rfl, rfl, rfl, rfl⟩,
   ⟨base, team, launch, rfl, rfl, rfl, rfl, by decide +kernel⟩,
   ⟨base, rfl, by decide +kernel⟩, ⟨ctlBase, rfl, by decide +kernel⟩,
   ⟨withPartition { part with ckpt := { phase := 2, desc := descBytes, image := some (imageOf 1 false) } }, _, _, rfl, rfl, rfl, rfl⟩,
   ⟨base, part, rfl, rfl, by decide, rfl⟩,
   ⟨restoring true [], _, _, _, rfl, rfl, rfl, by decide +kernel⟩,
   ⟨restoring false [], _, _, _, rfl, rfl, rfl, by decide +kernel⟩,
   ⟨restoring false [(0, imageOf 1 false)], _, _, _, imageOf 1 false, rfl, rfl, rfl, by decide +kernel, by decide +kernel, rfl⟩,
   ⟨restoring false [(0, imageOf 2 true)], _, _, _, imageOf 2 true, rfl, rfl, rfl, by decide +kernel, by decide +kernel, rfl, by decide +kernel⟩,
   ⟨restoring false [(0, rangedImage)], _, _, _, rangedImage, rfl, rfl, rfl, by decide +kernel, by decide +kernel, rfl, rfl, by decide +kernel⟩,
   ⟨restoring false [(0, imageOf 1 true)], _, _, _, imageOf 1 true, rfl, rfl, rfl, by decide +kernel, by decide +kernel, rfl, rfl, by decide +kernel⟩⟩

/-- The device with its device record changed. -/
def dev (f : Device → Device) : State := { base with dev := f base.dev }

def aNotice : Notice := { kind := 1, unit := 0, phase := 0, cycle := 0, value := 0 }

/-- Level 30 of domain 0, and the cycle of its latest step. -/
def levelDev (n : Nat) (at_ : Table Nat) : State := dev (fun d => { d with wear := { d.wear with levels := [(0, n)] }, bandAt := at_ })

theorem witness_DeviceEvents :
    (∃ ins s, UpEvent ins ∧ deviceUp s = false) ∧ (∃ s, deviceUp s = true ∧ s.dev.run = .safe) ∧
    (∃ s, deviceRuns s = true ∧ s.dev.throttled = true) ∧ (∃ s, deviceRuns s = true ∧ s.dev.throttled = false) ∧
    (∃ s : State, s.dev.notices.length = 63) ∧
    (∃ (s : State) (a : Notice) (rest : List Notice), s.dev.notices = a :: rest ∧ s.dev.notices.length = 64 ∧ a.seen = false) ∧
    (∃ s, deviceRuns s = true ∧ levelOf s.dev (domainOf (.core 0 0)) = 29 ∧ bandDue s.dev.bandAt (domainOf (.core 0 0)) s.cycle = false) ∧
    (∃ s, deviceRuns s = true ∧ levelOf s.dev (domainOf (.core 0 0)) = 29 ∧ bandDue s.dev.bandAt (domainOf (.core 0 0)) s.cycle = true) ∧
    (∃ s, deviceRuns s = true ∧ levelOf s.dev (domainOf (.core 0 0)) = 30) ∧
    (∃ s : State, tgetD s.dev.wear.hbm 15 0 = 0) ∧
    (∃ s, deviceRuns s = true ∧ s.dev.recal = [15] ∧ ∃ p, tget s.parts 0 = some p ∧ p.joining = [15]) ∧
    (∃ s : State, s.dev.run = .off) ∧ (∃ s : State, s.dev.run ≠ .off ∧ s.dev.frozen = .none) ∧ (∃ s : State, s.dev.run ≠ .off ∧ s.dev.frozen ≠ .none) ∧
    (∃ s : State, s.dev.run ≠ .off ∧ tgetD s.turn 3 0 = 1) ∧ (∃ s : State, s.dev.run ≠ .off ∧ tgetD s.turn 3 0 ≠ 1) ∧
    (∃ s : State, s.dev.wearCut = false ∧ s.cycle < s.dev.wearTill) ∧ (∃ s : State, s.dev.wearCut = false ∧ s.dev.wearTill ≤ s.cycle) ∧
    (∃ s : State, s.dev.frz = true) ∧ (∃ s : State, s.dev.frz = false ∧ s.dev.frozen ≠ .none ∧ s.dev.tripped = true) ∧
    (∃ s : State, s.dev.frz = false ∧ s.dev.frozen ≠ .none ∧ s.dev.tripped = false ∧ s.dev.run = .running) ∧
    (∃ s : State, s.dev.resumePending = false) ∧ (∃ s : State, s.dev.resumePending = true ∧ s.dev.run = .running) :=
  ⟨⟨.throttle, frozen, .throttle, rfl⟩, ⟨dev (fun d => { d with run := .safe }), rfl, rfl⟩,
   ⟨dev (fun d => { d with throttled := true }), rfl, rfl⟩, ⟨base, rfl, rfl⟩,
   ⟨dev (fun d => { d with notices := List.replicate 63 aNotice }), List.length_replicate⟩,
   ⟨dev (fun d => { d with notices := List.replicate 64 aNotice }), aNotice, List.replicate 63 aNotice, rfl, List.length_replicate, rfl⟩,
   ⟨levelDev 29 [(0, 0)], rfl, rfl, rfl⟩, ⟨levelDev 29 [], rfl, rfl, rfl⟩, ⟨levelDev 30 [], rfl, rfl⟩, ⟨base, rfl⟩,
   ⟨{ withPartition { part with joining := [15] } with dev := { base.dev with recal := [15] } }, rfl, rfl, _, rfl, rfl⟩,
   ⟨dev (fun d => { d with run := .off }), rfl⟩, ⟨base, by decide, rfl⟩, ⟨frozen, by decide, by decide⟩,
   ⟨{ base with turn := [(3, 1)] }, by decide, rfl⟩, ⟨base, by decide, by decide⟩, ⟨dev (fun d => { d with wearTill := 1 }), rfl, by decide⟩,
   ⟨base, rfl, by decide⟩, ⟨base, rfl⟩,
   ⟨dev (fun d => { d with frozen := .thermal, frz := false, tripped := true }), rfl, by decide, rfl⟩, ⟨frozen, rfl, by decide, rfl, rfl⟩, ⟨base, rfl⟩,
   ⟨dev (fun d => { d with frozen := .thermal, tripped := true, resumePending := true }), rfl, rfl⟩⟩

/-! ### Witnesses: the host port -/

def hdr : MsgHdr := { session := 1, seq := 1, ack := 0, peer := 5, port := 6 }

def session (admin : Bool) : Session := { admin := admin, part := 0, peer := 5, port := 6 }

/-- The device with session 1 open. -/
def inSession (x : Session) : State := { base with sessions := [(1, x)], nextSession := 2 }

theorem nextMessage {s : State} {x : Session} (hr : s.dev.run = .running) (hf : s.dev.frozen = .none) (hx : tget s.sessions 1 = some x)
    (ho : x.rxNext = 1) (hv : s.dev.vlan = none) (hq : s.dev.cmds = [] ∧ ∀ f ∈ x.backlog, f.command = none) : NextInOrder s hdr x :=
  ⟨⟨⟨⟨hf, .inl hr⟩, hv.symm⟩, nofun⟩, hx, by rw [ho]; rfl, hq⟩

/-- The same in safe mode. -/
def safe (s : State) : State := { s with dev := { s.dev with run := .safe } }

/-- A host-port record with its checksum (24 R436). -/
def hostRecord : List Byte :=
  let b : List Byte := (upto 28).map (fun k => if k = 16 ∨ k = 18 then 1#8 else 0#8)
  b ++ natLE 4 (crc32 b).toNat

theorem headerOf : HeaderOf hdr := ⟨rfl, rfl, rfl⟩

/-- A header with a tag that is not the port's, one of a message of no type, and one of another operation. -/
def tagged : MsgHdr := { hdr with vlan := some 4095 }

/-- One for an address that is not the port's. -/
def strayed : MsgHdr := { hdr with dest := some 7 }

def untyped : MsgHdr := { hdr with type := some 9 }

def otherOp (k : Nat) : MsgHdr := { hdr with op := some k }

/-- A session whose window is full but for so many frames, none of them acknowledged by `hdr`. -/
def sentFrames (n : Nat) : List (Frame × Nat × Nat) := List.replicate n ({ session := 1, seq := 1, type := 2 }, 0, 0)

def windowed (n : Nat) : Session := { session true with unacked := sentFrames n }

theorem held_frames (n : Nat) : ((sentFrames n).filter (fun u => decide (hdr.ack < u.1.seq))).length = n := by
  rw [List.filter_eq_self.mpr (fun u hu => by rw [List.eq_of_mem_replicate hu]; decide)]
  exact List.length_replicate

theorem witness_ManagementCommands :
    (∃ ins v f s, CommandWord ins hdr v f ∧ ¬PortUp s) ∧
    (∃ ins v f s, CommandWord ins tagged v f ∧ PortUp s ∧ tagged.vlan ≠ s.dev.vlan) ∧
    (∃ ins v f s x, CommandWord ins hdr v f ∧ NextInOrder s hdr x ∧ HeaderOf hdr ∧ x.admin = false) ∧
    (∃ s x, NextInOrder s hdr x ∧ HeaderOf hdr ∧ x.admin = true ∧ windowRoom hdr x ∧ s.dev.run = .running) ∧
    (∃ s, NextInOrder s hdr (windowed 63) ∧ windowRoom hdr (windowed 63)) ∧
    (∃ ins v f s x, CommandWord ins hdr v f ∧ v % 256 ≤ 3 ∧ NextInOrder s hdr x ∧ HeaderOf hdr ∧ x.admin = true ∧ x.backlog = [] ∧
      64 ≤ (x.unacked.filter (fun u => decide (hdr.ack < u.1.seq))).length ∧ s.dev.run = .running) ∧
    (∃ s x, NextInOrder s hdr x ∧ HeaderOf hdr ∧ x.admin = true ∧ s.dev.run = .safe) ∧
    (2181#12).toNat < 2182 ∧ 2182 ≤ (2182#12).toNat ∧ 2182#12 ≠ 0xFFF#12 ∧ hostRecordFits hostRecord = true ∧ hostRecordFits [] = false :=
  ⟨⟨_, _, _, frozen, .freeze _, fun h => by cases h.1⟩, ⟨_, _, _, base, .freeze _, ⟨rfl, .inl rfl⟩, by decide⟩,
   ⟨_, _, _, inSession (session false), _, .recalibrate _, nextMessage rfl rfl rfl rfl rfl ⟨rfl, nofun⟩, headerOf, rfl⟩,
   ⟨inSession (session true), _, nextMessage rfl rfl rfl rfl rfl ⟨rfl, nofun⟩, headerOf, rfl, ⟨rfl, by decide⟩, rfl⟩,
   ⟨inSession (windowed 63), nextMessage rfl rfl rfl rfl rfl ⟨rfl, nofun⟩, rfl, by rw [windowed, held_frames]; decide⟩,
   ⟨_, _, _, inSession (windowed 64), _, .coldStart _ true {}, by decide, nextMessage rfl rfl rfl rfl rfl ⟨rfl, nofun⟩, headerOf, rfl, rfl,
     by rw [windowed, held_frames], rfl⟩,
   ⟨safe (inSession (session true)), session true, ⟨⟨⟨⟨rfl, .inr rfl⟩, rfl⟩, nofun⟩, rfl, rfl, rfl, nofun⟩, headerOf, rfl, rfl⟩,
   by decide, by decide, by decide, by decide +kernel⟩

/-- A partition descriptor: cluster 15, id 3, weight 1, port 0, one page, a span of two (21 R374). -/
def descriptor : List Byte :=
  (upto 64).map (fun k => match k with
    | 1 => 0x80#8
    | 4 => 3#8
    | 5 => 1#8
    | 8 => 1#8
    | 12 => 1#8
    | 24 => 1#8
    | 26 => 2#8
    | _ => 0#8)

/-- A session whose reply is due for another sending after this many. -/
def resending (n : Nat) : Session := { session false with unacked := [({ session := 1, type := 2 }, n, 0)] }

theorem portUp (s : State) (hr : s.dev.run = .running) (hf : s.dev.frozen = .none) : PortUp s := ⟨hf, .inl hr⟩

theorem witness_HostMessages :
    (∃ ins t r s, SessionRequest ins hdr t r ∧ ¬PortUp s) ∧ (∃ ins r p f d s, HelloForm ins hdr r p f d ∧ ¬PortUp s) ∧
    (∃ ins t r s, SessionRequest ins tagged t r ∧ PortUp s ∧ tagged.vlan ≠ s.dev.vlan) ∧
    (∃ ins t r s, SessionRequest ins strayed t r ∧ PortUp s ∧ Unaddressed s strayed ∧ s.dev.hostAddr = []) ∧
    (∃ s h, DatagramArrives s h ∧ h.dest = some 1) ∧
    (∃ s, FrameArrives s none ∧ globalAddress s.dev = some 1) ∧ (∃ s, FrameArrives s none ∧ 7 ≠ linkLocal s.dev.mac ∧ globalAddress s.dev ≠ some 7) ∧
    (∃ ins t r s, SessionRequest ins hdr t r ∧ DatagramArrives s hdr ∧ tget s.sessions hdr.session = none) ∧
    (∃ ins t r s x, SessionRequest ins hdr t r ∧ DatagramArrives s hdr ∧ tget s.sessions hdr.session = some x ∧ x.rxNext < hdr.seq) ∧
    (∃ ins t r s x, SessionRequest ins hdr t r ∧ DatagramArrives s hdr ∧ tget s.sessions hdr.session = some x ∧ hdr.seq < x.rxNext) ∧
    (∃ (s : State) (x : Session), tget s.sessions 1 = some x ∧ x.backlog = [] ∧ s.dev.cmds = []) ∧
    (∃ ins t r s x, PartitionRequest ins hdr t r ∧ NextInOrder s hdr x ∧ HeaderOf hdr ∧ x.admin = true) ∧
    (∃ ins t r s x, SessionRequest ins untyped t r ∧ NextInOrder s untyped x ∧ x.admin = true ∧ untyped.type = some 9) ∧
    (∃ ins t r s x, SessionRequest ins { hdr with fits := false } t r ∧ NextInOrder s { hdr with fits := false } x ∧ x.admin = true) ∧
    (∃ s x, PortUp s ∧ tget s.sessions 1 = some x ∧ ∀ u ∈ x.unacked, s.cycle < u.2.2) ∧
    (∀ n ∈ [7, 8], ∃ s x fr d, PortUp s ∧ tget s.sessions 1 = some x ∧ x.unacked.find? (fun u => decide (u.2.2 ≤ s.cycle)) = some (fr, n, d)) ∧
    (∃ ins p d s, HelloForm ins hdr 1 p 1 d ∧ DatagramArrives s hdr ∧ HeaderOf hdr) ∧
    (∃ ins p d s, HelloForm ins hdr 1 p 0 d ∧ DatagramArrives s hdr ∧ tget s.parts p = none) ∧
    (∃ ins p d s q, HelloForm ins hdr 1 p 0 d ∧ DatagramArrives s hdr ∧ tget s.parts p = some q) ∧
    (∃ ins p d s, HelloForm ins hdr 0 p 0 d ∧ DatagramArrives s hdr) ∧ (∃ ins r p f d s, HelloForm ins untyped r p f d ∧ DatagramArrives s untyped) ∧
    (∃ s, DatagramArrives s hdr ∧ s.dev.run = .safe) ∧ (∃ s, PortUp s ∧ s.dev.run = .running ∧ descriptorFits s [] = false) ∧
    (∃ s, PortUp s ∧ s.dev.run = .running ∧ descriptorFits s descriptor = true ∧ (tget s.parts (byteField descriptor 4 1)).isSome = true) ∧
    (∃ s, PortUp s ∧ s.dev.run = .running ∧ descriptorFits s descriptor = true ∧ s.parts = [] ∧ s.dev.recal = []) ∧
    (∃ s p, PortUp s ∧ tget s.parts 0 = some p ∧ ∃ e ∈ s.launches, e.2.part = 0 ∧ e.2.phase ≠ .ended) ∧
    (∃ s p, PortUp s ∧ tget s.parts 0 = some p ∧ ∀ e ∈ s.launches, e.2.part = 0 → e.2.phase = .ended) := by
  have up : PortUp base := portUp base rfl rfl
  have fr : DatagramArrives base hdr := ⟨⟨up, rfl⟩, nofun⟩
  let addressed := dev (fun d => { d with hostAddr := (upto 16).map (fun k => if k = 15 then 1#8 else 0#8) })
  refine ⟨⟨_, _, _, frozen, .read _ 0 0 4, fun h => by cases h.1⟩, ⟨_, _, _, _, _, frozen, .hello _ 0 0 0, fun h => by cases h.1⟩,
    ⟨_, _, _, base, .read _ 0 0 4, up, by decide⟩, ⟨_, _, _, base, .read _ 0 0 4, up, ⟨7, rfl, by decide +kernel⟩, rfl⟩,
    ⟨addressed, { hdr with dest := some 1 }, ⟨⟨portUp _ rfl rfl, rfl⟩, fun a h => by cases h; exact .inr (by decide +kernel)⟩, rfl⟩,
    ⟨addressed, ⟨portUp _ rfl rfl, rfl⟩, by decide +kernel⟩, ⟨base, fr.frame, by decide +kernel⟩, ⟨_, _, _, base, .read _ 0 0 4, fr, rfl⟩,
    ⟨_, _, _, inSession { session false with rxNext := 0 }, _, .read _ 0 0 4, ⟨⟨portUp _ rfl rfl, rfl⟩, nofun⟩, rfl, by decide⟩,
    ⟨_, _, _, inSession { session false with rxNext := 2 }, _, .read _ 0 0 4, ⟨⟨portUp _ rfl rfl, rfl⟩, nofun⟩, rfl, by decide⟩,
    ⟨inSession (resending 0), _, rfl, rfl, rfl⟩,
    ⟨_, _, _, inSession (session true), _, .query _ 0 0 0, nextMessage rfl rfl rfl rfl rfl ⟨rfl, nofun⟩, headerOf, rfl⟩,
    ⟨_, _, _, inSession (session true), session true, .own (.query _ 0 0 0), ⟨⟨⟨⟨rfl, .inl rfl⟩, rfl⟩, nofun⟩, rfl, rfl, rfl, nofun⟩, rfl, rfl⟩,
    ⟨_, _, _, inSession (session true), session true, .own (.query _ 0 0 0), ⟨⟨⟨⟨rfl, .inl rfl⟩, rfl⟩, nofun⟩, rfl, rfl, rfl, nofun⟩, rfl⟩,
    ⟨inSession (session false), _, portUp _ rfl rfl, rfl, by decide⟩,
    fun n _ => ⟨inSession (resending n), _, _, _, portUp _ rfl rfl, rfl, rfl⟩, ⟨_, 0, _, base, .hello _ 1 0 1, fr, headerOf⟩,
    ⟨_, 15, _, base, .hello _ 1 15 0, fr, rfl⟩, ⟨_, 0, _, base, _, .hello _ 1 0 0, fr, rfl⟩, ⟨_, 0, _, base, .hello _ 0 0 0, fr⟩,
    ⟨_, 0, 0, 0, _, base, .hello _ 0 0 0, ⟨⟨up, rfl⟩, nofun⟩⟩,
    ⟨safe base, ⟨⟨⟨rfl, .inr rfl⟩, rfl⟩, nofun⟩, rfl⟩, ⟨base, up, rfl, by decide +kernel⟩,
    ⟨{ base with parts := [(3, part)] }, portUp _ rfl rfl, rfl, by decide +kernel⟩,
    ⟨State.reset, portUp _ rfl rfl, rfl, by decide +kernel, rfl, rfl⟩, ⟨base, part, up, rfl, by decide +kernel⟩,
    ⟨endedLaunch, _, portUp _ rfl rfl, rfl, by decide +kernel⟩⟩

/-- A page of the partition, for host atomics or not. -/
def aPage (atomic : Bool) : Page :=
  { part := 0, writable := true, shared := false, nonatomic := false, replicate := false, sysAtomic := atomic, home := 0 }

/-- The bytes of an image header whose control section has 64 bytes at 128 (03 R73, R76). -/
def imageHeader : List Host.Cell :=
  [(0, 0x5A#8), (1, 0x52#8), (2, 0x4C#8), (3, 0x4B#8), (4, 0x01#8), (88, 0x80#8), (92, 0x40#8), (120, 0xA6#8), (121, 0xDD#8), (122, 0x3F#8), (123, 0x01#8)]

/-- The checksum of a run of 120 bytes from its quarters. -/
theorem crcQuarters {bs : List Byte} {a b c d : Word} (h : (bs.take 30 ++ ((bs.drop 30).take 30 ++ ((bs.drop 60).take 30 ++ bs.drop 90))) = bs)
    (ha : (bs.take 30).foldl crcByte 0xFFFFFFFF#32 = a) (hb : ((bs.drop 30).take 30).foldl crcByte a = b)
    (hc : ((bs.drop 60).take 30).foldl crcByte b = c) (hd : (bs.drop 90).foldl crcByte c = d) : crc32 bs = d ^^^ 0xFFFFFFFF#32 := by
  rw [crc32, ← h, List.foldl_append, List.foldl_append, List.foldl_append, ha, hb, hc, hd]

theorem headerChecksum : crc32 (mbytes imageHeader 0 120) = BitVec.ofNat 32 (mreadN imageHeader 120 4) :=
  (crcQuarters (a := 0xB3B87F9D#32) (b := 0xFB575670#32) (c := 0x0E59D144#32) (d := 0xFEC02259#32) (by decide +kernel) (by decide +kernel) (by decide +kernel)
    (by decide +kernel) (by decide +kernel)).trans (by decide +kernel)

/-- The device with session 1 of the partition, which owns page 0 with that header. -/
def hosted (atomic : Bool) (p : Part) (x : Session) : State :=
  { base with parts := [(0, p)], sessions := [(1, x)], pages := [(0, aPage atomic)], gmem := imageHeader }

/-- A request that is the next of its session, which waits for nothing. -/
def Serves (s : State) (x : Session) (p : Part) : Prop :=
  NextInOrder s hdr x ∧ HeaderOf hdr ∧ x.admin = false ∧ x.busy = none ∧ x.waiting = [] ∧ x.held = false ∧ tget s.parts x.part = some p

theorem serves (a : Bool) (p : Part) : Serves (hosted a p (session false)) (session false) p :=
  ⟨nextMessage rfl rfl rfl rfl rfl ⟨rfl, nofun⟩, headerOf, rfl, rfl, rfl, rfl, rfl⟩

/-- The device with a placed launch that binds the page, its teams gone. -/
def bound : State :=
  { hosted true part (session false) with
    launches := [(1, { launch with phase := .running, ordinals := [(0, 1)], extents := [(0, { base := 0, len := 4096, access := 3 })] })] }

def ckptPart (k : Nat) : Part := { part with ckpt := { phase := k } }

theorem witness_HostRequests :
    (∃ ins t r s x, SessionRequest ins hdr t r ∧ NextInOrder s hdr x ∧ x.admin = false ∧ x.busy.isSome = true) ∧
    (∀ fits, ∃ ins t op a b c s x, SessionRequest ins { otherOp 6 with fits := fits } t (.xlate op a b c) ∧
      NextInOrder s { otherOp 6 with fits := fits } x ∧ (otherOp 6).type = none ∧ x.admin = false ∧ x.busy = none ∧ x.waiting = [] ∧ x.held = false ∧
      (tget s.parts x.part).isSome = true) ∧
    (∃ ins t op d s x, SessionRequest ins (otherOp 4) t (.ckpt op d) ∧ NextInOrder s (otherOp 4) x ∧ x.admin = false) ∧
    (∃ s x p, Serves s x p ∧ runFits 8188 4 = true ∧ runFits 0 8192 = true ∧ runFits 0 8196 = false ∧
      ownedRange s x.part 0x200000 4 true = false ∧ Memory.wf s.gmem = true ∧ Memory.wf s.cmem = true ∧
      ownedRange s x.part 0x1FFFFC 4 true = true ∧ boundRange s x.part 0x1FFFFC 4 = false ∧ lostIn s 0x1FFFFC 4 = false ∧
      lostIn { s with lost := [0x1FFFFC] } 0x1FFFFC 4 = true ∧ 0 ∈ p.clusters ∧ (ctlAt s 0).running = false ∧ 1 ∉ p.clusters ∧
      ownedRange s x.part 0 128 false = true ∧ mreadN s.gmem 0 4 = 0x4B4C525A ∧ mreadN s.gmem 4 2 = 1 ∧
      mreadN s.gmem 88 4 = 128 ∧ mreadN s.gmem 92 4 = 64 ∧ ownedRange s x.part 128 64 false = true ∧
      ownsPages s x.part 0 Config.pageBytes = true ∧ resolvedRange s x.part 0 Config.pageBytes = false ∧ p.windowPend = [] ∧ tget p.windows 15 = none ∧
      (∀ g ∈ pagesOf Config.pageBytes Config.pageBytes, tget s.pages g = none) ∧ (pagesOf Config.pageBytes Config.pageBytes).length ≤ quotaLeft s x.part p ∧
      (mapPages (performing s hdr) x.part 3 (pagesOf Config.pageBytes Config.pageBytes)).isSome = true) ∧
    (∃ s x p g, Serves s x p ∧ crc32 (mbytes s.gmem 0 120) = BitVec.ofNat 32 (mreadN s.gmem 120 4) ∧
      tget s.pages 0 = some g ∧ g.part = x.part ∧ g.sysAtomic = true) ∧
    (∃ s x p, Serves s x p ∧ runFits 4092 4 = true ∧ ownedRange s x.part 4092 4 true = true ∧ boundRange s x.part 4092 4 = true ∧
      resolvedRange s x.part 0 Config.pageBytes = true ∧ ownsPages s x.part 0 Config.pageBytes = true) ∧
    (∃ s x p, Serves s x p ∧ (ctlAt s 0).running = true) ∧
    (∃ s x p w, Serves s x p ∧ tget p.windows 15 = some w ∧ ownedRange s x.part 0 4 false = true) ∧
    (∃ s x p g, Serves s x p ∧ tget s.pages 0 = some g ∧ g.sysAtomic = false) ∧
    descFits descBytes = true ∧ descFits [] = false ∧
    (∀ k ∈ [0, 1, 2, 3, 4], ∃ s x p, Serves s x p ∧ p.ckpt.phase = k) ∧
    (∃ s x p, Serves s x p ∧ p.ckpt.phase = 0 ∧ p.ckpt.restoring = none ∧ ∀ e ∈ s.launches, e.2.part = x.part → e.2.phase = .ended) := by
  refine ⟨⟨_, _, _, inSession { session false with busy := some (originOf hdr 8) }, _, .read _ 0 0 4, nextMessage rfl rfl rfl rfl rfl ⟨rfl, nofun⟩, rfl, rfl⟩,
    fun fits => ⟨_, _, 0, 0, 0, 0, hosted true part (session false), session false, .own (.query _ 0 0 0), ⟨⟨⟨⟨rfl, .inl rfl⟩, rfl⟩, nofun⟩, rfl, rfl, rfl, nofun⟩, rfl, rfl, rfl, rfl, rfl, rfl⟩,
    ⟨_, _, 0, descBytes, hosted true part (session false), session false, .own (.ckptStart _ _), ⟨⟨⟨⟨rfl, .inl rfl⟩, rfl⟩, nofun⟩, rfl, rfl, rfl, nofun⟩, rfl⟩,
    ⟨_, _, part, serves true part, by decide +kernel⟩, ⟨_, _, part, aPage true, serves true part, headerChecksum, rfl, rfl, rfl⟩,
    ⟨bound, session false, part, ⟨nextMessage rfl rfl rfl rfl rfl ⟨rfl, nofun⟩, headerOf, rfl, rfl, rfl, rfl, rfl⟩, by decide +kernel⟩,
    ⟨{ hosted true part (session false) with clusters := [(0, { ctl := { running := true } })] }, session false, part,
      ⟨nextMessage rfl rfl rfl rfl rfl ⟨rfl, nofun⟩, headerOf, rfl, rfl, rfl, rfl, rfl⟩, by decide +kernel⟩,
    ⟨_, _, { part with windows := [(15, (0, 4))] }, _, serves true _, rfl, by decide +kernel⟩, ⟨_, _, part, aPage false, serves false part, rfl, rfl⟩,
    by decide +kernel, by decide +kernel, fun k _ => ⟨_, _, ckptPart k, serves true _, rfl⟩,
    ⟨{ hosted true part (session false) with launches := [] }, session false, part,
      ⟨nextMessage rfl rfl rfl rfl rfl ⟨rfl, nofun⟩, headerOf, rfl, rfl, rfl, rfl, rfl⟩, rfl, rfl, by decide +kernel⟩⟩

/-! ### Witnesses: words and steps -/

theorem witness_DecodeOfEncode :
    (∃ i w, wellFormed i = true ∧ encode i = some w ∧ ¬∃ k, PortCode i k) ∧ (∃ i w, decodeWord w = .ok i) ∧
    (∃ h, hintLegal h = true) ∧ (∃ h w, decodeHint w = .ok h) ∧ (∃ i k, PortCode i k) :=
  ⟨⟨.iadd true 63#6 (r 2) (r 3), 0x87F080C0, by decide +kernel, by decide +kernel, fun ⟨_, h⟩ => nomatch h⟩, ⟨.iadd false 0#6 (r 0) (r 0), 0x04000000, by decide +kernel⟩, ⟨.imm 0xFFFFFF#24, by decide +kernel⟩,
    ⟨.imm 0xFFFFFF#24, 0x00FFFFFF, by decide +kernel⟩, ⟨_, _, .segsel 1049⟩⟩

/-- A device about to issue the thread's word, its control word or its sequencer's word. -/
def aboutTo (s : State) (m : Move) : State := { s with agenda := [(3, m)] }

theorem witness_StepRunsDecodedInstruction :
    (∃ s g t l, deviceRuns (atMove s 3 []) = true ∧ s.agenda = [(3, .issue 3 0)] ∧ groupTriple (atMove s 3 []) 3 = some (g, t, l) ∧ t.killed = false ∧
      setAdmitted (atMove s 3 []) l g 3 0 = true ∧ (laneAt g.regs (leastD (setLanes g.regs 0) 0)).pc.toNat ≠ 4 * l.text.length ∧
      (match (decodeRun 4 (sectionRun l.text (laneAt g.regs (leastD (setLanes g.regs 0) 0)).pc.toNat) {} 0).instr with
        | .ok _ => true
        | .error _ => false) = true) ∧
    (∃ s, deviceRuns (atMove s 3 []) = true ∧ s.agenda = [(3, .control 0)] ∧ (ctlAt (atMove s 3 []) 0).running = true ∧
      (partOf (atMove s 3 []) 0).isSome = true) ∧
    (∃ s q w, deviceRuns (atMove s 3 []) = true ∧ s.agenda = [(3, .sequencer 0 0)] ∧ seqAt (atMove s 3 []) 0 0 = some q ∧ q.p.op = none ∧
      q.p.sweeps = 0 ∧ q.p.health = none ∧ q.p.fabWait = false ∧ q.p.sweptAt = none ∧ q.l.copy[q.p.pc / 4]? = some w) ∧
    (∃ (s : State) (i : Instr), s.agenda = [(3, .event i)] ∧ encode i = none ∧ i ≠ .illegalInstruction ∧ i ≠ .ctlIllegal ∧ i ≠ .engineIllegal) ∧
    (∀ d ∈ [0, 1], ∃ (s : State) (i : Instr), s.agenda = [(d, .event i)] ∧ inTurn (atMove s d []) (.event i) i = decide (d ≠ 0)) ∧
    (∃ u x y, inTurn u (.control 0) (.launch false x y) = true) ∧ (∃ u x y, inTurn u (.control 0) (.launch false x y) = false) ∧
    (∃ u, inTurn u (.sequencer 0 0) (.xsig false 0#5 0#5) = false) ∧ (∃ u, inTurn u (.sequencer 0 0) (.xwte false 0#5 0#5) = true) ∧
    (∃ s : State, s.agenda = []) :=
  ⟨⟨aboutTo base (.issue 3 0), group, team, launch, rfl, rfl, rfl, rfl, by decide +kernel⟩,
   ⟨aboutTo ctlBase (.control 0), rfl, rfl, by decide +kernel⟩,
   ⟨aboutTo (unitState base 0 (prog .copy [] [])) (.sequencer 0 0), _, 0x70000000#32, rfl, rfl, rfl, rfl, rfl, rfl, rfl, rfl, rfl⟩,
   ⟨aboutTo base (.event .throttle), .throttle, rfl, rfl, nofun, nofun, nofun⟩,
   fun d hd => ⟨{ base with turn := [(0, 1)], agenda := [(d, .event (.strikeReport (.control 0)))] }, _, rfl, by revert d; decide +kernel⟩,
   ⟨base, 0#6, 0#6, by decide +kernel⟩, ⟨{ base with turn := [(1, 1)] }, 0#6, 0#6, by decide +kernel⟩,
   ⟨{ base with turn := [(5, 1)] }, by decide +kernel⟩, ⟨{ base with turn := [(5, 1)] }, by decide +kernel⟩, ⟨base, rfl⟩⟩

theorem witness_StepKeepsMemoriesCanonical : ∃ s t, memoriesWf s = true ∧ Machine.step s = .next t :=
  ⟨{ frozen with agenda := [(0, .event .throttle)] }, { frozen with agenda := [], issue := {} }, by decide +kernel, rfl⟩

/-! ### Decoding: every instruction's word, from its fields; the spec's own words; refused words -/

/-- Whether each word decodes to the instruction beside it. -/
noncomputable def decodes (rows : List (Nat × Instr)) : Bool := rows.all (fun e => decide (decodeTableWord 32 e.1 = some e.2))

/-- Major 1: words from their fields, each with the position of its low bit. -/
theorem test_decode_major_1 : decodes [
    (wordOf [(1, 26), (27, 20), (14, 14), (2, 12), (21, 6)], .iadd false 27#6 { reg := 14#6, use := .keep } { reg := 21#6, use := .plain }),
    (wordOf [(1, 31), (1, 26), (28, 20), (15, 14), (22, 6), (1, 4), (1, 0)], .isub true 28#6 { reg := 15#6, use := .plain } { reg := 22#6, use := .last }),
    (wordOf [(1, 26), (29, 20), (16, 14), (1, 12), (23, 6), (2, 4), (2, 0)], .imul false 29#6 { reg := 16#6, use := .last } { reg := 23#6, use := .keep }),
    (wordOf [(1, 31), (1, 26), (30, 20), (17, 14), (2, 12), (24, 6), (3, 0)], .imulh true 30#6 { reg := 17#6, use := .keep } { reg := 24#6, use := .plain }),
    (wordOf [(1, 26), (31, 20), (18, 14), (25, 6), (1, 4), (4, 0)], .umulh false 31#6 { reg := 18#6, use := .plain } { reg := 25#6, use := .last }),
    (wordOf [(1, 31), (1, 26), (32, 20), (19, 14), (1, 12), (26, 6), (2, 4), (5, 0)], .imin true 32#6 { reg := 19#6, use := .last } { reg := 26#6, use := .keep }),
    (wordOf [(1, 26), (33, 20), (20, 14), (2, 12), (27, 6), (6, 0)], .imax false 33#6 { reg := 20#6, use := .keep } { reg := 27#6, use := .plain }),
    (wordOf [(1, 31), (1, 26), (34, 20), (21, 14), (28, 6), (1, 4), (7, 0)], .umin true 34#6 { reg := 21#6, use := .plain } { reg := 28#6, use := .last }),
    (wordOf [(1, 26), (35, 20), (22, 14), (1, 12), (29, 6), (2, 4), (8, 0)], .umax false 35#6 { reg := 22#6, use := .last } { reg := 29#6, use := .keep }),
    (wordOf [(1, 31), (1, 26), (36, 20), (23, 14), (2, 12), (30, 6), (9, 0)], .vand true 36#6 { reg := 23#6, use := .keep } { reg := 30#6, use := .plain }),
    (wordOf [(1, 26), (37, 20), (24, 14), (31, 6), (1, 4), (10, 0)], .vor false 37#6 { reg := 24#6, use := .plain } { reg := 31#6, use := .last }),
    (wordOf [(1, 31), (1, 26), (38, 20), (25, 14), (1, 12), (32, 6), (2, 4), (11, 0)], .vxor true 38#6 { reg := 25#6, use := .last } { reg := 32#6, use := .keep }),
    (wordOf [(1, 26), (39, 20), (26, 14), (2, 12), (33, 6), (12, 0)], .shl false 39#6 { reg := 26#6, use := .keep } { reg := 33#6, use := .plain }),
    (wordOf [(1, 31), (1, 26), (40, 20), (27, 14), (34, 6), (1, 4), (13, 0)], .shr true 40#6 { reg := 27#6, use := .plain } { reg := 34#6, use := .last }),
    (wordOf [(1, 26), (41, 20), (28, 14), (1, 12), (35, 6), (2, 4), (14, 0)], .sra false 41#6 { reg := 28#6, use := .last } { reg := 35#6, use := .keep }),
    (wordOf [(1, 31), (1, 26), (42, 20), (29, 14), (2, 12), (36, 6), (15, 0)], .iaddc true 42#6 { reg := 29#6, use := .keep } { reg := 36#6, use := .plain })] = true := by decide +kernel

/-- Major 2: words from their fields, each with the position of its low bit. -/
theorem test_decode_major_2 : decodes [
    (wordOf [(2, 26), (27, 20), (14, 14), (2, 12), (165, 0)], .iaddi false 27#6 { reg := 14#6, use := .keep } 165#8),
    (wordOf [(1, 31), (2, 26), (28, 20), (15, 14), (1, 8), (166, 0)], .isubi true 28#6 { reg := 15#6, use := .plain } 166#8),
    (wordOf [(2, 26), (29, 20), (16, 14), (1, 12), (2, 8), (167, 0)], .imuli false 29#6 { reg := 16#6, use := .last } 167#8),
    (wordOf [(1, 31), (2, 26), (30, 20), (17, 14), (2, 12), (3, 8), (168, 0)], .imulhi true 30#6 { reg := 17#6, use := .keep } 168#8),
    (wordOf [(2, 26), (31, 20), (18, 14), (4, 8), (169, 0)], .umulhi false 31#6 { reg := 18#6, use := .plain } 169#8),
    (wordOf [(1, 31), (2, 26), (32, 20), (19, 14), (1, 12), (5, 8), (170, 0)], .imini true 32#6 { reg := 19#6, use := .last } 170#8),
    (wordOf [(2, 26), (33, 20), (20, 14), (2, 12), (6, 8), (171, 0)], .imaxi false 33#6 { reg := 20#6, use := .keep } 171#8),
    (wordOf [(1, 31), (2, 26), (34, 20), (21, 14), (7, 8), (172, 0)], .umini true 34#6 { reg := 21#6, use := .plain } 172#8),
    (wordOf [(2, 26), (35, 20), (22, 14), (1, 12), (8, 8), (173, 0)], .umaxi false 35#6 { reg := 22#6, use := .last } 173#8),
    (wordOf [(1, 31), (2, 26), (36, 20), (23, 14), (2, 12), (9, 8), (174, 0)], .andi true 36#6 { reg := 23#6, use := .keep } 174#8),
    (wordOf [(2, 26), (37, 20), (24, 14), (10, 8), (175, 0)], .ori false 37#6 { reg := 24#6, use := .plain } 175#8),
    (wordOf [(1, 31), (2, 26), (38, 20), (25, 14), (1, 12), (11, 8), (176, 0)], .xori true 38#6 { reg := 25#6, use := .last } 176#8),
    (wordOf [(2, 26), (39, 20), (26, 14), (2, 12), (12, 8), (177, 0)], .shli false 39#6 { reg := 26#6, use := .keep } 177#8),
    (wordOf [(1, 31), (2, 26), (40, 20), (27, 14), (13, 8), (178, 0)], .shri true 40#6 { reg := 27#6, use := .plain } 178#8),
    (wordOf [(2, 26), (41, 20), (28, 14), (1, 12), (14, 8), (179, 0)], .srai false 41#6 { reg := 28#6, use := .last } 179#8),
    (wordOf [(1, 31), (2, 26), (42, 20), (15, 8), (175, 0)], .movi true 42#6 175#8)] = true := by decide +kernel

/-- Major 3: words from their fields, each with the position of its low bit. -/
theorem test_decode_major_3 : decodes [
    (wordOf [(3, 26), (27, 20), (14, 14), (2, 12), (21, 6)], .isubb false 27#6 { reg := 14#6, use := .keep } { reg := 21#6, use := .plain }),
    (wordOf [(1, 31), (3, 26), (28, 20), (15, 14), (1, 0)], .iabs true 28#6 { reg := 15#6, use := .plain }),
    (wordOf [(3, 26), (29, 20), (16, 14), (1, 12), (2, 0)], .ineg false 29#6 { reg := 16#6, use := .last }),
    (wordOf [(1, 31), (3, 26), (30, 20), (17, 14), (2, 12), (3, 0)], .vnot true 30#6 { reg := 17#6, use := .keep }),
    (wordOf [(3, 26), (31, 20), (18, 14), (4, 0)], .clz false 31#6 { reg := 18#6, use := .plain }),
    (wordOf [(1, 31), (3, 26), (32, 20), (19, 14), (1, 12), (5, 0)], .popc true 32#6 { reg := 19#6, use := .last }),
    (wordOf [(3, 26), (33, 20), (20, 14), (2, 12), (6, 0)], .brev false 33#6 { reg := 20#6, use := .keep }),
    (wordOf [(1, 31), (3, 26), (34, 20), (21, 14), (28, 6), (1, 4), (7, 0)], .bfe true 34#6 { reg := 21#6, use := .plain } { reg := 28#6, use := .last }),
    (wordOf [(3, 26), (35, 20), (22, 14), (1, 12), (29, 6), (2, 4), (8, 0)], .bfi false 35#6 { reg := 22#6, use := .last } { reg := 29#6, use := .keep }),
    (wordOf [(1, 31), (3, 26), (36, 20), (23, 14), (2, 12), (30, 6), (9, 0)], .iadds true 36#6 { reg := 23#6, use := .keep } { reg := 30#6, use := .plain }),
    (wordOf [(3, 26), (37, 20), (24, 14), (31, 6), (1, 4), (10, 0)], .isubs false 37#6 { reg := 24#6, use := .plain } { reg := 31#6, use := .last }),
    (wordOf [(1, 31), (3, 26), (38, 20), (25, 14), (1, 12), (32, 6), (2, 4), (11, 0)], .uadds true 38#6 { reg := 25#6, use := .last } { reg := 32#6, use := .keep }),
    (wordOf [(3, 26), (39, 20), (26, 14), (2, 12), (33, 6), (12, 0)], .imad false 39#6 { reg := 26#6, use := .keep } { reg := 33#6, use := .plain }),
    (wordOf [(1, 31), (3, 26), (40, 20), (27, 14), (34, 6), (1, 4), (13, 0)], .sad true 40#6 { reg := 27#6, use := .plain } { reg := 34#6, use := .last }),
    (wordOf [(3, 26), (41, 20), (28, 14), (1, 12), (35, 6), (2, 4), (14, 0)], .rotl false 41#6 { reg := 28#6, use := .last } { reg := 35#6, use := .keep }),
    (wordOf [(1, 31), (3, 26), (42, 20), (29, 14), (2, 12), (36, 6), (15, 0)], .lea2 true 42#6 { reg := 29#6, use := .keep } { reg := 36#6, use := .plain })] = true := by decide +kernel

/-- Major 4: words from their fields, each with the position of its low bit. -/
theorem test_decode_major_4 : decodes [
    (wordOf [(4, 26), (27, 20), (14, 14), (2, 12), (21, 6)], .fadd false 27#6 { reg := 14#6, use := .keep } { reg := 21#6, use := .plain }),
    (wordOf [(1, 31), (4, 26), (28, 20), (15, 14), (22, 6), (1, 4), (1, 0)], .fsub true 28#6 { reg := 15#6, use := .plain } { reg := 22#6, use := .last }),
    (wordOf [(4, 26), (29, 20), (16, 14), (1, 12), (23, 6), (2, 4), (2, 0)], .fmul false 29#6 { reg := 16#6, use := .last } { reg := 23#6, use := .keep }),
    (wordOf [(1, 31), (4, 26), (30, 20), (17, 14), (2, 12), (24, 6), (3, 0)], .ffma true 30#6 { reg := 17#6, use := .keep } { reg := 24#6, use := .plain }),
    (wordOf [(4, 26), (31, 20), (18, 14), (25, 6), (1, 4), (4, 0)], .ffnma false 31#6 { reg := 18#6, use := .plain } { reg := 25#6, use := .last }),
    (wordOf [(1, 31), (4, 26), (32, 20), (19, 14), (1, 12), (26, 6), (2, 4), (5, 0)], .fmin true 32#6 { reg := 19#6, use := .last } { reg := 26#6, use := .keep }),
    (wordOf [(4, 26), (33, 20), (20, 14), (2, 12), (27, 6), (6, 0)], .fmax false 33#6 { reg := 20#6, use := .keep } { reg := 27#6, use := .plain }),
    (wordOf [(1, 31), (4, 26), (34, 20), (21, 14), (7, 0)], .fabs true 34#6 { reg := 21#6, use := .plain }),
    (wordOf [(4, 26), (35, 20), (22, 14), (1, 12), (8, 0)], .fneg false 35#6 { reg := 22#6, use := .last }),
    (wordOf [(1, 31), (4, 26), (36, 20), (23, 14), (2, 12), (30, 6), (9, 0)], .fcpys true 36#6 { reg := 23#6, use := .keep } { reg := 30#6, use := .plain }),
    (wordOf [(4, 26), (37, 20), (24, 14), (31, 6), (1, 4), (10, 0)], .fdiv false 37#6 { reg := 24#6, use := .plain } { reg := 31#6, use := .last }),
    (wordOf [(1, 31), (4, 26), (38, 20), (25, 14), (1, 12), (11, 0)], .fsqrt true 38#6 { reg := 25#6, use := .last }),
    (wordOf [(4, 26), (39, 20), (26, 14), (2, 12), (3, 8), (12, 0)], .frint false 39#6 { reg := 26#6, use := .keep } 3#2),
    (wordOf [(1, 31), (4, 26), (40, 20), (27, 14), (13, 0)], .fclass true 40#6 { reg := 27#6, use := .plain }),
    (wordOf [(4, 26), (41, 20), (28, 14), (1, 12), (35, 6), (2, 4), (14, 0)], .fscale false 41#6 { reg := 28#6, use := .last } { reg := 35#6, use := .keep }),
    (wordOf [(1, 31), (4, 26), (42, 20), (29, 14), (2, 12), (15, 0)], .ffrac true 42#6 { reg := 29#6, use := .keep })] = true := by decide +kernel

/-- Major 5: words from their fields, each with the position of its low bit. -/
theorem test_decode_major_5 : decodes [
    (wordOf [(5, 26), (27, 20), (14, 14), (2, 12), (21, 6)], .hadd false 27#6 { reg := 14#6, use := .keep } { reg := 21#6, use := .plain } 0#1),
    (wordOf [(1, 31), (5, 26), (28, 20), (15, 14), (22, 6), (1, 4), (1, 3), (1, 0)], .hsub true 28#6 { reg := 15#6, use := .plain } { reg := 22#6, use := .last } 1#1),
    (wordOf [(5, 26), (29, 20), (16, 14), (1, 12), (23, 6), (2, 4), (2, 0)], .hmul false 29#6 { reg := 16#6, use := .last } { reg := 23#6, use := .keep } 0#1),
    (wordOf [(1, 31), (5, 26), (30, 20), (17, 14), (2, 12), (24, 6), (1, 3), (3, 0)], .hfma true 30#6 { reg := 17#6, use := .keep } { reg := 24#6, use := .plain } 1#1),
    (wordOf [(5, 26), (31, 20), (18, 14), (25, 6), (1, 4), (4, 0)], .hmin false 31#6 { reg := 18#6, use := .plain } { reg := 25#6, use := .last } 0#1),
    (wordOf [(1, 31), (5, 26), (32, 20), (19, 14), (1, 12), (26, 6), (2, 4), (1, 3), (5, 0)], .hmax true 32#6 { reg := 19#6, use := .last } { reg := 26#6, use := .keep } 1#1),
    (wordOf [(5, 26), (33, 20), (20, 14), (2, 12), (1, 3), (6, 0)], .hneg false 33#6 { reg := 20#6, use := .keep } 1#1),
    (wordOf [(1, 31), (5, 26), (34, 20), (21, 14), (28, 6), (1, 4), (1, 3), (7, 0)], .hdot2 true 34#6 { reg := 21#6, use := .plain } { reg := 28#6, use := .last } 1#1)] = true := by decide +kernel

/-- Major 6: words from their fields, each with the position of its low bit. -/
theorem test_decode_major_6 : decodes [
    (wordOf [(6, 26), (27, 20), (14, 14), (2, 12)], .cvf2i false 27#6 { reg := 14#6, use := .keep }),
    (wordOf [(1, 31), (6, 26), (28, 20), (15, 14), (1, 0)], .cvi2f true 28#6 { reg := 15#6, use := .plain }),
    (wordOf [(6, 26), (29, 20), (16, 14), (1, 12), (2, 0)], .cvn2f false 29#6 { reg := 16#6, use := .last }),
    (wordOf [(1, 31), (6, 26), (30, 20), (17, 14), (2, 12), (3, 0)], .cvf2n true 30#6 { reg := 17#6, use := .keep }),
    (wordOf [(6, 26), (31, 20), (18, 14), (4, 0)], .cvf2b false 31#6 { reg := 18#6, use := .plain }),
    (wordOf [(1, 31), (6, 26), (32, 20), (19, 14), (1, 12), (5, 0)], .cvb2f true 32#6 { reg := 19#6, use := .last }),
    (wordOf [(6, 26), (33, 20), (20, 14), (2, 12), (6, 0)], .cvf2h false 33#6 { reg := 20#6, use := .keep }),
    (wordOf [(1, 31), (6, 26), (34, 20), (21, 14), (7, 0)], .cvh2f true 34#6 { reg := 21#6, use := .plain }),
    (wordOf [(6, 26), (35, 20), (22, 14), (1, 12), (29, 6), (2, 4), (8, 0)], .cvf2e4 false 35#6 { reg := 22#6, use := .last } { reg := 29#6, use := .keep }),
    (wordOf [(1, 31), (6, 26), (36, 20), (23, 14), (2, 12), (30, 6), (9, 0)], .cvf2e5 true 36#6 { reg := 23#6, use := .keep } { reg := 30#6, use := .plain }),
    (wordOf [(6, 26), (37, 20), (24, 14), (31, 6), (1, 4), (10, 0)], .cvf2e2 false 37#6 { reg := 24#6, use := .plain } { reg := 31#6, use := .last }),
    (wordOf [(1, 31), (6, 26), (38, 20), (25, 14), (1, 12), (32, 6), (2, 4), (11, 0)], .cve42f true 38#6 { reg := 25#6, use := .last } { reg := 32#6, use := .keep }),
    (wordOf [(6, 26), (39, 20), (26, 14), (2, 12), (33, 6), (12, 0)], .cve52f false 39#6 { reg := 26#6, use := .keep } { reg := 33#6, use := .plain }),
    (wordOf [(1, 31), (6, 26), (40, 20), (27, 14), (34, 6), (1, 4), (13, 0)], .cve22f true 40#6 { reg := 27#6, use := .plain } { reg := 34#6, use := .last }),
    (wordOf [(6, 26), (41, 20), (28, 14), (1, 12), (35, 6), (2, 4), (14, 0)], .pk2h false 41#6 { reg := 28#6, use := .last } { reg := 35#6, use := .keep }),
    (wordOf [(1, 31), (6, 26), (42, 20), (29, 14), (2, 12), (36, 6), (15, 0)], .pk4b true 42#6 { reg := 29#6, use := .keep } { reg := 36#6, use := .plain })] = true := by decide +kernel

/-- Major 7: words from their fields, each with the position of its low bit. -/
theorem test_decode_major_7 : decodes [
    (wordOf [(7, 26), (27, 20), (14, 14), (2, 12)], .exp2 false 27#6 { reg := 14#6, use := .keep }),
    (wordOf [(1, 31), (7, 26), (28, 20), (15, 14), (1, 0)], .log2 true 28#6 { reg := 15#6, use := .plain }),
    (wordOf [(7, 26), (29, 20), (16, 14), (1, 12), (2, 0)], .rcp false 29#6 { reg := 16#6, use := .last }),
    (wordOf [(1, 31), (7, 26), (30, 20), (17, 14), (2, 12), (3, 0)], .rsqrt true 30#6 { reg := 17#6, use := .keep }),
    (wordOf [(7, 26), (31, 20), (18, 14), (4, 0)], .sinpi false 31#6 { reg := 18#6, use := .plain }),
    (wordOf [(1, 31), (7, 26), (32, 20), (19, 14), (1, 12), (5, 0)], .cospi true 32#6 { reg := 19#6, use := .last }),
    (wordOf [(7, 26), (33, 20), (20, 14), (2, 12), (6, 0)], .tanh false 33#6 { reg := 20#6, use := .keep }),
    (wordOf [(1, 31), (7, 26), (34, 20), (21, 14), (7, 0)], .sigm true 34#6 { reg := 21#6, use := .plain })] = true := by decide +kernel

/-- Major 8: words from their fields, each with the position of its low bit. -/
theorem test_decode_major_8 : decodes [
    (wordOf [(8, 26), (3, 23), (2, 20), (21, 14), (28, 6), (1, 4)], .icmpEq false 3#3 2#3 { reg := 21#6, use := .plain } { reg := 28#6, use := .last }),
    (wordOf [(1, 31), (8, 26), (3, 23), (3, 20), (22, 14), (1, 12), (29, 6), (2, 4), (1, 0)], .icmpNe true 3#3 3#3 { reg := 22#6, use := .last } { reg := 29#6, use := .keep }),
    (wordOf [(8, 26), (3, 23), (4, 20), (23, 14), (2, 12), (30, 6), (2, 0)], .icmpLt false 3#3 4#3 { reg := 23#6, use := .keep } { reg := 30#6, use := .plain }),
    (wordOf [(1, 31), (8, 26), (3, 23), (5, 20), (24, 14), (31, 6), (1, 4), (3, 0)], .icmpLe true 3#3 5#3 { reg := 24#6, use := .plain } { reg := 31#6, use := .last }),
    (wordOf [(8, 26), (3, 23), (6, 20), (25, 14), (1, 12), (32, 6), (2, 4), (4, 0)], .icmpGt false 3#3 6#3 { reg := 25#6, use := .last } { reg := 32#6, use := .keep }),
    (wordOf [(1, 31), (8, 26), (3, 23), (7, 20), (26, 14), (2, 12), (33, 6), (5, 0)], .icmpGe true 3#3 7#3 { reg := 26#6, use := .keep } { reg := 33#6, use := .plain }),
    (wordOf [(8, 26), (3, 23), (27, 14), (34, 6), (1, 4), (6, 0)], .icmpLtn false 3#3 0#3 { reg := 27#6, use := .plain } { reg := 34#6, use := .last }),
    (wordOf [(1, 31), (8, 26), (3, 23), (1, 20), (28, 14), (1, 12), (35, 6), (2, 4), (7, 0)], .icmpLen true 3#3 1#3 { reg := 28#6, use := .last } { reg := 35#6, use := .keep }),
    (wordOf [(8, 26), (3, 23), (2, 20), (29, 14), (2, 12), (36, 6), (8, 0)], .icmpGtn false 3#3 2#3 { reg := 29#6, use := .keep } { reg := 36#6, use := .plain }),
    (wordOf [(1, 31), (8, 26), (3, 23), (3, 20), (30, 14), (37, 6), (1, 4), (9, 0)], .icmpGen true 3#3 3#3 { reg := 30#6, use := .plain } { reg := 37#6, use := .last }),
    (wordOf [(8, 26), (3, 23), (4, 20), (31, 14), (1, 12), (38, 6), (2, 4), (10, 0)], .icmpFeq false 3#3 4#3 { reg := 31#6, use := .last } { reg := 38#6, use := .keep }),
    (wordOf [(1, 31), (8, 26), (3, 23), (5, 20), (32, 14), (2, 12), (39, 6), (11, 0)], .icmpFne true 3#3 5#3 { reg := 32#6, use := .keep } { reg := 39#6, use := .plain }),
    (wordOf [(8, 26), (3, 23), (6, 20), (33, 14), (40, 6), (1, 4), (12, 0)], .icmpFlt false 3#3 6#3 { reg := 33#6, use := .plain } { reg := 40#6, use := .last }),
    (wordOf [(1, 31), (8, 26), (3, 23), (7, 20), (34, 14), (1, 12), (41, 6), (2, 4), (13, 0)], .icmpFle true 3#3 7#3 { reg := 34#6, use := .last } { reg := 41#6, use := .keep }),
    (wordOf [(8, 26), (3, 23), (35, 14), (2, 12), (42, 6), (14, 0)], .icmpFuno false 3#3 0#3 { reg := 35#6, use := .keep } { reg := 42#6, use := .plain }),
    (wordOf [(1, 31), (8, 26), (3, 23), (1, 20), (36, 14), (43, 6), (1, 4), (15, 0)], .icmpFord true 3#3 1#3 { reg := 36#6, use := .plain } { reg := 43#6, use := .last })] = true := by decide +kernel

/-- Major 9: words from their fields, each with the position of its low bit. -/
theorem test_decode_major_9 : decodes [
    (wordOf [(9, 26), (27, 20), (14, 14), (2, 12), (21, 6)], .shfl false 27#6 { reg := 14#6, use := .keep } { reg := 21#6, use := .plain }),
    (wordOf [(1, 31), (9, 26), (28, 21), (3, 14), (1, 0)], .ballot true 28#5 3#3),
    (wordOf [(9, 26), (3, 20), (4, 14), (2, 0)], .vany false 3#3 4#3),
    (wordOf [(1, 31), (9, 26), (4, 20), (5, 14), (3, 0)], .vall true 4#3 5#3),
    (wordOf [(9, 26), (31, 20), (18, 14), (4, 0)], .rsumi false 31#6 { reg := 18#6, use := .plain }),
    (wordOf [(1, 31), (9, 26), (32, 20), (19, 14), (1, 12), (5, 0)], .rmini true 32#6 { reg := 19#6, use := .last }),
    (wordOf [(9, 26), (33, 20), (20, 14), (2, 12), (6, 0)], .rmaxi false 33#6 { reg := 20#6, use := .keep }),
    (wordOf [(1, 31), (9, 26), (34, 20), (21, 14), (7, 0)], .rsumf true 34#6 { reg := 21#6, use := .plain }),
    (wordOf [(9, 26), (35, 20), (22, 14), (1, 12), (8, 0)], .scani false 35#6 { reg := 22#6, use := .last }),
    (wordOf [(1, 31), (9, 26), (36, 20), (23, 14), (2, 12), (9, 0)], .scanf true 36#6 { reg := 23#6, use := .keep }),
    (wordOf [(9, 26), (37, 20), (24, 14), (10, 0)], .scanxi false 37#6 { reg := 24#6, use := .plain }),
    (wordOf [(1, 31), (9, 26), (6, 21), (25, 14), (1, 12), (11, 0)], .matchx true 6#5 { reg := 25#6, use := .last }),
    (wordOf [(9, 26), (39, 20), (6, 14), (12, 0)], .popm false 39#6 6#3),
    (wordOf [(1, 31), (9, 26), (40, 20), (27, 14), (13, 0)], .first true 40#6 { reg := 27#6, use := .plain }),
    (wordOf [(9, 26), (41, 20), (14, 0)], .cmpct false 41#6 0#3)] = true := by decide +kernel

/-- Major 10: words from their fields, each with the position of its low bit. -/
theorem test_decode_major_10 : decodes [
    (wordOf [(10, 26), (27, 20), (14, 14), (2, 12), (21, 6)], .sadd false 27#6 { reg := 14#6, use := .keep } { reg := 21#6, use := .plain }),
    (wordOf [(1, 31), (10, 26), (28, 20), (15, 14), (22, 6), (1, 4), (1, 0)], .ssub true 28#6 { reg := 15#6, use := .plain } { reg := 22#6, use := .last }),
    (wordOf [(10, 26), (29, 20), (16, 14), (1, 12), (23, 6), (2, 4), (2, 0)], .smul false 29#6 { reg := 16#6, use := .last } { reg := 23#6, use := .keep }),
    (wordOf [(1, 31), (10, 26), (30, 20), (17, 14), (2, 12), (24, 6), (3, 0)], .smulh true 30#6 { reg := 17#6, use := .keep } { reg := 24#6, use := .plain }),
    (wordOf [(10, 26), (31, 20), (18, 14), (25, 6), (1, 4), (4, 0)], .sumulh false 31#6 { reg := 18#6, use := .plain } { reg := 25#6, use := .last }),
    (wordOf [(1, 31), (10, 26), (32, 20), (19, 14), (1, 12), (26, 6), (2, 4), (5, 0)], .smin true 32#6 { reg := 19#6, use := .last } { reg := 26#6, use := .keep }),
    (wordOf [(10, 26), (33, 20), (20, 14), (2, 12), (27, 6), (6, 0)], .smax false 33#6 { reg := 20#6, use := .keep } { reg := 27#6, use := .plain }),
    (wordOf [(1, 31), (10, 26), (34, 20), (21, 14), (28, 6), (1, 4), (7, 0)], .sumin true 34#6 { reg := 21#6, use := .plain } { reg := 28#6, use := .last }),
    (wordOf [(10, 26), (35, 20), (22, 14), (1, 12), (29, 6), (2, 4), (8, 0)], .sumax false 35#6 { reg := 22#6, use := .last } { reg := 29#6, use := .keep }),
    (wordOf [(1, 31), (10, 26), (36, 20), (23, 14), (2, 12), (30, 6), (9, 0)], .sand true 36#6 { reg := 23#6, use := .keep } { reg := 30#6, use := .plain }),
    (wordOf [(10, 26), (37, 20), (24, 14), (31, 6), (1, 4), (10, 0)], .sor false 37#6 { reg := 24#6, use := .plain } { reg := 31#6, use := .last }),
    (wordOf [(1, 31), (10, 26), (38, 20), (25, 14), (1, 12), (32, 6), (2, 4), (11, 0)], .sxor true 38#6 { reg := 25#6, use := .last } { reg := 32#6, use := .keep }),
    (wordOf [(10, 26), (39, 20), (26, 14), (2, 12), (33, 6), (12, 0)], .sshl false 39#6 { reg := 26#6, use := .keep } { reg := 33#6, use := .plain }),
    (wordOf [(1, 31), (10, 26), (40, 20), (27, 14), (34, 6), (1, 4), (13, 0)], .sshr true 40#6 { reg := 27#6, use := .plain } { reg := 34#6, use := .last }),
    (wordOf [(10, 26), (41, 20), (28, 14), (1, 12), (35, 6), (2, 4), (14, 0)], .ssra false 41#6 { reg := 28#6, use := .last } { reg := 35#6, use := .keep }),
    (wordOf [(1, 31), (10, 26), (42, 20), (29, 14), (2, 12), (15, 0)], .smov true 42#6 { reg := 29#6, use := .keep })] = true := by decide +kernel

/-- Major 11: words from their fields, each with the position of its low bit. -/
theorem test_decode_major_11 : decodes [
    (wordOf [(11, 26), (27, 20), (14, 14), (2, 12), (165, 0)], .saddi false 27#6 { reg := 14#6, use := .keep } 165#8),
    (wordOf [(1, 31), (11, 26), (28, 20), (15, 14), (1, 8), (166, 0)], .ssubi true 28#6 { reg := 15#6, use := .plain } 166#8),
    (wordOf [(11, 26), (29, 20), (16, 14), (1, 12), (2, 8), (167, 0)], .smuli false 29#6 { reg := 16#6, use := .last } 167#8),
    (wordOf [(1, 31), (11, 26), (30, 20), (17, 14), (2, 12), (3, 8), (168, 0)], .smulhi true 30#6 { reg := 17#6, use := .keep } 168#8),
    (wordOf [(11, 26), (31, 20), (18, 14), (4, 8), (169, 0)], .sumulhi false 31#6 { reg := 18#6, use := .plain } 169#8),
    (wordOf [(1, 31), (11, 26), (32, 20), (19, 14), (1, 12), (5, 8), (170, 0)], .smini true 32#6 { reg := 19#6, use := .last } 170#8),
    (wordOf [(11, 26), (33, 20), (20, 14), (2, 12), (6, 8), (171, 0)], .smaxi false 33#6 { reg := 20#6, use := .keep } 171#8),
    (wordOf [(1, 31), (11, 26), (34, 20), (21, 14), (7, 8), (172, 0)], .sumini true 34#6 { reg := 21#6, use := .plain } 172#8),
    (wordOf [(11, 26), (35, 20), (22, 14), (1, 12), (8, 8), (173, 0)], .sumaxi false 35#6 { reg := 22#6, use := .last } 173#8),
    (wordOf [(1, 31), (11, 26), (36, 20), (23, 14), (2, 12), (9, 8), (174, 0)], .sandi true 36#6 { reg := 23#6, use := .keep } 174#8),
    (wordOf [(11, 26), (37, 20), (24, 14), (10, 8), (175, 0)], .sori false 37#6 { reg := 24#6, use := .plain } 175#8),
    (wordOf [(1, 31), (11, 26), (38, 20), (25, 14), (1, 12), (11, 8), (176, 0)], .sxori true 38#6 { reg := 25#6, use := .last } 176#8),
    (wordOf [(11, 26), (39, 20), (26, 14), (2, 12), (12, 8), (177, 0)], .sshli false 39#6 { reg := 26#6, use := .keep } 177#8),
    (wordOf [(1, 31), (11, 26), (40, 20), (27, 14), (13, 8), (178, 0)], .sshri true 40#6 { reg := 27#6, use := .plain } 178#8),
    (wordOf [(11, 26), (41, 20), (28, 14), (1, 12), (14, 8), (179, 0)], .ssrai false 41#6 { reg := 28#6, use := .last } 179#8),
    (wordOf [(1, 31), (11, 26), (42, 20), (15, 8), (175, 0)], .smovi true 42#6 175#8)] = true := by decide +kernel

/-- Major 12: words from their fields, each with the position of its low bit. -/
theorem test_decode_major_12 : decodes [
    (wordOf [(12, 26), (27, 20), (14, 14), (2, 12)], .mov false 27#6 { reg := 14#6, use := .keep }),
    (wordOf [(1, 31), (12, 26), (28, 20), (15, 14), (1, 0)], .vfroms true 28#6 { reg := 15#6, use := .plain }),
    (wordOf [(12, 26), (29, 20), (16, 14), (1, 12), (2, 0)], .sfromv false 29#6 { reg := 16#6, use := .last }),
    (wordOf [(1, 31), (12, 26), (30, 20), (17, 14), (2, 12), (24, 6), (3, 0)], .sel true 30#6 { reg := 17#6, use := .keep } { reg := 24#6, use := .plain }),
    (wordOf [(12, 26), (5, 20), (6, 14), (7, 6), (4, 0)], .pand false 5#3 6#3 7#3),
    (wordOf [(1, 31), (12, 26), (6, 20), (7, 14), (5, 0)], .por true 6#3 7#3 0#3),
    (wordOf [(12, 26), (7, 20), (1, 6), (6, 0)], .pxor false 7#3 0#3 1#3),
    (wordOf [(1, 31), (12, 26), (1, 14), (7, 0)], .pnot true 0#3 1#3),
    (wordOf [(12, 26), (35, 20), (2, 14), (8, 0)], .ptov false 35#6 2#3),
    (wordOf [(1, 31), (12, 26), (2, 20), (23, 14), (2, 12), (9, 0)], .vtop true 2#3 { reg := 23#6, use := .keep }),
    (wordOf [(12, 26), (37, 20), (16, 4), (10, 0)], .rdid false 37#6 16#8),
    (wordOf [(1, 31), (12, 26), (38, 20), (63, 12), (11, 0)], .rdst true 38#6 63#8),
    (wordOf [(12, 26), (17, 12), (26, 6), (2, 4), (12, 0)], .wrst false 17#8 { reg := 26#6, use := .keep }),
    (wordOf [(1, 31), (12, 26), (40, 20), (13, 0)], .clock true 40#6),
    (wordOf [(12, 26), (41, 20), (38574, 4), (14, 0)], .adr false 41#6 38574#16),
    (wordOf [(1, 31), (805306383, 0)], .nop true)] = true := by decide +kernel

/-- Major 13: words from their fields, each with the position of its low bit. -/
theorem test_decode_major_13 : decodes [
    (wordOf [(13, 26), (27, 20), (14, 14), (2, 12), (165, 4)], .ld8 false 27#6 { reg := 14#6, use := .keep } 165#8),
    (wordOf [(1, 31), (13, 26), (28, 20), (15, 14), (166, 4), (1, 0)], .ld8s true 28#6 { reg := 15#6, use := .plain } 166#8),
    (wordOf [(13, 26), (29, 20), (16, 14), (1, 12), (167, 4), (2, 0)], .ld16 false 29#6 { reg := 16#6, use := .last } 167#8),
    (wordOf [(1, 31), (13, 26), (30, 20), (17, 14), (2, 12), (168, 4), (3, 0)], .ld16s true 30#6 { reg := 17#6, use := .keep } 168#8),
    (wordOf [(13, 26), (31, 20), (18, 14), (169, 4), (4, 0)], .ld32 false 31#6 { reg := 18#6, use := .plain } 169#8),
    (wordOf [(1, 31), (13, 26), (19, 14), (1, 12), (170, 4), (5, 0)], .ld64 true 0#5 { reg := 19#6, use := .last } 170#8),
    (wordOf [(13, 26), (1, 22), (20, 14), (2, 12), (171, 4), (6, 0)], .ld128 false 1#4 { reg := 20#6, use := .keep } 171#8),
    (wordOf [(1, 31), (13, 26), (34, 20), (21, 14), (172, 4), (7, 0)], .ldfe true 34#6 { reg := 21#6, use := .plain } 172#8),
    (wordOf [(13, 26), (35, 20), (22, 14), (1, 12), (173, 4), (8, 0)], .ldft false 35#6 { reg := 22#6, use := .last } 173#8),
    (wordOf [(1, 31), (13, 26), (36, 20), (23, 14), (2, 12), (174, 4), (9, 0)], .ldfc true 36#6 { reg := 23#6, use := .keep } 174#8),
    (wordOf [(13, 26), (37, 20), (24, 14), (175, 4), (10, 0)], .lds32 false 37#6 { reg := 24#6, use := .plain } 175#8),
    (wordOf [(1, 31), (13, 26), (38, 20), (25, 14), (1, 12), (176, 4), (11, 0)], .ldtag true 38#6 { reg := 25#6, use := .last } 176#8)] = true := by decide +kernel

/-- Major 14: words from their fields, each with the position of its low bit. -/
theorem test_decode_major_14 : decodes [
    (wordOf [(14, 26), (27, 20), (14, 14), (2, 12), (165, 4)], .st8 false 27#6 { reg := 14#6, use := .keep } 165#8),
    (wordOf [(1, 31), (14, 26), (28, 20), (15, 14), (166, 4), (1, 0)], .st16 true 28#6 { reg := 15#6, use := .plain } 166#8),
    (wordOf [(14, 26), (29, 20), (16, 14), (1, 12), (167, 4), (2, 0)], .st32 false 29#6 { reg := 16#6, use := .last } 167#8),
    (wordOf [(1, 31), (14, 26), (30, 21), (17, 14), (2, 12), (168, 4), (3, 0)], .st64 true 30#5 { reg := 17#6, use := .keep } 168#8),
    (wordOf [(14, 26), (15, 22), (18, 14), (169, 4), (4, 0)], .st128 false 15#4 { reg := 18#6, use := .plain } 169#8),
    (wordOf [(1, 31), (14, 26), (32, 20), (19, 14), (1, 12), (170, 4), (5, 0)], .stf true 32#6 { reg := 19#6, use := .last } 170#8),
    (wordOf [(14, 26), (13, 14), (1, 12), (166, 4), (6, 0)], .ste false { reg := 13#6, use := .last } 166#8),
    (wordOf [(1, 31), (14, 26), (34, 20), (21, 14), (172, 4), (7, 0)], .sts32 true 34#6 { reg := 21#6, use := .plain } 172#8),
    (wordOf [(14, 26), (15, 14), (168, 4), (8, 0)], .stcd false { reg := 15#6, use := .plain } 168#8)] = true := by decide +kernel

/-- Major 15: words from their fields, each with the position of its low bit. -/
theorem test_decode_major_15 : decodes [
    (wordOf [(15, 26), (27, 20), (14, 14), (2, 12), (21, 6)], .aadd false 27#6 { reg := 14#6, use := .keep } { reg := 21#6, use := .plain }),
    (wordOf [(1, 31), (15, 26), (28, 20), (15, 14), (22, 6), (1, 4), (1, 0)], .amin true 28#6 { reg := 15#6, use := .plain } { reg := 22#6, use := .last }),
    (wordOf [(15, 26), (29, 20), (16, 14), (1, 12), (23, 6), (2, 4), (2, 0)], .amax false 29#6 { reg := 16#6, use := .last } { reg := 23#6, use := .keep }),
    (wordOf [(1, 31), (15, 26), (30, 20), (17, 14), (2, 12), (24, 6), (3, 0)], .aminn true 30#6 { reg := 17#6, use := .keep } { reg := 24#6, use := .plain }),
    (wordOf [(15, 26), (31, 20), (18, 14), (25, 6), (1, 4), (4, 0)], .amaxn false 31#6 { reg := 18#6, use := .plain } { reg := 25#6, use := .last }),
    (wordOf [(1, 31), (15, 26), (32, 20), (19, 14), (1, 12), (26, 6), (2, 4), (5, 0)], .aand true 32#6 { reg := 19#6, use := .last } { reg := 26#6, use := .keep }),
    (wordOf [(15, 26), (33, 20), (20, 14), (2, 12), (27, 6), (6, 0)], .aor false 33#6 { reg := 20#6, use := .keep } { reg := 27#6, use := .plain }),
    (wordOf [(1, 31), (15, 26), (34, 20), (21, 14), (28, 6), (1, 4), (7, 0)], .axor true 34#6 { reg := 21#6, use := .plain } { reg := 28#6, use := .last }),
    (wordOf [(15, 26), (35, 20), (22, 14), (1, 12), (29, 6), (2, 4), (8, 0)], .axch false 35#6 { reg := 22#6, use := .last } { reg := 29#6, use := .keep }),
    (wordOf [(1, 31), (15, 26), (36, 20), (23, 14), (2, 12), (30, 6), (9, 0)], .acas true 36#6 { reg := 23#6, use := .keep } { reg := 30#6, use := .plain }),
    (wordOf [(15, 26), (37, 20), (24, 14), (31, 6), (1, 4), (10, 0)], .afadd false 37#6 { reg := 24#6, use := .plain } { reg := 31#6, use := .last }),
    (wordOf [(1, 31), (15, 26), (38, 20), (25, 14), (1, 12), (32, 6), (2, 4), (11, 0)], .aincw true 38#6 { reg := 25#6, use := .last } { reg := 32#6, use := .keep })] = true := by decide +kernel

/-- Major 16: words from their fields, each with the position of its low bit. -/
theorem test_decode_major_16 : decodes [
    (wordOf [(16, 26), (11, 20), (14, 14), (2, 12), (21, 6)], .gredRaddi false 11#4 { reg := 14#6, use := .keep } { reg := 21#6, use := .plain }),
    (wordOf [(1, 31), (16, 26), (12, 20), (15, 14), (22, 6), (1, 4), (1, 0)], .gredRaddf true 12#4 { reg := 15#6, use := .plain } { reg := 22#6, use := .last }),
    (wordOf [(16, 26), (13, 20), (16, 14), (1, 12), (23, 6), (2, 4), (2, 0)], .gredRmini false 13#4 { reg := 16#6, use := .last } { reg := 23#6, use := .keep }),
    (wordOf [(1, 31), (16, 26), (14, 20), (17, 14), (2, 12), (24, 6), (3, 0)], .gredRmaxi true 14#4 { reg := 17#6, use := .keep } { reg := 24#6, use := .plain }),
    (wordOf [(16, 26), (15, 20), (18, 14), (25, 6), (1, 4), (4, 0)], .gredRminf false 15#4 { reg := 18#6, use := .plain } { reg := 25#6, use := .last }),
    (wordOf [(1, 31), (16, 26), (19, 14), (1, 12), (26, 6), (2, 4), (5, 0)], .gredRmaxf true 0#4 { reg := 19#6, use := .last } { reg := 26#6, use := .keep }),
    (wordOf [(16, 26), (1, 20), (20, 14), (2, 12), (27, 6), (6, 0)], .gredRand false 1#4 { reg := 20#6, use := .keep } { reg := 27#6, use := .plain }),
    (wordOf [(1, 31), (16, 26), (2, 20), (21, 14), (28, 6), (1, 4), (7, 0)], .gredRor true 2#4 { reg := 21#6, use := .plain } { reg := 28#6, use := .last }),
    (wordOf [(16, 26), (3, 20), (22, 14), (1, 12), (29, 6), (2, 4), (8, 0)], .gredRxor false 3#4 { reg := 22#6, use := .last } { reg := 29#6, use := .keep }),
    (wordOf [(1, 31), (16, 26), (4, 20), (23, 14), (2, 12), (30, 6), (9, 0)], .gredRaddb2 true 4#4 { reg := 23#6, use := .keep } { reg := 30#6, use := .plain }),
    (wordOf [(16, 26), (5, 20), (24, 14), (15, 7), (1, 4), (10, 0)], .gredRaddi64 false 5#4 { reg := 24#6, use := .plain } 15#5 .last)] = true := by decide +kernel

/-- Major 17: words from their fields, each with the position of its low bit. -/
theorem test_decode_major_17 : decodes [
    (wordOf [(17, 26), (431771, 0)], .br false 431771#19),
    (wordOf [(1, 31), (273, 22), (2, 19), (431777, 0)], .brt true 2#3 431777#19),
    (wordOf [(274, 22), (3, 19), (431778, 0)], .brf false 3#3 431778#19),
    (wordOf [(1, 31), (275, 22), (4, 19), (431779, 0)], .brany true 4#3 431779#19),
    (wordOf [(276, 22), (5, 19), (431780, 0)], .brall false 5#3 431780#19),
    (wordOf [(1, 31), (2216, 19), (431776, 0)], .call true 431776#19)] = true := by decide +kernel

/-- Major 18: words from their fields, each with the position of its low bit. -/
theorem test_decode_major_18 : decodes [
    (wordOf [(18, 26), (7, 14), (1, 12)], .jr false { reg := 7#6, use := .last }),
    (wordOf [(1, 31), (18, 26), (8, 14), (2, 12), (1, 0)], .callr true { reg := 8#6, use := .keep }),
    (wordOf [(1207959554, 0)], .ret false)] = true := by decide +kernel

/-- Major 19: words from their fields, each with the position of its low bit. -/
theorem test_decode_major_19 : decodes [
    (wordOf [(19, 26), (11, 18)], .mjoin false 11#4),
    (wordOf [(1, 31), (305, 22), (11, 18)], .mleave true 11#4),
    (wordOf [(306, 22), (11, 18)], .mwait false 11#4),
    (wordOf [(1, 31), (307, 22), (11, 18), (3, 0)], .mset true 11#4 3#5),
    (wordOf [(308, 22), (11, 18), (4, 0)], .mget false 11#4 4#5),
    (wordOf [(1, 31), (309, 22), (11, 18)], .mclr true 11#4),
    (wordOf [(310, 22), (11, 18)], .mtest false 11#4 0#3)] = true := by decide +kernel

/-- Major 20: words from their fields, each with the position of its low bit. -/
theorem test_decode_major_20 : decodes [
    (wordOf [(20, 26)], .bart false),
    (wordOf [(1, 31), (1346371584, 0)], .barg true),
    (wordOf [(5152, 18), (169629, 0)], .phase false 169629#18),
    (wordOf [(1, 31), (1354760192, 0)], .chend true),
    (wordOf [(1358954496, 0)], .fenl false),
    (wordOf [(1, 31), (325, 22), (169637, 0)], .bartc true 0#4 169637#18)] = true := by decide +kernel

/-- Major 21: words from their fields, each with the position of its low bit. -/
theorem test_decode_major_21 : decodes [
    (wordOf [(21, 26), (7, 14), (1, 12), (14, 6), (2, 4)], .spawn false { reg := 7#6, use := .last } { reg := 14#6, use := .keep }),
    (wordOf [(1, 31), (1409286145, 0)], .exit true),
    (wordOf [(1409286146, 0)], .yield false),
    (wordOf [(1, 31), (21, 26), (10, 14), (1, 12), (3, 0)], .sleep true { reg := 10#6, use := .last })] = true := by decide +kernel

/-- Major 22: words from their fields, each with the position of its low bit. -/
theorem test_decode_major_22 : decodes [
    (wordOf [(22, 26), (11, 22), (2, 19), (5, 12), (5, 8), (4, 4), (9, 0)], .mma false 11#4 2#3 5#4 0#1 5#3 4#4 9#4)] = true := by decide +kernel

/-- Major 23: words from their fields, each with the position of its low bit. -/
theorem test_decode_major_23 : decodes [
    (wordOf [(23, 26), (7, 14), (2, 12)], .tld false { reg := 7#6, use := .keep } 0#4),
    (wordOf [(1, 31), (23, 26), (28, 20), (15, 14), (6, 8), (1, 0)], .tldt8 true 28#6 { reg := 15#6, use := .plain } 6#4),
    (wordOf [(23, 26), (29, 20), (16, 14), (2, 12), (7, 8), (2, 0)], .tldt16 false 29#6 { reg := 16#6, use := .keep } 7#4),
    (wordOf [(1, 31), (23, 26), (10, 14), (2, 12), (3, 8), (2, 4), (3, 0)], .tst true { reg := 10#6, use := .keep } 3#4 2#4),
    (wordOf [(23, 26), (15, 8), (4, 0)], .tzero false 15#4),
    (wordOf [(1, 31), (23, 26), (12, 14), (5, 8), (5, 0)], .tscl true { reg := 12#6, use := .plain } 5#4),
    (wordOf [(23, 26), (1, 8), (6, 0)], .azero false 1#4),
    (wordOf [(1, 31), (23, 26), (7, 8), (2, 4), (7, 0)], .ard true 0#3 7#4 2#3),
    (wordOf [(23, 26), (1, 17), (2, 12), (8, 8), (3, 4), (8, 0)], .awr false 1#3 .keep 8#4 3#3),
    (wordOf [(1, 31), (23, 26), (16, 14), (9, 8), (14, 4), (9, 0)], .ald true { reg := 16#6, use := .plain } 9#4 14#4),
    (wordOf [(23, 26), (17, 14), (2, 12), (10, 8), (15, 4), (10, 0)], .ast false { reg := 17#6, use := .keep } 10#4 15#4),
    (wordOf [(1, 31), (23, 26), (6, 22), (11, 8), (6, 4), (11, 0)], .acvb true 6#4 11#4 6#3),
    (wordOf [(23, 26), (7, 21), (12, 8), (1, 4), (12, 0)], .acv8 false 7#5 12#4 1#4),
    (wordOf [(1, 31), (23, 26), (8, 8), (13, 4), (13, 0)], .tmov true 8#4 13#4)] = true := by decide +kernel

/-- Major 24: words from their fields, each with the position of its low bit. -/
theorem test_decode_major_24 : decodes [
    (wordOf [(24, 26), (27, 20), (14, 14), (2, 12)], .rng false 27#6 { reg := 14#6, use := .keep }),
    (wordOf [(1, 31), (24, 26), (28, 20), (15, 14), (22, 6), (1, 4), (1, 0)], .rng2 true 28#6 { reg := 15#6, use := .plain } { reg := 22#6, use := .last }),
    (wordOf [(24, 26), (29, 20), (16, 14), (1, 12), (2, 0)], .unif false 29#6 { reg := 16#6, use := .last }),
    (wordOf [(1, 31), (24, 26), (30, 20), (17, 14), (2, 12), (24, 6), (3, 0)], .bern true 30#6 { reg := 17#6, use := .keep } { reg := 24#6, use := .plain }),
    (wordOf [(24, 26), (5, 20), (18, 14), (25, 6), (1, 4), (4, 0)], .bernp false 5#3 { reg := 18#6, use := .plain } { reg := 25#6, use := .last }),
    (wordOf [(1, 31), (24, 26), (32, 20), (19, 14), (1, 12), (26, 6), (2, 4), (5, 0)], .srbf true 32#6 { reg := 19#6, use := .last } { reg := 26#6, use := .keep }),
    (wordOf [(24, 26), (33, 20), (20, 14), (2, 12), (27, 6), (6, 0)], .srf16 false 33#6 { reg := 20#6, use := .keep } { reg := 27#6, use := .plain }),
    (wordOf [(1, 31), (24, 26), (34, 20), (21, 14), (28, 6), (1, 4), (7, 0)], .sre4 true 34#6 { reg := 21#6, use := .plain } { reg := 28#6, use := .last }),
    (wordOf [(24, 26), (35, 20), (22, 14), (1, 12), (29, 6), (2, 4), (8, 0)], .sre5 false 35#6 { reg := 22#6, use := .last } { reg := 29#6, use := .keep })] = true := by decide +kernel

/-- Major 25: words from their fields, each with the position of its low bit. -/
theorem test_decode_major_25 : decodes [
    (wordOf [(25, 26), (27, 20), (14, 14), (2, 12), (21, 6)], .sample false 27#6 { reg := 14#6, use := .keep } { reg := 21#6, use := .plain }),
    (wordOf [(1, 31), (25, 26), (28, 20), (15, 14), (22, 6), (1, 4), (1, 0)], .topk true 28#6 { reg := 15#6, use := .plain } { reg := 22#6, use := .last }),
    (wordOf [(25, 26), (29, 20), (16, 14), (1, 12), (23, 6), (2, 4), (2, 0)], .argmax false 29#6 { reg := 16#6, use := .last } { reg := 23#6, use := .keep })] = true := by decide +kernel

/-- Major 26: words from their fields, each with the position of its low bit. -/
theorem test_decode_major_26 : decodes [
    (wordOf [(26, 26), (1, 20), (14, 14), (2, 12)], .forkc false 1#2 { reg := 14#6, use := .keep }),
    (wordOf [(1, 31), (26, 26), (15, 14), (1, 0)], .forkl true 0#1 { reg := 15#6, use := .plain }),
    (wordOf [(26, 26), (3, 20), (2, 0)], .rdv false 3#3),
    (wordOf [(1, 31), (26, 26), (30, 20), (1, 12), (8, 7), (1, 4), (3, 0)], .erset true 30#5 1#2 8#5 .last),
    (wordOf [(26, 26), (31, 21), (2, 12), (9, 4), (4, 0)], .erget false 31#5 2#2 9#5),
    (wordOf [(1, 31), (26, 26), (32, 20), (19, 14), (1, 12), (26, 6), (2, 4), (5, 0)], .hload true 32#6 { reg := 19#6, use := .last } { reg := 26#6, use := .keep }),
    (wordOf [(26, 26), (13, 14), (1, 12), (6, 0)], .hdrop false { reg := 13#6, use := .last }),
    (wordOf [(1, 31), (26, 26), (34, 20), (1, 12), (7, 0)], .estat true 34#6 1#3)] = true := by decide +kernel

/-- Major 27: words from their fields, each with the position of its low bit. -/
theorem test_decode_major_27 : decodes [
    (wordOf [(27, 26), (11, 14)], .lcfg false 11#4),
    (wordOf [(1, 31), (27, 26), (12, 20), (1, 14), (6, 6), (1, 0)], .lnld true 12#4 1#4 6#4),
    (wordOf [(27, 26), (13, 20), (2, 14), (7, 6), (2, 0)], .ljld false 13#4 2#4 7#4),
    (wordOf [(1, 31), (27, 26), (14, 20), (3, 14), (8, 6), (3, 0)], .lhld true 14#4 3#4 8#4),
    (wordOf [(27, 26), (15, 20), (4, 14), (9, 6), (4, 0)], .lsld false 15#4 4#4 9#4),
    (wordOf [(1, 31), (27, 26), (5, 14), (10, 6), (5, 0)], .lsst true 0#4 5#4 10#4),
    (wordOf [(27, 26), (1, 20), (6, 14), (11, 6), (6, 0)], .lclmp false 1#4 6#4 11#4),
    (wordOf [(1, 31), (27, 26), (2, 20), (7, 14), (7, 0)], .lswp true 2#4 7#4),
    (wordOf [(27, 26), (3, 20), (8, 14), (13, 6), (8, 0)], .lcnt false 3#4 8#4 13#4),
    (wordOf [(1, 31), (27, 26), (4, 14), (9, 0)], .lrstc true 4#4),
    (wordOf [(27, 26), (5, 20), (10, 14), (15, 6), (10, 0)], .lgmap false 5#4 10#4 15#4),
    (wordOf [(1, 31), (27, 26), (6, 20), (11, 14), (11, 0)], .lgref true 6#4 11#4 0#4),
    (wordOf [(27, 26), (7, 14), (12, 6), (12, 0)], .lhlth false 7#4 12#4),
    (wordOf [(1, 31), (27, 26), (8, 14), (13, 0)], .lkey true 8#4),
    (wordOf [(27, 26), (9, 20), (165, 12), (12, 4), (14, 0)], .laluLi false 9#4 0xA5C#12),
    (wordOf [(1, 31), (27, 26), (10, 20), (15, 14), (270, 0)], .laluAdd true 10#4 15#4),
    (wordOf [(1811939343, 0)], .lbrcLoop false),
    (wordOf [(1, 31), (27, 26), (12, 20), (271, 0)], .lbrcNext true 12#4),
    (wordOf [(27, 26), (13, 14), (527, 0)], .lbrcSig false 13#4),
    (wordOf [(1, 31), (1811940111, 0)], .lbrcEnd true)] = true := by decide +kernel

/-- Major 28: words from their fields, each with the position of its low bit. -/
theorem test_decode_major_28 : decodes [
    (wordOf [(28, 26), (27, 20), (5, 6)], .xcp false 27#5 0#5 5#5),
    (wordOf [(1, 31), (28, 26), (28, 20), (1, 14), (1, 0)], .xcpt true 28#5 1#5),
    (wordOf [(28, 26), (29, 20), (2, 14), (7, 6), (2, 0)], .xget false 29#5 2#5 7#5),
    (wordOf [(1, 31), (28, 26), (30, 20), (3, 14), (8, 6), (3, 0)], .xput true 30#5 3#5 8#5),
    (wordOf [(28, 26), (31, 20), (4, 14), (9, 6), (4, 0)], .xputd false 31#5 4#5 9#5),
    (wordOf [(1, 31), (28, 26), (5, 14), (10, 6), (5, 0)], .xred true 0#5 5#5 10#5),
    (wordOf [(28, 26), (1, 20), (6, 14), (11, 6), (6, 0)], .xgth false 1#5 6#5 11#5),
    (wordOf [(1, 31), (28, 26), (2, 20), (7, 14), (12, 6), (7, 0)], .xsct true 2#5 7#5 12#5),
    (wordOf [(28, 26), (3, 20), (8, 14), (13, 6), (8, 0)], .xbc false 3#5 8#5 13#5),
    (wordOf [(1, 31), (28, 26), (4, 20), (9, 14), (14, 6), (9, 0)], .xlat true 4#5 9#5 14#5),
    (wordOf [(28, 26), (5, 20), (10, 14), (15, 6), (10, 0)], .xfab false 5#5 10#5 15#5),
    (wordOf [(1, 31), (28, 26), (6, 14), (11, 0)], .xfen true 6#5),
    (wordOf [(28, 26), (7, 14), (12, 6), (12, 0)], .xsig false 7#5 12#5),
    (wordOf [(1, 31), (28, 26), (8, 14), (13, 6), (13, 0)], .xwte true 8#5 13#5),
    (wordOf [(28, 26), (9, 20), (165, 12), (12, 4), (14, 0)], .xaluLi false 9#5 0xA5C#12),
    (wordOf [(1, 31), (28, 26), (10, 20), (15, 14), (270, 0)], .xaluAdd true 10#5 15#5),
    (wordOf [(28, 26), (11, 20), (3, 12), (2, 8), (15, 4), (14, 0)], .xaluShl false 11#5 0x3F#12),
    (wordOf [(1, 31), (28, 26), (12, 20), (17, 14), (782, 0)], .xaluMul true 12#5 17#5),
    (wordOf [(1879048207, 0)], .xbrcLoop false),
    (wordOf [(1, 31), (28, 26), (14, 20), (271, 0)], .xbrcNext true 14#5),
    (wordOf [(1879048719, 0)], .xbrcEnd false)] = true := by decide +kernel

/-- Major 29: words from their fields, each with the position of its low bit. -/
theorem test_decode_major_29 : decodes [
    (wordOf [(29, 26), (155, 4)], .trap false 155#8),
    (wordOf [(1, 31), (1946157057, 0)], .tret true),
    (wordOf [(29, 26), (157, 4), (2, 0)], .brk false 157#8),
    (wordOf [(1, 31), (29, 26), (10, 14), (1, 12), (17, 6), (2, 4), (3, 0)], .setkey true { reg := 10#6, use := .last } { reg := 17#6, use := .keep }),
    (wordOf [(29, 26), (11, 14), (2, 12), (4, 0)], .setstrm false { reg := 11#6, use := .keep }),
    (wordOf [(1, 31), (29, 26), (5, 12), (5, 0)], .rdcnt true 0#5 5#5),
    (wordOf [(29, 26), (33, 20), (6, 0)], .amaxr false 33#6),
    (wordOf [(1, 31), (29, 26), (34, 20), (1, 12), (7, 0)], .rdtrap true 34#6 1#2),
    (wordOf [(29, 26), (15, 6), (8, 0)], .wrtrap false { reg := 15#6, use := .plain }),
    (wordOf [(1, 31), (29, 26), (16, 14), (1, 12), (9, 0)], .sethnd true { reg := 16#6, use := .last }),
    (wordOf [(1946157066, 0)], .killt false)] = true := by decide +kernel

/-- Major 30: words from their fields, each with the position of its low bit. -/
theorem test_decode_major_30 : decodes [
    (wordOf [(30, 26), (27, 20), (32, 14)], .launch false 27#6 32#6),
    (wordOf [(1, 31), (30, 26), (28, 20), (33, 14), (1, 0)], .evwait true 28#6 33#6),
    (wordOf [(30, 26), (29, 20), (34, 14), (2, 0)], .evpop false 29#6 34#6),
    (wordOf [(1, 31), (30, 26), (30, 20), (35, 14), (40, 6), (3, 0)], .evsig true 30#6 35#6 40#6),
    (wordOf [(30, 26), (31, 20), (36, 14), (41, 6), (4, 0)], .qcfg false 31#6 36#6 41#6),
    (wordOf [(1, 31), (30, 26), (32, 20), (37, 14), (5, 0)], .qfence true 32#6 37#6),
    (wordOf [(30, 26), (1, 21), (38, 14), (6, 0)], .qdig false 1#5 38#6),
    (wordOf [(1, 31), (30, 26), (34, 20), (39, 14), (7, 0)], .preempt true 34#6 39#6),
    (wordOf [(30, 26), (35, 20), (40, 14), (45, 6), (8, 0)], .kill false 35#6 40#6 45#6),
    (wordOf [(1, 31), (30, 26), (36, 20), (41, 14), (46, 6), (9, 0)], .ptout true 36#6 41#6 46#6),
    (wordOf [(30, 26), (37, 20), (42, 14), (47, 6), (10, 0)], .ckpt false 37#6 42#6 47#6),
    (wordOf [(1, 31), (30, 26), (38, 20), (43, 14), (11, 0)], .rstor true 38#6 43#6),
    (wordOf [(30, 26), (7, 21), (44, 14), (12, 0)], .phasec false 7#5 44#6)] = true := by decide +kernel

/-- Test-access codes (23 R426); an instruction register of another value holds no instruction. -/
theorem test_decode_tap :
    decodeTableWord 8 0x01 = some .idcode ∧ decodeTableWord 8 0x20 = some (.segsel 0) ∧
    decodeTableWord 8 0x21 = some .segread ∧ decodeTableWord 8 0xFF = some .bypass ∧ decodeTableWord 8 0x22 = none := by
  decide +kernel

/-- Words that the spec's examples give with their assembly (04 R80, 05 R100, R108, 09 R194, 11 R252, 15 R298, 16 R309,
R316, 17 R330). -/
theorem test_decode_examples : decodes [
    (0x101080C5, .fmin false 1#6 (r 2) (r 3)),
    (0x21204102, .icmpLt false 2#3 2#3 (r 1) (r 4)),
    (0x307FFFCE, .adr false 7#6 0xFFFC#16),
    (0x38304002, .st32 false 3#6 (r 1) 0#8),
    (0x34604004, .ld32 false 6#6 (r 1) 0#8),
    (0x68108000, .forkc false 1#2 (r 2)),
    (0x68100002, .rdv false 1#3),
    (0x68501007, .estat false 5#6 1#3),
    (0x7050604E, .xaluLi false 5#5 100#12),
    (0x14804087, .hdot2 false 8#6 (r 1) (r 2) 0#1),
    (0x60200000, .rng false 2#6 (r 0)),
    (0x60300044, .bernp false 3#3 (r 0) (r 1)),
    (0x60304085, .srbf false 3#6 (r 1) (r 2)),
    (0x0440008F, .iaddc false 4#6 (r 0) (r 2)),
    (0x18304088, .cvf2e4 false 3#6 (r 1) (r 2)),
    (0x1840C08B, .cve42f false 4#6 (r 3) (r 2))] = true := by
  decide +kernel

/-- Why a word is refused, none when it decodes. -/
noncomputable def refusal (w : Nat) : Option Reject :=
  match decodeWord w with
  | .ok _ => none
  | .error e => some e

/-- The words that 04's table after R90 calls illegal for every executor. -/
theorem test_decode_refused :
    [0x00000000, 0x82000000, 0x1C404008, 0x22000000, 0x44080003, 0x4C300000, 0x5800000B, 0x7000040E, 0x7C123456].map refusal
      = [some .zeroWord, some .hintWord, some .unassignedFunction, some .illegalValue, some .nonzeroField, some .illegalValue,
         some .illegalValue, some .unassignedFunction, some .reservedMajor] := by decide +kernel

/-- The hint of a word, none when it is illegal. -/
def hintAt (w : Nat) : Option Hint :=
  match decodeHint w with
  | .ok h => some h
  | .error _ => none

/-- Hints (03 R66 to R70): the run 0x021E_0000 of 16 R316's example sets sat and p7; S set, round 5 and route kind 7 are
illegal. -/
theorem test_decode_hints :
    hintAt 0x021E0000 = some (.mod 0#3 true 7#3 0#6) ∧ hintAt 0x00000001 = some (.imm 1#24) ∧
    hintAt (wordOf [(1, 24), (3, 20), (5, 12), (1, 11), (4, 8), (9, 0)]) =
      some (.route { last := false, kind := 3#3, par := 5#8 } { last := true, kind := 4#3, par := 9#8 }) ∧
    hintAt (wordOf [(3, 24), (1, 23), (2, 20)]) = some (.sched true false 2#2) ∧
    [0x82000000, wordOf [(2, 24), (5, 21)], wordOf [(1, 24), (7, 20)], wordOf [(2, 24), (1, 0)], 0x00000000].map hintAt =
      [none, none, none, none, none] := by decide +kernel

/-! ### Well-formedness: an ill-formed instruction for each check -/

theorem test_wf_combine : wellFormed (.icmpEq false 4#3 0#3 (r 1) (r 2)) = false := by decide

theorem test_wf_unrouted : wellFormed (.shfl false 1#6 { reg := 2#6, use := .routed } (r 3)) = false ∧
    wellFormed (.sadd false 1#6 (r 2) { reg := 3#6, use := .routed }) = false := by decide

theorem test_wf_identifier : wellFormed (.rdid false 1#6 17#8) = false := by decide

theorem test_wf_state_register : wellFormed (.rdst false 1#6 64#8) = false ∧ wellFormed (.wrst false 5#8 (r 2)) = false := by decide

theorem test_wf_mask : wellFormed (.mjoin false 12#4) = false := by decide

theorem test_wf_barrier_count : wellFormed (.bartc false 0#4 0#18) = false := by decide

theorem test_wf_matrix_type : wellFormed (.mma false 0#4 0#3 0#4 0#1 7#3 0#4 11#4) = false := by decide

theorem test_wf_tile : wellFormed (.tld false { reg := 2#6, use := .last } 0#4) = false ∧ wellFormed (.tst false (r 2) 0#4 3#4) = false ∧
    wellFormed (.awr false 0#3 .routed 0#4 0#3) = false := by decide

theorem test_wf_unit : wellFormed (.rdv false 6#3) = false ∧ wellFormed (.estat false 1#6 6#3) = false := by decide

theorem test_wf_pair_use : wellFormed (.erset false 0#5 0#2 0#5 .routed) = false := by decide

theorem test_wf_shift : wellFormed (.xaluShl false 1#5 64#12) = false := by decide

/-! ### One step on the small device, with results from the spec's examples -/

/-- Lane 0 holds these values in registers 1 to 3 and p6 = 0. -/
def withRegs (a b c : Word) : Group :=
  { group with regs := { group.regs with v := [(1, { val := a }), (2, { val := b }), (3, { val := c })] } }

/-- Register v of lane 0 after the instruction, none when it stops or traps there. -/
noncomputable def after (i : Instr) (g : Group) (n : Nat) : Option Word :=
  match exec i (stateOf g team launch) with
  | .next s => (tget s.groups 3).map (fun g => (readV g.regs 0 n).1)
  | _ => none

/-- Predicate n of lane 0 after the instruction. -/
noncomputable def predAfter (i : Instr) (g : Group) (n : Nat) : Option Bool :=
  match exec i (stateOf g team launch) with
  | .next s => (tget s.groups 3).map (fun g => (readP g.regs 0 n).1)
  | _ => none

/-- 05's example of BFE: pos 8, len 12, sx 1. -/
theorem test_bfe : after (.bfe false 1#6 (r 2) (r 3)) (withRegs 0#32 0x00987600#32 0x00010C08#32) 1 = some 0xFFFFF876#32 := by
  decide +kernel

/-- 05's example of BFI. -/
theorem test_bfi : after (.bfi false 1#6 (r 2) (r 3)) (withRegs 0xFFFFFFFF#32 0x00000ABC#32 0x00010C08#32) 1 =
    some 0xFFFABCFF#32 := by decide +kernel

/-- 05's example of IADDC, its low half: the sum 0 and the carry in p6. -/
theorem test_iaddc : after (.iaddc false 1#6 (r 2) (r 3)) (withRegs 0#32 0xFFFFFFFF#32 1#32) 1 = some 0#32 ∧
    predAfter (.iaddc false 1#6 (r 2) (r 3)) (withRegs 0#32 0xFFFFFFFF#32 1#32) 6 = some true := by decide +kernel

/-- 05 R95: a count is the whole immediate, unsigned. -/
theorem test_srai : after (.srai false 1#6 (r 2) 0xFF#8) (withRegs 0#32 0x80000000#32 0#32) 1 = some 0xFFFFFFFF#32 ∧
    after (.shli false 1#6 (r 2) 0xFF#8) (withRegs 0#32 1#32 0#32) 1 = some 0#32 := by decide +kernel

/-- 05 R96: the absolute value of the least number. -/
theorem test_iabs : after (.iabs false 1#6 (r 2)) (withRegs 0#32 0x80000000#32 0#32) 1 = some 0x80000000#32 := by decide +kernel

/-- 15 R296's examples: -2.5 under RNE and RDN, -0.25 upward. -/
theorem test_frint :
    [after (.frint false 1#6 (r 2) 0#2) (withRegs 0#32 0xC0200000#32 0#32) 1,
     after (.frint false 1#6 (r 2) 2#2) (withRegs 0#32 0xC0200000#32 0#32) 1,
     after (.frint false 1#6 (r 2) 3#2) (withRegs 0#32 0xBE800000#32 0#32) 1] =
      [some 0xC0000000#32, some 0xC0400000#32, some 0x80000000#32] := by decide +kernel

/-- 15 R296's example of FFRAC. -/
theorem test_ffrac : after (.ffrac false 1#6 (r 2)) (withRegs 0#32 0xC0200000#32 0#32) 1 = some 0xBF000000#32 := by decide +kernel

/-- 15 R299's example of HDOT2.bf16. -/
theorem test_hdot2 : after (.hdot2 false 1#6 (r 2) (r 3) 0#1) (withRegs 0#32 0x3F803F81#32 0xBF803F81#32) 1 =
    some 0x3C808000#32 := by decide +kernel

/-- 14's table of conversions to E4M3, scale code 0x7F. -/
theorem test_cvf2e4 :
    [0x43960000#32, 0x43FA0000#32, 0x7FC00000#32, 0x3A800000#32, 0xFF800000#32].map
      (fun x => after (.cvf2e4 false 1#6 (r 2) (r 3)) (withRegs 0#32 x 0x7F#32) 1) =
      [some 0x79#32, some 0x7E#32, some 0x7F#32, some 0x00#32, some 0xFE#32] := by decide +kernel

/-- 05 R101: the zeros compare equal and a NaN is unordered. -/
theorem test_icmp_fp : predAfter (.icmpFeq false 0#3 1#3 (r 2) (r 3)) (withRegs 0#32 0x80000000#32 0#32) 1 = some true ∧
    predAfter (.icmpFuno false 0#3 1#3 (r 2) (r 3)) (withRegs 0#32 0x7FC00000#32 0#32) 1 = some true := by decide +kernel

/-- 08 R174, R175: in an ordered launch a first store of three lanes to three blocks performs for the two segments of the
chunk, and the third lane stays at the word with the chunk ended. -/
theorem test_store_over_segments :
    (let lane : Lane := { status := .live }
     let g := { group with regs := { group.regs with
       lanes := [(0, lane), (1, lane), (2, lane)], v := [(2, { val := 0#32 }), (66, { val := 512#32 }), (130, { val := 1024#32 })] } }
     match exec (.st32 false 1#6 (r 2) 0#8) (stateOf g team { launch with mode := 1 }) with
     | .next t => (tget t.groups 3).map (fun x =>
         (x.inflight.map (chunkBlocks id), x.regs.lanes.map (fun e => (e.1, e.2.pc == x.regs.lanes.foldl (fun _ e => e.2.pc) 0#32))))
     | _ => none) = some ([[1, 0]], [(0, false), (1, false), (2, true)]) := by decide +kernel

/-- 16 R317's table of SRBF. -/
theorem test_srbf :
    [(0x3F808000#32, 0x7FFF#32), (0x3F808000#32, 0x8000#32), (0x3F808000#32, 0xABCD8000#32), (0x7F7FFFFF#32, 1#32),
     (0x80000001#32, 0xFFFF#32), (0x80000001#32, 0xFFFE#32), (0xFF801234#32, 0#32)].map (fun e => (srBf false e.1 e.2).code) =
      [0x3F80, 0x3F81, 0x3F81, 0x7F80, 0x8001, 0x8000, 0xFFC0] ∧ (srBf true 0x7F7FFFFF#32 1#32).code = 0x7F7F := by decide +kernel

/-- 18's example after R346: y = 32 gives q = 47,911. -/
theorem test_sigmoid : sigmoidQ 32 = 47911 := by decide +kernel

end Sys2Proof.Tests
end

section
/-! Every operation of the model keeps the five byte memories in canonical form. A rule `Canonical.f` says that the
state which `f` answers is canonical when the state it is given is: most operations write elsewhere, and the few that
write a memory do so by the operations of Laws/Memory. The rules follow the order of the model. -/

namespace Sys2Proof.Machine

open Sys2Proof

/-- The five byte memories of a state are in canonical form. -/
structure Canonical (s : State) : Prop where
  lmem : Memory.wf s.lmem = true
  lbits : Memory.wf s.lbits = true
  lsnap : Memory.wf s.lsnap = true
  cmem : Memory.wf s.cmem = true
  gmem : Memory.wf s.gmem = true

theorem memoriesWf_iff_canonical (s : State) : memoriesWf s = true ↔ Canonical s := by
  simp only [memoriesWf, Bool.and_eq_true]
  constructor
  · rintro ⟨⟨⟨⟨hl, hb⟩, hn⟩, hc⟩, hg⟩
    exact ⟨hl, hb, hn, hc, hg⟩
  · rintro ⟨hl, hb, hn, hc, hg⟩
    exact ⟨⟨⟨⟨hl, hb⟩, hn⟩, hc⟩, hg⟩

/-- An outcome that is a next state is one with canonical memories. -/
inductive CanonicalNext : Host.Outcome State Fault Refusal → Prop
  | next {s : State} (h : Canonical s) : CanonicalNext (.next s)
  | fault {r : Fault} : CanonicalNext (.fault r)
  | refused {r : Refusal} : CanonicalNext (.refused r)

theorem CanonicalNext.of_next {s : State} : CanonicalNext (.next s) → Canonical s
  | .next h => h

/-- The state that the result of a host's request holds, if any, has canonical memories. -/
inductive CanonicalResult : HostResult → Prop
  | done {s : State} {status : Nat} {payload : List Byte} (h : Canonical s) : CanonicalResult (.done s status payload)
  | begun {s : State} (h : Canonical s) : CanonicalResult (.begun s)
  | hold : CanonicalResult .hold

theorem CanonicalResult.of_done {s : State} {status : Nat} {payload : List Byte} :
    CanonicalResult (.done s status payload) → Canonical s
  | .done h => h

theorem CanonicalResult.of_begun {s : State} : CanonicalResult (.begun s) → Canonical s
  | .begun h => h

variable {s : State} {i : In} {q : Seq}

/-! ### Updates, choices and folds -/

/-- An update of any field but the memories. -/
theorem Canonical.elsewhere {cycle chipPhase dev parts launches teams retired groups clusters cores engines lattices
    biased gred pages lags lost fabric fabricOut spanOut pool sessions nextSession sent issue turn agenda nextId
    freeCount} (h : Canonical s) :
    Canonical
      { cycle := cycle, chipPhase := chipPhase, dev := dev, parts := parts, launches := launches, teams := teams,
        retired := retired, groups := groups, clusters := clusters, cores := cores, engines := engines,
        lattices := lattices, biased := biased, gred := gred, lmem := s.lmem, lbits := s.lbits, lsnap := s.lsnap,
        cmem := s.cmem, gmem := s.gmem, pages := pages, lags := lags, lost := lost, fabric := fabric,
        fabricOut := fabricOut, spanOut := spanOut, pool := pool, sessions := sessions, nextSession := nextSession,
        sent := sent, issue := issue, turn := turn, agenda := agenda, nextId := nextId, freeCount := freeCount } :=
  ⟨h.lmem, h.lbits, h.lsnap, h.cmem, h.gmem⟩

protected theorem Canonical.ite {a b : State} {c : Prop} [Decidable c] (ha : Canonical a) (hb : Canonical b) :
    Canonical (if c then a else b) := by
  split
  · exact ha
  · exact hb

protected theorem CanonicalNext.ite {a b : Host.Outcome State Fault Refusal} {c : Prop} [Decidable c]
    (ha : CanonicalNext a) (hb : CanonicalNext b) : CanonicalNext (if c then a else b) := by
  split
  · exact ha
  · exact hb

protected theorem CanonicalResult.ite {a b : HostResult} {c : Prop} [Decidable c] (ha : CanonicalResult a)
    (hb : CanonicalResult b) : CanonicalResult (if c then a else b) := by
  split
  · exact ha
  · exact hb

protected theorem Canonical.foldl {α : Type} {f : State → α → State} {xs : List α}
    (hf : ∀ {t x}, Canonical t → Canonical (f t x)) (h : Canonical s) : Canonical (xs.foldl f s) :=
  xs.foldlRecOn f h (fun _ ht _ _ => hf ht)

theorem forall_mem_none {α : Type} {P : α → Prop} : ∀ b ∈ (none : Option α), P b := fun _ hb => nomatch hb

theorem forall_mem_some {α : Type} {P : α → Prop} {a : α} (h : P a) : ∀ b ∈ some a, P b := fun _ hb => by
  cases hb
  exact h

theorem forall_mem_findSome? {α β : Type} {P : β → Prop} {f : α → Option β} {xs : List α}
    (h : ∀ x, ∀ b ∈ f x, P b) : ∀ b ∈ xs.findSome? f, P b := fun b hb => by
  obtain ⟨x, -, hx⟩ := List.exists_of_findSome?_eq_some hb
  exact h x b hx

theorem forall_mem_map {α β : Type} {P : β → Prop} {f : α → β} {o : Option α} (h : ∀ a ∈ o, P (f a)) :
    ∀ b ∈ o.map f, P b := fun b hb => by
  obtain ⟨a, ha, rfl⟩ := Option.map_eq_some_iff.mp hb
  exact h a ha

/-! ### Shared operations -/

protected theorem Canonical.setCluster {c v} (h : Canonical s) : Canonical (setCluster s c v) := .elsewhere h

protected theorem Canonical.setGroup {gid g} (h : Canonical s) : Canonical (setGroup s gid g) := .elsewhere h

protected theorem Canonical.setTeam {tid t} (h : Canonical s) : Canonical (setTeam s tid t) := .elsewhere h

protected theorem Canonical.setLaunch {lid l} (h : Canonical s) : Canonical (setLaunch s lid l) := .elsewhere h

protected theorem Canonical.setPart {n p} (h : Canonical s) : Canonical (setPart s n p) := .elsewhere h

protected theorem Canonical.onTeam {tid f} (h : Canonical s) : Canonical (onTeam s tid f) := .elsewhere h

protected theorem Canonical.setEngine {core unit e} (h : Canonical s) : Canonical (setEngine s core unit e) :=
  .elsewhere h

protected theorem Canonical.setLattice {core l v} (h : Canonical s) : Canonical (setLattice s core l v) :=
  .elsewhere h

protected theorem Canonical.bumpMgmt {i n} (h : Canonical s) : Canonical (bumpMgmt s i n) := .elsewhere h

protected theorem Canonical.pumpSession {sid fuel} (h : Canonical s) : Canonical (pumpSession s sid fuel) := by
  induction fuel generalizing s with
  | zero => exact h
  | succ fuel ih =>
    rw [pumpSession]
    split
    · exact h
    · split
      · exact h
      · exact .ite h (ih (.elsewhere h))

protected theorem Canonical.sendFrame {sid fr} (h : Canonical s) : Canonical (sendFrame s sid fr) := by
  unfold sendFrame
  split
  · exact h
  · exact .pumpSession (.elsewhere h)

protected theorem Canonical.hostEvent {part e} (h : Canonical s) : Canonical (hostEvent s part e) := by
  unfold hostEvent
  split
  · split
    · exact .sendFrame h
    · exact .bumpMgmt h
  · exact .bumpMgmt h

protected theorem Canonical.postNaming {limit c type source payload} (h : Canonical s) :
    Canonical (postNaming limit s c type source payload) := by
  unfold postNaming
  extract_lets _ _ s'
  have h' : Canonical s' := .setCluster h
  refine .ite ?_ h'
  split
  · exact .hostEvent h'
  · exact h'

protected theorem Canonical.postEvent {c type source payload} (h : Canonical s) :
    Canonical (postEvent s c type source payload) :=
  .postNaming h

protected theorem Canonical.openChunk {g kind} (h : Canonical s) : Canonical (openChunk s g kind).1 := .elsewhere h

protected theorem Canonical.chargeTeam {tid} (h : Canonical s) : Canonical (chargeTeam s tid) := by
  unfold chargeTeam
  split
  · exact h
  · split
    · exact h
    · exact .elsewhere (.setLaunch h)

protected theorem Canonical.killTeam {tid keepGred} (h : Canonical s) : Canonical (killTeam s tid keepGred) := by
  unfold killTeam
  split
  · exact h
  · exact .ite h (.elsewhere (.elsewhere (.chargeTeam h)))

protected theorem Canonical.stopControl {c type word off access} (h : Canonical s) :
    Canonical (stopControl s c type word off access) :=
  .postEvent (.setCluster h)

protected theorem Canonical.endProgram {core unit status off word} (h : Canonical s) :
    Canonical (endProgram s core unit status off word) := by
  unfold endProgram
  extract_lets
  split
  · exact h
  · extract_lets s2 s3
    have h2 : Canonical s2 := .ite (.setEngine h) (.onTeam (.setEngine h))
    have h3 : Canonical s3 := by
      unfold s3
      split
      · exact .elsewhere h2
      · exact h2
    exact .ite (.postEvent h3) h3

/-! ### The frames of words -/

protected theorem Canonical.assignWindow {tid n pick} (h : Canonical s) : Canonical (assignWindow s tid n pick) :=
  .elsewhere h

protected theorem Canonical.openWindow {tid} (h : Canonical s) : Canonical (openWindow s tid) := by
  unfold openWindow
  split
  · exact h
  · split
    · exact h
    · dsimp only
      refine .ite h ?_
      split
      · split
        · exact h
        · exact .setTeam h
      · split
        · exact h
        · exact .assignWindow (.setTeam h)

protected theorem Canonical.settleWindow {tid} (h : Canonical s) : Canonical (settleWindow s tid) := by
  unfold settleWindow
  split
  · exact h
  · exact .ite (.openWindow (.setTeam h)) h

protected theorem Canonical.putBack {i w g t} (h : Canonical i.s) : Canonical (putBack i w g t) := .elsewhere h

protected theorem Canonical.finish {i w} (h : Canonical i.s) : Canonical (finish i w) :=
  .ite h (.ite (.setGroup h) (.ite (.killTeam (.putBack h)) (.putBack h)))

protected theorem Canonical.illegalGroup {i} (h : Canonical i.s) : Canonical (illegalGroup i) := .finish h

protected theorem Canonical.issueIn {gid set f g0 t l} (h : Canonical s) :
    Canonical (issueIn s gid set f g0 t l).s := by
  unfold issueIn
  dsimp only
  split
  · exact h
  · exact .openChunk h

protected theorem CanonicalNext.groupIssue {gid set f body} (h : Canonical s) :
    CanonicalNext (groupIssue s gid set f body) := by
  unfold groupIssue
  split
  · exact .fault
  · exact .ite (.next (.illegalGroup (.issueIn h))) (.ite (.next h) (.next (.finish (.issueIn h))))

protected theorem Canonical.stopAtRun {c} (h : Canonical s) : Canonical (stopAtRun s c) := .stopControl h

protected theorem Canonical.stopAtWord {c} (h : Canonical s) : Canonical (stopAtWord s c) :=
  .ite (.stopAtRun h) (.stopControl h)

protected theorem CanonicalNext.groupOnly {f body} (h : Canonical s) : CanonicalNext (groupOnly s f body) := by
  unfold groupOnly
  split
  · exact .refused
  · exact .groupIssue h
  · exact .next (.stopAtWord h)
  · exact .next (.endProgram h)

protected theorem Canonical.storeControl {c st} (h : Canonical s) : Canonical (storeControl s c st) :=
  { h with cmem := mwrites_wf _ _ _ h.cmem }

protected theorem Canonical.controlIssue {c f body} (h : Canonical s) : Canonical (controlIssue s c f body) := by
  unfold controlIssue
  dsimp only
  refine .ite (.stopAtWord h) (.ite (.stopAtRun h) (.ite (.setCluster h) ?_))
  split
  · exact .stopControl h
  · exact .ite (.stopAtWord h) (.foldl .storeControl (.setCluster h))

protected theorem CanonicalNext.groupOrControl {f body cbody} (h : Canonical s) :
    CanonicalNext (groupOrControl s f body cbody) := by
  unfold groupOrControl
  split
  · exact .refused
  · exact .groupIssue h
  · exact .next (.controlIssue h)
  · exact .next (.endProgram h)

protected theorem CanonicalNext.controlOnly {f} (hf : ∀ {t a}, Canonical t → Canonical (f t a)) (h : Canonical s) :
    CanonicalNext (controlOnly s f) := by
  unfold controlOnly
  split
  · exact .refused
  · exact .groupIssue h
  · exact .next (hf h)
  · exact .next (.endProgram h)

protected theorem CanonicalNext.sequencerOnly {lat f} (hf : ∀ {t a b}, Canonical t → Canonical (f t a b))
    (h : Canonical s) : CanonicalNext (sequencerOnly s lat f) := by
  unfold sequencerOnly
  split
  · exact .refused
  · exact .groupIssue h
  · exact .next (.stopAtWord h)
  · exact .ite (.next (hf h)) (.next (.endProgram h))

/-! ### Atomics -/

protected theorem Canonical.openLatm {g set f} (h : Canonical s) : Canonical (openLatm s g set f).1 := by
  unfold openLatm
  dsimp only
  split
  · exact h
  · exact .openChunk h

protected theorem CanonicalNext.atomIssue {gid set f body} (h : Canonical s) :
    CanonicalNext (atomIssue s gid set f body) := by
  unfold atomIssue
  split
  · exact .fault
  · refine .ite (.groupIssue h) ?_
    split
    · exact .ite (.groupIssue h) (.groupIssue h)
    · exact .ite (.next h) (.groupIssue (.setGroup (.openLatm h)))

protected theorem CanonicalNext.atomXY {sw d x y readsD op} (h : Canonical s) :
    CanonicalNext (atomXY sw d x y s readsD op) := by
  unfold atomXY
  dsimp only
  split
  · exact .atomIssue h
  · exact .groupOnly h

/-! ### Sequencers and exchanges -/

protected theorem Canonical.seqAt {core unit} (h : Canonical s) : ∀ r ∈ seqAt s core unit, Canonical r.s := by
  unfold seqAt
  split
  · exact forall_mem_none
  · split
    · exact forall_mem_none
    · split
      · exact forall_mem_none
      · exact forall_mem_some h

protected theorem CanonicalNext.seqIssue {lat f} (hf : ∀ {r}, Canonical r.s → Canonical (f r)) (h : Canonical s) :
    CanonicalNext (seqIssue s lat f) := by
  refine .sequencerOnly (fun k => ?_) h
  split
  · exact k
  · next e => exact hf (.seqAt k _ e)

protected theorem Canonical.setProg {core unit p} (h : Canonical s) : Canonical (setProg s core unit p) :=
  .setEngine h

protected theorem Canonical.seqGo {q f} (h : Canonical q.s) : Canonical (seqGo q f) := .setProg h

protected theorem Canonical.seqDone {q} (h : Canonical s) : Canonical (seqDone q s) := .setProg h

protected theorem Canonical.seqFail {q status} (h : Canonical q.s) : Canonical (seqFail q status) := .endProgram h

protected theorem Canonical.seqStop {q status} (h : Canonical q.s) : Canonical (seqStop q status) := .endProgram h

protected theorem Canonical.loopPush {q} (h : Canonical q.s) : Canonical (loopPush q) := .ite (.seqFail h) (.seqGo h)

protected theorem Canonical.loopNext {q count put} (h : Canonical q.s) : Canonical (loopNext q count put) := by
  unfold loopNext
  split
  · exact .seqFail h
  · exact .ite (.setProg h) (.setProg h)

protected theorem Canonical.onExchange {part f} (h : Canonical s) : Canonical (onExchange s part f) := .elsewhere h

protected theorem Canonical.noteWriter {part pages who} (h : Canonical s) : Canonical (noteWriter s part pages who) :=
  .onExchange h

protected theorem Canonical.noteBefore {part words} (h : Canonical s) : Canonical (noteBefore s part words) :=
  .onExchange h

protected theorem Canonical.noteReads {q p n} (h : Canonical s) : Canonical (noteReads q p n s) := by
  unfold noteReads
  split
  · exact h
  · exact .onExchange h

protected theorem Canonical.exchangeWrite {q ws} (h : Canonical s) : Canonical (exchangeWrite q ws s) :=
  .noteWriter (.onExchange h)

protected theorem Canonical.bumpCounter {lid i n thr} (h : Canonical s) : Canonical (bumpCounter s lid i n thr) := by
  unfold bumpCounter
  split
  · exact h
  · exact .ite (.postEvent (.setLaunch h)) (.setLaunch h)

protected theorem Canonical.applyCounts {tid counts} (h : Canonical s) : Canonical (applyCounts s tid counts) := by
  unfold applyCounts
  split
  · exact h
  · exact .foldl .bumpCounter h

/-! ### Copy programs -/

protected theorem Canonical.aluReg {q n v} (h : Canonical q.s) : Canonical (aluReg q n v) := .seqGo h

protected theorem Canonical.exchangeOnly {q f} (hf : ∀ {r}, Canonical r.s → Canonical (f r)) (h : Canonical q.s) :
    Canonical (exchangeOnly q f) :=
  .ite (hf h) (.seqFail h)

protected theorem Canonical.lostRead {q} (h : Canonical q.s) : Canonical (lostRead q) := .killTeam h

protected theorem Canonical.engineChunk {q reads writes f mark} (h : Canonical q.s) :
    Canonical (engineChunk q reads writes f mark) :=
  .setProg (.elsewhere h)

protected theorem Canonical.transferOp {q kd kx d x y needD needX ops act}
    (hact : ∀ {r a b c d}, Canonical r.s → Canonical (act r a b c d)) (h : Canonical q.s) :
    Canonical (transferOp q kd kx d x y needD needX ops act) := by
  unfold transferOp
  split
  · exact .seqFail h
  · refine .ite (.seqFail h) (.ite (.seqDone h) ?_)
    split
    · exact .ite (hact h) (.seqFail h)
    · exact .seqFail h

protected theorem Canonical.exchangeCopy {q dst src n} (h : Canonical q.s) : Canonical (exchangeCopy q dst src n) := by
  unfold exchangeCopy
  split
  · exact .lostRead h
  · exact .seqDone (.exchangeWrite (.noteReads h))

protected theorem CanonicalNext.execXcp {sw d x y} (h : Canonical s) : CanonicalNext (execXcp sw d x y s) :=
  .seqIssue (fun k => .transferOp (fun k => .ite (.exchangeCopy k) (.ite (.seqFail k) (.engineChunk k))) k) h

protected theorem CanonicalNext.execXcpt {sw d x} (h : Canonical s) : CanonicalNext (execXcpt sw d x s) := by
  refine .seqIssue (fun k => ?_) h
  dsimp only
  refine .ite (.seqFail k) ?_
  split
  · exact .seqFail k
  · refine .ite (.seqFail k) ?_
    split
    · exact .seqFail k
    · refine .ite (.seqFail k) (.ite (.seqFail k) (.ite (.seqDone (.exchangeWrite k)) ?_))
      exact .ite (.seqFail k) (.engineChunk k)

protected theorem CanonicalNext.execXget {sw d x y} (h : Canonical s) : CanonicalNext (execXget sw d x y s) :=
  .seqIssue (fun k => .exchangeOnly (fun k => .transferOp .exchangeCopy k) k) h

protected theorem CanonicalNext.execXput {sw d x y} (h : Canonical s) : CanonicalNext (execXput sw d x y s) :=
  .seqIssue (fun k => .exchangeOnly (fun k => .transferOp .exchangeCopy k) k) h

protected theorem CanonicalNext.execXputd {sw d x y} (h : Canonical s) : CanonicalNext (execXputd sw d x y s) := by
  refine .seqIssue (fun k => .exchangeOnly (fun k => .transferOp (fun k => ?_) k) k) h
  split
  · exact .lostRead k
  · exact .seqDone (.exchangeWrite k)

protected theorem CanonicalNext.execXred {sw d x y} (h : Canonical s) : CanonicalNext (execXred sw d x y s) := by
  refine .seqIssue (fun k => .exchangeOnly (fun k => .transferOp (fun k => ?_) k) k) h
  split
  · exact .lostRead k
  · exact .seqDone (.noteWriter (.onExchange k))

protected theorem CanonicalNext.execXgth {sw d x y} (h : Canonical s) : CanonicalNext (execXgth sw d x y s) := by
  refine .seqIssue (fun k => .exchangeOnly (fun k => ?_) k) h
  split
  · exact .ite (.seqDone k) (.seqFail k)
  · exact .ite (.seqDone (.exchangeWrite (.foldl .noteReads k))) (.lostRead k)

protected theorem CanonicalNext.execXsct {sw d x y} (h : Canonical s) : CanonicalNext (execXsct sw d x y s) := by
  refine .seqIssue (fun k => .exchangeOnly (fun k => ?_) k) h
  split
  · exact .ite (.seqDone k) (.seqFail k)
  · split
    · exact .lostRead k
    · exact .seqDone (.exchangeWrite k)

protected theorem CanonicalNext.execXbc {sw d x y} (h : Canonical s) : CanonicalNext (execXbc sw d x y s) := by
  refine .seqIssue (fun k => .exchangeOnly (fun k => ?_) k) h
  dsimp only
  split
  · exact .seqFail k
  · refine .ite (.seqFail k) (.ite (.seqDone k) ?_)
    split
    · exact .seqFail k
    · refine .ite (.seqFail k) (.ite (.seqFail k) ?_)
      split
      · exact .lostRead k
      · exact .seqDone (.exchangeWrite (.noteReads k))

protected theorem CanonicalNext.execXlat {sw d x y} (h : Canonical s) : CanonicalNext (execXlat sw d x y s) := by
  refine .seqIssue (fun k => .exchangeOnly (fun k => ?_) k) h
  dsimp only
  split
  · exact .seqFail k
  · refine .ite (.seqFail k) (.ite (.seqDone k) ?_)
    refine .ite (.seqFail k) ?_
    split
    · exact .seqDone (.onExchange k)
    · exact .seqFail k

protected theorem CanonicalNext.execXfab {sw d x y} (h : Canonical s) : CanonicalNext (execXfab sw d x y s) := by
  refine .seqIssue (fun k => .exchangeOnly (fun k => ?_) k) h
  dsimp only
  split
  · exact .seqFail k
  · refine .ite (.seqFail k) (.ite (.seqDone k) ?_)
    split
    · exact .seqFail k
    · exact .ite (.seqFail k) (.ite (.seqFail k) (.ite k (.setProg (.elsewhere k))))

protected theorem CanonicalNext.execXfen {sw x} (h : Canonical s) : CanonicalNext (execXfen sw x s) := by
  refine .seqIssue (fun k => ?_) h
  dsimp only
  refine .ite (.seqFail k) ?_
  split
  · exact .seqFail k
  · exact .ite k (.ite (.seqDone (.onExchange k)) (.seqDone k))

protected theorem CanonicalNext.execXsig {sw x y} (h : Canonical s) : CanonicalNext (execXsig sw x y s) := by
  refine .seqIssue (fun k => ?_) h
  split
  · exact .seqFail k
  · extract_lets _ _ s1 s2
    have h1 : Canonical s1 := .setCluster k
    have h2 : Canonical s2 := .ite (.onExchange h1) h1
    exact .seqDone (.ite (.postEvent h2) h2)

protected theorem CanonicalNext.execXwte {sw x y} (h : Canonical s) : CanonicalNext (execXwte sw x y s) := by
  refine .seqIssue (fun k => ?_) h
  split
  · exact .seqFail k
  · exact .ite (.seqFail k) (.ite k (.ite (.seqDone (.onExchange k)) (.seqDone k)))

protected theorem CanonicalNext.execXaluShl {sw d imm} (h : Canonical s) : CanonicalNext (execXaluShl sw d imm s) :=
  .seqIssue (fun k => .ite (.seqFail k) (.aluReg k)) h

/-! ### Lattice programs -/

protected theorem Canonical.loadLattice {core unit lid fn first count raw} (h : Canonical s) :
    ∀ r, loadLattice s core unit lid fn first count raw = .ok r → Canonical r := by
  unfold loadLattice
  split
  · exact fun _ e => nomatch e
  · dsimp only
    split
    · split
      · exact fun _ e => nomatch e
      · split
        · exact fun _ e => nomatch e
        · exact fun _ e => Except.ok.inj e ▸ .setLattice h
    · split
      · exact fun _ e => nomatch e
      · exact fun _ e => Except.ok.inj e ▸ .setLattice h
    · exact fun _ e => Except.ok.inj e ▸ .setLattice h

protected theorem Canonical.latticeLoad {q fn first count a n} (h : Canonical q.s) :
    Canonical (latticeLoad q fn first count a n) := by
  unfold latticeLoad
  split
  · exact .seqFail h
  · exact .engineChunk h

protected theorem Canonical.latticeStore {q a bs} (h : Canonical q.s) : Canonical (latticeStore q a bs) := by
  unfold latticeStore
  split
  · exact .seqFail h
  · exact .engineChunk h

protected theorem CanonicalNext.bulk {d x y limit bits act} (hact : ∀ {r a b c}, Canonical r.s → Canonical (act r a b c))
    (h : Canonical s) : CanonicalNext (bulk s d x y limit bits act) :=
  .seqIssue (fun k => .ite (.seqDone k) (.ite (.seqFail k) (hact k))) h

protected theorem CanonicalNext.execLrstc {sw x} (h : Canonical s) : CanonicalNext (execLrstc sw x s) :=
  .seqIssue (fun k => .setProg (.setLattice k)) h

protected theorem CanonicalNext.execLswp {sw d x} (h : Canonical s) : CanonicalNext (execLswp sw d x s) := by
  refine .seqIssue (fun k => ?_) h
  dsimp only
  split
  · exact .seqFail k
  · exact .ite (.seqFail k) (.ite (.setProg k) (.setProg k))

protected theorem CanonicalNext.execLhlth {sw x y} (h : Canonical s) : CanonicalNext (execLhlth sw x y s) := by
  refine .seqIssue (fun k => ?_) h
  dsimp only
  refine .ite (.seqFail k) ?_
  split
  · exact .seqFail k
  · exact .setProg k

protected theorem CanonicalNext.execLbrcSig {sw x} (h : Canonical s) : CanonicalNext (execLbrcSig sw x s) :=
  .seqIssue (fun k => .seqDone (.postEvent k)) h

/-! ### Monitors and the wear record -/

protected theorem Canonical.addSamples {index vs} (h : Canonical s) : Canonical (addSamples s index vs) :=
  .elsewhere h

protected theorem Canonical.addSample {index v} (h : Canonical s) : Canonical (addSample s index v) := .addSamples h

protected theorem Canonical.sampleBias {lat counts} (h : Canonical s) : Canonical (sampleBias s lat counts) :=
  .addSamples h

protected theorem Canonical.clearInto {index log2 width base} (h : Canonical s) :
    Canonical (clearInto s index log2 width base) :=
  .elsewhere h

protected theorem Canonical.takeSamples {index} (h : Canonical s) : Canonical (takeSamples s index) :=
  .ite (.elsewhere (.addSamples h)) h

protected theorem Canonical.postNotice {kind unit} (h : Canonical s) : Canonical (postNotice s kind unit) :=
  .ite (.bumpMgmt (.elsewhere h)) (.elsewhere h)

protected theorem Canonical.writeWear {f} (h : Canonical s) : Canonical (writeWear s f) := .bumpMgmt (.elsewhere h)

protected theorem Canonical.markBiased {lat b} (h : Canonical s) : Canonical (markBiased s lat b) :=
  .ite h (.writeWear (.elsewhere h))

/-! ### Reserved bytes -/

protected theorem Canonical.reserveTeam {tid} (h : Canonical s) : Canonical (reserveTeam s tid) := by
  unfold reserveTeam
  split
  · exact h
  · split
    · exact .setTeam h
    · exact h

/-! ### Launches -/

protected theorem Canonical.freeSlots {tid} (h : Canonical s) : Canonical (freeSlots s tid) := .elsewhere h

protected theorem Canonical.freeLattices {tid} (h : Canonical s) : Canonical (freeLattices s tid) := .elsewhere h

protected theorem Canonical.removeTeam {tid} (h : Canonical s) : Canonical (removeTeam s tid) :=
  .elsewhere (.freeLattices (.freeSlots h))

protected theorem Canonical.chainQueue {fuel part q} (h : Canonical s) : Canonical (chainQueue fuel s part q) := by
  induction fuel generalizing s with
  | zero => exact h
  | succ fuel ih =>
    rw [chainQueue]
    split
    · exact h
    · exact .ite h (ih (.elsewhere (.setLaunch h)))

protected theorem Canonical.writeGlobal {a bs} (h : Canonical s) : Canonical (writeGlobal s a bs) :=
  { h with gmem := mwrites_wf _ _ _ h.gmem }

protected theorem Canonical.writeLogHeader {l c count complete} (h : Canonical s) :
    Canonical (writeLogHeader s l c count complete) := by
  unfold writeLogHeader
  split
  · exact h
  · exact .ite h (.writeGlobal h)

protected theorem Canonical.recordEntry {lid c e} (h : Canonical s) : Canonical (recordEntry s lid c e) := by
  unfold recordEntry
  split
  · exact h
  · dsimp only
    refine .ite h ?_
    split
    · exact h
    · exact .ite (.setLaunch (.writeGlobal h)) (.postEvent (.foldl .writeLogHeader (.setLaunch h)))

protected theorem Canonical.closeLogs {l clusters} (h : Canonical s) : Canonical (closeLogs s l clusters) :=
  .ite (.foldl (fun k => .ite (.writeLogHeader k) k) h) h

protected theorem Canonical.endLaunch {lid status reason} (h : Canonical s) :
    Canonical (endLaunch s lid status reason) := by
  unfold endLaunch
  split
  · exact h
  · exact .chainQueue (.postNaming (.setLaunch (.closeLogs h)))

protected theorem Canonical.settleLaunch {lid} (h : Canonical s) : Canonical (settleLaunch s lid) := by
  unfold settleLaunch
  split
  · exact h
  · exact .ite (.endLaunch h) h

protected theorem Canonical.settleLaunches (h : Canonical s) : Canonical (settleLaunches s) := .foldl .settleLaunch h

protected theorem Canonical.abortLaunch {lid status} (h : Canonical s) : Canonical (abortLaunch s lid status) :=
  .settleLaunch (.elsewhere (.foldl .freeSlots (.foldl .killTeam h)))

/-! ### Arrivals -/

protected theorem Canonical.reportLate {n p type late remote} (h : Canonical s) :
    Canonical (reportLate s n p type late remote) :=
  .foldl .postEvent (.setPart h)

protected theorem Canonical.expireStraggler {n} (h : Canonical s) : Canonical (expireStraggler s n) := by
  unfold expireStraggler
  split
  · exact h
  · exact .reportLate h

protected theorem Canonical.expireExchange {n} (h : Canonical s) : Canonical (expireExchange s n) := by
  unfold expireExchange
  split
  · exact h
  · exact .reportLate h

/-! ### Groups and spawn records -/

protected theorem Canonical.formGroup {tid index core lanes} (h : Canonical s) :
    Canonical (formGroup s tid index core lanes) := by
  unfold formGroup
  split
  · exact h
  · split
    · exact h
    · exact .elsewhere (.setGroup (.setTeam (.setLaunch h)))

protected theorem Canonical.setBin {core b x} (h : Canonical s) : Canonical (setBin s core b x) := .elsewhere h

protected theorem Canonical.addRecord {tid core b entry arg parent} (h : Canonical s) :
    Canonical (addRecord s tid core b entry arg parent) := by
  unfold addRecord
  split
  · exact h
  · exact .setBin (.setTeam h)

protected theorem Canonical.formFrom {core b x tid} (h : Canonical s) : Canonical (formFrom s core b x tid) := by
  unfold formFrom
  split
  · exact h
  · exact .setBin (.formGroup (.setTeam h))

protected theorem Canonical.formSpawns {fuel core} (h : Canonical s) : Canonical (formSpawns fuel s core) := by
  induction fuel generalizing s with
  | zero => exact h
  | succ fuel ih =>
    rw [formSpawns]
    split
    · exact ih (.formFrom h)
    · exact h

protected theorem Canonical.flushTeam {tid} (h : Canonical s) : Canonical (flushTeam s tid) := .elsewhere h

/-! ### Saves and restores of teams -/

protected theorem Canonical.clearChanged {t l} (h : Canonical s) : Canonical (clearChanged s t l) :=
  { h with lsnap := foldl_mwrite_wf _ _ (fun _ _ hm => mclear_wf _ _ _ hm) _ h.lsnap }

protected theorem Canonical.freshAllocation {t l} (h : Canonical s) : Canonical (freshAllocation s t l) :=
  .foldl (fun k => { k with lmem := mwrites_wf _ _ _ (mclear_wf _ _ _ k.lmem), lbits := mclear_wf _ _ _ k.lbits }) h

protected theorem Canonical.rewindGens {tid part t x} (h : Canonical s) : Canonical (rewindGens s tid part t x) :=
  .elsewhere h

protected theorem Canonical.snapshotTeam {tid} (h : Canonical s) : Canonical (snapshotTeam s tid) := by
  unfold snapshotTeam
  split
  · exact h
  · split
    · exact h
    · exact .clearChanged (.setTeam h)

protected theorem Canonical.restoreGroup {tid t l keep g} (h : Canonical s) :
    Canonical (restoreGroup s tid t l keep g) := by
  unfold restoreGroup
  extract_lets _ _ _ _ _ _ _ s1
  have h1 : Canonical s1 := .elsewhere (.setGroup h)
  exact .ite h1 (.elsewhere h1)

protected theorem Canonical.restoreRecord {tid r} (h : Canonical s) : Canonical (restoreRecord tid s r) := by
  unfold restoreRecord
  split
  · exact h
  · dsimp only
    split
    · exact .setTeam h
    · exact .setBin h

protected theorem Canonical.enterOwed {tid} (h : Canonical s) : Canonical (enterOwed s tid) := by
  unfold enterOwed
  split
  · exact h
  · exact .ite h (.foldl .restoreRecord (.setTeam h))

protected theorem Canonical.restoreTeam {tid t l keep x} (h : Canonical s) :
    Canonical (restoreTeam s tid t l keep x) := by
  unfold restoreTeam
  extract_lets _ u s1 s2
  have h2 : Canonical s2 :=
    .foldl (fun k => { k with
      lmem := putRange_wf _ _ _ _ _ k.lmem
      lbits := putRange_wf _ _ _ _ _ k.lbits }) (.setTeam h)
  exact .foldl .restoreRecord (.foldl .restoreGroup (.elsewhere (.clearChanged h2)))

protected theorem Canonical.resumeTeam {tid} (h : Canonical s) : Canonical (resumeTeam s tid) := .elsewhere h

/-! ### Commits -/

protected theorem Canonical.squashGroup {gid} (h : Canonical s) : Canonical (squashGroup s gid) := by
  unfold squashGroup
  split
  · exact h
  · split
    · exact h
    · exact .settleWindow (.elsewhere (.setGroup h))

protected theorem Canonical.squashUnit {core unit} (h : Canonical s) : Canonical (squashUnit s core unit) := by
  unfold squashUnit
  split
  · exact h
  · split
    · exact h
    · exact .onTeam (.setProg h)

protected theorem Canonical.askToken {c o count mode} (h : Canonical s) : Canonical (askToken s c o count mode) :=
  .ite (.ite h (.setCluster h)) h

protected theorem Canonical.conflictSquash {c o} (h : Canonical s) : Canonical (conflictSquash s c o) := by
  unfold conflictSquash
  split
  · split
    · exact h
    · exact .askToken (.elsewhere (.squashGroup h))
  · split
    · exact h
    · extract_lets s1 s2
      have h1 : Canonical s1 := .squashUnit h
      have h2 : Canonical s2 := by
        unfold s2
        split
        · exact .setProg h1
        · exact h1
      exact .askToken h2

protected theorem Canonical.applyStores {c} (h : Canonical s) : Canonical (applyStores s c) := by
  obtain ⟨hl, hb, hn⟩ := applyStores_wf s c ⟨h.lmem, h.lbits, h.lsnap⟩
  exact ⟨hl, hb, hn, h.cmem, h.gmem⟩

protected theorem Canonical.addEntry {gid g t l n off fn v} (h : Canonical s) :
    Canonical (addEntry s gid g t l n off fn v) :=
  .ite (.elsewhere h) (.elsewhere h)

protected theorem Canonical.addFork {gid g unit offset} (h : Canonical s) : Canonical (addFork s gid g unit offset) :=
  .elsewhere (.elsewhere (.setEngine h))

protected theorem Canonical.onSlot {part k f} (h : Canonical s) : Canonical (onSlot s part k f) := .elsewhere h

protected theorem Canonical.applyEff {gid g e} (h : Canonical s) : Canonical (applyEff gid g s e) := by
  unfold applyEff
  split
  · exact h
  · split
    · exact h
    · split
      · exact .setTeam h
      · exact .setTeam h
      · exact .applyCounts h
      · exact .addEntry h
      · exact h
      · exact .addFork h
      · exact .setTeam h
      · exact .onSlot h
      · exact .onSlot h
      · exact .setTeam h
      · exact h

protected theorem Canonical.applySpawns {g effs} (h : Canonical s) : Canonical (applySpawns g s effs) :=
  .foldl .addRecord h

protected theorem Canonical.noteDepends {tid cluster c} (h : Canonical s) : Canonical (noteDepends s tid cluster c) :=
  .onTeam h

protected theorem Canonical.takeIndex {c} (h : Canonical s) : Canonical (takeIndex s c) := .setCluster h

protected theorem Canonical.logCommit {lid c kind who seq} (h : Canonical s) :
    Canonical (logCommit s lid c kind who seq) := by
  unfold logCommit
  split
  · exact h
  · exact .ite (.recordEntry h) (.ite (.setLaunch h) h)

protected theorem Canonical.noteEngine {lid c tid} (h : Canonical s) : Canonical (noteEngine s lid c tid) :=
  .elsewhere h

protected theorem Canonical.dropToken {c o} (h : Canonical s) : Canonical (dropToken s c o) := .setCluster h

protected theorem Canonical.mergeCohort {lid cluster cohort} (h : Canonical s) :
    Canonical (mergeCohort s lid cluster cohort) := by
  unfold mergeCohort
  split
  · exact h
  · exact .ite (.elsewhere h) h

protected theorem Canonical.noteRound {t cluster q} (h : Canonical s) : Canonical (noteRound s t cluster q) :=
  .mergeCohort (.elsewhere h)

protected theorem Canonical.noteWindow {mode tid} (h : Canonical s) : Canonical (noteWindow mode s tid) := by
  unfold noteWindow
  split
  · exact h
  · split
    · exact h
    · exact .ite (.assignWindow (.setTeam h)) h

protected theorem Canonical.watchWindow {tid} (h : Canonical s) : Canonical (watchWindow s tid) :=
  .noteWindow (.openWindow (.settleWindow h))

protected theorem Canonical.commitGroup {gid} (h : Canonical s) : Canonical (commitGroup s gid) := by
  unfold commitGroup
  split
  · exact h
  · split
    · exact h
    · extract_lets _ _ _ _ _ _ s4
      have h4 : Canonical s4 :=
        .noteRound (.logCommit (.noteDepends (.applySpawns
          (.foldl .applyEff (.applyStores (.dropToken (.takeIndex (.setGroup h))))))))
      exact .watchWindow (.addSample (.ite (.reserveTeam h4) h4))

protected theorem Canonical.commitEmpty {gid} (h : Canonical s) : Canonical (commitEmpty s gid) := by
  unfold commitEmpty
  split
  · exact h
  · exact .watchWindow (.noteRound (.takeIndex (.setGroup h)))

protected theorem Canonical.commitUnit {core unit} (h : Canonical s) : Canonical (commitUnit s core unit) := by
  unfold commitUnit
  split
  · exact h
  · split
    · exact h
    · extract_lets _ _ _ s1 s2 s3 _ s4 _ s5
      have h3 : Canonical s3 :=
        .logCommit (.noteDepends (.noteEngine (.setLaunch (.addSample (.applyStores (.dropToken (.takeIndex h)))))))
      have h5 : Canonical s5 := by
        unfold s5
        split
        · exact .markBiased (.setProg h3)
        · exact .setProg h3
      split
      · split
        · next e => exact .loadLattice h5 _ e
        · exact .endProgram (.setProg h3)
      · exact h5

protected theorem Canonical.grantToken {c} (h : Canonical s) : Canonical (grantToken s c) := by
  unfold grantToken
  dsimp only
  split
  · exact .ite (.setCluster h) h
  · exact h

protected theorem Canonical.commitOne {x} (h : Canonical s) : Canonical (commitOne s x) := by
  unfold commitOne
  split
  · exact .ite (.commitEmpty h) (.commitGroup h)
  · exact .commitUnit h

protected theorem Canonical.broadcast {c x} (h : Canonical s) : Canonical (broadcast s c x) :=
  .ite h (.foldl .conflictSquash h)

protected theorem Canonical.releaseTeam {tid w} (h : Canonical s) : Canonical (releaseTeam s tid w) := by
  unfold releaseTeam
  split
  · exact h
  · exact .elsewhere h

protected theorem Canonical.settleBarriers {tid} (h : Canonical s) : Canonical (settleBarriers s tid) := by
  unfold settleBarriers
  split
  · exact h
  · exact .ite h (.ite (.releaseTeam h) (.ite (.foldl .releaseTeam h) h))

protected theorem Canonical.releaseGeneration {tid who} (h : Canonical s) :
    Canonical (releaseGeneration s tid who) := by
  unfold releaseGeneration
  split
  · exact h
  · exact .elsewhere h

protected theorem Canonical.arriveOne {tid gid k n lane} (h : Canonical s) :
    Canonical (arriveOne s tid gid k n lane).1 := by
  unfold arriveOne
  split
  · exact h
  · dsimp only
    split
    · exact h
    · split
      · exact .releaseGeneration (.setTeam h)
      · exact .setTeam h

protected theorem Canonical.arriveCounted {gid} (h : Canonical s) : Canonical (arriveCounted s gid) := by
  unfold arriveCounted
  split
  · exact h
  · refine .ite h (.foldl .elsewhere ?_)
    exact List.foldlRecOn (motive := fun r : State × List (Nat × Arrival) => Canonical r.1) _ _ h
      (fun _ k _ _ => .arriveOne k)

protected theorem Canonical.retireTeam {tid} (h : Canonical s) : Canonical (retireTeam s tid) := by
  unfold retireTeam
  split
  · exact h
  · exact .ite h (.settleLaunch (.elsewhere (.elsewhere (.removeTeam (.chargeTeam h)))))

protected theorem Canonical.settleDoom {c} (h : Canonical s) : Canonical (settleDoom s c) := .foldl .killTeam h

protected theorem Canonical.settleSpawns {c} (h : Canonical s) : Canonical (settleSpawns s c) :=
  .elsewhere (.foldl .formSpawns (.foldl (fun k => .ite (.flushTeam k) k) (.foldl .enterOwed h)))

protected theorem Canonical.settleCluster {c first} (h : Canonical s) : Canonical (settleCluster s c first) :=
  .foldl .noteWindow (.foldl .retireTeam (.foldl .settleBarriers
    (.settleSpawns (.elsewhere (.foldl .arriveCounted (.elsewhere (.settleDoom h)))))))

protected theorem Canonical.settleSweeps {c} (h : Canonical s) : Canonical (settleSweeps s c) := .elsewhere h

protected theorem Canonical.rejudge {x} (h : Canonical s) : Canonical (rejudge s x) := by
  unfold rejudge
  split
  · exact .squashGroup h
  · exact h

protected theorem Canonical.commitCluster {c} (h : Canonical s) : Canonical (commitCluster s c) := by
  unfold commitCluster
  extract_lets _ _ _ _ _ s3
  have h3 : Canonical s3 := .foldl .broadcast (.foldl .commitOne (.foldl .rejudge (.grantToken (.settleSweeps h))))
  exact .settleCluster (.grantToken (.ite h3 (.setCluster h3)))

/-! ### Control words -/

protected theorem CanonicalNext.ctlOp {x y f} (hf : ∀ {t a b c d e}, Canonical t → Canonical (f t a b c d e))
    (h : Canonical s) : CanonicalNext (ctlOp s x y f) := by
  refine .controlOnly (fun k => ?_) h
  dsimp only
  refine .ite (.stopAtRun k) (.ite (.setCluster k) ?_)
  split
  · exact k
  · exact hf k

protected theorem Canonical.onCtl {c f} (h : Canonical s) : Canonical (onCtl s c f) := .setCluster h

protected theorem Canonical.ctlDone {c d v} (h : Canonical s) : Canonical (ctlDone s c d v) := .onCtl h

protected theorem Canonical.ctlDone2 {c d v} (h : Canonical s) : Canonical (ctlDone2 s c d v) := .onCtl h

protected theorem Canonical.ctlWait {c w} (h : Canonical s) : Canonical (ctlWait s c w) := .onCtl h

protected theorem Canonical.ctlWake {c d v} (h : Canonical s) : Canonical (ctlWake s c d v) := .onCtl h

protected theorem Canonical.ctlAddress {c access} (h : Canonical s) : Canonical (ctlAddress s c access) :=
  .stopControl h

protected theorem CanonicalNext.execLaunch {sw d x} (h : Canonical s) : CanonicalNext (execLaunch sw d x s) := by
  refine .ctlOp (fun k => ?_) h
  refine .ite (.ctlAddress k) ?_
  dsimp only
  refine .ite (.ctlAddress k) ?_
  split
  · exact k
  · split
    · exact .ctlDone k
    · exact .ctlDone (.elsewhere (.setLaunch (.setPart k)))

protected theorem CanonicalNext.execEvwait {sw d x} (h : Canonical s) : CanonicalNext (execEvwait sw d x s) := by
  refine .ctlOp (fun k => ?_) h
  dsimp only
  refine .ite (.ctlDone k) ?_
  split
  · exact k
  · exact .ctlWait k

protected theorem CanonicalNext.execEvpop {sw d x} (h : Canonical s) : CanonicalNext (execEvpop sw d x s) := by
  refine .ctlOp (fun k => ?_) h
  dsimp only
  split
  · exact .ctlDone k
  · exact .ite (.ctlAddress k) (.ctlDone (.storeControl (.setCluster k)))

protected theorem CanonicalNext.execEvsig {sw d x y} (h : Canonical s) : CanonicalNext (execEvsig sw d x y s) := by
  refine .ctlOp (fun k => ?_) h
  split
  · exact k
  · exact .ite (.ctlDone (.hostEvent (.setPart k))) (.ite (.ctlDone k) (.ite (.ctlDone k) (.ctlDone (.postEvent k))))

protected theorem CanonicalNext.execQcfg {sw d x y} (h : Canonical s) : CanonicalNext (execQcfg sw d x y s) := by
  refine .ctlOp (fun k => ?_) h
  split
  · exact .ctlDone (.setPart k)
  · exact .ctlDone k

protected theorem CanonicalNext.execQfence {sw d x} (h : Canonical s) : CanonicalNext (execQfence sw d x s) := by
  refine .ctlOp (fun k => ?_) h
  refine .ite (.ctlDone k) ?_
  dsimp only
  refine .ite (.onCtl (.ctlDone k)) ?_
  split
  · exact k
  · exact .ctlWait k

protected theorem CanonicalNext.execPreempt {sw d x} (h : Canonical s) : CanonicalNext (execPreempt sw d x s) := by
  refine .ctlOp (fun k => ?_) h
  split
  · exact .ctlDone k
  · exact .ite (.ctlDone (.setLaunch k)) (.ctlDone k)

protected theorem CanonicalNext.execPtout {sw d x y} (h : Canonical s) : CanonicalNext (execPtout sw d x y s) := by
  refine .ctlOp (fun k => ?_) h
  extract_lets s1
  have h1 : Canonical s1 := by
    unfold s1
    split
    · exact .ite (.expireStraggler k) (.ite (.expireExchange k) k)
    · exact k
  split
  · exact k
  · split
    · exact .ite (.ctlDone h1) (.ctlDone (.setPart h1))
    · exact .ite (.ctlDone h1) (.ctlDone (.setPart h1))
    · refine .ite (.ctlDone h1) ?_
      split
      · exact .ctlDone h1
      · exact .ctlDone (.setPart h1)
    · refine .ite (.ctlDone h1) ?_
      split
      · exact .ctlDone h1
      · exact .ctlDone (.setPart h1)
    · exact .ctlDone h1

protected theorem CanonicalNext.execPhasec {sw d x} (h : Canonical s) : CanonicalNext (execPhasec sw d x s) := by
  refine .ctlOp (fun k => ?_) h
  split
  · exact k
  · exact .ctlDone2 k

protected theorem Canonical.ckptRequest {n p mode desc who} (h : Canonical s) :
    Canonical (ckptRequest s n p mode desc who).1 := by
  unfold ckptRequest
  dsimp only
  split
  · exact h
  · split
    · split
      · exact h
      · exact .setPart h
    · split
      · exact h
      · exact h
      · exact h
      · split
        · exact h
        · exact .setPart h

protected theorem Canonical.restoreRequest {n p desc who} (h : Canonical s) :
    Canonical (restoreRequest s n p desc who).1 := by
  unfold restoreRequest
  split
  · exact h
  · split
    · exact h
    · split
      · exact h
      · exact .setPart h

protected theorem CanonicalNext.execCkpt {sw d x y} (h : Canonical s) : CanonicalNext (execCkpt sw d x y s) := by
  refine .ctlOp (fun k => ?_) h
  split
  · exact k
  · exact k
  · refine .ite (.ctlAddress k) ?_
    split
    · exact k
    · extract_lets r
      have hr : Canonical r.1 := .ckptRequest k
      split
      · exact .ctlDone hr
      · exact .ctlWait hr

protected theorem CanonicalNext.execRstor {sw d x} (h : Canonical s) : CanonicalNext (execRstor sw d x s) := by
  refine .ctlOp (fun k => ?_) h
  split
  · exact k
  · refine .ite (.ctlAddress k) ?_
    split
    · exact k
    · extract_lets r
      have hr : Canonical r.1 := .restoreRequest k
      split
      · exact .ctlDone hr
      · exact .ctlWait hr

/-! ### Placement and dispatch -/

protected theorem Canonical.placeNew {lid l gang index size cores} (h : Canonical s) :
    Canonical (placeNew s lid l gang index size cores) :=
  .snapshotTeam (.foldl .formGroup (.freshAllocation (.elsewhere (.setTeam h))))

protected theorem Canonical.placeSaved {tid t l x cores} (h : Canonical s) : Canonical (placeSaved s tid t l x cores) :=
  .snapshotTeam (.restoreTeam h)

protected theorem Canonical.placeInCluster {lid l gang size c} (h : Canonical s) :
    ∀ r ∈ placeInCluster s lid l gang size c, Canonical r := by
  refine List.foldlRecOn (motive := fun o => ∀ r ∈ o, Canonical r) _ _ (forall_mem_some h) (fun o ho _ _ => ?_)
  cases o with
  | none => exact forall_mem_none
  | some t => exact forall_mem_map (fun _ _ => .placeNew (ho t rfl))

protected theorem Canonical.restoreInCluster {l teams allow c} (h : Canonical s) :
    ∀ r ∈ restoreInCluster s l teams allow c, Canonical r := by
  refine List.foldlRecOn (motive := fun o => ∀ r ∈ o, Canonical r) _ _ (forall_mem_some h) (fun o ho _ _ => ?_)
  split
  · next t _ _ => exact forall_mem_map (fun _ _ => .placeSaved (ho t rfl))
  · exact forall_mem_none

protected theorem Canonical.placeCurve {lid l gang size k c base} (h : Canonical s) :
    ∀ r ∈ placeCurve s lid l gang size k c base, Canonical r.1 := by
  unfold placeCurve
  dsimp only
  split
  · exact forall_mem_none
  · split
    · exact forall_mem_none
    · exact forall_mem_some (.foldl .placeNew h)

protected theorem Canonical.writeShape {l off bs} (h : Canonical s) : Canonical (writeShape s l off bs) :=
  .ite (.writeGlobal h) h

protected theorem Canonical.recordShape {lid l gang e} (h : Canonical s) : Canonical (recordShape s lid l gang e) :=
  .elsewhere (.writeShape (.ite (.writeShape h) h))

protected theorem Canonical.placeRank {p lid l} (h : Canonical s) : ∀ r ∈ placeRank s p lid l, Canonical r := by
  dsimp only [placeRank]
  split
  · split
    · exact forall_mem_none
    · exact forall_mem_map (.placeCurve h)
  · exact forall_mem_findSome? (fun _ => forall_mem_map (fun _ e => .recordShape (.placeCurve h _ e)))

protected theorem Canonical.placeNext {p lid l} (h : Canonical s) : ∀ r ∈ placeNext s p lid l, Canonical r :=
  forall_mem_findSome? (fun _ => forall_mem_findSome? (fun _ => .placeInCluster h))

protected theorem Canonical.placeOne {p lid} (h : Canonical s) : ∀ r ∈ placeOne s p lid, Canonical r := by
  unfold placeOne
  split
  · exact forall_mem_none
  · split
    · split
      · exact forall_mem_none
      · exact forall_mem_map (fun t e => .elsewhere (forall_mem_findSome? (fun _ => .restoreInCluster h) t e))
    · split
      · exact forall_mem_none
      · refine forall_mem_map (fun t e => .elsewhere ?_)
        split at e
        · exact .placeNext h t e
        · exact .placeRank h t e

protected theorem Canonical.placeAll {fuel p lid} (h : Canonical s) : Canonical (placeAll fuel s p lid) := by
  induction fuel generalizing s with
  | zero => exact h
  | succ fuel ih =>
    rw [placeAll]
    split
    · next e => exact ih (.placeOne h _ e)
    · exact h

protected theorem Canonical.settleHead {fuel n q} (h : Canonical s) : Canonical (settleHead fuel s n q) := by
  induction fuel generalizing s with
  | zero => exact h
  | succ fuel ih =>
    rw [settleHead]
    split
    · refine .ite h ?_
      split
      · exact h
      · exact ih (.endLaunch h)
      · split
        · exact ih (.endLaunch (.setLaunch h))
        · exact .setLaunch h
    · exact h

protected theorem Canonical.settleHeads {n} (h : Canonical s) : Canonical (settleHeads s n) :=
  .foldl (fun k => .foldl .settleHead k) h

protected theorem Canonical.dispatchLoop {fuel n} (h : Canonical s) : Canonical (dispatchLoop fuel s n) := by
  induction fuel generalizing s with
  | zero => exact h
  | succ fuel ih =>
    rw [dispatchLoop]
    have h1 : Canonical (settleHeads s n) := .settleHeads h
    dsimp only
    split
    · exact h1
    · split
      · exact h1
      · split
        · exact h1
        · split
          · exact h1
          · exact ih (.placeAll (.setPart h1))

protected theorem Canonical.reportRefused {n} (h : Canonical s) : Canonical (reportRefused s n) := by
  refine .foldl (fun k => ?_) h
  split
  · split
    · exact .postEvent k
    · exact k
  · exact k

protected theorem Canonical.dispatchPart {n} (h : Canonical s) : Canonical (dispatchPart s n) := by
  unfold dispatchPart
  split
  · exact h
  · exact .dispatchLoop (.reportRefused (.setPart h))

/-! ### Requests of sessions -/

protected theorem Canonical.replyTo {sid o status payload} (h : Canonical s) :
    Canonical (replyTo s sid o status payload) :=
  .sendFrame h

protected theorem CanonicalResult.refuse {status} (h : Canonical s) : CanonicalResult (refuse s status) := .done h

protected theorem Canonical.mapPages {part arg pages} (h : Canonical s) :
    ∀ r ∈ mapPages s part arg pages, Canonical r := by
  refine List.foldlRecOn (motive := fun o => ∀ r ∈ o, Canonical r) _ _ (forall_mem_some h) (fun o ho _ _ => ?_)
  cases o with
  | none => exact forall_mem_none
  | some t =>
    have ht : Canonical t := ho t rfl
    exact forall_mem_map (fun _ _ => { ht with gmem := mclear_wf _ _ _ ht.gmem })

protected theorem Canonical.setAttributes {n arg g} (h : Canonical s) : Canonical (setAttributes s n arg g) :=
  .ite h (.elsewhere h)

protected theorem CanonicalResult.hostLoad {n p space a data close} (h : Canonical s) :
    CanonicalResult (hostLoad s n p space a data close) := by
  unfold hostLoad
  refine .ite (.refuse h) (.ite (.refuse h) ?_)
  refine .ite (.ite (.refuse h) (.ite .hold (.done (.noteWriter (.writeGlobal h))))) ?_
  refine .ite (.refuse h) ?_
  split
  · exact .refuse h
  · exact .ite (.refuse h) (.ite (.refuse h) (.done (.storeControl h)))

protected theorem CanonicalResult.hostRead {n p space a len close} (h : Canonical s) :
    CanonicalResult (hostRead s n p space a len close) := by
  unfold hostRead
  refine .ite (.refuse h) (.ite (.refuse h) ?_)
  refine .ite (.ite (.refuse h) (.ite .hold (.ite (.refuse h) (.done h)))) (.ite (.refuse h) ?_)
  split
  · exact .refuse h
  · exact .ite (.refuse h) (.done h)

protected theorem CanonicalResult.hostAtomic {n op a operand compare close} (h : Canonical s) :
    CanonicalResult (hostAtomic s n op a operand compare close) :=
  .ite (.refuse h) (.ite (.refuse h) (.ite (.done (.bumpMgmt h)) (.ite .hold (.ite (.refuse h)
    (.ite (.done h) (.done (.noteWriter (.writeGlobal h))))))))

protected theorem CanonicalResult.xlateQuery {n a arg} (h : Canonical s) : CanonicalResult (xlateQuery s n a arg) := by
  unfold xlateQuery
  refine .ite (.refuse h) ?_
  split
  · exact .refuse h
  · exact .ite (.refuse h) (.done h)

protected theorem CanonicalResult.xlateMap {n p a len arg} (h : Canonical s) :
    CanonicalResult (xlateMap s n p a len arg) := by
  unfold xlateMap
  refine .ite (.refuse h) ?_
  dsimp only
  refine .ite (.refuse h) ?_
  split
  · next e => exact .done (.mapPages h _ e)
  · exact .refuse h

protected theorem CanonicalResult.xlateUnmap {n a len arg} (h : Canonical s) :
    CanonicalResult (xlateUnmap s n a len arg) :=
  .ite (.refuse h) (.ite (.refuse h) (.ite .hold (.done (.elsewhere h))))

protected theorem CanonicalResult.xlateAttributes {n p a len arg close} (h : Canonical s) :
    CanonicalResult (xlateAttributes s n p a len arg close) :=
  .ite (.refuse h) (.ite (.refuse h) (.ite .hold (.done (.setPart h))))

protected theorem CanonicalResult.xlateWindow {n p a len arg} (h : Canonical s) :
    CanonicalResult (xlateWindow s n p a len arg) := by
  unfold xlateWindow
  dsimp only
  refine .ite (.refuse h) (.ite (.refuse h) (.ite (.done (.setPart h)) ?_))
  split
  · exact .done (.setPart h)
  · exact .done h

protected theorem CanonicalResult.xlateMigrate {n p a len arg} (h : Canonical s) :
    CanonicalResult (xlateMigrate s n p a len arg) :=
  .ite (.refuse h) (.ite (.refuse h) (.done (.setPart h)))

protected theorem CanonicalResult.hostStart {n p cluster entry replace base image args} (h : Canonical s) :
    CanonicalResult (hostStart s n p cluster entry replace base image args) :=
  .ite (.refuse h) (.ite (.refuse h) (.ite (.refuse h) (.ite (.refuse h) (.ite (.refuse h)
    (.done (.onCtl (.storeControl h)))))))

protected theorem CanonicalResult.doRequest {sid x r close} (h : Canonical s) :
    CanonicalResult (doRequest s sid x r close) := by
  unfold doRequest
  split
  · exact .refuse h
  · split
    · exact .refuse h
    · extract_lets
      split
      · exact .hostLoad h
      · exact .hostRead h
      · exact .hostStart h
      · exact .xlateQuery h
      · exact .xlateMap h
      · exact .xlateUnmap h
      · exact .xlateAttributes h
      · exact .xlateWindow h
      · exact .xlateMigrate h
      · exact .refuse h
      · exact .hostAtomic h
      · refine .ite (.refuse h) ?_
        extract_lets o
        have ho : Canonical o.1 := by
          unfold o
          split
          · exact .restoreRequest h
          · exact .ckptRequest h
        split
        · exact .done ho
        · exact .begun ho
      · exact .refuse h

protected theorem Canonical.onSession {sid f} (h : Canonical s) : Canonical (onSession s sid f) := .elsewhere h

protected theorem Canonical.stepSession {sid close} (h : Canonical s) :
    ∀ r ∈ stepSession s sid close, Canonical r := by
  unfold stepSession
  split
  · exact forall_mem_none
  · next x _ =>
    split
    · next w rest _ _ =>
      have hr := CanonicalResult.doRequest (sid := sid) (x := x) (r := w.req) (close := close)
        (.onSession (sid := sid) (f := fun y => { y with waiting := rest, held := false }) h)
      split
      · exact forall_mem_none
      · split
        · split
          · exact forall_mem_none
          · exact forall_mem_some (.onSession h)
        · next e => exact forall_mem_some (.onSession (e ▸ hr).of_begun)
        · next e => exact forall_mem_some (.replyTo (e ▸ hr).of_done)
    · exact forall_mem_none

protected theorem Canonical.drainSession {fuel sid} (h : Canonical s) : Canonical (drainSession fuel s sid) := by
  induction fuel generalizing s with
  | zero => exact h
  | succ fuel ih =>
    rw [drainSession]
    split
    · next e => exact ih (.stepSession h _ e)
    · exact h

protected theorem Canonical.answerSession {sid payload} (h : Canonical s) :
    Canonical (answerSession s sid payload) := by
  unfold answerSession
  split
  · exact h
  · exact .drainSession (.replyTo (.onSession h))

protected theorem Canonical.answerWaiter {w v} (h : Canonical s) : Canonical (answerWaiter s w v) := by
  unfold answerWaiter
  split
  · exact .answerSession h
  · split
    · exact .ctlWake h
    · exact .ctlWake h
    · exact .ctlWake h
    · exact h

protected theorem Canonical.closeRequests {fuel n passed} (h : Canonical s) :
    Canonical (closeRequests fuel s n passed) := by
  induction fuel generalizing s passed with
  | zero => exact h
  | succ fuel ih =>
    rw [closeRequests]
    split
    · exact h
    · split
      · next e => exact ih (.stepSession h _ e)
      · exact ih h

/-! ### Checkpoints -/

protected theorem Canonical.setCkpt {n f} (h : Canonical s) : Canonical (setCkpt s n f) := .elsewhere h

protected theorem Canonical.answerAll {ws v} (h : Canonical s) : Canonical (answerAll s ws v) :=
  .foldl .answerWaiter h

protected theorem Canonical.captureCkpt {n} (h : Canonical s) : Canonical (captureCkpt s n) := by
  unfold captureCkpt
  split
  · exact h
  · refine .ite h ?_
    extract_lets _ _ _ _ _ s4
    have h4 : Canonical s4 := .answerAll (.setCkpt (.ite (.elsewhere (.elsewhere h)) (.elsewhere h)))
    exact .ite h4 (.answerAll h4)

protected theorem Canonical.endDrain {n ok} (h : Canonical s) : Canonical (endDrain s n ok) := by
  unfold endDrain
  split
  · exact h
  · split
    · exact .answerAll (.setCkpt (.ite (.elsewhere h) h))
    · exact h

protected theorem Canonical.restorePages {i} (h : Canonical s) : Canonical (restorePages s i) :=
  { h with gmem := foldl_mwrite_wf _ _ (fun _ _ hm => mwrite_wf _ _ _ hm) _ (filter_wf _ _ h.gmem) }

protected theorem Canonical.restoreImage {n p i} (h : Canonical s) : Canonical (restoreImage s n p i) :=
  .elsewhere (.restorePages h)

protected theorem Canonical.finishRestore {n p desc read} (h : Canonical s) :
    Canonical (finishRestore s n p desc read).1 := by
  unfold finishRestore
  split
  · exact h
  · split
    · exact h
    · split
      · exact h
      · split
        · exact h
        · split
          · exact h
          · exact .restoreImage h

protected theorem CanonicalNext.execRstorComplete {part read} (h : Canonical s) :
    CanonicalNext (execRstorComplete part read s) := by
  unfold execRstorComplete
  refine .next (.ite h ?_)
  split
  · exact h
  · split
    · exact h
    · exact .answerWaiter (.finishRestore (.setCkpt h))

/-! ### Kills -/

protected theorem Canonical.settleKills (h : Canonical s) : Canonical (settleKills s) := .foldl .settleCluster h

protected theorem Canonical.killNow {tid} (h : Canonical s) : Canonical (killNow s tid) := .settleKills (.killTeam h)

protected theorem CanonicalNext.afterKill {o} (h : CanonicalNext o) : CanonicalNext (afterKill o) := by
  cases h with
  | next h => exact .next (.settleKills h)
  | fault => exact .fault
  | refused => exact .refused

protected theorem CanonicalNext.execKill {sw d x y} (h : Canonical s) : CanonicalNext (execKill sw d x y s) := by
  refine .afterKill (.ctlOp (fun k => ?_) h)
  refine .ite (.ctlDone k) ?_
  split
  · exact .ite (.ctlDone k) (.ite (.ctlDone (.abortLaunch k)) (.ite (.ctlDone k) (.ctlDone (.foldl .killTeam k))))
  · exact .ctlDone k

/-! ### Events inside a compute phase -/

protected theorem CanonicalNext.whenRuns {f} (hf : ∀ {t}, Canonical t → Canonical (f t)) (h : Canonical s) :
    CanonicalNext (whenRuns s f) :=
  .next (.ite (hf h) h)

protected theorem CanonicalNext.whenUp {f} (hf : ∀ {t}, Canonical t → Canonical (f t)) (h : Canonical s) :
    CanonicalNext (whenUp s f) :=
  .next (.ite (hf h) h)

protected theorem CanonicalNext.execEngineIllegal (h : Canonical s) : CanonicalNext (execEngineIllegal s) := by
  unfold execEngineIllegal
  split
  · exact .refused
  · exact .groupIssue h
  · exact .next (.stopAtWord h)
  · exact .next (.endProgram h)

protected theorem Canonical.strayReturn {group flight} (h : Canonical s) : Canonical (strayReturn s group flight) :=
  .elsewhere h

protected theorem CanonicalNext.execResultReturn {group flight} (h : Canonical s) :
    CanonicalNext (execResultReturn group flight s) := by
  refine .whenRuns (fun k => ?_) h
  split
  · exact .strayReturn k
  · split
    · exact k
    · exact .ite (.setGroup k) (.elsewhere (.setGroup k))

protected theorem CanonicalNext.execSpawnBinTimer {core bin} (h : Canonical s) :
    CanonicalNext (execSpawnBinTimer core bin s) := by
  refine .whenRuns (fun k => ?_) h
  split
  · exact k
  · split
    · exact .ite (.settleCluster (.setBin k)) k
    · exact k

protected theorem CanonicalNext.execReplayDiverge {launch cluster} (h : Canonical s) :
    CanonicalNext (execReplayDiverge launch cluster s) := by
  refine .whenRuns (fun k => ?_) h
  split
  · exact k
  · exact .ite k (.ite (.abortLaunch k) k)

protected theorem CanonicalNext.execEvwaitTimeout {cluster} (h : Canonical s) :
    CanonicalNext (execEvwaitTimeout cluster s) := by
  refine .whenRuns (fun k => ?_) h
  dsimp only
  split
  · exact .ite (.ctlWake k) k
  · exact k

protected theorem CanonicalNext.execTrapDelivery {group} (h : Canonical s) :
    CanonicalNext (execTrapDelivery group s) := by
  refine .whenRuns (fun k => ?_) h
  split
  · exact k
  · refine .ite k ?_
    split
    · exact k
    · exact .ite (.killNow k) k
    · exact .setGroup k

protected theorem CanonicalNext.execFpTrapWindowClose {team} (h : Canonical s) :
    CanonicalNext (execFpTrapWindowClose team s) := by
  refine .whenRuns (fun k => ?_) h
  dsimp only
  split
  · exact k
  · exact .ite (.noteWindow (.openWindow (.setTeam (.ite (.noteWindow k) k)))) k

protected theorem Canonical.startProgram {core unit p t} (h : Canonical s) :
    Canonical (startProgram s core unit p t) := by
  unfold startProgram
  dsimp only
  refine .ite (.setProg h) ?_
  split
  · exact .endProgram (.setProg h)
  · exact .ite (.endProgram (.setProg h)) (.setLattice (.setProg h))

protected theorem CanonicalNext.execEngineProgramStart {core unit} (h : Canonical s) :
    CanonicalNext (execEngineProgramStart core unit s) := by
  refine .whenRuns (fun k => ?_) h
  dsimp only
  split
  · split
    · exact .setEngine k
    · exact .startProgram (.setEngine k)
  · exact k

protected theorem CanonicalNext.execFabricAcknowledgement {core unit refused} (h : Canonical s) :
    CanonicalNext (execFabricAcknowledgement core unit refused s) := by
  refine .whenRuns (fun k => ?_) h
  split
  · exact k
  · rename_i e
    refine .ite k (.ite (.seqStop (.seqAt k _ e)) ?_)
    extract_lets _ s1
    have h1 : Canonical s1 := by
      unfold s1
      split
      · exact .setLaunch k
      · exact k
    exact .setProg h1

protected theorem Canonical.finishHealth {q na nt} (h : Canonical q.s) : Canonical (finishHealth q na nt) := by
  unfold finishHealth
  dsimp only
  split
  · exact .seqStop h
  · exact .sampleBias (.elsewhere (.engineChunk h))

protected theorem Canonical.runSweep {q c} (h : Canonical q.s) : Canonical (runSweep q c) :=
  .ite (.seqStop (.setLattice h)) (.setProg (.elsewhere (.setLattice h)))

protected theorem CanonicalNext.execSweepEnd {core lattice} (h : Canonical s) :
    CanonicalNext (execSweepEnd core lattice s) := by
  refine .whenRuns (fun k => ?_) h
  split
  · exact k
  · rename_i e
    split
    · exact .finishHealth (.seqAt k _ e)
    · refine .ite k ?_
      split
      · exact .runSweep (.seqAt k _ e)
      · exact k

/-! ### Boundaries -/

protected theorem Canonical.dropBad {lid g} (h : Canonical s) : Canonical (dropBad s lid g) :=
  .ite (.elsewhere (.foldl .freeSlots h)) h

protected theorem Canonical.dropBadSaves {n} (h : Canonical s) : Canonical (dropBadSaves s n) :=
  .foldl (fun k => .foldl (fun k => .foldl .elsewhere (.dropBad k)) k) h

protected theorem Canonical.relaunchIn {p l g} (h : Canonical s) : ∀ r ∈ relaunchIn s p l g, Canonical r := by
  dsimp only [relaunchIn]
  split
  · next e => exact forall_mem_some (forall_mem_findSome? (fun _ => .restoreInCluster h) _ e)
  · split
    · exact .restoreInCluster h
    · exact forall_mem_none

protected theorem Canonical.relaunchGang {n lid g} (h : Canonical s) : Canonical (relaunchGang s n lid g) := by
  unfold relaunchGang
  dsimp only
  split
  · split
    · next e => exact .elsewhere (.foldl .resumeTeam (.relaunchIn (.foldl .removeTeam h) _ e))
    · exact .ite h (.elsewhere (.foldl .elsewhere h))
  · exact h

protected theorem Canonical.relaunchGangs {n} (h : Canonical s) : Canonical (relaunchGangs s n) :=
  .foldl (fun k => .foldl .relaunchGang k) (.dropBadSaves h)

protected theorem CanonicalNext.execBoundaryOpen {part} (h : Canonical s) :
    CanonicalNext (execBoundaryOpen part s) := by
  refine .whenRuns (fun k => ?_) h
  split
  · exact k
  · exact .ite (.setPart k) k

protected theorem Canonical.applyFabric {n boundary} (h : Canonical s) : Canonical (applyFabric s n boundary) :=
  .foldl (fun k => .foldl (fun k => .ite (.noteWriter (.writeGlobal (.noteBefore k))) k) k) (.elsewhere h)

protected theorem Canonical.noteDigest {lid addrs} (h : Canonical s) : Canonical (noteDigest s lid addrs) :=
  .elsewhere h

protected theorem Canonical.drainEntry {n e} (h : Canonical s) : Canonical (drainEntry n s e) := by
  unfold drainEntry
  split
  · exact h
  · split
    · exact h
    · extract_lets a size r words s0 s1
      have h0 : Canonical s0 := .noteBefore h
      have h1 : Canonical s1 := { h0 with gmem := mwriteN_wf _ _ _ _ h0.gmem }
      exact .noteWriter (.noteDigest (.foldl .bumpCounter h1))

protected theorem Canonical.drainGred {n} (h : Canonical s) : Canonical (drainGred s n) :=
  .foldl .drainEntry (.elsewhere h)

protected theorem Canonical.startExchange {core} (h : Canonical s) : Canonical (startExchange s core) :=
  .foldl (fun k => .elsewhere (.setEngine k)) h

protected theorem Canonical.clearCounters {p} (h : Canonical s) : Canonical (clearCounters s p) :=
  .foldl .setCluster h

protected theorem Canonical.sendSpan {n p atEnd} (h : Canonical s) : Canonical (sendSpan s n p atEnd) :=
  .ite h (.elsewhere (.setPart h))

protected theorem Canonical.sampleArrival {n p} (h : Canonical s) : Canonical (sampleArrival s n p) :=
  .addSample (.addSample h)

protected theorem Canonical.openExchange {n} (h : Canonical s) : Canonical (openExchange s n) := by
  unfold openExchange
  split
  · exact h
  · exact .foldl .startExchange (.clearCounters (.elsewhere (.drainGred (.applyFabric (.sampleArrival h)))))

protected theorem CanonicalNext.execExchangeOpen {part} (h : Canonical s) :
    CanonicalNext (execExchangeOpen part s) := by
  refine .whenRuns (fun k => ?_) h
  split
  · exact k
  · exact .ite k (.ite (.ite (.relaunchGangs k) k) (.ite k (.ite (.openExchange (.sendSpan k)) (.sendSpan k))))

protected theorem Canonical.writeLocal {a w} (h : Canonical s) : Canonical (writeLocal s a w) :=
  { h with lmem := mwrites_wf _ _ _ h.lmem, lbits := mwrite_wf _ _ _ h.lbits, lsnap := mwrite_wf _ _ _ h.lsnap }

protected theorem Canonical.applyWord {ws k} (h : Canonical s) : Canonical (applyWord ws s k) := by
  unfold applyWord
  extract_lets
  split
  · exact h
  · extract_lets _ s1
    have h1 : Canonical s1 := .foldl .onTeam h
    exact .ite (.writeGlobal h1) (.writeLocal h1)

protected theorem Canonical.applyFold {f} (h : Canonical s) : Canonical (applyFold s f) := by
  have hw (v : Nat) : Canonical { s with gmem := mwriteN s.gmem f.addr 4 v } :=
    { h with gmem := mwriteN_wf _ _ _ _ h.gmem }
  exact .applyCounts (hw _)

protected theorem Canonical.applyGhost {g} (h : Canonical s) : Canonical (applyGhost s g) := .elsewhere h

protected theorem Canonical.settleExchange {n p} (h : Canonical s) : Canonical (settleExchange s n p) := by
  refine .elsewhere (.foldl (fun k => ?_) (.foldl .applyGhost (.foldl .applyFold (.foldl .applyWord h))))
  split
  · exact .noteDigest k
  · exact k

protected theorem Canonical.migratePage {n g die} (h : Canonical s) : Canonical (migratePage s n g die) := by
  unfold migratePage
  split
  · exact h
  · exact .ite h (.elsewhere h)

protected theorem Canonical.closePages {n e asked} (h : Canonical s) : Canonical (closePages s n e asked) :=
  .foldl .migratePage (.elsewhere h)

protected theorem Canonical.refreshDigests {n} (h : Canonical s) : Canonical (refreshDigests s n) := .elsewhere h

protected theorem Canonical.logBoundary {lid p} (h : Canonical s) : Canonical (logBoundary s lid p) := by
  refine .foldl (fun k => ?_) h
  split
  · exact k
  · refine .ite (.recordEntry k) ?_
    split
    · exact .setLaunch k
    · exact k

protected theorem Canonical.countBoundary {n} (h : Canonical s) : Canonical (countBoundary s n) := .elsewhere h

protected theorem Canonical.releaseKilled {n} (h : Canonical s) : Canonical (releaseKilled s n) :=
  .foldl .removeTeam (.elsewhere h)

protected theorem Canonical.reportGangs {fuel lid} (h : Canonical s) : Canonical (reportGangs fuel s lid) := by
  induction fuel generalizing s with
  | zero => exact h
  | succ fuel ih =>
    unfold reportGangs
    split
    · next e _ =>
      cases e
      exact .ite h (ih (.setLaunch h))
    · exact h

protected theorem Canonical.saveTeam {tid t l} (h : Canonical s) : Canonical (saveTeam s tid t l).1 :=
  .elsewhere (.removeTeam (.chargeTeam h))

protected theorem Canonical.preemptLaunch {lid} (h : Canonical s) : Canonical (preemptLaunch s lid) := by
  unfold preemptLaunch
  split
  · exact h
  · refine .ite h (.ite (.setLaunch h) (.postEvent (.elsewhere ?_)))
    exact List.foldlRecOn (motive := fun r : State × List (Nat × Team) => Canonical r.1) _ _ (.setLaunch h)
      (fun _ k e _ => .saveTeam (t := e.2) k)

protected theorem Canonical.snapshotTeams {n} (h : Canonical s) : Canonical (snapshotTeams s n) :=
  .elsewhere (.foldl .snapshotTeam h)

protected theorem Canonical.afterClose {n} (h : Canonical s) : Canonical (afterClose s n) :=
  .settleLaunches (.dispatchPart (.dropBadSaves (.settleLaunches (.captureCkpt (.snapshotTeams
    (.foldl .preemptLaunch (.foldl .reportGangs (.releaseKilled h))))))))

protected theorem Canonical.beginCompute {n} (h : Canonical s) : Canonical (beginCompute s n) := by
  unfold beginCompute
  split
  · exact h
  · exact .setPart (.elsewhere (.foldl .setCluster (.elsewhere (.foldl .resumeTeam h))))

protected theorem Canonical.closeBoundary {n p} (h : Canonical s) : Canonical (closeBoundary s n p) := by
  unfold closeBoundary
  extract_lets s1 fuel s2 asked s3 s4 s5
  have h2 : Canonical s2 := .closeRequests (.settleExchange h)
  have h3 : Canonical s3 := .foldl .setAttributes (.closePages h2)
  have h5 : Canonical s5 := .foldl .logBoundary (.countBoundary (.refreshDigests h3))
  exact .beginCompute (.afterClose h5)

protected theorem CanonicalNext.execBoundaryClose {part} (h : Canonical s) :
    CanonicalNext (execBoundaryClose part s) := by
  refine .whenRuns (fun k => ?_) h
  split
  · exact k
  · exact .ite k (.ite (.closeBoundary (.sendSpan k)) (.sendSpan k))

protected theorem CanonicalNext.execBoundaryMessage {part member plane count atEnd} (h : Canonical s) :
    CanonicalNext (execBoundaryMessage part member plane count atEnd s) := by
  refine .whenRuns (fun k => ?_) h
  split
  · exact k
  · exact .ite k (.ite (.setPart k) (.setPart k))

protected theorem CanonicalNext.execStraggler {part} (h : Canonical s) : CanonicalNext (execStraggler part s) := by
  refine .whenRuns (fun k => ?_) h
  split
  · exact .ite (.expireStraggler k) k
  · exact k

protected theorem CanonicalNext.execExchangeLate {part} (h : Canonical s) :
    CanonicalNext (execExchangeLate part s) := by
  refine .whenRuns (fun k => ?_) h
  split
  · exact .ite (.expireExchange k) k
  · exact k

protected theorem CanonicalNext.execPhaseMaxExpiry {launch} (h : Canonical s) :
    CanonicalNext (execPhaseMaxExpiry launch s) := by
  refine .whenRuns (fun k => ?_) h
  split
  · exact k
  · split
    · exact k
    · exact .ite k (.reportLate (.setLaunch k))

protected theorem CanonicalNext.execFabricWriteArrival {w} (h : Canonical s) :
    CanonicalNext (execFabricWriteArrival w s) := by
  refine .whenRuns (fun k => ?_) h
  split
  · exact .ite (.elsewhere k) (.bumpMgmt k)
  · exact .bumpMgmt k

/-! ### Recovery -/

protected theorem Canonical.revive {tid} (h : Canonical s) : Canonical (revive s tid) := by
  unfold revive
  split
  · exact h
  · exact .elsewhere h

protected theorem Canonical.relaunchTeam {tid avoid} (h : Canonical s) : Canonical (relaunchTeam s tid avoid) := by
  unfold relaunchTeam
  split
  · exact h
  · split
    · exact h
    · refine .ite h (.ite (.killNow (.revive h)) ?_)
      exact .elsewhere (.foldl (fun k => .elsewhere (.killTeam k)) (.foldl .revive h))

protected theorem Canonical.markCores {cores} (h : Canonical s) : Canonical (markCores s cores) :=
  .foldl .postNotice (.ite h (.writeWear h))

protected theorem Canonical.suspectRegion {cores} (h : Canonical s) : Canonical (suspectRegion s cores) :=
  .markCores (.foldl .relaunchTeam h)

protected theorem Canonical.rerunSweeps {core unit p} (h : Canonical s) : Canonical (rerunSweeps s core unit p) := by
  unfold rerunSweeps
  split
  · exact h
  · split
    · exact h
    · exact .setProg (.setLattice h)

protected theorem Canonical.strikeUnit {core unit} (h : Canonical s) : Canonical (strikeUnit s core unit) := by
  unfold strikeUnit
  split
  · exact h
  · refine .ite ?_ (.ite (.rerunSweeps h) h)
    extract_lets s1
    have h1 : Canonical s1 := .squashUnit h
    split
    · exact .setProg h1
    · exact h1

protected theorem Canonical.strikeGroup {gid} (h : Canonical s) : Canonical (strikeGroup s gid) := by
  unfold strikeGroup
  split
  · exact h
  · exact .ite h (.elsewhere (.squashGroup h))

protected theorem Canonical.strikeCores {cores} (h : Canonical s) : Canonical (strikeCores s cores) := by
  unfold strikeCores
  extract_lets _ _ s3
  have h3 : Canonical s3 := .foldl .settleSpawns (.foldl (fun k => .foldl .strikeUnit k) (.foldl .strikeGroup h))
  exact .ite (.suspectRegion h3) h3

protected theorem CanonicalNext.execStrikeReport {region} (h : Canonical s) :
    CanonicalNext (execStrikeReport region s) := by
  refine .whenRuns (fun k => ?_) h
  split
  · exact .strikeCores k
  · exact k
  · exact k
  · exact k

protected theorem Canonical.dropPhase {tid} (h : Canonical s) : Canonical (dropPhase s tid) := .elsewhere h

protected theorem Canonical.closeOrdinals {lid c formed} (h : Canonical s) : Canonical (closeOrdinals s lid c formed) :=
  .elsewhere h

protected theorem Canonical.rewindLog {lid c formed ords ms} (h : Canonical s) :
    Canonical (rewindLog s lid c formed ords ms) := by
  unfold rewindLog
  split
  · exact h
  · split
    · exact h
    · exact .ite h (.ite (.closeOrdinals (.setLaunch (.writeGlobal h))) (.setLaunch h))

protected theorem Canonical.rollTeam {s0 tid} (h : Canonical s0) : Canonical (rollTeam s0 tid) := by
  unfold rollTeam
  dsimp only
  split
  · exact .revive h
  · split
    · exact .ite (.killNow (.revive h)) (.resumeTeam (.restoreTeam (.rewindGens (.dropPhase (.revive h)))))
    · exact .revive h

protected theorem Canonical.formCohort {ms lid} (h : Canonical s) : Canonical (formCohort s ms lid) := .elsewhere h

protected theorem Canonical.rollback {tid} (h : Canonical s) : Canonical (rollback s tid) := by
  unfold rollback
  split
  · exact h
  · exact .ite h (.mergeCohort (.foldl .rollTeam (.rewindLog (.formCohort h))))

protected theorem Canonical.lateDetection {tid} (h : Canonical s) : Canonical (lateDetection s tid) := by
  unfold lateDetection
  split
  · exact h
  · exact .ite (.killNow (.revive h)) (.rollback h)

protected theorem Canonical.loseWord {a} (h : Canonical s) : Canonical (loseWord s a) :=
  { h with gmem := mwriteN_wf _ _ _ _ h.gmem }

protected theorem Canonical.spoilSnapshot {tid} (h : Canonical s) : Canonical (spoilSnapshot s tid) :=
  .elsewhere (.onTeam h)

protected theorem Canonical.controlDue {c a} (h : Canonical s) : Canonical (controlDue s c a) :=
  .ite (.stopControl h) h

protected theorem CanonicalNext.execScrub {find} (h : Canonical s) : CanonicalNext (execScrub find s) := by
  refine .whenRuns (fun k => ?_) h
  split
  · exact k
  · exact .bumpMgmt k
  · refine .ite k ?_
    split
    · exact .lateDetection k
    · exact k
  · exact .relaunchTeam k
  · exact .lateDetection k
  · exact .strikeGroup k
  · exact .loseWord k
  · exact .controlDue k
  · exact .spoilSnapshot k

protected theorem Canonical.freezeDevice {why} (h : Canonical s) : Canonical (freezeDevice s why) :=
  .ite h (.elsewhere h)

protected theorem Canonical.strikeAll (h : Canonical s) : Canonical (strikeAll s) := .foldl .strikeCores h

/-! ### Starts -/

protected theorem Canonical.calibrate {clusters tests} (h : Canonical s) : Canonical (calibrate s clusters tests) := by
  unfold calibrate
  extract_lets _ _ _ s1
  have h1 : Canonical s1 := .foldl .sampleBias (.elsewhere h)
  exact .ite h1 (.writeWear h1)

protected theorem Canonical.writeHostRecord {b} (h : Canonical s) : Canonical (writeHostRecord s b) := .elsewhere h

protected theorem Canonical.wiped {cold} (h : Canonical s) : Canonical (wiped s cold) where
  lmem := rfl
  lbits := rfl
  lsnap := rfl
  cmem := rfl
  gmem := by
    simp only [wiped]
    split
    · exact foldl_mwrite_wf _ _ (fun _ _ hm => mwrite_wf _ _ _ hm) _ rfl
    · exact filter_wf _ _ h.gmem

protected theorem Canonical.endStart (h : Canonical s) : Canonical (endStart s) := .elsewhere h

protected theorem Canonical.failStart {step unit} (h : Canonical s) : Canonical (failStart s step unit) :=
  .elsewhere (.postNotice (.endStart (.writeWear h)))

protected theorem Canonical.portUp {run} (h : Canonical s) : Canonical (portUp s run) :=
  .elsewhere (.postNotice (.endStart h))

protected theorem Canonical.startCalibration {clusters} (h : Canonical s) : Canonical (startCalibration s clusters) :=
  .calibrate (.elsewhere h)

protected theorem Canonical.loadStep (h : Canonical s) : Canonical (loadStep s) := by
  unfold loadStep
  exact .writeWear (.elsewhere h)

protected theorem Canonical.configStep {unit next} (hnext : ∀ {t}, Canonical t → Canonical (next t))
    (h : Canonical s) : Canonical (configStep s unit next) := by
  unfold configStep
  split
  · exact .failStart h
  · split
    · exact .ite (hnext (.elsewhere h)) (.failStart h)
    · exact .failStart h

protected theorem Canonical.stepWork {cold safe step f next} (hnext : ∀ {t}, Canonical t → Canonical (next t))
    (h : Canonical s) : Canonical (stepWork s cold safe step f next) := by
  unfold stepWork
  split
  · exact hnext (.ite (.elsewhere h) h)
  · exact hnext (.ite (.elsewhere h) h)
  · exact hnext (.writeWear h)
  · exact hnext (.writeWear h)
  · exact hnext (.elsewhere (.writeWear h))
  · exact .configStep hnext h
  · exact hnext (.startCalibration h)
  · exact .ite (.portUp h) (.portUp (.writeWear h))
  · exact hnext h

protected theorem Canonical.startStep {cold safe step f} (h : Canonical s) : Canonical (startStep s cold safe step f) :=
  .ite (.elsewhere h) (.ite (.ite (.failStart (.loadStep h)) (.elsewhere (.loadStep h)))
    (.ite (.failStart h) (.stepWork .elsewhere h)))

protected theorem Canonical.runStart {fuel} (h : Canonical s) : Canonical (runStart fuel s) := by
  induction fuel generalizing s with
  | zero => exact h
  | succ fuel ih =>
    rw [runStart]
    split
    · exact .ite (.elsewhere h) (ih (.startStep h))
    · exact h

protected theorem Canonical.startDevice {cold f} (h : Canonical s) : Canonical (startDevice s cold f) :=
  .runStart (.elsewhere (.wiped h))

protected theorem Canonical.resumeDevice (h : Canonical s) : Canonical (resumeDevice s) := by
  unfold resumeDevice
  dsimp only
  split
  · exact .strikeAll (.elsewhere h)
  · exact .runStart (.elsewhere h)
  · exact .elsewhere h

protected theorem CanonicalNext.execFrzNRise (h : Canonical s) : CanonicalNext (execFrzNRise s) :=
  .next (.ite (.elsewhere h) (.ite (.elsewhere (.elsewhere h)) (.resumeDevice (.elsewhere h))))

protected theorem CanonicalNext.onTap {f} (h : Canonical s) : CanonicalNext (onTap s f) :=
  .next (.ite h (.elsewhere h))

/-! ### Management -/

protected theorem Canonical.setBins {index log2 base width} (h : Canonical s) :
    Canonical (setBins s index log2 base width) :=
  .clearInto h

protected theorem Canonical.clearMonitor {index} (h : Canonical s) : Canonical (clearMonitor s index) := .clearInto h

protected theorem Canonical.clearMonitors {index} (h : Canonical s) : Canonical (clearMonitors s index) :=
  .ite (.foldl .clearMonitor h) (.clearMonitor h)

protected theorem Canonical.actCommand {v facts} (h : Canonical s) : Canonical (actCommand s v facts) := by
  unfold actCommand
  split
  · exact .freezeDevice h
  · exact .startDevice h
  · exact .startDevice (.ite h (.writeWear h))

protected theorem Canonical.actCommands (h : Canonical s) : Canonical (actCommands s) := by
  unfold actCommands
  split
  · exact h
  · exact .actCommand (.elsewhere h)

protected theorem Canonical.commandOf {v} (h : Canonical s) : ∀ t, commandOf s v = .now t → Canonical t := by
  intro t e
  dsimp only [commandOf] at e
  split at e
  · split at e <;> cases e
  · split at e <;> cases e
  · split at e <;> cases e
  · split at e
    · cases e
    · cases e
      exact .clearMonitors h
  · split at e
    · cases e
    · cases e
      exact .setBins h
  · split at e
    · cases e
    · cases e
      exact .elsewhere h
  · cases e

protected theorem Canonical.sampleLevel {k} (h : Canonical s) : Canonical (sampleLevel s k) :=
  .ite (.elsewhere (.addSample h)) h

protected theorem Canonical.markUnit {u} (h : Canonical s) : Canonical (markUnit s u) := by
  unfold markUnit
  split
  · exact .elsewhere (.suspectRegion h)
  · exact .ite (.postNotice (.writeWear h)) h
  · exact .ite (.postNotice (.writeWear h)) h
  · exact .ite h (.postNotice (.writeWear h))

protected theorem CanonicalNext.execPathDelayMeasurement {unit low} (h : Canonical s) :
    CanonicalNext (execPathDelayMeasurement unit low s) := by
  refine .whenUp (fun k => ?_) h
  extract_lets _ s1
  have h1 : Canonical s1 := .sampleLevel k
  exact .ite h1 (.ite (.ite (.postNotice (.elsewhere (.writeWear h1))) h1) (.markUnit h1))

protected theorem CanonicalNext.execTemperatureSample {sensor value} (h : Canonical s) :
    CanonicalNext (execTemperatureSample sensor value s) :=
  .whenUp (fun k => .ite (.addSample k) k) h

protected theorem CanonicalNext.execThrottle (h : Canonical s) : CanonicalNext (execThrottle s) :=
  .whenUp (fun k => .ite k (.postNotice (.elsewhere k))) h

protected theorem CanonicalNext.execThrottleEnd (h : Canonical s) : CanonicalNext (execThrottleEnd s) :=
  .whenUp (fun k => .ite (.bumpMgmt (.elsewhere k)) k) h

protected theorem CanonicalNext.execRecalibrateDone {counts} (h : Canonical s) :
    CanonicalNext (execRecalibrateDone counts s) :=
  .whenRuns (fun k => .elsewhere (.calibrate k)) h

/-! ### The host port -/

protected theorem CanonicalNext.whenPort {f} (hf : ∀ {t}, Canonical t → Canonical (f t)) (h : Canonical s) :
    CanonicalNext (whenPort s f) :=
  .next (.ite (hf h) h)

protected theorem CanonicalNext.whenFrame {vlan f} (hf : ∀ {t}, Canonical t → Canonical (f t)) (h : Canonical s) :
    CanonicalNext (whenFrame s vlan f) :=
  .whenPort (fun k => .ite (hf k) (.bumpMgmt k)) h

protected theorem Canonical.emit {f} (h : Canonical s) : Canonical (emit s f) := .elsewhere h

protected theorem CanonicalNext.whenDatagram {hdr f} (hf : ∀ {t}, Canonical t → Canonical (f t)) (h : Canonical s) :
    CanonicalNext (whenDatagram s hdr f) :=
  .whenFrame (fun k => .ite (hf k) (.bumpMgmt k)) h

protected theorem CanonicalNext.execNeighbourSolicitation {target} (h : Canonical s) :
    CanonicalNext (execNeighbourSolicitation target s) :=
  .whenFrame (fun k => .ite (.emit k) (.bumpMgmt k)) h

protected theorem Canonical.takeAck {sid ack} (h : Canonical s) : Canonical (takeAck s sid ack) := by
  unfold takeAck
  split
  · exact h
  · exact .actCommands (.pumpSession (.onSession h))

protected theorem Canonical.sendAck {hdr x} (h : Canonical s) : Canonical (sendAck s hdr x) := .emit h

protected theorem Canonical.queueRequest {hdr type r} (h : Canonical s) : Canonical (queueRequest s hdr type r) :=
  .drainSession (.elsewhere (.onSession h))

protected theorem Canonical.malformed {hdr x type} (h : Canonical s) : Canonical (malformed s hdr x type) :=
  .ite (.replyTo h) (.queueRequest h)

protected theorem Canonical.onMessage {hdr type act} (hact : ∀ {t x}, Canonical t → Canonical (act t x))
    (h : Canonical s) : Canonical (onMessage s hdr type act) := by
  unfold onMessage
  split
  · exact .bumpMgmt h
  · have h1 : Canonical (takeAck s hdr.session hdr.ack) := .takeAck h
    exact .ite (.sendAck h1) (.ite h1 (.ite (hact (.onSession h1)) (.malformed (.onSession h1))))

protected theorem CanonicalNext.partRequest {hdr type r} (h : Canonical s) : CanonicalNext (partRequest s hdr type r) :=
  .whenDatagram (fun k => .onMessage (fun k => .ite (.replyTo k) (.queueRequest k)) k) h

protected theorem CanonicalNext.execPlaganAck {hdr} (h : Canonical s) : CanonicalNext (execPlaganAck hdr s) :=
  .whenDatagram (fun k => .ite (.takeAck k) (.bumpMgmt k)) h

protected theorem CanonicalNext.execRetransmit {session} (h : Canonical s) :
    CanonicalNext (execRetransmit session s) := by
  refine .whenPort (fun k => ?_) h
  split
  · exact k
  · split
    · exact k
    · exact .ite (.bumpMgmt (.elsewhere k)) (.elsewhere (.onSession k))

protected theorem Canonical.refuseHello {hdr status} (h : Canonical s) : Canonical (refuseHello s hdr status) :=
  .emit h

protected theorem Canonical.openSession {hdr admin part} (h : Canonical s) : Canonical (openSession s hdr admin part) :=
  .replyTo (.elsewhere h)

protected theorem Canonical.createPart {b} (h : Canonical s) : Canonical (createPart s b).2 := by
  unfold createPart
  dsimp only
  split
  · exact h
  · split
    · exact h
    · split
      · exact h
      · exact .foldl .setCluster (.setPart h)

protected theorem Canonical.orphanSession {sid} (h : Canonical s) : Canonical (orphanSession s sid) := by
  unfold orphanSession
  extract_lets s1
  have h1 : Canonical s1 := by
    unfold s1
    split
    · exact .replyTo (.onSession h)
    · exact h
  exact .drainSession (.onSession h1)

protected theorem Canonical.destroyPart {n} (h : Canonical s) : Canonical (destroyPart s n).2 := by
  unfold destroyPart
  split
  · exact h
  · split
    · exact h
    · exact .foldl .orphanSession (.elsewhere h)

protected theorem CanonicalNext.helloMessage {hdr role part flags desc} (h : Canonical s) :
    CanonicalNext (helloMessage s hdr role part flags desc) := by
  refine .whenDatagram (fun k => ?_) h
  refine .ite (.bumpMgmt k) ?_
  refine .ite (.refuseHello k) (.ite (.ite (.openSession k) (.refuseHello k)) ?_)
  extract_lets r
  have hr : Canonical r.2 := by
    unfold r
    split
    · exact .createPart k
    · split
      · exact .destroyPart k
      · exact k
  exact .ite (.openSession hr) (.refuseHello k)

protected theorem Canonical.runCommand {h v facts} (hs : Canonical s) : Canonical (runCommand s h v facts) := by
  unfold runCommand
  split
  · exact .replyTo hs
  · next e => exact .replyTo (.commandOf hs _ e)
  · exact .actCommands (.sendFrame hs)

protected theorem CanonicalNext.commandMessage {hdr v facts} (h : Canonical s) :
    CanonicalNext (commandMessage s hdr v facts) :=
  .whenDatagram (fun k => .onMessage (fun k => .ite (.runCommand k) (.queueRequest k)) k) h

protected theorem Canonical.adminLoad {hdr space a data} (h : Canonical s) : Canonical (adminLoad s hdr space a data) :=
  .ite (.replyTo h) (.ite (.runCommand (.elsewhere h)) (.ite (.replyTo (.writeHostRecord h)) (.replyTo h)))

protected theorem Canonical.sampled {a} (h : Canonical s) : Canonical (sampled s a) := .ite h (.foldl .takeSamples h)

protected theorem Canonical.adminRead {hdr space a n} (h : Canonical s) : Canonical (adminRead s hdr space a n) := by
  unfold adminRead
  dsimp only
  refine .ite (.replyTo h) (.ite (.replyTo h) ?_)
  split
  · exact .replyTo (.elsewhere (.sampled h))
  · exact .replyTo h

protected theorem CanonicalNext.execLoad {hdr space addr data} (h : Canonical s) :
    CanonicalNext (execLoad hdr space addr data s) :=
  .whenDatagram (fun k => .onMessage (fun k => .ite (.adminLoad k) (.queueRequest k)) k) h

protected theorem CanonicalNext.execLoadHostPortRecord {hdr data} (h : Canonical s) :
    CanonicalNext (execLoadHostPortRecord hdr data s) :=
  .whenDatagram (fun k => .onMessage (fun k => .ite (.adminLoad k) (.queueRequest k)) k) h

protected theorem CanonicalNext.execRead {hdr space addr len} (h : Canonical s) :
    CanonicalNext (execRead hdr space addr len s) :=
  .whenDatagram (fun k => .onMessage (fun k => .ite (.adminRead k) (.queueRequest k)) k) h

protected theorem CanonicalNext.execFabricPortDown {port} (h : Canonical s) :
    CanonicalNext (execFabricPortDown port s) :=
  .whenRuns (fun k => .ite (.elsewhere k) k) h

protected theorem CanonicalNext.execFabricPortUp {port} (h : Canonical s) : CanonicalNext (execFabricPortUp port s) :=
  .whenRuns (fun k => .ite k (.elsewhere k)) h

/-! ### Instructions and events -/

/-- Every arm of the dispatch answers canonical memories. -/
protected theorem CanonicalNext.exec {i} (h : Canonical s) : CanonicalNext (exec i s) := by
  unfold exec
  split
  iterate 48 exact .groupOrControl h -- iadd to lea2
  iterate 48 exact .groupOnly h -- fadd to sigm
  iterate 16 exact .groupOrControl h -- icmpEq to icmpFord
  iterate 15 exact .groupOnly h -- shfl to cmpct
  iterate 33 exact .groupOrControl h -- sadd to mov
  iterate 2 exact .groupOnly h -- vfroms to sfromv
  iterate 5 exact .groupOrControl h -- sel to pnot
  iterate 5 exact .groupOnly h -- ptov to wrst
  exact .groupOrControl h -- clock
  exact .groupOnly h -- adr
  iterate 7 exact .groupOrControl h -- nop to ld64
  iterate 6 exact .groupOnly h -- ld128 to ldtag
  iterate 4 exact .groupOrControl h -- st8 to st64
  iterate 5 exact .groupOnly h -- st128 to stcd
  iterate 12 exact .atomXY h -- aadd to aincw
  iterate 11 exact .groupOnly h -- gredRaddi to gredRaddi64
  iterate 3 exact .groupOrControl h -- br to brf
  iterate 2 exact .groupOnly h -- brany to brall
  iterate 4 exact .groupOrControl h -- call to ret
  iterate 52 exact .groupOnly h -- mjoin to estat
  exact .seqIssue .latticeLoad h -- lcfg
  iterate 4 exact .bulk .latticeLoad h -- lnld to lsld
  exact .bulk .latticeStore h -- lsst
  exact .bulk .latticeLoad h -- lclmp
  exact .execLswp h -- lswp
  exact .bulk .latticeStore h -- lcnt
  exact .execLrstc h -- lrstc
  iterate 2 exact .bulk .latticeLoad h -- lgmap to lgref
  exact .execLhlth h -- lhlth
  exact .seqIssue .latticeLoad h -- lkey
  iterate 2 exact .seqIssue .seqGo h -- laluLi to laluAdd
  exact .seqIssue .loopPush h -- lbrcLoop
  exact .seqIssue .loopNext h -- lbrcNext
  exact .execLbrcSig h -- lbrcSig
  exact .seqIssue .endProgram h -- lbrcEnd
  exact .execXcp h -- xcp
  exact .execXcpt h -- xcpt
  exact .execXget h -- xget
  exact .execXput h -- xput
  exact .execXputd h -- xputd
  exact .execXred h -- xred
  exact .execXgth h -- xgth
  exact .execXsct h -- xsct
  exact .execXbc h -- xbc
  exact .execXlat h -- xlat
  exact .execXfab h -- xfab
  exact .execXfen h -- xfen
  exact .execXsig h -- xsig
  exact .execXwte h -- xwte
  iterate 2 exact .seqIssue .aluReg h -- xaluLi to xaluAdd
  exact .execXaluShl h -- xaluShl
  exact .seqIssue .aluReg h -- xaluMul
  exact .seqIssue .loopPush h -- xbrcLoop
  exact .seqIssue .loopNext h -- xbrcNext
  exact .seqIssue .endProgram h -- xbrcEnd
  iterate 10 exact .groupOnly h -- trap to sethnd
  exact .afterKill (.groupOnly h) -- killt
  exact .execLaunch h -- launch
  exact .execEvwait h -- evwait
  exact .execEvpop h -- evpop
  exact .execEvsig h -- evsig
  exact .execQcfg h -- qcfg
  exact .execQfence h -- qfence
  exact .ctlOp .ctlDone2 h -- qdig
  exact .execPreempt h -- preempt
  exact .execKill h -- kill
  exact .execPtout h -- ptout
  exact .execCkpt h -- ckpt
  exact .execRstor h -- rstor
  exact .execPhasec h -- phasec
  exact .groupOnly h -- illegalInstruction
  exact .controlOnly .stopAtWord h -- ctlIllegal
  exact .execEngineIllegal h -- engineIllegal
  exact .execResultReturn h -- resultReturn
  exact .whenRuns .commitCluster h -- chunkCommit
  exact .execSpawnBinTimer h -- spawnBinTimer
  exact .whenRuns .elsewhere h -- sleepExpiry
  exact .execReplayDiverge h -- replayDiverge
  exact .execBoundaryOpen h -- boundaryOpen
  exact .execExchangeOpen h -- exchangeOpen
  exact .execBoundaryClose h -- boundaryClose
  exact .execBoundaryMessage h -- boundaryMessage
  exact .execStraggler h -- straggler
  exact .execExchangeLate h -- exchangeLate
  exact .execPhaseMaxExpiry h -- phaseMaxExpiry
  exact .execEvwaitTimeout h -- evwaitTimeout
  exact .execEngineProgramStart h -- engineProgramStart
  exact .execFabricWriteArrival h -- fabricWriteArrival
  exact .execTrapDelivery h -- trapDelivery
  exact .execFpTrapWindowClose h -- fpTrapWindowClose
  exact .execStrikeReport h -- strikeReport
  exact .execScrub h -- scrub
  iterate 2 exact .next (.ite (.endDrain h) h) -- checkpointDrainEnd to checkpointDrainTimeout
  exact .execThrottle h -- throttle
  exact .execThrottleEnd h -- throttleEnd
  exact .next (.ite h (.freezeDevice (.elsewhere h))) -- thermalTrip
  exact .next (.freezeDevice (.elsewhere h)) -- frzNFall
  exact .execFrzNRise h -- frzNRise
  iterate 2 exact .onTap h -- idcode to segsel
  exact .next (.ite h (.elsewhere h)) -- segread
  exact .onTap h -- bypass
  exact .next (.ite (.startDevice h) h) -- powerUp
  exact .next (.elsewhere (.wiped h)) -- powerLoss
  exact .next (.ite h (.elsewhere (.startDevice h))) -- porstN
  exact .next (.ite h (.startDevice h)) -- srstN
  iterate 6 exact .commandMessage h -- freeze to recalibrate
  exact .execRecalibrateDone h -- recalibrateDone
  exact .execPathDelayMeasurement h -- pathDelayMeasurement
  exact .execTemperatureSample h -- temperatureSample
  iterate 3 exact .helloMessage h -- hello to helloDestroy
  exact .execLoad h -- load
  exact .execLoadHostPortRecord h -- loadHostPortRecord
  exact .execRead h -- read
  iterate 16 exact .partRequest h -- start to ckptMsgRstor
  exact .execPlaganAck h -- plaganAck
  exact .execRetransmit h -- retransmit
  exact .execNeighbourSolicitation h -- neighbourSolicitation
  exact .whenPort .bumpMgmt h -- nonPlaganFrame
  exact .execFabricPortDown h -- fabricPortDown
  exact .execFabricPortUp h -- fabricPortUp
  exact .whenRuns .elsewhere h -- stopSignal
  exact .execFabricAcknowledgement h -- fabricAcknowledgement
  exact .execSweepEnd h -- sweepEnd
  exact .whenRuns .elsewhere h -- matrixOperationComplete
  exact .execRstorComplete h -- rstorComplete
  exact .whenPort .bumpMgmt h -- corruptPlaganMessage
  exact .next (.ite (.resumeDevice (.elsewhere h)) (.elsewhere h)) -- tripCooldown
  exact .whenUp .elsewhere h -- calibrationExpiry

/-! ### One step -/

protected theorem Canonical.noteTurn {m i} (h : Canonical s) : Canonical (noteTurn s m i) := by
  unfold noteTurn
  split
  · exact .elsewhere h
  · exact h

protected theorem Canonical.nextMove (h : Canonical s) : Canonical (nextMove s).2 := by
  unfold nextMove
  split <;> exact .elsewhere h

protected theorem Canonical.passCycles {d} (h : Canonical s) : Canonical (passCycles s d) := .elsewhere h

protected theorem CanonicalNext.step (h : Canonical s) : CanonicalNext (step s) := by
  unfold step
  extract_lets _ s1
  have h1 : Canonical s1 := .passCycles (.nextMove h)
  split
  · exact .next h1
  · exact .exec (.noteTurn (.elsewhere h1))

end Sys2Proof.Machine

namespace Sys2Proof

open Sys2Proof.Machine

/-- Settles O57: a step is one of the operations of the model on the state that its move meets, and each of these keeps
the memories canonical. -/
theorem stepKeepsMemoriesCanonical : Obligations.StepKeepsMemoriesCanonical := by
  intro s t hs e
  have h : CanonicalNext (Machine.step s) := .step ((memoriesWf_iff_canonical s).mp hs)
  exact (memoriesWf_iff_canonical t).mpr (e ▸ h).of_next

end Sys2Proof
end

section
/-! SUPPORT. Events of the device: what the shared operations of monitors, notices, the wear record, calibrations and
starts do to the device record, and what else they leave as it was (23 R425-R427, 24 R433-R444). -/

namespace Sys2Proof.Machine

open Sys2Proof

variable {s t : State}

/-! ### Tables and sorted lists -/

theorem tgetD_tput {α : Type} (t : Table α) (k j : Nat) (a d : α) :
    tgetD (tput t k a) j d = if j = k then a else tgetD t j d := by
  split
  case isTrue h => rw [h, tgetD_tput_self]
  case isFalse h => exact tgetD_tput_ne t k j a d h

theorem tgetD_tupd {α : Type} (t : Table α) (k j : Nat) (d : α) (f : α → α) :
    tgetD (tupd t k d f) j d = if j = k then f (tgetD t j d) else tgetD t j d := by
  rw [tupd, tgetD_tput]
  split
  case isTrue h => rw [h]
  case isFalse => rfl

theorem tgetD_foldl_tput_of_mem {α : Type} {k : Nat} (a d : α) {ks : List Nat} (t : Table α) (h : k ∈ ks) :
    tgetD (ks.foldl (fun t k => tput t k a) t) k d = a := by
  induction ks using List.reverseRecOn with
  | nil => cases h
  | append_singleton ks j ih =>
    rw [List.foldl_append, List.foldl_cons, List.foldl_nil, tgetD_tput]
    split
    case isTrue => rfl
    case isFalse hj => exact ih ((List.mem_append.mp h).resolve_right (by simpa using hj))

theorem mem_insertNat {c n : Nat} {l : List Nat} : c ∈ insertNat n l ↔ c = n ∨ c ∈ l := by
  induction l with
  | nil => simp [insertNat]
  | cons m rest ih =>
    simp only [insertNat]
    split
    · simp
    · split
      case isTrue h => simp [h]
      case isFalse => simp [ih, or_left_comm]

theorem mem_foldl_insertNat {c : Nat} {ns l : List Nat} :
    c ∈ ns.foldl (fun l n => insertNat n l) l ↔ c ∈ l ∨ c ∈ ns := by
  induction ns generalizing l with
  | nil => simp
  | cons n ns ih => rw [List.foldl_cons, ih, mem_insertNat, List.mem_cons, or_comm (a := c = n), or_assoc]

/-! ### The guards of events -/

theorem whenUp_of_up {f : State → State} (h : deviceUp s = true) : whenUp s f = .next (f s) := by rw [whenUp, if_pos h]

theorem whenUp_of_not_up {f : State → State} (h : deviceUp s = false) : whenUp s f = .next s := by
  rw [whenUp, h, if_neg Bool.false_ne_true]

theorem whenRuns_of_runs {f : State → State} (h : deviceRuns s = true) : whenRuns s f = .next (f s) := by
  rw [whenRuns, if_pos h]

/-! ### Monitors (24 R434) -/

theorem monitorAt_addSample (s : State) (i v k : Nat) :
    monitorAt (addSample s i v).dev k = if k = i then sampleInto (monitorAt s.dev k) (v % 2 ^ 32) else monitorAt s.dev k := by
  have h : monitorAt (addSample s i v).dev k =
      tgetD (tput s.dev.monitors i (sampleInto (monitorAt s.dev i) (v % 2 ^ 32))) k (defaultMonitor k) := rfl
  rw [h, tgetD_tput]
  split
  case isTrue h => rw [h]
  case isFalse => rfl

/-- A sample raises the count of its bin. -/
theorem bins_sampleInto (m : Monitor) (v b : Nat) : tgetD (sampleInto m v).bins b 0 =
    if b = binOf m v then min (2 ^ 48 - 1) (tgetD m.bins b 0 + 1) else tgetD m.bins b 0 :=
  tgetD_tupd m.bins (binOf m v) b 0 (fun c => min countLimit (c + 1))

/-- A sample of a domain's level changes the monitors and the cycle of the domain's latest sample, and nothing else. -/
theorem sampleLevel_eq (s : State) (k : Nat) : ∃ m f a b, sampleLevel s k =
    { s with dev := { s.dev with monitors := m, fresh := f, freshAt := a, bandSample := b } } := by
  rw [sampleLevel]
  split
  · exact ⟨_, _, _, _, rfl⟩
  · exact ⟨_, _, _, _, rfl⟩

/-! ### Notices (24 R433) -/

/-- What a notice changes: the ring, the number posted and, when an unread notice is displaced, a counter. -/
theorem postNotice_eq (s : State) (kind unit : Nat) : ∃ (x : Notice) (cs : Table Nat),
    postNotice s kind unit = { s with
      freeCount := s.freeCount + 1,
      dev := { s.dev with notices := (s.dev.notices ++ [x]).drop (s.dev.notices.length + 1 - 64),
                          noticesPosted := s.dev.noticesPosted + 1, counters := cs } } ∧
    (x.kind, x.unit, x.phase, x.cycle, x.seen) = (kind, unit, s.chipPhase, s.cycle, false) ∧
    (s.dev.notices.length < 64 → cs = s.dev.counters) ∧
    (∀ a rest, s.dev.notices = a :: rest → 64 ≤ s.dev.notices.length → a.seen = false →
      tgetD cs 7 0 = tgetD s.dev.counters 7 0 + 1) := by
  unfold postNotice
  extract_lets n lost all s1
  have hall : all.length = s.dev.notices.length + 1 := List.length_append
  by_cases hlost : lost = true
  case pos =>
    rw [if_pos hlost]
    refine ⟨n, tupd s.dev.counters 7 0 (· + 1), by rw [← hall]; rfl, rfl, fun h => ?_, fun _ _ _ _ _ => tgetD_tput_self _ _ _ _⟩
    unfold lost at hlost
    split at hlost
    · simp only [Bool.and_eq_true, decide_eq_true_eq] at hlost
      exact absurd hlost.1 (Nat.not_le.mpr h)
    · cases hlost
  case neg =>
    rw [if_neg hlost]
    refine ⟨n, s.dev.counters, by rw [← hall], rfl, fun _ => rfl, fun a rest ha hl hs => absurd ?_ hlost⟩
    rw [ha] at hl
    simpa [lost, ha, hs] using hl

/-! ### The wear record (24 R438) -/

theorem loadWear_of_kept {d : Device} (h : d.wearCut = false) : loadWear d = d := by
  rw [loadWear, h, if_neg Bool.false_ne_true]

/-- Reading the valid copy changes the record and the mark of a write cut off. -/
theorem loadWear_eq (d : Device) : ∃ w c, loadWear d = { d with wear := w, wearCut := c } := by
  rw [loadWear]
  split
  · exact ⟨_, _, rfl⟩
  · exact ⟨_, _, rfl⟩

/-- A write of the wear record changes its two copies and the counter of writes, and nothing else. -/
theorem writeWear_eq (s : State) (f : Wear → Wear) : ∃ c o till n w g, writeWear s f = { s with dev := { s.dev with
    wear := { f w with biased := s.biased, hours := s.dev.hours, generation := g }, wearCut := c, wearOld := o,
    wearTill := till, counters := n } } := by
  obtain ⟨w, c, h⟩ := loadWear_eq s.dev
  rw [writeWear, h]
  exact ⟨_, _, _, _, w, _, rfl⟩

/-- With both copies valid the write starts from the latest. -/
theorem writeWear_eq_of_kept (f : Wear → Wear) (h : s.dev.wearCut = false) : ∃ o till n g,
    writeWear s f = { s with dev := { s.dev with
      wear := { f s.dev.wear with biased := s.biased, hours := s.dev.hours, generation := g }, wearOld := o,
      wearTill := till, counters := n } } := by
  rw [writeWear, loadWear_of_kept h]
  exact ⟨_, _, _, _, rfl⟩

/-! ### Guard bands (24 R437) -/

/-- A device whose unit's domain has gone up a level: the cycle is recorded, and a notice names the unit. -/
def raiseLevel (s : State) (u : DelayUnit) : State :=
  let s1 := writeWear s (fun w => { w with levels := tput w.levels (domainOf u) (tgetD w.levels (domainOf u) 0 + 1) })
  postNotice { s1 with dev := { s1.dev with bandAt := tput s1.dev.bandAt (domainOf u) s1.cycle } } 1 (unitSource u)

/-- A slack that is not short is a sample of the domain's level. -/
theorem pathDelay_enough (u : DelayUnit) (h : deviceUp s = true) :
    exec (.pathDelayMeasurement u false) s = .next (sampleLevel s (domainOf u)) := by
  change execPathDelayMeasurement u false s = _
  rw [execPathDelayMeasurement, whenUp_of_up h]
  rfl

/-- A short slack raises the level, waits for the next step to be due or, at level 30, marks the unit. -/
theorem pathDelay_short (u : DelayUnit) (h : deviceUp s = true) : exec (.pathDelayMeasurement u true) s = .next (
    if levelOf s.dev (domainOf u) < 30 then
      if bandDue s.dev.bandAt (domainOf u) s.cycle then raiseLevel (sampleLevel s (domainOf u)) u
      else sampleLevel s (domainOf u)
    else markUnit (sampleLevel s (domainOf u)) u) := by
  have hs : (sampleLevel s (domainOf u)).cycle = s.cycle ∧ (sampleLevel s (domainOf u)).dev.bandAt = s.dev.bandAt ∧
      levelOf (sampleLevel s (domainOf u)).dev (domainOf u) = levelOf s.dev (domainOf u) := by
    obtain ⟨m, f, a, b, e⟩ := sampleLevel_eq s (domainOf u)
    rw [e]
    exact ⟨rfl, rfl, rfl⟩
  obtain ⟨hc, hb, hl⟩ := hs
  change execPathDelayMeasurement u true s = _
  rw [execPathDelayMeasurement, whenUp_of_up h, ← hc, ← hb, ← hl]
  rfl

theorem raiseLevel_spec (u : DelayUnit) (hcut : s.dev.wearCut = false) : let t := raiseLevel s u
    (∀ k, levelOf t.dev k = levelOf s.dev k + if k = domainOf u then 1 else 0) ∧
    tget t.dev.bandAt (domainOf u) = some s.cycle ∧ t.dev.noticesPosted = s.dev.noticesPosted + 1 ∧
    t.groups = s.groups ∧ t.gmem = s.gmem := by
  intro t
  obtain ⟨o, till, n, g, hw⟩ := writeWear_eq_of_kept
    (fun w => { w with levels := tput w.levels (domainOf u) (tgetD w.levels (domainOf u) 0 + 1) }) hcut
  obtain ⟨x, cs, hn, -⟩ := postNotice_eq { s with dev := { s.dev with
    wear := { s.dev.wear with
      levels := tput s.dev.wear.levels (domainOf u) (tgetD s.dev.wear.levels (domainOf u) 0 + 1)
      biased := s.biased, hours := s.dev.hours, generation := g },
    wearOld := o, wearTill := till, counters := n, bandAt := tput s.dev.bandAt (domainOf u) s.cycle } } 1 (unitSource u)
  unfold t raiseLevel
  rw [hw, hn]
  refine ⟨fun k => ?_, tget_tput_self _ _ _, rfl, rfl, rfl⟩
  simp only [levelOf, tgetD_tput]
  split
  case isTrue h => rw [h]
  case isFalse => rfl

/-- A stack that is marked is so in the record, and stays in use until the next start. -/
theorem markUnit_stack (n : Nat) (hcut : s.dev.wearCut = false) (hnew : tgetD s.dev.wear.hbm n 0 = 0) :
    let t := markUnit s (.stack n)
    t.dev.wear.hbm = tput s.dev.wear.hbm n 1 ∧ t.dev.hbm = s.dev.hbm := by
  intro t
  obtain ⟨o, till, c, g, hw⟩ := writeWear_eq_of_kept (fun w => { w with hbm := tput w.hbm n 1 }) hcut
  have ht : t = postNotice (writeWear s (fun w => { w with hbm := tput w.hbm n 1 })) 2 (unitSource (.stack n)) := if_pos hnew
  obtain ⟨x, cs, hn, -⟩ := postNotice_eq (writeWear s (fun w => { w with hbm := tput w.hbm n 1 })) 2 (unitSource (.stack n))
  rw [ht, hn, hw]
  exact ⟨rfl, rfl⟩

/-! ### Calibration (24 R439, 18 R357) -/

/-- A test deviates when a count is further from 32,768 than the threshold. -/
theorem deviating_pos {threshold : Nat} {counts : List Nat} :
    0 < deviating threshold counts ↔ ∃ v ∈ counts, threshold < ((v : Int) - 32768).natAbs := by
  simp [deviating, List.length_pos_iff_exists_mem]

/-- The samples of bias tests change the monitors of the device and nothing else. -/
theorem foldl_sampleBias_eq (f : Nat → Nat) (g : Nat → List Nat) (ks : List Nat) (s : State) : ∃ m fr a,
    ks.foldl (fun t k => sampleBias t (f k) (g k)) s =
      { s with dev := { s.dev with monitors := m, fresh := fr, freshAt := a } } := by
  induction ks generalizing s with
  | nil => exact ⟨_, _, _, rfl⟩
  | cons k ks ih => exact ih _

/-- The marks of a calibration: a lattice tested is marked when its test deviates, and another as before (18 R357). -/
def calibrationMarks (s : State) (clusters : List Nat) (tests : List (List Nat)) : List Nat :=
  let lats := clusters.flatMap (clusterLats s.dev)
  let bad := ((upto lats.length).filter (fun k => decide (0 < deviating 1311 (tests.getD k [])))).map (fun k => lats.getD k 0)
  bad.foldl (fun m k => insertNat k m) (s.biased.filter (fun k => !lats.contains k))

theorem mem_calibrationMarks {clusters : List Nat} {tests : List (List Nat)} {k : Nat} :
    let tested := clusters.flatMap (clusterLats s.dev)
    k ∈ calibrationMarks s clusters tests ↔
      (∃ j, tested[j]? = some k ∧ ∃ v ∈ tests.getD j [], 1311 < ((v : Int) - 32768).natAbs) ∨ (k ∈ s.biased ∧ k ∉ tested) := by
  intro tested
  have bad (j : Nat) : (j < tested.length ∧ 0 < deviating 1311 (tests.getD j [])) ∧ tested.getD j 0 = k ↔
      tested[j]? = some k ∧ ∃ v ∈ tests.getD j [], 1311 < ((v : Int) - 32768).natAbs := by
    rw [deviating_pos, and_right_comm]
    refine and_congr_left fun _ => ⟨fun ⟨hj, e⟩ => ?_, fun e => ?_⟩
    · rw [List.getD_eq_getElem _ _ hj] at e
      rw [List.getElem?_eq_getElem hj, e]
    · obtain ⟨hj, e⟩ := List.getElem?_eq_some_iff.mp e
      exact ⟨hj, (List.getD_eq_getElem _ _ hj).trans e⟩
  simp only [calibrationMarks, mem_foldl_insertNat, List.mem_map, List.mem_filter, upto, List.mem_range, decide_eq_true_eq]
  rw [or_comm]
  refine or_congr (exists_congr bad) (and_congr_right fun _ => ?_)
  simp [tested]

/-- A calibration changes the marks and, of the device, the monitors; and it writes the hours of its clusters' calibration
in the wear record. -/
theorem calibrate_eq (s : State) (clusters : List Nat) (tests : List (List Nat)) : ∃ m f a,
    let s1 := { s with biased := calibrationMarks s clusters tests, dev := { s.dev with monitors := m, fresh := f, freshAt := a } }
    calibrate s clusters tests = if clusters.isEmpty then s1
      else writeWear s1 (fun w => { w with calHours := clusters.foldl (fun t c => tput t c s.dev.hours) w.calHours }) := by
  let lats := clusters.flatMap (clusterLats s.dev)
  obtain ⟨m, f, a, h⟩ := foldl_sampleBias_eq (fun k => lats.getD k 0) (fun k => tests.getD k []) (upto lats.length)
    { s with biased := calibrationMarks s clusters tests }
  exact ⟨m, f, a, congrArg (fun u => if clusters.isEmpty then u else writeWear u _) h⟩

/-- What a calibration leaves: the marks, the hours of its clusters, and the partitions and groups as they were. -/
theorem calibrate_spec (s : State) (clusters : List Nat) (tests : List (List Nat)) : let t := calibrate s clusters tests
    t.biased = calibrationMarks s clusters tests ∧ (∀ c ∈ clusters, tgetD t.dev.wear.calHours c 0 = s.dev.hours) ∧
    t.parts = s.parts ∧ t.groups = s.groups ∧ t.gmem = s.gmem := by
  intro t
  obtain ⟨m, f, a, ht⟩ := calibrate_eq s clusters tests
  have ht : t = _ := ht
  rw [ht]
  cases clusters with
  | nil => exact ⟨rfl, nofun, rfl, rfl, rfl⟩
  | cons c cs =>
    rw [if_neg (by simp)]
    obtain ⟨cut, o, till, n, w, g, hw⟩ := writeWear_eq _ _
    rw [hw]
    exact ⟨rfl, fun k hk => tgetD_foldl_tput_of_mem _ _ _ hk, rfl, rfl, rfl⟩

/-- A partition whose clusters in recalibration have joined it. -/
def joined (p : Part) : Part :=
  { p with clusters := p.joining.foldl (fun l c => insertNat c l) p.clusters, joining := [] }

/-- The end of a recalibration: its lattices are marked, its hours written, and clusters join their partitions. -/
theorem recalibrateDone_spec (counts : List (List Nat)) (h : deviceRuns s = true) :
    ∃ t, exec (.recalibrateDone counts) s = .next t ∧ t.dev.recal = [] ∧
    (∀ n p, tget s.parts n = some p → ∃ q, tget t.parts n = some q ∧ q.joining = [] ∧ ∀ c, c ∈ q.clusters ↔ c ∈ p.clusters ∨ c ∈ p.joining) ∧
    t.biased = calibrationMarks s s.dev.recal counts ∧
    (∀ c ∈ s.dev.recal, tgetD t.dev.wear.calHours c 0 = s.dev.hours) ∧ t.groups = s.groups ∧ t.gmem = s.gmem := by
  obtain ⟨hmarks, hhours, hparts, hgroups, hmem⟩ := calibrate_spec s s.dev.recal counts
  change ∃ t, execRecalibrateDone counts s = _ ∧ _
  rw [execRecalibrateDone, whenRuns_of_runs h]
  refine ⟨_, rfl, rfl, fun n p hp => ?_, hmarks, hhours, hgroups, hmem⟩
  refine ⟨joined p, ?_, rfl, fun c => mem_foldl_insertNat⟩
  dsimp only
  rw [tget_tmap, hparts, hp]
  rfl

/-! ### Starts (24 R442-R445) -/

/-- The steps of a start change the cycle counter, the marks, the count of free values and the device, of which they keep
why it is frozen and the kind of its start. -/
structure StartOnly (s t : State) : Prop where
  rest : { t with cycle := s.cycle, dev := s.dev, biased := s.biased, freeCount := s.freeCount } = s
  frozen : t.dev.frozen = s.dev.frozen
  kind : t.dev.startKind = s.dev.startKind

variable {s0 : State}

theorem StartOnly.refl (s : State) : StartOnly s s := ⟨rfl, rfl, rfl⟩

/-- An update of those fields, and of the device besides the two. -/
theorem StartOnly.update {cycle dev biased freeCount} (h : StartOnly s0 s) (hf : dev.frozen = s.dev.frozen)
    (hk : dev.startKind = s.dev.startKind) :
    StartOnly s0 { s with cycle := cycle, dev := dev, biased := biased, freeCount := freeCount } :=
  ⟨h.rest, hf.trans h.frozen, hk.trans h.kind⟩

theorem StartOnly.ite {a b : State} {c : Prop} [Decidable c] (ha : StartOnly s0 a) (hb : StartOnly s0 b) :
    StartOnly s0 (if c then a else b) := by
  split
  · exact ha
  · exact hb

theorem StartOnly.postNotice {kind unit} (h : StartOnly s0 s) : StartOnly s0 (postNotice s kind unit) := by
  obtain ⟨x, cs, e, -⟩ := postNotice_eq s kind unit
  rw [e]
  exact h.update rfl rfl

theorem StartOnly.writeWear {f} (h : StartOnly s0 s) : StartOnly s0 (writeWear s f) := by
  obtain ⟨c, o, till, n, w, g, e⟩ := writeWear_eq s f
  rw [e]
  exact h.update rfl rfl

theorem StartOnly.calibrate {clusters tests} (h : StartOnly s0 s) : StartOnly s0 (calibrate s clusters tests) := by
  obtain ⟨m, f, a, e⟩ := calibrate_eq s clusters tests
  rw [e]
  exact .ite (h.update rfl rfl) (.writeWear (h.update rfl rfl))

theorem StartOnly.endStart (h : StartOnly s0 s) : StartOnly s0 (endStart s) := h.update rfl rfl

theorem StartOnly.failStart {step unit} (h : StartOnly s0 s) : StartOnly s0 (failStart s step unit) :=
  (StartOnly.postNotice (.endStart (.writeWear h))).update rfl rfl

theorem loadHostRecord_eq (d : Device) : ∃ r c, loadHostRecord d = { d with hostRec := r, hostCut := c } := by
  rw [loadHostRecord]
  split
  · exact ⟨_, _, rfl⟩
  · exact ⟨_, _, rfl⟩

theorem applyHostRecord_keeps (d : Device) :
    (applyHostRecord d).frozen = d.frozen ∧ (applyHostRecord d).startKind = d.startKind := by
  obtain ⟨r, c, e⟩ := loadHostRecord_eq d
  rw [applyHostRecord, e]
  dsimp only
  split
  · exact ⟨rfl, rfl⟩
  · exact ⟨rfl, rfl⟩

theorem StartOnly.portUp {run} (h : StartOnly s0 s) : StartOnly s0 (portUp s run) := by
  have h1 : StartOnly s0 (Machine.postNotice (Machine.endStart s) 4 (sourceOf 4 0)) := .postNotice (.endStart h)
  obtain ⟨hf, hk⟩ := applyHostRecord_keeps (Machine.postNotice (Machine.endStart s) 4 (sourceOf 4 0)).dev
  exact h1.update hf hk

theorem StartOnly.loadStep (h : StartOnly s0 s) : StartOnly s0 (loadStep s) := by
  unfold Machine.loadStep
  obtain ⟨w, c, e⟩ := loadWear_eq s.dev
  rw [e]
  exact .writeWear (h.update rfl rfl)

theorem StartOnly.configStep {unit next} (hnext : ∀ {t}, StartOnly s0 t → StartOnly s0 (next t))
    (h : StartOnly s0 s) : StartOnly s0 (configStep s unit next) := by
  unfold Machine.configStep
  split
  · exact .failStart h
  · split
    · exact .ite (hnext (h.update rfl rfl)) (.failStart h)
    · exact .failStart h

theorem StartOnly.stepWork {cold safe step f next} (hnext : ∀ {t}, StartOnly s0 t → StartOnly s0 (next t))
    (h : StartOnly s0 s) : StartOnly s0 (stepWork s cold safe step f next) := by
  unfold Machine.stepWork
  split
  case h_1 => exact hnext (.ite (h.update rfl rfl) h) -- step 1: the strap
  case h_2 => exact hnext (.ite (h.update rfl rfl) h) -- step 3: safe mode
  case h_3 => exact hnext (.writeWear h) -- step 4: the cores
  case h_4 => exact hnext (.writeWear h) -- step 5: the stacks
  case h_5 => exact hnext ((StartOnly.writeWear h).update rfl rfl) -- step 6: modules and ports
  case h_6 => exact .configStep hnext h -- step 7: the configuration
  case h_7 => exact hnext (.calibrate (h.update rfl rfl)) -- step 8: calibration
  case h_8 => exact .ite (.portUp h) (.portUp (.writeWear h)) -- step 9: the host port
  case h_9 => exact hnext h

theorem StartOnly.startStep {cold safe step f} (h : StartOnly s0 s) : StartOnly s0 (startStep s cold safe step f) :=
  .ite (h.update rfl rfl) (.ite (.ite (.failStart (.loadStep h)) ((StartOnly.loadStep h).update rfl rfl))
    (.ite (.failStart h) (.stepWork (fun k => k.update rfl rfl) h)))

theorem StartOnly.runStart {fuel} (h : StartOnly s0 s) : StartOnly s0 (runStart fuel s) := by
  induction fuel generalizing s with
  | zero => exact h
  | succ fuel ih =>
    rw [Machine.runStart]
    split
    · exact .ite (h.update rfl rfl) (ih (.startStep h))
    · exact h

/-- The state in which the steps of a start begin: all that it destroys is gone. -/
def startBegun (s : State) (cold : Bool) (f : StartFacts) : State :=
  let s1 := wiped s cold
  { s1 with dev := { s1.dev with startKind := if cold then 0 else 1, run := .starting cold false 1 f } }

theorem startDevice_startOnly (s : State) (cold : Bool) (f : StartFacts) :
    StartOnly (startBegun s cold f) (startDevice s cold f) :=
  .runStart (.refl _)

theorem erased_of_startOnly (he : Erased s) (h : StartOnly s t) : Erased t := by
  rw [← h.rest] at he
  exact ⟨he.parts, he.units, he.memory, he.host⟩

theorem erased_startBegun (s : State) (cold : Bool) (f : StartFacts) : Erased (startBegun s cold f) :=
  ⟨⟨rfl, rfl, rfl, rfl, rfl⟩, ⟨rfl, rfl, rfl, rfl, rfl⟩, ⟨rfl, rfl, rfl, rfl, rfl, rfl, rfl⟩, rfl⟩

theorem startDevice_spec (s : State) (cold : Bool) (f : StartFacts) : Erased (startDevice s cold f) ∧
    (startDevice s cold f).dev.frozen = .none ∧ (startDevice s cold f).dev.startKind = (if cold then 0 else 1) :=
  have h := startDevice_startOnly s cold f
  ⟨erased_of_startOnly (erased_startBegun s cold f) h, h.frozen, h.kind⟩

/-- A warm start keeps each byte but those of the pages of chip shared memory. -/
theorem mread_startDevice_warm (s : State) (f : StartFacts) (a : Nat)
    (h : ((tget s.pages (a / Config.pageBytes)).map (·.shared)) ≠ some true) :
    mread (startDevice s false f).gmem a = mread s.gmem a := by
  have hgmem : (startDevice s false f).gmem = (startBegun s false f).gmem := by
    have e := congrArg State.gmem (startDevice_startOnly s false f).rest
    exact e
  rw [hgmem]
  refine mread_filter _ s.gmem a fun v => ?_
  dsimp only
  cases e : (tget s.pages (a / Config.pageBytes)).map (·.shared) with
  | none => rfl
  | some b =>
    cases b with
    | false => rfl
    | true => exact absurd e h

/-- A loss of power keeps what storage holds, and cuts off a write under way (24 R438, R444). -/
theorem powerLoss_spec (s : State) : ∃ t, exec .powerLoss s = .next t ∧ Erased t ∧ t.dev.run = .off ∧
    t.dev.wear = s.dev.wear ∧ t.dev.wearOld = s.dev.wearOld ∧ t.dev.hostRec = s.dev.hostRec ∧ t.chipPhase = 0 ∧
    (t.dev.wearCut = true ↔ s.dev.wearCut = true ∨ s.cycle < s.dev.wearTill) ∧
    t.dev.hours = (if t.dev.wearCut then s.dev.wearOld else s.dev.wear).hours := by
  obtain ⟨parts, units, memory, host⟩ := erased_startBegun s true {}
  refine ⟨_, rfl, ⟨parts, units, memory, host⟩, rfl, rfl, rfl, rfl, rfl, ?_, ?_⟩
  · exact (Bool.or_eq_true_iff ..).trans (or_congr_right decide_eq_true_iff)
  · exact congrArg Wear.hours (apply_ite Device.wear _ _ _)

/-! ### Throttling (01 R24) -/

/-- A throttling episode begins: its cycle is recorded and a notice posted. -/
theorem throttle_begins (hup : deviceUp s = true) (h : s.dev.throttled = false) : ∃ t, exec .throttle s = .next t ∧
    t.dev.throttled = true ∧ t.dev.throttleAt = s.cycle ∧ t.dev.noticesPosted = s.dev.noticesPosted + 1 ∧
    t.dev.wear = s.dev.wear ∧ { t with dev := s.dev, freeCount := s.freeCount } = s := by
  change ∃ t, execThrottle s = _ ∧ _
  rw [execThrottle, whenUp_of_up hup, if_neg (by simp [h])]
  refine ⟨_, rfl, ?_⟩
  obtain ⟨x, cs, e, -⟩ := postNotice_eq { s with dev := { s.dev with throttled := true, throttleAt := s.cycle } } 3 (sourceOf 4 0)
  rw [e]
  exact ⟨rfl, rfl, rfl, rfl, rfl⟩

/-- It ends: its cycles are counted. -/
theorem throttle_ends (hup : deviceUp s = true) (h : s.dev.throttled = true) : ∃ t, exec .throttleEnd s = .next t ∧
    t.dev.throttled = false ∧
    tgetD t.dev.counters 5 0 = tgetD s.dev.counters 5 0 + (s.cycle - s.dev.throttleAt) ∧ { t with dev := s.dev } = s := by
  change ∃ t, execThrottleEnd s = _ ∧ _
  rw [execThrottleEnd, whenUp_of_up hup, if_pos h]
  exact ⟨_, rfl, rfl, tgetD_tput_self _ _ _ _, rfl⟩

theorem throttle_again (hup : deviceUp s = true) (h : s.dev.throttled = true) : exec .throttle s = .next s := by
  change execThrottle s = _
  rw [execThrottle, whenUp_of_up hup, if_pos h]

theorem throttleEnd_again (hup : deviceUp s = true) (h : s.dev.throttled = false) : exec .throttleEnd s = .next s := by
  change execThrottleEnd s = _
  rw [execThrottleEnd, whenUp_of_up hup, if_neg (by simp [h])]

/-! ### Temperatures (24 R434) -/

theorem temperatureSample_unknown {a : Nat} (v : Nat) (hup : deviceUp s = true) (h : 36 ≤ a) :
    exec (.temperatureSample a v) s = .next s := by
  change execTemperatureSample a v s = _
  rw [execTemperatureSample, whenUp_of_up hup, if_neg (Nat.not_lt.mpr h)]

theorem temperatureSample_enters {a : Nat} (v : Nat) (hup : deviceUp s = true) (h : a < 36) :
    exec (.temperatureSample a v) s = .next (addSample s (2146 + a) v) := by
  change execTemperatureSample a v s = _
  rw [execTemperatureSample, whenUp_of_up hup, if_pos h]

/-! ### Freezes and resumes (23 R425, R427) -/

theorem freezeDevice_of_on {why : Freeze} (hr : s.dev.run ≠ .off) (hf : s.dev.frozen = .none) :
    freezeDevice s why = onDevice s (fun d => { d with frozen := why }) := by
  rw [freezeDevice, if_neg (by simp [hr, hf])]
  rfl

theorem freezeDevice_of_not {why : Freeze} (h : s.dev.run = .off ∨ s.dev.frozen ≠ .none) : freezeDevice s why = s := by
  rw [freezeDevice, if_pos (by simpa using h)]

/-- A running device that resumes: every region reports a strike. -/
theorem resumeDevice_of_running (h : s.dev.run = .running) :
    resumeDevice s = strikeAll (onDevice s (fun d => { d with frozen := .none, resumePending := false })) := by
  rw [resumeDevice, h]
  rfl

theorem frzNFall_eq (s : State) : exec .frzNFall s =
    .next (freezeDevice (onDevice s (fun d => { d with frz := false, resumePending := false })) .pin) := rfl

theorem thermalTrip_of_off (h : s.dev.run = .off) : exec .thermalTrip s = .next s := by
  change execThermalTrip s = _
  rw [execThermalTrip, if_pos (by simp [h])]

theorem thermalTrip_of_on (h : s.dev.run ≠ .off) :
    exec .thermalTrip s = .next (freezeDevice (onDevice s (fun d => { d with tripped := true })) .thermal) := by
  change execThermalTrip s = _
  rw [execThermalTrip, if_neg (by simp [h])]
  rfl

/-- A level that is high already, or a device that is not frozen: nothing resumes. -/
theorem frzNRise_idle (h : s.dev.frz = true ∨ s.dev.frozen = .none) :
    exec .frzNRise s = .next (onDevice s (fun d => { d with frz := true })) := by
  change execFrzNRise s = _
  rw [execFrzNRise, if_pos (by simpa using h)]
  rfl

/-- A rising edge that finds the device tripped waits until it has cooled. -/
theorem frzNRise_waits (hz : s.dev.frz = false) (hf : s.dev.frozen ≠ .none) (ht : s.dev.tripped = true) :
    exec .frzNRise s = .next (onDevice s (fun d => { d with frz := true, resumePending := true })) := by
  change execFrzNRise s = _
  rw [execFrzNRise, if_neg (by simp [hz, hf]), if_pos ht]
  rfl

theorem frzNRise_resumes (hz : s.dev.frz = false) (hf : s.dev.frozen ≠ .none) (ht : s.dev.tripped = false) :
    exec .frzNRise s = .next (resumeDevice (onDevice s (fun d => { d with frz := true }))) := by
  change execFrzNRise s = _
  rw [execFrzNRise, if_neg (by simp [hz, hf]), if_neg (by simp [ht])]
  rfl

theorem tripCooldown_idle (h : s.dev.resumePending = false) :
    exec .tripCooldown s = .next (onDevice s (fun d => { d with tripped := false })) := by
  change execTripCooldown s = _
  rw [execTripCooldown, if_neg (by simp [h])]
  rfl

theorem tripCooldown_resumes (h : s.dev.resumePending = true) :
    exec .tripCooldown s = .next (resumeDevice (onDevice s (fun d => { d with tripped := false }))) := by
  change execTripCooldown s = _
  rw [execTripCooldown, if_pos h]
  rfl

/-! ### Power and resets (24 R442, R445) -/

theorem powerUp_eq (s : State) (f : StartFacts) :
    exec (.powerUp f) s = .next (if s.dev.run == .off then startDevice s true f else s) := rfl

theorem porstN_eq (s : State) (f : StartFacts) : exec (.porstN f) s = .next (if s.dev.run == .off then s
    else { startDevice s true f with turn := tput (startDevice s true f).turn 3 1 }) := rfl

theorem srstN_eq (s : State) (f : StartFacts) : exec (.srstN f) s =
    .next (if s.dev.run == .off || tgetD s.turn 3 0 = 1 then s else startDevice s false f) := rfl

/-! ### The test access port (23 R426) -/

/-- The test port reads a frozen device that has power. -/
theorem onTap_of_frozen (f : Device → Device) (hf : s.dev.frozen ≠ .none) (hr : s.dev.run ≠ .off) :
    onTap s f = .next (onDevice s f) := by
  rw [onTap, if_neg (by simp [hf, hr])]
  rfl

theorem onTap_of_not (f : Device → Device) (h : s.dev.frozen = .none ∨ s.dev.run = .off) : onTap s f = .next s := by
  rw [onTap, if_pos (by simpa using h)]

theorem bitsOf_eq_bitsFrom (n v : Nat) : bitsOf n v = bitsFrom n v := rfl

theorem idcode_of_frozen (hf : s.dev.frozen ≠ .none) (hr : s.dev.run ≠ .off) : exec .idcode s = .next (onDevice s (fun d =>
    { d with tapIr := 1, tapOut := bitsFrom 32 (s.dev.stepping % 16 * 2 ^ 28 + 0x4810 * 2 ^ 12 + 0x2B5 * 2 + 1) })) := by
  change execIdcode s = _
  rw [execIdcode, onTap_of_frozen _ hf hr]
  simp only [bitsOf_eq_bitsFrom, onDevice]

theorem segread_of_frozen (hf : s.dev.frozen ≠ .none) (hr : s.dev.run ≠ .off) : exec .segread s = .next
    { onDevice s (fun d => { d with tapIr := 0x21, tapOut := segmentBits s d.tapSeg }) with freeCount := s.freeCount + 1 } := by
  change execSegread s = _
  rw [execSegread, if_neg (by simp [hf, hr])]
  rfl

theorem segread_of_not (h : s.dev.frozen = .none ∨ s.dev.run = .off) : exec .segread s = .next s := by
  change execSegread s = _
  rw [execSegread, if_pos (by simpa using h)]

theorem segsel_of_frozen {n : Nat} (hn : n < 1050) (hf : s.dev.frozen ≠ .none) (hr : s.dev.run ≠ .off) :
    exec (.segsel n) s = .next (onDevice s (fun d => { d with tapIr := 0x20, tapSeg := n })) := by
  change execSegsel n s = _
  rw [execSegsel, onTap_of_frozen _ hf hr]
  simp only [if_pos hn]

/-- The events of a device that is up do nothing on one that is not. -/
theorem upEvent_of_not_up {ins : Instr} (h : UpEvent ins) (hup : deviceUp s = false) : exec ins s = .next s := by
  cases h with
  | throttle => exact (whenUp_of_not_up hup : execThrottle s = _)
  | throttleEnd => exact (whenUp_of_not_up hup : execThrottleEnd s = _)
  | pathDelayMeasurement u b => exact (whenUp_of_not_up hup : execPathDelayMeasurement u b s = _)
  | temperatureSample a v => exact (whenUp_of_not_up hup : execTemperatureSample a v s = _)
  | calibrationExpiry h => exact (whenUp_of_not_up hup : execCalibrationExpiry h s = _)

end Sys2Proof.Machine

namespace Sys2Proof

open Sys2Proof.Machine

/-- Settles O52: each clause is what the lemma about its event or operation says. -/
theorem deviceEvents : Obligations.DeviceEvents := by
  unfold Obligations.DeviceEvents
  refine ⟨fun ins h s hup => upEvent_of_not_up h hup, fun s hup => ⟨fun h => ⟨throttle_again hup h, throttle_ends hup h⟩,
    fun h => ⟨throttleEnd_again hup h, throttle_begins hup h⟩⟩, fun s kind unit => ?notice, fun s a v hup => ⟨?hot, ?temperature⟩,
    fun m v => ?sample, fun s u hup => pathDelay_enough u hup, fun s u hup hcut hlow => ⟨?early, ?step⟩, fun s u hup htop => ?top,
    fun s n hcut hnew => ?stack, fun s counts hruns => ?recalibrated, fun s h hup => ?hours, fun s f => ⟨?off, ?on⟩,
    startDevice_spec, mread_startDevice_warm, powerLoss_spec, fun s => ⟨?freeze, ?noFreeze, thermalTrip_of_off, ?trip⟩,
    fun s => ⟨frzNRise_idle, frzNRise_waits, ?rise⟩, fun s => ⟨tripCooldown_idle, ?cool⟩, fun s hf hr => ?tap, fun s n h => ?noTap⟩
  case notice =>
    obtain ⟨x, cs, e, hx, hkept, hlost⟩ := postNotice_eq s kind unit
    rw [e]
    exact ⟨⟨x, rfl, hx⟩, rfl, hkept, hlost⟩
  case hot => exact temperatureSample_unknown v hup
  case temperature =>
    intro ha
    refine ⟨_, temperatureSample_enters v hup ha, rfl, ?_, fun k hk => ?_⟩
    · rw [monitorAt_addSample, if_pos rfl]
    · rw [monitorAt_addSample, if_neg hk]
  case sample => exact ⟨rfl, rfl, rfl, bins_sampleInto m v, fun h => if_pos h, fun h => if_neg (by simp [h])⟩
  case early =>
    intro hdue
    rw [pathDelay_short u hup, if_pos hlow, if_neg (by simp [hdue])]
  case step =>
    intro hdue
    rw [pathDelay_short u hup, if_pos hlow, if_pos hdue]
    refine ⟨_, rfl, ?_⟩
    obtain ⟨m, f, a, b, e⟩ := sampleLevel_eq s (domainOf u)
    rw [e]
    exact raiseLevel_spec u hcut
  case top => rw [pathDelay_short u hup, if_neg (Nat.not_lt.mpr htop)]
  case stack =>
    obtain ⟨hw, hstacks⟩ := markUnit_stack n hcut hnew
    exact ⟨by rw [hw, tgetD_tput_self], fun k hk => by rw [hw, tgetD_tput_ne _ _ _ _ _ hk], hstacks⟩
  case recalibrated =>
    obtain ⟨t, ht, hrecal, hparts, hmarks, hrest⟩ := recalibrateDone_spec counts hruns
    exact ⟨t, ht, hrecal, hparts, fun k => hmarks ▸ mem_calibrationMarks, hrest⟩
  case hours => exact (whenUp_of_up hup : execCalibrationExpiry h s = _)
  case off =>
    intro h
    rw [powerUp_eq, porstN_eq, srstN_eq]
    simp [h]
  case on =>
    intro h
    rw [powerUp_eq, porstN_eq, srstN_eq]
    exact ⟨by simp [h], by simp [h], fun low => by simp [low], fun high => by simp [h, high]⟩
  case freeze =>
    intro hr hf
    constructor
    · rw [frzNFall_eq, freezeDevice_of_on]
      exacts [rfl, hr, hf]
    · rw [thermalTrip_of_on hr, freezeDevice_of_on]
      exacts [rfl, hr, hf]
  case noFreeze =>
    intro h
    rw [frzNFall_eq, freezeDevice_of_not]
    exact h
  case trip =>
    intro hr hf
    rw [thermalTrip_of_on hr, freezeDevice_of_not]
    exact .inr hf
  case rise =>
    intro hz hf ht hr
    rw [frzNRise_resumes hz hf ht]
    exact congrArg Host.Outcome.next (resumeDevice_of_running hr)
  case cool =>
    intro h hr
    rw [tripCooldown_resumes h]
    exact congrArg Host.Outcome.next (resumeDevice_of_running hr)
  case tap =>
    exact ⟨idcode_of_frozen hf hr, fun n hn => segsel_of_frozen hn hf hr,
      (onTap_of_frozen _ hf hr : execBypass s = _), segread_of_frozen hf hr⟩
  case noTap =>
    exact ⟨(onTap_of_not _ h : execIdcode s = _), (onTap_of_not _ h : execSegsel n s = _), segread_of_not h,
      (onTap_of_not _ h : execBypass s = _)⟩

end Sys2Proof
end

section
/-! SUPPORT. A HELLO that destroys a partition: before its own reply, it sends the answers of the partition's sessions to
the requests that they wait on (21 R374, R382, R384). -/

namespace Sys2Proof.Machine

open Sys2Proof

/-- Partition 0, whose session 1 waits for the checkpoint that its CKPT_MSG_START began (23 R424); no launch is left. -/
def awaitingCheckpoint : State :=
  { State.reset with
    parts := [(0, { clusters := [0], weight := 1, ports := [0], quota := 8, strag := 1024, exch := 1024, spanTag := 0,
                    spanSize := 0, session := some 1, ckpt := { phase := 1, starter := some (.host 1) } })]
    sessions := [(1, { admin := false, part := 0, peer := 5, port := 6, rxNext := 3, txSeq := 2, busy := some { type := 8, peer := 5, port := 6 } })]
    nextSession := 2 }

/-- A HELLO of another end. -/
def destroyer : MsgHdr := { session := 0, seq := 1, ack := 0, peer := 7, port := 8 }

theorem datagramArrives_awaitingCheckpoint : DatagramArrives awaitingCheckpoint destroyer :=
  ⟨⟨⟨rfl, .inl rfl⟩, rfl⟩, nofun⟩

theorem headerOf_destroyer : HeaderOf destroyer := ⟨rfl, rfl, rfl⟩

/-- Session 1 is answered NO_PARTITION, and then the HELLO with its new session: session, type and status of each frame. -/
theorem helloDestroy_answers_waiting_session : ∃ t, exec (.helloDestroy destroyer 0 0 2) awaitingCheckpoint = .next t ∧
    t.sent.map (fun f => (f.session, f.type, f.status)) = [(1, 8, 5), (2, 1, 0)] :=
  ⟨_, rfl, by decide +kernel⟩

end Sys2Proof.Machine

namespace Sys2Proof

open Sys2Proof.Machine

/-- Refutes O54: its last clause has a HELLO that destroys a partition send no frame but its own reply (`SessionOpens.sent`),
and the request that a session of the partition waits on is answered before it (21 R382, R384). -/
theorem not_hostMessages : ¬ Obligations.HostMessages := by
  unfold Obligations.HostMessages
  intro h
  obtain ⟨-, -, -, -, -, -, -, -, -, -, -, -, -, -, -, -, -, -, -, -, -, -, -, destroys⟩ := h
  obtain ⟨-, -, opens⟩ := destroys destroyer 0 awaitingCheckpoint datagramArrives_awaitingCheckpoint headerOf_destroyer
  obtain ⟨u, t, ht, session, -⟩ := opens _ rfl nofun
  obtain ⟨v, hv, frames⟩ := helloDestroy_answers_waiting_session
  obtain rfl : t = v := by injection ht.symm.trans hv
  rw [session.sent] at frames
  exact absurd (congrArg List.length frames) (by decide)

end Sys2Proof
end

section
/-! SUPPORT. A group's word that changes the group's registers and adds effects to its chunk: besides the register files,
what its end leaves of the latches of 02 R50 and of the mark of a written trap_pc (21 R392). -/

namespace Sys2Proof.Machine

open Sys2Proof

/-! ### Latches and the end of a word -/

/-- The high words that a lane's reads of low words have latched (02 R50). -/
def latchesAt (c : GroupCore) (k : Nat) : Option Word × Option Word := ((laneAt c k).latchPhase, (laneAt c k).latchCycle)

/-- Group b has the chunk, the latches and the mark of a written trap_pc of group a. -/
structure SameLatches (a b : Group) : Prop where
  chunk : b.cur = a.cur
  latches : ∀ k, latchesAt b.regs k = latchesAt a.regs k
  written : b.regs.trap.written = a.regs.trap.written

theorem SameLatches.refl (a : Group) : SameLatches a a := ⟨rfl, fun _ => rfl, rfl⟩

theorem SameLatches.trans {a b c : Group} (h : SameLatches a b) (k : SameLatches b c) : SameLatches a c :=
  ⟨k.chunk.trans h.chunk, fun n => (k.latches n).trans (h.latches n), k.written.trans h.written⟩

/-- A change of every lane that leaves its latches. -/
theorem latchesAt_tmap (c : GroupCore) (f : Nat → Lane → Lane)
    (hf : ∀ n x, (f n x).latchPhase = x.latchPhase ∧ (f n x).latchCycle = x.latchCycle) (k : Nat) :
    latchesAt { c with lanes := tmap c.lanes f } k = latchesAt c k := by
  simp only [latchesAt, laneAt, tgetD, tget_tmap]
  cases tget c.lanes k with
  | none => rfl
  | some x => exact Prod.ext (hf k x).1 (hf k x).2

theorem lanePlaced_latches (i : In) (f : Fate) (x : Lane) :
    (lanePlaced i f x).latchPhase = x.latchPhase ∧ (lanePlaced i f x).latchCycle = x.latchCycle := by
  cases f with
  | hold w => cases w <;> exact ⟨rfl, rfl⟩
  | _ => exact ⟨rfl, rfl⟩

/-- Lanes put back one by one, each with the latches that it had. -/
theorem latchesAt_foldl_tput {α : Type} (c : GroupCore) (f : Table Lane → α → Table Lane) (xs : List α)
    (hf : ∀ t, ∀ x ∈ xs, ∃ n y, f t x = tput t n y ∧ (y.latchPhase, y.latchCycle) = latchesAt c n) (k : Nat) :
    latchesAt { c with lanes := xs.foldl f c.lanes } k = latchesAt c k := by
  refine xs.foldlRecOn (motive := fun t => latchesAt { c with lanes := t } k = latchesAt c k) f rfl ?_
  intro t ht x hx
  obtain ⟨n, y, hy, hl⟩ := hf t x hx
  rw [hy]
  by_cases hk : k = n
  · rw [hk, ← hl]
    simp [latchesAt, laneAt]
  · rw [← ht]
    simp [latchesAt, laneAt, tgetD_tput_ne _ _ _ _ _ hk]

theorem placeLanes_sameLatches (i : In) (fates : Table Fate) (g : Group) : SameLatches g (placeLanes i fates g) := by
  refine ⟨rfl, fun k => latchesAt_foldl_tput g.regs _ _ (fun t e he => ?_) k, rfl⟩
  obtain ⟨l, -, rfl⟩ := List.mem_map.mp he
  have h := lanePlaced_latches i (tgetD fates l .next) (laneAt g.regs l)
  refine ⟨l, _, rfl, ?_⟩
  split <;> exact Prod.ext h.1 h.2

theorem takeTrap_sameLatches (g : Group) (ls : List Nat) (tr : Table (Nat × Word)) (pc after : Word) (nd : Bool)
    (cs : Table Nat) (win : Option Nat) : SameLatches g (takeTrap g ls tr pc after nd cs win) := by
  unfold takeTrap
  split
  · exact .refl g
  · refine ⟨rfl, fun k => latchesAt_tmap g.regs _ (fun n x => ?_) k, rfl⟩
    split <;> exact ⟨rfl, rfl⟩

theorem releaseMask_sameLatches (q : Nat) (g : Group) (k : Nat) : SameLatches g (releaseMask q g k) := by
  unfold releaseMask
  dsimp only
  split
  · refine ⟨rfl, fun n => ?_, rfl⟩
    refine (latchesAt_tmap { g.regs with lanes := _ } _ (fun m x => ?_) n).trans (latchesAt_tmap g.regs _ (fun m x => ?_) n)
    · split <;> exact ⟨rfl, rfl⟩
    · split
      · split <;> exact ⟨rfl, rfl⟩
      · exact ⟨rfl, rfl⟩
  · exact .refl g

theorem releaseMasks_sameLatches (q : Nat) (g : Group) : SameLatches g (releaseMasks q g) :=
  (upto 12).foldlRecOn (motive := SameLatches g) _ (.refl g) fun _ h k _ => h.trans (releaseMask_sameLatches q _ k)

theorem freeSlot_sameLatches (g : Group) (ls : List Nat) (r : Option Nat) :
    SameLatches g { g with regs := freeSlot (leaveMasks ls g.regs), running := r } := by
  unfold freeSlot
  split <;> exact ⟨rfl, fun _ => rfl, rfl⟩

theorem placedGroup_sameLatches (i : In) (w : Work) (causes : Table Nat) (win : Option Nat) :
    SameLatches w.g (placedGroup i w causes win) :=
  (((placeLanes_sameLatches i w.fates w.g).trans (takeTrap_sameLatches _ _ _ _ _ _ _ _)).trans
    (freeSlot_sameLatches _ _ _)).trans (releaseMasks_sameLatches _ _)

theorem endParts_sameLatches (g : Group) : SameLatches g (endParts g) := by
  refine ⟨rfl, fun k => latchesAt_tmap g.regs _ (fun n x => ?_) k, rfl⟩
  split <;> exact ⟨rfl, rfl⟩

theorem endSwitch_sameLatches (g : Group) (doom : Bool) : SameLatches g { g with regs :=
    let regs := endSwitch g.regs
    if doom then { regs with trap := { regs.trap with doom := g.cur.map (·.uid) } } else regs } := by
  have h : (∀ k, latchesAt (endSwitch g.regs) k = latchesAt g.regs k) ∧
      (endSwitch g.regs).trap.written = g.regs.trap.written := by
    unfold endSwitch
    split
    · exact ⟨fun _ => rfl, rfl⟩
    · refine ⟨fun k => latchesAt_tmap g.regs _ (fun n x => ?_) k, rfl⟩
      split <;> exact ⟨rfl, rfl⟩
  obtain ⟨latches, written⟩ := h
  cases doom
  · exact ⟨rfl, latches, written⟩
  · exact ⟨rfl, latches, written⟩

/-- What the end of a word makes of group a, whose chunk is open: while the chunk stays open the latches stand, and they
end with it (02 R50). -/
structure WordEnds (a b : Group) : Prop where
  latches : b.cur.isSome = true → ∀ k, latchesAt b.regs k = latchesAt a.regs k
  cleared : b.cur = none → ∀ k, latchesAt b.regs k = (none, none)
  written : b.regs.trap.written = a.regs.trap.written

theorem endChunk_wordEnds (n : Nat) {a g : Group} (h : SameLatches a g) (ho : a.cur.isSome = true) :
    WordEnds a (endChunk n g) := by
  obtain ⟨c, hc⟩ := Option.isSome_iff_exists.mp (h.chunk ▸ ho)
  simp only [endChunk, hc]
  split
  · refine ⟨nofun, fun _ k => ?_, h.written⟩
    simp only [latchesAt, laneAt, tgetD, tget_tmap]
    cases tget g.regs.lanes k <;> rfl
  · exact ⟨fun _ => h.latches, fun e => absurd (hc.symm.trans e) nofun, h.written⟩

theorem closedGroup_wordEnds (i : In) (doomed : Bool) {a g : Group} (h : SameLatches a g) (ho : a.cur.isSome = true) :
    WordEnds a (closedGroup i doomed g) := by
  unfold closedGroup
  refine endChunk_wordEnds _ (SameLatches.trans ?_ (endSwitch_sameLatches _ doomed)) ho
  split
  · exact h.trans (endParts_sameLatches g)
  · exact h

theorem finish_wordEnds {i : In} {w : Work} (p : Plain i w) (ho : w.g.cur.isSome = true) :
    ∃ g, tget (finish i w).groups i.gid = some g ∧ WordEnds w.g g := by
  simp only [finish, p.stall, p.retry, p.kill, Bool.false_eq_true, if_false]
  exact ⟨_, tget_tput_self _ _ _, closedGroup_wordEnds i _ (placedGroup_sameLatches i w _ _) ho⟩

/-! ### Words that change registers and add effects -/

/-- The work leaves the registers r in the group and adds the effects `es` to its open chunk, and does nothing else. -/
def LeavesWork (i : In) (r : GroupCore) (es : List Eff) (w : Work) : Prop :=
  ∃ c c1, i.g.cur = some c ∧ c1.stores = c.stores ∧ c1.tags = c.tags ∧ c1.effs = c.effs ++ es ∧
    w = { issueWork i with g := { i.g with regs := r, cur := some c1 } }

theorem issueWork_leaves {s : State} {f : Form} {i : In} (h : GroupIssues s f i) :
    LeavesWork i i.g.regs [] (issueWork i) := by
  obtain ⟨c, hc⟩ := Option.isSome_iff_exists.mp (groupIssues_facts h).opened
  refine ⟨c, c, hc, rfl, rfl, (List.append_nil _).symm, ?_⟩
  rw [← hc]
  rfl

/-- An access for which the signatures have room. -/
theorem access_leaves {i : In} {reads writes : List Nat} (h : signatureRoom i reads writes) :
    LeavesWork i i.g.regs [] (access (issueWork i) reads writes) := by
  obtain ⟨c, c1, hc, h1⟩ := h
  obtain ⟨hs, ht, he⟩ := enterAccess_contents h1
  refine ⟨c, c1, hc, hs, ht, he.trans (List.append_nil _).symm, ?_⟩
  have hg : (issueWork i).g.cur = some c := hc
  simp only [access, hg, h1]
  rfl

variable {i : In} {r : GroupCore} {es : List Eff} {w : Work}

theorem LeavesWork.onRegs (h : LeavesWork i r es w) (f : GroupCore → GroupCore) : LeavesWork i (f r) es (onRegs w f) := by
  obtain ⟨c, c1, hc, hs, ht, he, rfl⟩ := h
  exact ⟨c, c1, hc, hs, ht, he, rfl⟩

theorem LeavesWork.addEffs (h : LeavesWork i r es w) (more : List Eff) :
    LeavesWork i r (es ++ more) (addEffs w more) := by
  obtain ⟨c, c1, hc, hs, ht, he, rfl⟩ := h
  exact ⟨c, { c1 with effs := c1.effs ++ more }, hc, hs, ht, by rw [he, List.append_assoc], rfl⟩

theorem LeavesWork.plain (h : LeavesWork i r es w) : Plain i w := by
  obtain ⟨c, c1, -, -, -, -, rfl⟩ := h
  exact ⟨rfl, rfl, rfl, nofun, fun _ _ => rfl, rfl, rfl⟩

/-- What such a word leaves in the group. -/
structure WordLeaves (i : In) (r : GroupCore) (es : List Eff) (g : Group) : Prop where
  v : g.regs.v = r.v
  s : g.regs.s = r.s
  p : g.regs.p = r.p
  tiles : g.regs.tiles = r.tiles
  accs : g.regs.accs = r.accs
  masks : g.regs.masks = r.masks
  unjoined : g.regs.unjoined = r.unjoined
  trap : (g.regs.trap.cause, g.regs.trap.pc, g.regs.trap.addr, g.regs.trap.done, g.regs.trap.after) =
    (r.trap.cause, r.trap.pc, r.trap.addr, r.trap.done, r.trap.after)
  written : g.regs.trap.written = r.trap.written
  gain : ChunksGain i g [] [] es []
  latches : g.cur.isSome = true → ∀ k, latchesAt g.regs k = latchesAt r k
  cleared : g.cur = none → ∀ k, latchesAt g.regs k = (none, none)

theorem LeavesWork.completes {ins : Instr} {s : State} {f : Form} (h : GroupIssues s f i) (hw : LeavesWork i r es w)
    (he : exec ins s = .next (finish i w)) : Completes ins s i (WordLeaves i r es) := by
  have plain := hw.plain
  obtain ⟨g, hg, q, rest⟩ := finish_plain h plain
  obtain ⟨c, c1, hc, hs, ht, hf, ew⟩ := hw
  have hwg : w.g = { i.g with regs := r, cur := some c1 } := congrArg Work.g ew
  obtain ⟨g', hg', ends⟩ := finish_wordEnds plain (by rw [hwg]; rfl)
  obtain rfl : g = g' := Option.some.inj (hg.symm.trans hg')
  rw [hwg] at q ends
  refine ⟨_, g, he, hg, ⟨q.v, q.s, q.p, q.tiles, q.accs, q.masks, q.unjoined, q.trap, ends.written, ⟨?_, ?_, ?_, ?_⟩,
    ends.latches, ends.cleared⟩, rest⟩
  · rw [q.stores]
    simp [ownStores, ownChunks, hc, hs]
  · rw [q.tags]
    simp [ownTags, ownChunks, hc, ht]
  · rw [q.effs]
    simp [ownEffs, ownChunks, hc, hf]
  · simp [q.flights]

theorem completes_mono {ins : Instr} {s : State} {P Q : Group → Prop} (h : Completes ins s i P) (hPQ : ∀ g, P g → Q g) :
    Completes ins s i Q := by
  obtain ⟨t, g, he, hg, hp, rest⟩ := h
  exact ⟨t, g, he, hg, hPQ g hp, rest⟩

/-- The registers besides the files and lanes are those of the group. -/
theorem WordLeaves.specials {g : Group} (h : WordLeaves i r es g) {c : GroupCore} (hc : SameSpecials i.g.regs c)
    {ls : Table Lane} (hr : r = { c with lanes := ls }) : SpecialsKept i g := by
  subst hr
  exact ⟨h.tiles.trans hc.tiles, h.accs.trans hc.accs, h.masks.trans hc.masks, h.unjoined.trans hc.unjoined,
    by rw [h.trap, hc.trap]⟩

theorem WordLeaves.vectorWritten {g : Group} (h : WordLeaves i r es g) {d : Nat} (hd : d < 64) {f : Nat → Word}
    {ls : Table Lane} (hr : r = { writeLanes d f i (released i i.act) with lanes := ls }) : VectorWritten i g d i.act f := by
  obtain ⟨value, others, uniform, preds⟩ := writeLanes_written i d hd f
  have hv : g.regs.v = (writeLanes d f i (released i i.act)).v := by rw [h.v, hr]
  refine ⟨fun k hk => ?_, fun k n hn hne => ?_, ?_, ?_⟩
  · rw [← value k hk]
    simp only [readV, vreg, hv]
  · rw [← others k n hn hne]
    simp only [vreg, hv]
  · rw [h.s, hr]
    exact uniform
  · rw [h.p, hr]
    exact preds

theorem writeLanes_special (d : Nat) (f : Nat → Word) (c : GroupCore) : SameSpecials c (writeLanes d f i c) :=
  sameSpecials_foldl _ (fun c l => writeV_special c l d (f l)) _ _

/-- A word without source fields releases nothing. -/
theorem released_of_no_sources {s : State} {f : Form} (h : GroupIssues s f i) (ls : List Nat) (hx : f.x = none)
    (hy : f.y = none) (hsx : f.sx = none) (hsy : f.sy = none) : released i ls = i.g.regs := by
  simp [released, releaseSources, (groupIssues_facts h).form, hx, hy, hsx, hsy]

/-! ### State registers (02 R50, 05 R105) -/

/-- The lanes of a list, each changed by a function that changes nothing the second time. -/
theorem foldl_setLane_eq (f : Lane → Lane) (hf : ∀ x, f (f x) = f x) (ls : List Nat) (c : GroupCore) :
    ∃ t, ls.foldl (fun c l => setLane c l (f (laneAt c l))) c = { c with lanes := t } ∧
      ∀ k, tgetD t k {} = if k ∈ ls then f (laneAt c k) else laneAt c k := by
  induction ls generalizing c with
  | nil => exact ⟨c.lanes, rfl, fun k => rfl⟩
  | cons a rest ih =>
    obtain ⟨t, ht, hk⟩ := ih (setLane c a (f (laneAt c a)))
    refine ⟨t, ht, fun k => ?_⟩
    rw [hk k]
    by_cases ha : k = a
    · subst ha
      simp [setLane, laneAt, hf]
    · simp [setLane, laneAt, tgetD_tput_ne _ _ _ _ _ ha, ha]

/-- A read of a low word sets its latch, one of a high word ends it. -/
theorem latchAfter_eq (i : In) (n : Nat) (x : Lane) : latchAfter i n x = { x with
    latchPhase := if n = 6 then some (BitVec.ofNat 32 (boundaryCount i.s i.l / 2 ^ 32)) else if n = 7 then none else x.latchPhase,
    latchCycle := if n = 19 then some (BitVec.ofNat 32 (i.s.cycle / 2 ^ 32)) else if n = 20 then none else x.latchCycle } := by
  unfold latchAfter
  split <;> simp_all

theorem latchAfter_idem (i : In) (n : Nat) (x : Lane) : latchAfter i n (latchAfter i n x) = latchAfter i n x := by
  simp only [latchAfter_eq]
  split_ifs <;> rfl

/-- RDST: the word's work writes the register and then the latches. -/
theorem rdst_completes {s : State} {sw : Bool} {d : BitVec 6} {n : BitVec 8}
    (h : GroupIssues s { sw := sw, v := [d.toNat] } i)
    (room : teamScoped n.toNat = true → i.act ≠ [] → signatureRoom i [teamInput i.t n.toNat] []) :
    ∃ t, (∀ k, tgetD t k {} = if k ∈ i.act then latchAfter i n.toNat (laneAt i.g.regs k) else laneAt i.g.regs k) ∧
      Completes (.rdst sw d n) s i (WordLeaves i
        { writeLanes d.toNat (stateReg i n.toNat) i (released i i.act) with lanes := t } []) := by
  have hlanes : (writeLanes d.toNat (stateReg i n.toNat) i (released i i.act)).lanes = i.g.regs.lanes :=
    ((releaseSources_special i i.act i.g.regs).trans (writeLanes_special _ _ _)).lanes
  obtain ⟨t, ht, hk⟩ := foldl_setLane_eq (latchAfter i n.toNat) (latchAfter_idem i n.toNat) i.act
    (writeLanes d.toNat (stateReg i n.toNat) i (released i i.act))
  refine ⟨t, fun k => ?_, ?_⟩
  · rw [hk k, laneAt, hlanes, laneAt]
  · have enters : LeavesWork i i.g.regs [] (if teamScoped n.toNat && !i.act.isEmpty then
        access (issueWork i) [teamInput i.t n.toNat] [] else issueWork i) := by
      split
      case isTrue e =>
        simp only [Bool.and_eq_true, Bool.not_eq_true', List.isEmpty_eq_false_iff] at e
        exact access_leaves (room e.1 e.2)
      case isFalse => exact issueWork_leaves h
    have w := (enters.onRegs (fun c => writeLanes d.toNat (stateReg i n.toNat) i (releaseSources i i.act c))).onRegs
      (fun c => i.act.foldl (fun c l => setLane c l (latchAfter i n.toNat (laneAt c l))) c)
    rw [← ht]
    exact w.completes h (groupOnly_next h _)

/-- What a lane has latched once the word has ended, while its chunk is open. -/
theorem rdst_latches {g : Group} {n : BitVec 8} {c : GroupCore} {t : Table Lane} (h : WordLeaves i { c with lanes := t } [] g)
    (ht : ∀ k, tgetD t k {} = if k ∈ i.act then latchAfter i n.toNat (laneAt i.g.regs k) else laneAt i.g.regs k)
    {k : Nat} (hk : k ∈ i.act) (ho : g.cur.isSome = true) :
    (laneAt g.regs k).latchPhase = (if n = 6#8 then some (BitVec.ofNat 32 (boundaryCount i.s i.l / 2 ^ 32))
      else if n = 7#8 then none else (laneAt i.g.regs k).latchPhase) ∧
    (laneAt g.regs k).latchCycle = (if n = 19#8 then some (BitVec.ofNat 32 (i.s.cycle / 2 ^ 32))
      else if n = 20#8 then none else (laneAt i.g.regs k).latchCycle) := by
  have e : latchesAt g.regs k = _ := h.latches ho k
  simp only [latchesAt, laneAt, ht k, if_pos hk, latchAfter_eq] at e
  obtain ⟨phase, cycle⟩ := Prod.mk.inj e
  simp only [laneAt, phase, cycle, BitVec.toNat_eq]
  exact ⟨rfl, rfl⟩

theorem stateReg_halves (i : In) (k : Nat) :
    stateReg i 6 k = BitVec.ofNat 32 (boundaryCount i.s i.l) ∧ stateReg i 19 k = BitVec.ofNat 32 i.s.cycle ∧
    stateReg i 7 k = (laneAt i.g.regs k).latchPhase.getD (BitVec.ofNat 32 (boundaryCount i.s i.l / 2 ^ 32)) ∧
    stateReg i 20 k = (laneAt i.g.regs k).latchCycle.getD (BitVec.ofNat 32 (i.s.cycle / 2 ^ 32)) := ⟨rfl, rfl, rfl, rfl⟩

/-- Opening a chunk leaves the cycle counter. -/
theorem groupIssues_cycle {s : State} {f : Form} (h : GroupIssues s f i) : i.s.cycle = s.cycle := by
  have e := congrArg State.cycle (groupIssues_facts h).device
  exact e

/-! ### Counters, amax and the FP trap report (21 R394-R396) -/

/-- A pair of vector registers, low word first. -/
def writePair (d : Nat) (v : DWord) (i : In) (c : GroupCore) : GroupCore :=
  writeLanes (d + 1) (fun _ => hiWord v) i (writeLanes d (fun _ => loWord v) i c)

theorem writePair_written (v : DWord) {d : Nat} (hd : d + 1 < 64) (c : GroupCore) :
    (∀ k ∈ i.act, readV (writePair d v i c) k d = (loWord v, false) ∧ readV (writePair d v i c) k (d + 1) = (hiWord v, false)) ∧
    (∀ k n, n < 64 → ¬(k ∈ i.act ∧ (n = d ∨ n = d + 1)) → vreg (writePair d v i c) k n = vreg c k n) ∧
    (writePair d v i c).s = c.s ∧ (writePair d v i c).p = c.p := by
  obtain ⟨lo, loRest, loS, loP⟩ := vreg_writeLanes i.act d (fun _ => loWord v) c (by omega)
  obtain ⟨hi, hiRest, hiS, hiP⟩ := vreg_writeLanes i.act (d + 1) (fun _ => hiWord v) (writeLanes d (fun _ => loWord v) i c) hd
  refine ⟨fun k hk => ⟨?_, hi k hk⟩, fun k n hn hne => ?_, hiS.trans loS, hiP.trans loP⟩
  · rw [← lo k hk]
    exact congrArg (readReg · poison) (hiRest k d (by omega) (by omega))
  · exact (hiRest k n hn (by tauto)).trans (loRest k n hn (by tauto))

theorem rdcnt_completes {s : State} {sw : Bool} {d n : BitVec 5} (h : GroupIssues s { sw := sw, v := [2 * d.toNat + 1] } i) :
    Completes (.rdcnt sw d n) s i (WordLeaves i (writePair (2 * d.toNat) (counterValue i n.toNat) i (released i i.act)) []) :=
  ((issueWork_leaves h).onRegs _).completes h (groupOnly_next h _)

theorem amaxr_completes {s : State} {sw : Bool} {d : BitVec 6} (h : GroupIssues s { sw := sw, v := [d.toNat] } i)
    (ha : i.act ≠ []) (room : signatureRoom i [teamInput i.t 3] [teamInput i.t 3]) :
    Completes (.amaxr sw d) s i
      (WordLeaves i (writeLanes d.toNat (fun _ => viewReg i.g i.t 3) i i.g.regs) [.wrst 3 0#32]) := by
  have w := ((access_leaves room).onRegs (writeLanes d.toNat (fun _ => viewReg i.g i.t 3) i)).addEffs [.wrst 3 0#32]
  refine w.completes h ((groupOnly_next h _).trans ?_)
  simp only [List.isEmpty_eq_false_iff.mpr ha, Bool.false_eq_true, if_false]

/-- A field of the FP trap report by its number. -/
theorem trapReport_eq (s : State) (tid : Nat) (f : FpWindow) (n : BitVec 2) : trapReport s tid f n.toNat =
    if inService s tid f = false then 0#32 else if n = 0#2 then BitVec.ofNat 32 f.ltid else if n = 1#2 then f.pc
    else if n = 2#2 then BitVec.ofNat 32 f.count else BitVec.ofNat 32 f.causes := by
  unfold trapReport
  cases inService s tid f
  · rfl
  · fin_cases n <;> rfl

/-! ### WRTRAP (21 R392) -/

theorem wrtrap_completes {s : State} {sw : Bool} {y : Src} (h : GroupIssues s { sw := sw, y := some y, low := true } i)
    (ha : i.act ≠ []) (hin : ∀ k ∈ i.act, (laneAt i.g.regs k).handler = true) :
    Completes (.wrtrap sw y) s i (WordLeaves i { released i i.act with
      trap := { (released i i.act).trap with pc := yVal i (i.act.headD 0), written := true } } []) := by
  have inside : i.act.filter (fun l => (laneAt i.g.regs l).handler) = i.act := List.filter_eq_self.mpr hin
  have outside : i.act.filter (fun l => !(laneAt i.g.regs l).handler) = [] :=
    List.filter_eq_nil_iff.mpr fun k hk => by simp [hin k hk]
  have w := (issueWork_leaves h).onRegs (fun c => { releaseSources i i.act c with
    trap := { (releaseSources i i.act c).trap with pc := yVal i (i.act.headD 0), written := true } })
  refine w.completes h ((groupOnly_next h _).trans ?_)
  simp only [inside, outside]
  cases hact : i.act with
  | nil => exact absurd hact ha
  | cons k rest => rfl

end Sys2Proof.Machine

namespace Sys2Proof

open Sys2Proof.Machine

/-- Settles O35: each clause is what the word's work leaves in the group. -/
theorem stateRegisterReads : Obligations.StateRegisterReads := by
  unfold Obligations.StateRegisterReads
  refine ⟨fun sw d n s i h room => ?rdst, stateReg_halves, fun sw d n s i h => ?rdcnt, fun sw d s i h ha room => ?amaxr,
    fun sw d n s i h => ?rdtrap, fun sw y s i h ha hin => ?wrtrap⟩
  case rdst =>
    obtain ⟨t, ht, done⟩ := rdst_completes h room
    refine completes_mono done fun g w =>
      ⟨w.vectorWritten d.isLt rfl, w.gain, w.specials ?_ rfl, fun k hk ho => ?_, fun k _ hc => Prod.mk.inj (w.cleared hc k)⟩
    · exact (releaseSources_special i i.act i.g.regs).trans (writeLanes_special _ _ _)
    · rw [← groupIssues_cycle h]
      exact rdst_latches w ht hk ho
  case rdcnt =>
    have hr := released_of_no_sources h i.act rfl rfl rfl rfl
    obtain ⟨read, others, uniform, preds⟩ := writePair_written (i := i) (counterValue i n.toNat)
      (d := 2 * d.toNat) (by omega) i.g.regs
    refine completes_mono (hr ▸ rdcnt_completes h) fun g w => ⟨fun k hk => ?_, fun k r hr hne => ?_, w.s.trans uniform,
      w.p.trans preds, w.gain, w.specials ((writeLanes_special _ _ _).trans (writeLanes_special _ _ _)) rfl⟩
    · simp only [readV, vreg, w.v]
      exact read k hk
    · rw [← others k r hr hne]
      simp only [vreg, w.v]
  case amaxr =>
    have hr := released_of_no_sources h i.act rfl rfl rfl rfl
    exact completes_mono (amaxr_completes h ha room) fun g w =>
      ⟨w.vectorWritten d.isLt (by rw [hr]), w.gain, w.specials (writeLanes_special _ _ _) rfl⟩
  case rdtrap =>
    refine vector_completes h d.toNat d.isLt _ ((groupOnly_next h _).trans ?_)
    simp only [trapReport_eq]
  case wrtrap =>
    have rel := releaseSources_special i i.act i.g.regs
    refine completes_mono (wrtrap_completes h ha hin) fun g w => ?_
    have trap := w.trap
    simp only [Prod.mk.injEq, released, rel.trap] at trap
    obtain ⟨cause, pc, addr, done, after⟩ := trap
    exact ⟨pc, w.written, ⟨w.tiles.trans rel.tiles, w.accs.trans rel.accs, w.unjoined.trans rel.unjoined,
      by rw [cause, addr, done, after]⟩, w.masks.trans rel.masks, ⟨w.v, w.s, w.p⟩, w.gain⟩

end Sys2Proof
end

section
/-! SUPPORT. CHUNK_COMMIT of a chunk whose reservations stand no more: the arbiter does not commit it but lets its group
run again (06 R129; log 156). -/

namespace Sys2Proof.Machine

open Sys2Proof

/-- A chunk of a deterministic launch, D cycles past its end: it stores a byte, and in its turn SPAWN found no bin for an
entry (06 R129). -/
def blockedChunk : Chunk := { uid := 9, stores := [(0x40, 7#8)], judged := [.record 4#32 none] }

/-- The device whose commit set is that chunk alone; its bins are free by now. -/
def staleJudgement : State :=
  { State.reset with
    cycle := Config.dCycles
    launches := [(1, { probeLaunch 0 0#32 with mode := 1 })]
    teams := [(2, probeTeam 1)]
    groups := [(3, { probeGroup 2 with inflight := [blockedChunk] })] }

/-- The members of the set as the statement reads them leave the chunk's store in local memory. -/
theorem afterMembers_staleJudgement : (afterMembers staleJudgement 0).lmem = [(0x40, 7#8)] := by decide +kernel

theorem chunkCommit_staleJudgement : exec (.chunkCommit 0) staleJudgement = .next (commitCluster staleJudgement 0) := rfl

/-- The arbiter squashes its group, and local memory stays empty. -/
theorem lmem_commitCluster_staleJudgement : (commitCluster staleJudgement 0).lmem = [] := by decide +kernel

end Sys2Proof.Machine

namespace Sys2Proof

open Sys2Proof.Machine

/-- Refutes O49: its clause on the set of a CHUNK_COMMIT has every member of the arbiter's set commit (`afterMembers`), and
a chunk that has judged what it could reserve, which stands no more, runs again instead (06 R129; log 156). -/
theorem not_computePhaseEvents : ¬ Obligations.ComputePhaseEvents := by
  unfold Obligations.ComputePhaseEvents
  intro h
  obtain ⟨-, -, -, -, -, -, -, commits, -⟩ := h
  obtain ⟨t, ht, lmem, -⟩ := commits staleJudgement 0 rfl
  obtain rfl : commitCluster staleJudgement 0 = t := by injection chunkCommit_staleJudgement.symm.trans ht
  rw [lmem_commitCluster_staleJudgement, afterMembers_staleJudgement] at lmem
  cases lmem

end Sys2Proof
end

section
/-! SUPPORT. Words whose fields do not overlap: each field is read back from the sum of all (03 R56, R60, 04 R80-R83).
A word is the sum of its switch marker, its major opcode, its function fields and its operands. From the list of its
fields, in falling order, the decoder's readers return what the encoder has put in, so that the decoder selects the
instruction again. -/

namespace Sys2Proof

open Sys2Proof.Laws.WordRange

/-! ### Fields -/

/-- A field of a word below its major opcode: one that the template fixes, in the lowest bits or from bit `lo` on, or an
operand with its low bit. The 12-bit immediate of the sequencers stands in two fields (11 R254, 18 R360). -/
inductive Slot where
  | low (n : Nat)
  | fixed (lo n : Nat)
  | bits {n : Nat} (v : BitVec n) (lo : Nat)
  | src (x : Src) (lo : Nat)
  | use (u : Use) (lo : Nat)
  | immHigh (v : BitVec 12)
  | immLow (v : BitVec 12)

namespace Slot

/-- The number of the low bit. -/
def lo : Slot → Nat
  | low _ => 0
  | fixed lo _ => lo
  | bits _ lo => lo
  | src _ lo => lo
  | use _ lo => lo
  | immHigh _ => 12
  | immLow _ => 4

def width : Slot → Nat
  | low n => n
  | fixed _ n => n
  | @bits n _ _ => n
  | src _ _ => 8
  | use _ _ => 2
  | immHigh _ => 8
  | immLow _ => 4

/-- The number in the field: the template's own, or the code of the operand. -/
def code (b : Nat) : Slot → Nat
  | low n => b % 2 ^ n
  | fixed lo n => b / 2 ^ lo % 2 ^ n
  | bits v _ => v.toNat
  | src x _ => srcCode x
  | use u _ => useCode u
  | immHigh v => v.toNat / 16
  | immLow v => v.toNat % 16

/-- What the field gives of the template. -/
def fixedPart (b : Nat) : Slot → Nat
  | low n => b % 2 ^ n
  | fixed lo n => b / 2 ^ lo % 2 ^ n * 2 ^ lo
  | _ => 0

/-- The decoder's reader of the field finds in the word what the field holds. -/
def Reads (b w : Nat) : Slot → Prop
  | low n => w % 2 ^ n = b % 2 ^ n
  | fixed lo n => w / 2 ^ lo % 2 ^ n = b / 2 ^ lo % 2 ^ n
  | @bits n v lo => fieldAt n w lo = v
  | src x lo => srcAt w lo = x
  | use u lo => useOf (w / 2 ^ lo) = u
  | immHigh v => w / 2 ^ 12 % 256 = v.toNat / 16
  | immLow v => w / 2 ^ 4 % 16 = v.toNat % 16

theorem code_lt (b : Nat) (s : Slot) : s.code b < 2 ^ s.width := by
  cases s with
  | low n => exact Nat.mod_lt _ (Nat.two_pow_pos n)
  | fixed lo n => exact Nat.mod_lt _ (Nat.two_pow_pos n)
  | bits v lo => exact v.isLt
  | src x lo => exact srcCode_lt x
  | use u lo => exact useCode_lt u
  | immHigh v => exact Nat.div_lt_of_lt_mul v.isLt
  | immLow v => exact Nat.mod_lt _ (by decide)

end Slot

theorem useOf_of_useCode {z : Nat} {u : Use} (h : z % 4 = useCode u) : useOf z = u := by
  unfold useOf
  rw [h]
  cases u <;> rfl

theorem srcAt_of_srcCode {w lo : Nat} {x : Src} (h : w / 2 ^ lo % 256 = srcCode x) : srcAt w lo = x := by
  have hu := useCode_lt x.use
  have hr := x.reg.isLt
  unfold srcCode at h
  have hreg : BitVec.ofNat 6 (w / (2 ^ lo * 4)) = x.reg := by
    apply BitVec.eq_of_toNat_eq
    rw [← Nat.div_div_eq_div_mul, BitVec.toNat_ofNat]
    omega
  have huse : useOf (w / 2 ^ lo) = x.use := useOf_of_useCode (by omega)
  rw [srcAt, hreg, huse]

theorem flagAt_of_toNat {w lo : Nat} {b : Bool} (h : w / 2 ^ lo % 2 = b.toNat) : flagAt w lo = b := by
  unfold flagAt
  rw [h]
  cases b <;> rfl

theorem fieldAt_of_toNat {n w lo : Nat} {v : BitVec n} (h : w / 2 ^ lo % 2 ^ n = v.toNat) : fieldAt n w lo = v :=
  BitVec.eq_of_toNat_eq ((BitVec.toNat_ofNat ..).trans h)

theorem Slot.reads_of_code {b w : Nat} {s : Slot} (h : w / 2 ^ s.lo % 2 ^ s.width = s.code b) : s.Reads b w := by
  cases s with
  | low n => rwa [lo, Nat.pow_zero, Nat.div_one] at h
  | fixed lo n => exact h
  | bits v lo => exact fieldAt_of_toNat h
  | src x lo => exact srcAt_of_srcCode h
  | use u lo => exact useOf_of_useCode h
  | immHigh v => exact h
  | immLow v => exact h

/-! ### Words -/

/-- The number that the fields make together. -/
def slotSum (b : Nat) : List Slot → Nat
  | [] => 0
  | s :: r => s.code b * 2 ^ s.lo + slotSum b r

/-- The operands among the fields, as the encoder lists them. -/
def operands : List Slot → List (Nat × Nat)
  | [] => []
  | .low _ :: r => operands r
  | .fixed _ _ :: r => operands r
  | s :: r => (s.code 0, s.lo) :: operands r

/-- Each field ends where the one before it begins, or below, the first below bit `top`; and `sum` with the fixed fields
makes the template. -/
def laidOut (b sum top : Nat) : List Slot → Bool
  | [] => sum == b
  | .low n :: r => Nat.ble (0 + n) top && laidOut b (sum + b % 2 ^ n) 0 r
  | .fixed lo n :: r => Nat.ble (lo + n) top && laidOut b (sum + b / 2 ^ lo % 2 ^ n * 2 ^ lo) lo r
  | @Slot.bits n _ lo :: r => Nat.ble (lo + n) top && laidOut b sum lo r
  | .src _ lo :: r => Nat.ble (lo + 8) top && laidOut b sum lo r
  | .use _ lo :: r => Nat.ble (lo + 2) top && laidOut b sum lo r
  | .immHigh _ :: r => Nat.ble 20 top && laidOut b sum 12 r
  | .immLow _ :: r => Nat.ble 8 top && laidOut b sum 4 r

/-- Every field of the list is read back. -/
def AllRead (b w : Nat) : List Slot → Prop
  | [] => True
  | s :: r => s.Reads b w ∧ AllRead b w r

theorem laidOut_cons {b sum top : Nat} {s : Slot} {r : List Slot} : laidOut b sum top (s :: r) = true ↔
    s.lo + s.width ≤ top ∧ laidOut b (sum + s.fixedPart b) s.lo r = true := by
  have unfolded : laidOut b sum top (s :: r) = (Nat.ble (s.lo + s.width) top && laidOut b (sum + s.fixedPart b) s.lo r) := by
    cases s <;> rfl
  rw [unfolded, Bool.and_eq_true, Nat.ble_eq]

theorem fixedPart_add_weight_operands (b : Nat) (s : Slot) (r : List Slot) :
    s.fixedPart b + weight (operands (s :: r)) = s.code b * 2 ^ s.lo + weight (operands r) := by
  cases s <;> simp only [Slot.fixedPart, Slot.code, Slot.lo, operands, weight, Nat.zero_add, Nat.pow_zero, Nat.mul_one]

theorem add_slotSum_of_laidOut {b sum top : Nat} {slots : List Slot} (h : laidOut b sum top slots = true) :
    sum + slotSum b slots = b + weight (operands slots) := by
  induction slots generalizing sum top with
  | nil => exact congrArg (· + 0) (eq_of_beq h)
  | cons s r ih =>
    have tail := ih (laidOut_cons.mp h).2
    have head := fixedPart_add_weight_operands b s r
    rw [slotSum]
    omega

theorem slotSum_lt {b sum top : Nat} {slots : List Slot} (h : laidOut b sum top slots = true) : slotSum b slots < 2 ^ top := by
  induction slots generalizing sum top with
  | nil => exact Nat.two_pow_pos top
  | cons s r ih =>
    obtain ⟨ends, rest⟩ := laidOut_cons.mp h
    calc s.code b * 2 ^ s.lo + slotSum b r
      _ < (s.code b + 1) * 2 ^ s.lo := by rw [Nat.succ_mul]; exact Nat.add_lt_add_left (ih rest) _
      _ ≤ 2 ^ s.width * 2 ^ s.lo := Nat.mul_le_mul_right _ (s.code_lt b)
      _ = 2 ^ (s.lo + s.width) := by rw [Nat.pow_add, Nat.mul_comm]
      _ ≤ 2 ^ top := Nat.pow_le_pow_right (by decide) ends

/-- Whatever stands above bit `top`, each field below it is read back. -/
theorem allRead_of_laidOut {b sum top : Nat} {slots : List Slot} (h : laidOut b sum top slots = true) {high w : Nat}
    (hw : w = high * 2 ^ top + slotSum b slots) : AllRead b w slots := by
  induction slots generalizing sum top high with
  | nil => trivial
  | cons s r ih =>
    obtain ⟨ends, rest⟩ := laidOut_cons.mp h
    obtain ⟨k, rfl⟩ := Nat.exists_eq_add_of_le ends
    have above : w = (high * 2 ^ k * 2 ^ s.width + s.code b) * 2 ^ s.lo + slotSum b r := by
      rw [hw, slotSum]
      ring
    refine ⟨Slot.reads_of_code ?_, ih rest above⟩
    rw [above, Nat.mul_comm, Nat.mul_add_div (Nat.two_pow_pos _), Nat.div_eq_of_lt (slotSum_lt rest), Nat.add_zero,
      Nat.mul_add_mod_self_right, Nat.mod_eq_of_lt (s.code_lt b)]

/-- A word whose fields are laid out below its major opcode decodes to an instruction when the decoder, given that every
field is read back, selects it. -/
theorem decodes_of_slots {i : Instr} {b w : Nat} {sw : Bool} (slots : List Slot)
    (hw : some (pack b sw (operands slots)) = some w)
    (laid : laidOut b (b / 2 ^ 26 % 32 * 2 ^ 26) 26 slots = true := by rfl)
    (selects : ∀ w, w / 2 ^ 26 % 32 = b / 2 ^ 26 % 32 → flagAt w 31 = sw → AllRead b w slots → candidate w = some i := by
      intro w major marker fields
      dsimp only [AllRead, Slot.Reads, Nat.reducePow, Nat.reduceDiv, Nat.reduceMod] at fields
      rw [candidate, major]
      conv_lhs => whnf
      simp only [fields, marker, Nat.reducePow, imm12At, Nat.div_add_mod', BitVec.ofNat_toNat, BitVec.setWidth_eq]) :
    w < 2 ^ 32 ∧ candidate w = some i := by
  have sum := add_slotSum_of_laidOut laid
  have lt := slotSum_lt laid
  have hsw := sw.toNat_lt
  have total : w = (sw.toNat * 32 + b / 2 ^ 26 % 32) * 2 ^ 26 + slotSum b slots := by
    rw [← Option.some.inj hw, pack, foldl_weight]
    omega
  exact ⟨by omega, selects w (by omega) (flagAt_of_toNat (by omega)) (allRead_of_laidOut laid total)⟩

/-! ### Instructions -/

/-- The formats of the opcode tables: the fields of every word of a program, in falling order (04 R83). -/
theorem candidate_of_encode {i : Instr} {w : Nat} (hw : encode i = some w) (program : ¬∃ k, PortCode i k) :
    w < 2 ^ 32 ∧ candidate w = some i := by
  cases i with
  | iadd sw d x y | isub sw d x y | imul sw d x y | imulh sw d x y | umulh sw d x y | imin sw d x y
  | imax sw d x y | umin sw d x y | umax sw d x y | vand sw d x y | vor sw d x y | vxor sw d x y | shl sw d x y
  | shr sw d x y | sra sw d x y | iaddc sw d x y | isubb sw d x y | bfe sw d x y | bfi sw d x y | iadds sw d x y
  | isubs sw d x y | uadds sw d x y | imad sw d x y | sad sw d x y | rotl sw d x y | lea2 sw d x y | fadd sw d x y
  | fsub sw d x y | fmul sw d x y | ffma sw d x y | ffnma sw d x y | fmin sw d x y | fmax sw d x y
  | fcpys sw d x y | fdiv sw d x y | fscale sw d x y | cvf2e4 sw d x y | cvf2e5 sw d x y | cvf2e2 sw d x y
  | cve42f sw d x y | cve52f sw d x y | cve22f sw d x y | pk2h sw d x y | pk4b sw d x y | shfl sw d x y
  | sadd sw d x y | ssub sw d x y | smul sw d x y | smulh sw d x y | sumulh sw d x y | smin sw d x y
  | smax sw d x y | sumin sw d x y | sumax sw d x y | sand sw d x y | sor sw d x y | sxor sw d x y | sshl sw d x y
  | sshr sw d x y | ssra sw d x y | sel sw d x y | aadd sw d x y | amin sw d x y | amax sw d x y | aminn sw d x y
  | amaxn sw d x y | aand sw d x y | aor sw d x y | axor sw d x y | axch sw d x y | acas sw d x y | afadd sw d x y
  | aincw sw d x y | gredRaddi sw d x y | gredRaddf sw d x y | gredRmini sw d x y | gredRmaxi sw d x y
  | gredRminf sw d x y | gredRmaxf sw d x y | gredRand sw d x y | gredRor sw d x y | gredRxor sw d x y
  | gredRaddb2 sw d x y | rng2 sw d x y | bern sw d x y | bernp sw d x y | srbf sw d x y | srf16 sw d x y
  | sre4 sw d x y | sre5 sw d x y | sample sw d x y | topk sw d x y | argmax sw d x y | hload sw d x y =>
    exact decodes_of_slots [.bits d 20, .src x 12, .src y 4, .low 4] hw
  | iaddi sw d x i | isubi sw d x i | imuli sw d x i | imulhi sw d x i | umulhi sw d x i | imini sw d x i
  | imaxi sw d x i | umini sw d x i | umaxi sw d x i | andi sw d x i | ori sw d x i | xori sw d x i
  | shli sw d x i | shri sw d x i | srai sw d x i | saddi sw d x i | ssubi sw d x i | smuli sw d x i
  | smulhi sw d x i | sumulhi sw d x i | smini sw d x i | smaxi sw d x i | sumini sw d x i | sumaxi sw d x i
  | sandi sw d x i | sori sw d x i | sxori sw d x i | sshli sw d x i | sshri sw d x i | ssrai sw d x i =>
    exact decodes_of_slots [.bits d 20, .src x 12, .fixed 8 4, .bits i 0] hw
  | movi sw d i | smovi sw d i =>
    exact decodes_of_slots [.bits d 20, .fixed 8 4, .bits i 0] hw
  | iabs sw d x | ineg sw d x | vnot sw d x | clz sw d x | popc sw d x | brev sw d x | fabs sw d x | fneg sw d x
  | fsqrt sw d x | fclass sw d x | ffrac sw d x | cvf2i sw d x | cvi2f sw d x | cvn2f sw d x | cvf2n sw d x
  | cvf2b sw d x | cvb2f sw d x | cvf2h sw d x | cvh2f sw d x | exp2 sw d x | log2 sw d x | rcp sw d x
  | rsqrt sw d x | sinpi sw d x | cospi sw d x | tanh sw d x | sigm sw d x | rsumi sw d x | rmini sw d x
  | rmaxi sw d x | rsumf sw d x | scani sw d x | scanf sw d x | scanxi sw d x | first sw d x | smov sw d x
  | mov sw d x | vfroms sw d x | sfromv sw d x | vtop sw d x | rng sw d x | unif sw d x | forkc sw d x
  | forkl sw d x =>
    exact decodes_of_slots [.bits d 20, .src x 12, .low 4] hw
  | frint sw d x m | tldt8 sw d x m | tldt16 sw d x m =>
    exact decodes_of_slots [.bits d 20, .src x 12, .bits m 8, .low 4] hw
  | hadd sw d x y f | hsub sw d x y f | hmul sw d x y f | hfma sw d x y f | hmin sw d x y f | hmax sw d x y f
  | hdot2 sw d x y f =>
    exact decodes_of_slots [.bits d 20, .src x 12, .src y 4, .bits f 3, .low 3] hw
  | hneg sw d x f =>
    exact decodes_of_slots [.bits d 20, .src x 12, .bits f 3, .low 3] hw
  | icmpEq sw c p x y | icmpNe sw c p x y | icmpLt sw c p x y | icmpLe sw c p x y | icmpGt sw c p x y
  | icmpGe sw c p x y | icmpLtn sw c p x y | icmpLen sw c p x y | icmpGtn sw c p x y | icmpGen sw c p x y
  | icmpFeq sw c p x y | icmpFne sw c p x y | icmpFlt sw c p x y | icmpFle sw c p x y | icmpFuno sw c p x y
  | icmpFord sw c p x y =>
    exact decodes_of_slots [.bits c 23, .bits p 20, .src x 12, .src y 4, .low 4] hw
  | ballot sw d x | qdig sw d x | phasec sw d x =>
    exact decodes_of_slots [.bits d 21, .bits x 14, .low 4] hw
  | vany sw d x | vall sw d x | popm sw d x | cmpct sw d x | pnot sw d x | ptov sw d x | lswp sw d x | xcpt sw d x
  | launch sw d x | evwait sw d x | evpop sw d x | qfence sw d x | preempt sw d x | rstor sw d x =>
    exact decodes_of_slots [.bits d 20, .bits x 14, .low 4] hw
  | matchx sw d x =>
    exact decodes_of_slots [.bits d 21, .src x 12, .low 4] hw
  | pand sw d x y | por sw d x y | pxor sw d x y | lnld sw d x y | ljld sw d x y | lhld sw d x y | lsld sw d x y
  | lsst sw d x y | lclmp sw d x y | lcnt sw d x y | lgmap sw d x y | lgref sw d x y | xcp sw d x y
  | xget sw d x y | xput sw d x y | xputd sw d x y | xred sw d x y | xgth sw d x y | xsct sw d x y | xbc sw d x y
  | xlat sw d x y | xfab sw d x y | evsig sw d x y | qcfg sw d x y | kill sw d x y | ptout sw d x y
  | ckpt sw d x y =>
    exact decodes_of_slots [.bits d 20, .bits x 14, .bits y 6, .low 4] hw
  | rdid sw d c | adr sw d c =>
    exact decodes_of_slots [.bits d 20, .bits c 4, .low 4] hw
  | rdst sw d n | estat sw d n | rdtrap sw d n =>
    exact decodes_of_slots [.bits d 20, .bits n 12, .low 4] hw
  | wrst sw n y =>
    exact decodes_of_slots [.bits n 12, .src y 4, .low 4] hw
  | clock sw d | rdv sw d | amaxr sw d =>
    exact decodes_of_slots [.bits d 20, .low 4] hw
  | nop sw | ret sw | exit sw | yield sw | tret sw | killt sw =>
    exact decodes_of_slots [.low 4] hw
  | ld8 sw d x o | ld8s sw d x o | ld16 sw d x o | ld16s sw d x o | ld32 sw d x o | ldfe sw d x o | ldft sw d x o
  | ldfc sw d x o | lds32 sw d x o | ldtag sw d x o | st8 sw d x o | st16 sw d x o | st32 sw d x o | stf sw d x o
  | sts32 sw d x o =>
    exact decodes_of_slots [.bits d 20, .src x 12, .bits o 4, .low 4] hw
  | ld64 sw d x o | st64 sw d x o =>
    exact decodes_of_slots [.bits d 21, .src x 12, .bits o 4, .low 4] hw
  | ld128 sw d x o | st128 sw d x o =>
    exact decodes_of_slots [.bits d 22, .src x 12, .bits o 4, .low 4] hw
  | ste sw x o | stcd sw x o =>
    exact decodes_of_slots [.src x 12, .bits o 4, .low 4] hw
  | gredRaddi64 sw n x y uy =>
    exact decodes_of_slots [.bits n 20, .src x 12, .bits y 7, .use uy 4, .low 4] hw
  | br sw o | call sw o | phase sw o =>
    exact decodes_of_slots [.fixed 22 4, .bits o 0] hw
  | brt sw p o | brf sw p o | brany sw p o | brall sw p o =>
    exact decodes_of_slots [.fixed 22 4, .bits p 19, .bits o 0] hw
  | jr sw x | callr sw x | sleep sw x | hdrop sw x | setstrm sw x | sethnd sw x =>
    exact decodes_of_slots [.src x 12, .low 4] hw
  | mjoin sw m | mleave sw m | mwait sw m | mclr sw m =>
    exact decodes_of_slots [.fixed 22 4, .bits m 18] hw
  | mset sw m j | mget sw m j | mtest sw m j | bartc sw m j =>
    exact decodes_of_slots [.fixed 22 4, .bits m 18, .bits j 0] hw
  | bart sw | barg sw | chend sw | fenl sw =>
    exact decodes_of_slots [.fixed 22 4] hw
  | spawn sw x y | setkey sw x y =>
    exact decodes_of_slots [.src x 12, .src y 4, .low 4] hw
  | mma sw a b t r p c k =>
    exact decodes_of_slots [.bits a 22, .bits b 19, .bits t 12, .bits r 11, .bits p 8, .bits c 4, .bits k 0] hw
  | tld sw x i | tscl sw x i =>
    exact decodes_of_slots [.src x 12, .bits i 8, .low 4] hw
  | tst sw x i q | ald sw x i q | ast sw x i q =>
    exact decodes_of_slots [.src x 12, .bits i 8, .bits q 4, .low 4] hw
  | tzero sw i | azero sw i =>
    exact decodes_of_slots [.bits i 8, .low 4] hw
  | ard sw d i q =>
    exact decodes_of_slots [.bits d 23, .bits i 8, .bits q 4, .low 4] hw
  | awr sw x ux i q =>
    exact decodes_of_slots [.bits x 17, .use ux 12, .bits i 8, .bits q 4, .low 4] hw
  | acvb sw d i q =>
    exact decodes_of_slots [.bits d 22, .bits i 8, .bits q 4, .low 4] hw
  | acv8 sw d i q =>
    exact decodes_of_slots [.bits d 21, .bits i 8, .bits q 4, .low 4] hw
  | tmov sw i q =>
    exact decodes_of_slots [.bits i 8, .bits q 4, .low 4] hw
  | erset sw n q y uy =>
    exact decodes_of_slots [.bits n 20, .bits q 12, .bits y 7, .use uy 4, .low 4] hw
  | erget sw d q n =>
    exact decodes_of_slots [.bits d 21, .bits q 12, .bits n 4, .low 4] hw
  | lcfg sw x | lrstc sw x | lkey sw x | xfen sw x =>
    exact decodes_of_slots [.bits x 14, .low 4] hw
  | lhlth sw x y | xsig sw x y | xwte sw x y =>
    exact decodes_of_slots [.bits x 14, .bits y 6, .low 4] hw
  | laluLi sw d imm | xaluLi sw d imm | xaluShl sw d imm =>
    exact decodes_of_slots [.bits d 20, .immHigh imm, .fixed 8 4, .immLow imm, .low 4] hw
  | laluAdd sw d x | xaluAdd sw d x | xaluMul sw d x =>
    exact decodes_of_slots [.bits d 20, .bits x 14, .fixed 8 4, .low 4] hw
  | lbrcLoop sw | lbrcEnd sw | xbrcLoop sw | xbrcEnd sw =>
    exact decodes_of_slots [.fixed 8 4, .low 4] hw
  | lbrcNext sw d | xbrcNext sw d =>
    exact decodes_of_slots [.bits d 20, .fixed 8 4, .low 4] hw
  | lbrcSig sw x =>
    exact decodes_of_slots [.bits x 14, .fixed 8 4, .low 4] hw
  | trap sw c | brk sw c =>
    exact decodes_of_slots [.bits c 4, .low 4] hw
  | rdcnt sw d n =>
    exact decodes_of_slots [.bits d 21, .bits n 12, .low 4] hw
  | wrtrap sw y =>
    exact decodes_of_slots [.src y 4, .low 4] hw
  | idcode => exact absurd ⟨_, .idcode⟩ program
  | segsel n => exact absurd ⟨_, .segsel n⟩ program
  | segread => exact absurd ⟨_, .segread⟩ program
  | bypass => exact absurd ⟨_, .bypass⟩ program
  | _ => nomatch hw

theorem major_of_candidate {i : Instr} {w : Nat} (h : candidate w = some i) : w / 2 ^ 26 % 32 ≠ 0 ∧ w / 2 ^ 26 % 32 ≠ 31 := by
  constructor <;> intro major <;> rw [candidate, major] at h <;> exact nomatch h

/-- The decoder gives a well-formed instruction of a program back from its word. -/
theorem decodeWord_of_encode {i : Instr} {w : Nat} (wf : wellFormed i = true) (hw : encode i = some w)
    (program : ¬∃ k, PortCode i k) : decodeWord w = .ok i := by
  obtain ⟨-, select⟩ := candidate_of_encode hw program
  obtain ⟨notHint, notReserved⟩ := major_of_candidate select
  have nonzero : w ≠ 0 := fun zero => notHint (by rw [zero, Nat.zero_div])
  simp only [decodeWord, beq_iff_eq, nonzero, notHint, notReserved, if_false, select, hw, bne_self_eq_false,
    Bool.false_eq_true, wf, if_true]

/-- What the decoder accepts is well-formed and has the word as its own. -/
theorem encode_of_decodeWord {i : Instr} {w : Nat} (h : decodeWord w = .ok i) : wellFormed i = true ∧ encode i = some w := by
  unfold decodeWord at h
  split_ifs at h
  split at h
  · cases h
  · split_ifs at h with differs wf
    cases h
    exact ⟨wf, by simpa using differs⟩

theorem decodeTableWord_of_decodeWord {i : Instr} {w : Nat} (h : decodeWord w = .ok i) : decodeTableWord 32 w = some i := by
  simp only [decodeTableWord, beq_self_eq_true, if_true, h]

/-! ### Hints -/

theorem routeCode_lt (r : Route) : routeCode r < 4096 := by
  have hl := r.last.toNat_lt
  have hk := r.kind.isLt
  have hp := r.par.isLt
  unfold routeCode
  omega

theorem routeAt_of_routeCode {w lo : Nat} {r : Route} (h : w / 2 ^ lo % 4096 = routeCode r) : routeAt w lo = r := by
  have hl := r.last.toNat_lt
  have hk := r.kind.isLt
  have hp := r.par.isLt
  unfold routeCode at h
  have last : flagAt w (lo + 11) = r.last := flagAt_of_toNat (by rw [Nat.pow_add, ← Nat.div_div_eq_div_mul]; omega)
  have kind : fieldAt 3 w (lo + 8) = r.kind := fieldAt_of_toNat (by rw [Nat.pow_add, ← Nat.div_div_eq_div_mul]; omega)
  have par : fieldAt 8 w lo = r.par := fieldAt_of_toNat (by omega)
  rw [routeAt, last, kind, par]

theorem hintCandidate_encodeHint (h : Hint) : encodeHint h < 2 ^ 26 ∧ hintCandidate (encodeHint h) = h := by
  cases h with
  | imm p =>
    have hp := p.isLt
    have kind : encodeHint (.imm p) / 2 ^ 24 % 4 = 0 := by simp only [encodeHint]; omega
    rw [hintCandidate, kind]
    simp only [encodeHint]
    exact ⟨by omega, congrArg Hint.imm (fieldAt_of_toNat (by omega))⟩
  | route x y =>
    have hx := routeCode_lt x
    have hy := routeCode_lt y
    have kind : encodeHint (.route x y) / 2 ^ 24 % 4 = 1 := by simp only [encodeHint]; omega
    rw [hintCandidate, kind]
    simp only [encodeHint]
    exact ⟨by omega, congrArg₂ Hint.route (routeAt_of_routeCode (by omega)) (routeAt_of_routeCode (by omega))⟩
  | mod r s p a =>
    have hr := r.isLt
    have hs := s.toNat_lt
    have hp := p.isLt
    have ha := a.isLt
    have kind : encodeHint (.mod r s p a) / 2 ^ 24 % 4 = 2 := by simp only [encodeHint]; omega
    rw [hintCandidate, kind]
    simp only [encodeHint]
    refine ⟨by omega, ?_⟩
    rw [fieldAt_of_toNat (v := r) (by omega), flagAt_of_toNat (b := s) (by omega), fieldAt_of_toNat (v := p) (by omega),
      fieldAt_of_toNat (v := a) (by omega)]
  | sched c y p =>
    have hc := c.toNat_lt
    have hy := y.toNat_lt
    have hp := p.isLt
    have kind : encodeHint (.sched c y p) / 2 ^ 24 % 4 = 3 := by simp only [encodeHint]; omega
    rw [hintCandidate, kind]
    simp only [encodeHint]
    refine ⟨by omega, ?_⟩
    rw [flagAt_of_toNat (b := c) (by omega), flagAt_of_toNat (b := y) (by omega), fieldAt_of_toNat (v := p) (by omega)]

/-- Only an IMM hint with payload 0, which is illegal, is the all-zero word (03 R66). -/
theorem encodeHint_ne_zero {h : Hint} (legal : hintLegal h = true) : encodeHint h ≠ 0 := by
  cases h with
  | imm p =>
    intro zero
    have : p = 0#24 := BitVec.eq_of_toNat_eq zero
    simp [hintLegal, this] at legal
  | route x y => simp only [encodeHint]; omega
  | mod r s p a => simp only [encodeHint]; omega
  | sched c y p => simp only [encodeHint]; omega

theorem decodeHint_encodeHint {h : Hint} (legal : hintLegal h = true) : decodeHint (encodeHint h) = .ok h := by
  simp only [decodeHint, beq_iff_eq, encodeHint_ne_zero legal, if_false, (hintCandidate_encodeHint h).2, legal,
    beq_self_eq_true, Bool.and_self, if_true]

theorem encodeHint_of_decodeHint {h : Hint} {w : Nat} (hw : decodeHint w = .ok h) : hintLegal h = true ∧ encodeHint h = w := by
  unfold decodeHint at hw
  split_ifs at hw with zero accepted
  cases hw
  obtain ⟨same, legal⟩ := Bool.and_eq_true_iff.mp accepted
  exact ⟨legal, eq_of_beq same⟩

/-! ### The test access port -/

theorem encode_decodeTap_of_portCode {i : Instr} {k : Nat} (h : PortCode i k) : encode i = some k ∧ decodeTap k = .ok i := by
  cases h with
  | segsel n =>
    have code : (32 + 256 * n) % 256 = 32 := by omega
    have segment : (32 + 256 * n) / 2 ^ 8 = n := by omega
    refine ⟨congrArg some ?_, ?_⟩
    · omega
    · simp only [decodeTap, code, segment]
  | idcode => exact ⟨rfl, rfl⟩
  | segread => exact ⟨rfl, rfl⟩
  | bypass => exact ⟨rfl, rfl⟩

/-! ### The obligations -/

/-- Settles O56: the readers of the decoder find in a word the fields that the encoder has put there, so that it selects
the instruction again; and it accepts only what encodes to the word. -/
theorem decodeOfEncode : Obligations.DecodeOfEncode := by
  refine ⟨fun i w wf hw program => ?_, fun i w => encode_of_decodeWord, fun h legal => ?_, fun h w => encodeHint_of_decodeHint,
    fun i k => encode_decodeTap_of_portCode⟩
  · have decoded := decodeWord_of_encode wf hw program
    exact ⟨(candidate_of_encode hw program).1, decoded, decodeTableWord_of_decodeWord decoded⟩
  · exact ⟨(hintCandidate_encodeHint h).1, decodeHint_encodeHint legal⟩

theorem decodeTableWord_of_encode {i : Instr} {w : Nat} (wf : wellFormed i = true) (hw : encode i = some w)
    (program : ¬∃ k, PortCode i k) : decodeTableWord 32 w = some i :=
  decodeTableWord_of_decodeWord (decodeWord_of_encode wf hw program)

/-- Settles O60: each word is the one of the instruction beside it, from which it is decoded. -/
theorem sampleWordsDecode : Obligations.SampleWordsDecode := by
  unfold Obligations.SampleWordsDecode
  and_intros <;> exact decodeTableWord_of_encode rfl rfl fun ⟨_, port⟩ => nomatch port

end Sys2Proof
end
section
/-! SUPPORT. One step of the device: the move that the agenda lists next, the word that it fetches with the hints of its
run, and its turn among the happenings of a cycle (03 R65, 04 R81, R85, R88-R90, 24 R444). -/

namespace Sys2Proof.Machine

open Sys2Proof

/-! ### Turns -/

theorem turnPlace_issue (gid set : Nat) (i : Instr) : turnPlace (.issue gid set) i = none := rfl

theorem turnPlace_ctlIllegal (m : Move) : turnPlace m .ctlIllegal = none := by cases m <;> rfl

theorem turnPlace_engineIllegal (m : Move) : turnPlace m .engineIllegal = none := by cases m <;> rfl

theorem inTurn_of_no_place {s : State} {m : Move} {i : Instr} (h : turnPlace m i = none) : inTurn s m i = true := by
  simp only [inTurn, h]

theorem noteTurn_of_no_place {s : State} {m : Move} {i : Instr} (h : turnPlace m i = none) : noteTurn s m i = s := by
  simp only [noteTurn, h]

theorem inTurn_eq (s : State) (m : Move) (i : Instr) : inTurn s m i = match turnPlace m i with
    | some (k, p) => decide (tgetD s.turn k 0 ≤ p)
    | none => true := rfl

theorem noteTurn_of_place {s : State} {m : Move} {i : Instr} {k p : Nat} (h : turnPlace m i = some (k, p)) :
    noteTurn s m i = { s with turn := tput s.turn k p } := by
  simp only [noteTurn, h]

/-! ### The next move -/

section
variable {s : State} {d : Nat} {m : Move} {rest : List (Nat × Move)} {is : Issue} {i : Instr}

theorem nextMove_of_agenda (listed : s.agenda = (d, m) :: rest) : nextMove s = ((d, m), { s with agenda := rest }) := by
  simp only [nextMove, listed]

theorem step_of_agenda (listed : s.agenda = (d, m) :: rest) : step s = match fetchMove (atMove s d rest) m with
    | none => .next (atMove s d rest)
    | some (is, i) => exec i (noteTurn { atMove s d rest with issue := is } m i) := by
  unfold step
  rw [nextMove_of_agenda listed]
  rfl

/-- The step of a move in its turn is the meaning of what it names. -/
theorem step_of_namedMove (listed : s.agenda = (d, m) :: rest) (named : namedMove (atMove s d rest) m = some (is, i))
    (turn : inTurn (atMove s d rest) m i = true) :
    step s = exec i (noteTurn { atMove s d rest with issue := is } m i) := by
  have fetched : fetchMove (atMove s d rest) m = some (is, i) := by
    rw [fetchMove, named, Option.filter_some, if_pos turn]
  rw [step_of_agenda listed, fetched]

/-- Of what has no place in a cycle's order, the state notes nothing. -/
theorem step_of_namedMove_no_place (listed : s.agenda = (d, m) :: rest)
    (named : namedMove (atMove s d rest) m = some (is, i)) (place : turnPlace m i = none) :
    step s = exec i { atMove s d rest with issue := is } := by
  rw [step_of_namedMove listed named (inTurn_of_no_place place), noteTurn_of_no_place place]

/-- A late happening changes nothing in this cycle. -/
theorem step_of_namedMove_late (listed : s.agenda = (d, m) :: rest) (named : namedMove (atMove s d rest) m = some (is, i))
    (late : inTurn (atMove s d rest) m i = false) : step s = .next (atMove s d rest) := by
  have fetched : fetchMove (atMove s d rest) m = none := by
    rw [fetchMove, named, Option.filter_some, if_neg (by simp only [late, Bool.false_eq_true, not_false_iff])]
  rw [step_of_agenda listed, fetched]

/-- With no move listed, the step is that of the free one (log 3). -/
theorem step_of_empty_agenda (empty : s.agenda = []) :
    step s = step { s with agenda := [Config.freeMove s.freeCount], freeCount := s.freeCount + 1 } := by
  have free : nextMove s = nextMove { s with agenda := [Config.freeMove s.freeCount], freeCount := s.freeCount + 1 } := by
    simp only [nextMove, empty]
  rw [step, step, free]

end

/-! ### Runs of words (03 R65) -/

theorem readRun_of_ok {a : Actor} {ws : List Nat} {pc : Word} {bad i : Instr} (h : (decodeRun 4 ws {} 0).instr = .ok i) :
    readRun a ws pc bad = (issueOf a pc ws (decodeRun 4 ws {} 0), i) := by
  simp only [readRun, h, issueOf]

theorem readRun_of_error {a : Actor} {ws : List Nat} {pc : Word} {bad : Instr} {e : Reject}
    (h : (decodeRun 4 ws {} 0).instr = .error e) :
    ∃ is, is.actor = a ∧ is.runPc = pc ∧ readRun a ws pc bad = (is, bad) := by
  simp only [readRun, h]
  split <;> exact ⟨_, rfl, rfl, rfl⟩

/-- A run of one word is that word. -/
theorem decodeRun_of_word {n w k : Nat} {ws : List Nat} {hs : Hints} (target : w / 2 ^ 26 % 32 ≠ 0) :
    decodeRun n (w :: ws) hs k = { hints := hs, offset := k, word := w, instr := decodeWord w } := by
  rw [decodeRun.eq_def]
  simp only [beq_iff_eq, target, if_false]

/-- A legal hint, which has major 0, joins the hints of the words after it. -/
theorem decodeRun_of_hint {n k : Nat} {h : Hint} {ws : List Nat} {hs hs' : Hints} (legal : hintLegal h = true)
    (joins : addHint hs h = some hs') : decodeRun (n + 1) (encodeHint h :: ws) hs k = decodeRun n ws hs' (k + 1) := by
  have lt := (hintCandidate_encodeHint h).1
  have major : encodeHint h / 2 ^ 26 % 32 = 0 := by omega
  rw [decodeRun.eq_def]
  simp only [major, beq_self_eq_true, if_true, decodeHint_encodeHint legal, joins]

/-! ### What the executors fetch -/

theorem fetchGroup_of_admitted {s : State} {gid set : Nat} {g : Group} {t : Team} {l : Launch} (runs : deviceRuns s = true)
    (found : groupTriple s gid = some (g, t, l)) (alive : t.killed = false) (admitted : setAdmitted s l g gid set = true)
    (inText : (laneAt g.regs (leastD (setLanes g.regs set) 0)).pc.toNat ≠ 4 * l.text.length) :
    fetchGroup s gid set =
      some (readRun (.group gid set) (sectionRun l.text (laneAt g.regs (leastD (setLanes g.regs set) 0)).pc.toNat)
        (laneAt g.regs (leastD (setLanes g.regs set) 0)).pc .illegalInstruction) := by
  simp only [fetchGroup, found, runs, alive, admitted, inText, Bool.not_true, Bool.or_self, Bool.false_eq_true, if_false]

theorem fetchControl_of_running {s : State} {c : Nat} (runs : deviceRuns s = true) (running : (ctlAt s c).running = true)
    (owned : (partOf s c).isSome = true) :
    fetchControl s c = some (readRun (.control c) (controlRun s c (ctlAt s c)) (ctlAt s c).pc .ctlIllegal) := by
  unfold ctlAt at running
  simp only [fetchControl, runs, running, Option.isNone_eq_false_iff.mpr owned, Bool.not_true, Bool.or_self,
    Bool.false_eq_true, if_false, ctlAt]

/-- The issue of a sequencer at its word: hints have no place in its sections (04 R87). -/
def sequencerIssue (core unit pc : Nat) (w : Word) : Issue :=
  { actor := .sequencer core unit, runPc := BitVec.ofNat 32 pc, pc := BitVec.ofNat 32 pc, word := w, first := w }

/-- A sequencer that waits for nothing fetches the word at its pc. -/
theorem fetchSequencer_of_ready {s : State} {core unit : Nat} {q : Seq} {w : Word} (runs : deviceRuns s = true)
    (found : seqAt s core unit = some q) (op : q.p.op = none) (sweeps : q.p.sweeps = 0) (health : q.p.health = none)
    (fabWait : q.p.fabWait = false) (swept : q.p.sweptAt = none)
    (word : (match q.p.kind with | .copy => q.l.copy | .exchange => q.l.exch | .lattice => q.l.latt)[q.p.pc / 4]? = some w) :
    (∀ i, decodeWord w.toNat = .ok i → fetchSequencer s core unit = some (sequencerIssue core unit q.p.pc w, i)) ∧
    (∀ e, decodeWord w.toNat = .error e →
      fetchSequencer s core unit = some (sequencerIssue core unit q.p.pc w, .engineIllegal)) := by
  constructor <;> intro _ decoded <;>
    simp only [fetchSequencer, found, runs, op, sweeps, health, fabWait, swept, Bool.not_true, Option.isSome_none,
      bne_self_eq_false, Bool.or_self, Bool.false_eq_true, if_false] <;>
    cases kind : q.p.kind <;> simp only [kind] at word <;> simp only [word, decoded, sequencerIssue]

/-- An event, unless it is one of an illegal word, and an instruction of the test access port happen as listed. -/
theorem namedMove_event {s : State} {i : Instr} (event : encode i = none ∨ ∃ k, PortCode i k)
    (noIllegal : i ≠ .illegalInstruction) (noCtl : i ≠ .ctlIllegal) (noEngine : i ≠ .engineIllegal) :
    namedMove s (.event i) = some ({}, i) := by
  rcases event with noWord | ⟨k, port⟩
  · simp only [namedMove]
    split
    · exact absurd rfl noIllegal
    · exact absurd rfl noCtl
    · exact absurd rfl noEngine
    · rfl
    · rfl
    · rfl
    · rfl
    · simp only [noWord, Option.isSome_none, Bool.false_eq_true, if_false]
  · cases port <;> rfl

end Sys2Proof.Machine

namespace Sys2Proof

open Sys2Proof.Machine

/-- Settles O59: the step of the next move is the meaning of what the move fetches, and each executor fetches the
instruction of its run. -/
theorem stepRunsDecodedInstruction : Obligations.StepRunsDecodedInstruction := by
  refine ⟨?group, ?control, ?sequencer, ?event, inTurn_eq, ?note, fun s => step_of_empty_agenda,
    fun n w ws hs k => decodeRun_of_word, fun n h ws hs hs' k => decodeRun_of_hint⟩
  case group =>
    intro s d gid set rest g t l listed u runs found alive admitted pc ws inText
    have fetched : namedMove u (.issue gid set) = some (readRun (.group gid set) ws pc .illegalInstruction) :=
      fetchGroup_of_admitted runs found alive admitted inText
    refine ⟨fun i decoded => ?_, fun e illegal => ?_⟩
    · exact step_of_namedMove_no_place listed (fetched.trans (congrArg some (readRun_of_ok decoded))) (turnPlace_issue ..)
    · obtain ⟨is, actor, runPc, read⟩ := readRun_of_error illegal
      exact ⟨is, actor, runPc, step_of_namedMove_no_place listed (fetched.trans (congrArg some read)) (turnPlace_issue ..)⟩
  case control =>
    intro s d c rest listed u runs running owned pc ws
    have fetched : namedMove u (.control c) = some (readRun (.control c) ws pc .ctlIllegal) :=
      fetchControl_of_running runs running owned
    refine ⟨fun i decoded => ?_, fun e illegal => ?_⟩
    · have named := fetched.trans (congrArg some (readRun_of_ok decoded))
      exact ⟨step_of_namedMove listed named, step_of_namedMove_late listed named⟩
    · obtain ⟨is, actor, runPc, read⟩ := readRun_of_error illegal
      exact ⟨is, actor, runPc, step_of_namedMove_no_place listed (fetched.trans (congrArg some read)) (turnPlace_ctlIllegal _)⟩
  case sequencer =>
    intro s d core unit rest q w listed u runs found op sweeps health fabWait swept word is
    obtain ⟨fetched, fetchedIllegal⟩ := fetchSequencer_of_ready runs found op sweeps health fabWait swept word
    refine ⟨fun i decoded => ?_, fun e illegal => ?_⟩
    · exact ⟨step_of_namedMove listed (fetched i decoded), step_of_namedMove_late listed (fetched i decoded)⟩
    · exact step_of_namedMove_no_place listed (fetchedIllegal e illegal) (turnPlace_engineIllegal _)
  case event =>
    intro s d i rest listed event noIllegal noCtl noEngine
    have named := namedMove_event (s := atMove s d rest) event noIllegal noCtl noEngine
    exact ⟨step_of_namedMove listed named, step_of_namedMove_late listed named⟩
  case note =>
    intro s m i k p place
    rw [noteTurn_of_place place]
    exact ⟨by rw [tgetD, tget_tput_self]; rfl, rfl⟩

end Sys2Proof
end

section
/-! SUPPORT. What the integer, compare and move words compute: the functions by which their meanings are given are those of
the tables of the spec (03 R66, 05 R92-R103), and each word of a table has the meaning of its row, for groups and for
control cores alike. -/

namespace Sys2Proof.Machine

open Sys2Proof

/-! ### Integers (05 R92-R97) -/

theorem sub_eq_ofInt (a b : Word) : a - b = BitVec.ofInt 32 ((a.toNat : Int) - b.toNat) := by
  apply BitVec.eq_of_toInt_eq
  rw [BitVec.toInt_sub, BitVec.toInt_ofInt, BitVec.toInt_eq_toNat_bmod, BitVec.toInt_eq_toNat_bmod]
  simp

theorem pickWord_decide (p : Prop) [Decidable p] (a b : Word) : pickWord (decide p) a b = if p then a else b := by
  simp only [pickWord, decide_eq_true_eq]

theorem iminW_eq (a b : Word) : iminW a b = BitVec.ofInt 32 (min a.toInt b.toInt) := by
  rw [min_def, apply_ite (BitVec.ofInt 32), BitVec.ofInt_toInt, BitVec.ofInt_toInt]
  exact pickWord_decide _ a b

theorem imaxW_eq (a b : Word) : imaxW a b = BitVec.ofInt 32 (max a.toInt b.toInt) := by
  rw [max_comm, max_def, apply_ite (BitVec.ofInt 32), BitVec.ofInt_toInt, BitVec.ofInt_toInt]
  exact pickWord_decide _ a b

theorem uminW_eq (a b : Word) : uminW a b = BitVec.ofNat 32 (min a.toNat b.toNat) := by
  rw [min_def, apply_ite (BitVec.ofNat 32), BitVec.ofNat_toNat, BitVec.ofNat_toNat, BitVec.setWidth_eq, BitVec.setWidth_eq]
  exact pickWord_decide _ a b

theorem umaxW_eq (a b : Word) : umaxW a b = BitVec.ofNat 32 (max a.toNat b.toNat) := by
  rw [max_comm, max_def, apply_ite (BitVec.ofNat 32), BitVec.ofNat_toNat, BitVec.ofNat_toNat, BitVec.setWidth_eq,
    BitVec.setWidth_eq]
  exact pickWord_decide _ a b

theorem shlW_eq (a b : Word) : shlW a b = if b.toNat < 32 then BitVec.ofNat 32 (a.toNat * 2 ^ b.toNat) else 0#32 := by
  rw [shlW, ← Nat.shiftLeft_eq]
  rfl

theorem shrW_eq (a b : Word) : shrW a b = if b.toNat < 32 then BitVec.ofNat 32 (a.toNat / 2 ^ b.toNat) else 0#32 := by
  have shift : a >>> b.toNat = BitVec.ofNat 32 (a.toNat / 2 ^ b.toNat) := by
    rw [← Nat.shiftRight_eq_div_pow, ← BitVec.toNat_ushiftRight, BitVec.ofNat_toNat, BitVec.setWidth_eq]
  rw [shrW, shift]

theorem sraW_eq (a b : Word) : sraW a b = if b.toNat < 32 then BitVec.ofInt 32 (a.toInt / 2 ^ b.toNat)
    else if a.toInt < 0 then 0xFFFFFFFF#32 else 0#32 := by
  have shift : a.sshiftRight b.toNat = BitVec.ofInt 32 (a.toInt / 2 ^ b.toNat) := by
    rw [BitVec.sshiftRight, Int.shiftRight_eq_div_pow, Int.natCast_pow, Int.cast_ofNat_Int]
  simp only [sraW, shift, BitVec.msb_eq_toInt, decide_eq_true_eq]

/-- The integer operation of fn 0 to 14 as the meanings of the words name it. -/
def integerOp (fn : Nat) : Word → Word → Word :=
  match fn with
  | 0 => (· + ·)
  | 1 => (· - ·)
  | 2 => (· * ·)
  | 3 => mulHigh
  | 4 => umulHigh
  | 5 => iminW
  | 6 => imaxW
  | 7 => uminW
  | 8 => umaxW
  | 9 => (· &&& ·)
  | 10 => (· ||| ·)
  | 11 => (· ^^^ ·)
  | 12 => shlW
  | 13 => shrW
  | _ => sraW

theorem integerOp_eq (fn : Nat) : integerOp fn = integerResult fn :=
  match fn with
  | 0 => rfl
  | 1 => funext₂ sub_eq_ofInt
  | 2 => rfl
  | 3 => rfl
  | 4 => rfl
  | 5 => funext₂ iminW_eq
  | 6 => funext₂ imaxW_eq
  | 7 => funext₂ uminW_eq
  | 8 => funext₂ umaxW_eq
  | 9 => rfl
  | 10 => rfl
  | 11 => rfl
  | 12 => funext₂ shlW_eq
  | 13 => funext₂ shrW_eq
  | _ + 14 => funext₂ sraW_eq

theorem absW_eq (sat : Bool) (a : Word) : absW sat a =
    if a.toInt = -(2 ^ 31) then (if sat then 0x7FFFFFFF#32 else 0x80000000#32) else BitVec.ofInt 32 a.toInt.natAbs := by
  have low := BitVec.le_toInt a
  have high := BitVec.toInt_lt (x := a)
  unfold absW clampSigned sval wrap32
  by_cases least : a.toInt = -(2 ^ 31)
  · rw [if_pos least, least]
    cases sat <;> rfl
  · have clamped : max (-(2 ^ 31)) (min (2 ^ 31 - 1) (a.toInt.natAbs : Int)) = a.toInt.natAbs := by omega
    rw [if_neg least, clamped, ite_self]

theorem negW_eq (sat : Bool) (a : Word) : negW sat a =
    if a.toInt = -(2 ^ 31) then (if sat then 0x7FFFFFFF#32 else 0x80000000#32) else BitVec.ofInt 32 (-a.toInt) := by
  have low := BitVec.le_toInt a
  have high := BitVec.toInt_lt (x := a)
  unfold negW clampSigned sval wrap32
  by_cases least : a.toInt = -(2 ^ 31)
  · rw [if_pos least, least]
    cases sat <;> rfl
  · have clamped : max (-(2 ^ 31)) (min (2 ^ 31 - 1) (-a.toInt)) = -a.toInt := by omega
    rw [if_neg least, clamped, ite_self]

theorem not_eq_xor (a : Word) : ~~~a = a ^^^ 0xFFFFFFFF#32 := (BitVec.xor_allOnes (x := a)).symm

/-- In a range, the numbers before the first that fails a test. -/
theorem length_takeWhile_range {p : Nat → Bool} {n k : Nat} (before : ∀ i < k, p i = true) (le : k ≤ n)
    (first : k < n → p k = false) : ((List.range n).takeWhile p).length = k := by
  obtain ⟨m, rfl⟩ := Nat.exists_eq_add_of_le le
  rw [List.range_add, List.takeWhile_append_of_pos (by simpa using before)]
  cases m with
  | zero => simp
  | succ m => simp [List.range_succ_eq_map, first (by omega)]

theorem clzW_eq (a : Word) :
    clzW a = BitVec.ofNat 32 ((List.range 32).takeWhile (fun i => !a.getLsbD (31 - i))).length := by
  unfold clzW
  congr 1
  symm
  by_cases zero : a = 0#32
  · subst zero
    decide
  · have nonzero : a.toNat ≠ 0 := fun h => zero (BitVec.eq_of_toNat_eq h)
    have top : Nat.log2 a.toNat < 32 := (Nat.log2_lt nonzero).mpr a.isLt
    rw [if_neg zero]
    refine length_takeWhile_range (fun i below => ?_) (by omega) (fun _ => ?_)
    · have above : a.toNat < 2 ^ (31 - i) := (Nat.log2_lt nonzero).mp (by omega)
      simp [← BitVec.testBit_toNat, Nat.testBit_lt_two_pow above]
    · have place : 31 - (31 - Nat.log2 a.toNat) = Nat.log2 a.toNat := by omega
      simp [place, ← BitVec.testBit_toNat, Nat.testBit_log2 nonzero]

theorem popcW_eq (a : Word) : popcW a = BitVec.ofNat 32 ((List.range 32).countP (fun i => a.getLsbD i)) := by
  rw [popcW, upto, List.countP_eq_length_filter]

theorem getLsbD_one_shiftLeft {j : Nat} (i : Nat) (hj : j < 32) : (1#32 <<< i).getLsbD j = decide (i = j) := by
  rw [← BitVec.twoPow_eq, BitVec.getLsbD_twoPow]
  by_cases same : i = j
  · simp [same, hj]
  · simp [same]

/-- The bits that the first n steps of BREV set. -/
theorem getLsbD_foldl_reversed (a : Word) {n j : Nat} (hn : n ≤ 32) (hj : j < 32) :
    ((List.range n).foldl (fun r k => if a.getLsbD k then r ||| (1#32 <<< (31 - k)) else r) 0#32).getLsbD j =
      (decide (31 - j < n) && a.getLsbD (31 - j)) := by
  induction n with
  | zero => simp
  | succ n ih =>
    have step (r : Word) : (if a.getLsbD n then r ||| (1#32 <<< (31 - n)) else r).getLsbD j =
        (r.getLsbD j || (a.getLsbD n && decide (31 - n = j))) := by
      rw [apply_ite (BitVec.getLsbD · j), BitVec.getLsbD_or, getLsbD_one_shiftLeft _ hj]
      cases a.getLsbD n
      · rw [Bool.false_and, Bool.or_false]; rfl
      · rw [Bool.true_and]; rfl
    rw [List.range_succ, List.foldl_append, List.foldl_cons, List.foldl_nil, step, ih (by omega)]
    by_cases last : 31 - n = j
    · subst last
      have place : 31 - (31 - n) = n := by omega
      simp [place]
    · have same : (31 - j < n + 1) ↔ 31 - j < n := by omega
      simp only [last, decide_false, Bool.and_false, Bool.or_false, same]

theorem brevW_eq (a : Word) : brevW a = a.reverse := by
  apply BitVec.eq_of_getLsbD_eq
  intro j hj
  have inside : 31 - j < 32 := by omega
  rw [brevW, upto, getLsbD_foldl_reversed a (le_refl 32) hj, BitVec.getLsbD_reverse, BitVec.getMsbD, decide_eq_true inside,
    decide_eq_true hj]

/-! ### Bit fields (05 R97) -/

/-- A field read bit by bit is a remainder of a quotient. -/
theorem foldl_field_eq (a : Word) (pos len : Nat) :
    (List.range len).foldl (fun n i => n + (if pos + i ≤ 31 && a.getLsbD (pos + i) then 2 ^ i else 0)) 0 =
      a.toNat / 2 ^ pos % 2 ^ len := by
  induction len with
  | zero => rw [pow_zero, Nat.mod_one]; rfl
  | succ len ih =>
    have bit : (a.toNat / 2 ^ pos).testBit len = a.getLsbD (pos + len) := by
      rw [Nat.testBit_div_two_pow, BitVec.testBit_toNat, Nat.add_comm]
    have inside : (decide (pos + len ≤ 31) && a.getLsbD (pos + len)) = a.getLsbD (pos + len) := by
      by_cases h : pos + len ≤ 31
      · rw [decide_eq_true h, Bool.true_and]
      · rw [BitVec.getLsbD_of_ge a (pos + len) (by omega), Bool.and_false]
    rw [List.range_succ, List.foldl_append, ih, List.foldl_cons, List.foldl_nil, inside, Nat.mod_pow_succ,
      ← Nat.toNat_testBit, bit]
    cases a.getLsbD (pos + len) <;> simp

theorem bfeW_eq (a b : Word) :
    bfeW a b = extractField a (b.toNat % 256) (min (b.toNat / 256 % 256) 32) (b.getLsbD 16) := by
  simp only [bfeW, extractField, foldl_field_eq, Nat.testBit_eq_decide_div_mod_eq]
  rfl

theorem getLsbD_withBit {j : Nat} (r : Word) (i : Nat) (b : Bool) (hj : j < 32) :
    (withBit r i b).getLsbD j = if i = j then b else r.getLsbD j := by
  cases b
  · rw [withBit, if_neg Bool.false_ne_true, BitVec.getLsbD_and, BitVec.getLsbD_not, getLsbD_one_shiftLeft i hj]
    by_cases same : i = j <;> simp [same, hj]
  · rw [withBit, if_pos rfl, BitVec.getLsbD_or, getLsbD_one_shiftLeft i hj]
    by_cases same : i = j <;> simp [same]

/-- An inserted field holds the low bits of a, and the other bits stand. -/
theorem getLsbD_insertField {j : Nat} (a dv : Word) (pos len : Nat) (hj : j < 32) :
    (insertField a dv pos len).getLsbD j = if pos ≤ j ∧ j < pos + len then a.getLsbD (j - pos) else dv.getLsbD j := by
  unfold insertField
  induction len with
  | zero => rw [List.range_zero, List.foldl_nil, if_neg (by omega)]
  | succ len ih =>
    rw [List.range_succ, List.foldl_append, List.foldl_cons, List.foldl_nil]
    by_cases last : pos + len = j
    · rw [if_pos (by omega), getLsbD_withBit _ _ _ hj, if_pos last, if_pos (by omega), ← last, Nat.add_sub_cancel_left]
    · have same : (pos ≤ j ∧ j < pos + (len + 1)) ↔ (pos ≤ j ∧ j < pos + len) := by omega
      simp only [apply_ite (BitVec.getLsbD · j), getLsbD_withBit _ _ _ hj, last, if_false, ite_self, same, ih]

/-- The mask of a field. -/
theorem getLsbD_fieldMask {j : Nat} (pos len : Nat) (hj : j < 32) :
    (BitVec.ofNat 32 ((2 ^ len - 1) * 2 ^ pos)).getLsbD j = decide (pos ≤ j ∧ j < pos + len) := by
  rw [BitVec.getLsbD_ofNat, Nat.testBit_mul_two_pow, Nat.testBit_two_pow_sub_one, decide_eq_true hj, Bool.true_and,
    ← Bool.decide_and]
  exact decide_eq_decide.mpr (by omega)

theorem bfiW_eq (a b dv : Word) :
    bfiW a b dv = insertField a dv (b.toNat % 256) (min (b.toNat / 256 % 256) 32) := by
  apply BitVec.eq_of_getLsbD_eq
  intro j hj
  unfold bfiW fieldOf
  generalize b.toNat % 256 = pos
  generalize min (b.toNat / 256 % 256) 32 = len
  rw [getLsbD_insertField a dv pos len hj, BitVec.getLsbD_or, BitVec.getLsbD_and, BitVec.getLsbD_and,
    BitVec.getLsbD_not, getLsbD_fieldMask pos len hj, BitVec.getLsbD_ofNat, Nat.testBit_mul_two_pow, BitVec.testBit_toNat]
  by_cases inside : pos ≤ j ∧ j < pos + len <;> simp [inside, hj]

theorem rotlW_eq (a b : Word) : rotlW a b = if b.toNat % 32 = 0 then a
    else BitVec.ofNat 32 (a.toNat * 2 ^ (b.toNat % 32) + a.toNat / 2 ^ (32 - b.toNat % 32)) := by
  have count : b.toNat % 32 < 32 := Nat.mod_lt _ (by decide)
  unfold rotlW
  generalize b.toNat % 32 = r at count
  by_cases zero : r = 0
  · subst zero
    rw [if_pos rfl]
    simp [BitVec.rotateLeft_def, BitVec.ushiftRight_eq_zero]
  · rw [if_neg zero]
    have width : 2 ^ (32 - r) * 2 ^ r = 2 ^ 32 := by rw [← pow_add, Nat.sub_add_cancel count.le]
    have low : a.toNat / 2 ^ (32 - r) < 2 ^ r := Nat.div_lt_of_lt_mul (width ▸ a.isLt)
    have high : a.toNat * 2 ^ r % 2 ^ 32 = (a.toNat % 2 ^ (32 - r)) <<< r := by
      rw [Nat.shiftLeft_eq, ← width, Nat.mul_mod_mul_right]
    have sum : a.toNat * 2 ^ r % 2 ^ 32 + a.toNat / 2 ^ (32 - r) < 2 ^ 32 := by
      have below : a.toNat % 2 ^ (32 - r) + 1 ≤ 2 ^ (32 - r) := Nat.mod_lt _ (Nat.two_pow_pos _)
      have := Nat.mul_le_mul_right (2 ^ r) below
      rw [high, Nat.shiftLeft_eq]
      rw [width, Nat.add_mul] at this
      omega
    apply BitVec.eq_of_toNat_eq
    rw [BitVec.toNat_rotateLeft, Nat.mod_eq_of_lt count, BitVec.toNat_ofNat, Nat.shiftLeft_eq, Nat.shiftRight_eq_div_pow,
      high, ← Nat.shiftLeft_add_eq_or_of_lt low, ← high, ← Nat.mod_add_mod, Nat.mod_eq_of_lt sum]

theorem lea2_eq (a b : Word) : a + b * 4#32 = BitVec.ofNat 32 (a.toNat + b.toNat * 4) := by
  apply BitVec.eq_of_toNat_eq
  simp

theorem imad_eq (a b dv : Word) : a * b + dv = BitVec.ofNat 32 (a.toNat * b.toNat + dv.toNat) := by
  apply BitVec.eq_of_toNat_eq
  simp

theorem subBorrow_eq (a b : Word) (c : Bool) : subBorrow a b c =
    (BitVec.ofInt 32 ((a.toNat : Int) - b.toNat - c.toNat), decide (a.toNat < b.toNat + c.toNat)) :=
  Prod.ext rfl (decide_eq_decide.mpr (by omega))

/-! ### FP32 operands on a line (05 R101, 14 R269) -/

/-- The magnitude bits of an FP32 code. -/
def magnitude (a : Word) : Nat := a.toNat % 2 ^ 31

/-- A number with a sign. -/
def signed (neg : Bool) (n : Nat) : Int := if neg then -(n : Int) else n

/-- The value of a finite magnitude in units of 2^-149, the least denormal. -/
def fpUnits (c : Nat) : Nat := if c / 2 ^ 23 = 0 then c % 2 ^ 23 else (2 ^ 23 + c % 2 ^ 23) * 2 ^ (c / 2 ^ 23 - 1)

theorem fpUnits_strictMono : StrictMono fpUnits := by
  refine strictMono_nat_of_lt_succ (fun c => ?_)
  unfold fpUnits
  by_cases carry : c % 2 ^ 23 = 2 ^ 23 - 1
  · have next : (c + 1) / 2 ^ 23 = c / 2 ^ 23 + 1 ∧ (c + 1) % 2 ^ 23 = 0 := by omega
    rw [next.1, next.2, carry, if_neg (Nat.succ_ne_zero _), Nat.add_sub_cancel]
    cases c / 2 ^ 23 with
    | zero => decide
    | succ e =>
      rw [if_neg (Nat.succ_ne_zero _), Nat.add_sub_cancel, pow_succ]
      have := Nat.two_pow_pos e
      omega
  · have next : (c + 1) / 2 ^ 23 = c / 2 ^ 23 ∧ (c + 1) % 2 ^ 23 = c % 2 ^ 23 + 1 := by omega
    rw [next.1, next.2]
    split
    · exact Nat.lt_succ_self _
    · exact Nat.mul_lt_mul_of_pos_right (by omega) (Nat.two_pow_pos _)

theorem lineOf_eq (a : Word) : lineOf a = signed a.msb (magnitude a) := by
  unfold lineOf signed magnitude
  cases sign : a.msb
  · have := BitVec.msb_eq_false_iff_two_mul_lt.mp sign
    rw [if_neg Bool.false_ne_true, if_neg Bool.false_ne_true, Nat.mod_eq_of_lt (by omega)]
  · rfl

/-- A strictly rising function of magnitudes that keeps 0 keeps the order of signed magnitudes. -/
theorem signed_lt_iff {u : Nat → Nat} (mono : StrictMono u) (zero : u 0 = 0) (n n' : Bool) (x y : Nat) :
    signed n (u x) < signed n' (u y) ↔ signed n x < signed n' y := by
  have up := mono.lt_iff_lt (a := x) (b := y)
  have down := mono.lt_iff_lt (a := y) (b := x)
  have left := mono.lt_iff_lt (a := 0) (b := x)
  have right := mono.lt_iff_lt (a := 0) (b := y)
  rw [zero] at left right
  cases n <;> cases n' <;> simp only [signed, if_true, if_false, Bool.false_eq_true] <;> omega

theorem signed_mul (n : Bool) (x y : Nat) : signed n (x * y) = signed n x * y := by
  cases n <;> simp [signed]

/-- Two finite values compare as their signed values in units of 2^-149. -/
theorem fpLt_fin {m m' : Nat} {e e' : Int} (n n' : Bool) (he : -149 ≤ e) (he' : -149 ≤ e') :
    fpLt (.fin n m e) (.fin n' m' e') =
      decide (signed n (m * 2 ^ (e + 149).toNat) < signed n' (m' * 2 ^ (e' + 149).toNat)) := by
  have common {k : Int} (hk : min e e' ≤ k) : (k + 149).toNat = (k - min e e').toNat + (min e e' + 149).toNat := by omega
  have unit : (0 : Int) < (2 ^ (min e e' + 149).toNat : Nat) := Int.natCast_pos.mpr (Nat.two_pow_pos _)
  rw [common (min_le_left e e'), common (min_le_right e e'), pow_add, pow_add, ← mul_assoc, ← mul_assoc, signed_mul,
    signed_mul n']
  exact decide_eq_decide.mpr (mul_lt_mul_iff_of_pos_right unit).symm

/-- What an FP32 code stands for, by its sign, exponent and fraction. -/
theorem fpOf_eq (a : Word) : fpOf a =
    if magnitude a / 2 ^ 23 = 255 then
      if magnitude a % 2 ^ 23 = 0 then .inf a.msb else .nan (decide (magnitude a % 2 ^ 23 < 2 ^ 22))
    else if magnitude a / 2 ^ 23 = 0 then .fin a.msb (magnitude a % 2 ^ 23) (-149)
    else .fin a.msb (2 ^ 23 + magnitude a % 2 ^ 23) ((magnitude a / 2 ^ 23 : Nat) - 150) := by
  have range := a.isLt
  have sign : decide (a.toNat / Fmt.signBit .fp32 % 2 = 1) = a.msb := by
    rw [BitVec.msb_eq_decide]
    exact decide_eq_decide.mpr (by simp only [Fmt.signBit, Fmt.expw, Fmt.frac]; omega)
  have exponent : a.toNat / 2 ^ Fmt.frac .fp32 % 2 ^ Fmt.expw .fp32 = magnitude a / 2 ^ 23 := by
    simp only [Fmt.expw, Fmt.frac, magnitude]; omega
  have fraction : a.toNat % 2 ^ Fmt.frac .fp32 = magnitude a % 2 ^ 23 := by
    simp only [Fmt.frac, magnitude]; omega
  have normal : ((magnitude a / 2 ^ 23 : Nat) : Int) - (Fmt.bias .fp32 : Nat) - (Fmt.frac .fp32 : Nat) =
      (magnitude a / 2 ^ 23 : Nat) - 150 := by
    simp only [Fmt.bias, Fmt.frac]; omega
  simp only [fpOf, decodeFp, sign, exponent, fraction, decide_eq_true_eq, normal]
  rfl

/-- The three kinds of FP32 codes: a NaN, an infinity, or a finite value of so many units of 2^-149. -/
theorem fpOf_cases (a : Word) :
    (0x7F800000 < magnitude a ∧ isNan (fpOf a) = true) ∨ (magnitude a = 0x7F800000 ∧ fpOf a = .inf a.msb) ∨
    (magnitude a < 0x7F800000 ∧
      ∃ m e, fpOf a = .fin a.msb m e ∧ -149 ≤ e ∧ m * 2 ^ (e + 149).toNat = fpUnits (magnitude a)) := by
  have range : magnitude a < 2 ^ 31 := Nat.mod_lt _ (by decide)
  rw [fpOf_eq, fpUnits]
  split
  next top =>
    split
    · exact .inr (.inl ⟨by omega, rfl⟩)
    · exact .inl ⟨by omega, rfl⟩
  next finite =>
    refine .inr (.inr ⟨by omega, ?_⟩)
    split
    · exact ⟨_, _, rfl, le_refl _, Nat.mul_one _⟩
    · refine ⟨_, _, rfl, by omega, ?_⟩
      have power : (((magnitude a / 2 ^ 23 : Nat) : Int) - 150 + 149).toNat = magnitude a / 2 ^ 23 - 1 := by omega
      rw [power]

theorem orderedCode_eq (a : Word) : orderedCode a = decide (magnitude a ≤ 0x7F800000) := rfl

theorem isNan_fpOf (a : Word) : isNan (fpOf a) = !orderedCode a := by
  rw [orderedCode_eq]
  rcases fpOf_cases a with ⟨above, nan⟩ | ⟨eq, inf⟩ | ⟨below, m, e, fin, -, -⟩
  · rw [nan, decide_eq_false (not_le.mpr above), Bool.not_false]
  · rw [inf, decide_eq_true (le_of_eq eq)]; rfl
  · rw [fin, decide_eq_true (le_of_lt below)]; rfl

theorem fpOf_of_ordered {a : Word} (ordered : orderedCode a = true) :
    (magnitude a = 0x7F800000 ∧ fpOf a = .inf a.msb) ∨
    (magnitude a < 0x7F800000 ∧
      ∃ m e, fpOf a = .fin a.msb m e ∧ -149 ≤ e ∧ m * 2 ^ (e + 149).toNat = fpUnits (magnitude a)) :=
  (fpOf_cases a).resolve_left (fun ⟨above, _⟩ => not_le.mpr above (of_decide_eq_true ordered))

/-- Codes that are no NaN compare as their places on the line. -/
theorem fpLt_fpOf {a b : Word} (ha : orderedCode a = true) (hb : orderedCode b = true) :
    fpLt (fpOf a) (fpOf b) = decide (lineOf a < lineOf b) := by
  rw [lineOf_eq, lineOf_eq]
  rcases fpOf_of_ordered ha with ⟨topA, infA⟩ | ⟨belowA, m, e, finA, low, units⟩ <;>
    rcases fpOf_of_ordered hb with ⟨topB, infB⟩ | ⟨belowB, m', e', finB, low', units'⟩
  · rw [infA, infB, topA, topB]
    cases a.msb <;> cases b.msb <;> rfl
  · rw [infA, finB, topA]
    cases a.msb <;> cases b.msb <;> simp [fpLt, signed] <;> omega
  · rw [finA, infB, topB]
    cases a.msb <;> cases b.msb <;> simp [fpLt, signed] <;> omega
  · rw [finA, finB, fpLt_fin _ _ low low', units, units']
    exact decide_eq_decide.mpr (signed_lt_iff fpUnits_strictMono rfl _ _ _ _)

theorem fpCond_eq (a b : Word) (lt eq : Bool) : fpCond a b lt eq = (orderedCode a && orderedCode b &&
    ((lt && decide (lineOf a < lineOf b)) || (eq && decide (lineOf a = lineOf b)))) := by
  simp only [fpCond, fpEq, isNan_fpOf, Bool.not_not]
  cases ha : orderedCode a
  · rfl
  cases hb : orderedCode b
  · rfl
  rw [fpLt_fpOf ha hb, fpLt_fpOf hb ha]
  have same : (!decide (lineOf a < lineOf b) && !decide (lineOf b < lineOf a)) = decide (lineOf a = lineOf b) := by
    rw [← decide_not, ← decide_not, ← Bool.decide_and]
    exact decide_eq_decide.mpr (by omega)
  simp only [Bool.true_and, same]

theorem unordered_eq (a b : Word) : unordered a b = (!orderedCode a || !orderedCode b) := by
  rw [unordered, isNan_fpOf, isNan_fpOf]

theorem ordered_eq (a b : Word) : (!unordered a b) = (orderedCode a && orderedCode b) := by
  rw [unordered_eq, Bool.not_or, Bool.not_not, Bool.not_not]

theorem fpEqual_eq (a b : Word) :
    fpCond a b false true = (orderedCode a && orderedCode b && decide (lineOf a = lineOf b)) := by
  rw [fpCond_eq, Bool.false_and, Bool.false_or, Bool.true_and]

theorem fpNotEqual_eq (a b : Word) :
    (!fpCond a b false true) = (!orderedCode a || !orderedCode b || decide (lineOf a ≠ lineOf b)) := by
  rw [fpEqual_eq, Bool.not_and, Bool.not_and, decide_not]

theorem fpBelow_eq (a b : Word) :
    fpCond a b true false = (orderedCode a && orderedCode b && decide (lineOf a < lineOf b)) := by
  rw [fpCond_eq, Bool.false_and, Bool.or_false, Bool.true_and]

theorem fpBelowOrEqual_eq (a b : Word) :
    fpCond a b true true = (orderedCode a && orderedCode b && decide (lineOf a ≤ lineOf b)) := by
  rw [fpCond_eq, Bool.true_and, Bool.true_and, ← Bool.decide_or]
  simp only [le_iff_lt_or_eq]

theorem beq_eq_decide_toNat (a b : Word) : (a == b) = decide (a.toNat = b.toNat) :=
  decide_eq_decide.mpr BitVec.toNat_inj.symm

theorem bne_eq_decide_toNat (a b : Word) : (a != b) = decide (a.toNat ≠ b.toNat) := by
  rw [bne, beq_eq_decide_toNat, decide_not]

/-! ### Combines, immediates and selectors (03 R66, 05 R100, R103) -/

theorem combine_toNat (c : BitVec 3) (old new : Bool) : combine c.toNat old new = combined c old new := by
  revert c old new
  decide

theorem combineReads_eq (c p : BitVec 3) : (if c.toNat = 0 then [] else [p.toNat]) = combineReads c p := by
  have zero : c.toNat = 0 ↔ c = 0#3 := BitVec.toNat_inj (y := 0#3)
  simp only [combineReads, zero]

theorem immValue_eq (h : Hints) (low : BitVec 8) : immValue h low = immediateOf h low := by
  have joined (high : BitVec 24) : high ++ low = BitVec.ofNat 32 (high.toNat * 2 ^ 8 + low.toNat) := by
    apply BitVec.eq_of_toNat_eq
    have := low.isLt
    have := high.isLt
    rw [BitVec.toNat_append, ← Nat.shiftLeft_add_eq_or_of_lt low.isLt, Nat.shiftLeft_eq, BitVec.toNat_ofNat]
    omega
  have fill : (if low.getLsbD 7 then BitVec.allOnes 24 else 0#24).toNat = if low.getLsbD 7 then 0xFFFFFF else 0 :=
    apply_ite BitVec.toNat _ _ _
  unfold immValue immediateOf
  simp only [joined, BitVec.toNat_xor, fill]
  cases h.imm <;> rfl

theorem predField_zero (h : Hints) : predField h 0 = selectorOf h := by
  unfold predField selectorOf
  cases h.mod <;> rfl

/-! ### The meaning of each word by its table (05 R93-R102) -/

section

variable {ins : Instr} {sw : Bool} {d : BitVec 6} {x y : Src}

theorem exec_ialu {fn : Nat} (op : IaluOp ins sw d x y fn) (s : State) :
    exec ins s = vecXY sw d x y s (integerResult fn) := by
  rw [← integerOp_eq]
  cases op <;> rfl

theorem exec_ialui {fn : Nat} {v : BitVec 8} (op : IaluiOp ins sw d x v fn) (s : State) :
    exec ins s = vecXI sw d x v s (integerResult fn) := by
  rw [← integerOp_eq]
  cases op <;> rfl

theorem exec_salu {fn : Nat} (op : SaluOp ins sw d x y fn) (s : State) :
    exec ins s = uniXY sw d x y s (integerResult fn) := by
  rw [← integerOp_eq]
  cases op <;> rfl

theorem exec_salui {fn : Nat} {v : BitVec 8} (op : SaluiOp ins sw d x v fn) (s : State) :
    exec ins s = uniXI sw d x v s (integerResult fn) := by
  rw [← integerOp_eq]
  cases op <;> rfl

theorem exec_iextOne {f : Bool → Word → Word} (op : IextOne ins sw d x f) (s : State) : exec ins s = vecX sw d x s f := by
  cases op with
  | iabs => rw [← funext₂ absW_eq]; rfl
  | ineg => rw [← funext₂ negW_eq]; rfl
  | vnot => rw [← funext₂ fun _ => not_eq_xor]; rfl
  | clz => rw [← funext₂ fun _ => clzW_eq]; rfl
  | popc => rw [← funext₂ fun _ => popcW_eq]; rfl
  | brev => rw [← funext₂ fun _ => brevW_eq]; rfl

theorem exec_iextTwo {f : Word → Word → Word} (op : IextTwo ins sw d x y f) (s : State) :
    exec ins s = vecXY sw d x y s f := by
  cases op with
  | bfe => rw [← funext₂ bfeW_eq]; rfl
  | iadds => rfl
  | isubs => rfl
  | uadds => rw [← funext₂ fun _ _ => congrArg (BitVec.ofNat 32) (min_comm _ _)]; rfl
  | rotl => rw [← funext₂ rotlW_eq]; rfl
  | lea2 => rw [← funext₂ lea2_eq]; rfl

theorem exec_iextThree {f : Word → Word → Word → Word} (op : IextThree ins sw d x y f) (s : State) :
    exec ins s = vecXYD sw d x y s f := by
  cases op with
  | bfi => rw [← funext₃ bfiW_eq]; rfl
  | imad => rw [← funext₃ imad_eq]; rfl
  | sad => rfl

theorem exec_carry {f : Word → Word → Bool → Word × Bool} (op : CarryOp ins sw d x y f) (s : State) :
    exec ins s = vecCarry sw d x y s f := by
  cases op with
  | iaddc => rfl
  | isubb => rw [← funext₃ subBorrow_eq]; rfl

variable {c p : BitVec 3} {f : Word → Word → Bool}

theorem exec_compare (op : CompareOp ins sw c p x y f) (s : State) : exec ins s = compareXY sw c p x y s f := by
  cases op with
  | eq => rw [← funext₂ beq_eq_decide_toNat]; rfl
  | ne => rw [← funext₂ bne_eq_decide_toNat]; rfl
  | _ => rfl

theorem exec_fpCompare (op : FpCompareOp ins sw c p x y f) (s : State) : exec ins s = compareXY sw c p x y s f := by
  cases op with
  | feq => rw [← funext₂ fpEqual_eq]; rfl
  | fne => rw [← funext₂ fpNotEqual_eq]; rfl
  | flt => rw [← funext₂ fpBelow_eq]; rfl
  | fle => rw [← funext₂ fpBelowOrEqual_eq]; rfl
  | funo => rw [← funext₂ unordered_eq]; rfl
  | ford => rw [← funext₂ ordered_eq]; rfl

end

end Sys2Proof.Machine
end

section
/-! SUPPORT. The words of a control core: a legal word with its guard 1 does the work of its meaning, which writes a register
or a predicate and moves the PC (04 R85, R86). -/

namespace Sys2Proof.Machine

open Sys2Proof

/-! ### The issue of a control core (04 R85, R86, R89) -/

/-- What the meaning of a control core's word of form f reads. -/
def controlIn (s : State) (c : Nat) (f : Form) : CIn :=
  { s := s, c := c, ctl := ctlAt s c, hints := s.issue.hints, pc := s.issue.pc,
    x := ctlSource (ctlAt s c) f.x f.sx, y := ctlSource (ctlAt s c) f.y f.sy }

/-- What the work of a control core's word leaves: a stop at its bad access or target, or its stores and the new core. -/
def controlDone (s : State) (c : Nat) (w : CWork) : State :=
  match w.badAccess with
  | some a => stopControl s c 7 s.issue.word s.issue.pc a
  | none => if w.badTarget then stopAtWord s c else w.store.foldl (fun s st => storeControl s c st) (withCtl s c w.ctl)

section

variable {s : State} {f : Form} {c : Nat} {body : In → Work → Work} {cbody : CIn → CWork}

/-- A legal word with its guard 1 does the work of its meaning. -/
theorem controlIssue_done (h : ControlIssues s f c) : controlIssue s c f cbody = controlDone s c (cbody (controlIn s c f)) := by
  obtain ⟨-, legal, ⟨x, y, sx, sy⟩, route, imm, guard⟩ := h
  have taken : (s.issue.hints.imm.isSome && !f.imm) = false := by
    cases some : s.issue.hints.imm.isSome
    · rfl
    · rw [imm some]; rfl
  have passed : (f.guarded && !ctlPred (clusterAt s c).ctl (predField s.issue.hints 7)) = false := by
    cases guarded : f.guarded
    · rfl
    · rw [guard guarded]; rfl
  simp only [controlIssue, legal, x, y, sx, sy, route, taken, passed, Bool.or_self, Option.isSome_none, Bool.false_eq_true,
    if_false]
  rfl

theorem groupOrControl_done (h : ControlIssues s f c) :
    groupOrControl s f body cbody = .next (controlDone s c (cbody (controlIn s c f))) := by
  simp only [groupOrControl, h.actor, controlIssue_done h]

end

/-- The core after a word that gives predicate d the value b; a write to p7 is discarded (02 R40). -/
def predWritten (s : State) (c : Nat) (d : BitVec 3) (b : Bool) : Ctl :=
  { ctlAt s c with
    pc := s.issue.pc + 4#32
    p := if d = 7#3 then (ctlAt s c).p else tput (ctlAt s c).p d.toNat b }

theorem setCtlPred_ctlNext (s : State) (c : Nat) (f : Form) (d : BitVec 3) (b : Bool) :
    setCtlPred (ctlNext (controlIn s c f)) d.toNat b = predWritten s c d b := by
  by_cases seventh : d = 7#3
  · subst seventh
    rfl
  · have other : d.toNat ≠ 7 := fun same => seventh (BitVec.toNat_inj.mp same)
    rw [setCtlPred, if_neg other, predWritten, if_neg seventh]
    rfl

section

variable {s : State} {n : Nat} {sw : Bool}

theorem compareXY_control {c p : BitVec 3} {x y : Src}
    (h : ControlIssues s { sw := sw, x := some x, y := some y, pr := combineReads c p } n) (test : Word → Word → Bool) :
    compareXY sw c p x y s test = .next (withCtl s n (predWritten s n p (combined c (ctlPred (ctlAt s n) p.toNat)
      (test (ctlReg (ctlAt s n) x.reg.toNat) (ctlReg (ctlAt s n) y.reg.toNat))))) := by
  rw [compareXY, combineReads_eq, ← combine_toNat]
  exact groupOrControl_control h _ _ _ (congrArg (CWork.mk · [] false none) (setCtlPred_ctlNext s n _ p _))

theorem predXY_control {d x y : BitVec 3} (h : ControlIssues s { sw := sw, pr := [x.toNat, y.toNat] } n)
    (f : Bool → Bool → Bool) : predXY sw d x y s f = .next (withCtl s n (predWritten s n d
      (f (ctlPred (ctlAt s n) x.toNat) (ctlPred (ctlAt s n) y.toNat)))) :=
  groupOrControl_control h _ _ _ (congrArg (CWork.mk · [] false none) (setCtlPred_ctlNext s n _ d _))

end

end Sys2Proof.Machine

namespace Sys2Proof

open Sys2Proof.Machine

/-- Settles O7: by the table that each word stands in, the meaning for a control core writes one register, or a predicate,
or both for a carry, and moves the PC. -/
theorem controlCoreWritesItsRegisters : Obligations.ControlCoreWritesItsRegisters := by
  refine ⟨?registers, ?predicates, ?carries, fun sw s c issues => groupOrControl_control issues _ _ _ rfl⟩
  case registers =>
    intro s ins f d val write c issues
    cases write with
    | ialu op => rw [exec_ialu op]; exact groupOrControl_control issues _ _ _ rfl
    | ialui op => rw [exec_ialui op, ← immValue_eq]; exact groupOrControl_control issues _ _ _ rfl
    | salu op => rw [exec_salu op]; exact groupOrControl_control issues _ _ _ rfl
    | salui op => rw [exec_salui op, ← immValue_eq]; exact groupOrControl_control issues _ _ _ rfl
    | one op => rw [exec_iextOne op]; exact groupOrControl_control issues _ _ _ rfl
    | two op => rw [exec_iextTwo op]; exact groupOrControl_control issues _ _ _ rfl
    | three op => rw [exec_iextThree op]; exact groupOrControl_control issues _ _ _ rfl
    | movi => rw [← immValue_eq]; exact groupOrControl_control issues _ _ _ rfl
    | smovi => rw [← immValue_eq]; exact groupOrControl_control issues _ _ _ rfl
    | sel => rw [← predField_zero] at issues ⊢; exact groupOrControl_control issues _ _ _ rfl
    | mov | smov | clock => exact groupOrControl_control issues _ _ _ rfl
  case predicates =>
    intro ins f d val write s c issues
    cases write with
    | compare op => rw [exec_compare op]; exact compareXY_control issues _
    | fpCompare op => rw [exec_fpCompare op]; exact compareXY_control issues _
    | pand => exact predXY_control issues (· && ·)
    | por => exact predXY_control issues (· || ·)
    | pxor => exact predXY_control issues (· != ·)
    | pnot => exact predXY_control issues (fun a _ => !a)
  case carries =>
    intro ins sw d x y f op s c issues
    rw [exec_carry op]
    exact groupOrControl_control issues _ _ _ rfl

end Sys2Proof
end

section
/-! SUPPORT. Accesses of control memory: bytes as numbers, and the work of a load or a store by its address (00 R4, 04 R85,
R89, 09 R197, 07 R134). -/

namespace Sys2Proof.Machine

open Sys2Proof

/-! ### Numbers in bytes (00 R4) -/

theorem leNat_lt (bs : List Byte) : leNat bs < 256 ^ bs.length := by
  induction bs with
  | nil => exact Nat.one_pos
  | cons b rest ih =>
    have := b.isLt
    rw [leNat, List.length_cons, pow_succ]
    omega

theorem leNat_cons_mod (b : Byte) (rest : List Byte) : leNat (b :: rest) % 256 = b.toNat := by
  have := b.isLt
  rw [leNat]
  omega

theorem leNat_cons_div (b : Byte) (rest : List Byte) : leNat (b :: rest) / 256 = leNat rest := by
  have := b.isLt
  rw [leNat]
  omega

theorem natLE_leNat (bs : List Byte) : natLE bs.length (leNat bs) = bs := by
  induction bs with
  | nil => rfl
  | cons b rest ih =>
    have low : BitVec.ofNat 8 (leNat (b :: rest)) = b := BitVec.eq_of_toNat_eq (leNat_cons_mod b rest)
    rw [List.length_cons, natLE, low, leNat_cons_div, ih]

theorem leNat_drop (n : Nat) (bs : List Byte) : leNat (bs.drop n) = leNat bs / 256 ^ n := by
  induction n generalizing bs with
  | zero => rw [pow_zero, Nat.div_one, List.drop_zero]
  | succ n ih =>
    cases bs with
    | nil => rw [List.drop_nil, leNat, Nat.zero_div]
    | cons b rest => rw [List.drop_succ_cons, ih, pow_succ', ← Nat.div_div_eq_div_mul, leNat_cons_div]

theorem leNat_take (n : Nat) (bs : List Byte) : leNat (bs.take n) = leNat bs % 256 ^ n := by
  induction n generalizing bs with
  | zero => rw [pow_zero, Nat.mod_one, List.take_zero, leNat]
  | succ n ih =>
    cases bs with
    | nil => rw [List.take_nil, leNat, Nat.zero_mod]
    | cons b rest => rw [List.take_succ_cons, leNat, ih, pow_succ', Nat.mod_mul, leNat_cons_mod, leNat_cons_div]

theorem pow_bytes (n : Nat) : 256 ^ n = 2 ^ (8 * n) := (pow_mul 2 8 n).symm

theorem length_mbytes (m : Memory) (a n : Nat) : (mbytes m a n).length = n := by
  rw [mbytes, upto, List.length_map, List.length_range]

/-- The bytes of a number read from memory are the bytes in memory. -/
theorem natLE_mreadN (m : Memory) (a n : Nat) : natLE n (mreadN m a n) = mbytes m a n := by
  have := natLE_leNat (mbytes m a n)
  rwa [length_mbytes] at this

theorem wordAt_eq (j : Nat) (bs : List Byte) : wordAt j bs = BitVec.ofNat 32 (leNat bs / 2 ^ (32 * j)) := by
  have shift : 256 ^ (4 * j) = 2 ^ (32 * j) := (pow_bytes _).trans (congrArg (2 ^ ·) (by omega))
  apply BitVec.eq_of_toNat_eq
  rw [wordAt, zext, leNat_take, leNat_drop, shift]
  exact Nat.mod_mod _ _

theorem sext_eq {n : Nat} {bs : List Byte} (length : bs.length = n) (pos : 0 < n) :
    sext n bs = (BitVec.ofNat (8 * n) (leNat bs)).signExtend 32 := by
  have lt : leNat bs < 2 ^ (8 * n) := by
    rw [← pow_bytes, ← length]
    exact leNat_lt bs
  have half : 2 ^ (8 * n) = 2 * 2 ^ (8 * n - 1) := by
    rw [← pow_succ']
    congr 1
    omega
  have sign : 2 * leNat bs < 2 ^ (8 * n) ↔ leNat bs < 2 ^ (8 * n - 1) := by omega
  unfold sext
  rw [BitVec.signExtend, BitVec.toInt_eq_toNat_cond, BitVec.toNat_ofNat, Nat.mod_eq_of_lt lt]
  simp only [sign, apply_ite (BitVec.ofInt 32), BitVec.ofInt_natCast, wrap32, Nat.cast_pow, Nat.cast_ofNat]

/-! ### Loads and stores (09 R197) -/

/-- The address of an access of control memory (03 R64, 04 R85). -/
theorem ctlAddr_eq (i : CIn) (o : BitVec 8) (size : Nat) :
    ctlAddr i o size = BitVec.ofNat 32 (i.x.toNat + (immediateOf i.hints o).toNat * size) := by
  apply BitVec.eq_of_toNat_eq
  simp [ctlAddr, immValue_eq]

theorem foldl_setCtlReg (d : Nat) (v : Nat → Word) (js : List Nat) (k : Ctl) :
    js.foldl (fun k j => setCtlReg k (d + j) (v j)) k = { k with s := js.foldl (fun t j => tput t (d + j) (v j)) k.s } := by
  induction js generalizing k with
  | nil => rfl
  | cons j rest ih => rw [List.foldl_cons, ih]; rfl

theorem inCode_eq (k : Ctl) (a size : Nat) :
    inCode k a size = decide (a < k.base + k.size ∧ k.base < a + size) := (Bool.decide_and _ _).symm

section

variable {ins : Instr} {sw : Bool} {d : Nat} {x : Src} {o : BitVec 8} {size regs : Nat}

/-- A load of at most 8 bytes is a load of that size for groups and for control cores; what it makes of the bytes is the
words of the table. -/
theorem exec_load {word : Nat → List Byte → Word} (op : LoadOp ins sw d x o size regs word) (small : size ≤ 8) :
    ∃ conv : Nat → List Byte → Word, (∀ j bs, bs.length = size → conv j bs = word j bs) ∧ ∀ s,
      exec ins s = groupOrControl s (loadForm sw d x regs) (loadBody d o size regs conv) (loadCtl d o size regs conv) := by
  cases op with
  | ld8 => exact ⟨fun _ => zext, fun _ _ _ => rfl, fun _ => rfl⟩
  | ld8s => exact ⟨fun _ => sext 1, fun _ _ length => sext_eq length Nat.one_pos, fun _ => rfl⟩
  | ld16 => exact ⟨fun _ => zext, fun _ _ _ => rfl, fun _ => rfl⟩
  | ld16s => exact ⟨fun _ => sext 2, fun _ _ length => sext_eq length Nat.two_pos, fun _ => rfl⟩
  | ld32 => exact ⟨fun _ => zext, fun _ _ _ => rfl, fun _ => rfl⟩
  | ld64 => exact ⟨wordAt, fun j bs _ => wordAt_eq j bs, fun _ => rfl⟩
  | ld128 => exact absurd small (by decide)

/-- A store of at most 8 bytes that touches no tag of its own is a store of that size for groups and for control cores. -/
theorem exec_store {bits : Nat → List TagStore} (op : StoreOp ins sw d x o size regs bits) (small : size ≤ 8)
    (plain : ∀ p, bits p = []) (s : State) : exec ins s = groupOrControl s (storeForm sw d x regs)
      (storeBody o size (regBytes d size regs) (fun _ => [])) (storeCtl d o size regs) := by
  cases op with
  | st8 | st16 | st32 | st64 => rfl
  | st128 => exact absurd small (by decide)
  | stf => exact absurd (plain 0) (List.cons_ne_nil _ _)

end

section

variable {i : CIn} {d : Nat} {o : BitVec 8} {size regs : Nat} {a : Word} {conv : Nat → List Byte → Word}

theorem loadCtl_of_ok (addr : ctlAddr i o size = a) (ok : ctlAccessOk a size = true) : loadCtl d o size regs conv i =
    { ctl := { ctlNext i with
        s := (upto regs).foldl (fun t j => tput t (d + j) (conv j (mbytes i.s.cmem (i.c * Config.controlBytes + a.toNat) size)))
          i.ctl.s } } := by
  simp only [loadCtl, addr, ok, if_true, ctlRead, natLE_mreadN, foldl_setCtlReg]
  rfl

theorem loadCtl_of_bad (addr : ctlAddr i o size = a) (bad : ctlAccessOk a size = false) :
    loadCtl d o size regs conv i = { ctl := i.ctl, badAccess := some a } := by
  simp only [loadCtl, addr, bad, Bool.false_eq_true, if_false]

theorem storeCtl_of_ok (addr : ctlAddr i o size = a) (ok : ctlAccessOk a size = true)
    (outside : inCode i.ctl a.toNat size = false) : storeCtl d o size regs i =
      { ctl := ctlNext i
        store := [(a.toNat, ((upto regs).flatMap (fun j => wordBytes (ctlReg i.ctl (d + j)))).take size)] } := by
  simp only [storeCtl, addr, ok, outside, Bool.not_false, Bool.and_self, if_true]

theorem storeCtl_of_bad (addr : ctlAddr i o size = a)
    (bad : ctlAccessOk a size = false ∨ inCode i.ctl a.toNat size = true) :
    storeCtl d o size regs i = { ctl := i.ctl, badAccess := some a } := by
  have refused : (ctlAccessOk a size && !inCode i.ctl a.toNat size) = false := by
    rcases bad with bad | inside
    · rw [bad, Bool.false_and]
    · rw [inside, Bool.not_true, Bool.and_false]
  simp only [storeCtl, addr, refused, Bool.false_eq_true, if_false]

end

end Sys2Proof.Machine

namespace Sys2Proof

open Sys2Proof.Machine

/-- Settles O20: an access of control memory does its loads or stores at its address when that is legal, and stops the
program when it is not. -/
theorem controlCoreAccessesItsMemory : Obligations.ControlCoreAccessesItsMemory := by
  constructor
  case left =>
    intro ins sw d x o size regs word op small s c issues a
    obtain ⟨conv, words, meaning⟩ := exec_load op small
    have addr : ctlAddr (controlIn s c (loadForm sw d x regs)) o size = a := ctlAddr_eq _ _ _
    rw [meaning, groupOrControl_done issues]
    refine ⟨fun ok => ?_, fun bad => ?_⟩
    · simp only [loadCtl_of_ok addr ok, words _ _ (length_mbytes _ _ _)]
      rfl
    · rw [loadCtl_of_bad addr bad]
      rfl
  case right =>
    intro ins sw d x o size regs bits op small plain s c issues a bs inside
    have addr : ctlAddr (controlIn s c (storeForm sw d x regs)) o size = a := ctlAddr_eq _ _ _
    have code : inCode (controlIn s c (storeForm sw d x regs)).ctl a.toNat size = inside := inCode_eq _ _ _
    rw [exec_store op small plain, groupOrControl_done issues]
    refine ⟨fun ok outside => ?_, fun bad => ?_⟩
    · rw [storeCtl_of_ok addr ok (code.trans outside)]
      rfl
    · rw [storeCtl_of_bad addr (bad.imp_right code.trans)]
      rfl

end Sys2Proof
end

section
/-! SUPPORT. Group words that compute: a word that writes vector registers, a uniform register, a predicate, or a vector
register and the carry in p6 leaves what its meaning gives (05 R91-R108). -/

namespace Sys2Proof.Machine

open Sys2Proof

/-! ### Words that write one register -/

section

variable {ins : Instr} {s : State} {f : Form} {i : In} (h : GroupIssues s f i)

include h

theorem vectorWord_completes (d : BitVec 6) {val : In → Nat → Word} {cbody : CIn → CWork}
    (meaning : exec ins s = groupOrControl s f (fun i => regsBody (writeLanes d.toNat (val i)) i) cbody) :
    Completes ins s i (fun g => VectorWritten i g d.toNat i.act (val i) ∧ ChunksKept i g ∧ SpecialsKept i g) :=
  vector_completes h d.toNat d.isLt (val i) (meaning.trans (groupOrControl_next h _ _))

theorem uniformWord_completes (d : BitVec 6) {val : In → Word} {cbody : CIn → CWork}
    (meaning : exec ins s = groupOrControl s f (fun i => regsBody (writeOnce d.toNat (val i)) i) cbody) :
    Completes ins s i (fun g => UniformWritten i g d.toNat (val i) ∧ ChunksKept i g ∧ SpecialsKept i g) :=
  uniform_completes h d.toNat (val i) (meaning.trans (groupOrControl_next h _ _))

theorem predWord_completes (d : BitVec 3) {val : In → Nat → Bool} {cbody : CIn → CWork}
    (meaning : exec ins s = groupOrControl s f (fun i => regsBody (writePreds d.toNat (val i)) i) cbody) :
    Completes ins s i (fun g => PredWritten i g d.toNat i.act (val i) ∧ ChunksKept i g ∧ SpecialsKept i g) :=
  pred_completes h d.toNat d.isLt (val i) (meaning.trans (groupOrControl_next h _ _))

end

theorem compareXY_completes {ins : Instr} {s : State} {i : In} {sw : Bool} {c p : BitVec 3} {x y : Src}
    {f : Word → Word → Bool} (h : GroupIssues s { sw := sw, x := some x, y := some y, pr := combineReads c p } i)
    (meaning : exec ins s = compareXY sw c p x y s f) :
    Completes ins s i (fun g =>
      PredWritten i g p.toNat i.act (fun k => combined c (predOf i p k) (f (xVal i k) (yVal i k))) ∧
      ChunksKept i g ∧ SpecialsKept i g) := by
  simp only [compareXY, combineReads_eq, combine_toNat] at meaning
  exact predWord_completes h p meaning

theorem add_wrap32 (a : Word) (n : Int) : a + wrap32 n = BitVec.ofInt 32 (a.toNat + n) := by
  rw [BitVec.ofInt_add, wrap32, BitVec.ofInt_natCast, BitVec.ofNat_toNat, BitVec.setWidth_eq]

theorem bne_eq_decide (a b : Word) : (a != b) = decide (a ≠ b) := by
  rw [decide_not]
  rfl

/-! ### Words with a carry (05 R94) -/

/-- The uniform registers and the predicates of b are those of a. -/
structure SameScalars (a b : GroupCore) : Prop where
  uniform : b.s = a.s
  preds : b.p = a.p

theorem SameScalars.refl (a : GroupCore) : SameScalars a a := ⟨rfl, rfl⟩

theorem SameScalars.trans {a b c : GroupCore} (h : SameScalars a b) (k : SameScalars b c) : SameScalars a c :=
  ⟨k.uniform.trans h.uniform, k.preds.trans h.preds⟩

/-- Last uses of vector sources release vector registers only. -/
theorem released_sameScalars {s : State} {f : Form} {i : In} (h : GroupIssues s f i) (ls : List Nat) (hsx : f.sx = none)
    (hsy : f.sy = none) : SameScalars i.g.regs (released i ls) := by
  have one (c : GroupCore) (r : Nat) : SameScalars c (ls.foldl (fun c l => releaseV c l r) c) :=
    ls.foldlRecOn (motive := SameScalars c) _ (.refl c) fun _ hb _ _ => ⟨hb.uniform, hb.preds⟩
  have vec (src : Option Src) (isY : Bool) (offs : List Nat) (c : GroupCore) : SameScalars c (match src with
      | some x => if releases i x isY then
          offs.foldl (fun c o => ls.foldl (fun c l => releaseV c l (x.reg.toNat + o)) c) c else c
      | none => c) := by
    cases src with
    | none => exact .refl c
    | some x =>
      dsimp only
      split
      · exact offs.foldlRecOn (motive := SameScalars c) _ (.refl c) fun b hb _ _ => hb.trans (one b _)
      · exact .refl c
  simp only [released, releaseSources, (groupIssues_facts h).form, hsx, hsy]
  exact (vec _ _ _ _).trans (vec _ _ _ _)

/-- Vector register d and p6 hold the word and the Boolean of `out k` in every executing lane k; every other register is as
it was, but for the released vector sources. -/
structure CarryWritten (i : In) (g : Group) (d : Nat) (out : Nat → Word × Bool) : Prop where
  value : ∀ k ∈ i.act, readV g.regs k d = ((out k).1, false) ∧ readP g.regs k 6 = ((out k).2, false)
  vectors : ∀ k r, r < 64 → ¬(k ∈ i.act ∧ r = d) → vreg g.regs k r = vreg (released i i.act) k r
  preds : ∀ k r, r < 8 → ¬(k ∈ i.act ∧ r = 6) → preg g.regs k r = preg i.g.regs k r
  uniform : g.regs.s = i.g.regs.s

theorem carryWritten_of_regs {i : In} {g : Group} {d : Nat} (hd : d < 64) (out : Nat → Word × Bool)
    (rel : SameScalars i.g.regs (released i i.act)) {r : GroupCore}
    (hr : r = writePreds 6 (fun k => (out k).2) i (writeLanes d (fun k => (out k).1) i (released i i.act)))
    (hv : g.regs.v = r.v) (hs : g.regs.s = r.s) (hp : g.regs.p = r.p) : CarryWritten i g d out := by
  obtain ⟨value, vectors, uniform, preds⟩ := writeLanes_written i d hd (fun k => (out k).1)
  obtain ⟨carry, others, uniform', vectors'⟩ := preg_writePreds i.act 6 (fun k => (out k).2)
    (writeLanes d (fun k => (out k).1) i (released i i.act)) (by decide)
  rw [← writePreds, ← hr] at uniform' vectors'
  have file (k n : Nat) : preg g.regs k n = preg r k n := by simp only [preg, hp]
  refine ⟨fun k hk => ⟨?_, ?_⟩, fun k n hn hne => ?_, fun k n hn hne => ?_, ?_⟩
  · rw [← value k hk]
    simp only [readV, vreg, hv, vectors']
  · rw [← carry (by decide) k hk, readP, file, hr]
    rfl
  · rw [← vectors k n hn hne]
    simp only [vreg, hv, vectors']
  · rw [file, hr]
    refine (others k n hn hne).trans ?_
    simp only [preg, preds, rel.preds]
  · rw [hs, uniform', uniform, rel.uniform]

theorem carry_completes {ins : Instr} {s : State} {i : In} {sw : Bool} {d : BitVec 6} {x y : Src}
    {f : Word → Word → Bool → Word × Bool}
    (h : GroupIssues s { sw := sw, x := some x, y := some y, v := [d.toNat], pr := [6] } i)
    (meaning : exec ins s = vecCarry sw d x y s f) :
    Completes ins s i (fun g =>
      CarryWritten i g d.toNat (fun k => f (xVal i k) (yVal i k) (predOf i 6#3 k)) ∧
      ChunksKept i g ∧ SpecialsKept i g) := by
  refine onRegs_completes h _ ?_ (meaning.trans (groupOrControl_next h _ _)) _ fun g =>
    carryWritten_of_regs d.isLt _ (released_sameScalars h i.act rfl rfl) rfl
  exact ((releaseSources_special i i.act i.g.regs).trans (writeLanes_special _ _ _)).trans
    (sameSpecials_foldl _ (fun c l => writeP_special c l 6 _) _ _)

end Sys2Proof.Machine

namespace Sys2Proof

open Sys2Proof.Machine

/-- Settles O1: each word of the tables writes its integer operation in the executing lanes. -/
theorem ialuWritesResult : Obligations.IaluWritesResult := by
  constructor
  · intro ins sw d x y fn op s i issues
    exact vectorWord_completes issues d (exec_ialu op s)
  · intro ins sw d x v fn op s i issues
    rw [← immValue_eq]
    exact vectorWord_completes issues d (exec_ialui op s)

/-- Settles O2: each word of the tables writes its integer operation once, when a lane executes. -/
theorem saluWritesOnce : Obligations.SaluWritesOnce := by
  constructor
  · intro ins sw d x y fn op s i issues
    exact uniformWord_completes issues d (exec_salu op s)
  · intro ins sw d x v fn op s i issues
    rw [← immValue_eq]
    exact uniformWord_completes issues d (exec_salui op s)

/-- Settles O3: each word writes the function of its row, of one source, of two, or of two and the prior destination. -/
theorem iextWritesResult : Obligations.IextWritesResult := by
  refine ⟨?one, ?two, ?three⟩
  case one =>
    intro ins sw d x f op s i issues
    exact vectorWord_completes issues d (exec_iextOne op s)
  case two =>
    intro ins sw d x y f op s i issues
    exact vectorWord_completes issues d (exec_iextTwo op s)
  case three =>
    intro ins sw d x y f op s i issues
    exact vectorWord_completes issues d (exec_iextThree op s)

/-- Settles O4: both words write the result and then the carry, and the example's words are those that the encoder gives. -/
theorem carryGoesThroughP6 : Obligations.CarryGoesThroughP6 := by
  refine ⟨fun ins sw d x y f op s i issues => ?_, ?_⟩
  · exact completes_mono (carry_completes issues (exec_carry op s)) fun g ⟨⟨value, vectors, preds, uniform⟩, kept⟩ =>
      ⟨value, vectors, preds, uniform, kept⟩
  · and_intros <;> exact decodeTableWord_of_encode rfl rfl fun ⟨_, port⟩ => nomatch port

/-- Settles O5: each compare combines the condition of its row with the old predicate. -/
theorem compareWritesPredicate : Obligations.CompareWritesPredicate := by
  constructor
  · intro ins sw c p x y f op s i issues
    exact compareXY_completes issues (exec_compare op s)
  · intro ins sw c p x y f op s i issues
    exact compareXY_completes issues (exec_fpCompare op s)

/-- Settles O6: each move writes the value of its row. -/
theorem movesWriteValue : Obligations.MovesWriteValue := by
  refine ⟨?vector, ?uniform, ?predicate⟩
  case vector =>
    intro s ins f d val move i issues
    cases move with
    | movi =>
      simp only [← immValue_eq]
      exact vector_completes issues d.toNat d.isLt _ (groupOrControl_next issues _ _)
    | mov | clock => exact vector_completes issues d.toNat d.isLt _ (groupOrControl_next issues _ _)
    | sel =>
      rw [← predField_zero] at issues ⊢
      exact vector_completes issues d.toNat d.isLt _ (groupOrControl_next issues _ _)
    | vfroms | ptov | rdid => exact vector_completes issues d.toNat d.isLt _ (groupOnly_next issues _)
    | adr =>
      simp only [← add_wrap32]
      exact vector_completes issues d.toNat d.isLt _ (groupOnly_next issues _)
  case uniform =>
    intro ins f d val move s i issues
    cases move with
    | smov => exact uniform_completes issues d.toNat _ (groupOrControl_next issues _ _)
    | smovi =>
      simp only [← immValue_eq]
      exact uniform_completes issues d.toNat _ (groupOrControl_next issues _ _)
    | sfromv => exact uniform_completes issues d.toNat _ (groupOnly_next issues _)
  case predicate =>
    intro ins f d val move s i issues
    cases move with
    | pand | por | pxor | pnot => exact pred_completes issues d.toNat d.isLt _ (groupOrControl_next issues _ _)
    | vtop =>
      simp only [← bne_eq_decide]
      exact pred_completes issues d.toNat d.isLt _ (groupOnly_next issues _)

end Sys2Proof
end

section
/-! SUPPORT. Where the lanes of a group stand once a word has ended: a lane that takes no trap and waits at no mask keeps
the place that its fate gives it (06 R111, R122, 08 R172), and so the words that only retire or sleep (05 R109, 06 R133). -/

namespace Sys2Proof.Machine

open Sys2Proof

/-! ### The end of a word -/

/-- A wait at a mask, which a word of any other member can end (06 R122). -/
def atMask (w : Wait) : Bool :=
  match w with
  | .mask _ _ _ _ => true
  | _ => false

section

variable {g b : Group} {k : Nat} {pc : Word} {w : Wait}

/-- A change of every lane that leaves its PC and its wait. -/
theorem standsAt_tmap (h : standsAt g k pc w) (f : Nat → Lane → Lane)
    (hf : ∀ x, (f k x).pc = x.pc ∧ (f k x).wait = x.wait) :
    standsAt { g with regs := { g.regs with lanes := tmap g.regs.lanes f } } k pc w := by
  simp only [standsAt, laneAt, tgetD, tget_tmap] at h ⊢
  cases found : tget g.regs.lanes k with
  | none =>
    simp only [found, Option.map_none] at h ⊢
    exact h
  | some x =>
    simp only [found, Option.getD_some] at h
    obtain ⟨samePc, sameWait⟩ := hf x
    exact ⟨samePc.trans h.1, sameWait.trans h.2⟩

theorem standsAt_of_lanes_eq (h : standsAt g k pc w) (lanes : b.regs.lanes = g.regs.lanes) : standsAt b k pc w := by
  simpa only [standsAt, laneAt, lanes] using h

theorem takeTrap_standsAt {ls : List Nat} {traps : Table (Nat × Word)} {runPc after : Word} {nd : Bool} {cs : Table Nat}
    {win : Option Nat} (h : standsAt g k pc w) (free : k ∉ traps.map (·.1)) :
    standsAt (takeTrap g ls traps runPc after nd cs win) k pc w := by
  unfold takeTrap
  split
  · exact h
  · refine standsAt_tmap h _ fun x => ?_
    simp only [List.contains_iff_mem, free, if_false, and_self]

/-- A mask releases its waiting members only. -/
theorem releaseMask_standsAt (q m : Nat) (h : standsAt g k pc w) (hw : atMask w = false) :
    standsAt (releaseMask q g m) k pc w := by
  unfold releaseMask
  dsimp only
  split
  case isFalse => exact h
  case isTrue released =>
    have outside : k ∉ lanesOf (tgetD g.regs.masks m 0#64) 64 := fun member => by
      have waits := List.all_eq_true.mp (Bool.and_eq_true_iff.mp released).2 k member
      rw [h.2] at waits
      cases w with
      | mask => cases hw
      | _ => simp at waits
    refine standsAt_tmap (g := { g with regs := { g.regs with lanes := _ } }) (standsAt_tmap h _ fun x => ?_) _
      fun x => ?_ <;>
      simp only [List.contains_iff_mem, outside, if_false, and_self]

theorem releaseMasks_standsAt (q : Nat) (h : standsAt g k pc w) (hw : atMask w = false) :
    standsAt (releaseMasks q g) k pc w :=
  (upto 12).foldlRecOn (motive := fun b => standsAt b k pc w) _ h fun _ hb m _ => releaseMask_standsAt q m hb hw

theorem freeSlot_lanes (c : GroupCore) : (freeSlot c).lanes = c.lanes := by
  unfold freeSlot
  split <;> rfl

theorem endParts_standsAt (h : standsAt g k pc w) : standsAt (endParts g) k pc w :=
  standsAt_tmap h _ fun x => by split <;> exact ⟨rfl, rfl⟩

theorem endSwitch_standsAt (h : standsAt g k pc w) : standsAt { g with regs := endSwitch g.regs } k pc w := by
  unfold endSwitch
  split
  · exact h
  · exact standsAt_tmap h _ fun x => by split <;> exact ⟨rfl, rfl⟩

theorem endChunk_standsAt (cycle : Nat) (h : standsAt g k pc w) : standsAt (endChunk cycle g) k pc w := by
  unfold endChunk
  split
  · exact h
  · split
    · exact standsAt_tmap h _ fun _ => ⟨rfl, rfl⟩
    · exact h

theorem closedGroup_standsAt (i : In) (doomed : Bool) (h : standsAt g k pc w) :
    standsAt (closedGroup i doomed g) k pc w := by
  unfold closedGroup
  have parts : standsAt (if endsWithWord g then endParts g else g) k pc w := by
    split
    · exact endParts_standsAt h
    · exact h
  refine endChunk_standsAt _ (standsAt_of_lanes_eq (endSwitch_standsAt parts) ?_)
  cases doomed <;> rfl

end

/-- Lanes put in their places one by one, by a change that leaves PC and wait. -/
theorem standing_foldl_tput {k : Nat} (place : Nat → Lane) (moved : Nat × Lane → Lane)
    (same : ∀ e, (moved e).pc = e.2.pc ∧ (moved e).wait = e.2.wait) {ls : List Nat} (t : Table Lane) (hk : k ∈ ls) :
    let x := tgetD ((ls.map (fun l => (l, place l))).foldl (fun t e => tput t e.1 (moved e)) t) k {}
    x.pc = (place k).pc ∧ x.wait = (place k).wait := by
  induction ls using List.reverseRecOn with
  | nil => cases hk
  | append_singleton ls l ih =>
    rw [List.map_append, List.map_singleton, List.foldl_append, List.foldl_cons, List.foldl_nil, tgetD_tput]
    split
    case isTrue last => exact last ▸ same (l, place l)
    case isFalse other => exact ih ((List.mem_append.mp hk).resolve_right (by simpa using other))

/-- Each lane of the set takes its place, whatever part it joins. -/
theorem placeLanes_standsAt (i : In) (fates : Table Fate) (g : Group) {k : Nat} (hk : k ∈ i.lanes) :
    standsAt (placeLanes i fates g) k (lanePlaced i (tgetD fates k .next) (laneAt g.regs k)).pc
      (lanePlaced i (tgetD fates k .next) (laneAt g.regs k)).wait := by
  refine standing_foldl_tput (fun l => lanePlaced i (tgetD fates l .next) (laneAt g.regs l)) _ (fun e => ?_) _ hk
  split <;> exact ⟨rfl, rfl⟩

/-- Where a lane of the set stands once the word has ended, if it takes no trap and waits at no mask. -/
theorem finish_standsAt {i : In} {w : Work} (p : Plain i w) : ∃ g, tget (finish i w).groups i.gid = some g ∧
    ∀ k ∈ i.lanes, k ∉ (trapTable w.fates).map (·.1) → ∀ pc wait,
      (lanePlaced i (tgetD w.fates k .next) (laneAt w.g.regs k)).pc = pc →
      (lanePlaced i (tgetD w.fates k .next) (laneAt w.g.regs k)).wait = wait → atMask wait = false →
      standsAt g k pc wait := by
  simp only [finish, p.stall, p.retry, p.kill, Bool.false_eq_true, if_false]
  refine ⟨_, tget_tput_self _ _ _, fun k hk free pc wait hpc hwait unmasked => closedGroup_standsAt _ _ ?_⟩
  subst hpc hwait
  exact releaseMasks_standsAt _ (standsAt_of_lanes_eq (takeTrap_standsAt (placeLanes_standsAt i w.fates w.g hk) free)
    (freeSlot_lanes _)) unmasked

/-! ### Words that only move the lanes (05 R109, 06 R133) -/

/-- Lanes given one fate have no other. -/
theorem fate_of_setFates (f : Fate) (ls : List Nat) : ∀ e ∈ ls.foldl (fun t l => tput t l f) [], e.2 = f := by
  have all := foldl_tput_mem (ls.map (fun l => (l, ()))) [] (fun _ => f) (· = f) nofun fun _ => rfl
  rwa [List.foldl_map] at all

section

variable {ins : Instr} {s : State} {form : Form} {i : In} (h : GroupIssues s form i) (ready : setReady i) (ls : List Nat)

include h ready

/-- A word that releases its sources in the lanes `ls` and gives every lane of its ready set one fate, which moves it to
the next word. -/
theorem goesOn_completes {fates : Table Fate} (f : Fate) {wait : Wait} (only : ∀ e ∈ fates, e.2 = f)
    (all : ∀ k ∈ i.lanes, tgetD fates k .next = f) (stays : f ≠ .leave) (free : ∀ c a, f ≠ .trap c a)
    (placed : ∀ x : Lane, x.wait = .ready → (lanePlaced i f x).pc = i.pc + 4#32 ∧ (lanePlaced i f x).wait = wait)
    (unmasked : atMask wait = false)
    (meaning : exec ins s = .next (finish i { onRegs (issueWork i) (releaseSources i ls) with fates := fates })) :
    Completes ins s i (fun g => (∀ k ∈ i.lanes, standsAt g k (i.pc + 4#32) wait) ∧ FilesKept i g ls ∧ ChunksKept i g ∧
      SpecialsKept i g) := by
  have rel := releaseSources_special i ls i.g.regs
  have plain : Plain i { onRegs (issueWork i) (releaseSources i ls) with fates := fates } :=
    ⟨rfl, rfl, rfl, fun e mem => only e mem ▸ stays, fun _ _ => rfl, rfl, rfl⟩
  have untrapped : trapTable fates = [] := by
    refine List.filterMap_eq_nil_iff.mpr fun e mem => ?_
    rw [only e mem]
    cases f with
    | trap c a => exact absurd rfl (free c a)
    | _ => rfl
  obtain ⟨g, hg, q, rest⟩ := finish_plain h plain
  obtain ⟨g', hg', stands⟩ := finish_standsAt plain
  obtain rfl : g = g' := Option.some.inj (hg.symm.trans hg')
  refine ⟨_, g, meaning, hg, ⟨fun k hk => ?_, ⟨q.v, q.s, q.p⟩, ⟨q.stores, q.tags, ?_, ?_⟩, ⟨q.tiles.trans rel.tiles,
    q.accs.trans rel.accs, q.masks.trans rel.masks, q.unjoined.trans rel.unjoined, ?_⟩⟩, rest⟩
  · have lane : laneAt (releaseSources i ls i.g.regs) k = laneAt i.g.regs k := by rw [laneAt, rel.lanes, laneAt]
    obtain ⟨hpc, hwait⟩ := placed _ (ready k hk)
    rw [← lane, ← all k hk] at hpc hwait
    exact stands k hk (by simp [untrapped]) _ _ hpc hwait unmasked
  · rw [q.effs, List.append_nil]
    rfl
  · rw [q.flights, List.append_nil]
    rfl
  · rw [q.trap]
    simp only [onRegs, issueWork, startWork, rel.trap]

theorem retires_completes (meaning : exec ins s = .next (finish i (onRegs (issueWork i) (releaseSources i ls)))) :
    Completes ins s i (fun g => (∀ k ∈ i.lanes, standsAt g k (i.pc + 4#32) .ready) ∧ FilesKept i g ls ∧ ChunksKept i g ∧
      SpecialsKept i g) :=
  goesOn_completes h ready ls (fates := []) .next nofun (fun _ _ => rfl) nofun nofun (fun _ hx => ⟨rfl, hx⟩) rfl meaning

theorem dozes_completes (till : Nat) (meaning : exec ins s =
      .next (finish i (setFates (onRegs (issueWork i) (releaseSources i ls)) i.lanes (.doze till)))) :
    Completes ins s i (fun g => (∀ k ∈ i.lanes, standsAt g k (i.pc + 4#32) (.sleep till)) ∧ FilesKept i g ls ∧
      ChunksKept i g ∧ SpecialsKept i g) :=
  goesOn_completes h ready ls (.doze till) (fate_of_setFates _ i.lanes) (fun _ hk => tgetD_foldl_tput_of_mem _ _ _ hk)
    nofun nofun (fun _ _ => ⟨rfl, rfl⟩) rfl meaning

end

/-- NOP and YIELD have no sources, so that their work is that of a word that releases none. -/
theorem exec_idle {ins : Instr} {f : Form} (op : IdleOp ins f) {s : State} {i : In} (h : GroupIssues s f i) :
    exec ins s = .next (finish i (onRegs (issueWork i) (releaseSources i []))) := by
  have unchanged : releaseSources i [] i.g.regs = i.g.regs := by
    cases op <;> exact released_of_no_sources h [] rfl rfl rfl rfl
  have same : onRegs (issueWork i) (releaseSources i []) = issueWork i :=
    congrArg (fun c => onRegs (issueWork i) fun _ => c) unchanged
  rw [same]
  cases op with
  | nop => exact groupOrControl_next h _ _
  | yield => exact groupOnly_next h _

end Sys2Proof.Machine

namespace Sys2Proof

open Sys2Proof.Machine

/-- Settles O31: NOP, YIELD and a SLEEP of no cycles retire; any other SLEEP gives each lane of its set the fate to doze. -/
theorem nopYieldAndSleep : Obligations.NopYieldAndSleep := by
  refine ⟨fun ins f op s i issues ready => ?idle, fun sw x s i issues ready => ?sleep⟩
  case idle => exact retires_completes issues ready [] (exec_idle op issues)
  case sleep =>
    intro n
    have meaning : exec (.sleep sw x) s = .next (finish i
        (let w := onRegs (issueWork i) (releaseSources i i.act)
        if n = 0 then w else setFates w i.lanes (.doze (i.s.cycle + n)))) := groupOnly_next issues _
    rw [← groupIssues_cycle issues]
    by_cases zero : n = 0
    · rw [if_pos zero] at meaning ⊢
      exact retires_completes issues ready i.act meaning
    · rw [if_neg zero] at meaning ⊢
      exact dozes_completes issues ready i.act _ meaning

end Sys2Proof
end

section
/-! SUPPORT. Branches of a control core: the target of the model is that of the statements, and a branch does the work of a
jump or moves to the next word (06 R117, R118, 04 R85, R89, 07 R135). -/

namespace Sys2Proof.Machine

open Sys2Proof

theorem branchTarget_eq (pc : Word) (o : BitVec 19) : branchTarget pc o = targetOf pc o := by
  rw [branchTarget, targetOf, BitVec.ofInt_add, BitVec.ofInt_natCast, BitVec.ofNat_toNat, BitVec.setWidth_eq]

theorem ctlTarget_iff (i : CIn) (t : Word) : ctlTarget i t = true ↔ t.toNat % 4 = 0 ∧ t.toNat + 4 ≤ i.ctl.size := by
  simp [ctlTarget]

/-- A branch of a control core does the work of a jump where it branches, else it moves to the next word. -/
theorem exec_controlBranch {ins : Instr} {f : Form} {s : State} {c : Nat} {take : Ctl → Bool} {target : Ctl → Word}
    {links : Bool} (op : ControlBranch ins f s.issue.pc take target links) (h : ControlIssues s f c) :
    exec ins s = .next (controlDone s c (if take (ctlAt s c) then ctlJump (controlIn s c f) (target (ctlAt s c)) links
      else { ctl := ctlNext (controlIn s c f) })) := by
  cases op with
  | br | brt | brf | call =>
    simp only [← branchTarget_eq]
    exact groupOrControl_done h
  | jr | callr | ret => exact groupOrControl_done h

end Sys2Proof.Machine

namespace Sys2Proof

open Sys2Proof.Machine

/-- Settles O24: by whether the core branches and whether its target is one, the work of the branch is a move to the next
word, a move to the target with its link, or a stop. -/
theorem controlCoreBranches : Obligations.ControlCoreBranches := by
  intro s ins f take target links op c issues k t
  have meaning := exec_controlBranch op issues
  have legal := ctlTarget_iff (controlIn s c f) t
  refine ⟨fun stays => ?_, fun goes aligned inside => ?_, fun goes bad => ?_⟩
  · rw [meaning, if_neg (ne_true_of_eq_false stays)]
    rfl
  · rw [meaning, if_pos goes, ctlJump, if_pos (legal.mpr ⟨aligned, inside⟩)]
    cases links <;> rfl
  · rw [meaning, if_pos goes, ctlJump, if_neg (mt legal.mp bad)]
    simp only [controlDone, if_true, stopAtWord, issues.route, Option.isSome_none, Bool.false_eq_true, if_false]

end Sys2Proof
end

section
/-! SUPPORT. The lanes of a group at the end of any word, those that end threads included: where placing, the evaluation of
masks and the end of the chunk leave each lane, in which issue set, and what the rest of the device is (06 R111, R122,
R131, 08 R172). -/

namespace Sys2Proof.Machine

open Sys2Proof

/-! ### Tables of lanes -/

theorem mem_of_mem_tput {α : Type} {t : Table α} {k : Nat} {a : α} {e : Nat × α} (h : e ∈ tput t k a) :
    e = (k, a) ∨ e ∈ t := by
  induction t with
  | nil => exact .inl (List.mem_singleton.mp h)
  | cons x rest ih =>
    simp only [tput] at h
    split at h
    · exact List.mem_cons.mp h
    · split at h
      · exact (List.mem_cons.mp h).imp_right (List.mem_cons_of_mem _)
      · rcases List.mem_cons.mp h with first | later
        · exact .inr (List.mem_cons.mpr (.inl first))
        · exact (ih later).imp_right (List.mem_cons_of_mem _)

theorem mem_of_tget {α : Type} {t : Table α} {k : Nat} {a : α} (h : tget t k = some a) : (k, a) ∈ t := by
  induction t with
  | nil => cases h
  | cons x rest ih =>
    simp only [tget] at h
    split at h
    case isTrue same => exact List.mem_cons.mpr (.inl (Prod.ext same.symm (Option.some.inj h).symm))
    case isFalse => exact List.mem_cons_of_mem _ (ih h)

/-- Keys put one by one, each with its own entry. -/
theorem tget_foldl_tput {α : Type} (f : Nat → α) (ks : List Nat) (t : Table α) (k : Nat) :
    tget (ks.foldl (fun t k => tput t k (f k)) t) k = if k ∈ ks then some (f k) else tget t k := by
  induction ks using List.reverseRecOn with
  | nil => rfl
  | append_singleton ks j ih =>
    rw [List.foldl_append, List.foldl_cons, List.foldl_nil, tget_tput, ih]
    by_cases same : k = j
    · simp [same]
    · simp [same]

theorem mem_foldl_tput {α : Type} (f : Nat → α) (ks : List Nat) {e : Nat × α} :
    e ∈ ks.foldl (fun t k => tput t k (f k)) [] ↔ e.1 ∈ ks ∧ e.2 = f e.1 := by
  constructor
  · refine ks.foldlRecOn (motive := fun t => e ∈ t → e.1 ∈ ks ∧ e.2 = f e.1) _ nofun fun t known k hk mem => ?_
    rcases mem_of_mem_tput mem with rfl | earlier
    · exact ⟨hk, rfl⟩
    · exact known earlier
  · intro ⟨listed, value⟩
    refine mem_of_tget (k := e.1) ?_
    rw [tget_foldl_tput, if_pos listed, value]

theorem laneAt_setLane (c : GroupCore) (l k : Nat) (x : Lane) :
    laneAt (setLane c l x) k = if k = l then x else laneAt c k := tgetD_tput _ _ _ _ _

/-- A change of every lane, seen where a lane of its own stands. -/
theorem laneAt_tmap_of_tget {c : GroupCore} {k : Nat} {x : Lane} (h : tget c.lanes k = some x) (f : Nat → Lane → Lane) :
    laneAt { c with lanes := tmap c.lanes f } k = f k x := by
  simp only [laneAt, tgetD, tget_tmap, h, Option.map_some, Option.getD_some]

/-- A change of every lane, as far as it leaves what `view` shows of one. -/
theorem view_laneAt_tmap {α : Type} (view : Lane → α) (c : GroupCore) (f : Nat → Lane → Lane) (k : Nat)
    (same : ∀ x, view (f k x) = view x) : view (laneAt { c with lanes := tmap c.lanes f } k) = view (laneAt c k) := by
  cases found : tget c.lanes k with
  | none => simp only [laneAt, tgetD, tget_tmap, found, Option.map_none]
  | some x =>
    rw [laneAt_tmap_of_tget found, same]
    simp only [laneAt, tgetD, found, Option.getD_some]

/-- A lane that waits has an entry of its own. -/
theorem tget_of_waits {c : GroupCore} {k : Nat} (h : (laneAt c k).wait ≠ .ready) : tget c.lanes k = some (laneAt c k) := by
  cases found : tget c.lanes k with
  | none => exact absurd (by simp only [laneAt, tgetD, found, Option.getD_none]) h
  | some x => simp only [laneAt, tgetD, found, Option.getD_some]

/-! ### Placing the lanes of the set (06 R111) -/

/-- A lane put into an issue set. -/
def inSet (x : Lane) (n : Nat) : Lane := { x with set := n }

/-- The lane that a word leaves in the place of lane k of its set, its issue set aside. -/
def placedAt (i : In) (fates : Table Fate) (g : Group) (k : Nat) : Lane :=
  lanePlaced i (tgetD fates k .next) (laneAt g.regs k)

theorem placedAt_set (i : In) (fates : Table Fate) (g : Group) (k : Nat) :
    (placedAt i fates g k).set = (laneAt g.regs k).set := by
  unfold placedAt
  cases tgetD fates k .next with
  | hold w => cases w <;> rfl
  | _ => rfl

theorem tget_foldl_moved (place : Nat → Lane) (moved : Nat × Lane → Lane) (ks : List Nat) (t : Table Lane) (k : Nat) :
    tget ((ks.map fun l => (l, place l)).foldl (fun t e => tput t e.1 (moved e)) t) k =
      if k ∈ ks then some (moved (k, place k)) else tget t k := by
  rw [List.foldl_map]
  exact tget_foldl_tput (fun l => moved (l, place l)) ks t k

theorem tget_placeLanes_of_mem {i : In} {k : Nat} (fates : Table Fate) (g : Group) (h : k ∈ i.lanes) :
    ∃ n, (n = (laneAt g.regs k).set ∨ g.nextSet ≤ n) ∧
      tget (placeLanes i fates g).regs.lanes k = some (inSet (placedAt i fates g k) n) := by
  suffices moves : ∃ x, (x = placedAt i fates g k ∨ ∃ n, g.nextSet ≤ n ∧ x = inSet (placedAt i fates g k) n) ∧
      tget (placeLanes i fates g).regs.lanes k = some x by
    obtain ⟨x, rfl | ⟨n, fresh, rfl⟩, found⟩ := moves
    · exact ⟨_, .inl (placedAt_set i fates g k), found⟩
    · exact ⟨n, .inr fresh, found⟩
  refine ⟨_, ?_, (tget_foldl_moved (placedAt i fates g) _ i.lanes g.regs.lanes k).trans (if_pos h)⟩
  dsimp only
  split
  · exact .inr ⟨_, Nat.le_add_right _ _, rfl⟩
  · exact .inl rfl

theorem laneAt_placeLanes_of_not_mem {i : In} {k : Nat} (fates : Table Fate) (g : Group) (h : k ∉ i.lanes) :
    laneAt (placeLanes i fates g).regs k = laneAt g.regs k := by
  refine congrArg (fun found : Option Lane => found.getD {}) ?_
  exact (tget_foldl_moved (placedAt i fates g) _ i.lanes g.regs.lanes k).trans (if_neg h)

theorem laneAt_placeLanes_of_mem {i : In} {k : Nat} (fates : Table Fate) (g : Group) (h : k ∈ i.lanes) :
    ∃ n, (n = (laneAt g.regs k).set ∨ g.nextSet ≤ n) ∧
      laneAt (placeLanes i fates g).regs k = inSet (placedAt i fates g k) n := by
  obtain ⟨n, bound, found⟩ := tget_placeLanes_of_mem fates g h
  exact ⟨n, bound, by simp only [laneAt, tgetD, found, Option.getD_some]⟩

/-! ### The evaluation of masks (06 R122, R126) -/

/-- Lane j waits at an MWAIT of mask k, after which it goes on at `after`, and is not in its handler. -/
def Awaits (c : GroupCore) (k j : Nat) (after : Word) : Prop :=
  (laneAt c j).handler = false ∧ ∃ ends sw, (laneAt c j).wait = .mask k after ends sw

/-- Mask k has members and every one of them waits at it. -/
def Gathered (c : GroupCore) (k : Nat) : Prop :=
  lanesOf (tgetD c.masks k 0#64) 64 ≠ [] ∧ ∀ j ∈ lanesOf (tgetD c.masks k 0#64) 64, ∃ after, Awaits c k j after

theorem mem_lanesOf {m : LaneMask} {j : Nat} : j ∈ lanesOf m 64 ↔ m.getLsbD j = true := by
  simp only [lanesOf, upto, List.mem_filter, List.mem_range]
  exact and_iff_right_of_imp BitVec.lt_of_getLsbD

theorem gathered_iff (c : GroupCore) (k : Nat) : Gathered c k ↔
    (!(lanesOf (tgetD c.masks k 0#64) 64).isEmpty && (lanesOf (tgetD c.masks k 0#64) 64).all fun j =>
      !(laneAt c j).handler && (match (laneAt c j).wait with
        | .mask k' _ _ _ => k' == k
        | _ => false)) = true := by
  rw [Gathered, Bool.and_eq_true, List.all_eq_true]
  refine and_congr (by simp) (forall₂_congr fun j _ => ?_)
  cases waits : (laneAt c j).wait <;> simp [Awaits, waits]

theorem releaseMask_of_not_gathered {g : Group} {k : Nat} (q : Nat) (h : ¬Gathered g.regs k) : releaseMask q g k = g := by
  rw [gathered_iff] at h
  exact if_neg h

/-- What a gathered mask makes of a member: it goes on after its MWAIT, in a fresh issue set. -/
theorem releaseMask_member {g : Group} {k j : Nat} {after : Word} {ends sw : Bool} (q : Nat) (h : Gathered g.regs k)
    (member : j ∈ lanesOf (tgetD g.regs.masks k 0#64) 64) (waits : (laneAt g.regs j).wait = .mask k after ends sw) :
    ∃ n, g.nextSet ≤ n ∧ laneAt (releaseMask q g k).regs j =
      inSet (retire q { laneAt g.regs j with wait := .ready } after ends sw) n := by
  have found := tget_of_waits (c := g.regs) (k := j) (by rw [waits]; nofun)
  unfold releaseMask
  dsimp only
  split
  case isFalse stays => exact absurd ((gathered_iff _ _).mp h) stays
  case isTrue =>
    generalize laneAt g.regs j = x at found waits ⊢
    generalize lanesOf (tgetD g.regs.masks k 0#64) 64 = members at member ⊢
    simp only [laneAt, tgetD, splitSets, tget_tmap, found, Option.map_some, Option.getD_some, List.contains_iff_mem, member,
      if_true, waits]
    exact ⟨_, Nat.le_add_right _ _, rfl⟩

theorem releaseMask_other {g : Group} {k j : Nat} (q : Nat) (other : j ∉ lanesOf (tgetD g.regs.masks k 0#64) 64) :
    laneAt (releaseMask q g k).regs j = laneAt g.regs j := by
  unfold releaseMask
  dsimp only
  split
  case isFalse => rfl
  case isTrue =>
    refine (view_laneAt_tmap id { g.regs with lanes := _ } _ j fun x => ?_).trans
      (view_laneAt_tmap id g.regs _ j fun x => ?_) <;>
      simp only [List.contains_iff_mem, other, if_false, id_eq]

theorem releaseMask_nextSet (q : Nat) (g : Group) (k : Nat) : g.nextSet ≤ (releaseMask q g k).nextSet := by
  unfold releaseMask
  dsimp only
  split
  · exact Nat.le_add_right _ _
  · exact Nat.le_refl _

/-- What the evaluation of mask k can make of lane j: nothing, or it goes on after its MWAIT of that mask. -/
theorem releaseMask_lane (q : Nat) (g : Group) (k j : Nat) :
    laneAt (releaseMask q g k).regs j = laneAt g.regs j ∨ ∃ after ends sw n,
      (laneAt g.regs j).wait = .mask k after ends sw ∧ g.nextSet ≤ n ∧ laneAt (releaseMask q g k).regs j =
        inSet (retire q { laneAt g.regs j with wait := .ready } after ends sw) n := by
  by_cases h : Gathered g.regs k
  case neg => exact .inl (by rw [releaseMask_of_not_gathered q h])
  case pos =>
    by_cases member : j ∈ lanesOf (tgetD g.regs.masks k 0#64) 64
    case neg => exact .inl (releaseMask_other q member)
    case pos =>
      obtain ⟨after, -, ends, sw, waits⟩ := h.2 j member
      obtain ⟨n, fresh, gone⟩ := releaseMask_member q h member waits
      exact .inr ⟨after, ends, sw, n, waits, fresh, gone⟩

/-- A lane that waits at another mask, or at none, stays. -/
theorem releaseMask_lane_of_not_waiting {g : Group} {k j : Nat} (q : Nat)
    (h : ∀ after ends sw, (laneAt g.regs j).wait ≠ .mask k after ends sw) :
    laneAt (releaseMask q g k).regs j = laneAt g.regs j := by
  obtain same | ⟨after, ends, sw, -, waits, -⟩ := releaseMask_lane q g k j
  · exact same
  · exact absurd waits (h after ends sw)

/-- Once all members of a mask wait at it, the evaluation of the masks lets every one of them go on. -/
theorem releaseMasks_standsAt_of_gathered (q : Nat) {k : Nat} (hk : k < 12) {g : Group} (h : Gathered g.regs k)
    {j : Nat} (member : j ∈ lanesOf (tgetD g.regs.masks k 0#64) 64) {after : Word} (waits : Awaits g.regs k j after) :
    standsAt (releaseMasks q g) j after .ready := by
  have listed : k ∈ upto 12 := List.mem_range.mpr hk
  unfold releaseMasks
  generalize upto 12 = ks at listed
  induction ks generalizing g with
  | nil => cases listed
  | cons m rest ih =>
    rw [List.foldl_cons]
    by_cases same : m = k
    · subst same
      obtain ⟨-, ends, sw, wait⟩ := waits
      obtain ⟨n, -, gone⟩ := releaseMask_member q h member wait
      have stands : standsAt (releaseMask q g m) j after .ready := by rw [standsAt, gone]; exact ⟨rfl, rfl⟩
      exact rest.foldlRecOn (motive := fun b => standsAt b j after .ready) _ stands
        fun _ hb m _ => releaseMask_standsAt q m hb rfl
    · have masks := (releaseMask_quiet q g m).masks
      have lane {l : Nat} {a : Word} (w : Awaits g.regs k l a) : laneAt (releaseMask q g m).regs l = laneAt g.regs l := by
        obtain ⟨-, ends, sw, wait⟩ := w
        refine releaseMask_lane_of_not_waiting q fun a' ends' sw' there => same ?_
        exact (Wait.mask.inj (there.symm.trans wait)).1
      have still {l : Nat} {a : Word} (w : Awaits g.regs k l a) : Awaits (releaseMask q g m).regs k l a := by
        rw [Awaits, lane w]
        exact w
      refine ih ⟨masks ▸ h.1, fun l hl => ?_⟩ (masks ▸ member) (still waits)
        ((List.mem_cons.mp listed).resolve_left (Ne.symm same))
      exact (h.2 l (masks ▸ hl)).imp fun _ => still

/-- While a member of mask k does not wait at it, the lanes that do keep waiting. -/
theorem releaseMasks_lane_of_held (q : Nat) {g : Group} {k j l : Nat} {after : Word} {ends sw : Bool}
    (member : l ∈ lanesOf (tgetD g.regs.masks k 0#64) 64) (absent : ∀ a, ¬Awaits g.regs k l a)
    (waits : (laneAt g.regs j).wait = .mask k after ends sw) : laneAt (releaseMasks q g).regs j = laneAt g.regs j := by
  have kept := (upto 12).foldlRecOn (motive := fun b => b.regs.masks = g.regs.masks ∧ (∀ a, ¬Awaits b.regs k l a) ∧
    laneAt b.regs j = laneAt g.regs j) (fun b m => releaseMask q b m) ⟨rfl, absent, rfl⟩
    fun b ⟨masks, gone, lane⟩ m _ => ?_
  · exact kept.2.2
  · refine ⟨(releaseMask_quiet q b m).masks.trans masks, fun a ⟨handler, wait⟩ => ?_, ?_⟩
    · obtain same | ⟨_, _, _, _, _, _, let_go⟩ := releaseMask_lane q b m l
      · rw [same] at handler wait
        exact gone a ⟨handler, wait⟩
      · rw [let_go] at wait
        obtain ⟨_, _, wait⟩ := wait
        cases wait
    · by_cases same : m = k
      · subst same
        rw [releaseMask_of_not_gathered q fun h => ?_, lane]
        exact (h.2 l (masks ▸ member)).elim gone
      · rw [releaseMask_lane_of_not_waiting q fun a ends' sw' there => same ?_, lane]
        rw [lane] at there
        exact (Wait.mask.inj (there.symm.trans waits)).1

/-! ### Issue sets of their own (06 R122) -/

/-- Group b leaves lane j in the set that it has in group a, and puts other lanes into sets of fresh numbers only. -/
structure Regroups (j : Nat) (a b : Group) : Prop where
  lane : (laneAt b.regs j).set = (laneAt a.regs j).set
  next : a.nextSet ≤ b.nextSet
  others : ∀ k, (laneAt b.regs k).set = (laneAt a.regs k).set ∨ a.nextSet ≤ (laneAt b.regs k).set

theorem Regroups.refl (j : Nat) (a : Group) : Regroups j a a := ⟨rfl, Nat.le_refl _, fun _ => .inl rfl⟩

theorem Regroups.trans {j : Nat} {a b c : Group} (h : Regroups j a b) (k : Regroups j b c) : Regroups j a c where
  lane := k.lane.trans h.lane
  next := h.next.trans k.next
  others := fun n => by
    rcases k.others n with same | fresh
    · rw [same]
      exact h.others n
    · exact .inr (h.next.trans fresh)

/-- No other of the lanes `live` is in the issue set of lane j, and none of a fresh number will be. -/
structure Alone (live : List Nat) (g : Group) (j : Nat) : Prop where
  numbered : (laneAt g.regs j).set < g.nextSet
  others : ∀ k ∈ live, k ≠ j → (laneAt g.regs k).set ≠ (laneAt g.regs j).set

theorem Alone.regroups {live : List Nat} {a b : Group} {j : Nat} (h : Alone live a j) (r : Regroups j a b) :
    Alone live b j where
  numbered := r.lane ▸ h.numbered.trans_le r.next
  others := fun k hk other => by
    rw [r.lane]
    rcases r.others k with same | fresh
    · rw [same]
      exact h.others k hk other
    · exact (h.numbered.trans_le fresh).ne'

theorem placeLanes_regroups {i : In} {j : Nat} (fates : Table Fate) (g : Group) (h : j ∉ i.lanes) :
    Regroups j g (placeLanes i fates g) := by
  refine ⟨by rw [laneAt_placeLanes_of_not_mem fates g h], Nat.le_add_right _ _, fun k => ?_⟩
  by_cases hk : k ∈ i.lanes
  · obtain ⟨n, bound, lane⟩ := laneAt_placeLanes_of_mem fates g hk
    rw [lane]
    exact bound
  · exact .inl (by rw [laneAt_placeLanes_of_not_mem fates g hk])

/-- A lane that waits at no mask stays, in its own set, through the evaluation of all masks. -/
theorem releaseMasks_regroups (q : Nat) {g : Group} {j : Nat} (h : atMask (laneAt g.regs j).wait = false) :
    Regroups j g (releaseMasks q g) := by
  refine ((upto 12).foldlRecOn (motive := fun b => laneAt b.regs j = laneAt g.regs j ∧ Regroups j g b)
    (fun b m => releaseMask q b m) ⟨rfl, .refl j g⟩ fun b ⟨lane, known⟩ m _ => ?_).2
  have stays : laneAt (releaseMask q b m).regs j = laneAt b.regs j :=
    releaseMask_lane_of_not_waiting q fun a e sw wait => by
      rw [lane] at wait
      rw [wait] at h
      cases h
  refine ⟨stays.trans lane, known.trans ⟨by rw [stays], releaseMask_nextSet q b m, fun k => ?_⟩⟩
  obtain same | ⟨a, e, sw, n, -, fresh, gone⟩ := releaseMask_lane q b m k
  · exact .inl (by rw [same])
  · exact .inr (by rw [gone]; exact fresh)

/-! ### The end of the chunk -/

/-- Whether a thread lives, and in which issue set. -/
def threadOf (x : Lane) : LaneStatus × Nat := (x.status, x.set)

theorem endParts_threadOf (g : Group) (k : Nat) : threadOf (laneAt (endParts g).regs k) = threadOf (laneAt g.regs k) :=
  view_laneAt_tmap threadOf g.regs _ k fun x => by split <;> rfl

theorem endSwitch_threadOf (c : GroupCore) (k : Nat) : threadOf (laneAt (endSwitch c) k) = threadOf (laneAt c k) := by
  unfold endSwitch
  split
  · rfl
  · exact view_laneAt_tmap threadOf c _ k fun x => by split <;> rfl

theorem endChunk_threadOf (cycle : Nat) (g : Group) (k : Nat) :
    threadOf (laneAt (endChunk cycle g).regs k) = threadOf (laneAt g.regs k) := by
  unfold endChunk
  split
  · rfl
  · split
    · exact view_laneAt_tmap threadOf g.regs _ k fun _ => rfl
    · rfl

theorem closedGroup_threadOf (i : In) (doomed : Bool) (g : Group) (k : Nat) :
    threadOf (laneAt (closedGroup i doomed g).regs k) = threadOf (laneAt g.regs k) := by
  have parts : threadOf (laneAt (if endsWithWord g then endParts g else g).regs k) = threadOf (laneAt g.regs k) := by
    split
    · exact endParts_threadOf g k
    · rfl
  refine (endChunk_threadOf _ _ k).trans (Eq.trans ?_ ((endSwitch_threadOf _ k).trans parts))
  cases doomed <;> rfl

/-! ### The end of a word, threads that end included (06 R131) -/

/-- The lanes whose threads a word ends. -/
def leavers (fates : Table Fate) : List Nat := (fates.filter (fun e => e.2 == .leave)).map (·.1)

/-- The group that a word's meaning has made, where the threads that it ends are members of no mask. -/
def departed (w : Work) : Group := { w.g with regs := leaveMasks (leavers w.fates) w.g.regs }

/-- The group once the lanes of the word's set have their places, before masks are evaluated. -/
def beforeRelease (i : In) (w : Work) (causes : Table Nat) (win : Option Nat) : Group :=
  let g := takeTrap (placeLanes i w.fates w.g) i.lanes (trapTable w.fates) i.runPc (i.pc + 4#32) w.illegal causes win
  { g with regs := freeSlot (leaveMasks (leavers w.fates) g.regs), running := turnKept i g }

theorem placedGroup_eq (i : In) (w : Work) (causes : Table Nat) (win : Option Nat) :
    placedGroup i w causes win = releaseMasks i.l.chunkq (beforeRelease i w causes win) := rfl

theorem Quiet.leaveMasks {a b : Group} (h : Quiet a b) (ls : List Nat) :
    Quiet { a with regs := Machine.leaveMasks ls a.regs } { b with regs := Machine.leaveMasks ls b.regs } :=
  ⟨h.v, h.s, h.p, h.tiles, h.accs, congrArg (tmap · fun _ m => m &&& ~~~(maskOf ls)) h.masks, h.unjoined, h.trap, h.place,
    h.flights, h.stores, h.tags, h.effs⟩

theorem beforeRelease_quiet (i : In) (w : Work) (causes : Table Nat) (win : Option Nat) :
    Quiet (departed w) (beforeRelease i w causes win) :=
  (((placeLanes_quiet i w.fates w.g).trans (takeTrap_quiet _ _ _ _ _ _ _ _)).leaveMasks (leavers w.fates)).trans
    ((freeSlot_quiet _ _ (.refl _)).trans (setRunning_quiet _ _))

section

variable {i : In} {w : Work} {causes : Table Nat} {win : Option Nat}

theorem beforeRelease_lanes : (beforeRelease i w causes win).regs.lanes = (takeTrap (placeLanes i w.fates w.g) i.lanes
    (trapTable w.fates) i.runPc (i.pc + 4#32) w.illegal causes win).regs.lanes :=
  freeSlot_lanes _

variable (untrapped : trapTable w.fates = []) {k : Nat}

include untrapped

theorem laneAt_beforeRelease :
    laneAt (beforeRelease i w causes win).regs k = laneAt (placeLanes i w.fates w.g).regs k := by
  rw [laneAt, beforeRelease_lanes, untrapped]
  rfl

theorem laneAt_beforeRelease_of_mem (h : k ∈ i.lanes) :
    ∃ n, laneAt (beforeRelease i w causes win).regs k = inSet (placedAt i w.fates w.g k) n := by
  obtain ⟨n, -, lane⟩ := laneAt_placeLanes_of_mem w.fates w.g h
  exact ⟨n, (laneAt_beforeRelease untrapped).trans lane⟩

theorem laneAt_beforeRelease_of_not_mem (h : k ∉ i.lanes) :
    laneAt (beforeRelease i w causes win).regs k = laneAt w.g.regs k :=
  (laneAt_beforeRelease untrapped).trans (laneAt_placeLanes_of_not_mem w.fates w.g h)

theorem beforeRelease_regroups (h : k ∉ i.lanes) : Regroups k w.g (beforeRelease i w causes win) := by
  have placed := placeLanes_regroups w.fates w.g h
  have next : (beforeRelease i w causes win).nextSet = (placeLanes i w.fates w.g).nextSet := by
    rw [beforeRelease, untrapped]
    rfl
  refine ⟨?_, next ▸ placed.next, fun n => ?_⟩ <;> rw [laneAt_beforeRelease untrapped]
  · exact placed.lane
  · exact placed.others n

end

/-- THE LAW OF A GROUP'S WORD, one that ends threads included: the group is the one that the meaning made, but for the
places of its lanes and the masks that the ended threads leave; the rest of the device is as it was. -/
theorem finish_law {s : State} {f : Form} {i : In} (h : GroupIssues s f i) {w : Work}
    (p : Plain i { w with fates := [] }) :
    ∃ doomed causes win, ∃ g, g = closedGroup i doomed (releaseMasks i.l.chunkq (beforeRelease i w causes win)) ∧
      tget (finish i w).groups i.gid = some g ∧ Quiet (departed w) g ∧ RestKept s (finish i w) i g := by
  have facts := groupIssues_facts h
  have stall : w.stall = false := p.stall
  have retry : w.retry = false := p.retry
  have kill : w.kill = false := p.kill
  simp only [finish, stall, retry, kill, Bool.false_eq_true, if_false]
  generalize List.map (fun e => (e.1, tgetD w.causes e.1 0)) ((trapTable w.fates).filter fun e => fpCause e.2.1) = causes
  generalize (handlerTraps w.g (trapTable w.fates) || handlerWaits w.g w.fates) = doomed
  have regs (fp handled : Bool) (n : Nat) (hn : n ≠ 9) : teamReg (enterWindow i.s.cycle i.l
      (if w.hazard = true then bumpTeam w.t 9 1 else w.t) fp handled).1 n = teamReg i.t n := by
    rw [enterWindow_regs, hazardTeam_reg _ _ _ hn, p.team n hn]
  generalize handlerOf w.g (if w.hazard = true then bumpTeam w.t 9 1 else w.t) i.l = handler
  have kept := regs (!causes.isEmpty) handler.isSome
  generalize enterWindow i.s.cycle i.l (if w.hazard = true then bumpTeam w.t 9 1 else w.t) (!causes.isEmpty)
    handler.isSome = win at kept ⊢
  have quiet := ((beforeRelease_quiet i w causes win.2).trans (releaseMasks_quiet i.l.chunkq _)).trans
    (closedGroup_quiet i doomed _)
  refine ⟨doomed, causes, win.2, _, rfl, tget_tput_self _ _ _, quiet, ?_⟩
  have outer := putBack_outer i w (closedGroup i doomed (placedGroup i w causes win.2)) win.1 p.core
    (by rw [facts.teams]; exact facts.team) kept
  exact ⟨outer.device.trans facts.device, outer.cores.trans facts.cores,
    fun k other => (outer.groups k other).trans (by rw [facts.groups]),
    fun k n hn => (outer.teams k n hn).trans (by rw [facts.teams]), quiet.place.trans p.standing⟩

theorem departed_of_no_leavers {w : Work} (h : leavers w.fates = []) : departed w = w.g := by
  rw [departed, h, leaveMasks_nil]

end Sys2Proof.Machine
end

section
/-! SUPPORT. Branches of a group: the fates that a jump gives its lanes, where they stand after it, and the registers that
it links and releases (06 R117, R119, 03 R56). -/

namespace Sys2Proof.Machine

open Sys2Proof

/-! ### Lanes that a trap parks (06 R127) -/

theorem takeTrap_parked {g : Group} {ls : List Nat} {traps : Table (Nat × Word)} {runPc after : Word} {nd : Bool}
    {cs : Table Nat} {win : Option Nat} {k : Nat} {x : Lane} (found : tget g.regs.lanes k = some x)
    (trapped : k ∈ traps.map (·.1)) : standsAt (takeTrap g ls traps runPc after nd cs win) k runPc .parked := by
  unfold takeTrap
  split
  · cases trapped
  · simp only [standsAt, laneAt, tgetD, tget_tmap, found, Option.map_some, Option.getD_some, List.contains_iff_mem, trapped,
      if_true, and_self]

/-- A lane of the set whose fate is a trap stands parked at the first word of the run. -/
theorem finish_parked {s : State} {f : Form} {i : In} (h : GroupIssues s f i) {w : Work}
    (p : Plain i { w with fates := [] }) {g : Group} (hg : tget (finish i w).groups i.gid = some g)
    {k : Nat} (hk : k ∈ i.lanes)
    (trapped : k ∈ (trapTable w.fates).map (·.1)) : standsAt g k i.runPc .parked := by
  obtain ⟨doomed, causes, win, g', rfl, hg', -, -⟩ := finish_law h p
  obtain rfl : g = _ := Option.some.inj (hg.symm.trans hg')
  obtain ⟨n, -, found⟩ := tget_placeLanes_of_mem w.fates w.g hk
  exact closedGroup_standsAt _ _ (releaseMasks_standsAt _
    (standsAt_of_lanes_eq (takeTrap_parked found trapped) beforeRelease_lanes) rfl)

/-! ### Jumps -/

/-- The fate of a lane that branches. -/
def jumpFate (i : In) (target : Nat → Word) (k : Nat) : Fate :=
  if inText i.l (target k) then .goto (target k) else .trap 1 (target k)

/-- The fates that a jump gives. -/
def jumpFates (i : In) (taken : List Nat) (target : Nat → Word) : Table Fate :=
  taken.foldl (fun t k => tput t k (jumpFate i target k)) []

theorem jumpLanes_eq (i : In) (taken : List Nat) (target : Nat → Word) (w : Work) (first : w.fates = []) :
    jumpLanes i taken target w = { w with fates := jumpFates i taken target } := by
  induction taken using List.reverseRecOn with
  | nil => rw [jumpFates, List.foldl_nil, ← first]; rfl
  | append_singleton ks k ih =>
    have last (ks : List Nat) : jumpLanes i (ks ++ [k]) target w =
        setFates (jumpLanes i ks target w) [k] (jumpFate i target k) := by
      simp only [jumpLanes, List.foldl_append]
      rfl
    rw [last, ih, jumpFates, jumpFates, List.foldl_append]
    rfl

variable {i : In} {taken : List Nat} {target : Nat → Word}

theorem mem_jumpFates {e : Nat × Fate} : e ∈ jumpFates i taken target ↔ e.1 ∈ taken ∧ e.2 = jumpFate i target e.1 :=
  mem_foldl_tput _ _

theorem tgetD_jumpFates (k : Nat) :
    tgetD (jumpFates i taken target) k .next = if k ∈ taken then jumpFate i target k else .next := by
  rw [tgetD, jumpFates, tget_foldl_tput]
  split <;> rfl

theorem jumpFates_stay : ∀ e ∈ jumpFates i taken target, e.2 ≠ .leave := by
  intro e mem
  rw [(mem_jumpFates.mp mem).2, jumpFate]
  split <;> nofun

theorem mem_arriving {k : Nat} : k ∈ arriving i taken target ↔ k ∈ taken ∧ inText i.l (target k) = true := List.mem_filter

/-- The lanes that trap are those that branch and do not arrive. -/
theorem mem_trapTable_jumpFates {k : Nat} : k ∈ (trapTable (jumpFates i taken target)).map (·.1) ↔
    k ∈ taken ∧ k ∉ arriving i taken target := by
  simp only [mem_arriving, not_and, trapTable, List.mem_map, List.mem_filterMap]
  constructor
  · rintro ⟨x, ⟨e, mem, trap⟩, rfl⟩
    obtain ⟨listed, value⟩ := mem_jumpFates.mp mem
    rw [value, jumpFate] at trap
    by_cases legal : inText i.l (target e.1) = true
    · rw [if_pos legal] at trap; cases trap
    · rw [if_neg legal] at trap
      cases trap
      exact ⟨listed, fun _ => legal⟩
  · intro ⟨listed, away⟩
    refine ⟨(k, (1, target k)), ⟨(k, jumpFate i target k), mem_jumpFates.mpr ⟨listed, rfl⟩, ?_⟩, rfl⟩
    rw [jumpFate, if_neg (away listed)]

/-- Where the lanes of a set stand after a branch: at their targets, at the next word, or parked. -/
structure Branched (i : In) (taken : List Nat) (target : Nat → Word) (g : Group) : Prop where
  arrived : ∀ k ∈ arriving i taken target, standsAt g k (target k) .ready
  passed : ∀ k ∈ i.lanes, k ∉ taken → standsAt g k (i.pc + 4#32) .ready
  parked : ∀ k ∈ taken, k ∉ arriving i taken target → standsAt g k i.runPc .parked

/-- A word that changes the register files by `F` and sends the lanes `taken` of its ready set to their targets. -/
theorem jump_completes {ins : Instr} {s : State} {f : Form} (h : GroupIssues s f i) (ready : setReady i)
    (subset : ∀ k ∈ taken, k ∈ i.lanes) (F : GroupCore → GroupCore) (same : SameSpecials i.g.regs (F i.g.regs))
    (meaning : exec ins s = .next (finish i (jumpLanes i taken target (onRegs (issueWork i) F)))) :
    Completes ins s i (fun g => Branched i taken target g ∧ (g.regs.v = (F i.g.regs).v ∧ g.regs.s = (F i.g.regs).s ∧
      g.regs.p = (F i.g.regs).p) ∧ ChunksKept i g ∧ SpecialsKept i g) := by
  rw [jumpLanes_eq _ _ _ _ rfl] at meaning
  have plain : Plain i { onRegs (issueWork i) F with fates := jumpFates i taken target } :=
    ⟨rfl, rfl, rfl, jumpFates_stay, fun _ _ => rfl, rfl, rfl⟩
  obtain ⟨g, hg, q, rest⟩ := finish_plain h plain
  obtain ⟨g', hg', stands⟩ := finish_standsAt plain
  obtain rfl : g = g' := Option.some.inj (hg.symm.trans hg')
  have lane (k : Nat) : laneAt (F i.g.regs) k = laneAt i.g.regs k := by rw [laneAt, same.lanes, laneAt]
  refine ⟨_, g, meaning, hg, ⟨⟨fun k hk => ?_, fun k hk stays => ?_, fun k hk astray => ?_⟩, ⟨q.v, q.s, q.p⟩,
    ⟨q.stores, q.tags, q.effs.trans (List.append_nil _).symm, ?_⟩, ⟨q.tiles.trans same.tiles, q.accs.trans same.accs,
      q.masks.trans same.masks, q.unjoined.trans same.unjoined, ?_⟩⟩, rest⟩
  · obtain ⟨goes, legal⟩ := mem_arriving.mp hk
    have fate : tgetD (jumpFates i taken target) k .next = .goto (target k) := by
      rw [tgetD_jumpFates, if_pos goes, jumpFate, if_pos legal]
    refine stands k (subset k goes) (fun trapped => (mem_trapTable_jumpFates.mp trapped).2 hk) _ _ (by rw [fate]; rfl) ?_
      rfl
    rw [fate]
    exact (congrArg Lane.wait (lane k)).trans (ready k (subset k goes))
  · have fate : tgetD (jumpFates i taken target) k .next = .next := by rw [tgetD_jumpFates, if_neg stays]
    refine stands k hk (fun trapped => stays (mem_trapTable_jumpFates.mp trapped).1) _ _ (by rw [fate]; rfl) ?_ rfl
    rw [fate]
    exact (congrArg Lane.wait (lane k)).trans (ready k hk)
  · exact finish_parked h (plain.fated [] [] nofun) hg (subset k hk) (mem_trapTable_jumpFates.mpr ⟨hk, astray⟩)
  · rw [q.flights]
    exact (List.append_nil _).symm
  · rw [q.trap]
    simp only [onRegs, issueWork, startWork, same.trap]

/-! ### The branches of the table (06 R117, R119) -/

theorem act_subset_lanes {s : State} {f : Form} (h : GroupIssues s f i) : ∀ k ∈ i.act, k ∈ i.lanes := by
  obtain ⟨gid, set, g, t, l, -, -, rfl, -, -⟩ := h
  intro k hk
  simp only [issueIn, guardLanes] at hk ⊢
  split at hk
  · exact (List.mem_filter.mp hk).1
  · exact hk

/-- The registers after a branch of the lanes `go`: last uses released, and then v63 linked where the word links. -/
def branchRegs (i : In) (links : Bool) (go : List Nat) (c : GroupCore) : GroupCore :=
  if links then go.foldl (fun c k => writeV c k 63 (i.pc + 4#32)) (releaseSources i go c) else releaseSources i go c

theorem branchRegs_special (links : Bool) (go : List Nat) (c : GroupCore) : SameSpecials c (branchRegs i links go c) := by
  have rel := releaseSources_special i go c
  cases links
  · exact rel
  · exact rel.trans (sameSpecials_foldl _ (fun c k => writeV_special c k 63 _) _ _)

theorem taken_subset_lanes {ins : Instr} {s : State} {f : Form} {taken : In → List Nat} {target : In → Nat → Word}
    {links : Bool} (op : BranchOp ins f taken target links) (h : GroupIssues s f i) : ∀ k ∈ taken i, k ∈ i.lanes := by
  cases op with
  | br | call => exact fun _ => id
  | brt | brf => exact fun _ hk => (List.mem_filter.mp hk).1
  | brany => exact fun _ hk => (List.mem_ite_nil_left.mp hk).2
  | brall => exact fun _ hk => (List.mem_ite_nil_right.mp hk).2
  | jr | callr | ret => exact act_subset_lanes h

/-- A branch without sources releases nothing. -/
theorem branchRegs_of_no_sources {s : State} {f : Form} (h : GroupIssues s f i) (links : Bool) (go : List Nat)
    (hx : f.x = none) (hy : f.y = none) (hsx : f.sx = none) (hsy : f.sy = none) :
    onRegs (issueWork i) (branchRegs i links go) = if links then linkLanes i go (issueWork i) else issueWork i := by
  have rel : releaseSources i go i.g.regs = i.g.regs := released_of_no_sources h go hx hy hsx hsy
  cases links
  · exact congrArg (fun c => onRegs (issueWork i) fun _ => c) rel
  · exact congrArg (fun c => onRegs (issueWork i) fun _ => go.foldl (fun c k => writeV c k 63 (i.pc + 4#32)) c) rel

/-- The work of each branch is a jump of the lanes that it takes, with their registers linked and released. -/
theorem exec_branch {ins : Instr} {s : State} {f : Form} {taken : In → List Nat} {target : In → Nat → Word}
    {links : Bool} (op : BranchOp ins f taken target links) (h : GroupIssues s f i) :
    exec ins s = .next (finish i (jumpLanes i (taken i) (target i)
      (onRegs (issueWork i) (branchRegs i links (arriving i (taken i) (target i)))))) := by
  cases op with
  | br | brt | brf | call =>
    rw [branchRegs_of_no_sources h _ _ rfl rfl rfl rfl]
    simp only [← branchTarget_eq]
    exact groupOrControl_next h _ _
  | brany | brall =>
    rw [branchRegs_of_no_sources h _ _ rfl rfl rfl rfl]
    simp only [← branchTarget_eq, ← List.isEmpty_iff]
    exact groupOnly_next h _
  | ret =>
    rw [branchRegs_of_no_sources h _ _ rfl rfl rfl rfl]
    exact groupOrControl_next h _ _
  | jr | callr => exact groupOrControl_next h _ _

end Sys2Proof.Machine

namespace Sys2Proof

open Sys2Proof.Machine

/-- Settles O23: a branch sends the lanes that it takes to their targets, links and releases in those that arrive, and parks
those whose target is none. -/
theorem branchesMoveTheirLanes : Obligations.BranchesMoveTheirLanes := by
  intro ins f taken target links op s i issues ready go
  refine completes_mono (jump_completes issues ready (taken_subset_lanes op issues) _ (branchRegs_special links go i.g.regs)
    (exec_branch op issues)) fun g ⟨⟨arrived, passed, parked⟩, ⟨v, s, p⟩, chunks, specials⟩ =>
    ⟨arrived, passed, parked, fun linked => ?_, fun unlinked => ?_, chunks, specials⟩
  · subst linked
    obtain ⟨value, others, uniform, preds⟩ := vreg_writeLanes go 63 (fun _ => i.pc + 4#32) (released i go) (by decide)
    refine ⟨fun k hk => ?_, fun k r hr hne => ?_, s.trans uniform, p.trans preds⟩
    · rw [← value k hk, readV, readV, vreg, v]
      rfl
    · rw [← others k r hr hne, vreg, v]
      rfl
  · subst unlinked
    exact ⟨v, s, p⟩

end Sys2Proof
end

section
/-! SUPPORT. Masks: what a word that changes masks leaves of a group, the release of waiters that it can bring about, and
the removal of waiting threads, each in an issue set of its own (06 R121, R122, R126, R131). -/

namespace Sys2Proof.Machine

open Sys2Proof

/-! ### What such a word leaves -/

section

variable {i : In} {g : Group}

/-- A release in no lane releases nothing. -/
theorem released_nil (i : In) : released i [] = i.g.regs := by
  unfold released releaseSources
  cases i.form.x <;> cases i.form.y <;> cases i.form.sx <;> cases i.form.sy <;>
    simp only [List.foldl_nil, List.foldl_fixed, ite_self, List.isEmpty_nil, Bool.not_true, Bool.and_false,
      Bool.false_eq_true, if_false]

/-- A group that has the contents of the issuing one, its masks aside. -/
theorem Quiet.masksAside {masks : Table LaneMask} (q : Quiet { i.g with regs := { i.g.regs with masks := masks } } g) :
    FilesKept i g [] ∧ PoolsKept i g ∧ g.regs.trap.pc = i.g.regs.trap.pc ∧ ChunksKept i g := by
  obtain ⟨cause, pc, addr, done, after⟩ := by simpa only [Prod.mk.injEq] using q.trap
  have same := released_nil i
  refine ⟨⟨same ▸ q.v, same ▸ q.s, same ▸ q.p⟩, ⟨q.tiles, q.accs, q.unjoined, ?_⟩, pc,
    ⟨q.stores, q.tags, q.effs.trans (List.append_nil _).symm, ?_⟩⟩
  · rw [cause, addr, done, after]
  · rw [q.flights]
    exact (List.append_nil _).symm

/-- A group that has the contents of the issuing one, its masks included. -/
theorem Quiet.kept (q : Quiet i.g g) : FilesKept i g [] ∧ ChunksKept i g ∧ SpecialsKept i g := by
  obtain ⟨files, -, -, chunks⟩ := Quiet.masksAside (masks := i.g.regs.masks) q
  exact ⟨files, chunks, q.tiles, q.accs, q.masks, q.unjoined, q.trap⟩

end

/-! ### Waiting lanes -/

section

variable {i : In}

theorem waitsAtMask_iff {c : GroupCore} {m : BitVec 4} {j : Nat} :
    waitsAtMask c m j = true ↔ ∃ after ends sw, (laneAt c j).wait = .mask m.toNat after ends sw := by
  unfold waitsAtMask
  cases waits : (laneAt c j).wait <;> simp

/-- A lane that waits is not in a ready set. -/
theorem not_mem_of_waits (ready : setReady i) {m : BitVec 4} {j : Nat} (h : waitsAtMask i.g.regs m j = true) :
    j ∉ i.lanes := by
  obtain ⟨after, ends, sw, waits⟩ := waitsAtMask_iff.mp h
  intro hj
  rw [ready j hj] at waits
  cases waits

theorem resumesAt_of_waits {j k : Nat} {after : Word} {ends sw : Bool} (away : j ∉ i.lanes)
    (waits : (laneAt i.g.regs j).wait = .mask k after ends sw) : resumesAt i j = after := by
  rw [resumesAt, if_neg (mt List.contains_iff_mem.mp away), waits]

theorem awaits_resumesAt {m : BitVec 4} {j : Nat} (away : j ∉ i.lanes) (handler : (laneAt i.g.regs j).handler = false)
    (waits : waitsAtMask i.g.regs m j = true) : Awaits i.g.regs m.toNat j (resumesAt i j) := by
  obtain ⟨after, ends, sw, wait⟩ := waitsAtMask_iff.mp waits
  exact ⟨handler, ends, sw, by rw [resumesAt_of_waits away wait, wait]⟩

theorem lanesOf_ne_nil {m : LaneMask} (h : m ≠ 0#64) : lanesOf m 64 ≠ [] := by
  intro none
  refine h (BitVec.eq_of_getLsbD_eq fun j _ => ?_)
  rw [BitVec.getLsbD_zero]
  exact Bool.eq_false_iff.mpr fun member => by
    have listed := mem_lanesOf.mpr member
    rw [none] at listed
    cases listed

end

/-! ### Release of the waiters of a mask -/

/-- A word that takes no trap, leaves the waiters of mask m and gives the mask the members `kept`: it releases them. -/
theorem releasesWaiters {i : In} {w : Work} {causes : Table Nat} {win : Option Nat} {doomed : Bool} {m : BitVec 4}
    {kept : LaneMask} (untrapped : trapTable w.fates = [])
    (waiters : ∀ j, kept.getLsbD j = true → waitsAtMask i.g.regs m j = true → laneAt w.g.regs j = laneAt i.g.regs j)
    (members : tgetD (departed w).regs.masks m.toNat 0#64 = kept) :
    ReleasesWaiters i m kept (closedGroup i doomed (releaseMasks i.l.chunkq (beforeRelease i w causes win))) := by
  intro ready inRange nonempty all j hj member
  have masks : tgetD (beforeRelease i w causes win).regs.masks m.toNat 0#64 = kept := by
    rw [(beforeRelease_quiet i w causes win).masks, members]
  have awaits {l : Nat} (hl : kept.getLsbD l = true) :
      Awaits (beforeRelease i w causes win).regs m.toNat l (resumesAt i l) := by
    obtain ⟨handler, waits⟩ := all l (BitVec.lt_of_getLsbD hl) hl
    have away := not_mem_of_waits ready waits
    rw [Awaits, laneAt_beforeRelease_of_not_mem untrapped away, waiters l hl waits]
    exact awaits_resumesAt away handler waits
  refine closedGroup_standsAt _ _ (releaseMasks_standsAt_of_gathered _ inRange ⟨?_, fun l hl => ?_⟩ ?_ (awaits member))
  · exact masks ▸ lanesOf_ne_nil nonempty
  · exact ⟨_, awaits (mem_lanesOf.mp (masks ▸ hl))⟩
  · exact masks ▸ mem_lanesOf.mpr member

/-! ### Removal of waiting threads -/

/-- Lane j waits at mask k and is no member of it. -/
def Removed (c : GroupCore) (k j : Nat) : Prop :=
  (∃ after ends sw, (laneAt c j).wait = .mask k after ends sw) ∧ (tgetD c.masks k 0#64).getLsbD j = false

theorem releaseRemoved_of_stays {g : Group} {k l : Nat} (q : Nat) (h : ¬Removed g.regs k l) :
    releaseRemoved q k g l = g := by
  unfold releaseRemoved
  split
  case h_1 k' after ends sw waits =>
    refine if_neg fun gone => h ?_
    obtain ⟨same, member⟩ : k' = k ∧ (tgetD g.regs.masks k 0#64).getLsbD l = false := by simpa [maskAt] using gone
    exact ⟨⟨after, ends, sw, same ▸ waits⟩, member⟩
  case h_2 => rfl

theorem releaseRemoved_of_removed {g : Group} {k l : Nat} {after : Word} {ends sw : Bool} (q : Nat)
    (waits : (laneAt g.regs l).wait = .mask k after ends sw) (member : (tgetD g.regs.masks k 0#64).getLsbD l = false) :
    releaseRemoved q k g l = { g with
      regs := setLane g.regs l (inSet (retire q { laneAt g.regs l with wait := .ready } after ends sw) g.nextSet),
      nextSet := g.nextSet + 1 } := by
  simp only [releaseRemoved, waits, maskAt, member, Bool.not_false, Bool.and_true, decide_true, if_true]
  rfl

theorem releaseRemoved_quiet (q k : Nat) (g : Group) (l : Nat) : Quiet g (releaseRemoved q k g l) := by
  by_cases h : Removed g.regs k l
  · obtain ⟨⟨after, ends, sw, waits⟩, member⟩ := h
    rw [releaseRemoved_of_removed q waits member]
    exact quiet_lanes g _ _
  · rw [releaseRemoved_of_stays q h]
    exact .refl g

theorem releaseRemoved_other (q k : Nat) (g : Group) {l j : Nat} (other : j ≠ l) :
    laneAt (releaseRemoved q k g l).regs j = laneAt g.regs j := by
  by_cases h : Removed g.regs k l
  · obtain ⟨⟨after, ends, sw, waits⟩, member⟩ := h
    rw [releaseRemoved_of_removed q waits member]
    exact (laneAt_setLane _ _ _ _).trans (if_neg other)
  · rw [releaseRemoved_of_stays q h]

/-- A lane that the mask does not lose stays. -/
theorem releaseRemoved_lane_of_stays (q k : Nat) (g : Group) {l j : Nat} (h : ¬Removed g.regs k j) :
    laneAt (releaseRemoved q k g l).regs j = laneAt g.regs j := by
  by_cases same : j = l
  · rw [← same, releaseRemoved_of_stays q h]
  · exact releaseRemoved_other q k g same

theorem releaseRemoved_regroups (q k : Nat) (g : Group) {l j : Nat}
    (h : laneAt (releaseRemoved q k g l).regs j = laneAt g.regs j) : Regroups j g (releaseRemoved q k g l) := by
  by_cases gone : Removed g.regs k l
  · obtain ⟨⟨after, ends, sw, waits⟩, member⟩ := gone
    rw [releaseRemoved_of_removed q waits member] at h ⊢
    refine ⟨congrArg Lane.set h, Nat.le_succ _, fun n => ?_⟩
    dsimp only
    rw [laneAt_setLane]
    split
    · exact .inr (Nat.le_refl _)
    · exact .inl rfl
  · rw [releaseRemoved_of_stays q gone]
    exact .refl j g

/-- Every one of the lanes `live` is in a set whose number has been given out. -/
def Numbered (live : List Nat) (g : Group) : Prop := ∀ k ∈ live, (laneAt g.regs k).set < g.nextSet

theorem Numbered.releaseRemoved {live : List Nat} {g : Group} (h : Numbered live g) (q k l : Nat) :
    Numbered live (releaseRemoved q k g l) := by
  by_cases gone : Removed g.regs k l
  · obtain ⟨⟨after, ends, sw, waits⟩, member⟩ := gone
    rw [releaseRemoved_of_removed q waits member]
    intro n hn
    dsimp only
    rw [laneAt_setLane]
    split
    · exact Nat.lt_succ_self _
    · exact (h n hn).trans (Nat.lt_succ_self _)
  · rw [releaseRemoved_of_stays q gone]
    exact h

section

variable (q k : Nat) (ls : List Nat) {g : Group} {j : Nat}

/-- What the removals leave of a lane that its mask does not lose. -/
theorem removals_stay (h : ¬Removed g.regs k j) :
    laneAt (ls.foldl (releaseRemoved q k) g).regs j = laneAt g.regs j ∧
    Regroups j g (ls.foldl (releaseRemoved q k) g) := by
  have kept := ls.foldlRecOn (releaseRemoved q k)
    (motive := fun b => b.regs.masks = g.regs.masks ∧ laneAt b.regs j = laneAt g.regs j ∧ Regroups j g b)
    ⟨rfl, rfl, .refl j g⟩ fun b ⟨masks, lane, known⟩ l _ => ?_
  · exact kept.2
  · have still : ¬Removed b.regs k j := by rwa [Removed, masks, lane]
    have stays := releaseRemoved_lane_of_stays q k b (l := l) still
    exact ⟨(releaseRemoved_quiet q k b l).masks.trans masks, stays.trans lane,
      known.trans (releaseRemoved_regroups q k b stays)⟩

/-- What the removals make of a lane that its mask loses: it goes on after its MWAIT, alone. -/
theorem removals_go {after : Word} {ends sw : Bool} (listed : j ∈ ls)
    (waits : (laneAt g.regs j).wait = .mask k after ends sw) (member : (tgetD g.regs.masks k 0#64).getLsbD j = false) :
    standsAt (ls.foldl (releaseRemoved q k) g) j after .ready ∧
    ∀ live, Numbered live g → Alone live (ls.foldl (releaseRemoved q k) g) j := by
  induction ls generalizing g with
  | nil => cases listed
  | cons l rest ih =>
    rw [List.foldl_cons]
    by_cases same : j = l
    · subst same
      have gone : laneAt (releaseRemoved q k g j).regs j =
          inSet (retire q { laneAt g.regs j with wait := .ready } after ends sw) g.nextSet := by
        rw [releaseRemoved_of_removed q waits member]
        exact (laneAt_setLane _ _ _ _).trans (if_pos rfl)
      have next : (releaseRemoved q k g j).nextSet = g.nextSet + 1 := by rw [releaseRemoved_of_removed q waits member]
      obtain ⟨lane, regroups⟩ := removals_stay q k rest (g := releaseRemoved q k g j) (j := j)
        fun ⟨⟨_, _, _, wait⟩, _⟩ => by
          rw [gone] at wait
          cases wait
      refine ⟨?_, fun live numbered => Alone.regroups ⟨?_, fun n hn other => ?_⟩ regroups⟩
      · rw [standsAt, lane, gone]
        exact ⟨rfl, rfl⟩
      · rw [gone, next]
        exact Nat.lt_succ_self _
      · rw [gone, releaseRemoved_other q k g other]
        exact (numbered n hn).ne
    · have lane := releaseRemoved_other q k g same
      have masks := (releaseRemoved_quiet q k g l).masks
      obtain ⟨stands, alone⟩ := ih ((List.mem_cons.mp listed).resolve_left same) (lane ▸ waits) (masks ▸ member)
      exact ⟨stands, fun live numbered => alone live (numbered.releaseRemoved q k l)⟩

end

/-! ### The words that give a mask new members (06 R121) -/

/-- The group whose mask k has the members M and has let go the waiting threads that it loses. -/
def remasked (i : In) (k : Nat) (M : LaneMask) : Group :=
  (liveLanes i.g.regs).foldl (releaseRemoved i.l.chunkq k) { i.g with regs := setMask i.g.regs k M }

/-- The work of a word that only gives mask k the members M. -/
def remaskWork (i : In) (k : Nat) (M : LaneMask) : Work := { issueWork i with g := remasked i k M }

theorem changeMask_eq (i : In) (k : Nat) (M : LaneMask) : changeMask k M i (issueWork i) = remaskWork i k M := rfl

theorem remasked_quiet (i : In) (k : Nat) (M : LaneMask) :
    Quiet { i.g with regs := setMask i.g.regs k M } (remasked i k M) :=
  (liveLanes i.g.regs).foldlRecOn (motive := Quiet _) _ (.refl _) fun b known l _ =>
    known.trans (releaseRemoved_quiet i.l.chunkq k b l)

/-- A lane that mask k keeps, or that does not wait at it, stays when the mask gets new members. -/
theorem laneAt_remasked_of_member {i : In} {k : Nat} {M : LaneMask} {j : Nat} (h : M.getLsbD j = true) :
    laneAt (remasked i k M).regs j = laneAt i.g.regs j :=
  (removals_stay i.l.chunkq k (liveLanes i.g.regs) fun ⟨_, lost⟩ => by
    rw [setMask, tgetD_tput_self, h] at lost
    cases lost).1

theorem standsAt_of_laneAt_eq {a b : Group} {k : Nat} {pc : Word} {w : Wait} (h : standsAt a k pc w)
    (same : laneAt b.regs k = laneAt a.regs k) : standsAt b k pc w := by rwa [standsAt, same]

/-- A word that only gives mask m the members M lets every waiting thread that the mask loses go on alone. -/
theorem releasesRemoved {i : In} {causes : Table Nat} {win : Option Nat} {doomed : Bool} (m : BitVec 4) (M : LaneMask) :
    ReleasesRemoved i m M
      (closedGroup i doomed (releaseMasks i.l.chunkq (beforeRelease i (remaskWork i m.toNat M) causes win))) := by
  intro ready j live waits lost
  have away := not_mem_of_waits ready waits
  obtain ⟨after, ends, sw, wait⟩ := waitsAtMask_iff.mp waits
  obtain ⟨stands, alone⟩ := removals_go i.l.chunkq m.toNat (liveLanes i.g.regs)
    (g := { i.g with regs := setMask i.g.regs m.toNat M }) live wait (by rw [setMask, tgetD_tput_self, lost])
  have placed : standsAt (beforeRelease i (remaskWork i m.toNat M) causes win) j after .ready :=
    standsAt_of_laneAt_eq stands (laneAt_beforeRelease_of_not_mem rfl away)
  rw [resumesAt_of_waits away wait]
  refine ⟨closedGroup_standsAt _ _ (releaseMasks_standsAt _ placed rfl), fun numbered k hk other => ?_⟩
  have before : Alone (liveLanes i.g.regs) (beforeRelease i (remaskWork i m.toNat M) causes win) j :=
    (alone _ numbered).regroups (beforeRelease_regroups (w := remaskWork i m.toNat M) rfl away)
  have apart := before.regroups (releaseMasks_regroups i.l.chunkq (by rw [placed.2]; rfl))
  have issueSet (n : Nat) := congrArg Prod.snd (closedGroup_threadOf i doomed
    (releaseMasks i.l.chunkq (beforeRelease i (remaskWork i m.toNat M) causes win)) n)
  exact fun together => apart.others k hk other ((issueSet k).symm.trans (together.trans (issueSet j)))

/-- A word whose work leaves the group that differs from the issuing one in its masks and in lanes that have left their
MWAIT only. -/
theorem masks_complete {ins : Instr} {s : State} {f : Form} {i : In} (h : GroupIssues s f i) {b : Group} {k : Nat}
    {M : LaneMask} (same : Quiet { i.g with regs := setMask i.g.regs k M } b)
    (meaning : exec ins s = .next (finish i { issueWork i with g := b })) :
    ∃ doomed causes win, Completes ins s i (fun g =>
      g = closedGroup i doomed (releaseMasks i.l.chunkq (beforeRelease i { issueWork i with g := b } causes win)) ∧
      g.regs.masks = tput i.g.regs.masks k M ∧ FilesKept i g [] ∧ PoolsKept i g ∧ g.regs.trap.pc = i.g.regs.trap.pc ∧
      ChunksKept i g) := by
  obtain ⟨doomed, causes, win, g, made, hg, quiet, rest⟩ := finish_law h (w := { issueWork i with g := b })
    ⟨rfl, rfl, rfl, nofun, fun _ _ => rfl, rfl, same.place⟩
  rw [departed_of_no_leavers rfl] at quiet
  have all := same.trans quiet
  exact ⟨doomed, causes, win, _, g, meaning, hg, ⟨made, all.masks, Quiet.masksAside all⟩, rest⟩

section

variable {ins : Instr} {s : State} {f : Form} {i : In} (h : GroupIssues s f i) (m : BitVec 4) (M : LaneMask)

include h

/-- MJOIN and MLEAVE: the mask's new members, and the waiters that they let go. -/
theorem setMask_completes
    (meaning : exec ins s = .next (finish i (onRegs (issueWork i) fun c => setMask c m.toNat M))) :
    Completes ins s i (fun g => g.regs.masks = tput i.g.regs.masks m.toNat M ∧ ReleasesWaiters i m M g ∧
      FilesKept i g [] ∧ PoolsKept i g ∧ g.regs.trap.pc = i.g.regs.trap.pc ∧ ChunksKept i g) := by
  obtain ⟨doomed, causes, win, done⟩ := masks_complete h (.refl { i.g with regs := setMask i.g.regs m.toNat M }) meaning
  refine completes_mono done fun g ⟨made, masks, kept⟩ => ⟨masks, made ▸ ?_, kept⟩
  refine releasesWaiters rfl (fun _ _ _ => rfl) ?_
  rw [departed_of_no_leavers rfl]
  exact tgetD_tput_self _ _ _ _

/-- MSET and MCLR: the waiting threads that the mask loses go on as well. -/
theorem changeMask_completes (meaning : exec ins s = .next (finish i (changeMask m.toNat M i (issueWork i)))) :
    Completes ins s i (fun g => g.regs.masks = tput i.g.regs.masks m.toNat M ∧ ReleasesWaiters i m M g ∧
      ReleasesRemoved i m M g ∧ FilesKept i g [] ∧ PoolsKept i g ∧ g.regs.trap.pc = i.g.regs.trap.pc ∧ ChunksKept i g) := by
  rw [changeMask_eq] at meaning
  obtain ⟨doomed, causes, win, done⟩ := masks_complete h (remasked_quiet i m.toNat M) meaning
  refine completes_mono done fun g ⟨made, masks, kept⟩ => ⟨masks, made ▸ ?_, made ▸ releasesRemoved m M, kept⟩
  refine releasesWaiters rfl (fun _ member _ => laneAt_remasked_of_member member) ?_
  rw [departed_of_no_leavers rfl, (remasked_quiet i m.toNat M).masks]
  exact tgetD_tput_self _ _ _ _

end

/-- A pair of uniform registers, low word first, written when any lane executes. -/
def writeUniformPair (d : Nat) (v : DWord) (i : In) (c : GroupCore) : GroupCore :=
  writeOnce (d + 1) (hiWord v) i (writeOnce d (loWord v) i c)

theorem writeUniformPair_written (d : Nat) (v : DWord) {i : In} (c : GroupCore) (executes : i.act ≠ []) :
    readS (writeUniformPair d v i c) d = (loWord v, false) ∧ readS (writeUniformPair d v i c) (d + 1) = (hiWord v, false) ∧
    (∀ r, r ≠ d → r ≠ d + 1 → sreg (writeUniformPair d v i c) r = sreg c r) ∧ SameSpecials c (writeUniformPair d v i c) ∧
    (writeUniformPair d v i c).v = c.v ∧ (writeUniformPair d v i c).p = c.p := by
  have executing : i.act.isEmpty = false := List.isEmpty_eq_false_iff.mpr executes
  simp only [writeUniformPair, writeOnce, executing, Bool.false_eq_true, if_false]
  refine ⟨?_, ?_, fun r low high => ?_, (writeS_special _ _ _).trans (writeS_special _ _ _), rfl, rfl⟩
  · simp [readS, sreg, writeS, tgetD_tput, readReg, writtenReg]
  · simp [readS, sreg, writeS, readReg, writtenReg]
  · simp [sreg, writeS, tgetD_tput, low, high]

theorem mget_completes {s : State} {i : In} {sw : Bool} {m : BitVec 4} {j : BitVec 5}
    (h : GroupIssues s { sw := sw, guarded := false, u := [2 * j.toNat + 1] } i) : Completes (.mget sw m j) s i
      (WordLeaves i (writeUniformPair (2 * j.toNat) (membersOf (released i i.act) m) i (released i i.act)) []) :=
  ((issueWork_leaves h).onRegs _).completes h (groupOnly_next h _)

end Sys2Proof.Machine

namespace Sys2Proof

open Sys2Proof.Machine

/-- Settles O25: each word gives its mask new members, which releases waiters, or reads them. -/
theorem maskWordsSetMembers : Obligations.MaskWordsSetMembers := by
  refine ⟨fun sw m s i issues => ⟨?join, ?leave, ?clear, fun d => ?test⟩, fun sw m j s i issues => ?set,
    fun sw m j s i issues executes => ?get⟩
  case join =>
    exact completes_mono (setMask_completes issues m _ (groupOnly_next issues _)) fun g ⟨masks, _, kept⟩ => ⟨masks, kept⟩
  case leave => exact setMask_completes issues m _ (groupOnly_next issues _)
  case clear =>
    exact completes_mono (changeMask_completes issues m _ (groupOnly_next issues _)) fun g ⟨masks, _, removed, kept⟩ =>
      ⟨masks, removed, kept⟩
  case test => exact pred_completes issues d.toNat d.isLt _ (groupOnly_next issues _)
  case set => exact changeMask_completes issues m _ (groupOnly_next issues _)
  case get =>
    have done := mget_completes (m := m) issues
    rw [released_of_no_sources issues i.act rfl rfl rfl rfl] at done
    obtain ⟨low, high, others, same, vector, preds⟩ :=
      writeUniformPair_written (2 * j.toNat) (membersOf i.g.regs m) i.g.regs executes
    refine completes_mono done fun g w => ⟨?_, ?_, fun r hl hh => ?_, w.v.trans vector, w.p.trans preds, w.gain,
      w.specials same rfl⟩
    · refine Eq.trans ?_ low
      rw [readS, sreg, w.s]
      rfl
    · refine Eq.trans ?_ high
      rw [readS, sreg, w.s]
      rfl
    · rw [← others r hl hh, sreg, w.s]
      rfl

end Sys2Proof
end

section
/-! SUPPORT. MWAIT: a member has arrived just when it waits at its mask as the release evaluation sees it (06 R122, R126). -/

namespace Sys2Proof.Machine

open Sys2Proof

section

variable {i : In}

/-- The work of a word that gives one fate to all lanes of a list. -/
theorem fates_setFates (ls : List Nat) (f : Fate) :
    (setFates (issueWork i) ls f).fates = ls.foldl (fun t k => tput t k f) [] := rfl

theorem untrapped_of_fate {fates : Table Fate} {f : Fate} (only : ∀ e ∈ fates, e.2 = f) (free : ∀ c a, f ≠ .trap c a) :
    trapTable fates = [] := by
  refine List.filterMap_eq_nil_iff.mpr fun e mem => ?_
  rw [only e mem]
  cases f with
  | trap c a => exact absurd rfl (free c a)
  | _ => rfl

theorem leavers_of_stay {fates : Table Fate} (stay : ∀ e ∈ fates, e.2 ≠ .leave) : leavers fates = [] := by
  rw [leavers, List.map_eq_nil_iff]
  exact List.filter_eq_nil_iff.mpr fun e mem => by simpa using stay e mem

/-- The work of an MWAIT of members of mask m. -/
def waitWork (i : In) (m : BitVec 4) : Work :=
  setFates (issueWork i) i.lanes (.hold (.mask m.toNat (i.pc + 4#32) (chunkEnd i.hints) i.form.sw))

theorem exec_mwait {s : State} {sw : Bool} {m : BitVec 4} (h : GroupIssues s { sw := sw, guarded := false } i)
    (members : ∀ k ∈ i.lanes, (membersOf i.g.regs m).getLsbD k = true) :
    exec (.mwait sw m) s = .next (finish i (waitWork i m)) := by
  have inside : i.lanes.filter (fun k => (membersOf i.g.regs m).getLsbD k) = i.lanes := List.filter_eq_self.mpr members
  have outside : i.lanes.filter (fun k => !(membersOf i.g.regs m).getLsbD k) = [] :=
    List.filter_eq_nil_iff.mpr fun k hk => by simp [members k hk]
  refine (groupOnly_next h _).trans ?_
  change Host.Outcome.next (finish i (setFates
    (setFates (issueWork i) (i.lanes.filter fun k => (membersOf i.g.regs m).getLsbD k) _)
    (i.lanes.filter fun k => !(membersOf i.g.regs m).getLsbD k) _)) = _
  rw [inside, outside, waitWork, (groupIssues_facts h).form]
  rfl

variable {m : BitVec 4} {causes : Table Nat} {win : Option Nat}

theorem waitWork_untrapped : trapTable (waitWork i m).fates = [] :=
  untrapped_of_fate (fate_of_setFates _ i.lanes) nofun

/-- The lanes of the set wait at the mask, each where it stood. -/
theorem waitWork_lane {k : Nat} (hk : k ∈ i.lanes) : ∃ n, laneAt (beforeRelease i (waitWork i m) causes win).regs k =
    inSet { laneAt i.g.regs k with wait := .mask m.toNat (i.pc + 4#32) (chunkEnd i.hints) i.form.sw } n := by
  obtain ⟨n, lane⟩ := laneAt_beforeRelease_of_mem (causes := causes) (win := win) (waitWork_untrapped (m := m)) hk
  refine ⟨n, lane.trans ?_⟩
  rw [placedAt, waitWork, fates_setFates, tgetD_foldl_tput_of_mem _ _ _ hk]
  rfl

theorem waitWork_departed : departed (waitWork i m) = i.g :=
  departed_of_no_leavers (leavers_of_stay fun e mem => by rw [fate_of_setFates _ i.lanes e mem]; nofun)

theorem waitWork_masks : (beforeRelease i (waitWork i m) causes win).regs.masks = i.g.regs.masks :=
  (beforeRelease_quiet i _ causes win).masks.trans (by rw [waitWork_departed])

theorem hasArrived_iff {j : Nat} : hasArrived i m j = true ↔
    (laneAt i.g.regs j).handler = false ∧ (j ∈ i.lanes ∨ waitsAtMask i.g.regs m j = true) := by
  simp [hasArrived]

/-- A member has arrived when it waits at the mask as the release evaluation sees it. -/
theorem awaits_of_hasArrived {j : Nat} (h : hasArrived i m j = true) :
    Awaits (beforeRelease i (waitWork i m) causes win).regs m.toNat j (resumesAt i j) := by
  obtain ⟨handler, arrived⟩ := hasArrived_iff.mp h
  by_cases hj : j ∈ i.lanes
  · obtain ⟨n, lane⟩ := waitWork_lane (m := m) (causes := causes) (win := win) hj
    rw [Awaits, lane, resumesAt, if_pos (List.contains_iff_mem.mpr hj)]
    exact ⟨handler, _, _, rfl⟩
  · rw [Awaits, laneAt_beforeRelease_of_not_mem waitWork_untrapped hj]
    exact awaits_resumesAt hj handler (arrived.resolve_left hj)

theorem hasArrived_of_awaits {j : Nat} {after : Word}
    (h : Awaits (beforeRelease i (waitWork i m) causes win).regs m.toNat j after) : hasArrived i m j = true := by
  obtain ⟨handler, ends, sw, waits⟩ := h
  by_cases hj : j ∈ i.lanes
  · obtain ⟨n, lane⟩ := waitWork_lane (m := m) (causes := causes) (win := win) hj
    rw [lane] at handler
    exact hasArrived_iff.mpr ⟨handler, .inl hj⟩
  · rw [laneAt_beforeRelease_of_not_mem waitWork_untrapped hj] at handler waits
    exact hasArrived_iff.mpr ⟨handler, .inr (waitsAtMask_iff.mpr ⟨after, ends, sw, waits⟩)⟩

theorem mwait_completes {s : State} {sw : Bool} (h : GroupIssues s { sw := sw, guarded := false } i)
    (members : ∀ k ∈ i.lanes, (membersOf i.g.regs m).getLsbD k = true) :
    ∃ doomed causes win, Completes (.mwait sw m) s i (fun g =>
      g = closedGroup i doomed (releaseMasks i.l.chunkq (beforeRelease i (waitWork i m) causes win)) ∧
      FilesKept i g [] ∧ ChunksKept i g ∧ SpecialsKept i g) := by
  obtain ⟨doomed, causes, win, g, made, hg, quiet, rest⟩ := finish_law h (w := waitWork i m)
    ⟨rfl, rfl, rfl, nofun, fun _ _ => rfl, rfl, rfl⟩
  rw [waitWork_departed] at quiet
  exact ⟨doomed, causes, win, _, g, exec_mwait h members, hg, ⟨made, Quiet.kept quiet⟩, rest⟩

end

end Sys2Proof.Machine

namespace Sys2Proof

open Sys2Proof.Machine

/-- Settles O26: the release evaluation finds the mask gathered just when every member has arrived. -/
theorem maskWaitReleasesTogether : Obligations.MaskWaitReleasesTogether := by
  intro sw m s i inRange issues ready members
  obtain ⟨doomed, causes, win, done⟩ := mwait_completes issues members
  have held {k : Nat} (hk : (membersOf i.g.regs m).getLsbD k = true) :
      k ∈ lanesOf (tgetD (beforeRelease i (waitWork i m) causes win).regs.masks m.toNat 0#64) 64 := by
    rw [waitWork_masks]
    exact mem_lanesOf.mpr hk
  refine ⟨fun ⟨l, _, member, absent⟩ => ?waiting, fun nonempty all => ?together⟩
  case waiting =>
    refine completes_mono done fun g ⟨made, kept⟩ => ⟨fun k hk => made ▸ closedGroup_standsAt _ _ ?_, kept⟩
    obtain ⟨n, lane⟩ := waitWork_lane (m := m) (causes := causes) (win := win) hk
    have stays := releaseMasks_lane_of_held i.l.chunkq (held member) (fun a awaits => by
      rw [hasArrived_of_awaits awaits] at absent
      cases absent) (j := k) (by rw [lane]; rfl)
    rw [standsAt, stays, lane, (groupIssues_facts issues).form]
    exact ⟨rfl, rfl⟩
  case together =>
    refine completes_mono done fun g ⟨made, kept⟩ => ⟨fun j hj member => made ▸ closedGroup_standsAt _ _ ?_, kept⟩
    obtain ⟨k, hk⟩ := List.exists_mem_of_ne_nil _ nonempty
    refine releaseMasks_standsAt_of_gathered _ inRange ⟨List.ne_nil_of_mem (held (members k hk)), fun l hl => ?_⟩
      (held member) (awaits_of_hasArrived (all j hj member))
    rw [waitWork_masks] at hl
    have member := mem_lanesOf.mp hl
    exact ⟨_, awaits_of_hasArrived (all l (BitVec.lt_of_getLsbD member) member)⟩

end Sys2Proof
end

section
/-! SUPPORT. EXIT: the threads that end, and the masks that they leave (06 R131, R122). -/

namespace Sys2Proof.Machine

open Sys2Proof

theorem getLsbD_maskOf {ls : List Nat} {j : Nat} (hj : j < 64) : (maskOf ls).getLsbD j = decide (j ∈ ls) := by
  induction ls using List.reverseRecOn with
  | nil => simp [maskOf]
  | append_singleton ls l ih =>
    have last : maskOf (ls ++ [l]) = maskOf ls ||| BitVec.twoPow 64 l := by rw [maskOf, List.foldl_append]; rfl
    have bit : (BitVec.twoPow 64 l).getLsbD j = decide (j = l) := by
      rw [BitVec.getLsbD_twoPow, ← Bool.decide_and, decide_eq_decide]
      omega
    rw [last, BitVec.getLsbD_or, ih, bit, ← Bool.decide_or, decide_eq_decide, List.mem_append, List.mem_singleton]

theorem maskOf_congr {a b : List Nat} (h : ∀ k, k ∈ a ↔ k ∈ b) : maskOf a = maskOf b :=
  BitVec.eq_of_getLsbD_eq fun j hj => by rw [getLsbD_maskOf hj, getLsbD_maskOf hj, decide_eq_decide.mpr (h j)]

/-- The release of waiters ends no thread and starts none. -/
theorem releaseMasks_status (q : Nat) (g : Group) (k : Nat) :
    (laneAt (releaseMasks q g).regs k).status = (laneAt g.regs k).status := by
  refine (upto 12).foldlRecOn (motive := fun b => (laneAt b.regs k).status = (laneAt g.regs k).status)
    (fun b m => releaseMask q b m) rfl fun b known m _ => ?_
  obtain same | ⟨_, _, _, _, _, _, gone⟩ := releaseMask_lane q b m k
  · rw [same, known]
  · rw [gone]
    exact known

section

variable {i : In}

/-- The work of an EXIT. -/
def exitWork (i : In) : Work := setFates (issueWork i) i.act .leave

theorem mem_exitFates {e : Nat × Fate} : e ∈ (exitWork i).fates ↔ e.1 ∈ i.act ∧ e.2 = .leave :=
  mem_foldl_tput (fun _ => Fate.leave) i.act

theorem tgetD_exitFates (k : Nat) : tgetD (exitWork i).fates k .next = if k ∈ i.act then .leave else .next := by
  rw [tgetD, exitWork, fates_setFates, tget_foldl_tput (fun _ => Fate.leave)]
  split <;> rfl

theorem exitWork_untrapped : trapTable (exitWork i).fates = [] :=
  untrapped_of_fate (fun _ mem => (mem_exitFates.mp mem).2) nofun

theorem mem_leavers_exitWork {k : Nat} : k ∈ leavers (exitWork i).fates ↔ k ∈ i.act := by
  simp only [leavers, List.mem_map, List.mem_filter, mem_exitFates]
  constructor
  · rintro ⟨e, ⟨⟨listed, -⟩, -⟩, rfl⟩
    exact listed
  · exact fun listed => ⟨(k, .leave), ⟨⟨listed, rfl⟩, rfl⟩, rfl⟩

/-- Every mask loses the threads that end. -/
theorem exitWork_masks (m : Nat) :
    tgetD (departed (exitWork i)).regs.masks m 0#64 = tgetD i.g.regs.masks m 0#64 &&& ~~~(maskOf i.act) := by
  rw [departed, leaveMasks, maskOf_congr fun k => mem_leavers_exitWork]
  simp only [tgetD, tget_tmap]
  change ((tget i.g.regs.masks m).map _).getD _ = _
  cases tget i.g.regs.masks m with
  | none => exact BitVec.zero_and.symm
  | some mask => rfl

end

end Sys2Proof.Machine

namespace Sys2Proof

open Sys2Proof.Machine

/-- Settles O30: the executing lanes leave, and masks are evaluated without them. -/
theorem exitEndsThreads : Obligations.ExitEndsThreads := by
  intro sw s i issues ready
  obtain ⟨doomed, causes, win, g, rfl, hg, quiet, rest⟩ := finish_law issues (w := exitWork i)
    ⟨rfl, rfl, rfl, nofun, fun _ _ => rfl, rfl, rfl⟩
  refine ⟨_, _, groupOnly_next issues _, hg, ⟨fun k hk => ?ended, fun m => ?members, fun m => ?waiters,
    fun k hk stays => ?onward, Quiet.masksAside quiet⟩, rest⟩
  case ended =>
    obtain ⟨n, lane⟩ := laneAt_beforeRelease_of_mem (causes := causes) (win := win) exitWork_untrapped
      (act_subset_lanes issues k hk)
    refine (congrArg Prod.fst (closedGroup_threadOf _ _ _ k)).trans ((releaseMasks_status _ _ k).trans ?_)
    rw [lane, placedAt, tgetD_exitFates, if_pos hk]
    rfl
  case members => rw [quiet.masks, exitWork_masks]
  case waiters => exact releasesWaiters exitWork_untrapped (fun _ _ _ => rfl) (exitWork_masks m.toNat)
  case onward =>
    obtain ⟨n, lane⟩ := laneAt_beforeRelease_of_mem (causes := causes) (win := win) exitWork_untrapped hk
    refine closedGroup_standsAt _ _ (releaseMasks_standsAt _ ?_ rfl)
    rw [standsAt, lane, placedAt, tgetD_exitFates, if_neg stays]
    exact ⟨rfl, ready k hk⟩

end Sys2Proof
end

section
/-! SUPPORT. SPAWN with room: a bin that takes a record for an entry takes the next one too, until it is full, and so each
executing lane reserves its record in turn (06 R129, 02 R33). -/

namespace Sys2Proof.Machine

open Sys2Proof

/-! ### Bins (02 R33) -/

section

variable {core : Core} {pend : List (Nat × Word)} {entry : Word} {bin : Nat}

/-- A reservation is one more in its bin. -/
theorem binLoad_reserved_self : (binLoad core (pend ++ [(bin, entry)]) bin).2 = (binLoad core pend bin).2 + 1 := by
  simp [binLoad, Nat.add_assoc]

theorem binLoad_reserved_ne {b : Nat} (other : b ≠ bin) :
    binLoad core (pend ++ [(bin, entry)]) b = binLoad core pend b := by
  simp [binLoad, other.symm]

/-- A bin that is empty or keyed by the entry is keyed by it once it holds a reservation for it. -/
theorem binLoad_reserved_key (h : (binLoad core pend bin).1 = some entry ∨ (binLoad core pend bin).2 = 0) :
    (binLoad core (pend ++ [(bin, entry)]) bin).1 = some entry := by
  simp only [binLoad, List.filter_append, List.filter_singleton, beq_self_eq_true, cond_true] at h ⊢
  generalize (((tget core.bins bin).map (·.recs)).getD []).length = recs at h ⊢
  cases found : pend.filter (fun r => r.1 == bin) with
  | nil =>
    rw [found] at h
    by_cases committed : recs > 0
    · simpa [committed, committed.ne'] using h
    · simp [committed]
  | cons r rest =>
    rw [found] at h
    by_cases committed : recs > 0
    · simpa [committed] using h
    · simpa [committed] using h

/-- The bin that takes a record: the first one that is keyed by the entry, with room; or the first empty one. -/
theorem reserveBin_cases (h : reserveBin core pend entry = some bin) :
    ((binLoad core pend bin).1 = some entry ∨ (binLoad core pend bin).2 = 0) ∧ bin < 8 ∧
    (∀ b < bin, (binLoad core pend b).1 ≠ some entry) := by
  simp only [reserveBin, List.find?_map, Function.comp_def] at h
  cases keyed : (upto 8).find? (fun b => (binLoad core pend b).1 == some entry) with
  | none =>
    simp only [keyed, Option.map_none, Option.map_map, Function.comp_def] at h
    have unkeyed (b : Nat) (hb : b < 8) : (binLoad core pend b).1 ≠ some entry := by
      simpa using List.find?_eq_none.mp keyed b (List.mem_range.mpr hb)
    obtain ⟨empty, inRange, -⟩ : (binLoad core pend bin).2 = 0 ∧ bin < 8 ∧ ∀ b < bin, (binLoad core pend b).2 ≠ 0 := by
      simpa [upto] using h
    exact ⟨.inr empty, inRange, fun b before => unkeyed b (before.trans inRange)⟩
  | some b =>
    simp only [keyed, Option.map_some, Option.ite_none_right_eq_some, Option.some.injEq] at h
    obtain ⟨-, rfl⟩ := h
    obtain ⟨key, inRange, first⟩ := List.find?_range_eq_some.mp keyed
    exact ⟨.inl (by simpa using key), List.mem_range.mp inRange, fun b before => by simpa using first b before⟩

theorem reserveBin_of_first (inRange : bin < 8) (keyed : (binLoad core pend bin).1 = some entry)
    (first : ∀ b < bin, (binLoad core pend b).1 ≠ some entry) (room : (binLoad core pend bin).2 < 64) :
    reserveBin core pend entry = some bin := by
  have found : (upto 8).find? (fun b => (binLoad core pend b).1 == some entry) = some bin :=
    List.find?_range_eq_some.mpr ⟨by simpa using keyed, List.mem_range.mpr inRange,
      fun b before => by simpa using first b before⟩
  simp only [reserveBin, List.find?_map, Function.comp_def, found, Option.map_some, room, if_true]

/-- The next record goes into the same bin, while it has room. -/
theorem reserveBin_again (h : reserveBin core pend entry = some bin) (room : (binLoad core pend bin).2 + 1 < 64) :
    reserveBin core (pend ++ [(bin, entry)]) entry = some bin := by
  obtain ⟨takes, inRange, first⟩ := reserveBin_cases h
  refine reserveBin_of_first inRange (binLoad_reserved_key takes) (fun b before => ?_) (binLoad_reserved_self.trans_lt room)
  rw [binLoad_reserved_ne before.ne]
  exact first b before

/-- A bin goes on taking records for the entry until it is full. -/
theorem reserveBin_replicate (h : reserveBin core pend entry = some bin) {n : Nat}
    (room : (binLoad core pend bin).2 + n < 64) :
    reserveBin core (pend ++ List.replicate n (bin, entry)) entry = some bin ∧
    (binLoad core (pend ++ List.replicate n (bin, entry)) bin).2 = (binLoad core pend bin).2 + n := by
  induction n with
  | zero => simpa using h
  | succ n ih =>
    obtain ⟨takes, load⟩ := ih (by omega)
    rw [List.replicate_succ', ← List.append_assoc]
    exact ⟨reserveBin_again takes (load ▸ room), by rw [binLoad_reserved_self, load, Nat.add_assoc]⟩

end

/-! ### Reservations of the lanes (06 R129) -/

section

variable {i : In} {r : GroupCore} {es : List Eff} {w : Work}

theorem LeavesWork.fates (h : LeavesWork i r es w) : w.fates = [] := by
  obtain ⟨c, c1, -, -, -, -, rfl⟩ := h
  rfl

/-- Such a word of a ready set, one that leaves the lanes, moves them to the next word. -/
theorem LeavesWork.retires {ins : Instr} {s : State} {f : Form} (h : GroupIssues s f i) (ready : setReady i)
    (work : LeavesWork i r es w) (lanes : r.lanes = i.g.regs.lanes) (meaning : exec ins s = .next (finish i w)) :
    Completes ins s i (fun g => WordLeaves i r es g ∧ ∀ k ∈ i.lanes, standsAt g k (i.pc + 4#32) .ready) := by
  obtain ⟨t, g, ends, hg, leaves, rest⟩ := work.completes h meaning
  obtain rfl : finish i w = t := Host.Outcome.next.inj (meaning.symm.trans ends)
  obtain ⟨g', hg', stands⟩ := finish_standsAt work.plain
  obtain rfl : g = g' := Option.some.inj (hg.symm.trans hg')
  refine ⟨_, g, meaning, hg, ⟨leaves, fun k hk => ?_⟩, rest⟩
  obtain ⟨c, c1, -, -, -, -, rfl⟩ := work
  refine stands k hk nofun _ _ rfl ?_ rfl
  change (laneAt r k).wait = .ready
  rw [laneAt, lanes]
  exact ready k hk

/-- What an ordered launch notes of its judgements is none of the chunk's effects (08 R184). -/
theorem LeavesWork.judge (h : LeavesWork i r es w) (js : List Judged) : LeavesWork i r es (judge i js w) := by
  unfold Machine.judge
  split
  · obtain ⟨c, c1, hc, stores, tags, effs, rfl⟩ := h
    exact ⟨c, { c1 with judged := c1.judged ++ js }, hc, stores, tags, effs, rfl⟩
  · exact h

/-- The record that a lane reserves. -/
def spawnEff (i : In) (entry : Word) (bin k : Nat) : Eff := .spawn bin entry (yVal i k) (laneAt i.g.regs k).ltid

/-- The reservations that stand when a lane of group g, as its word has made it so far, asks for a record. -/
def standingReservations (i : In) (g : Group) : List (Nat × Word) :=
  rivalReservations i.s i.l i.t i.gid i.g ++ reservations g

variable {entry : Word} {bin : Nat}

theorem LeavesWork.reservations {ls : List Nat} (h : LeavesWork i r (ls.map (spawnEff i entry bin)) w) :
    reservations w.g = reservations i.g ++ List.replicate ls.length (bin, entry) := by
  obtain ⟨c, c1, hc, -, -, effs, rfl⟩ := h
  simp [Machine.reservations, ownEffs, ownChunks, hc, effs, List.filterMap_map, spawnEff, Function.comp_def]

/-- A lane whose entry has a bin reserves its record there. -/
theorem LeavesWork.spawnLane (h : LeavesWork i r es w) {k : Nat} (names : xVal i k = entry) (legal : inText i.l entry = true)
    (fresh : (laneAt i.g.regs k).block = 0)
    (takes : reserveBin (tgetD i.s.cores i.g.core {}) (standingReservations i w.g) entry = some bin) :
    LeavesWork i r (es ++ [spawnEff i entry bin k]) (spawnLane i false w k) := by
  have core : w.core = tgetD i.s.cores i.g.core {} := h.plain.core
  have reserved := (h.judge [.record entry (some bin)]).addEffs [spawnEff i entry bin k]
  rw [standingReservations] at takes
  simpa [Machine.spawnLane, names, legal, fresh, core, takes, spawnEff] using reserved

/-- The lanes `ls`, all with one entry, reserve their records in one bin that has room for them. -/
theorem spawnLanes_leave {ls : List Nat} (start : LeavesWork i i.g.regs [] (issueWork i))
    (lanes : ∀ k ∈ ls, xVal i k = entry ∧ (laneAt i.g.regs k).block = 0) (legal : inText i.l entry = true)
    (takes : reserveBin (tgetD i.s.cores i.g.core {}) (standingReservations i i.g) entry = some bin)
    (room : (binLoad (tgetD i.s.cores i.g.core {}) (standingReservations i i.g) bin).2 + ls.length ≤ 64) :
    LeavesWork i i.g.regs (ls.map (spawnEff i entry bin)) (ls.foldl (spawnLane i false) (issueWork i)) := by
  induction ls using List.reverseRecOn with
  | nil => exact start
  | append_singleton ls k ih =>
    rw [List.length_append, List.length_singleton] at room
    obtain ⟨names, fresh⟩ := lanes k (by simp)
    have before := ih (fun l hl => lanes l (by simp [hl])) (by omega)
    rw [List.foldl_append, List.map_append]
    refine before.spawnLane names legal fresh ?_
    rw [standingReservations, before.reservations, ← List.append_assoc]
    exact (reserveBin_replicate takes (by omega)).1

/-- SPAWN of lanes that were not blocked, where each reserves its record. -/
theorem exec_spawn {s : State} {sw : Bool} {x y : Src} (h : GroupIssues s { sw := sw, x := some x, y := some y } i)
    (fresh : ∀ k ∈ i.act, (laneAt i.g.regs k).block = 0)
    (reserved : LeavesWork i r es (i.act.foldl (spawnLane i false) (issueWork i))) : exec (.spawn sw x y) s =
      .next (finish i (onRegs (i.act.foldl (spawnLane i false) (issueWork i)) (releaseSources i i.act))) := by
  have first : (!i.act.isEmpty && i.act.all fun k => (laneAt i.g.regs k).block != 0) = false := by
    cases act : i.act with
    | nil => rfl
    | cons k rest => simp [fresh k (by simp [act])]
  refine (groupOnly_next h _).trans ?_
  simp only [first, reserved.fates, Bool.false_and, Bool.false_eq_true, if_false, tget, Option.isNone_none, List.filter_true]

end

end Sys2Proof.Machine

namespace Sys2Proof

open Sys2Proof.Machine

/-- Settles O29: no lane was blocked before and none is now, so that every executing lane reserves its record. -/
theorem spawnReservesRecords : Obligations.SpawnReservesRecords := by
  intro sw x y s i entry bin issues ready lanes legal pend takes room
  have reserved := spawnLanes_leave (issueWork_leaves issues) lanes legal takes room
  have rel := releaseSources_special i i.act i.g.regs
  have meaning := exec_spawn issues (fun k hk => (lanes k hk).2) reserved
  exact completes_mono ((reserved.onRegs _).retires issues ready rel.lanes meaning) fun g ⟨leaves, stands⟩ =>
    ⟨leaves.gain, stands, ⟨leaves.v, leaves.s, leaves.p⟩, leaves.specials rel rfl⟩

end Sys2Proof
end

section
/-! SUPPORT. Kills: what KILL answers and makes of the device, what KILLT does at the end of its word, and what the kill of
a team leaves alone (07 R156, 21 R397). -/

namespace Sys2Proof.Machine

open Sys2Proof

/-! ### CTL words (07 R136) -/

/-- A CTL word acts with its partition and the values of its registers. -/
theorem ctlOp_acts {s : State} {c n : Nat} (h : CtlIssues s c n) (x y : BitVec 6)
    (f : State → Nat → Nat → Ctl → Word → Word → State) : ctlOp s x y f =
      .next (f s c n (ctlAt s c) (ctlReg (ctlAt s c) x.toNat) (ctlReg (ctlAt s c) y.toNat)) := by
  obtain ⟨actor, route, imm, guard, part⟩ := h
  simp only [ctlAt] at guard
  simp only [ctlOp, controlOnly, actor, route, imm, guard, part, Option.isSome_none, Bool.or_self, Bool.not_true,
    Bool.false_eq_true, if_false, ctlAt]

/-- Its answer is that of the statements, when what it has done leaves the issue. -/
theorem ctlDone_eq_answered {s u : State} (same : u.issue = s.issue) (c d : Nat) (v : Word) :
    ctlDone u c d v = answered s u c d v := by
  simp only [ctlDone, onCtl, setCtlReg, same, answered, withCtl, ctlAt]

/-! ### What a kill leaves (07 R156) -/

theorem chargeTeam_issue (s : State) (tid : Nat) : (chargeTeam s tid).issue = s.issue := by
  unfold chargeTeam
  split
  · rfl
  · split <;> rfl

theorem killTeam_issue (s : State) (tid : Nat) (keep : Bool) : (killTeam s tid keep).issue = s.issue := by
  unfold killTeam
  split
  · rfl
  · split
    · rfl
    · exact chargeTeam_issue s tid

theorem foldl_issue {α : Type} {f : State → α → State} (keeps : ∀ s a, (f s a).issue = s.issue) (xs : List α) (s : State) :
    (xs.foldl f s).issue = s.issue :=
  xs.foldlRecOn (motive := fun u => u.issue = s.issue) f rfl fun _ same a _ => (keeps _ a).trans same

theorem PortOnly.issue {s t : State} (h : PortOnly s t) : t.issue = s.issue := by
  have same := congrArg State.issue h.rest
  exact same

theorem writeGlobal_issue (s : State) (a : Nat) (bs : List Byte) : (writeGlobal s a bs).issue = s.issue := rfl

theorem writeLogHeader_issue (s : State) (l : Launch) (c count : Nat) (complete : Bool) :
    (writeLogHeader s l c count complete).issue = s.issue := by
  unfold writeLogHeader
  split
  · rfl
  · split
    · rfl
    · exact writeGlobal_issue ..

theorem closeLogs_issue (s : State) (l : Launch) (clusters : List Nat) : (closeLogs s l clusters).issue = s.issue := by
  unfold closeLogs
  split
  · refine foldl_issue (fun u c => ?_) _ _
    dsimp only
    split
    · exact writeLogHeader_issue ..
    · rfl
  · rfl

theorem chainQueue_issue (fuel : Nat) (s : State) (part q : Nat) : (chainQueue fuel s part q).issue = s.issue := by
  induction fuel generalizing s with
  | zero => rfl
  | succ fuel ih =>
    simp only [chainQueue]
    split
    · rfl
    · split
      · rfl
      · rw [ih]; rfl

theorem postNaming_issue (limit : Option Nat) (s : State) (c type source : Nat) (payload : BitVec 128) :
    (postNaming limit s c type source payload).issue = s.issue := by
  simp only [postNaming]
  split
  · split
    · exact (hostEvent_port _ _ _).issue
    · rfl
  · rfl

theorem endLaunch_issue (s : State) (lid status reason : Nat) : (endLaunch s lid status reason).issue = s.issue := by
  unfold endLaunch
  split
  · rfl
  · exact (chainQueue_issue ..).trans ((postNaming_issue ..).trans (closeLogs_issue ..))

theorem settleLaunch_issue (s : State) (lid : Nat) : (settleLaunch s lid).issue = s.issue := by
  unfold settleLaunch
  split
  · rfl
  · split
    · exact endLaunch_issue ..
    · rfl

theorem abortLaunch_issue (s : State) (lid status : Nat) : (abortLaunch s lid status).issue = s.issue :=
  (settleLaunch_issue ..).trans ((foldl_issue (f := freeSlots) (fun _ _ => rfl) _ _).trans
    (foldl_issue (fun u t => killTeam_issue u t true) _ _))

/-- What KILL makes of the device besides its answer, and the code that it answers (07 R156). -/
def killOutcome (s : State) (n : Nat) (p : Part) (number mode : Nat) : State × Word :=
  if 1 < mode then (s, 3#32)
  else
    match launchNumbered s n number with
    | none => (s, 1#32)
    | some (lid, l) =>
      if l.phase = .ended then (s, 1#32)
      else if mode = 0 then (abortLaunch s lid 1, 0#32)
      else if lateTeams s p lid = [] then (s, 2#32)
      else ((lateTeams s p lid).foldl (fun u tid => killTeam u tid true) s, 0#32)

theorem killOutcome_issue (s : State) (n : Nat) (p : Part) (number mode : Nat) :
    (killOutcome s n p number mode).1.issue = s.issue := by
  unfold killOutcome
  split
  · rfl
  · split
    · rfl
    · split
      · rfl
      · split
        · exact abortLaunch_issue ..
        · split
          · rfl
          · exact foldl_issue (fun u t => killTeam_issue u t true) _ _

/-- KILL answers the code of its outcome, and what the dead held is let go. -/
theorem exec_kill {s : State} {c n : Nat} {p : Part} (h : CtlIssues s c n) (found : tget s.parts n = some p) (sw : Bool)
    (d x y : BitVec 6) : exec (.kill sw d x y) s = .next (settleKills (answered s
      (killOutcome s n p (cNum s c x) (cNum s c y)).1 c d.toNat (killOutcome s n p (cNum s c x) (cNum s c y)).2)) := by
  have acts : exec (.kill sw d x y) s = afterKill (ctlOp s x y _) := rfl
  rw [acts, ctlOp_acts h, ← ctlDone_eq_answered (killOutcome_issue s n p (cNum s c x) (cNum s c y)), afterKill, killOutcome]
  have mode : ctlReg (ctlAt s c) y.toNat = 0#32 ↔ cNum s c y = 0 := BitVec.toNat_inj.symm
  by_cases bad : 1 < cNum s c y
  · have bad' : (ctlReg (ctlAt s c) y.toNat).toNat > 1 := bad
    simp only [bad', bad, if_true]
  · have bad' : ¬(ctlReg (ctlAt s c) y.toNat).toNat > 1 := bad
    have number : (ctlReg (ctlAt s c) x.toNat).toNat = cNum s c x := rfl
    simp only [bad', bad, if_false, number]
    cases launchNumbered s n (cNum s c x) with
    | none => rfl
    | some e =>
      obtain ⟨lid, l⟩ := e
      simp only [found, beq_iff_eq, List.isEmpty_iff, mode]
      split_ifs <;> rfl

/-- A word's end, when it kills its team (21 R397). -/
theorem finish_kill {i : In} {w : Work} (stall : w.stall = false) (retry : w.retry = false) (keeps : w.kill = false) :
    finish i { w with kill := true } = killTeam (finish i w) i.g.team true := by
  simp only [finish, stall, retry, keeps, Bool.false_eq_true, if_false, if_true]
  rfl

theorem exec_killt {s : State} {sw : Bool} {i : In} (h : GroupIssues s { sw := sw } i) : exec (.killt sw) s =
    .next (settleKills (if i.act = [] then finish i (issueWork i) else killTeam (finish i (issueWork i)) i.g.team true)) := by
  have ends : exec (.killt sw) s = .next (settleKills (finish i { issueWork i with kill := !i.act.isEmpty })) :=
    congrArg afterKill (groupOnly_next h _)
  rw [ends]
  by_cases idle : i.act = []
  · rw [if_pos idle, idle]
    rfl
  · have executes : (!i.act.isEmpty) = true := by simpa using idle
    rw [if_neg idle, executes, finish_kill rfl rfl rfl]

/-- What a kill leaves alone: every other team with its groups, and all memory (07 R156). -/
structure KillsOnly (s u : State) (tid : Nat) : Prop where
  marked : (tget u.teams tid).map (·.killed) = some true
  teams : ∀ k, k ≠ tid → tget u.teams k = tget s.teams k
  spared : ∀ k g, tget s.groups k = some g → g.team ≠ tid → tget u.groups k = some g
  dropped : ∀ k g, tget s.groups k = some g → g.team = tid → tget u.groups k = some (dropGroup g)
  memory : u.lmem = s.lmem ∧ u.lbits = s.lbits ∧ u.gmem = s.gmem ∧ u.cmem = s.cmem ∧ u.pages = s.pages ∧ u.dev = s.dev

theorem chargeTeam_memory (s : State) (tid : Nat) : let u := chargeTeam s tid
    u.lmem = s.lmem ∧ u.lbits = s.lbits ∧ u.gmem = s.gmem ∧ u.cmem = s.cmem ∧ u.pages = s.pages ∧ u.dev = s.dev := by
  unfold chargeTeam
  split
  · exact ⟨rfl, rfl, rfl, rfl, rfl, rfl⟩
  · split <;> exact ⟨rfl, rfl, rfl, rfl, rfl, rfl⟩

theorem killTeam_only {s : State} {tid : Nat} {t : Team} (keep : Bool) (found : tget s.teams tid = some t)
    (alive : t.killed = false) : KillsOnly s (killTeam s tid keep) tid := by
  simp only [killTeam, found, alive, Bool.false_eq_true, if_false]
  refine ⟨?_, fun k other => ?_, fun k g group other => ?_, fun k g group own => ?_, chargeTeam_memory s tid⟩
  · rw [tget_tput_self]; rfl
  · exact tget_tput_ne _ _ _ _ other
  · rw [tget_tmap, group, Option.map_some, if_neg (by simpa using other)]
  · rw [tget_tmap, group, Option.map_some, if_pos (by simpa using own)]

end Sys2Proof.Machine
end

section
/-! SUPPORT. Illegal words: the issue set of a group is parked as one more sub-group with nothing else done, a control core
stops, and a sequencer's program ends (04 R88-R90, 06 R127, 21 R386). -/

namespace Sys2Proof.Machine

open Sys2Proof

/-! ### Sub-groups that the end of a word parks (06 R127, 21 R386) -/

theorem releaseMasks_parks (q : Nat) (g : Group) : (releaseMasks q g).regs.trap.parks = g.regs.trap.parks :=
  (upto 12).foldlRecOn (motive := fun b => b.regs.trap.parks = g.regs.trap.parks) _ rfl fun (b : Group) same k _ => by
    rw [← same]
    unfold releaseMask
    dsimp only
    split <;> rfl

theorem endChunk_parks (cycle : Nat) (g : Group) : (endChunk cycle g).regs.trap.parks = g.regs.trap.parks := by
  unfold endChunk
  split
  · rfl
  · split <;> rfl

theorem closedGroup_parks (i : In) (doomed : Bool) (g : Group) :
    (closedGroup i doomed g).regs.trap.parks = g.regs.trap.parks := by
  have ends : (if endsWithWord g then endParts g else g).regs.trap.parks = g.regs.trap.parks := by
    split <;> rfl
  unfold closedGroup
  rw [endChunk_parks, ← ends]
  generalize (if endsWithWord g then endParts g else g) = b
  obtain ⟨ls, lanes⟩ := endSwitch_lanes b.regs
  rw [lanes]
  cases doomed <;> rfl

theorem freeSlot_parks (c : GroupCore) : (freeSlot c).trap.parks = c.trap.parks := by
  unfold freeSlot
  split <;> rfl

theorem placedGroup_parks (i : In) (w : Work) (causes : Table Nat) (win : Option Nat) :
    (placedGroup i w causes win).regs.trap.parks = (takeTrap (placeLanes i w.fates w.g) i.lanes (trapTable w.fates)
      i.runPc (i.pc + 4#32) w.illegal causes win).regs.trap.parks := by
  unfold placedGroup
  rw [releaseMasks_parks]
  exact freeSlot_parks _

/-- The group at the end of a plain word. -/
theorem finish_closedGroup {i : In} {w : Work} (p : Plain i w) : ∃ doomed causes win, tget (finish i w).groups i.gid =
    some (closedGroup i doomed (placedGroup i w causes win)) := by
  simp only [finish, p.stall, p.retry, p.kill, Bool.false_eq_true, if_false]
  exact ⟨_, _, _, tget_tput_self _ _ _⟩

/-! ### The trap of an illegal word (04 R88) -/

theorem leastD_eq_of_forall_eq {ls : List Nat} {a d : Nat} (nonempty : ls ≠ []) (all : ∀ x ∈ ls, x = a) : leastD ls d = a := by
  obtain ⟨b, rest, rfl⟩ := List.exists_cons_of_ne_nil nonempty
  obtain rfl := all b (List.mem_cons_self ..)
  exact rest.foldlRecOn (motive := (· = b)) min rfl fun m same x listed => by
    rw [same, all x (List.mem_cons_of_mem _ listed), min_self]

/-- The sub-group that the trap of some lanes with cause c and address a parks, none of its set done. -/
theorem takeTrap_parkFacts {g : Group} {ls : List Nat} {traps : Table (Nat × Word)} {pc after : Word} {cs : Table Nat}
    {win : Option Nat} {c : Nat} {a : Word} (nonempty : traps ≠ [])
    (all : ∀ e ∈ traps, e.2 = (c, a)) :
    (takeTrap g ls traps pc after true cs win).regs.trap.parks.map parkFacts = g.regs.trap.parks.map parkFacts ++
      [(maskOf (traps.map (·.1)), pc, after, c, a, 0#64)] := by
  have cause : leastD (traps.map (·.2.1)) 0 = c :=
    leastD_eq_of_forall_eq (by simpa using nonempty) (by simpa using fun k x y h => congrArg Prod.fst (all _ h))
  have every : traps.filter (fun e => e.2.1 == c) = traps :=
    List.filter_eq_self.mpr fun e h => by simp [all e h]
  obtain ⟨e, rest, rfl⟩ := List.exists_cons_of_ne_nil nonempty
  have address : e.2.2 = a := congrArg Prod.snd (all e (List.mem_cons_self ..))
  simp only [takeTrap, cause, every, List.head?_cons, Option.map_some, Option.getD_some, address, List.map_append,
    List.map_singleton, parkFacts, if_true]

/-- The work of an illegal word: every lane of the set traps with cause 1 and address 0, and none is done (04 R88). -/
def illegalWork (i : In) : Work := { setFates (startWork i) i.lanes (.trap 1 0#32) with illegal := true }

section

variable {i : In}

theorem mem_illegalFates {e : Nat × Fate} : e ∈ (illegalWork i).fates ↔ e.1 ∈ i.lanes ∧ e.2 = .trap 1 0#32 :=
  mem_foldl_tput (fun _ => Fate.trap 1 0#32) _

theorem illegalWork_plain : Plain i (illegalWork i) :=
  ⟨rfl, rfl, rfl, fun e mem => by rw [(mem_illegalFates.mp mem).2]; nofun, fun _ _ => rfl, rfl, rfl⟩

theorem mem_illegalTraps {e : Nat × (Nat × Word)} :
    e ∈ trapTable (illegalWork i).fates ↔ e.1 ∈ i.lanes ∧ e.2 = (1, 0#32) := by
  simp only [trapTable, List.mem_filterMap]
  constructor
  · rintro ⟨⟨k, f⟩, mem, trap⟩
    obtain ⟨listed, rfl⟩ := mem_illegalFates.mp mem
    cases trap
    exact ⟨listed, rfl⟩
  · rintro ⟨listed, value⟩
    exact ⟨(e.1, .trap 1 0#32), mem_illegalFates.mpr ⟨listed, rfl⟩, congrArg (fun x => some (e.1, x)) value.symm⟩

theorem mem_illegalTraps_lanes {k : Nat} : k ∈ (trapTable (illegalWork i).fates).map (·.1) ↔ k ∈ i.lanes := by
  simp [mem_illegalTraps]

/-- The traps of an illegal word as the statements list them: lane, cause, address. -/
def illegalTraps (i : In) : List (Nat × Nat × Word) := i.lanes.map (fun k => (k, 1, 0#32))

theorem illegalTraps_lanes : (illegalTraps i).map (·.1) = i.lanes := by
  simp [illegalTraps, Function.comp_def]

theorem leastCause_illegalTraps (inhabited : i.lanes ≠ []) : leastCause (illegalTraps i) = 1 := by
  obtain ⟨k, rest, lanes⟩ := List.exists_cons_of_ne_nil inhabited
  have all : ∀ c ∈ (illegalTraps i).map (·.2.1), c = 1 := by simp [illegalTraps]
  have head : ((illegalTraps i).map (·.2.1)).headD 0 = 1 := by simp [illegalTraps, lanes]
  rw [leastCause, head]
  exact List.foldlRecOn (motive := (· = 1)) _ min rfl fun m same c listed => by rw [same, all c listed]; rfl

/-- The lanes of the set are one more parked sub-group once an illegal word has ended. -/
theorem illegalWork_parks (inhabited : i.lanes ≠ []) {h : Group}
    (ends : tget (finish i (illegalWork i)).groups i.gid = some h) :
    SubgroupParked i h (illegalTraps i) := by
  obtain ⟨doomed, causes, win, closed⟩ := finish_closedGroup (illegalWork_plain (i := i))
  obtain rfl := Option.some.inj (ends.symm.trans closed)
  constructor
  · obtain ⟨k, listed, least⟩ := i.lanes.toFinset.exists_min_image id (by simpa using inhabited)
    simp only [List.mem_toFinset, id_eq] at listed least
    have masks : maskOf ((trapTable (illegalWork i).fates).map (·.1)) = maskOf i.lanes :=
      maskOf_congr fun _ => mem_illegalTraps_lanes
    have trapped : trapTable (illegalWork i).fates ≠ [] :=
      List.ne_nil_of_mem (mem_illegalTraps.mpr ⟨listed, rfl⟩ : (k, (1, 0#32)) ∈ _)
    have others : i.lanes.filter (fun k => !i.lanes.contains k) = [] := by simp
    refine ⟨k, 0#32, ?_, fun e mem _ => ?_, ?_⟩
    · rw [leastCause_illegalTraps inhabited]
      exact List.mem_map.mpr ⟨k, listed, rfl⟩
    · obtain ⟨j, other, rfl⟩ := List.mem_map.mp mem
      exact least j other
    · rw [closedGroup_parks, placedGroup_parks, leastCause_illegalTraps inhabited, illegalTraps_lanes, others]
      exact (takeTrap_parkFacts trapped fun e mem => (mem_illegalTraps.mp mem).2).trans (by rw [masks]; rfl)
  · intro k trapped
    rw [illegalTraps_lanes] at trapped
    obtain ⟨n, -, found⟩ := tget_placeLanes_of_mem (illegalWork i).fates i.g trapped
    exact (closedGroup_standsAt _ _ (releaseMasks_standsAt _ (standsAt_of_lanes_eq (takeTrap_parked found
      (mem_illegalTraps_lanes.mpr trapped)) (freeSlot_lanes _)) rfl)).symm

end

section

variable {s : State} {gid set : Nat} {g : Group} {t : Team} {l : Launch}

/-- What the input of an issue leaves of the device. -/
theorem issueIn_facts (f : Form) (found : groupTriple s gid = some (g, t, l)) : IssueFacts s f (issueIn s gid set f g t l) := by
  have team : tget s.teams g.team = some t := by
    unfold groupTriple at found
    split at found
    · cases found
    · split at found
      · cases found
      · split at found
        · cases found
        · cases found; assumption
  unfold issueIn
  by_cases opened : g.cur.isSome = true
  · simp only [opened, if_true]
    exact ⟨rfl, rfl, rfl, rfl, rfl, rfl, team, opened⟩
  · simp only [opened, Bool.false_eq_true, if_false]
    exact ⟨rfl, rfl, rfl, rfl, rfl, rfl, team, rfl⟩

theorem exec_illegalInstruction (actor : s.issue.actor = .group gid set) (found : groupTriple s gid = some (g, t, l)) :
    exec .illegalInstruction s =
      .next (illegalGroup (issueIn s gid set { sw := false, illegal := true } g t l)) := by
  have only : exec .illegalInstruction s = groupOnly s { sw := false, illegal := true } (fun _ w => w) := rfl
  simp only [only, groupOnly, actor, groupIssue, found, formIllegal, Bool.true_or, if_true]

/-- An illegal word of a group parks its set, and nothing else changes. -/
theorem illegalInstruction_completes (actor : s.issue.actor = .group gid set) (found : groupTriple s gid = some (g, t, l))
    (inhabited : (issueIn s gid set { sw := false, illegal := true } g t l).lanes ≠ []) :
    let i := issueIn s gid set { sw := false, illegal := true } g t l
    Completes .illegalInstruction s i (fun h => SubgroupParked i h (illegalTraps i) ∧
      FilesKept i h [] ∧ ChunksKept i h ∧ SpecialsKept i h) := by
  intro i
  have facts : IssueFacts s _ i := issueIn_facts _ found
  have plain : Plain i (illegalWork i) := illegalWork_plain
  obtain ⟨h, ends, q, o⟩ := finish_group i _ plain.stall plain.retry plain.kill plain.fates
    (by rw [facts.teams]; exact facts.team) plain.team plain.core
  exact ⟨_, h, exec_illegalInstruction actor found, ends, ⟨illegalWork_parks inhabited ends, q.kept⟩,
    o.device.trans facts.device, o.cores.trans facts.cores, fun k other => (o.groups k other).trans (by rw [facts.groups]),
    fun k n hn => (o.teams k n hn).trans (by rw [facts.teams]), q.place⟩

end

/-! ### Illegal words of control cores and sequencers (04 R89, R90) -/

/-- The record that a post adds to a cluster's queue; besides, only a frame to the host may be sent (07 R144-R146). -/
theorem postEvent_port (s : State) (c type source : Nat) (payload : BitVec 128) :
    PortOnly (setCluster s c { clusterAt s c with
      events := pushEvent (clusterAt s c).events
        { type := type, source := source, seq := (clusterAt s c).eventSeq, phase := s.chipPhase, payload := payload },
      eventSeq := ((clusterAt s c).eventSeq + 1) % 2 ^ 32 }) (postEvent s c type source payload) := by
  simp only [postEvent, postNaming]
  split
  · split
    · exact hostEvent_port _ _ _
    · exact .refl _
  · exact .refl _

theorem clusterAt_postEvent (s : State) (c type source : Nat) (payload : BitVec 128) :
    clusterAt (postEvent s c type source payload) c = { clusterAt s c with
      events := pushEvent (clusterAt s c).events
        { type := type, source := source, seq := (clusterAt s c).eventSeq, phase := s.chipPhase, payload := payload },
      eventSeq := ((clusterAt s c).eventSeq + 1) % 2 ^ 32 } := by
  obtain ⟨-, -, -, -, clusters, -⟩ := (postEvent_port s c type source payload).tables
  rw [clusterAt, clusters]
  exact clusterAt_setCluster_self s c _

/-- An illegal word stops the program of a control core and posts CTL_ILLEGAL (04 R89). -/
theorem stopControl_stops (s : State) (c type : Nat) (word off access : Word) : let t := stopControl s c type word off access
    (ctlAt t c).running = false ∧ (ctlAt t c).s = (ctlAt s c).s ∧
      (clusterAt t c).events = pushEvent (clusterAt s c).events
        { type := type, source := sourceOf 3 c, seq := (clusterAt s c).eventSeq, phase := s.chipPhase,
          payload := packPayload [(4, word.toNat), (4, off.toNat), (4, access.toNat)] } ∧
      t.cmem = s.cmem ∧ t.gmem = s.gmem ∧ t.lmem = s.lmem := by
  intro t
  obtain ⟨lmem, -, -, cmem, gmem⟩ := (postEvent_port (setCluster s c { clusterAt s c with
    ctl := { (clusterAt s c).ctl with running := false, wait := .none } }) c type (sourceOf 3 c)
      (packPayload [(4, word.toNat), (4, off.toNat), (4, access.toNat)])).memory
  have cluster : clusterAt t c = _ := clusterAt_postEvent _ _ _ _ _
  rw [clusterAt_setCluster_self] at cluster
  rw [ctlAt, cluster]
  exact ⟨rfl, rfl, rfl, cmem, gmem, lmem⟩

/-- A record that is posted, or not, changes no engine, group, lattice or partition. -/
theorem ite_postEvent_tables (b : Bool) (u : State) (c type source : Nat) (payload : BitVec 128) :
    let v := if b then postEvent u c type source payload else u
    v.engines = u.engines ∧ v.groups = u.groups ∧ v.lattices = u.lattices ∧ v.parts = u.parts := by
  cases b with
  | false => exact ⟨rfl, rfl, rfl, rfl⟩
  | true =>
    obtain ⟨parts, -, -, groups, -, engines, lattices, -⟩ := (postEvent_port u c type source payload).tables
    exact ⟨engines, groups, lattices, parts⟩

section

variable {s : State} {core unit : Nat} {p : Prog}

/-- The end of a unit's program: the unit is free, the group that forked it learns the status, and no lattice or partition
changes (11 R235, R236). -/
theorem endProgram_tables (run : (engineAt s core unit).run = some p) (status off : Nat) (word : Word) :
    let t := endProgram s core unit status off word
    t.engines = tput s.engines (core * 8 + unit) { engineAt s core unit with run := none } ∧
      (∀ gid g, p.group = some gid → tget s.groups gid = some g → tget t.groups gid = some (noteStatus g p.uid status)) ∧
      t.lattices = s.lattices ∧ t.parts = s.parts := by
  simp only [endProgram, run]
  obtain ⟨engines, groups, lattices, parts⟩ := ite_postEvent_tables (status == 3 || status == 4) _ (core / 64) 8 _ _
  rw [engines, groups, lattices, parts]
  have learns (gid : Nat) (g : Group) (forked : p.group = some gid) (group : tget s.groups gid = some g) :
      tget (tmod s.groups gid fun g => noteStatus g p.uid status) gid = some (noteStatus g p.uid status) := by
    rw [tget_tmod, if_pos rfl, group, Option.map_some]
  split
  case h_1 gid forked =>
    split <;> refine ⟨rfl, fun k g other group => ?_, rfl, rfl⟩
    all_goals
      obtain rfl := Option.some.inj (forked.symm.trans other)
      exact learns gid g forked group
  case h_2 alone =>
    split <;> exact ⟨rfl, fun k g forked => absurd (alone.symm.trans forked) nofun, rfl, rfl⟩

theorem run_of_seqAt {q : Seq} (found : seqAt s core unit = some q) : (engineAt s core unit).run = some q.p := by
  unfold seqAt at found
  split at found
  · cases found
  · next p run =>
    split at found
    · cases found
    · split at found <;> cases found
      exact run

/-- ENGINE_ILLEGAL ends the program of the sequencer that issues it, with status 3 (04 R90). -/
theorem engineIllegal_ends {lat : Bool} {q : Seq} (h : SeqIssues s lat q) : EndsWith .engineIllegal s q 3 := by
  obtain ⟨actor, small, -, found⟩ := h
  have ends : exec .engineIllegal s = .next (endProgram s q.core q.unit 3 s.issue.pc.toNat s.issue.word) := by
    have meaning : exec .engineIllegal s = execEngineIllegal s := rfl
    rw [meaning, execEngineIllegal, actor]
  obtain ⟨engines, groups, lattices, parts⟩ := endProgram_tables (run_of_seqAt found) 3 s.issue.pc.toNat s.issue.word
  obtain ⟨lmem, -, -, -, gmem⟩ := endProgram_memory s q.core q.unit 3 s.issue.pc.toNat s.issue.word
  refine ⟨_, ends, ?_, ⟨fun c u hu other => ?_, ?_⟩, groups, gmem, lmem, lattices, parts⟩
  · rw [engineAt, engines, tgetD_tput_self]
  · rw [engineAt, engines, tgetD_tput_ne _ _ _ _ _ (by omega)]
    rfl
  · rw [engineAt, engines, tgetD_tput_self]

end

end Sys2Proof.Machine

namespace Sys2Proof

open Sys2Proof.Machine

/-- Settles O48: KILL and KILLT come to their outcome and then let go what the dead held, a kill touches its own team and its
groups alone, and an illegal word has the fate that its issuer gives it. -/
theorem killsAndIllegalWords : Obligations.KillsAndIllegalWords := by
  refine ⟨?kill, fun sw s i issues => exec_killt issues, ?team, ?group, ?control, fun s q lat issues => engineIllegal_ends issues⟩
  case kill =>
    intro sw d x y s c n p issues found ans
    have of_outcome {u : State} {v : Word} (outcome : killOutcome s n p (cNum s c x) (cNum s c y) = (u, v)) : ans u v := by
      have meaning := exec_kill issues found sw d x y
      rwa [outcome] at meaning
    refine ⟨fun bad => of_outcome (if_pos bad), fun legal unknown => of_outcome ?_, fun lid l legal known =>
      ⟨fun ended => of_outcome ?_, fun runs mode => of_outcome ?_, fun runs mode punctual => of_outcome ?_,
        fun runs mode late => of_outcome ?_⟩⟩
    · simp only [killOutcome, if_neg (not_lt.mpr legal), unknown]
    · simp only [killOutcome, if_neg (not_lt.mpr legal), known, if_pos ended]
    · simp only [killOutcome, if_neg (not_lt.mpr legal), known, if_neg runs, if_pos mode]
    · simp only [killOutcome, mode, lt_self_iff_false, if_false, known, if_neg runs, one_ne_zero, if_pos punctual]
    · simp only [killOutcome, mode, lt_self_iff_false, if_false, known, if_neg runs, one_ne_zero, if_neg late]
  case team =>
    intro s tid t keep found alive u
    obtain ⟨marked, teams, spared, dropped, memory⟩ := killTeam_only keep found alive
    exact ⟨marked, teams, spared, dropped, memory⟩
  case group =>
    intro s gid set g t l actor found i inhabited
    exact illegalInstruction_completes actor found inhabited
  case control =>
    intro s c actor route
    have stops : exec .ctlIllegal s = .next (stopControl s c 6 s.issue.word s.issue.pc 0#32) := by
      have meaning : exec .ctlIllegal s = controlOnly s stopAtWord := rfl
      rw [meaning, controlOnly, actor]
      simp only [stopAtWord, route, Option.isSome_none, Bool.false_eq_true, if_false]
    exact ⟨_, stops, stopControl_stops ..⟩

end Sys2Proof
end

section
/-! SUPPORT. EVPOP over a control memory that is not in canonical form: the byte of an address that stands in it twice does
not become 0 by one write (07 R147). -/

namespace Sys2Proof.Machine

open Sys2Proof

/-- The control core of cluster 0 at a word; one record of zeros waits in the cluster's queue, and control memory lists
address 0 twice. -/
def doubledByte : State :=
  { State.reset with
    parts := [(0, { clusters := [0], weight := 1, ports := [], quota := 8, strag := 1024, exch := 1024, spanTag := 0, spanSize := 0 })]
    clusters := [(0, { events := [{ type := 0, source := 0, seq := 0, phase := 0, payload := 0#128 }] })]
    cmem := [(0, 1#8), (0, 2#8)]
    issue := { actor := .control 0 } }

theorem ctlIssues_doubledByte : CtlIssues doubledByte 0 0 := ⟨rfl, rfl, rfl, rfl, rfl⟩

/-- EVPOP to address 0 takes the first entry away, and the second is read from then on. -/
theorem evpop_doubledByte : ∃ t, exec (.evpop false 1#6 0#6) doubledByte = .next t ∧ mread t.cmem 0 = 2#8 :=
  ⟨_, rfl, by decide +kernel⟩

end Sys2Proof.Machine

namespace Sys2Proof

open Sys2Proof.Machine

/-- Refutes O46: its clause on EVPOP has the record's bytes read back from control memory in every state, also one whose
control memory is not in canonical form (`Memory.wf`), where a byte that is set to 0 can read as the next entry of its
address. -/
theorem not_controlWordsAnswer : ¬ Obligations.ControlWordsAnswer := by
  unfold Obligations.ControlWordsAnswer
  intro h
  obtain ⟨-, -, pops, -⟩ := h
  obtain ⟨-, moves⟩ := pops false 1#6 0#6 doubledByte 0 0 ctlIssues_doubledByte
  obtain ⟨t, ht, -, written, -⟩ := moves _ [] rfl (by decide +kernel) (by decide +kernel) (by decide +kernel)
  obtain ⟨u, hu, byte⟩ := evpop_doubledByte
  obtain rfl : t = u := by injection ht.symm.trans hu
  exact absurd ((written 0 (by decide)).symm.trans byte) (by decide +kernel)

end Sys2Proof
end

section
/-! SUPPORT. A change of attributes that leaves a page HOME: the run of exchanges that its home counts goes on (10 R227). -/

namespace Sys2Proof.Machine

open Sys2Proof

/-- A HOME page of partition 0, which die 3 alone has written in the last two exchanges (10 R227). -/
def countedPage : Page :=
  { part := 0, writable := true, shared := false, nonatomic := false, replicate := false, sysAtomic := false, home := 0,
    histDie := 3, histCount := 2 }

/-- The device with that page. -/
def countedDevice : State := { State.reset with pages := [(0, countedPage)] }

/-- The page stays HOME under attributes without REPLICATE, and its count stands. -/
theorem setAttributes_countedDevice :
    (tget (setAttributes countedDevice 0 0 0).pages 0).map (·.histCount) = some 2 := by decide +kernel

end Sys2Proof.Machine

namespace Sys2Proof

open Sys2Proof.Machine

/-- Refutes O55: its clause on `setAttributes` has every change of attributes end the run of exchanges that a HOME page
counts (`attributed`); where the page stays HOME, the run goes on, as no rule ends it (10 R227; log 142). -/
theorem not_hostRequests : ¬ Obligations.HostRequests := by
  unfold Obligations.HostRequests
  intro h
  obtain ⟨-, -, -, becomes, -⟩ := h
  have counts := setAttributes_countedDevice
  rw [becomes] at counts
  exact absurd counts (by decide +kernel)

end Sys2Proof
end

section
/-! SUPPORT. Step by step, the opening of an exchange and the close of a boundary leave the two clocks of the device, the
boundary counts and the exchange time-outs of its partitions; only step 4 of a close counts (08 R163, R165). A rule
`SameClocks.f` says so of the operation `f`; the rules follow the order of the model. -/

namespace Sys2Proof.Machine

open Sys2Proof

/-- The boundary count and the exchange time-out of a partition: what an operation of a boundary leaves as it was. -/
def boundaryClock (p : Part) : Nat × Nat := (p.boundary, p.exch)

/-- State t has the cycle and the phase of state s, and its partitions with their boundary counts and time-outs. -/
structure SameClocks (s t : State) : Prop where
  cycle : t.cycle = s.cycle
  chipPhase : t.chipPhase = s.chipPhase
  parts : ∀ n, (tget t.parts n).map boundaryClock = (tget s.parts n).map boundaryClock

/-- What a request of a host comes to leaves the clocks. -/
inductive SameClocksResult (s : State) : HostResult → Prop
  | done {t : State} {status : Nat} {payload : List Byte} (h : SameClocks s t) : SameClocksResult s (.done t status payload)
  | begun {t : State} (h : SameClocks s t) : SameClocksResult s (.begun t)
  | hold : SameClocksResult s .hold

variable {s0 s t : State}

theorem SameClocksResult.of_done {status : Nat} {payload : List Byte} :
    SameClocksResult s (.done t status payload) → SameClocks s t
  | .done h => h

theorem SameClocksResult.of_begun : SameClocksResult s (.begun t) → SameClocks s t
  | .begun h => h

/-- The partition that stood at a key still stands there, with its count and its time-out. -/
theorem SameClocks.found {n : Nat} {p : Part} (h : SameClocks s t) (hp : tget s.parts n = some p) :
    ∃ q, tget t.parts n = some q ∧ q.boundary = p.boundary ∧ q.exch = p.exch := by
  have same := h.parts n
  rw [hp, Option.map_some] at same
  obtain ⟨q, hq, clock⟩ := Option.map_eq_some_iff.mp same
  exact ⟨q, hq, congrArg Prod.fst clock, congrArg Prod.snd clock⟩

/-! ### Updates, choices and folds -/

theorem boundaryClock_tmod {ps : Table Part} {k n : Nat} {f : Part → Part} (same : ∀ p, boundaryClock (f p) = boundaryClock p) :
    (tget (tmod ps k f) n).map boundaryClock = (tget ps n).map boundaryClock := by
  rw [tget_tmod]
  split
  · rw [Option.map_map]
    exact congrArg (Option.map · _) (funext same)
  · rfl

theorem boundaryClock_tmap {ps : Table Part} {n : Nat} {f : Nat → Part → Part}
    (same : ∀ k p, boundaryClock (f k p) = boundaryClock p) :
    (tget (tmap ps f) n).map boundaryClock = (tget ps n).map boundaryClock := by
  rw [tget_tmap, Option.map_map]
  exact congrArg (Option.map · _) (funext (same n))

protected theorem SameClocks.refl (s : State) : SameClocks s s := ⟨rfl, rfl, fun _ => rfl⟩

/-- An update of any field but the clocks, which leaves the clocks of the partitions. -/
theorem SameClocks.onParts {dev parts launches teams retired groups clusters cores engines lattices biased gred lmem lbits
    lsnap cmem gmem pages lags lost fabric fabricOut spanOut pool sessions nextSession sent issue turn agenda nextId
    freeCount} (h : SameClocks s0 s)
    (same : ∀ n, (tget parts n).map boundaryClock = (tget s.parts n).map boundaryClock) :
    SameClocks s0
      { cycle := s.cycle, chipPhase := s.chipPhase, dev := dev, parts := parts, launches := launches, teams := teams,
        retired := retired, groups := groups, clusters := clusters, cores := cores, engines := engines,
        lattices := lattices, biased := biased, gred := gred, lmem := lmem, lbits := lbits, lsnap := lsnap,
        cmem := cmem, gmem := gmem, pages := pages, lags := lags, lost := lost, fabric := fabric,
        fabricOut := fabricOut, spanOut := spanOut, pool := pool, sessions := sessions, nextSession := nextSession,
        sent := sent, issue := issue, turn := turn, agenda := agenda, nextId := nextId, freeCount := freeCount } :=
  ⟨h.cycle, h.chipPhase, fun n => (same n).trans (h.parts n)⟩

/-- An update of any field but the clocks and the partitions. -/
theorem SameClocks.elsewhere {dev launches teams retired groups clusters cores engines lattices biased gred lmem lbits
    lsnap cmem gmem pages lags lost fabric fabricOut spanOut pool sessions nextSession sent issue turn agenda nextId
    freeCount} (h : SameClocks s0 s) :
    SameClocks s0
      { cycle := s.cycle, chipPhase := s.chipPhase, dev := dev, parts := s.parts, launches := launches, teams := teams,
        retired := retired, groups := groups, clusters := clusters, cores := cores, engines := engines,
        lattices := lattices, biased := biased, gred := gred, lmem := lmem, lbits := lbits, lsnap := lsnap,
        cmem := cmem, gmem := gmem, pages := pages, lags := lags, lost := lost, fabric := fabric,
        fabricOut := fabricOut, spanOut := spanOut, pool := pool, sessions := sessions, nextSession := nextSession,
        sent := sent, issue := issue, turn := turn, agenda := agenda, nextId := nextId, freeCount := freeCount } :=
  h.onParts fun _ => rfl

/-- A partition that is set to one with its clock. -/
protected theorem SameClocks.setPart {n : Nat} {p q : Part} (h : SameClocks s0 s) (found : tget s.parts n = some p)
    (same : boundaryClock q = boundaryClock p) : SameClocks s0 (setPart s n q) :=
  h.onParts fun k => by
    rw [tget_tput]
    split
    · next own => rw [own, found, Option.map_some, Option.map_some, same]
    · rfl

/-- What the host port sends leaves the clocks. -/
protected theorem SameClocks.port (h : SameClocks s0 s) (sent : PortOnly s t) : SameClocks s0 t := by
  obtain ⟨parts, -⟩ := sent.tables
  have cycle := congrArg State.cycle sent.rest
  have chipPhase := congrArg State.chipPhase sent.rest
  exact ⟨Eq.trans cycle h.cycle, Eq.trans chipPhase h.chipPhase, fun n => parts ▸ h.parts n⟩

protected theorem SameClocks.ite {a b : State} {c : Prop} [Decidable c] (ha : SameClocks s0 a) (hb : SameClocks s0 b) :
    SameClocks s0 (if c then a else b) := by
  split
  · exact ha
  · exact hb

protected theorem SameClocksResult.ite {a b : HostResult} {c : Prop} [Decidable c] (ha : SameClocksResult s0 a)
    (hb : SameClocksResult s0 b) : SameClocksResult s0 (if c then a else b) := by
  split
  · exact ha
  · exact hb

protected theorem SameClocks.foldl {α : Type} {f : State → α → State} {xs : List α}
    (hf : ∀ {t x}, SameClocks s0 t → SameClocks s0 (f t x)) (h : SameClocks s0 s) : SameClocks s0 (xs.foldl f s) :=
  xs.foldlRecOn f h (fun _ ht _ _ => hf ht)

/-! ### Shared operations -/

protected theorem SameClocks.setLaunch {lid l} (h : SameClocks s0 s) : SameClocks s0 (setLaunch s lid l) := .elsewhere h

protected theorem SameClocks.setTeam {tid u} (h : SameClocks s0 s) : SameClocks s0 (setTeam s tid u) := .elsewhere h

protected theorem SameClocks.setGroup {gid g} (h : SameClocks s0 s) : SameClocks s0 (setGroup s gid g) := .elsewhere h

protected theorem SameClocks.setCluster {c v} (h : SameClocks s0 s) : SameClocks s0 (setCluster s c v) := .elsewhere h

protected theorem SameClocks.postNaming {limit c type source payload} (h : SameClocks s0 s) :
    SameClocks s0 (postNaming limit s c type source payload) := by
  simp only [postNaming]
  split
  · split
    · exact (SameClocks.setCluster h).port (hostEvent_port _ _ _)
    · exact .setCluster h
  · exact .setCluster h

protected theorem SameClocks.postEvent {c type source payload} (h : SameClocks s0 s) :
    SameClocks s0 (postEvent s c type source payload) :=
  .postNaming h

protected theorem SameClocks.chargeTeam {tid} (h : SameClocks s0 s) : SameClocks s0 (chargeTeam s tid) := by
  unfold chargeTeam
  split
  · exact h
  · split
    · exact h
    · exact .onParts (.setLaunch h) fun _ => boundaryClock_tmod fun _ => rfl

protected theorem SameClocks.onExchange {n f} (h : SameClocks s0 s) : SameClocks s0 (onExchange s n f) :=
  .onParts h fun _ => boundaryClock_tmod fun _ => rfl

protected theorem SameClocks.noteWriter {n pages who} (h : SameClocks s0 s) : SameClocks s0 (noteWriter s n pages who) :=
  .onExchange h

protected theorem SameClocks.noteBefore {n words} (h : SameClocks s0 s) : SameClocks s0 (noteBefore s n words) :=
  .onExchange h

protected theorem SameClocks.bumpCounter {lid i n thr} (h : SameClocks s0 s) : SameClocks s0 (bumpCounter s lid i n thr) := by
  unfold bumpCounter
  split
  · exact h
  · exact .ite (.postEvent (.setLaunch h)) (.setLaunch h)

protected theorem SameClocks.applyCounts {tid counts} (h : SameClocks s0 s) : SameClocks s0 (applyCounts s tid counts) := by
  unfold applyCounts
  split
  · exact h
  · exact .foldl .bumpCounter h

protected theorem SameClocks.writeGlobal {a bs} (h : SameClocks s0 s) : SameClocks s0 (writeGlobal s a bs) := .elsewhere h

/-! ### Teams and launches that end -/

protected theorem SameClocks.freeSlots {tid} (h : SameClocks s0 s) : SameClocks s0 (freeSlots s tid) :=
  .onParts h fun _ => boundaryClock_tmap fun _ _ => rfl

protected theorem SameClocks.freeLattices {tid} (h : SameClocks s0 s) : SameClocks s0 (freeLattices s tid) := .elsewhere h

protected theorem SameClocks.removeTeam {tid} (h : SameClocks s0 s) : SameClocks s0 (removeTeam s tid) :=
  .elsewhere (.freeLattices (.freeSlots h))

protected theorem SameClocks.chainQueue {fuel n q} (h : SameClocks s0 s) : SameClocks s0 (chainQueue fuel s n q) := by
  induction fuel generalizing s with
  | zero => exact h
  | succ fuel ih =>
    rw [chainQueue]
    split
    · exact h
    · exact .ite h (ih (.onParts (.setLaunch h) fun _ => boundaryClock_tmod fun _ => rfl))

protected theorem SameClocks.writeLogHeader {l c count complete} (h : SameClocks s0 s) :
    SameClocks s0 (writeLogHeader s l c count complete) := by
  unfold writeLogHeader
  split
  · exact h
  · exact .ite h (.writeGlobal h)

protected theorem SameClocks.recordEntry {lid c e} (h : SameClocks s0 s) : SameClocks s0 (recordEntry s lid c e) := by
  unfold recordEntry
  split
  · exact h
  · dsimp only
    refine .ite h ?_
    split
    · exact h
    · exact .ite (.setLaunch (.writeGlobal h)) (.postEvent (.foldl .writeLogHeader (.setLaunch h)))

protected theorem SameClocks.closeLogs {l clusters} (h : SameClocks s0 s) : SameClocks s0 (closeLogs s l clusters) :=
  .ite (.foldl (fun k => .ite (.writeLogHeader k) k) h) h

protected theorem SameClocks.endLaunch {lid status reason} (h : SameClocks s0 s) :
    SameClocks s0 (endLaunch s lid status reason) := by
  unfold endLaunch
  split
  · exact h
  · exact .chainQueue (.postNaming (.setLaunch (.closeLogs h)))

protected theorem SameClocks.settleLaunch {lid} (h : SameClocks s0 s) : SameClocks s0 (settleLaunch s lid) := by
  unfold settleLaunch
  split
  · exact h
  · exact .ite (.endLaunch h) h

protected theorem SameClocks.settleLaunches (h : SameClocks s0 s) : SameClocks s0 (settleLaunches s) :=
  .foldl .settleLaunch h

/-! ### Saves and restores of teams -/

protected theorem SameClocks.formGroup {tid index core lanes} (h : SameClocks s0 s) :
    SameClocks s0 (formGroup s tid index core lanes) := by
  unfold formGroup
  split
  · exact h
  · split
    · exact h
    · exact .elsewhere (.setGroup (.setTeam (.setLaunch h)))

protected theorem SameClocks.clearChanged {u l} (h : SameClocks s0 s) : SameClocks s0 (clearChanged s u l) := .elsewhere h

protected theorem SameClocks.freshAllocation {u l} (h : SameClocks s0 s) : SameClocks s0 (freshAllocation s u l) :=
  .foldl .elsewhere h

protected theorem SameClocks.snapshotTeam {tid} (h : SameClocks s0 s) : SameClocks s0 (snapshotTeam s tid) := by
  unfold snapshotTeam
  split
  · exact h
  · split
    · exact h
    · exact .clearChanged (.setTeam h)

protected theorem SameClocks.restoreGroup {tid u l keep g} (h : SameClocks s0 s) :
    SameClocks s0 (restoreGroup s tid u l keep g) :=
  have placed {g' : Group} : SameClocks s0 { setGroup s s.nextId g' with nextId := s.nextId + 1 } := .elsewhere (.setGroup h)
  .ite placed (.elsewhere placed)

protected theorem SameClocks.restoreRecord {tid r} (h : SameClocks s0 s) : SameClocks s0 (restoreRecord tid s r) := by
  unfold restoreRecord
  split
  · exact h
  · dsimp only
    split
    · exact .setTeam h
    · exact .elsewhere h

protected theorem SameClocks.restoreTeam {tid u l keep x} (h : SameClocks s0 s) :
    SameClocks s0 (restoreTeam s tid u l keep x) := by
  unfold restoreTeam
  extract_lets _ _ _ s2 _ s3
  have h2 : SameClocks s0 s2 := .foldl .elsewhere (.setTeam h)
  have h3 : SameClocks s0 s3 := .onParts (.clearChanged h2) fun _ => boundaryClock_tmod fun _ => rfl
  exact .foldl .restoreRecord (.foldl .restoreGroup h3)

protected theorem SameClocks.resumeTeam {tid} (h : SameClocks s0 s) : SameClocks s0 (resumeTeam s tid) := .elsewhere h

/-! ### Placement and dispatch -/

protected theorem SameClocks.placeNew {lid l gang index size cores} (h : SameClocks s0 s) :
    SameClocks s0 (placeNew s lid l gang index size cores) :=
  .snapshotTeam (.foldl .formGroup (.freshAllocation (.elsewhere (.setTeam h))))

protected theorem SameClocks.placeSaved {tid u l x cores} (h : SameClocks s0 s) :
    SameClocks s0 (placeSaved s tid u l x cores) :=
  .snapshotTeam (.restoreTeam h)

protected theorem SameClocks.placeInCluster {lid l gang size c} (h : SameClocks s0 s) :
    ∀ r ∈ placeInCluster s lid l gang size c, SameClocks s0 r := by
  refine List.foldlRecOn (motive := fun o => ∀ r ∈ o, SameClocks s0 r) _ _ (forall_mem_some h) (fun o ho _ _ => ?_)
  cases o with
  | none => exact forall_mem_none
  | some u => exact forall_mem_map (fun _ _ => .placeNew (ho u rfl))

protected theorem SameClocks.restoreInCluster {l teams allow c} (h : SameClocks s0 s) :
    ∀ r ∈ restoreInCluster s l teams allow c, SameClocks s0 r := by
  refine List.foldlRecOn (motive := fun o => ∀ r ∈ o, SameClocks s0 r) _ _ (forall_mem_some h) (fun o ho _ _ => ?_)
  split
  · next u _ _ => exact forall_mem_map (fun _ _ => .placeSaved (ho u rfl))
  · exact forall_mem_none

protected theorem SameClocks.placeCurve {lid l gang size k c base} (h : SameClocks s0 s) :
    ∀ r ∈ placeCurve s lid l gang size k c base, SameClocks s0 r.1 := by
  unfold placeCurve
  dsimp only
  split
  · exact forall_mem_none
  · split
    · exact forall_mem_none
    · exact forall_mem_some (.foldl .placeNew h)

protected theorem SameClocks.writeShape {l off bs} (h : SameClocks s0 s) : SameClocks s0 (writeShape s l off bs) :=
  .ite (.writeGlobal h) h

protected theorem SameClocks.recordShape {lid l gang e} (h : SameClocks s0 s) : SameClocks s0 (recordShape s lid l gang e) :=
  .elsewhere (.writeShape (.ite (.writeShape h) h))

protected theorem SameClocks.placeRank {p lid l} (h : SameClocks s0 s) : ∀ r ∈ placeRank s p lid l, SameClocks s0 r := by
  dsimp only [placeRank]
  split
  · split
    · exact forall_mem_none
    · exact forall_mem_map (.placeCurve h)
  · exact forall_mem_findSome? (fun _ => forall_mem_map (fun _ e => .recordShape (.placeCurve h _ e)))

protected theorem SameClocks.placeNext {p lid l} (h : SameClocks s0 s) : ∀ r ∈ placeNext s p lid l, SameClocks s0 r :=
  forall_mem_findSome? (fun _ => forall_mem_findSome? (fun _ => .placeInCluster h))

protected theorem SameClocks.placeOne {p lid} (h : SameClocks s0 s) : ∀ r ∈ placeOne s p lid, SameClocks s0 r := by
  unfold placeOne
  split
  · exact forall_mem_none
  · split
    · split
      · exact forall_mem_none
      · exact forall_mem_map (fun u e => .elsewhere (forall_mem_findSome? (fun _ => .restoreInCluster h) u e))
    · split
      · exact forall_mem_none
      · refine forall_mem_map (fun u e => .elsewhere ?_)
        split at e
        · exact .placeNext h u e
        · exact .placeRank h u e

protected theorem SameClocks.placeAll {fuel p lid} (h : SameClocks s0 s) : SameClocks s0 (placeAll fuel s p lid) := by
  induction fuel generalizing s with
  | zero => exact h
  | succ fuel ih =>
    rw [placeAll]
    split
    · next e => exact ih (.placeOne h _ e)
    · exact h

protected theorem SameClocks.settleHead {fuel n q} (h : SameClocks s0 s) : SameClocks s0 (settleHead fuel s n q) := by
  induction fuel generalizing s with
  | zero => exact h
  | succ fuel ih =>
    rw [settleHead]
    split
    · refine .ite h ?_
      split
      · exact h
      · exact ih (.endLaunch h)
      · split
        · exact ih (.endLaunch (.setLaunch h))
        · exact .setLaunch h
    · exact h

protected theorem SameClocks.settleHeads {n} (h : SameClocks s0 s) : SameClocks s0 (settleHeads s n) :=
  .foldl (fun k => .foldl .settleHead k) h

theorem boundaryClock_liftDeficits (p : Part) (qs : List Nat) : boundaryClock (liftDeficits p qs) = boundaryClock p := by
  unfold liftDeficits
  dsimp only
  split <;> rfl

protected theorem SameClocks.dispatchLoop {fuel n} (h : SameClocks s0 s) : SameClocks s0 (dispatchLoop fuel s n) := by
  induction fuel generalizing s with
  | zero => exact h
  | succ fuel ih =>
    rw [dispatchLoop]
    have h1 : SameClocks s0 (settleHeads s n) := .settleHeads h
    dsimp only
    split
    · exact h1
    · next p found =>
      split
      · exact h1
      · split
        · exact h1
        · split
          · exact h1
          · exact ih (.placeAll (.setPart h1 found (boundaryClock_liftDeficits p _)))

protected theorem SameClocks.reportRefused {n} (h : SameClocks s0 s) : SameClocks s0 (reportRefused s n) := by
  refine .foldl (fun k => ?_) h
  split
  · split
    · exact .postEvent k
    · exact k
  · exact k

protected theorem SameClocks.dispatchPart {n} (h : SameClocks s0 s) : SameClocks s0 (dispatchPart s n) := by
  unfold dispatchPart
  split
  · exact h
  · next found => exact .dispatchLoop (.reportRefused (.setPart h found rfl))

/-! ### Requests of sessions -/

protected theorem SameClocks.replyTo {sid o status payload} (h : SameClocks s0 s) :
    SameClocks s0 (replyTo s sid o status payload) :=
  h.port (replyTo_port ..)

protected theorem SameClocks.onCtl {c f} (h : SameClocks s0 s) : SameClocks s0 (onCtl s c f) := .setCluster h

protected theorem SameClocks.storeControl {c st} (h : SameClocks s0 s) : SameClocks s0 (storeControl s c st) := .elsewhere h

protected theorem SameClocks.ckptRequest {n p mode desc who} (h : SameClocks s0 s) (found : tget s.parts n = some p) :
    SameClocks s0 (ckptRequest s n p mode desc who).1 := by
  unfold ckptRequest
  dsimp only
  split
  · exact h
  · split
    · split
      · exact h
      · exact .setPart h found rfl
    · split
      · exact h
      · exact h
      · exact h
      · split
        · exact h
        · exact .setPart h found rfl

protected theorem SameClocks.restoreRequest {n p desc who} (h : SameClocks s0 s) (found : tget s.parts n = some p) :
    SameClocks s0 (restoreRequest s n p desc who).1 := by
  unfold restoreRequest
  split_ifs
  · exact h
  · exact h
  · exact h
  · exact .setPart h found rfl

protected theorem SameClocksResult.refuse {status} (h : SameClocks s0 s) : SameClocksResult s0 (refuse s status) := .done h

protected theorem SameClocks.mapPages {n arg pages} (h : SameClocks s0 s) :
    ∀ r ∈ mapPages s n arg pages, SameClocks s0 r := by
  refine List.foldlRecOn (motive := fun o => ∀ r ∈ o, SameClocks s0 r) _ _ (forall_mem_some h) (fun o ho _ _ => ?_)
  cases o with
  | none => exact forall_mem_none
  | some u => exact forall_mem_map (fun _ _ => .elsewhere (ho u rfl))

protected theorem SameClocksResult.hostLoad {n p space a data close} (h : SameClocks s0 s) :
    SameClocksResult s0 (hostLoad s n p space a data close) := by
  unfold hostLoad
  refine .ite (.refuse h) (.ite (.refuse h) ?_)
  refine .ite (.ite (.refuse h) (.ite .hold (.done (.noteWriter (.writeGlobal h))))) ?_
  refine .ite (.refuse h) ?_
  split
  · exact .refuse h
  · exact .ite (.refuse h) (.ite (.refuse h) (.done (.storeControl h)))

protected theorem SameClocksResult.hostRead {n p space a len close} (h : SameClocks s0 s) :
    SameClocksResult s0 (hostRead s n p space a len close) := by
  unfold hostRead
  refine .ite (.refuse h) (.ite (.refuse h) ?_)
  refine .ite (.ite (.refuse h) (.ite .hold (.ite (.refuse h) (.done h)))) (.ite (.refuse h) ?_)
  split
  · exact .refuse h
  · exact .ite (.refuse h) (.done h)

protected theorem SameClocksResult.hostAtomic {n op a operand compare close} (h : SameClocks s0 s) :
    SameClocksResult s0 (hostAtomic s n op a operand compare close) :=
  .ite (.refuse h) (.ite (.refuse h) (.ite (.done (.elsewhere h)) (.ite .hold (.ite (.refuse h)
    (.ite (.done h) (.done (.noteWriter (.writeGlobal h))))))))

protected theorem SameClocksResult.hostStart {n p cluster entry replace base image args} (h : SameClocks s0 s) :
    SameClocksResult s0 (hostStart s n p cluster entry replace base image args) :=
  .ite (.refuse h) (.ite (.refuse h) (.ite (.refuse h) (.ite (.refuse h) (.ite (.refuse h)
    (.done (.onCtl (.storeControl h)))))))

protected theorem SameClocksResult.xlateQuery {n a arg} (h : SameClocks s0 s) :
    SameClocksResult s0 (xlateQuery s n a arg) := by
  unfold xlateQuery
  refine .ite (.refuse h) ?_
  split
  · exact .refuse h
  · exact .ite (.refuse h) (.done h)

protected theorem SameClocksResult.xlateMap {n p a len arg} (h : SameClocks s0 s) :
    SameClocksResult s0 (xlateMap s n p a len arg) := by
  unfold xlateMap
  refine .ite (.refuse h) (.ite (.refuse h) ?_)
  split
  · next e => exact .done (.mapPages h _ e)
  · exact .refuse h

protected theorem SameClocksResult.xlateUnmap {n a len arg} (h : SameClocks s0 s) :
    SameClocksResult s0 (xlateUnmap s n a len arg) :=
  .ite (.refuse h) (.ite (.refuse h) (.ite .hold (.done (.onParts h fun _ => boundaryClock_tmod fun _ => rfl))))

protected theorem SameClocksResult.xlateAttributes {n p a len arg close} (h : SameClocks s0 s)
    (found : tget s.parts n = some p) : SameClocksResult s0 (xlateAttributes s n p a len arg close) :=
  .ite (.refuse h) (.ite (.refuse h) (.ite .hold (.done (.setPart h found rfl))))

protected theorem SameClocksResult.xlateWindow {n p a len arg} (h : SameClocks s0 s) (found : tget s.parts n = some p) :
    SameClocksResult s0 (xlateWindow s n p a len arg) := by
  unfold xlateWindow
  dsimp only
  refine .ite (.refuse h) (.ite (.refuse h) (.ite (.done (.setPart h found rfl)) ?_))
  split
  · exact .done (.setPart h found rfl)
  · exact .done h

protected theorem SameClocksResult.xlateMigrate {n p a len arg} (h : SameClocks s0 s) (found : tget s.parts n = some p) :
    SameClocksResult s0 (xlateMigrate s n p a len arg) :=
  .ite (.refuse h) (.ite (.refuse h) (.done (.setPart h found rfl)))

protected theorem SameClocksResult.doRequest {sid x r close} (h : SameClocks s0 s) :
    SameClocksResult s0 (doRequest s sid x r close) := by
  unfold doRequest
  split
  · exact .refuse h
  · split
    · exact .refuse h
    · next found =>
      extract_lets
      split
      · exact .hostLoad h
      · exact .hostRead h
      · exact .hostStart h
      · exact .xlateQuery h
      · exact .xlateMap h
      · exact .xlateUnmap h
      · exact .xlateAttributes h found
      · exact .xlateWindow h found
      · exact .xlateMigrate h found
      · exact .refuse h
      · exact .hostAtomic h
      · refine .ite (.refuse h) ?_
        extract_lets o
        have ho : SameClocks s0 o.1 := by
          unfold o
          split
          · exact .restoreRequest h found
          · exact .ckptRequest h found
        split
        · exact .done ho
        · exact .begun ho
      · exact .refuse h

protected theorem SameClocks.onSession {sid f} (h : SameClocks s0 s) : SameClocks s0 (onSession s sid f) := .elsewhere h

protected theorem SameClocks.stepSession {sid close} (h : SameClocks s0 s) :
    ∀ r ∈ stepSession s sid close, SameClocks s0 r := by
  unfold stepSession
  split
  · exact forall_mem_none
  · next x _ =>
    split
    · next w rest _ _ =>
      have hr := SameClocksResult.doRequest (sid := sid) (x := x) (r := w.req) (close := close)
        (h.onSession (sid := sid) (f := fun y => { y with waiting := rest, held := false }))
      split
      · exact forall_mem_none
      · split
        · split
          · exact forall_mem_none
          · exact forall_mem_some (.onSession h)
        · next e => exact forall_mem_some (.onSession (e ▸ hr).of_begun)
        · next e => exact forall_mem_some (.replyTo (e ▸ hr).of_done)
    · exact forall_mem_none

protected theorem SameClocks.drainSession {fuel sid} (h : SameClocks s0 s) : SameClocks s0 (drainSession fuel s sid) := by
  induction fuel generalizing s with
  | zero => exact h
  | succ fuel ih =>
    rw [drainSession]
    split
    · next e => exact ih (.stepSession h _ e)
    · exact h

protected theorem SameClocks.answerSession {sid payload} (h : SameClocks s0 s) :
    SameClocks s0 (answerSession s sid payload) := by
  unfold answerSession
  split
  · exact h
  · exact .drainSession (.replyTo (.onSession h))

protected theorem SameClocks.answerWaiter {w v} (h : SameClocks s0 s) : SameClocks s0 (answerWaiter s w v) := by
  unfold answerWaiter
  split
  · exact .answerSession h
  · split
    · exact .onCtl h
    · exact .onCtl h
    · exact .onCtl h
    · exact h

protected theorem SameClocks.closeRequests {fuel n passed} (h : SameClocks s0 s) :
    SameClocks s0 (closeRequests fuel s n passed) := by
  induction fuel generalizing s passed with
  | zero => exact h
  | succ fuel ih =>
    rw [closeRequests]
    split
    · exact h
    · split
      · next e => exact ih (.stepSession h _ e)
      · exact ih h

/-! ### Checkpoints -/

protected theorem SameClocks.setCkpt {n f} (h : SameClocks s0 s) : SameClocks s0 (setCkpt s n f) :=
  .onParts h fun _ => boundaryClock_tmod fun _ => rfl

protected theorem SameClocks.captureCkpt {n} (h : SameClocks s0 s) : SameClocks s0 (captureCkpt s n) := by
  unfold captureCkpt
  split
  · exact h
  · refine .ite h ?_
    extract_lets _ s1 _ _ _ s4
    have h1 : SameClocks s0 s1 := .elsewhere h
    have h4 : SameClocks s0 s4 := .foldl .answerWaiter (.setCkpt (.ite (.elsewhere h1) h1))
    exact .ite h4 (.foldl .answerWaiter h4)

end Sys2Proof.Machine
end

section
/-! SUPPORT. Boundaries: what the opening of an exchange, its close and the time-outs make of a partition and of the
clocks (08 R162-R167, 07 R157, 21 R400). -/

namespace Sys2Proof.Machine

open Sys2Proof

variable {s0 s : State} {n : Nat} {p : Part}

/-! ### Partitions that are set -/

theorem partBecomes_setPart (s : State) (n : Nat) (q : Part) : PartBecomes s (setPart s n q) n q :=
  ⟨rfl, fun k => tget_tput s.parts n k q⟩

/-! ### The opening of an exchange (08 R165) -/

protected theorem SameClocks.sendSpan {atEnd} (h : SameClocks s0 s) (found : tget s.parts n = some p) :
    SameClocks s0 (sendSpan s n p atEnd) :=
  .ite h (.elsewhere (.setPart h found rfl))

protected theorem SameClocks.sampleArrival (h : SameClocks s0 s) : SameClocks s0 (sampleArrival s n p) :=
  have sampled {u : State} {k v : Nat} (h : SameClocks s0 u) : SameClocks s0 (addSample u k v) := .elsewhere h
  sampled (sampled h)

protected theorem SameClocks.applyFabric {boundary} (h : SameClocks s0 s) : SameClocks s0 (applyFabric s n boundary) :=
  .foldl (fun k => .foldl (fun k => .ite (.noteWriter (.writeGlobal (.noteBefore k))) k) k) (.elsewhere h)

protected theorem SameClocks.noteDigest {lid addrs} (h : SameClocks s0 s) : SameClocks s0 (noteDigest s lid addrs) :=
  .elsewhere h

protected theorem SameClocks.drainEntry {e} (h : SameClocks s0 s) : SameClocks s0 (drainEntry n s e) := by
  unfold drainEntry
  split
  · exact h
  · split
    · exact h
    · extract_lets a size r words s1 s2
      have h2 : SameClocks s0 s2 := .elsewhere (.noteBefore h)
      exact .noteWriter (.noteDigest (.foldl .bumpCounter h2))

protected theorem SameClocks.drainGred (h : SameClocks s0 s) : SameClocks s0 (drainGred s n) :=
  .foldl .drainEntry (.elsewhere h)

theorem foldl_parts {α : Type} {f : State → α → State} (keeps : ∀ s a, (f s a).parts = s.parts) (xs : List α) (s : State) :
    (xs.foldl f s).parts = s.parts :=
  xs.foldlRecOn (motive := fun u => u.parts = s.parts) f rfl fun _ same a _ => (keeps _ a).trans same

theorem clearCounters_parts (s : State) (p : Part) : (clearCounters s p).parts = s.parts :=
  foldl_parts (f := fun u c => setCluster u c _) (fun _ _ => rfl) p.clusters s

theorem startExchange_parts (s : State) (core : Nat) : (startExchange s core).parts = s.parts := by
  unfold startExchange
  exact foldl_parts (fun _ _ => by rfl) _ _

/-- Once its exchange is open, a partition is in it: the exchange time-out is armed, the straggler time-out is not, and no
core has been reported late. -/
theorem openExchange_part (found : tget s.parts n = some p) : ∃ q, tget (openExchange s n).parts n = some q ∧
    q.pstate = .exchange ∧ q.exchAt = some (s.cycle + p.exch) ∧ q.stragAt = none ∧ q.late = [] := by
  rw [openExchange, found]
  dsimp -zeta only
  extract_lets s2 s3
  have clocks : SameClocks s s2 := .drainGred (.applyFabric (.sampleArrival (.refl s)))
  obtain ⟨q, stands, -, exch⟩ := clocks.found found
  rw [foldl_parts startExchange_parts, clearCounters_parts, tget_tmod, if_pos rfl, stands]
  exact ⟨_, rfl, rfl, congrArg (fun e => some (s.cycle + e)) exch, rfl, rfl⟩

/-! ### Step 3: the exchange settles (10 R222-R228) -/

protected theorem SameClocks.applyWord {ws k} (h : SameClocks s0 s) : SameClocks s0 (applyWord ws s k) := by
  unfold applyWord
  extract_lets
  split
  · exact h
  · extract_lets _ s1
    have h1 : SameClocks s0 s1 := .foldl .elsewhere h
    exact .ite (.writeGlobal h1) (.elsewhere h1)

protected theorem SameClocks.applyFold {f} (h : SameClocks s0 s) : SameClocks s0 (applyFold s f) := by
  have written (v : Nat) : SameClocks s0 { s with gmem := mwriteN s.gmem f.addr 4 v } := .elsewhere h
  exact .applyCounts (written _)

protected theorem SameClocks.settleExchange (h : SameClocks s0 s) : SameClocks s0 (settleExchange s n p) := by
  refine .elsewhere (.foldl (fun k => ?_) (.foldl .elsewhere (.foldl .applyFold (.foldl .applyWord h))))
  split
  · exact .noteDigest k
  · exact k

protected theorem SameClocks.setAttributes {arg g} (h : SameClocks s0 s) : SameClocks s0 (setAttributes s n arg g) :=
  .ite h (.elsewhere h)

protected theorem SameClocks.migratePage {g die} (h : SameClocks s0 s) : SameClocks s0 (migratePage s n g die) := by
  unfold migratePage
  split
  · exact h
  · exact .ite h (.elsewhere h)

protected theorem SameClocks.closePages {e asked} (h : SameClocks s0 s) : SameClocks s0 (closePages s n e asked) :=
  .foldl .migratePage (.elsewhere h)

/-! ### Step 4: the boundary counts (08 R163) -/

protected theorem SameClocks.refreshDigests (h : SameClocks s0 s) : SameClocks s0 (refreshDigests s n) := .elsewhere h

protected theorem SameClocks.logBoundary {lid} (h : SameClocks s0 s) : SameClocks s0 (logBoundary s lid p) := by
  refine .foldl (fun k => ?_) h
  split
  · exact k
  · refine .ite (.recordEntry k) ?_
    split
    · exact .setLaunch k
    · exact k

theorem countBoundary_part (found : tget s.parts n = some p) :
    (tget (countBoundary s n).parts n).map (·.boundary) = some (p.boundary + 1) := by
  rw [countBoundary, tget_tmod, if_pos rfl, found]
  rfl

/-! ### Step 5 (07 R150, R155, R156, 23 R413, R421) -/

protected theorem SameClocks.dropBad {lid g} (h : SameClocks s0 s) : SameClocks s0 (dropBad s lid g) :=
  .ite (.elsewhere (.foldl .freeSlots h)) h

protected theorem SameClocks.dropBadSaves (h : SameClocks s0 s) : SameClocks s0 (dropBadSaves s n) :=
  .foldl (fun k => .foldl (fun k => .foldl .elsewhere (.dropBad k)) k) h

protected theorem SameClocks.releaseKilled (h : SameClocks s0 s) : SameClocks s0 (releaseKilled s n) :=
  .foldl .removeTeam (.elsewhere h)

protected theorem SameClocks.reportGangs {fuel lid} (h : SameClocks s0 s) : SameClocks s0 (reportGangs fuel s lid) := by
  induction fuel generalizing s with
  | zero => exact h
  | succ fuel ih =>
    unfold reportGangs
    split
    · next e _ =>
      cases e
      exact .ite h (ih (.setLaunch h))
    · exact h

protected theorem SameClocks.saveTeam {tid u l} (h : SameClocks s0 s) : SameClocks s0 (saveTeam s tid u l).1 :=
  .onParts (.removeTeam (.chargeTeam h)) fun _ => boundaryClock_tmod fun _ => rfl

protected theorem SameClocks.preemptLaunch {lid} (h : SameClocks s0 s) : SameClocks s0 (preemptLaunch s lid) := by
  unfold preemptLaunch
  split
  · exact h
  · refine .ite h (.ite (.setLaunch h) (.postEvent (.elsewhere ?_)))
    exact List.foldlRecOn (motive := fun r : State × List (Nat × Team) => SameClocks s0 r.1) _ _ (.setLaunch h)
      (fun _ k e _ => .saveTeam (u := e.2) k)

protected theorem SameClocks.snapshotTeams (h : SameClocks s0 s) : SameClocks s0 (snapshotTeams s n) :=
  .onParts (.foldl .snapshotTeam h) fun _ => boundaryClock_tmod fun _ => rfl

protected theorem SameClocks.afterClose (h : SameClocks s0 s) : SameClocks s0 (afterClose s n) :=
  .settleLaunches (.dispatchPart (.dropBadSaves (.settleLaunches (.captureCkpt (.snapshotTeams
    (.foldl .preemptLaunch (.foldl .reportGangs (.releaseKilled h))))))))

/-! ### Step 6 and the close (08 R165) -/

/-- With step 6 a new compute phase begins, with no time-out armed. -/
theorem beginCompute_part (found : tget s.parts n = some p) : ∃ q, tget (beginCompute s n).parts n = some q ∧
    q.pstate = .compute ∧ q.boundary = p.boundary ∧ q.computeAt = s.cycle ∧ q.stragAt = none ∧ q.exchAt = none := by
  unfold beginCompute
  rw [found]
  exact ⟨_, tget_tput_self _ _ _, rfl, rfl, rfl, rfl, rfl⟩

protected theorem SameClocks.beginCompute (h : SameClocks s0 s) : SameClocks s0 (beginCompute s n) := by
  unfold beginCompute
  split
  · exact h
  · next found =>
    extract_lets mine s1 s2 s3 s4
    have kept {u : State} (h : SameClocks u s) : SameClocks u s4 :=
      have h2 : SameClocks u s2 := .elsewhere (.foldl .resumeTeam h)
      .elsewhere (.foldl .setCluster h2)
    obtain ⟨q, stands, boundary, exch⟩ := (kept (.refl s)).found found
    exact .setPart (kept h) stands (Prod.ext boundary.symm exch.symm)

/-- The steps before the count leave the clocks; step 4 counts; the steps after it leave them again. -/
theorem closeBoundary_part (found : tget s.parts n = some p) (q : Part) : let t := closeBoundary s n q
    t.chipPhase = s.chipPhase + 1 ∧ ∃ r, tget t.parts n = some r ∧ r.pstate = .compute ∧ r.boundary = p.boundary + 1 ∧
      r.computeAt = s.cycle ∧ r.stragAt = none ∧ r.exchAt = none := by
  unfold closeBoundary
  extract_lets s1 fuel s2 asked s3 s4 s5 t
  have settled : SameClocks s (refreshDigests s3 n) :=
    .refreshDigests (.foldl .setAttributes (.closePages (.closeRequests (.settleExchange (.refl s)))))
  obtain ⟨p3, stands, same, -⟩ := settled.found found
  obtain ⟨p4, counted, boundary⟩ := Option.map_eq_some_iff.mp (countBoundary_part stands)
  have placed : SameClocks s4 (afterClose s5 n) := .afterClose (.foldl .logBoundary (.refl s4))
  obtain ⟨p5, ready, count, -⟩ := placed.found counted
  obtain ⟨r, hr, pstate, kept, computeAt, unarmed⟩ := beginCompute_part ready
  have phase : t.chipPhase = s4.chipPhase := (SameClocks.beginCompute placed).chipPhase
  refine ⟨?_, r, hr, pstate, ?_, ?_, unarmed⟩
  · rw [phase]
    exact congrArg (· + 1) settled.chipPhase
  · rw [kept, count, boundary, same]
  · rw [computeAt, placed.cycle]
    exact settled.cycle

/-! ### Late cores (07 R157) -/

theorem mem_once {a : Nat} {l : List Nat} : a ∈ once l ↔ a ∈ l := by
  have gathered (acc : List Nat) :
      a ∈ l.foldl (fun acc b => if acc.contains b then acc else b :: acc) acc ↔ a ∈ acc ∨ a ∈ l := by
    induction l generalizing acc with
    | nil => simp
    | cons b l ih =>
      rw [List.foldl_cons, ih, List.mem_cons]
      split
      case isTrue h =>
        have : a = b → a ∈ acc := fun e => e ▸ List.contains_iff_mem.mp h
        tauto
      case isFalse => rw [List.mem_cons]; tauto
  rw [once, List.mem_reverse, gathered]
  simp

/-- A report notes the late cores in the partition and posts records: no launch, group or byte of global memory changes. -/
theorem reportLate_tables (s : State) (n : Nat) (p : Part) (type : Nat) (late : List Nat) (remote : Bool) :
    let t := reportLate s n p type late remote
    t.parts = tput s.parts n { p with late := once (p.late ++ late) } ∧ t.launches = s.launches ∧ t.groups = s.groups ∧
      t.gmem = s.gmem := by
  intro t
  refine List.foldlRecOn (motive := fun u : State => u.parts = tput s.parts n { p with late := once (p.late ++ late) } ∧
    u.launches = s.launches ∧ u.groups = s.groups ∧ u.gmem = s.gmem) _ _ ⟨rfl, rfl, rfl, rfl⟩ ?_
  rintro u ⟨parts, launches, groups, gmem⟩ c -
  obtain ⟨sameParts, sameLaunches, -, sameGroups, -⟩ := (postEvent_port u c _ _ _).tables
  obtain ⟨-, -, -, -, sameGmem⟩ := (postEvent_port u c _ _ _).memory
  exact ⟨sameParts.trans parts, sameLaunches.trans launches, sameGroups.trans groups, sameGmem.trans gmem⟩

/-- The partition keeps its time-outs, and its late cores are those told so far with the new ones. -/
theorem reportLate_part (s : State) (n : Nat) (p : Part) (type : Nat) (late : List Nat) (remote : Bool) : ∃ q,
    tget (reportLate s n p type late remote).parts n = some q ∧ q.stragAt = p.stragAt ∧ q.exchAt = p.exchAt ∧
      ∀ k, k ∈ q.late ↔ k ∈ p.late ∨ k ∈ late := by
  obtain ⟨parts, -⟩ := reportLate_tables s n p type late remote
  rw [parts]
  exact ⟨_, tget_tput_self _ _ _, rfl, rfl, fun k => mem_once.trans List.mem_append⟩

end Sys2Proof.Machine
end

section
/-! SUPPORT. The events of a boundary, its time-outs and the ports: what exec answers on a running device (01 R22, 07 R157,
08 R162-R167, 10 R231, 11 R250, 21 R400). -/

namespace Sys2Proof.Machine

open Sys2Proof

variable {s : State} {n : Nat} {p : Part}

/-! ### Opening, exchange and close (08 R162-R167) -/

theorem exec_boundaryOpen (runs : deviceRuns s = true) (found : tget s.parts n = some p) : exec (.boundaryOpen n) s =
    .next (if p.pstate = .compute ∧ boundaryOpens s n p = true then
      setPart s n { p with pstate := .opened, stragAt := some (s.cycle + p.strag), firstArrival := s.cycle } else s) := by
  have acts : exec (.boundaryOpen n) s = execBoundaryOpen n s := rfl
  rw [acts, execBoundaryOpen, whenRuns_of_runs runs]
  simp only [found, Bool.and_eq_true, beq_iff_eq]

/-- EXCHANGE_OPEN while no gang waits for a relaunch. -/
theorem exec_exchangeOpen (runs : deviceRuns s = true) (found : tget s.parts n = some p)
    (placed : p.pstate = .opened → relaunchPending s n = false) : exec (.exchangeOpen n) s =
    .next (if p.pstate = .opened ∧ (partCores s p).all (coreArrived s) = true then
      (if spanReady p false then openExchange (sendSpan s n p false) n else sendSpan s n p false) else s) := by
  have acts : exec (.exchangeOpen n) s = execExchangeOpen n s := rfl
  rw [acts, execExchangeOpen, whenRuns_of_runs runs]
  simp only [found]
  by_cases opened : p.pstate = .opened
  · simp only [opened, placed opened, bne_self_eq_false, Bool.false_eq_true, if_false, true_and]
    cases (partCores s p).all (coreArrived s) <;> rfl
  · simp only [opened, bne_iff_ne, ne_eq, not_false_eq_true, if_true, false_and, if_false]

/-- The partition is in its exchange, after its arrival messages to the members of its span. -/
theorem exchangeOpen_opens (runs : deviceRuns s = true) (found : tget s.parts n = some p) (opened : p.pstate = .opened)
    (placed : relaunchPending s n = false) (arrived : (partCores s p).all (coreArrived s) = true)
    (ready : spanReady p false = true) : ∃ t q, exec (.exchangeOpen n) s = .next t ∧ t = openExchange (sendSpan s n p false) n ∧
      tget t.parts n = some q ∧ q.pstate = .exchange ∧ q.exchAt = some (s.cycle + p.exch) ∧ q.stragAt = none ∧ q.late = [] := by
  have sent : SameClocks s (sendSpan s n p false) := .sendSpan (.refl s) found
  obtain ⟨p', stands, -, exch⟩ := sent.found found
  obtain ⟨q, hq, pstate, exchAt, rest⟩ := openExchange_part stands
  rw [exec_exchangeOpen runs found (fun _ => placed), if_pos ⟨opened, arrived⟩, if_pos ready]
  exact ⟨_, q, rfl, rfl, hq, pstate, by rw [exchAt, sent.cycle, exch], rest⟩

theorem exec_boundaryClose (runs : deviceRuns s = true) (found : tget s.parts n = some p) : exec (.boundaryClose n) s =
    .next (if p.pstate ≠ .exchange ∨ (partCores s p).any (exchangeBusy s) = true then s
      else if spanReady p true then closeBoundary (sendSpan s n p true) n { p with spanSent := 2 } else sendSpan s n p true) := by
  have acts : exec (.boundaryClose n) s = execBoundaryClose n s := rfl
  rw [acts, execBoundaryClose, whenRuns_of_runs runs]
  simp only [found, Bool.or_eq_true, bne_iff_ne]

/-- A new compute phase begins, and both counters have risen by 1. -/
theorem boundaryClose_closes (runs : deviceRuns s = true) (found : tget s.parts n = some p) (exchanging : p.pstate = .exchange)
    (ended : (partCores s p).any (exchangeBusy s) = false) (ready : spanReady p true = true) :
    ∃ t q, exec (.boundaryClose n) s = .next t ∧ t = closeBoundary (sendSpan s n p true) n { p with spanSent := 2 } ∧
      t.chipPhase = s.chipPhase + 1 ∧ tget t.parts n = some q ∧ q.pstate = .compute ∧ q.boundary = p.boundary + 1 ∧
      q.computeAt = s.cycle ∧ q.stragAt = none ∧ q.exchAt = none := by
  have sent : SameClocks s (sendSpan s n p true) := .sendSpan (.refl s) found
  obtain ⟨p', stands, boundary, -⟩ := sent.found found
  obtain ⟨phase, q, hq, pstate, counted, computeAt, unarmed⟩ := closeBoundary_part stands { p with spanSent := 2 }
  rw [exec_boundaryClose runs found, if_neg (by simp [exchanging, ended]), if_pos ready]
  exact ⟨_, q, rfl, rfl, by rw [phase, sent.chipPhase], hq, pstate, by rw [counted, boundary], by rw [computeAt, sent.cycle],
    unarmed⟩

theorem exec_boundaryMessage {m k c : Nat} (runs : deviceRuns s = true) (found : tget s.parts n = some p)
    (span : p.spanTag ≠ 0) (port : k ∈ p.ports) (live : k ∉ s.dev.portDown) (later : p.boundary ≤ c) (atEnd : Bool) :
    exec (.boundaryMessage n m k c atEnd) s = .next (setPart s n (if atEnd then
      { p with spanEnded := if p.spanEnded.contains (m, c) then p.spanEnded else p.spanEnded ++ [(m, c)] } else
      { p with spanArrived := if p.spanArrived.contains (m, c) then p.spanArrived else p.spanArrived ++ [(m, c)] })) := by
  have acts : exec (.boundaryMessage n m k c atEnd) s = execBoundaryMessage n m k c atEnd s := rfl
  rw [acts, execBoundaryMessage, whenRuns_of_runs runs]
  have counts : (decide (p.spanTag = 0) || !p.ports.contains k || s.dev.portDown.contains k || decide (c < p.boundary)) = false := by
    simp [span, port, live, later]
  simp only [found, counts]
  cases atEnd <;> rfl

/-- The messages held once one more has come. -/
theorem mem_noted {ms : List (Nat × Nat)} (m : Nat × Nat) : m ∈ (if ms.contains m then ms else ms ++ [m]) := by
  split
  case isTrue held => exact List.contains_iff_mem.mp held
  case isFalse => exact List.mem_append_right ms List.mem_cons_self

theorem noted_again {ms : List (Nat × Nat)} {m : Nat × Nat} (held : m ∈ ms) : (if ms.contains m then ms else ms ++ [m]) = ms :=
  if_pos (List.contains_iff_mem.mpr held)

/-! ### Time-outs (07 R157, 21 R400) -/

theorem exec_straggler {d : Nat} (runs : deviceRuns s = true) (found : tget s.parts n = some p) (armed : p.stragAt = some d) :
    exec (.straggler n) s = .next (if d ≤ s.cycle then
      reportLate s n { p with stragAt := some (s.cycle + p.strag) } 3 (lateCores s p) (!spanReady p false) else s) := by
  have acts : exec (.straggler n) s = execStraggler n s := rfl
  rw [acts, execStraggler, whenRuns_of_runs runs]
  simp only [found, armed, due, decide_eq_true_eq, expireStraggler]

theorem straggler_rearms {d : Nat} (runs : deviceRuns s = true) (found : tget s.parts n = some p) (armed : p.stragAt = some d)
    (due : d ≤ s.cycle) : ∃ t q, exec (.straggler n) s = .next t ∧ tget t.parts n = some q ∧
      q.stragAt = some (s.cycle + p.strag) ∧ (∀ k, k ∈ q.late ↔ k ∈ p.late ∨ k ∈ lateCores s p) ∧ t.groups = s.groups ∧
      t.gmem = s.gmem := by
  let rearmed : Part := { p with stragAt := some (s.cycle + p.strag) }
  obtain ⟨-, -, kept⟩ := reportLate_tables s n rearmed 3 (lateCores s p) (!spanReady p false)
  obtain ⟨q, hq, stragAt, -, late⟩ := reportLate_part s n rearmed 3 (lateCores s p) (!spanReady p false)
  rw [exec_straggler runs found armed, if_pos due]
  exact ⟨_, q, rfl, hq, stragAt, late, kept⟩

theorem exec_exchangeLate {d : Nat} (runs : deviceRuns s = true) (found : tget s.parts n = some p) (armed : p.exchAt = some d) :
    exec (.exchangeLate n) s = .next (if d ≤ s.cycle then
      reportLate s n { p with exchAt := some (s.cycle + p.exch) } 4 (lateCores s p) (!spanReady p true) else s) := by
  have acts : exec (.exchangeLate n) s = execExchangeLate n s := rfl
  rw [acts, execExchangeLate, whenRuns_of_runs runs]
  simp only [found, armed, due, decide_eq_true_eq, expireExchange]

theorem exchangeLate_rearms {d : Nat} (runs : deviceRuns s = true) (found : tget s.parts n = some p) (armed : p.exchAt = some d)
    (due : d ≤ s.cycle) : ∃ t q, exec (.exchangeLate n) s = .next t ∧ tget t.parts n = some q ∧
      q.exchAt = some (s.cycle + p.exch) ∧ (∀ k, k ∈ q.late ↔ k ∈ p.late ∨ k ∈ lateCores s p) ∧ t.groups = s.groups ∧
      t.gmem = s.gmem := by
  let rearmed : Part := { p with exchAt := some (s.cycle + p.exch) }
  obtain ⟨-, -, kept⟩ := reportLate_tables s n rearmed 4 (lateCores s p) (!spanReady p true)
  obtain ⟨q, hq, -, exchAt, late⟩ := reportLate_part s n rearmed 4 (lateCores s p) (!spanReady p true)
  rw [exec_exchangeLate runs found armed, if_pos due]
  exact ⟨_, q, rfl, hq, exchAt, late, kept⟩

/-- The cores that PHASE_MAX_EXPIRY reports: those with a team of the launch that have not arrived and have not been told. -/
def slowCores (s : State) (lid : Nat) (l : Launch) (p : Part) : List Nat :=
  (partCores s p).filter (fun k => !l.phaseTold.contains k && !coreArrived s k && (residents s k).any (fun e => e.2.launch == lid))

theorem exec_phaseMaxExpiry {lid : Nat} {l : Launch} (runs : deviceRuns s = true) (launch : tget s.launches lid = some l)
    (found : tget s.parts l.part = some p) : exec (.phaseMaxExpiry lid) s =
    .next (if l.phaseMax = 0 ∨ p.pstate = .exchange ∨ s.cycle < p.computeAt + l.phaseMax ∨ slowCores s lid l p = [] then s
      else reportLate (setLaunch s lid { l with phaseTold := l.phaseTold ++ slowCores s lid l p }) l.part p 3
        (slowCores s lid l p) false) := by
  have acts : exec (.phaseMaxExpiry lid) s = execPhaseMaxExpiry lid s := rfl
  rw [acts, execPhaseMaxExpiry, whenRuns_of_runs runs]
  simp only [launch, found]
  refine congrArg _ (if_congr ?_ rfl rfl)
  simp only [slowCores, Bool.or_eq_true, decide_eq_true_eq, beq_iff_eq, List.isEmpty_iff, or_assoc]

theorem phaseMaxExpiry_reports {lid : Nat} {l : Launch} (runs : deviceRuns s = true) (launch : tget s.launches lid = some l)
    (found : tget s.parts l.part = some p) (limited : l.phaseMax ≠ 0) (computing : p.pstate ≠ .exchange)
    (past : p.computeAt + l.phaseMax ≤ s.cycle) (some_slow : slowCores s lid l p ≠ []) :
    ∃ t q m, exec (.phaseMaxExpiry lid) s = .next t ∧
      t = reportLate (setLaunch s lid { l with phaseTold := l.phaseTold ++ slowCores s lid l p }) l.part p 3
        (slowCores s lid l p) false ∧
      tget t.parts l.part = some q ∧ (∀ k, k ∈ q.late ↔ k ∈ p.late ∨ k ∈ slowCores s lid l p) ∧
      tget t.launches lid = some m ∧ m.phaseTold = l.phaseTold ++ slowCores s lid l p ∧ t.groups = s.groups ∧
      t.gmem = s.gmem := by
  let told := setLaunch s lid { l with phaseTold := l.phaseTold ++ slowCores s lid l p }
  obtain ⟨-, launches, kept⟩ := reportLate_tables told l.part p 3 (slowCores s lid l p) false
  obtain ⟨q, hq, -, -, late⟩ := reportLate_part told l.part p 3 (slowCores s lid l p) false
  have reports : ¬(l.phaseMax = 0 ∨ p.pstate = .exchange ∨ s.cycle < p.computeAt + l.phaseMax ∨ slowCores s lid l p = []) := by
    simp only [not_or, not_lt]
    exact ⟨limited, computing, past, some_slow⟩
  rw [exec_phaseMaxExpiry runs launch found, if_neg reports]
  exact ⟨_, q, _, rfl, rfl, hq, late, (congrArg (tget · lid) launches).trans (tget_tput_self _ _ _), rfl, kept⟩

/-! ### Fabric writes (10 R231, 11 R250) -/

theorem exec_fabricWriteArrival {w : FabWrite} {b len : Nat} (runs : deviceRuns s = true)
    (bound : (tget s.parts w.part).bind (fun p => tget p.windows w.window) = some (b, len)) : exec (.fabricWriteArrival w) s =
    .next (if w.offset % 4 = 0 ∧ w.offset + 4 * w.data.length ≤ len then { s with fabric := s.fabric ++ [(b + w.offset, w)] }
      else bumpMgmt s 8 1) := by
  have acts : exec (.fabricWriteArrival w) s = execFabricWriteArrival w s := rfl
  rw [acts, execFabricWriteArrival, whenRuns_of_runs runs]
  simp only [bound, Bool.and_eq_true, decide_eq_true_eq]

/-! ### Ports (01 R22) -/

theorem fabricPortDown_marks {k : Nat} (runs : deviceRuns s = true) (port : k < 24) : ∃ t, exec (.fabricPortDown k) s = .next t ∧
    (∀ j, j ∈ t.dev.portDown ↔ j = k ∨ j ∈ s.dev.portDown) ∧
    onDevice t (fun d => { d with portDown := [] }) = onDevice s (fun d => { d with portDown := [] }) := by
  have acts : exec (.fabricPortDown k) s = execFabricPortDown k s := rfl
  rw [acts, execFabricPortDown, whenRuns_of_runs runs, if_pos port]
  exact ⟨_, rfl, fun j => mem_insertNat, rfl⟩

theorem fabricPortUp_clears {k : Nat} (runs : deviceRuns s = true) (sound : k ∉ s.dev.wear.ports) :
    ∃ t, exec (.fabricPortUp k) s = .next t ∧ (∀ j, j ∈ t.dev.portDown ↔ j ≠ k ∧ j ∈ s.dev.portDown) ∧
    onDevice t (fun d => { d with portDown := [] }) = onDevice s (fun d => { d with portDown := [] }) := by
  have acts : exec (.fabricPortUp k) s = execFabricPortUp k s := rfl
  rw [acts, execFabricPortUp, whenRuns_of_runs runs, if_neg (by simpa using sound)]
  exact ⟨_, rfl, fun j => by simp [and_comm], rfl⟩

theorem stopSignal_sets {k : Nat} (runs : deviceRuns s = true) (port : k < 24) (b : Bool) :
    ∃ t, exec (.stopSignal k b) s = .next t ∧
    (∀ j, j ∈ t.dev.portStop ↔ if j = k then b = true else j ∈ s.dev.portStop) ∧
    onDevice t (fun d => { d with portStop := [] }) = onDevice s (fun d => { d with portStop := [] }) := by
  have acts : exec (.stopSignal k b) s = execStopSignal k b s := rfl
  rw [acts, execStopSignal, whenRuns_of_runs runs]
  refine ⟨_, rfl, fun j => ?_, rfl⟩
  cases b with
  | true =>
    simp only [port, decide_true, Bool.and_self, if_true, mem_insertNat]
    split <;> simp_all
  | false =>
    simp only [Bool.false_and, Bool.false_eq_true, if_false, List.mem_filter, bne_iff_ne]
    split <;> simp_all

end Sys2Proof.Machine

namespace Sys2Proof

open Sys2Proof.Machine

/-- Settles O50: each event answers the state that its lemma writes out. Of the close, the steps before and after step 4 leave
the clocks and the boundary counts (`SameClocks`), and step 4 counts. -/
theorem boundaryEvents : Obligations.BoundaryEvents := by
  unfold Obligations.BoundaryEvents
  refine ⟨fun s n p runs found => ⟨fun computing opens => ?_, fun stays => ?_⟩,
    fun s n p runs found => ⟨fun unopened => ?_, fun opened placed late => ?_, exchangeOpen_opens runs found⟩,
    fun s n p runs found => ⟨fun stays => ?_, boundaryClose_closes runs found⟩,
    fun u n p found => ⟨rfl, countBoundary_part found, rfl⟩,
    fun u n p found => beginCompute_part found,
    fun s n p m k c runs found span port live later => ⟨?_, ?_⟩,
    fun s n p d runs found => ⟨straggler_rearms runs found, fun armed early => ?_, exchangeLate_rearms runs found,
      fun armed early => ?_⟩,
    fun s lid l p runs launch found => ⟨phaseMaxExpiry_reports runs launch found, fun stays => ?_⟩,
    fun s w b len runs bound => ⟨fun aligned fits => ?_, fun outside => ?_⟩,
    fun s k runs port => ⟨fabricPortDown_marks runs port, fabricPortUp_clears runs, stopSignal_sets runs port⟩⟩
  -- BOUNDARY_OPEN
  · rw [exec_boundaryOpen runs found, if_pos ⟨computing, opens⟩]
    exact ⟨_, rfl, partBecomes_setPart s n _⟩
  · rw [exec_boundaryOpen runs found, if_neg (by simpa [or_iff_not_imp_left] using stays)]
  -- EXCHANGE_OPEN
  · rw [exec_exchangeOpen runs found (fun opened => absurd opened unopened), if_neg (fun h => unopened h.1)]
  · have waits : ¬(p.pstate = .opened ∧ (partCores s p).all (coreArrived s) = true) := fun ⟨_, arrived⟩ => by
      rw [List.any_eq_not_all_not] at late
      simp [arrived] at late
    rw [exec_exchangeOpen runs found (fun _ => placed), if_neg waits]
  -- BOUNDARY_CLOSE
  · rw [exec_boundaryClose runs found, if_pos stays]
  -- BOUNDARY_MESSAGE
  · exact ⟨_, _, exec_boundaryMessage runs found span port live later false, partBecomes_setPart s n _, mem_noted (m, c), rfl,
      fun held => by rw [noted_again held]; rfl⟩
  · exact ⟨_, _, exec_boundaryMessage runs found span port live later true, partBecomes_setPart s n _, mem_noted (m, c), rfl,
      fun held => by rw [noted_again held]; rfl⟩
  -- STRAGGLER and EXCHANGE_LATE
  · rw [exec_straggler runs found armed, if_neg (Nat.not_le.mpr early)]
  · rw [exec_exchangeLate runs found armed, if_neg (Nat.not_le.mpr early)]
  -- PHASE_MAX_EXPIRY
  · rw [exec_phaseMaxExpiry runs launch found, if_pos (stays.imp_right fun early => .inr (.inl early))]
  -- FABRIC_WRITE_ARRIVAL
  · rw [exec_fabricWriteArrival runs bound, if_pos ⟨aligned, fits⟩]
  · rw [exec_fabricWriteArrival runs bound, if_neg outside]

end Sys2Proof
end

section
/-! SUPPORT. Trapping lanes of any word: the fates of its lanes stand in rising order of the lanes, so that the sub-group
that the end of the word parks has the cause and the address that 21 R386 names (06 R127). -/

namespace Sys2Proof.Machine

open Sys2Proof

/-! ### Tables with rising keys -/

/-- The keys of a table rise, so that each has one entry. -/
def Rising {α : Type} (t : Table α) : Prop := t.Pairwise (fun a b => a.1 < b.1)

theorem rising_tput {α : Type} {t : Table α} (h : Rising t) (k : Nat) (a : α) : Rising (tput t k a) := by
  induction t with
  | nil => exact List.pairwise_singleton _ _
  | cons e rest ih =>
    obtain ⟨above, tail⟩ := List.pairwise_cons.mp h
    simp only [tput]
    split
    case isTrue before =>
      exact List.pairwise_cons.mpr ⟨fun x mem => (List.mem_cons.mp mem).elim (fun same => same ▸ before)
        fun later => before.trans (above x later), h⟩
    case isFalse notBefore =>
      split
      case isTrue same => exact List.pairwise_cons.mpr ⟨fun x mem => same ▸ above x mem, tail⟩
      case isFalse other =>
        refine List.pairwise_cons.mpr ⟨fun x mem => ?_, ih tail⟩
        rcases mem_of_mem_tput mem with rfl | later
        · exact lt_of_le_of_ne (Nat.not_lt.mp notBefore) (Ne.symm other)
        · exact above x later

theorem rising_foldl_tput {α β : Type} (key : β → Nat) (val : β → α) (es : List β) {t : Table α} (h : Rising t) :
    Rising (es.foldl (fun t e => tput t (key e) (val e)) t) :=
  es.foldlRecOn (motive := Rising) _ h fun _ known _ _ => rising_tput known _ _

theorem mem_iff_tget {α : Type} {t : Table α} (h : Rising t) {k : Nat} {a : α} : (k, a) ∈ t ↔ tget t k = some a := by
  refine ⟨fun mem => ?_, mem_of_tget⟩
  induction t with
  | nil => cases mem
  | cons e rest ih =>
    obtain ⟨above, tail⟩ := List.pairwise_cons.mp h
    rcases List.mem_cons.mp mem with rfl | later
    · exact if_pos rfl
    · exact (if_neg (above _ later).ne).trans (ih tail later)

/-- Writes by key: the value that every write to a key gives is the one found there. -/
theorem tget_foldl_tput_of_forall {α β : Type} {key : β → Nat} {val : β → α} {es : List β} {k : Nat} {a : α} (t : Table α)
    (all : ∀ e ∈ es, key e = k → val e = a) (written : k ∈ es.map key) :
    tget (es.foldl (fun t e => tput t (key e) (val e)) t) k = some a := by
  induction es using List.reverseRecOn with
  | nil => cases written
  | append_singleton es e ih =>
    rw [List.foldl_append, List.foldl_cons, List.foldl_nil, tget_tput]
    split
    case isTrue same => rw [all e (by simp) same.symm]
    case isFalse other =>
      refine ih (fun x mem => all x (List.mem_append_left _ mem)) ?_
      rw [List.map_append, List.mem_append] at written
      exact written.resolve_right (by simpa using other)

theorem tget_foldl_tput_of_not_mem {α β : Type} {key : β → Nat} {val : β → α} {es : List β} {k : Nat} (t : Table α)
    (absent : k ∉ es.map key) : tget (es.foldl (fun t e => tput t (key e) (val e)) t) k = tget t k := by
  induction es using List.reverseRecOn with
  | nil => rfl
  | append_singleton es e ih =>
    rw [List.map_append, List.mem_append, not_or] at absent
    rw [List.foldl_append, List.foldl_cons, List.foldl_nil, tget_tput_ne _ _ _ _ (by simpa using absent.2), ih absent.1]

/-! ### The traps among the fates -/

/-- The trap that a fate is, with its cause and address. -/
def trapOf (f : Fate) : Option (Nat × Word) :=
  match f with
  | .trap c a => some (c, a)
  | _ => none

theorem trapOf_eq_some {f : Fate} {x : Nat × Word} : trapOf f = some x ↔ f = .trap x.1 x.2 := by
  cases f <;> simp [trapOf, Prod.ext_iff]

theorem trapTable_eq (fates : Table Fate) :
    trapTable fates = fates.filterMap (fun e => (trapOf e.2).map (fun x => (e.1, x))) := by
  refine List.filterMap_congr fun e _ => ?_
  obtain ⟨k, f⟩ := e
  cases f <;> rfl

theorem rising_trapTable {fates : Table Fate} (h : Rising fates) : Rising (trapTable fates) := by
  rw [trapTable_eq]
  refine List.Pairwise.filterMap _ (fun a b less x hx y hy => ?_) h
  obtain ⟨_, -, rfl⟩ := Option.map_eq_some_iff.mp hx
  obtain ⟨_, -, rfl⟩ := Option.map_eq_some_iff.mp hy
  exact less

theorem mem_trapTable {fates : Table Fate} (h : Rising fates) {e : Nat × Nat × Word} :
    e ∈ trapTable fates ↔ tget fates e.1 = some (.trap e.2.1 e.2.2) := by
  simp only [trapTable_eq, List.mem_filterMap, Option.map_eq_some_iff, trapOf_eq_some, ← mem_iff_tget h]
  constructor
  · rintro ⟨⟨k, f⟩, mem, x, rfl, rfl⟩
    exact mem
  · exact fun mem => ⟨_, mem, _, rfl, rfl⟩

/-- A lane whose fate is no trap is not among those that trap. -/
theorem not_mem_trapTable {fates : Table Fate} (h : Rising fates) {k : Nat} {f : Fate} (fate : tgetD fates k .next = f)
    (free : ∀ c a, f ≠ .trap c a) : k ∉ (trapTable fates).map (·.1) := by
  intro mem
  obtain ⟨e, trapped, rfl⟩ := List.mem_map.mp mem
  rw [tgetD, (mem_trapTable h).mp trapped] at fate
  exact free _ _ fate.symm

/-- The fates of lanes that share one. -/
def oneFate (ls : List Nat) (f : Fate) : Table Fate := ls.foldl (fun t k => tput t k f) []

theorem tget_oneFate (ls : List Nat) (f : Fate) (k : Nat) :
    tget (oneFate ls f) k = if k ∈ ls then some f else none := tget_foldl_tput (fun _ => f) ls [] k

theorem tgetD_oneFate {ls : List Nat} (f : Fate) {k : Nat} (h : k ∈ ls) : tgetD (oneFate ls f) k .next = f := by
  rw [tgetD, tget_oneFate, if_pos h, Option.getD_some]

theorem mem_oneFate {ls : List Nat} {f : Fate} {e : Nat × Fate} : e ∈ oneFate ls f ↔ e.1 ∈ ls ∧ e.2 = f :=
  mem_foldl_tput (fun _ => f) ls

theorem rising_oneFate (ls : List Nat) (f : Fate) : Rising (oneFate ls f) := rising_foldl_tput id (fun _ => f) ls .nil

/-! ### Causes -/

theorem min?_congr {a b : List Nat} (h : ∀ x, x ∈ a ↔ x ∈ b) : a.min? = b.min? := by
  cases found : b.min? with
  | none =>
    rw [List.min?_eq_none_iff] at found ⊢
    exact List.eq_nil_iff_forall_not_mem.mpr fun x mem => by simpa [found] using (h x).mp mem
  | some m =>
    rw [List.min?_eq_some_iff] at found ⊢
    exact ⟨(h m).mpr found.1, fun x mem => found.2 x ((h x).mp mem)⟩

theorem leastD_eq_min? (ls : List Nat) (d : Nat) : leastD ls d = ls.min?.getD d := by
  cases ls <;> rfl

theorem leastCause_eq_min? (traps : List (Nat × Nat × Word)) : leastCause traps = (traps.map (·.2.1)).min?.getD 0 := by
  cases traps with
  | nil => rfl
  | cons e rest => simp [leastCause, List.min?]

/-- The lowest cause is that of one of the traps. -/
theorem exists_mem_leastCause {traps : List (Nat × Nat × Word)} (nonempty : traps ≠ []) :
    ∃ e ∈ traps, e.2.1 = leastCause traps := by
  rw [leastCause_eq_min?]
  cases found : (traps.map (·.2.1)).min? with
  | none => exact absurd (List.map_eq_nil_iff.mp (List.min?_eq_none_iff.mp found)) nonempty
  | some m => exact List.mem_map.mp (List.min?_eq_some_iff.mp found).1

/-! ### The sub-group that the end of a word parks (06 R127, 21 R386) -/

/-- The sub-group that traps in rising order of their lanes park: the address is that of the lowest lane with the lowest
cause. -/
theorem takeTrap_leastCause {g : Group} {ls : List Nat} {traps : Table (Nat × Word)} {pc after : Word} {cs : Table Nat}
    {win : Option Nat} (rising : Rising traps) (nonempty : traps ≠ []) :
    ∃ k addr, (k, leastCause traps, addr) ∈ traps ∧ (∀ e ∈ traps, e.2.1 = leastCause traps → k ≤ e.1) ∧
      (takeTrap g ls traps pc after false cs win).regs.trap.parks.map parkFacts = g.regs.trap.parks.map parkFacts ++
        [(maskOf (traps.map (·.1)), pc, after, leastCause traps, addr,
          maskOf (ls.filter (fun k => !(traps.map (·.1)).contains k)))] := by
  have cause : leastD (traps.map (·.2.1)) 0 = leastCause traps := by rw [leastD_eq_min?, leastCause_eq_min?]
  have below : ∃ e rest, traps.filter (fun e => e.2.1 == leastCause traps) = e :: rest := by
    obtain ⟨e, mem, least⟩ := exists_mem_leastCause nonempty
    exact List.exists_cons_of_ne_nil (List.ne_nil_of_mem (List.mem_filter.mpr ⟨mem, by simpa using least⟩))
  obtain ⟨e, rest, first⟩ := below
  have lowest : ∀ x ∈ e :: rest, e.1 ≤ x.1 := by
    have order := rising.filter (fun e => e.2.1 == leastCause traps)
    rw [first] at order
    exact fun x mem => (List.mem_cons.mp mem).elim (fun same => same ▸ le_rfl)
      fun later => ((List.pairwise_cons.mp order).1 x later).le
  have chosen : e ∈ traps ∧ e.2.1 = leastCause traps :=
    (List.mem_filter.mp (first ▸ List.mem_cons_self ..)).imp_right eq_of_beq
  refine ⟨e.1, e.2.2, chosen.2 ▸ chosen.1, fun x mem least => lowest x ?_, ?_⟩
  · exact first ▸ List.mem_filter.mpr ⟨mem, by simpa using least⟩
  · obtain ⟨x, others, rfl⟩ := List.exists_cons_of_ne_nil nonempty
    simp only [takeTrap, cause, first, List.head?_cons, Option.map_some, Option.getD_some, List.map_append,
      List.map_singleton, parkFacts, Bool.false_eq_true, if_false]

/-- The lanes of a word that trap are one more parked sub-group once it has ended. -/
theorem finish_subgroupParked {s : State} {f : Form} {i : In} (h : GroupIssues s f i) {w : Work} (plain : Plain i w)
    (legal : w.illegal = false) (parks : w.g.regs.trap.parks = i.g.regs.trap.parks) (rising : Rising w.fates)
    {traps : List (Nat × Nat × Word)} (named : ∀ e, e ∈ trapTable w.fates ↔ e ∈ traps)
    (inside : ∀ e ∈ traps, e.1 ∈ i.lanes) (nonempty : traps ≠ []) {g : Group}
    (ends : tget (finish i w).groups i.gid = some g) : SubgroupParked i g traps := by
  have lanes (k : Nat) : k ∈ (trapTable w.fates).map (·.1) ↔ k ∈ traps.map (·.1) := by
    simp only [List.mem_map, named]
  constructor
  · obtain ⟨doomed, causes, win, closed⟩ := finish_closedGroup plain
    obtain rfl := Option.some.inj (ends.symm.trans closed)
    have trapped : trapTable w.fates ≠ [] := fun none => by
      obtain ⟨e, mem⟩ := List.exists_mem_of_ne_nil _ nonempty
      simpa [none] using (named e).mpr mem
    have same : leastCause (trapTable w.fates) = leastCause traps := by
      rw [leastCause_eq_min?, leastCause_eq_min?]
      refine congrArg (Option.getD · 0) (min?_congr fun c => ?_)
      simp only [List.mem_map, named]
    have mask : maskOf ((trapTable w.fates).map (·.1)) = maskOf (traps.map (·.1)) := maskOf_congr lanes
    have member (k : Nat) : ((trapTable w.fates).map (·.1)).contains k = (traps.map (·.1)).contains k := by
      rw [Bool.eq_iff_iff, List.contains_iff_mem, List.contains_iff_mem, lanes]
    obtain ⟨k, addr, found, lowest, parked⟩ := takeTrap_leastCause (g := placeLanes i w.fates w.g) (ls := i.lanes)
      (pc := i.runPc) (after := i.pc + 4#32) (cs := causes) (win := win) (rising_trapTable rising) trapped
    simp only [same, named, mask, member] at found lowest parked
    refine ⟨k, addr, found, lowest, ?_⟩
    rw [closedGroup_parks, placedGroup_parks, legal, parked, ← parks]
    rfl
  · intro k mem
    obtain ⟨e, trap, rfl⟩ := List.mem_map.mp mem
    exact (finish_parked h (plain.fated [] w.causes nofun) ends (inside e trap) ((lanes _).mpr mem)).symm

/-- A lane of the set without a fate of its own stands at the next word. -/
theorem finish_goesOn {i : In} {w : Work} (plain : Plain i w) (lanes : w.g.regs.lanes = i.g.regs.lanes)
    (rising : Rising w.fates) {g : Group} (ends : tget (finish i w).groups i.gid = some g) {k : Nat} (hk : k ∈ i.lanes)
    (ready : (laneAt i.g.regs k).wait = .ready) (fate : tget w.fates k = none) : standsAt g k (i.pc + 4#32) .ready := by
  obtain ⟨g', hg', stands⟩ := finish_standsAt plain
  obtain rfl : g = g' := Option.some.inj (ends.symm.trans hg')
  have next : tgetD w.fates k .next = .next := by rw [tgetD, fate]; rfl
  refine stands k hk (not_mem_trapTable rising next nofun) _ _ (by rw [next]; rfl) ?_ rfl
  rw [next]
  change (laneAt w.g.regs k).wait = .ready
  rw [laneAt, lanes]
  exact ready

/-- What else the state that a word answers shows of its group. -/
theorem completes_also {ins : Instr} {s t : State} {i : In} {P Q : Group → Prop} (h : Completes ins s i P)
    (meaning : exec ins s = .next t) (hQ : ∀ g, tget t.groups i.gid = some g → Q g) :
    Completes ins s i (fun g => P g ∧ Q g) := by
  obtain ⟨t', g, ends, hg, hP, rest⟩ := h
  obtain rfl : t = t' := Host.Outcome.next.inj (meaning.symm.trans ends)
  exact ⟨t, g, ends, hg, ⟨hP, hQ g hg⟩, rest⟩

end Sys2Proof.Machine
end

section
/-! SUPPORT. Barriers, CHEND and PHASE: words that give every lane of a ready set one fate (09 R210-R214, 08 R172). -/

namespace Sys2Proof.Machine

open Sys2Proof

/-! ### Lanes whose parts have ended (08 R172) -/

/-- The part of lane k in the group's chunk has ended, or the chunk has. -/
def PartOver (g : Group) (k : Nat) : Prop := (laneAt g.regs k).ended = true ∨ g.cur = none

/-- A lane whose part has ended has an entry of its own, and a change of every lane that ends no part anew keeps it. -/
theorem ended_tmap {c : GroupCore} {k : Nat} (h : (laneAt c k).ended = true) {f : Nat → Lane → Lane}
    (keeps : ∀ x, x.ended = true → (f k x).ended = true) :
    (laneAt { c with lanes := tmap c.lanes f } k).ended = true := by
  cases found : tget c.lanes k with
  | none => simp [laneAt, tgetD, found] at h
  | some x =>
    rw [laneAt_tmap_of_tget found]
    exact keeps x (by simpa only [laneAt, tgetD, found, Option.getD_some] using h)

theorem endChunk_partOver (cycle : Nat) {g : Group} {k : Nat} (h : (laneAt g.regs k).ended = true) :
    PartOver (endChunk cycle g) k := by
  unfold endChunk
  split
  case h_1 closed => exact .inr closed
  case h_2 =>
    split
    · exact .inr rfl
    · exact .inl h

theorem closedGroup_partOver (i : In) (doomed : Bool) {g : Group} {k : Nat} (h : (laneAt g.regs k).ended = true) :
    PartOver (closedGroup i doomed g) k := by
  have parts : (laneAt (if endsWithWord g then endParts g else g).regs k).ended = true := by
    split
    · exact ended_tmap h fun x known => by split <;> simp [known]
    · exact h
  unfold closedGroup
  generalize (if endsWithWord g then endParts g else g) = b at parts ⊢
  have switched : (laneAt (endSwitch b.regs) k).ended = true := by
    unfold endSwitch
    split
    · exact parts
    · exact ended_tmap parts fun x known => by split <;> exact known
  refine endChunk_partOver _ ?_
  cases doomed <;> exact switched

/-- A lane that waits at no mask keeps its part through the evaluation of the masks. -/
theorem releaseMasks_lane_of_unmasked (q : Nat) {g : Group} {k : Nat} (h : atMask (laneAt g.regs k).wait = false) :
    laneAt (releaseMasks q g).regs k = laneAt g.regs k :=
  (upto 12).foldlRecOn (motive := fun b => laneAt b.regs k = laneAt g.regs k) (fun b m => releaseMask q b m) rfl
    fun b same m _ => (releaseMask_lane_of_not_waiting q fun _ _ _ waits => by
      rw [same] at waits
      rw [waits] at h
      cases h).trans same

/-- A lane of a word without traps whose part its fate ends, and which waits at no mask. -/
theorem finish_partOver {i : In} {w : Work} (plain : Plain i w) (untrapped : trapTable w.fates = []) {g : Group}
    (ends : tget (finish i w).groups i.gid = some g) {k : Nat} (hk : k ∈ i.lanes)
    (ended : (placedAt i w.fates w.g k).ended = true) (unmasked : atMask (placedAt i w.fates w.g k).wait = false) :
    PartOver g k := by
  obtain ⟨doomed, causes, win, closed⟩ := finish_closedGroup plain
  obtain rfl := Option.some.inj (ends.symm.trans closed)
  obtain ⟨n, lane⟩ := laneAt_beforeRelease_of_mem (causes := causes) (win := win) untrapped hk
  refine closedGroup_partOver _ _ ?_
  rw [placedGroup_eq, releaseMasks_lane_of_unmasked] <;> rw [lane]
  · exact ended
  · exact unmasked

/-! ### Barriers and CHEND (09 R210-R212, R214) -/

section

variable {ins : Instr} {s : State} {form : Form} {i : In}

/-- A word without sources that gives every lane of its set one fate. -/
theorem fated_of_no_sources (h : GroupIssues s form i) (hx : form.x = none) (hy : form.y = none) (hsx : form.sx = none)
    (hsy : form.sy = none) {f : Fate} (meaning : exec ins s = .next (finish i (setFates (issueWork i) i.lanes f))) :
    exec ins s = .next (finish i { onRegs (issueWork i) (releaseSources i []) with fates := oneFate i.lanes f }) := by
  have unchanged : onRegs (issueWork i) (releaseSources i []) = issueWork i :=
    congrArg (fun c => onRegs (issueWork i) fun _ => c) (released_of_no_sources h [] hx hy hsx hsy)
  rw [unchanged]
  exact meaning

/-- A barrier gives every lane of the set the fate to arrive in its wait. -/
theorem exec_barrier {w : In → Wait} (op : BarrierOp ins form w) (h : GroupIssues s form i) : exec ins s =
    .next (finish i { onRegs (issueWork i) (releaseSources i []) with fates := oneFate i.lanes (.arrive (w i)) }) := by
  cases op with
  | bart | barg | bartc | fenl => exact fated_of_no_sources h rfl rfl rfl rfl (groupOnly_next h _)

theorem barrier_unmasked {w : In → Wait} (op : BarrierOp ins form w) : atMask (w i) = false := by cases op <;> rfl

theorem exec_chend {sw : Bool} (h : GroupIssues s { sw := sw, guarded := false } i) : exec (.chend sw) s =
    .next (finish i { onRegs (issueWork i) (releaseSources i []) with fates := oneFate i.lanes .nextEnd }) :=
  fated_of_no_sources h rfl rfl rfl rfl (groupOnly_next h _)

end

/-! ### Words that add effects and give their lanes one fate -/

section

variable {i : In} {r : GroupCore} {es : List Eff} {w : Work}

theorem LeavesWork.setFates_fates (h : LeavesWork i r es w) (ls : List Nat) (f : Fate) :
    (setFates w ls f).fates = oneFate ls f := by rw [setFates, h.fates]; rfl

theorem LeavesWork.setFates_plain (h : LeavesWork i r es w) (ls : List Nat) (f : Fate) (stays : f ≠ .leave) :
    Plain i (setFates w ls f) := by
  refine h.plain.fated _ w.causes fun e mem => ?_
  rw [h.fates] at mem
  exact (mem_oneFate.mp mem).2 ▸ stays

/-- A word that leaves registers and effects, and gives lanes a fate that ends no thread. -/
theorem LeavesWork.setFates_completes {ins : Instr} {s : State} {form : Form} (h : GroupIssues s form i)
    (work : LeavesWork i r es w) (same : SameSpecials i.g.regs r) {ls : List Nat} {f : Fate}
    (plain : Plain i (setFates w ls f)) (meaning : exec ins s = .next (finish i (setFates w ls f))) :
    Completes ins s i (fun g => (g.regs.v = r.v ∧ g.regs.s = r.s ∧ g.regs.p = r.p) ∧ ChunksGain i g [] [] es [] ∧
      SpecialsKept i g) := by
  obtain ⟨g, hg, q, rest⟩ := finish_plain h plain
  obtain ⟨c, c1, hc, stores, tags, effs, rfl⟩ := work
  refine ⟨_, g, meaning, hg, ⟨⟨q.v, q.s, q.p⟩, ⟨?_, ?_, ?_, ?_⟩, q.tiles.trans same.tiles, q.accs.trans same.accs,
    q.masks.trans same.masks, q.unjoined.trans same.unjoined, ?_⟩, rest⟩
  · rw [q.stores]
    simp [setFates, ownStores, ownChunks, hc, stores]
  · rw [q.tags]
    simp [setFates, ownTags, ownChunks, hc, tags]
  · rw [q.effs]
    simp [setFates, ownEffs, ownChunks, hc, effs]
  · simp [q.flights, setFates]
  · rw [q.trap]
    simp only [setFates, same.trap]

theorem LeavesWork.regs (h : LeavesWork i r es w) : w.g.regs = r := by
  obtain ⟨c, c1, -, -, -, -, rfl⟩ := h
  rfl

theorem LeavesWork.legal (h : LeavesWork i r es w) : w.illegal = false := by
  obtain ⟨c, c1, -, -, -, -, rfl⟩ := h
  rfl

end

/-! ### PHASE (09 R213, 08 R164) -/

/-- The team has another exchange name than e, or a lattice program of the group is unjoined. -/
def phaseClash (i : In) (e : Nat) : Bool :=
  !i.g.regs.unjoined.isEmpty || ((viewName i.g i.t).isSome && viewName i.g i.t != some e)

/-- The access of the exchange name, which is written where it is unset. -/
def phaseAccess (i : In) (w : Work) : Work :=
  access w [teamInput i.t 31] (if (viewName i.g i.t).isNone then [teamInput i.t 31] else [])

/-- The name that a PHASE enters. -/
def phaseEffs (i : In) (e : Nat) : List Eff := if (viewName i.g i.t).isNone then [.exname e] else []

/-- The work of a PHASE that names e. -/
def phaseBody (e : Nat) (i : In) (w : Work) : Work :=
  if phaseClash i e then setFates (phaseAccess i w) i.lanes (.trap 3 0#32)
  else setFates (if (viewName i.g i.t).isNone then addEffs (phaseAccess i w) [.exname e] else phaseAccess i w) i.lanes
    (.arrive (.phase e))

/-- The programs in the exchange table of the launch whose group issues. -/
def exchangeCount (s : State) : Nat :=
  match s.issue.actor with
  | .group gid _ =>
    (match groupTriple s gid with
      | some (_, _, l) => l.exchOffsets.length
      | none => 0)
  | _ => 0

section

variable {s : State} {i : In} {sw : Bool} {e : BitVec 18}

theorem phaseClash_iff {n : Nat} : phaseClash i n = true ↔
    i.g.regs.unjoined ≠ [] ∨ ((viewName i.g i.t).isSome = true ∧ viewName i.g i.t ≠ some n) := by
  simp [phaseClash]

theorem exchangeCount_of_issues {f : Form} (h : GroupIssues s f i) : exchangeCount s = i.l.exchOffsets.length := by
  obtain ⟨gid, set, g, t, l, actor, triple, rfl, -, -⟩ := h
  simp only [exchangeCount, actor, triple]
  rfl

/-- A program of the exchange table, or none, is a legal operand. -/
theorem exec_phase (named : e.toNat = 0x3FFFF ∨ e.toNat < i.l.exchOffsets.length)
    (h : GroupIssues s { sw := sw, guarded := false } i) :
    exec (.phase sw e) s = .next (finish i (phaseBody e.toNat i (issueWork i))) := by
  have meaning : exec (.phase sw e) s = groupOnly s
      { sw := sw, guarded := false, illegal := e.toNat != 0x3FFFF && decide (e.toNat ≥ exchangeCount s) }
      (phaseBody e.toNat) := rfl
  have legal : (e.toNat != 0x3FFFF && decide (e.toNat ≥ exchangeCount s)) = false := by
    rw [exchangeCount_of_issues h]
    rcases named with none | inside
    · simp [none]
    · simp [Nat.not_le.mpr inside]
  rw [meaning, legal]
  exact groupOnly_next h _

/-- What a PHASE does before its lanes have their fate. -/
theorem phaseAccess_leaves (room : signatureRoom i [teamInput i.t 31]
    (if (viewName i.g i.t).isNone then [teamInput i.t 31] else [])) :
    LeavesWork i i.g.regs [] (phaseAccess i (issueWork i)) := access_leaves room

theorem phaseEntry_leaves (room : signatureRoom i [teamInput i.t 31]
    (if (viewName i.g i.t).isNone then [teamInput i.t 31] else [])) (n : Nat) : LeavesWork i i.g.regs (phaseEffs i n)
      (if (viewName i.g i.t).isNone then addEffs (phaseAccess i (issueWork i)) [.exname n]
        else phaseAccess i (issueWork i)) := by
  unfold phaseEffs
  split
  · exact (phaseAccess_leaves room).addEffs [.exname n]
  · exact phaseAccess_leaves room

end

end Sys2Proof.Machine

namespace Sys2Proof

open Sys2Proof.Machine

/-- Settles O27: a barrier gives every lane of the set one fate, and CHEND ends every lane's part. -/
theorem barriersHoldTheirLanes : Obligations.BarriersHoldTheirLanes := by
  refine ⟨fun ins f w op s i issues ready => ?barrier, fun sw s i issues ready => ?chend⟩
  case barrier =>
    exact goesOn_completes issues ready [] (.arrive (w i)) (fun _ mem => (mem_oneFate.mp mem).2)
      (fun _ => tgetD_oneFate _) nofun nofun (fun _ _ => ⟨rfl, rfl⟩) (barrier_unmasked op) (exec_barrier op issues)
  case chend =>
    have only : ∀ e ∈ oneFate i.lanes .nextEnd, e.2 = .nextEnd := fun _ mem => (mem_oneFate.mp mem).2
    have goes := goesOn_completes issues ready [] .nextEnd only (fun _ => tgetD_oneFate _) nofun nofun
      (fun _ hx => ⟨rfl, hx⟩) rfl (exec_chend issues)
    have plain : Plain i { onRegs (issueWork i) (releaseSources i []) with fates := oneFate i.lanes .nextEnd } :=
      ⟨rfl, rfl, rfl, fun e mem => only e mem ▸ Fate.noConfusion, fun _ _ => rfl, rfl, rfl⟩
    refine completes_mono (completes_also goes (exec_chend issues) (Q := fun g => ∀ k ∈ i.lanes, PartOver g k)
      fun g ends k hk => finish_partOver plain (untrapped_of_fate only nofun) ends hk ?_ ?_)
      fun g ⟨⟨stands, kept⟩, ended⟩ => ⟨fun k hk => ⟨stands k hk, ended k hk⟩, kept⟩
    · rw [placedAt, tgetD_oneFate _ hk]
      simp [lanePlaced, retire]
    · have same : laneAt (releaseSources i [] i.g.regs) k = laneAt i.g.regs k := by
        rw [laneAt, (releaseSources_special i [] i.g.regs).lanes, laneAt]
      rw [placedAt, tgetD_oneFate _ hk]
      change atMask (laneAt (releaseSources i [] i.g.regs) k).wait = false
      rw [same, ready k hk]
      rfl

/-- Settles O28: the exchange name is accessed in either case; the lanes then arrive in PHASE, or all of them trap. -/
theorem phaseNamesTheExchange : Obligations.PhaseNamesTheExchange := by
  intro sw e s i named issues ready room clash
  have meaning := exec_phase named issues
  have same := SameSpecials.refl i.g.regs
  have files {g : Group} (h : g.regs.v = i.g.regs.v ∧ g.regs.s = i.g.regs.s ∧ g.regs.p = i.g.regs.p) :
      FilesKept i g [] := by
    obtain ⟨v, s, p⟩ := h
    exact ⟨by rw [v, released_nil], by rw [s, released_nil], by rw [p, released_nil]⟩
  refine ⟨fun agrees => ?arrives, fun clashes inhabited => ?parks⟩
  case arrives =>
    have work := phaseEntry_leaves room e.toNat
    have plain := work.setFates_plain i.lanes (.arrive (.phase e.toNat)) nofun
    have fates := work.setFates_fates i.lanes (.arrive (.phase e.toNat))
    rw [phaseBody, if_neg (phaseClash_iff.not.mpr agrees)] at meaning
    refine completes_mono (completes_also (work.setFates_completes issues same plain meaning) meaning
      (Q := fun g => ∀ k ∈ i.lanes, standsAt g k (i.pc + 4#32) (.phase e.toNat)) fun g ends k hk => ?_)
      fun g ⟨⟨regs, chunks, specials⟩, stands⟩ => ⟨stands, files regs, chunks, specials⟩
    obtain ⟨g', hg', stands⟩ := finish_standsAt plain
    obtain rfl : g = g' := Option.some.inj (ends.symm.trans hg')
    rw [fates] at stands
    refine stands k hk (not_mem_trapTable (rising_oneFate _ _) (tgetD_oneFate _ hk) nofun) _ _ ?_ ?_ rfl <;>
      rw [tgetD_oneFate _ hk] <;> rfl
  case parks =>
    have work := phaseAccess_leaves room
    have plain := work.setFates_plain i.lanes (.trap 3 0#32) nofun
    have fates := work.setFates_fates i.lanes (.trap 3 0#32)
    rw [phaseBody, if_pos (phaseClash_iff.mpr clashes)] at meaning
    refine completes_mono (completes_also (work.setFates_completes issues same plain meaning) meaning
      (Q := fun g => SubgroupParked i g (i.lanes.map (fun k => (k, 3, 0#32)))) fun g ends => ?_)
      fun g ⟨⟨regs, chunks, specials⟩, parked⟩ => ⟨parked, files regs, chunks, specials⟩
    refine finish_subgroupParked issues plain work.legal
      (congrArg (·.trap.parks) work.regs) (fates ▸ rising_oneFate _ _) (fun x => ?_) (by simp) (by simpa using inhabited)
      ends
    obtain ⟨k, c, a⟩ := x
    rw [fates, mem_trapTable (rising_oneFate _ _), tget_oneFate]
    by_cases hk : k ∈ i.lanes
    · simp only [hk, if_true, Option.some.injEq, Fate.trap.injEq, List.mem_map, Prod.mk.injEq]
      exact ⟨fun ⟨hc, ha⟩ => ⟨k, hk, rfl, hc, ha⟩, fun ⟨_, _, _, hc, ha⟩ => ⟨hc, ha⟩⟩
    · simp [hk]

end Sys2Proof
end

section
/-! SUPPORT. GRED: the contributions of the executing lanes, each of which has room for its entry (09 R207, R209). -/

namespace Sys2Proof.Machine

open Sys2Proof

section

variable {s : State} {f : Form} {i : In} {fn size n : Nat} {val : Nat → DWord}

/-- What becomes of one more lane of a GRED: `acc` holds the contributions, the traps and the new keys of the lower ones. -/
def gredLane (fn size n : Nat) (val : Nat → DWord) (i : In)
    (acc : List Eff × Table (Nat × Word) × List GredKey) (l : Nat) : List Eff × Table (Nat × Word) × List GredKey :=
  let x := xVal i l
  let off := x.toNat * size
  let key : GredKey := (n, off, fn)
  match tget i.l.extents n with
  | none => (acc.1, acc.2.1 ++ [(l, (4, x))], acc.2.2)
  | some e =>
    if e.access / 4 % 2 = 0 || decide (e.len < off + size) then (acc.1, acc.2.1 ++ [(l, (4, x))], acc.2.2)
    else if (entryKeys i.s i.gid ++ gredKeys (ownEffs i.g)).contains key || acc.2.2.contains key then
      (acc.1 ++ [.gred n off fn (val l)], acc.2.1, acc.2.2)
    else if gredUsed i.s i.l i.gid i.g i.t + acc.2.2.length < gredCapacity i.s i.g i.t i.l then
      (acc.1 ++ [.gred n off fn (val l)], acc.2.1, acc.2.2 ++ [key])
    else (acc.1, acc.2.1 ++ [(l, (11, 0#32))], acc.2.2)

/-- The contribution of a lane. -/
def gredEff (fn size n : Nat) (val : Nat → DWord) (i : In) (k : Nat) : Eff := .gred n ((xVal i k).toNat * size) fn (val k)

/-- The lanes of a GRED that fits, in order: each enters its contribution, and at most one key each is new. -/
theorem foldl_gredLane (fits : GredFits i n size) {ls : List Nat} (inside : ∀ k ∈ ls, k ∈ i.act)
    (few : ls.length ≤ i.act.length) : ∃ keys : List GredKey, keys.length ≤ ls.length ∧
      ls.foldl (gredLane fn size n val i) ([], [], []) = (ls.map (gredEff fn size n val i), [], keys) := by
  obtain ⟨⟨e, bound, access, within⟩, room⟩ := fits
  induction ls using List.reverseRecOn with
  | nil => exact ⟨[], le_rfl, rfl⟩
  | append_singleton ls k ih =>
    rw [List.length_append, List.length_singleton] at few
    obtain ⟨keys, count, before⟩ := ih (fun j hj => inside j (by simp [hj])) (by omega)
    have legal : (decide (e.access / 4 % 2 = 0) || decide (e.len < (xVal i k).toNat * size + size)) = false := by
      simpa [access] using within k (inside k (by simp))
    have space : gredUsed i.s i.l i.gid i.g i.t + keys.length < gredCapacity i.s i.g i.t i.l := by omega
    rw [List.foldl_append, before, List.foldl_cons, List.foldl_nil, List.map_append, List.map_singleton,
      List.length_append, List.length_singleton]
    simp only [gredLane, bound, legal, Bool.false_eq_true, if_false, space, if_true]
    split
    case isTrue known => exact ⟨keys, by omega, rfl⟩
    case isFalse fresh => exact ⟨_, by simpa using count, rfl⟩

theorem gredLanes_of_fits (fits : GredFits i n size) :
    ∃ judged, gredLanes fn size n val i = (i.act.map (gredEff fn size n val i), [], judged) := by
  obtain ⟨keys, -, all⟩ := foldl_gredLane (fn := fn) (val := val) fits (fun _ => id) le_rfl
  have result {r} (lanes : i.act.foldl (gredLane fn size n val i) ([], [], []) = r) : gredLanes fn size n val i =
      (r.1, r.2.1, r.2.2.map (fun _ => .entry true) ++
        (upto (r.2.1.filter (fun e => e.2.1 == 11)).length).map (fun _ => .entry false)) := lanes ▸ rfl
  exact ⟨_, result all⟩

/-- A GRED that fits releases its sources and enters its contributions. -/
theorem gred_completes {ins : Instr} {wide : Bool} (h : GroupIssues s f i) (hsx : f.sx = none) (hsy : f.sy = none)
    (fits : GredFits i n size) (meaning : exec ins s = groupOnly s f (gredBody fn size n wide)) :
    Completes ins s i (fun g =>
      ChunksGain i g [] [] (i.act.map (gredEff fn size n (fun k => dword (yVal i k) (if wide then yVal2 i k else 0#32)) i)) [] ∧
      g.regs.v = (released i i.act).v ∧ g.regs.s = i.g.regs.s ∧ g.regs.p = i.g.regs.p ∧ SpecialsKept i g) := by
  obtain ⟨judged, lanes⟩ := gredLanes_of_fits (fn := fn)
    (val := fun k => dword (yVal i k) (if wide then yVal2 i k else 0#32)) fits
  have body : gredBody fn size n wide i (issueWork i) = judge i judged (addEffs (onRegs (issueWork i)
      (releaseSources i i.act)) (i.act.map (gredEff fn size n
        (fun k => dword (yVal i k) (if wide then yVal2 i k else 0#32)) i))) := by
    simp only [gredBody, lanes, List.map_nil, List.contains_nil, Bool.not_false, List.filter_true, trapLanes,
      List.foldl_nil]
  have scalars := released_sameScalars h i.act hsx hsy
  rw [groupOnly_next h, body] at meaning
  refine completes_mono (((((issueWork_leaves h).onRegs _).addEffs _).judge judged).completes h meaning)
    fun g leaves => ⟨leaves.gain, leaves.v, leaves.s.trans scalars.uniform, leaves.p.trans scalars.preds,
      leaves.specials (releaseSources_special i i.act i.g.regs) rfl⟩

end

end Sys2Proof.Machine

namespace Sys2Proof

open Sys2Proof.Machine

/-- Settles O22: no lane of a GRED that fits traps, and each enters its contribution. -/
theorem gredEntersContributions : Obligations.GredEntersContributions := by
  refine ⟨fun ins sw n x y fn op s i issues fits => ?one, fun sw n x y u s i issues fits => ?pair⟩
  case one => exact gred_completes (wide := false) issues rfl rfl fits (by cases op <;> rfl)
  case pair => exact gred_completes (wide := true) issues rfl rfl fits rfl

end Sys2Proof
end

section
/-! SUPPORT. Words whose executing lanes access local memory: the lanes that pass the checks of 09 R195 do their loads or
stores, and the others are parked (09 R193-R201, 08 R177, 21 R386). -/

namespace Sys2Proof.Machine

open Sys2Proof

/-! ### Addresses and checks (03 R64, 09 R195) -/

theorem effAddr_eq (i : In) (o : BitVec 8) (size : Nat) : effAddr i o size = addrOf i o size := by
  funext k
  apply BitVec.eq_of_toNat_eq
  simp [effAddr, addrOf, immValue_eq]

section

variable {i : In} {addr : Nat → Word} {n align : Nat}

/-- The accesses of the lanes that pass, with their cluster-local addresses. -/
def accessesOf (addr : Nat → Word) (ps : List (Nat × Nat)) : List LaneAccess := ps.map (fun e => (e.1, addr e.1, e.2))

theorem checkLanes_passing_failing (i : In) (addr : Nat → Word) (n align : Nat) :
    checkLanes i addr n align = (accessesOf addr (passing i addr n align), failing i addr n align) :=
  (checkLanes_eq i addr n align).trans (Prod.ext rfl (List.map_id _))

theorem accessLines_accessesOf (ps : List (Nat × Nat)) :
    accessLines (accessesOf addr ps) n = linesAt addr n (ps.map (·.1)) := by
  simp only [accessLines, accessesOf, linesAt, List.flatMap_map]

theorem accessLanes_accessesOf (ps : List (Nat × Nat)) : accessLanes (accessesOf addr ps) = ps.map (·.1) := by
  simp only [accessLanes, accessesOf, List.map_map, Function.comp_def]

theorem mem_passing {e : Nat × Nat} :
    e ∈ passing i addr n align ↔ e.1 ∈ i.act ∧ checkLocal i.s i.t i.l (addr e.1) n align = .ok e.2 := by
  simp only [passing, accessAt, List.mem_filterMap, Option.map_eq_some_iff]
  constructor
  · rintro ⟨k, hk, p, checked, rfl⟩
    refine ⟨hk, ?_⟩
    cases passed : checkLocal i.s i.t i.l (addr k) n align with
    | ok q => rw [passed] at checked; rw [Option.some.inj checked]
    | error x => rw [passed] at checked; cases checked
  · exact fun ⟨hk, checked⟩ => ⟨e.1, hk, e.2, by rw [checked], rfl⟩

theorem mem_failing {e : Nat × Nat × Word} :
    e ∈ failing i addr n align ↔ e.1 ∈ i.act ∧ checkLocal i.s i.t i.l (addr e.1) n align = .error e.2 := by
  simp only [failing, List.mem_filterMap]
  constructor
  · rintro ⟨k, hk, found⟩
    cases failed : checkLocal i.s i.t i.l (addr k) n align with
    | ok q => rw [failed] at found; cases found
    | error x => rw [failed] at found; cases found; exact ⟨hk, failed⟩
  · exact fun ⟨hk, checked⟩ => ⟨e.1, hk, by rw [checked]⟩

/-- A lane that passes its check is not among those that fail. -/
theorem not_mem_failing_of_passing {e : Nat × Nat} (h : e ∈ passing i addr n align) :
    e.1 ∉ (failing i addr n align).map (·.1) := by
  intro failed
  obtain ⟨x, mem, same⟩ := List.mem_map.mp failed
  have bad := (mem_failing.mp mem).2
  rw [same, (mem_passing.mp h).2] at bad
  cases bad

/-- Fates to which the traps of the failing lanes are added. -/
def withTraps (fates : Table Fate) (ts : List (Nat × Nat × Word)) : Table Fate :=
  ts.foldl (fun t e => tput t e.1 (.trap e.2.1 e.2.2)) fates

theorem rising_withTraps {fates : Table Fate} (h : Rising fates) (ts : List (Nat × Nat × Word)) :
    Rising (withTraps fates ts) :=
  rising_foldl_tput (fun e : Nat × Nat × Word => e.1) (fun e => Fate.trap e.2.1 e.2.2) ts h

theorem tget_withTraps_of_not_mem {fates : Table Fate} {ts : List (Nat × Nat × Word)} {k : Nat}
    (h : k ∉ ts.map (·.1)) : tget (withTraps fates ts) k = tget fates k :=
  tget_foldl_tput_of_not_mem (key := fun e : Nat × Nat × Word => e.1) (val := fun e => Fate.trap e.2.1 e.2.2) fates h

theorem withTraps_stay {fates : Table Fate} (h : ∀ e ∈ fates, e.2 ≠ .leave) (ts : List (Nat × Nat × Word)) :
    ∀ e ∈ withTraps fates ts, e.2 ≠ .leave :=
  foldl_tput_mem ts fates (fun x => .trap x.1 x.2) (· ≠ .leave) h (by simp)

/-- The lanes that trap are those that fail, where no other lane has a fate. -/
theorem mem_trapTable_failing (e : Nat × Nat × Word) :
    e ∈ trapTable (withTraps [] (failing i addr n align)) ↔ e ∈ failing i addr n align := by
  rw [mem_trapTable (rising_withTraps .nil _)]
  by_cases listed : e.1 ∈ (failing i addr n align).map (·.1)
  · obtain ⟨x, mem, same⟩ := List.mem_map.mp listed
    have failed := same ▸ (mem_failing.mp mem).2
    have trap : tget (withTraps [] (failing i addr n align)) e.1 = some (.trap x.2.1 x.2.2) := by
      refine tget_foldl_tput_of_forall (key := fun e : Nat × Nat × Word => e.1)
        (val := fun e => Fate.trap e.2.1 e.2.2) _ (fun y hy hk => ?_) listed
      have other := (mem_failing.mp hy).2
      rw [hk, failed] at other
      rw [Except.error.inj other]
    rw [trap, mem_failing, failed]
    constructor
    · intro found
      injection found with found
      injection found with cause address
      exact ⟨same ▸ (mem_failing.mp mem).1, congrArg Except.error (Prod.ext cause address)⟩
    · intro ⟨_, found⟩
      rw [Except.error.inj found]
  · rw [tget_withTraps_of_not_mem listed]
    exact iff_of_false nofun fun mem => listed (List.mem_map_of_mem mem)

end

/-! ### The work of an access -/

/-- A chunk that gains stores and changes of bits. -/
def chunkGain (stores : List Host.Cell) (tags : List TagStore) (c : Chunk) : Chunk :=
  { c with stores := stores ++ c.stores, tags := tags ++ c.tags }

/-- The work of a word that enters its access, releases sources in `ls`, leaves results outstanding, adds effects and gives
lanes their fates. -/
def accessWork (i : In) (r u : List Nat) (upd : Chunk → Chunk) (ls : List Nat) (vs : List (Nat × Word)) (es : List Eff)
    (fates : Table Fate) : Work :=
  { addEffs (flyAll (onRegs (memAccess i (issueWork i) r u upd) (releaseSources i ls)) 0 vs) es with fates := fates }

theorem memAccess_fates (i : In) (w : Work) (r u : List Nat) (upd : Chunk → Chunk) :
    (memAccess i w r u upd).fates = w.fates := by
  unfold memAccess
  split
  · rfl
  · split
    · rfl
    · dsimp only
      split <;> rfl

theorem flyAll_fates (w : Work) (cls : Nat) (vs : List (Nat × Word)) : (flyAll w cls vs).fates = w.fates :=
  vs.foldlRecOn (motive := fun v : Work => v.fates = w.fates) _ rfl fun _ same _ _ => same

/-- The traps of the failing lanes are the last fates that a word gives. -/
theorem trapLanes_accessWork (i : In) (r u : List Nat) (upd : Chunk → Chunk) (ls : List Nat) (vs : List (Nat × Word))
    (es : List Eff) (ts : List (Nat × Nat × Word)) :
    trapLanes (addEffs (flyAll (onRegs (memAccess i (issueWork i) r u upd) (releaseSources i ls)) 0 vs) es) ts =
      accessWork i r u upd ls vs es (withTraps [] ts) := by
  have none : (addEffs (flyAll (onRegs (memAccess i (issueWork i) r u upd) (releaseSources i ls)) 0 vs) es).fates = [] :=
    (flyAll_fates _ _ _).trans (memAccess_fates i (issueWork i) r u upd)
  rw [trapLanes, none]
  rfl

section

variable {s : State} {f : Form} {i : In} {r u : List Nat} {upd : Chunk → Chunk} {ls : List Nat} {vs : List (Nat × Word)}
  {es : List Eff} {fates : Table Fate}

/-- Such a work changes the issue's work in the group, the counter of results and the fates only. -/
theorem accessWork_eq (room : roomFor i r u upd) : ∃ c fl v n, accessWork i r u upd ls vs es fates =
    { issueWork i with
      g := { i.g with regs := { released i ls with v := v }, cur := some c, flights := fl }, nextId := n,
      fates := fates } := by
  obtain ⟨c, c1, hc, -, performed⟩ := memAccess_room (w := issueWork i) rfl room
  obtain ⟨-, -, ⟨fl, group⟩, n, work⟩ := flyAll_vector vs (onRegs (memAccess i (issueWork i) r u upd) (releaseSources i ls))
  rw [accessWork]
  generalize flyAll (onRegs (memAccess i (issueWork i) r u upd) (releaseSources i ls)) 0 vs = flown at group work ⊢
  generalize flown.g.regs.v = v at group
  refine ⟨{ upd c1 with effs := (upd c1).effs ++ es }, fl, v, n, ?_⟩
  rw [work, group, performed]
  rfl

theorem accessWork_plain (room : roomFor i r u upd) (stay : ∀ e ∈ fates, e.2 ≠ Fate.leave) :
    Plain i (accessWork i r u upd ls vs es fates) := by
  obtain ⟨c, fl, v, n, work⟩ := accessWork_eq (ls := ls) (vs := vs) (es := es) (fates := fates) room
  rw [work]
  exact ⟨rfl, rfl, rfl, stay, fun _ _ => rfl, rfl, rfl⟩

/-- The work leaves the lanes of the group and its parked sub-groups, and its word is legal. -/
theorem accessWork_keeps (room : roomFor i r u upd) :
    (accessWork i r u upd ls vs es fates).g.regs.lanes = i.g.regs.lanes ∧
    (accessWork i r u upd ls vs es fates).g.regs.trap = i.g.regs.trap ∧
    (accessWork i r u upd ls vs es fates).illegal = false := by
  obtain ⟨c, fl, v, n, work⟩ := accessWork_eq (ls := ls) (vs := vs) (es := es) (fates := fates) room
  have same := releaseSources_special i ls i.g.regs
  rw [work]
  exact ⟨same.lanes, same.trap, rfl⟩

theorem accessWork_completes {ins : Instr} {stores : List Host.Cell} {tags : List TagStore} (h : GroupIssues s f i)
    (room : roomFor i r u (chunkGain stores tags)) (stay : ∀ e ∈ fates, e.2 ≠ Fate.leave)
    (meaning : exec ins s = .next (finish i (accessWork i r u (chunkGain stores tags) ls vs es fates))) (Q : Group → Prop)
    (hQ : ∀ g, tget (finish i (accessWork i r u (chunkGain stores tags) ls vs es fates)).groups i.gid = some g → Q g) :
    Completes ins s i (fun g => VectorsPending i g ls (vs.map (·.1)) ∧
      ChunksGain i g stores tags es (resultsOf (released i ls).v 0 vs) ∧ SpecialsKept i g ∧ Q g) :=
  access_completes h r u _ room ls vs es stores tags
    (fun _ _ _ sameStores sameTags sameEffs => ⟨congrArg (stores ++ ·) sameStores, congrArg (tags ++ ·) sameTags, sameEffs⟩)
    _ fates stay rfl meaning Q hQ

/-- The lanes that fail are parked, and the others of the set go on. -/
structure FailedParked (i : In) (g : Group) (ts : List (Nat × Nat × Word)) : Prop where
  parked : ts ≠ [] → SubgroupParked i g ts
  others : OthersGoOn i g (ts.map (·.1))

variable {addr : Nat → Word} {n align : Nat}

/-- A word whose lanes access local memory: those that pass do, and those that fail park. -/
theorem checked_completes {ins : Instr} {stores : List Host.Cell} {tags : List TagStore} (h : GroupIssues s f i)
    (room : roomFor i r u (chunkGain stores tags))
    (meaning : exec ins s = .next (finish i (accessWork i r u (chunkGain stores tags) ls vs es
      (withTraps [] (failing i addr n align))))) :
    Completes ins s i (fun g => VectorsPending i g ls (vs.map (·.1)) ∧
      ChunksGain i g stores tags es (resultsOf (released i ls).v 0 vs) ∧ SpecialsKept i g ∧
      FailedParked i g (failing i addr n align)) := by
  have stay := withTraps_stay (fates := []) nofun (failing i addr n align)
  have plain := accessWork_plain (ls := ls) (vs := vs) (es := es) room stay
  obtain ⟨lanes, trap, legal⟩ := accessWork_keeps (ls := ls) (vs := vs) (es := es)
    (fates := withTraps [] (failing i addr n align)) room
  refine accessWork_completes h room stay meaning _ fun g ends => ⟨fun nonempty => ?parks, fun ready k hk passes => ?goes⟩
  case parks =>
    exact finish_subgroupParked h plain legal (congrArg (·.parks) trap) (rising_withTraps .nil _) mem_trapTable_failing
      (fun e mem => act_subset_lanes h _ (mem_failing.mp mem).1) nonempty ends
  case goes =>
    exact finish_goesOn plain lanes (rising_withTraps .nil _) ends hk (ready k hk) (tget_withTraps_of_not_mem passes)

end

/-! ### Loads (09 R197, R198) -/

/-- The lanes of a word of local memory that pass the checks, and those that fail, each at its effective address. -/
abbrev passingAt (i : In) (o : BitVec 8) (size : Nat) : List (Nat × Nat) := passing i (addrOf i o size) size size

abbrev failingAt (i : In) (o : BitVec 8) (size : Nat) : List (Nat × Nat × Word) := failing i (addrOf i o size) size size

/-- The lines that the lanes which pass touch. -/
abbrev linesPassing (i : In) (o : BitVec 8) (size : Nat) : List Nat :=
  linesAt (addrOf i o size) size ((passingAt i o size).map (·.1))

theorem length_viewBytes (m : Memory) (stores : List Host.Cell) (a n : Nat) : (viewBytes m stores a n).length = n := by
  rw [viewBytes, upto, List.length_map, List.length_range]

/-- A word that loads: it reads the lines of the lanes that pass, releases its sources there and leaves results `vs`
outstanding, and the other lanes trap. -/
def loadWork (i : In) (o : BitVec 8) (size : Nat) (vs : List (Nat × Word)) : Work :=
  accessWork i (linesPassing i o size) [] id ((passingAt i o size).map (·.1)) vs [] (withTraps [] (failingAt i o size))

/-- The results of a load, by register key. -/
def loadResults (i : In) (d : Nat) (o : BitVec 8) (size regs : Nat) (word : Nat → List Byte → Word) : List (Nat × Word) :=
  (passingAt i o size).flatMap (fun e => (upto regs).map (fun j => (64 * e.1 + d + j, word j (seenBytes i e.2 size))))

section

variable {s : State} {i : In} {ins : Instr} {sw : Bool} {d : Nat} {x : Src} {o : BitVec 8} {size regs : Nat}

theorem loadWork_completes {f : Form} {vs : List (Nat × Word)} (h : GroupIssues s f i)
    (room : roomFor i (linesPassing i o size) [] id) (meaning : exec ins s = .next (finish i (loadWork i o size vs))) :
    Completes ins s i (fun g => VectorsPending i g ((passingAt i o size).map (·.1)) (vs.map (·.1)) ∧
      ChunksGain i g [] [] [] (resultsOf (released i ((passingAt i o size).map (·.1))).v 0 vs) ∧ SpecialsKept i g ∧
      FailedParked i g (failingAt i o size)) :=
  checked_completes (stores := []) (tags := []) h room meaning

/-- Each lane that passes leaves one result for each of its registers, in turn. -/
theorem loadBody_eq {conv word : Nat → List Byte → Word} (same : ∀ j bs, bs.length = size → conv j bs = word j bs) :
    loadBody d o size regs conv i (issueWork i) = loadWork i o size (loadResults i d o size regs word) := by
  have flown (w : Work) : (accessesOf (addrOf i o size) (passingAt i o size)).foldl (fun w a =>
      (upto regs).foldl (fun w k => flyOut w 0 (64 * a.1 + d + k) (conv k (lmemBytes i.s i.g a.2.2 size))) w) w =
      flyAll w 0 (loadResults i d o size regs word) := by
    have words (p j : Nat) : conv j (lmemBytes i.s i.g p size) = word j (seenBytes i p size) :=
      same j _ (length_viewBytes _ _ _ _)
    simp only [accessesOf, List.foldl_map, words, flyAll, loadResults, List.foldl_flatMap]
  simp only [loadBody, effAddr_eq, checkLanes_passing_failing, accessLines_accessesOf, accessLanes_accessesOf]
  rw [flown, ← addEffs_nil (flyAll _ _ _), trapLanes_accessWork]
  rfl

/-- Every load of the table is one for groups. -/
theorem exec_groupLoad {word : Nat → List Byte → Word} (op : LoadOp ins sw d x o size regs word)
    (h : GroupIssues s (loadForm sw d x regs) i) :
    exec ins s = .next (finish i (loadWork i o size (loadResults i d o size regs word))) := by
  by_cases small : size ≤ 8
  · obtain ⟨conv, same, meaning⟩ := exec_load op small
    rw [meaning, groupOrControl_next h, loadBody_eq same]
  · cases op with
    | ld128 => exact (groupOnly_next h _).trans (by rw [loadBody_eq fun j bs _ => wordAt_eq j bs])
    | _ => exact absurd (by decide) small

end

/-! ### Stores (09 R196, R197, R201) -/

/-- The bytes that the lanes of a store leave, lane after lane, newest first. -/
def laneCells (ps : List (Nat × Nat)) (data : Nat → List Byte) : List Host.Cell :=
  (ps.map (fun e => storedCells e.2 (data e.1))).reverse.flatten

/-- The bits that they change. -/
def laneTags (ps : List (Nat × Nat)) (bits : Nat → List TagStore) (data : Nat → List Byte) : List TagStore :=
  (ps.map (fun e => bits e.2 ++ dirtyTags e.2 (data e.1).length)).reverse.flatten

/-- The stores of the lanes, one after the other. -/
theorem foldl_chunkStore (addr : Nat → Word) (data : Nat → List Byte) (bits : Nat → List TagStore) (ps : List (Nat × Nat))
    (c : Chunk) : (accessesOf addr ps).foldl (fun k (a : LaneAccess) =>
      let k1 := chunkStore k a.2.2 (data a.1)
      { k1 with tags := bits a.2.2 ++ k1.tags }) c = chunkGain (laneCells ps data) (laneTags ps bits data) c := by
  induction ps using List.reverseRecOn with
  | nil => rfl
  | append_singleton ps e ih =>
    rw [accessesOf, List.map_append, List.foldl_append, ← accessesOf, ih]
    simp [chunkStore, chunkGain, laneCells, laneTags, storedCells]

section

variable {s : State} {i : In} {ins : Instr} {sw : Bool} {d : Nat} {x : Src} {o : BitVec 8} {size regs : Nat}
  {data : In → Nat → List Byte} {bits : Nat → List TagStore} {cells : List Host.Cell} {tags : List TagStore}

/-- A store that has room does the work of an access of the lanes that pass. -/
theorem storeBody_eq (stored : laneCells (passingAt i o size) (data i) = cells)
    (marked : laneTags (passingAt i o size) bits (data i) = tags)
    (room : roomFor i [] (linesPassing i o size) (chunkGain cells tags)) :
    storeBody o size data bits i (issueWork i) = accessWork i [] (linesPassing i o size) (chunkGain cells tags)
      ((passingAt i o size).map (·.1)) [] [] (withTraps [] (failingAt i o size)) := by
  subst stored marked
  simp only [storeBody, effAddr_eq, checkLanes_passing_failing]
  rw [performing_all ?fits]
  case fits =>
    simp only [accessLines_accessesOf, foldl_chunkStore]
    exact accessFits_room room
  simp only [endIfCut_self, holdRest_self, accessLines_accessesOf, accessLanes_accessesOf, foldl_chunkStore]
  rw [← trapLanes_accessWork, addEffs_nil]
  rfl

theorem store_completes {f : Form} (h : GroupIssues s f i) (hsx : f.sx = none) (hsy : f.sy = none)
    (stored : laneCells (passingAt i o size) (data i) = cells)
    (marked : laneTags (passingAt i o size) bits (data i) = tags)
    (room : roomFor i [] (linesPassing i o size) (chunkGain cells tags))
    (meaning : exec ins s = .next (finish i (storeBody o size data bits i (issueWork i)))) :
    Completes ins s i (fun g => ChunksGain i g cells tags [] [] ∧
      (g.regs.v = (released i ((passingAt i o size).map (·.1))).v ∧ g.regs.s = i.g.regs.s ∧ g.regs.p = i.g.regs.p ∧
        SpecialsKept i g) ∧ FailedParked i g (failingAt i o size)) := by
  rw [storeBody_eq stored marked room] at meaning
  obtain ⟨uniform, preds⟩ := released_sameScalars h ((passingAt i o size).map (·.1)) hsx hsy
  exact completes_mono (checked_completes h room meaning) fun g ⟨⟨v, s, p⟩, chunks, specials, failed⟩ =>
    ⟨chunks, ⟨v, s.trans uniform, p.trans preds, specials⟩, failed⟩

/-- A byte outside the stored ones reads in the group's view as before (08 R177). -/
theorem viewByte_append_of_outside (m : Memory) {cells old : List Host.Cell} {a : Nat} (outside : ∀ c ∈ cells, c.1 ≠ a) :
    viewByte m (cells ++ old) a = viewByte m old a := by
  have unfound : cells.find? (fun c => c.1 == a) = none := List.find?_eq_none.mpr (by simpa using outside)
  rw [viewByte, cellOf, List.find?_append, unfound, Option.none_or]
  rfl

theorem mem_storedCells {p : Nat} {bs : List Byte} {c : Host.Cell} (h : c ∈ storedCells p bs) :
    p ≤ c.1 ∧ c.1 < p + bs.length := by
  simp only [storedCells, upto, List.mem_reverse, List.mem_map, List.mem_range] at h
  obtain ⟨j, hj, rfl⟩ := h
  exact ⟨Nat.le_add_right _ _, Nat.add_lt_add_left hj _⟩

theorem mem_laneCells {ps : List (Nat × Nat)} {data : Nat → List Byte} {c : Host.Cell} (h : c ∈ laneCells ps data) :
    ∃ e ∈ ps, c ∈ storedCells e.2 (data e.1) := by
  simpa [laneCells] using h

theorem length_natLE (n v : Nat) : (natLE n v).length = n := by
  induction n generalizing v with
  | zero => rfl
  | succ n ih => rw [natLE, List.length_cons, ih]

/-- The registers that a store reads hold its bytes. -/
theorem length_laneBytes (op : StoreOp ins sw d x o size regs bits) (k : Nat) : (laneBytes i d size regs k).length = size := by
  have enough : size ≤ regs * 4 := by cases op <;> decide
  simp only [laneBytes, List.length_take, List.length_flatMap, length_natLE, List.map_const', List.sum_replicate, upto,
    List.length_range, smul_eq_mul]
  exact Nat.min_eq_left enough

/-- Every store of the table is one for groups. -/
theorem exec_groupStore (op : StoreOp ins sw d x o size regs bits) (h : GroupIssues s (storeForm sw d x regs) i) :
    exec ins s = .next (finish i (storeBody o size (fun i => laneBytes i d size regs) bits i (issueWork i))) := by
  cases op with
  | st8 | st16 | st32 | st64 => exact groupOrControl_next h _ _
  | st128 | stf => exact groupOnly_next h _

theorem laneTags_of_length {ps : List (Nat × Nat)} {bits : Nat → List TagStore} {data : Nat → List Byte} {n : Nat}
    (length : ∀ k, (data k).length = n) :
    laneTags ps bits data = (ps.map (fun e => bits e.2 ++ dirtyTags e.2 n)).reverse.flatten := by
  simp only [laneTags, length]

/-- A word that changes bits stores no byte. -/
theorem laneCells_nil (ps : List (Nat × Nat)) : laneCells ps (fun _ => []) = [] := by
  simp [laneCells, storedCells, upto]

theorem laneTags_nil (ps : List (Nat × Nat)) (bit : Nat → TagStore) :
    laneTags ps (fun p => [bit p]) (fun _ => []) = (ps.map (fun e => bit e.2)).reverse := by
  simp only [laneTags, dirtyTags, List.length_nil, if_true, List.append_nil, ← List.map_reverse, ← List.flatMap_def,
    ← List.map_eq_flatMap]

/-- STE and STCD are stores of no byte. -/
theorem exec_bitStore {bit : Nat → TagStore} (op : BitOp ins sw x o bit)
    (h : GroupIssues s { sw := sw, x := some x, imm := true } i) :
    exec ins s = .next (finish i (storeBody o 4 (fun _ _ => []) (fun p => [bit p]) i (issueWork i))) := by
  cases op with
  | ste | stcd => exact groupOnly_next h _

/-- The bits of a word, as LDTAG reads them (09 R200). -/
def tagWord (i : In) (p : Nat) : Word := BitVec.ofNat 32
  ((viewFull i.s.lbits (ownTags i.g) p).toNat + 2 * (viewDirty i.s.lbits (ownTags i.g) p).toNat)

theorem boolWord_add (a b : Bool) : boolWord a + 2#32 * boolWord b = BitVec.ofNat 32 (a.toNat + 2 * b.toNat) := by
  revert a b
  decide

theorem exec_ldtag {d : BitVec 6} (h : GroupIssues s (loadForm sw d.toNat x 1) i) : exec (.ldtag sw d x o) s =
    .next (finish i (loadWork i o 4 ((passingAt i o 4).map (fun e => (64 * e.1 + d.toNat, tagWord i e.2))))) := by
  refine (groupOnly_next h _).trans ?_
  simp only [effAddr_eq, checkLanes_passing_failing, accessLines_accessesOf, accessLanes_accessesOf, boolWord_add]
  rw [accessesOf, List.foldl_map, loadWork, ← trapLanes_accessWork, addEffs_nil, flyAll, List.foldl_map]
  rfl

end

end Sys2Proof.Machine

namespace Sys2Proof

open Sys2Proof.Machine

/-- Settles O14: a load leaves the words of the bytes seen outstanding in the lanes that pass. -/
theorem loadsIssueSeenBytes : Obligations.LoadsIssueSeenBytes := by
  intro ins sw d x o size regs word op s i issues ps room vs
  exact completes_mono (loadWork_completes issues room (exec_groupLoad op issues))
    fun g ⟨pending, chunks, specials, _⟩ => ⟨pending, chunks, specials⟩

/-- Settles O15: a store enters its bytes lane after lane, all of them inside the words that it names. -/
theorem storesEnterTheChunk : Obligations.StoresEnterTheChunk := by
  intro ins sw d x o size regs bits op s i issues ps cells tags room
  have length := length_laneBytes (i := i) op
  refine completes_mono (store_completes issues rfl rfl (cells := cells) (tags := tags) rfl (laneTags_of_length length) room
    (exec_groupStore op issues)) fun g ⟨chunks, registers, _⟩ => ⟨chunks, fun a outside => ?_, registers⟩
  rw [chunks.stores]
  refine viewByte_append_of_outside _ fun c stored => ?_
  obtain ⟨e, mem, cell⟩ := mem_laneCells stored
  obtain ⟨low, high⟩ := mem_storedCells cell
  rw [length] at high
  have := outside e mem
  omega

/-- Settles O16: STE and STCD store no byte and change one bit in each lane; LDTAG loads both bits. -/
theorem bitStoresAndTagLoads : Obligations.BitStoresAndTagLoads := by
  constructor
  case left =>
    intro ins sw x o bit op s i issues ps tags room
    exact completes_mono (store_completes issues rfl rfl (o := o) (size := 4) (cells := []) (tags := tags)
      (laneCells_nil _) (laneTags_nil _ bit) room (exec_bitStore op issues)) fun g ⟨chunks, registers, _⟩ => ⟨chunks, registers⟩
  case right =>
    intro sw d x o s i issues ps room vs
    exact completes_mono (loadWork_completes issues room (exec_ldtag issues))
      fun g ⟨pending, chunks, specials, _⟩ => ⟨pending, chunks, specials⟩

/-- Settles O19: the failing lanes are the only ones with a fate, a trap each. -/
theorem failingAccessParksLanes : Obligations.FailingAccessParksLanes := by
  constructor
  case left =>
    intro ins sw d x o size regs word op s i issues room nonempty
    exact completes_mono (loadWork_completes issues room (exec_groupLoad op issues))
      fun g ⟨_, _, _, failed⟩ => ⟨failed.parked nonempty, failed.others⟩
  case right =>
    intro ins sw d x o size regs bits op s i issues ps room nonempty
    have marked := laneTags_of_length (ps := ps) (bits := bits) (length_laneBytes (i := i) op)
    have fits : roomFor i [] (linesPassing i o size) (chunkGain (laneCells ps (laneBytes i d size regs))
        (laneTags ps bits (laneBytes i d size regs))) := by
      rw [marked]
      exact room
    exact completes_mono (store_completes issues rfl rfl (data := fun i => laneBytes i d size regs) rfl rfl fits
      (exec_groupStore op issues)) fun g ⟨_, _, failed⟩ => ⟨failed.parked nonempty, failed.others⟩

end Sys2Proof
end

section
/-! SUPPORT. Loads of full words: the lanes that pass, in ascending order, take full words, and at an empty word they wait or
trap (09 R199). -/

namespace Sys2Proof.Machine

open Sys2Proof

/-! ### The walk of the lanes -/

section

variable {i : In} {c : FullCase} {take : Bool} {addr : Nat → Word}

/-- What a lane that finds its word empty comes to. -/
def emptyFate (c : FullCase) (addr : Nat → Word) (e : Nat × Nat) : Fate :=
  match c with
  | .traps => .trap 6 (addr e.1)
  | _ => .hold (.full e.2)

/-- The fates that the cases of the lanes give. -/
def caseFate (t : Table Fate) (e : LaneAccess × FullCase) : Table Fate :=
  match e.2 with
  | .took _ => t
  | .waits => tput t e.1.1 (.hold (.full e.1.2.2))
  | .traps => tput t e.1.1 (.trap 6 e.1.2.1)

/-- Steps that only give the lanes the fates of their cases. -/
theorem foldl_caseFate {step : Work → LaneAccess × FullCase → Work}
    (one : ∀ w e, step w e = { w with fates := caseFate w.fates e }) (xs : List (LaneAccess × FullCase)) (w : Work) :
    xs.foldl step w = { w with fates := xs.foldl caseFate w.fates } := by
  induction xs generalizing w with
  | nil => rfl
  | cons e rest ih => rw [List.foldl_cons, one, ih, List.foldl_cons]

/-- One more lane of a load of full words. -/
def fullStep (i : In) (c : FullCase) (take : Bool) (acc : List (LaneAccess × FullCase) × List TagStore) (a : LaneAccess) :
    List (LaneAccess × FullCase) × List TagStore :=
  if viewFull i.s.lbits (acc.2 ++ ownTags i.g) a.2.2 then
    (acc.1 ++ [(a, .took (lmemWord i.s i.g a.2.2))],
     if take then { addr := a.2.2, full := some false, dirty := none } :: acc.2 else acc.2)
  else (acc.1 ++ [(a, c)], acc.2)

/-- The fates of the lanes `es` that find their words empty. -/
def emptyFates (c : FullCase) (addr : Nat → Word) (es : List (Nat × Nat)) (fates : Table Fate) : Table Fate :=
  es.foldl (fun t e => tput t e.1 (emptyFate c addr e)) fates

/-- The cases `xs` of the lanes are those of a walk: it names the lanes that take their words, and those that do not. -/
structure CasesOf (c : FullCase) (addr : Nat → Word) (r : List (Nat × Nat × Word) × List (Nat × Nat) × List TagStore)
    (xs : List (LaneAccess × FullCase)) : Prop where
  took : tookLanes xs = r.1.map (fun e => ((e.1, addr e.1, e.2.1), e.2.2))
  fates : ∀ t, xs.foldl caseFate t = emptyFates c addr r.2.1 t

theorem foldl_fullStep (empty : c = .waits ∨ c = .traps) (ps : List (Nat × Nat))
    (acc : List (LaneAccess × FullCase)) (tags : List TagStore) :
    ∃ xs, (accessesOf addr ps).foldl (fullStep i c take) (acc, tags) = (acc ++ xs, (fullWalk i take ps tags).2.2 ++ tags) ∧
      CasesOf c addr (fullWalk i take ps tags) xs := by
  induction ps generalizing acc tags with
  | nil => exact ⟨[], by rw [List.append_nil]; rfl, rfl, fun _ => rfl⟩
  | cons e rest ih =>
    simp only [accessesOf, List.map_cons, List.foldl_cons, fullStep, fullWalk]
    split
    case isTrue full =>
      obtain ⟨xs, walked, took, fates⟩ := ih (acc ++ [((e.1, addr e.1, e.2), .took (lmemWord i.s i.g e.2))])
        (if take then { addr := e.2, full := some false, dirty := none } :: tags else tags)
      refine ⟨((e.1, addr e.1, e.2), .took (lmemWord i.s i.g e.2)) :: xs, ?_, ?_, fun t => ?_⟩
      · rw [← accessesOf, walked]
        cases take <;> simp
      · cases take <;> exact congrArg (_ :: ·) took
      · cases take <;> exact fates t
    case isFalse missed =>
      obtain ⟨xs, walked, took, fates⟩ := ih (acc ++ [((e.1, addr e.1, e.2), c)]) tags
      refine ⟨((e.1, addr e.1, e.2), c) :: xs, ?_, ?_, fun t => ?_⟩
      · rw [← accessesOf, walked]; simp
      · rw [← took]
        rcases empty with rfl | rfl <;> rfl
      · rw [List.foldl_cons, fates]
        rcases empty with rfl | rfl <;> rfl

/-- The lanes that miss are among those that walk. -/
theorem mem_of_mem_fullWalk {ps : List (Nat × Nat)} {tags : List TagStore} {e : Nat × Nat}
    (h : e ∈ (fullWalk i take ps tags).2.1) : e ∈ ps := by
  induction ps generalizing tags with
  | nil => cases h
  | cons a rest ih =>
    rw [fullWalk] at h
    split at h
    · exact List.mem_cons_of_mem _ (ih h)
    · exact (List.mem_cons.mp h).elim (fun same => same ▸ List.mem_cons_self ..) fun later => List.mem_cons_of_mem _ (ih later)

end

/-! ### The work of a load of full words -/

section

variable {s : State} {i : In} {ins : Instr} {sw : Bool} {d : BitVec 6} {x : Src} {o : BitVec 8} {c : FullCase} {take : Bool}

/-- The walk of the lanes that pass. -/
abbrev fullWalkAt (i : In) (o : BitVec 8) (take : Bool) : List (Nat × Nat × Word) × List (Nat × Nat) × List TagStore :=
  fullWalk i take (passingAt i o 4) []

/-- The lines that a load of full words reads, and those that it writes. -/
abbrev fullReads (i : In) (o : BitVec 8) (c : FullCase) (take : Bool) : List Nat :=
  linesAt (addrOf i o 4) 4
    (if c = .traps then (fullWalkAt i o take).1.map (·.1) else (passingAt i o 4).map (·.1))

abbrev fullWrites (i : In) (o : BitVec 8) (take : Bool) : List Nat :=
  if take then linesAt (addrOf i o 4) 4 ((fullWalkAt i o take).1.map (·.1)) else []

/-- The fates of a load of full words: those of the lanes that miss, and the traps of the lanes that fail. -/
def fullFates (i : In) (o : BitVec 8) (c : FullCase) (take : Bool) : Table Fate :=
  withTraps (emptyFates c (addrOf i o 4) (fullWalkAt i o take).2.1 []) (failingAt i o 4)

/-- Lanes whose words are outstanding, others that come to fates of their own, and then those that fail. -/
theorem trapLanes_missed {β : Type} (r u : List Nat) (upd : Chunk → Chunk) (ls : List Nat) (key : β → Nat) (val : β → Word)
    (es : List β) (missed : Table Fate → Table Fate) (ts : List (Nat × Nat × Word)) :
    let w := es.foldl (fun w e => flyOut w 0 (key e) (val e))
      (onRegs (memAccess i (issueWork i) r u upd) (releaseSources i ls))
    trapLanes { w with fates := missed w.fates } ts =
      accessWork i r u upd ls (es.map (fun e => (key e, val e))) [] (withTraps (missed []) ts) := by
  intro w
  have flown : flyAll (onRegs (memAccess i (issueWork i) r u upd) (releaseSources i ls)) 0
      (es.map (fun e => (key e, val e))) = w := List.foldl_map
  have none : w.fates = [] := by rw [← flown, flyAll_fates]; exact memAccess_fates ..
  rw [accessWork, flown, addEffs_nil, none]
  rfl

/-- The work of a load of full words. -/
def fullWork (i : In) (o : BitVec 8) (d : Nat) (c : FullCase) (take : Bool) : Work :=
  accessWork i (fullReads i o c take) (fullWrites i o take) (chunkGain [] (fullWalkAt i o take).2.2)
    ((fullWalkAt i o take).1.map (·.1)) ((fullWalkAt i o take).1.map (fun e => (64 * e.1 + d, e.2.2))) []
    (fullFates i o c take)

theorem fullOp_empty (op : FullOp ins sw d x o c take) : c = .waits ∨ c = .traps := by cases op <;> simp

theorem exec_loadFull (op : FullOp ins sw d x o c take) (s : State) : exec ins s = loadFull sw d x o s c take := by
  cases op <;> rfl

theorem exec_fullLoad (op : FullOp ins sw d x o c take) (h : GroupIssues s (loadForm sw d.toNat x 1) i)
    (room : roomFor i (fullReads i o c take) (fullWrites i o take) (chunkGain [] (fullWalkAt i o take).2.2)) :
    exec ins s = .next (finish i (fullWork i o d.toNat c take)) := by
  obtain ⟨xs, walked, took, fates⟩ := foldl_fullStep (i := i) (take := take) (addr := addrOf i o 4) (fullOp_empty op)
    (passingAt i o 4) [] []
  have cases : fullCases i c take (accessesOf (addrOf i o 4) (passingAt i o 4)) = (xs, (fullWalkAt i o take).2.2) :=
    walked.trans (by simp)
  have takers : (tookLanes xs).map (·.1) = accessesOf (addrOf i o 4) ((fullWalkAt i o take).1.map (fun e => (e.1, e.2.1))) := by
    simp [took, accessesOf]
  have lines : accessLines ((tookLanes xs).map (·.1)) 4 = linesAt (addrOf i o 4) 4 ((fullWalkAt i o take).1.map (·.1)) := by
    rw [takers, accessLines_accessesOf, List.map_map, Function.comp_def]
  have reads : (if c == .traps then linesAt (addrOf i o 4) 4 ((fullWalkAt i o take).1.map (·.1))
      else accessLines (accessesOf (addrOf i o 4) (passingAt i o 4)) 4) = fullReads i o c take := by
    rw [accessLines_accessesOf]
    rcases fullOp_empty op with rfl | rfl <;> rfl
  rw [exec_loadFull op, loadFull, groupOnly_next h]
  simp only [effAddr_eq, checkLanes_passing_failing]
  rw [performing_all ?fits]
  case fits =>
    simp only [cases, lines, reads]
    exact accessFits_room room
  simp only [endIfCut_self, holdRest_self, cases, lines, reads]
  rw [foldl_caseFate ?one]
  case one =>
    rintro w ⟨a, taken | _ | _⟩ <;> rfl
  simp only [took, fates, List.foldl_map, List.map_map, Function.comp_def]
  refine congrArg (fun w => Host.Outcome.next (finish i w)) ?_
  exact trapLanes_missed _ _ _ _ (fun e : Nat × Nat × Word => 64 * e.1 + d.toNat) (·.2.2) _
    (emptyFates c (addrOf i o 4) (fullWalkAt i o take).2.1) _

/-! ### The fates of the lanes that miss -/

theorem rising_fullFates : Rising (fullFates i o c take) :=
  rising_withTraps (rising_foldl_tput (fun e : Nat × Nat => e.1) (emptyFate c (addrOf i o 4)) _ .nil) _

theorem fullFates_stay : ∀ e ∈ fullFates i o c take, e.2 ≠ .leave := by
  refine withTraps_stay (List.foldlRecOn (motive := fun t : Table Fate => ∀ e ∈ t, e.2 ≠ .leave) _ _ (by simp)
    fun t stay e _ x mem => ?_) _
  rcases mem_of_mem_tput mem with rfl | old
  · cases c <;> exact nofun
  · exact stay x old

/-- A lane that misses comes to nothing else. -/
theorem tget_fullFates_of_missed {e : Nat × Nat} (missed : e ∈ (fullWalkAt i o take).2.1) :
    tget (fullFates i o c take) e.1 = some (emptyFate c (addrOf i o 4) e) := by
  have passes := mem_of_mem_fullWalk missed
  rw [fullFates, tget_withTraps_of_not_mem (not_mem_failing_of_passing passes)]
  refine tget_foldl_tput_of_forall (key := fun e : Nat × Nat => e.1) _ (fun x mem same => ?_) (List.mem_map_of_mem missed)
  have word := (mem_passing.mp (mem_of_mem_fullWalk mem)).2
  rw [same, (mem_passing.mp passes).2] at word
  rw [Prod.ext same (Except.ok.inj word).symm]

/-- Where the lanes that miss their words stand when the load has issued: each waits for its word, or is parked. -/
def MissedStand (i : In) (o : BitVec 8) (c : FullCase) (take : Bool) (g : Group) : Prop :=
  ∀ e ∈ (fullWalkAt i o take).2.1,
    (c = .waits → (laneAt g.regs e.1).wait = .full e.2) ∧ (c = .traps → (laneAt g.regs e.1).wait = .parked)

theorem missedStand_finish (h : GroupIssues s (loadForm sw d.toNat x 1) i)
    (room : roomFor i (fullReads i o c take) (fullWrites i o take) (chunkGain [] (fullWalkAt i o take).2.2))
    {g : Group} (ends : tget (finish i (fullWork i o d.toNat c take)).groups i.gid = some g) :
    MissedStand i o c take g := by
  intro e missed
  have inside : e.1 ∈ i.lanes := act_subset_lanes h _ (mem_passing.mp (mem_of_mem_fullWalk missed)).1
  have plain : Plain i (fullWork i o d.toNat c take) := accessWork_plain room fullFates_stay
  have found := tget_fullFates_of_missed (c := c) missed
  constructor
  · rintro rfl
    obtain ⟨g', hg', stands⟩ := finish_standsAt plain
    obtain rfl : g = g' := Option.some.inj (ends.symm.trans hg')
    have fate : tgetD (fullWork i o d.toNat .waits take).fates e.1 .next = .hold (.full e.2) :=
      congrArg (Option.getD · Fate.next) found
    have free := not_mem_trapTable rising_fullFates fate nofun
    exact (stands e.1 inside free _ _ rfl (by rw [fate]; rfl) rfl).2
  · rintro rfl
    have trapped : (e.1, 6, addrOf i o 4 e.1) ∈ trapTable (fullWork i o d.toNat .traps take).fates :=
      (mem_trapTable rising_fullFates).mpr found
    exact (finish_parked h (plain.fated [] _ nofun) ends inside (List.mem_map_of_mem trapped)).2

end

end Sys2Proof.Machine

namespace Sys2Proof

open Sys2Proof.Machine

/-- Settles O17: the fates of the lanes that miss are those of a walk through the lanes that pass. -/
theorem fullLoadsTakeOrWait : Obligations.FullLoadsTakeOrWait := by
  intro ins sw d x o c take op s i issues r took room vs
  exact completes_mono (accessWork_completes (stores := []) (tags := r.2.2) issues room fullFates_stay
      (exec_fullLoad op issues room) (MissedStand i o c take)
      fun g ends => missedStand_finish issues room ends)
    fun g ⟨pending, chunks, specials, missed⟩ => ⟨pending, chunks, specials, fun e mem _ => missed e mem⟩

end Sys2Proof
end

section
/-! SUPPORT. Uniform accesses: one word, once per issue, for all executing lanes (09 R202). -/

namespace Sys2Proof.Machine

open Sys2Proof

section

variable {s : State} {f : Form} {i : In} {ins : Instr} {o : BitVec 8} {p : Nat}

/-- The address of a uniform access (03 R64). -/
def uniformAddr (i : In) (o : BitVec 8) : Word := BitVec.ofNat 32 ((sxVal i).toNat + (immediateOf i.hints o).toNat * 4)

theorem effAddrS_eq (i : In) (o : BitVec 8) : effAddrS i o = uniformAddr i o := by
  apply BitVec.eq_of_toNat_eq
  simp [effAddrS, uniformAddr, immValue_eq]

/-- The access of a uniform word passes its checks. -/
theorem checkUniform_of_accessAt (h : accessAt i (fun _ => uniformAddr i o) 4 4 0 = some p) : checkUniform i o = .ok p := by
  simp only [accessAt] at h
  rw [checkUniform, effAddrS_eq]
  cases checked : checkLocal i.s i.t i.l (uniformAddr i o) 4 4 with
  | ok q => rw [checked] at h; rw [Option.some.inj h]
  | error x => rw [checked] at h; cases h

/-- Last uses of uniform sources release uniform registers only. -/
theorem released_sameVectors (h : GroupIssues s f i) (ls : List Nat) (hx : f.x = none) (hy : f.y = none) :
    (released i ls).v = i.g.regs.v ∧ (released i ls).p = i.g.regs.p := by
  have uniform (src : Option Src) (c : GroupCore) :
      let b := match src with
        | some x => if x.use == Use.last && !ls.isEmpty then releaseS c x.reg.toNat else c
        | none => c
      b.v = c.v ∧ b.p = c.p := by
    cases src with
    | none => exact ⟨rfl, rfl⟩
    | some x => dsimp only; split <;> exact ⟨rfl, rfl⟩
  simp only [released, releaseSources, (groupIssues_facts h).form, hx, hy]
  exact ⟨(uniform _ _).1.trans (uniform _ _).1, (uniform _ _).2.trans (uniform _ _).2⟩

theorem exec_lds32 {sw : Bool} {d : BitVec 6} {x : Src}
    (h : GroupIssues s { sw := sw, sx := some x, u := [d.toNat], imm := true } i)
    (active : i.act ≠ []) (passes : accessAt i (fun _ => uniformAddr i o) 4 4 0 = some p) :
    exec (.lds32 sw d x o) s = .next (finish i (flyOut (onRegs
      (memAccess i (issueWork i) (lineInputs (uniformAddr i o).toNat 4) [] id) (releaseSources i i.act)) 1 d.toNat
      (BitVec.ofNat 32 (leNat (seenBytes i p 4))))) := by
  refine (groupOnly_next h _).trans ?_
  simp only [List.isEmpty_eq_false_iff.mpr active, checkUniform_of_accessAt passes, effAddrS_eq]
  rfl

theorem exec_sts32 {sw : Bool} {d : BitVec 6} {x : Src}
    (h : GroupIssues s { sw := sw, sx := some x, u := [d.toNat], ur := [d.toNat], imm := true } i)
    (active : i.act ≠ []) (passes : accessAt i (fun _ => uniformAddr i o) 4 4 0 = some p) :
    exec (.sts32 sw d x o) s = .next (finish i (accessWork i [] (lineInputs (uniformAddr i o).toNat 4)
      (chunkGain (storedCells p (natLE 4 (readS i.g.regs d.toNat).1.toNat)) (dirtyTags p 4)) i.act [] [] [])) := by
  refine (groupOnly_next h _).trans ?_
  simp only [List.isEmpty_eq_false_iff.mpr active, checkUniform_of_accessAt passes, effAddrS_eq]
  have stored (c : Chunk) : chunkStore c p (wordBytes (readS i.g.regs d.toNat).1) =
      chunkGain (storedCells p (natLE 4 (readS i.g.regs d.toNat).1.toNat)) (dirtyTags p 4) c := rfl
  have work := trapLanes_accessWork i [] (lineInputs (uniformAddr i o).toNat 4)
    (chunkGain (storedCells p (natLE 4 (readS i.g.regs d.toNat).1.toNat)) (dirtyTags p 4)) i.act [] [] []
  rw [addEffs_nil] at work
  simp only [stored]
  exact congrArg (fun w => Host.Outcome.next (finish i w)) work

/-- A word that reads memory and leaves one uniform result outstanding. -/
theorem uniformLoad_completes {r : List Nat} {d : Nat} {v : Word} (h : GroupIssues s f i) (room : roomFor i r [] id)
    (meaning : exec ins s = .next (finish i (flyOut (onRegs (memAccess i (issueWork i) r [] id) (releaseSources i i.act))
      1 d v))) :
    Completes ins s i (fun g => g.regs.v = (released i i.act).v ∧ g.regs.p = (released i i.act).p ∧
      g.regs.s = pendingFile (released i i.act).s [d] ∧
      ChunksGain i g [] [] [] (resultsOf (released i i.act).s 1 [(d, v)]) ∧ SpecialsKept i g) := by
  obtain ⟨c, c1, hc, entered, performed⟩ := memAccess_room (w := issueWork i) rfl room
  obtain ⟨sameStores, sameTags, sameEffs⟩ := enterAccess_contents entered
  have special := releaseSources_special i i.act i.g.regs
  rw [performed] at meaning
  obtain ⟨g, hg, q, kept⟩ := finish_plain (w := flyOut (onRegs { issueWork i with g := { i.g with cur := some c1 } }
    (releaseSources i i.act)) 1 d v) h ⟨rfl, rfl, rfl, nofun, fun _ _ => rfl, rfl, rfl⟩
  refine ⟨_, g, meaning, hg, ⟨q.v, q.p, q.s, ⟨?_, ?_, ?_, ?_⟩, ?_⟩, kept⟩
  · rw [q.stores]; simp [flyOut, issueResult, onRegs, ownStores, ownChunks, hc, sameStores]
  · rw [q.tags]; simp [flyOut, issueResult, onRegs, ownTags, ownChunks, hc, sameTags]
  · rw [q.effs]; simp [flyOut, issueResult, onRegs, ownEffs, ownChunks, hc, sameEffs]
  · rw [q.flights]; simp [flyOut, issueResult, onRegs, resultsOf, flightFacts]; rfl
  · exact ⟨q.tiles.trans special.tiles, q.accs.trans special.accs, q.masks.trans special.masks,
      q.unjoined.trans special.unjoined, q.trap.trans (congrArg
        (fun t : TrapState => (t.cause, t.pc, t.addr, t.done, t.after)) special.trap)⟩

end

end Sys2Proof.Machine

namespace Sys2Proof

open Sys2Proof.Machine

/-- Settles O18: one word is loaded or stored for all executing lanes. -/
theorem uniformAccesses : Obligations.UniformAccesses := by
  constructor
  case left =>
    intro sw d x o s i p issues active a passes room
    obtain ⟨vectors, preds⟩ := released_sameVectors issues i.act rfl rfl
    exact completes_mono (uniformLoad_completes issues room (exec_lds32 issues active passes))
      fun g ⟨v, p, s, rest⟩ => ⟨v.trans vectors, p.trans preds, s, rest⟩
  case right =>
    intro sw d x o s i p issues active a passes room
    obtain ⟨vectors, preds⟩ := released_sameVectors issues i.act rfl rfl
    refine completes_mono (accessWork_completes (fates := []) issues room (by simp) (exec_sts32 issues active passes)
      (fun _ => True) fun _ _ => trivial) fun g ⟨⟨v, s, p⟩, chunks, specials, _⟩ =>
        ⟨chunks, fun b outside => ?_, v.trans vectors, p.trans preds, s, specials⟩
    rw [chunks.stores]
    refine viewByte_append_of_outside _ fun c stored => ?_
    obtain ⟨low, high⟩ := mem_storedCells stored
    rw [length_natLE] at high
    omega

end Sys2Proof
end

section
/-! SUPPORT. Local atomics: a chunk of its own opens for the word, whose lanes act in ascending order, each seeing the
results of the lower ones (09 R203-R205). -/

namespace Sys2Proof.Machine

open Sys2Proof

/-! ### The chunk of an atomic (09 R204) -/

theorem tput_tput_same {α : Type} (t : Table α) (k : Nat) (a b : α) : tput (tput t k a) k b = tput t k b := by
  induction t with
  | nil => simp [tput]
  | cons e rest ih =>
    obtain ⟨j, x⟩ := e
    by_cases before : k < j
    · simp [tput, before]
    · by_cases same : k = j
      · simp [tput, same]
      · simp [tput, before, same, ih]

theorem groupTriple_eq_some {s : State} {gid : Nat} {g : Group} {t : Team} {l : Launch} :
    groupTriple s gid = some (g, t, l) ↔
      tget s.groups gid = some g ∧ tget s.teams g.team = some t ∧ tget s.launches t.launch = some l := by
  constructor
  case mp =>
    intro triple
    unfold groupTriple at triple
    split at triple
    case h_1 => cases triple
    case h_2 g' found =>
      split at triple
      case h_1 => cases triple
      case h_2 t' team =>
        split at triple
        case h_1 => cases triple
        case h_2 l' launch =>
          cases triple
          exact ⟨found, team, launch⟩
  case mpr =>
    intro ⟨found, team, launch⟩
    simp only [groupTriple, found, team, launch]

theorem setLanes_readyLatm (g : Group) (set : Nat) : setLanes (readyLatm g set).regs set = setLanes g.regs set := by
  have chosen (x : Lane) : (let y := if x.status == .live && x.set == set then { x with wait := .ready } else x
      y.status == .live && y.set == set) = (x.status == .live && x.set == set) := by
    dsimp only
    split <;> rfl
  simp only [setLanes, readyLatm, tmap, List.filter_map, List.map_map, Function.comp_def, chosen]

theorem readyLatm_readyLatm (g : Group) (set : Nat) : readyLatm (readyLatm g set) set = readyLatm g set := by
  have twice (x : Lane) : (let y := if x.status == .live && x.set == set then { x with wait := .ready } else x
      if y.status == .live && y.set == set then { y with wait := .ready } else y) =
      if x.status == .live && x.set == set then { x with wait := .ready } else x := by
    dsimp only
    split <;> rfl
  simp only [readyLatm, tmap, List.map_map, Function.comp_def, twice]

/-- The state in which an atomic of form f issues when no chunk is open. -/
def latmState (s : State) (gid set : Nat) (g : Group) (f : Form) : State :=
  setGroup (openLatm s g set f).1 gid (openLatm s g set f).2

/-- The lanes that would act in an atomic of form f. -/
abbrev latmLanes (s : State) (g : Group) (set : Nat) (f : Form) : List Nat :=
  (guardLanes f s.issue.hints g.regs (setLanes g.regs set)).1

section

variable {s : State} {gid set : Nat} {f : Form} {g : Group}

theorem openLatm_idle (idle : (latmLanes s g set f).isEmpty = true) : openLatm s g set f = (s, readyLatm g set) := by
  simp only [openLatm, idle, if_true]

theorem openLatm_opens (active : ¬ (latmLanes s g set f).isEmpty = true) :
    ∃ c, (openLatm s g set f).2.cur = some c ∧ c.kind = .latm set := by
  rw [openLatm, if_neg active]
  exact ⟨_, rfl, rfl⟩

/-- Where no lane acts, the state in which the word issues is ready for it as it is. -/
theorem latmState_again (idle : (latmLanes s g set f).isEmpty = true) :
    latmState (latmState s gid set g f) gid set (readyLatm g set) f = latmState s gid set g f := by
  have state : latmState s gid set g f = setGroup s gid (readyLatm g set) := by rw [latmState, openLatm_idle idle]
  have still : (latmLanes (setGroup s gid (readyLatm g set)) (readyLatm g set) set f).isEmpty = true := by
    rw [latmLanes, setLanes_readyLatm]
    exact idle
  rw [state, latmState, openLatm_idle still, readyLatm_readyLatm, setGroup, setGroup, tput_tput_same]

theorem latmState_issue : (latmState s gid set g f).issue = s.issue := by
  unfold latmState openLatm openChunk
  split <;> rfl

theorem latmState_tables : (latmState s gid set g f).groups = tput s.groups gid (openLatm s g set f).2 ∧
    (latmState s gid set g f).teams = s.teams ∧ (latmState s gid set g f).launches = s.launches := by
  unfold latmState openLatm openChunk
  split <;> exact ⟨rfl, rfl, rfl⟩

theorem openLatm_team : (openLatm s g set f).2.team = g.team := by
  unfold openLatm openChunk
  split <;> rfl

/-- The group, team and launch of the word, before its chunk opens and after. -/
theorem groupTriple_latmState {h : Group} {t : Team} {l : Launch} (found : tget s.groups gid = some g)
    (triple : groupTriple (latmState s gid set g f) gid = some (h, t, l)) :
    h = (openLatm s g set f).2 ∧ groupTriple s gid = some (g, t, l) := by
  obtain ⟨groups, teams, launches⟩ := latmState_tables (s := s) (gid := gid) (set := set) (f := f) (g := g)
  rw [groupTriple_eq_some, groups, teams, launches, tget_tput_self] at triple
  obtain ⟨rfl, team, launch⟩ := by simpa only [Option.some.injEq] using triple
  rw [openLatm_team] at team
  exact ⟨rfl, groupTriple_eq_some.mpr ⟨found, team, launch⟩⟩

theorem latmState_rest : outside (latmState s gid set g f) = outside s ∧ (latmState s gid set g f).cores = s.cores := by
  unfold latmState openLatm openChunk
  split <;> exact ⟨rfl, rfl⟩

/-- The chunk that opens belongs to the issuing group alone: what is kept after it opened was so before. -/
theorem restKept_of_latmState {i : In} {t : State} {after : Group} (issuer : i.gid = gid)
    (kept : RestKept (latmState s gid set g f) t i after) : RestKept s t i after := by
  obtain ⟨device, cores⟩ := latmState_rest (s := s) (gid := gid) (set := set) (f := f) (g := g)
  obtain ⟨groups, teams, -⟩ := latmState_tables (s := s) (gid := gid) (set := set) (f := f) (g := g)
  refine ⟨kept.device.trans device, kept.cores.trans cores, fun k other => ?_, fun k n plain => ?_, kept.place⟩
  · rw [kept.groups k other, groups, tget_tput_ne _ _ _ _ (issuer ▸ other)]
  · rw [kept.teams k n plain, teams]

end

/-- In a chunk of its own an atomic issues as any word does. -/
theorem atomIssue_of_cur {s : State} {gid set : Nat} {g : Group} {c : Chunk} (found : tget s.groups gid = some g)
    (own : g.cur = some c) (kind : c.kind = .latm set) (f : Form) (body : In → Work → Work) :
    atomIssue s gid set f body = groupIssue s gid set f body := by
  unfold atomIssue
  cases triple : groupTriple s gid with
  | none => simp [groupIssue, triple]
  | some x =>
    obtain ⟨g', t, l⟩ := x
    obtain rfl := Option.some.inj ((groupTriple_eq_some.mp triple).1.symm.trans found)
    simp [own, kind]

/-- With no chunk open it issues in the state with a chunk for it. -/
theorem atomIssue_of_none {s : State} {gid set : Nat} {f : Form} {g : Group} {i : In}
    (actor : s.issue.actor = .group gid set) (found : tget s.groups gid = some g) (closed : g.cur = none) (h : GroupIssues (latmState s gid set g f) f i) (body : In → Work → Work) :
    atomIssue s gid set f body = .next (finish i (body i (issueWork i))) := by
  obtain ⟨gid', set', actor', meaning⟩ := groupIssue_next h body
  obtain ⟨gid'', set'', g', t, l, actor'', triple, rfl, legal, free⟩ := h
  rw [latmState_issue, actor] at actor' actor''
  cases actor'
  cases actor''
  obtain ⟨rfl, before⟩ := groupTriple_latmState found triple
  rw [latmState_issue] at legal
  rw [atomIssue, before]
  simp only
  rw [← formIllegal, legal, closed]
  rw [latmState] at triple free meaning
  simp only [triple, Option.any_some, free]
  exact meaning

/-- It issues there in the same way. -/
theorem atomIssue_latmState {s : State} {gid set : Nat} {f : Form} {g : Group} {i : In}
    (actor : s.issue.actor = .group gid set) (closed : g.cur = none) (h : GroupIssues (latmState s gid set g f) f i)
    (body : In → Work → Work) :
    atomIssue (latmState s gid set g f) gid set f body = .next (finish i (body i (issueWork i))) := by
  have there : (latmState s gid set g f).issue.actor = .group gid set := by rw [latmState_issue, actor]
  have found : tget (latmState s gid set g f).groups gid = some (openLatm s g set f).2 := by
    rw [latmState_tables.1, tget_tput_self]
  by_cases idle : (latmLanes s g set f).isEmpty = true
  case pos =>
    rw [openLatm_idle idle] at found
    exact atomIssue_of_none there found closed (by rw [latmState_again idle]; exact h) body
  case neg =>
    obtain ⟨c, own, kind⟩ := openLatm_opens idle
    obtain ⟨gid', set', actor', meaning⟩ := groupIssue_next h body
    cases there.symm.trans actor'
    rw [atomIssue_of_cur found own kind, meaning]

section

variable {s : State} {i : In} {ins : Instr} {sw dest : Bool} {d : BitVec 6} {x y : Src} {op : AtomOp}

/-- The form of a local atomic, which reads its destination where `dest` says so. -/
abbrev atomForm (sw : Bool) (d : BitVec 6) (x y : Src) (dest : Bool) : Form :=
  { sw := sw, x := some x, y := some y, v := [d.toNat], vr := if dest then [d.toNat] else [] }

/-- What an atomic does in the state with a chunk of its own, it does in the state that opens that chunk. -/
theorem atom_completes {P : Group → Prop} (meaning : ∀ s, exec ins s = atomXY sw d x y s dest op)
    (h : LatmIssues s (atomForm sw d x y dest) i)
    (law : ∀ s', GroupIssues s' (atomForm sw d x y dest) i →
      exec ins s' = .next (finish i (atomBody op d.toNat i (issueWork i))) → Completes ins s' i P) :
    Completes ins s i P := by
  have issue {s : State} {gid set : Nat} (actor : s.issue.actor = .group gid set) :
      exec ins s = atomIssue s gid set (atomForm sw d x y dest) (atomBody op d.toNat) := by
    rw [meaning, atomXY]
    simp only [actor]
  obtain ⟨gid, set, g, actor, found, ⟨⟨c, own, kind⟩, issues⟩ | ⟨closed, issues⟩⟩ := h
  case inl =>
    obtain ⟨gid', set', actor', next⟩ := groupIssue_next issues (atomBody op d.toNat)
    cases actor.symm.trans actor'
    exact law s issues (by rw [issue actor, atomIssue_of_cur found own kind, next])
  case inr =>
    have issues : GroupIssues (latmState s gid set g (atomForm sw d x y dest)) (atomForm sw d x y dest) i := issues
    have there : (latmState s gid set g (atomForm sw d x y dest)).issue.actor = .group gid set := by
      rw [latmState_issue, actor]
    obtain ⟨t, after, next, ends, leaves, kept⟩ := law _ issues
      ((issue there).trans (atomIssue_latmState actor closed issues _))
    have issuer : i.gid = gid := by
      obtain ⟨gid', set', g', u, l, actor', -, rfl, -⟩ := issues
      cases there.symm.trans actor'
      rfl
    have same : exec ins s = .next t := by
      rw [issue actor, atomIssue_of_none actor found closed issues, ← next, issue there,
        atomIssue_latmState actor closed issues]
    exact ⟨t, after, same, ends, leaves, restKept_of_latmState issuer kept⟩

end

/-! ### The lanes in turn (09 R205) -/

section

variable {s : State} {i : In} {op : AtomOp} {d : Nat} {addr : Nat → Word}

/-- What an operation makes of a word in a lane. -/
abbrev atomWrite (op : AtomOp) (d : Nat) (i : In) (k : Nat) (w : Word) : Option Word × List Nat :=
  op w (yVal i k) (readV i.g.regs k d).1 (roundMode i.hints)

/-- The lanes that pass, each with its old word, and the bytes and bits that they leave. -/
abbrev atomWalkAt (op : AtomOp) (d : Nat) (i : In) (ps : List (Nat × Nat)) (stores : List Host.Cell) :
    List (Nat × Word) × List Host.Cell × List TagStore :=
  atomWalk i (fun k w => (atomWrite op d i k w).1) ps stores

theorem ownStores_cur (i : In) (c : Chunk) :
    ownStores { i.g with cur := some c } = c.stores ++ i.g.inflight.reverse.flatMap (·.stores) := by
  simp [ownStores, ownChunks]

theorem ownStores_chunkGain (i : In) (cells : List Host.Cell) (tags : List TagStore) (c : Chunk) :
    ownStores { i.g with cur := some (chunkGain cells tags c) } = cells ++ ownStores { i.g with cur := some c } := by
  rw [ownStores_cur, ownStores_cur, ← List.append_assoc]
  rfl

theorem chunkGain_chunkGain (a b : List Host.Cell) (p q : List TagStore) (c : Chunk) :
    chunkGain a p (chunkGain b q c) = chunkGain (a ++ b) (p ++ q) c := by
  simp [chunkGain]

/-- One more lane of an atomic. -/
def atomStep (op : AtomOp) (d : Nat) (i : In) (acc : List (Nat × Word × List Nat) × Chunk) (a : LaneAccess) :
    List (Nat × Word × List Nat) × Chunk :=
  let w := lmemWord i.s { i.g with cur := some acc.2 } a.2.2
  let r := atomWrite op d i a.1 w
  (acc.1 ++ [(a.1, w, r.2)],
    match r.1 with
    | some v => chunkStore acc.2 a.2.2 (wordBytes v)
    | none => acc.2)

/-- The old words that a walk finds, with what the lanes count. -/
def countedLanes (op : AtomOp) (d : Nat) (i : In) (ws : List (Nat × Word)) : List (Nat × Word × List Nat) :=
  ws.map (fun e => (e.1, e.2, (atomWrite op d i e.1 e.2).2))

theorem foldl_atomStep (ps : List (Nat × Nat)) (acc : List (Nat × Word × List Nat)) (c : Chunk) :
    (accessesOf addr ps).foldl (atomStep op d i) (acc, c) =
      let r := atomWalkAt op d i ps (ownStores { i.g with cur := some c })
      (acc ++ countedLanes op d i r.1, chunkGain r.2.1 r.2.2 c) := by
  induction ps generalizing acc c with
  | nil => exact Prod.ext (List.append_nil _).symm rfl
  | cons e rest ih =>
    obtain ⟨k, p⟩ := e
    have word : lmemWord i.s { i.g with cur := some c } p =
        BitVec.ofNat 32 (leNat (viewBytes i.s.lmem (ownStores { i.g with cur := some c }) p 4)) := rfl
    rw [accessesOf, List.map_cons, ← accessesOf, List.foldl_cons, atomStep, ih]
    simp only [atomWalkAt, atomWalk, ← word, countedLanes]
    cases (atomWrite op d i k (lmemWord i.s { i.g with cur := some c } p)).1 with
    | none => simp
    | some v =>
      have stored : chunkStore c p (wordBytes v) = chunkGain (storedCells p (natLE 4 v.toNat)) (dirtyTags p 4) c := rfl
      simp [stored, ownStores_chunkGain, chunkGain_chunkGain]

/-- The bytes and bits of an atomic depend on the stores in its chunk, not on what else the chunk holds. -/
theorem atomLanes_eq (ps : List (Nat × Nat)) {c c1 : Chunk} (own : i.g.cur = some c) (same : c1.stores = c.stores) :
    atomLanes op d i (accessesOf addr ps) c1 =
      let r := atomWalkAt op d i ps (ownStores i.g)
      (countedLanes op d i r.1, chunkGain r.2.1 r.2.2 c1) := by
  have seen : ownStores { i.g with cur := some c1 } = ownStores i.g := by
    rw [ownStores_cur, same, ← ownStores_cur, ← own]
  rw [← seen]
  exact foldl_atomStep ps [] c1

/-- Changes of the chunk that agree where the stores are those of the open one have the same room, and do the same. -/
theorem memAccess_congr {r u : List Nat} {upd upd' : Chunk → Chunk} (room : roomFor i r u upd)
    (agree : ∀ c c1, i.g.cur = some c → c1.stores = c.stores → upd' c1 = upd c1) :
    accessFits i r u upd' = true ∧ memAccess i (issueWork i) r u upd' = memAccess i (issueWork i) r u upd := by
  obtain ⟨c, c1, hc, entered, fits⟩ := room
  have same := agree c c1 hc (enterAccess_contents entered).1
  have room' : roomFor i r u upd' := ⟨c, c1, hc, entered, by rw [same]; exact fits⟩
  have work : (issueWork i).g.cur = some c := hc
  exact ⟨accessFits_room room', by simp only [memAccess, work, entered, same]⟩

/-- The work of an atomic whose lanes have room. -/
theorem atomBody_eq (op : AtomOp) (d : Nat) (i : In) :
    let ps := passing i (fun k => xVal i k) 4 4
    let r := atomWalkAt op d i ps (ownStores i.g)
    let lines := linesAt (fun k => xVal i k) 4 (ps.map (·.1))
    roomFor i lines lines (chunkGain r.2.1 r.2.2) →
    atomBody op d i (issueWork i) = accessWork i lines lines (chunkGain r.2.1 r.2.2) (ps.map (·.1))
      (r.1.map (fun e => (64 * e.1 + d, e.2)))
      (r.1.flatMap (fun e => (atomWrite op d i e.1 e.2).2.map (fun n => Eff.count n 1)))
      (withTraps [] (failing i (fun k => xVal i k) 4 4)) := by
  intro ps r lines room
  obtain ⟨c, c1, own, -, -⟩ := id room
  obtain ⟨fits, access⟩ := memAccess_congr
    (upd' := fun k => (atomLanes op d i (accessesOf (fun k => xVal i k) ps) k).2) room fun c c1 own same => by
      rw [atomLanes_eq ps own same]
  have lanes := atomLanes_eq (op := op) (d := d) (addr := fun k => xVal i k) ps own (c1 := c) rfl
  simp only [atomBody, checkLanes_passing_failing]
  rw [performing_all ?fits]
  case fits =>
    simp only [accessLines_accessesOf]
    exact fits
  simp only [holdRest_self, accessLines_accessesOf, accessLanes_accessesOf, own, Option.getD_some]
  rw [lanes, access, ← trapLanes_accessWork]
  simp only [countedLanes, List.foldl_map, List.flatMap_map, flyAll]
  rfl

/-- A local atomic leaves the old words outstanding and its results in the chunk; its lanes that fail park. -/
theorem atomWord_completes {ins : Instr} {sw dest : Bool} {d : BitVec 6} {x y : Src}
    (meaning : ∀ s, exec ins s = atomXY sw d x y s dest op) (h : LatmIssues s (atomForm sw d x y dest) i) :
    let ps := passing i (fun k => xVal i k) 4 4
    let r := atomWalkAt op d.toNat i ps (ownStores i.g)
    let lines := linesAt (fun k => xVal i k) 4 (ps.map (·.1))
    let vs := r.1.map (fun e => (64 * e.1 + d.toNat, e.2))
    roomFor i lines lines (chunkGain r.2.1 r.2.2) →
    Completes ins s i (fun g => VectorsPending i g (ps.map (·.1)) (vs.map (·.1)) ∧
      ChunksGain i g r.2.1 r.2.2 (r.1.flatMap (fun e => (atomWrite op d.toNat i e.1 e.2).2.map (fun n => Eff.count n 1)))
        (resultsOf (released i (ps.map (·.1))).v 0 vs) ∧ SpecialsKept i g) := by
  intro ps r lines vs room
  refine atom_completes meaning h fun s' issues next => ?_
  rw [atomBody_eq op d.toNat i room] at next
  exact completes_mono (checked_completes issues room next)
    fun g ⟨pending, chunks, specials, _⟩ => ⟨pending, chunks, specials⟩

/-- Every atomic of the table makes its word and counts nothing. -/
theorem exec_atomic {ins : Instr} {sw dest : Bool} {d : BitVec 6} {x y : Src} {f : Word → Word → Word → Option Word}
    (op : AtomicOp ins sw d x y dest f) (s : State) :
    exec ins s = atomXY sw d x y s dest (fun w b dv _ => (f w b dv, [])) := by
  cases op with
  | aadd | aand | aor | axor | axch | aincw => rfl
  | amin | amax | aminn | amaxn => simp only [← integerOp_eq]; rfl
  | acas =>
    have same : (fun w b dv _ => (if w == dv then some b else none, [])) =
        ((fun w b dv _ => (if w = dv then some b else none, [])) : AtomOp) := by simp only [beq_iff_eq]
    exact congrArg (atomXY sw d x y s true) same

/-- The FP32 sum of AFADD, with the events that it counts (09 R205). -/
def sumOp : AtomOp := fun w b _ m =>
  (some (BitVec.ofNat 32 (fpAdd .fp32 m false (fpOf w) (fpOf b)).code), (fpAdd .fp32 m false (fpOf w) (fpOf b)).counts)

theorem exec_afadd (sw : Bool) (d : BitVec 6) (x y : Src) (s : State) :
    exec (.afadd sw d x y) s = atomXY sw d x y s false sumOp := rfl

end

end Sys2Proof.Machine

namespace Sys2Proof

open Sys2Proof.Machine

/-- Settles O21: each atomic does its walk in a chunk of its own; AFADD is the one that counts. -/
theorem localAtomicsSerialInLanes : Obligations.LocalAtomicsSerialInLanes := by
  constructor
  case left =>
    intro ins sw d x y dest f op s i issues ps r lines room vs
    refine completes_mono (atomWord_completes (exec_atomic op) issues room)
      fun g ⟨pending, chunks, specials⟩ => ⟨pending, ?_, specials⟩
    have uncounted : (r.1.flatMap fun _ => ([] : List Nat).map (fun n => Eff.count n 1)) = [] := by simp
    exact uncounted ▸ chunks
  case right =>
    intro sw d x y s i issues ps sum r lines room vs
    exact atomWord_completes (exec_afadd sw d x y) issues room

end Sys2Proof
end

section
/-! SUPPORT. Words of a sequencer: the running program goes on, ends, or stands, and no other unit's program changes
(11 R235-R255, 18 R360, R361). -/

namespace Sys2Proof.Machine

open Sys2Proof

/-! ### The issue of a sequencer (04 R81, 11 R235) -/

theorem state_of_seqAt {s : State} {core unit : Nat} {q : Seq} (found : seqAt s core unit = some q) : q.s = s := by
  unfold seqAt at found
  split at found
  · cases found
  · split at found
    · cases found
    · split at found <;> cases found
      rfl

section

variable {ins : Instr} {s : State} {lat : Bool} {q : Seq} (h : SeqIssues s lat q)

include h

theorem state_of_seqIssues : q.s = s := state_of_seqAt h.2.2.2

/-- A word of the right kind does its meaning for the running program. -/
theorem seqIssue_next (f : Seq → State) : seqIssue s lat f = .next (f q) := by
  obtain ⟨actor, -, kind, found⟩ := h
  simp [seqIssue, sequencerOnly, actor, kind, found]

/-- A word that puts the program p back, in a state whose engines are those from before. -/
theorem seqCompletes_of_setProg {t : State} {p : Prog} {P : State → Prop} (engines : t.engines = s.engines)
    (meaning : exec ins s = .next (setProg t q.core q.unit p)) (holds : P (setProg t q.core q.unit p)) :
    SeqCompletes ins s q p P := by
  have unit : engineAt t q.core q.unit = engineAt s q.core q.unit := by rw [engineAt, engines, engineAt]
  refine ⟨_, meaning, ?_, ⟨fun c u small other => ?_, ?_⟩, holds⟩
  · rw [setProg, engineAt_setEngine_self]
  · have unitSmall := h.2.1
    rw [setProg, engineAt_setEngine_ne _ _ _ _ _ _ (by omega), engineAt, engines, engineAt]
  · rw [setProg, engineAt_setEngine_self, unit]

/-- A word that changes the program only. -/
theorem seqCompletes_of_program {p : Prog} (meaning : exec ins s = .next (setProg s q.core q.unit p)) :
    SeqCompletes ins s q p (OnlyEngines s) :=
  seqCompletes_of_setProg h rfl meaning rfl

/-- A word that ends the program with a status, whose event names the word at which it stands. -/
theorem endsWith_of_endProgram {status off : Nat} {word : Word}
    (meaning : exec ins s = .next (endProgram s q.core q.unit status off word)) : EndsWith ins s q status := by
  obtain ⟨-, small, -, found⟩ := h
  obtain ⟨engines, groups, lattices, parts⟩ := endProgram_tables (run_of_seqAt found) status off word
  obtain ⟨lmem, -, -, -, gmem⟩ := endProgram_memory s q.core q.unit status off word
  refine ⟨_, meaning, ?_, ⟨fun c u unit other => ?_, ?_⟩, groups, gmem, lmem, lattices, parts⟩
  · rw [engineAt, engines, tgetD_tput_self]
  · rw [engineAt, engines, tgetD_tput_ne _ _ _ _ _ (by omega), engineAt]
  · rw [engineAt, engines, tgetD_tput_self]

end

end Sys2Proof.Machine
end

section
/-! SUPPORT. Arithmetic of sequencers and the loop stack (11 R254, R255, 18 R360, R361). -/

namespace Sys2Proof.Machine

open Sys2Proof

/-! ### XALU and LALU -/

/-- The sign extension of an immediate is its number in two's complement. -/
theorem signExtend_imm12 (i : BitVec 12) {w : Nat} : i.signExtend w = BitVec.ofInt w (imm12 i) := by
  have number : imm12 i = i.toInt := by
    rw [imm12, BitVec.toInt_eq_toNat_cond]
    norm_num
    split <;> split <;> omega
  rw [number, BitVec.signExtend]

/-- Whether a register is marked for the write-back at the end of the program (11 R236). -/
def marked (written : List Nat) (n : Nat) : List Nat := if written.contains n then written else written ++ [n]

theorem mem_marked {written : List Nat} {n k : Nat} : k ∈ marked written n ↔ k = n ∨ k ∈ written := by
  unfold marked
  split
  case isTrue held => exact ⟨.inr, fun either => either.elim (fun same => same ▸ List.contains_iff_mem.mp held) id⟩
  case isFalse => rw [List.mem_append, List.mem_singleton, or_comm]

section

variable {ins : Instr} {s : State} {q : Seq}

/-- Each XALU word writes its value in its register, and marks it. -/
theorem exec_xalu {d : BitVec 5} {val : Seq → DWord} (op : XaluOp ins d val) (h : SeqIssues s false q) :
    exec ins s = .next (aluReg q d.toNat (val q)) := by
  cases op with
  | li sw _ i =>
    have meaning : exec (.xaluLi sw d i) s = .next (aluReg q d.toNat (i.signExtend 64)) := seqIssue_next h _
    rwa [signExtend_imm12] at meaning
  | add sw _ x =>
    have meaning : exec (.xaluAdd sw d x) s = .next (aluReg q d.toNat (ereg q d.toNat + ereg q x.toNat)) := seqIssue_next h _
    have sum : ereg q d.toNat + ereg q x.toNat = BitVec.ofNat 64 (eNum q d + eNum q x) := by
      rw [BitVec.ofNat_add]
      simp [eNum, ereg]
    rwa [sum] at meaning
  | mul sw _ x =>
    have meaning : exec (.xaluMul sw d x) s = .next (aluReg q d.toNat (ereg q d.toNat * ereg q x.toNat)) := seqIssue_next h _
    have product : ereg q d.toNat * ereg q x.toNat = BitVec.ofNat 64 (eNum q d * eNum q x) := by
      rw [BitVec.ofNat_mul]
      simp [eNum, ereg]
    rwa [product] at meaning
  | shl sw _ i small =>
    have meaning : exec (.xaluShl sw d i) s = .next (if decide (i.toNat > 63) then seqFail q 3 else
      aluReg q d.toNat (ereg q d.toNat <<< i.toNat)) := seqIssue_next h _
    have shifted : ereg q d.toNat <<< i.toNat = BitVec.ofNat 64 (eNum q d * 2 ^ i.toNat) := by
      refine BitVec.eq_of_toNat_eq ?_
      rw [BitVec.toNat_shiftLeft, BitVec.toNat_ofNat, Nat.shiftLeft_eq]
      rfl
    rwa [if_neg (by simpa using small), shifted] at meaning

theorem exec_lalu {d : BitVec 4} {val : Seq → Word} (op : LaluOp ins d val) (h : SeqIssues s true q) :
    exec ins s = .next (seqGo q fun p => { p with n := tput p.n d.toNat (val q) }) := by
  cases op with
  | li sw _ i =>
    have meaning : exec (.laluLi sw d i) s = .next (seqGo q fun p => { p with n := tput p.n d.toNat (i.signExtend 32) }) :=
      seqIssue_next h _
    rwa [signExtend_imm12] at meaning
  | add sw _ x =>
    have meaning : exec (.laluAdd sw d x) s =
      .next (seqGo q fun p => { p with n := tput p.n d.toNat (nreg q d.toNat + nreg q x.toNat) }) := seqIssue_next h _
    have sum : nreg q d.toNat + nreg q x.toNat = BitVec.ofNat 32 (nNum q d + nNum q x) := by
      rw [BitVec.ofNat_add]
      simp [nNum, nreg]
    rwa [sum] at meaning

/-! ### Loops (11 R255, 18 R361) -/

/-- The program after NEXT at the top of its loop stack, before its counter is put back. -/
def afterNext (p : Prog) (count top : Nat) (rest : List Nat) : Prog :=
  if 1 < count then { p with pc := top, index := p.index + 1 } else { onward p with loops := rest }

theorem exec_loop (sw : Bool) {lat : Bool} (h : SeqIssues s lat q) :
    exec (if lat then .lbrcLoop sw else .xbrcLoop sw) s = .next (loopPush q) := by
  cases lat <;> exact seqIssue_next h loopPush

/-- END of either kind of program. -/
theorem exec_end (sw : Bool) {lat : Bool} (h : SeqIssues s lat q) : exec (if lat then .lbrcEnd sw else .xbrcEnd sw) s =
    .next (endProgram s q.core q.unit 0 q.p.pc s.issue.word) := by
  have meaning : exec (if lat then .lbrcEnd sw else .xbrcEnd sw) s =
      .next (endProgram q.s q.core q.unit 0 q.p.pc q.s.issue.word) := by cases lat <;> exact seqIssue_next h _
  rwa [state_of_seqIssues h] at meaning

theorem seqFail_eq {lat : Bool} (h : SeqIssues s lat q) (status : Nat) :
    seqFail q status = endProgram s q.core q.unit status q.p.pc s.issue.word := by rw [seqFail, state_of_seqIssues h]

/-- A program whose stack is empty ends at NEXT. -/
theorem loopNext_empty {lat : Bool} (h : SeqIssues s lat q) (count : Nat) (put : Prog → Nat → Prog) (empty : q.p.loops = []) :
    loopNext q count put = endProgram s q.core q.unit 3 q.p.pc s.issue.word := by
  simp only [loopNext, empty, seqFail_eq h]

theorem exec_xbrcNext (sw : Bool) (d : BitVec 5) (h : SeqIssues s false q) : exec (.xbrcNext sw d) s =
    .next (loopNext q (eNum q d) fun p n => { p with e := tput p.e d.toNat (BitVec.ofNat 64 n) }) :=
  seqIssue_next h fun q => loopNext q (ereg q d.toNat).toNat fun p n => { p with e := tput p.e d.toNat (BitVec.ofNat 64 n) }

theorem exec_lbrcNext (sw : Bool) (d : BitVec 4) (h : SeqIssues s true q) : exec (.lbrcNext sw d) s =
    .next (loopNext q (nNum q d) fun p n => { p with n := tput p.n d.toNat (BitVec.ofNat 32 n) }) :=
  seqIssue_next h fun q => loopNext q (nreg q d.toNat).toNat fun p n => { p with n := tput p.n d.toNat (BitVec.ofNat 32 n) }

end

theorem pack_field (base n k : Nat) : pack base false [(n, k)] = base + n * 2 ^ k := by simp [pack]

/-- The words of XBRC.NEXT are those that the encoder gives (11 R255). -/
theorem encode_xbrcNext (n : BitVec 5) : encode (.xbrcNext false n) = some (0x7000010F + n.toNat * 0x100000) := by
  have word : encode (.xbrcNext false n) = some (pack 0x7000010F false [(n.toNat, 20)]) := rfl
  have shift : 2 ^ 20 = 0x100000 := by norm_num
  rw [word, pack_field, shift]

end Sys2Proof.Machine

namespace Sys2Proof

open Sys2Proof.Machine

/-- Settles O42: by its table, each word's meaning puts back the program that the statement names, or ends it. -/
theorem sequencerArithmeticAndLoops : Obligations.SequencerArithmeticAndLoops := by
  unfold Obligations.SequencerArithmeticAndLoops
  refine ⟨fun ins d val op s q issues => ?xalu, fun ins d val op s q issues => ?lalu, fun sw s q lat issues => ?loop,
    fun sw d s q top rest issues stack => ?xnext, fun sw d s q top rest issues stack => ?lnext,
    fun sw s q lat d e issues => ⟨endsWith_of_endProgram issues (exec_end sw issues), fun empty => ?empty⟩, ?words⟩
  case xalu =>
    have meaning := exec_xalu op issues
    rw [aluReg, seqGo, state_of_seqIssues issues] at meaning
    refine ⟨_, fun n => ?value, fun n => ?marks, ?rest, seqCompletes_of_program issues meaning⟩
    case value => exact tgetD_tput ..
    case marks => exact mem_marked
    case rest => rfl
  case lalu =>
    have meaning := exec_lalu op issues
    rw [seqGo, state_of_seqIssues issues] at meaning
    refine ⟨_, fun n => ?value, ?rest, seqCompletes_of_program issues meaning⟩
    case value => exact tgetD_tput ..
    case rest => rfl
  case loop =>
    have meaning := exec_loop sw issues
    rw [loopPush, seqGo, seqFail_eq issues, state_of_seqIssues issues] at meaning
    refine ⟨fun room => seqCompletes_of_program issues ?_, fun full => ?_⟩
    · rw [meaning, if_neg (Nat.not_le.mpr room)]
      rfl
    · rw [if_pos full] at meaning
      exact endsWith_of_endProgram issues meaning
  case xnext =>
    have meaning := exec_xbrcNext sw d issues
    refine seqCompletes_of_program issues (meaning.trans ?_)
    simp only [loopNext, stack, state_of_seqIssues issues, Nat.sub_pos_iff_lt]
    split <;> rfl
  case lnext =>
    have meaning := exec_lbrcNext sw d issues
    refine seqCompletes_of_program issues (meaning.trans ?_)
    simp only [loopNext, stack, state_of_seqIssues issues, Nat.sub_pos_iff_lt]
    split <;> rfl
  case empty =>
    cases lat with
    | false =>
      have meaning := exec_xbrcNext sw d issues
      rw [loopNext_empty issues _ _ empty] at meaning
      exact endsWith_of_endProgram issues meaning
    | true =>
      have meaning := exec_lbrcNext sw e issues
      rw [loopNext_empty issues _ _ empty] at meaning
      exact endsWith_of_endProgram issues meaning
  case words =>
    refine ⟨decodeTableWord_of_encode rfl rfl ?_, decodeTableWord_of_encode rfl rfl ?_,
      fun n => decodeTableWord_of_encode rfl (encode_xbrcNext n) ?_⟩ <;> exact fun ⟨_, port⟩ => nomatch port

end Sys2Proof
end

section
/-! SUPPORT. Transfers of an exchange: what the exchange of a partition holds after its operations, and the words that the
transfers of a copy program enter in it (10 R223, R224, 11 R243-R249). -/

namespace Sys2Proof.Machine

open Sys2Proof

/-! ### The exchange of a partition -/

theorem tmod_tmod {α : Type} (t : Table α) (k : Nat) (f g : α → α) : tmod (tmod t k f) k g = tmod t k (g ∘ f) := by
  simp only [tmod, List.map_map]
  refine List.map_congr_left fun e _ => ?_
  simp only [Function.comp]
  split <;> simp_all

theorem onExchange_onExchange (s : State) (n : Nat) (f g : Exch → Exch) :
    onExchange (onExchange s n f) n g = onExchange s n (g ∘ f) := by
  simp only [onExchange, tmod_tmod]
  rfl

section

variable {s : State} {q : Seq} (stands : (tget s.parts q.l.part).isSome)

include stands

theorem exchangeIn_onExchange (f : Exch → Exch) : exchangeIn (onExchange s q.l.part f) q = f (exchangeIn s q) := by
  obtain ⟨p, found⟩ := Option.isSome_iff_exists.mp stands
  simp [exchangeIn, onExchange, tget_tmod, found]

end

/-- What is entered in an exchange changes nothing else of the device, besides engines. -/
theorem onlyExchange_of_entered {s : State} {q : Seq} {f : Exch → Exch} {c u : Nat} {p : Prog} :
    OnlyExchange s (setProg (onExchange s q.l.part f) c u p) q := by
  refine ⟨rfl, fun k other => ?_, ?_⟩ <;> simp only [setProg_parts, onExchange, tget_tmod]
  · rw [if_neg other]
  · rw [if_pos trivial, Option.map_map]
    rfl

section

variable {ins : Instr} {s : State} {lat : Bool} {q : Seq}

/-- An operation that changes the exchange and goes on at the next word. -/
theorem seqCompletes_of_onExchange (h : SeqIssues s lat q) (stands : (tget s.parts q.l.part).isSome) {f : Exch → Exch}
    (meaning : exec ins s = .next (seqDone q (onExchange s q.l.part f))) :
    SeqCompletes ins s q (onward q.p) (fun t => OnlyExchange s t q ∧ exchangeIn t q = f (exchangeIn s q)) :=
  seqCompletes_of_setProg (t := onExchange s q.l.part f) h rfl meaning
    ⟨onlyExchange_of_entered, exchangeIn_onExchange stands f⟩

end

theorem seqCompletes_mono {ins : Instr} {s : State} {q : Seq} {p : Prog} {P Q : State → Prop}
    (h : SeqCompletes ins s q p P) (hPQ : ∀ t, P t → Q t) : SeqCompletes ins s q p Q := by
  obtain ⟨t, meaning, run, others, holds⟩ := h
  exact ⟨t, meaning, run, others, hPQ t holds⟩

/-! ### Notes on pages (10 R227, R228) -/

/-- The exchange without its notes on the pages that operations read or wrote. -/
def withoutNotes (e : Exch) : Exch := { e with reads := [], wrotePages := [] }

/-- State t is s with more notes on pages in the exchange of the program's partition. -/
def Noted (q : Seq) (s t : State) : Prop :=
  ∃ f : Exch → Exch, t = onExchange s q.l.part f ∧ ∀ e, withoutNotes (f e) = withoutNotes e

/-- Exchanges that differ in their notes only hold the same operations. -/
theorem books_of_withoutNotes {e e' : Exch} (h : withoutNotes e = withoutNotes e') : e.writes = e'.writes ∧ e.seqs = e'.seqs ∧
    e.folds = e'.folds ∧ e.ghosts = e'.ghosts ∧ e.sigs = e'.sigs ∧ e.joins = e'.joins := by
  have writes := congrArg Exch.writes h
  have seqs := congrArg Exch.seqs h
  have folds := congrArg Exch.folds h
  have ghosts := congrArg Exch.ghosts h
  have sigs := congrArg Exch.sigs h
  have joins := congrArg Exch.joins h
  exact ⟨writes, seqs, folds, ghosts, sigs, joins⟩

theorem Noted.refl (q : Seq) (s : State) : Noted q s s := by
  refine ⟨id, ?_, fun _ => rfl⟩
  have same : tmod s.parts q.l.part (fun p => { p with exchange := id p.exchange }) = s.parts := by simp [tmod]
  rw [onExchange, same]

theorem Noted.trans {q : Seq} {a b c : State} (h : Noted q a b) (k : Noted q b c) : Noted q a c := by
  obtain ⟨f, rfl, hf⟩ := h
  obtain ⟨g, rfl, hg⟩ := k
  exact ⟨g ∘ f, onExchange_onExchange .., fun e => (hg (f e)).trans (hf e)⟩

theorem noteReads_noted (q : Seq) (p : Place) (n : Nat) (s : State) : Noted q s (noteReads q p n s) := by
  cases p with
  | loc a => exact .refl q s
  | glob a =>
    rw [noteReads]
    exact ⟨_, rfl, fun _ => rfl⟩

theorem noteWriter_noted (q : Seq) (s : State) (pages : List Nat) (who : Nat) :
    Noted q s (noteWriter s q.l.part pages who) := ⟨_, rfl, fun _ => rfl⟩

/-! ### Writes as one operation of the queue (10 R223, R224) -/

/-- The exchange in which the queue has entered writes as its next operation. -/
def entered (q : Seq) (ws : List (Place × Word)) (e : Exch) : Exch :=
  { e with
    writes := e.writes ++ ws.map (fun w =>
      { space := (placeKey w.1).1, addr := (placeKey w.1).2, val := w.2, tag := q.tag, queue := q.key
        seq := tgetD e.seqs q.key 0, seen := tgetD e.joins q.key [], team := q.p.team })
    seqs := tput e.seqs q.key (tgetD e.seqs q.key 0 + 1) }

theorem exchangeWrite_noted (q : Seq) (ws : List (Place × Word)) (s : State) :
    Noted q (onExchange s q.l.part (entered q ws)) (exchangeWrite q ws s) := noteWriter_noted q _ _ _

theorem entered_noted (q : Seq) (ws : List (Place × Word)) {e e' : Exch} (h : withoutNotes e = withoutNotes e') :
    withoutNotes (entered q ws e) = withoutNotes (entered q ws e') := congrArg (entered q ws) h

section

variable {ins : Instr} {s : State} {lat : Bool} {q : Seq}

/-- An operation that changes the exchange, and notes pages besides. -/
theorem seqCompletes_of_noted (h : SeqIssues s lat q) (stands : (tget s.parts q.l.part).isSome) {f : Exch → Exch} {u : State}
    (noted : Noted q (onExchange s q.l.part f) u) (meaning : exec ins s = .next (seqDone q u)) :
    SeqCompletes ins s q (onward q.p) (fun t => OnlyExchange s t q ∧
      withoutNotes (exchangeIn t q) = withoutNotes (f (exchangeIn s q))) := by
  obtain ⟨g, rfl, same⟩ := noted
  rw [onExchange_onExchange] at meaning
  refine seqCompletes_mono (seqCompletes_of_onExchange h stands meaning) fun t ⟨only, exchange⟩ => ⟨only, ?_⟩
  rw [exchange]
  exact same _

/-- An operation that enters writes, after and before notes on pages. -/
theorem exchangeGains_of_write (h : SeqIssues s lat q) (stands : (tget s.parts q.l.part).isSome) {u : State}
    (noted : Noted q s u) {ws : List (Place × Word)} (meaning : exec ins s = .next (seqDone q (exchangeWrite q ws u))) :
    SeqCompletes ins s q (onward q.p) (fun t => ExchangeGains s t q ws) := by
  obtain ⟨f, rfl, same⟩ := noted
  have after := exchangeWrite_noted q ws (onExchange s q.l.part f)
  rw [onExchange_onExchange] at after
  refine seqCompletes_mono (seqCompletes_of_noted h stands after meaning) fun t ⟨only, exchange⟩ => ?_
  have books := exchange.trans (entered_noted q ws (same _))
  have writes : (entered q ws (exchangeIn s q)).writes = (exchangeIn s q).writes ++ writesOf q ws := by
    rw [writesOf, state_of_seqIssues h]
    rfl
  obtain ⟨gained, rest⟩ := books_of_withoutNotes books
  exact ⟨only, gained.trans writes, rest⟩

/-! ### Transfers (11 R243-R247) -/

/-- A transfer whose references and control word are right acts. -/
theorem transferOp_of_fits {kd kx : RefKind} {d x y : BitVec 5} {needD needX ops op n : Nat} {pd px : Place}
    (fits : TransferFits q kd kx d x y needD needX ops op n pd px) (act : Seq → Place → Place → Nat → Nat → State) :
    transferOp q kd kx d x y needD needX ops act = act q pd px n op := by
  obtain ⟨control, opLess, ⟨formD, formX⟩, pair, ⟨nonzero, quarter, limit⟩, dst, src⟩ := fits
  have right : (decide (op ≥ ops) || !refForm kd (ereg q d.toNat) || !refForm kx (ereg q x.toNat) ||
      (op == 11 && decide (y.toNat > 30))) = false := by
    simp only [formD, formX, Bool.not_true, Bool.or_false, Bool.or_eq_false_iff, decide_eq_false_iff_not, Bool.and_eq_false_iff]
    refine ⟨Nat.not_le.mpr opLess, ?_⟩
    by_cases last : op = 11
    · exact .inr (Nat.not_lt.mpr (pair last))
    · exact .inl (by simpa using last)
  have lengthFits : lenFits n = true := by simpa [lenFits, quarter] using limit
  simp only [transferOp, control, right, Bool.false_eq_true, if_false, nonzero, dst, src, lengthFits, if_true]

theorem exchangeOnly_of_exch (exch : q.exch = true) (f : Seq → State) : exchangeOnly q f = f q := if_pos exch

/-- XCP, XGET and XPUT copy in an exchange. -/
theorem exec_copyOp {d x y : BitVec 5} {kd kx : RefKind} {nd nx n : Nat} {pd px : Place} (op : CopyOp ins d x y kd kx nd nx)
    (h : SeqIssues s false q) (exch : q.exch = true) (fits : TransferFits q kd kx d x y nd nx 1 0 n pd px) :
    exec ins s = .next (exchangeCopy q pd px n) := by
  cases op with
  | xcp sw =>
    have meaning : exec (.xcp sw d x y) s = .next _ := seqIssue_next h _
    rwa [transferOp_of_fits fits, if_pos exch] at meaning
  | xget sw =>
    have meaning : exec (.xget sw d x y) s = .next _ := seqIssue_next h _
    rwa [exchangeOnly_of_exch exch, transferOp_of_fits fits] at meaning
  | xput sw =>
    have meaning : exec (.xput sw d x y) s = .next _ := seqIssue_next h _
    rwa [exchangeOnly_of_exch exch, transferOp_of_fits fits] at meaning

theorem exec_xputd {sw : Bool} {d x y : BitVec 5} {n : Nat} {pd px : Place} {ws : List Word} (h : SeqIssues s false q)
    (exch : q.exch = true) (fits : TransferFits q .glob .loc d x y 2 0 1 0 n pd px)
    (read : exchangeWords q px (n / 4) = some ws) : exec (.xputd sw d x y) s = .next (seqDone q (exchangeWrite q
      (((upto (n / 4)).filter fun k => dirtyInView q (physOf px + 4 * k)).filterMap fun k => (wordRun pd ws)[k]?) s)) := by
  have meaning : exec (.xputd sw d x y) s = .next _ := seqIssue_next h _
  rw [exchangeOnly_of_exch exch, transferOp_of_fits fits] at meaning
  simpa only [read, state_of_seqIssues h] using meaning

/-- The contributions of an XRED (11 R247). -/
def foldsOf (q : Seq) (ab : DWord) (op : Nat) (pd : Place) (ws : List Word) : List XFold :=
  (upto ws.length).map fun k =>
    { addr := physOf pd + 4 * k, op := op, v := ws.getD k 0#32, a := loWord ab, b := hiWord ab, tag := q.tag, team := q.p.team }

theorem exec_xred {sw : Bool} {d x y : BitVec 5} {op n : Nat} {pd px : Place} {ws : List Word} (h : SeqIssues s false q)
    (exch : q.exch = true) (fits : TransferFits q .glob .loc d x y 4 0 12 op n pd px)
    (read : exchangeWords q px (n / 4) = some ws) : exec (.xred sw d x y) s = .next (seqDone q
      (noteWriter (onExchange s q.l.part fun e => { e with folds := e.folds ++ foldsOf q (ereg q (y.toNat + 1)) op pd ws })
        q.l.part (once ((foldsOf q (ereg q (y.toNat + 1)) op pd ws).map fun f => f.addr / Config.pageBytes))
        (dieOf q.core))) := by
  have meaning : exec (.xred sw d x y) s = .next _ := seqIssue_next h _
  rw [exchangeOnly_of_exch exch, transferOp_of_fits fits] at meaning
  simp only [read, state_of_seqIssues h] at meaning
  exact meaning

/-! ### Gathers, scatters, broadcasts and ghosts (11 R248, R249) -/

theorem exec_xgth {sw : Bool} {d x y : BitVec 5} {size n pl : Nat} {gs : List Nat} {ws : List (List Word)}
    (h : SeqIssues s false q) (exch : q.exch = true)
    (refs : elementRefs q (ereg q d.toNat) (ereg q x.toNat) y.toNat 3 = .ok (size, n, pl, gs))
    (read : gs.map (fun g => exchangeWords q (.glob g) (size / 4)) = ws.map some) : exec (.xgth sw d x y) s = .next (seqDone q
      (exchangeWrite q (wordRun (.loc pl) ws.flatten) (gs.foldl (fun s g => noteReads q (.glob g) size s) s))) := by
  have meaning : exec (.xgth sw d x y) s = .next _ := seqIssue_next h _
  have words : (ws.map some).flatMap (fun v => v.getD []) = ws.flatten := by
    rw [List.flatMap_map]
    exact List.flatMap_id'
  have found : (ws.map some).all Option.isSome = true := by simp
  rw [exchangeOnly_of_exch exch] at meaning
  simpa only [refs, read, words, found, if_true, state_of_seqIssues h] using meaning

theorem exec_xsct {sw : Bool} {d x y : BitVec 5} {size n pl : Nat} {gs : List Nat} {ws : List Word}
    (h : SeqIssues s false q) (exch : q.exch = true)
    (refs : elementRefs q (ereg q x.toNat) (ereg q d.toNat) y.toNat 2 = .ok (size, n, pl, gs))
    (read : exchangeWords q (.loc pl) (n * size / 4) = some ws) : exec (.xsct sw d x y) s = .next (seqDone q
      (exchangeWrite q (lastWrites ((upto n).flatMap fun k =>
        wordRun (.glob (gs.getD k 0)) ((ws.drop (k * (size / 4))).take (size / 4)))) s)) := by
  have meaning : exec (.xsct sw d x y) s = .next _ := seqIssue_next h _
  rw [exchangeOnly_of_exch exch] at meaning
  simpa only [refs, read, state_of_seqIssues h] using meaning

theorem exec_xbc {sw : Bool} {d x y : BitVec 5} {mask n : Nat} {g : Place} {ps : List Nat} {ws : List Word}
    (h : SeqIssues s false q) (exch : q.exch = true) (control : controlWord (ereg q y.toNat) = some (mask, n))
    (named : mask ≠ 0) (cluster : eNum q d < 2 ^ 32) (formD : refForm .loc (ereg q d.toNat) = true)
    (formX : refForm .glob (ereg q x.toNat) = true) (nonzero : n ≠ 0) (limit : lenFits n = true)
    (src : placeOf q .glob (ereg q x.toNat) n 3 = some g)
    (dst : ((upto 16).filter (fun c => mask / 2 ^ c % 2 = 1)).map (fun c => locate q c (refAddr (ereg q d.toNat)) n) =
      ps.map some)
    (read : exchangeWords q g (n / 4) = some ws) : exec (.xbc sw d x y) s = .next (seqDone q
      (exchangeWrite q (ps.flatMap fun p => wordRun (.loc p) ws) (noteReads q g n s))) := by
  have meaning : exec (.xbc sw d x y) s = .next _ := seqIssue_next h _
  have right : (decide (mask = 0) || decide ((ereg q d.toNat).toNat ≥ 2 ^ 32) || !refForm .loc (ereg q d.toNat) ||
      !refForm .glob (ereg q x.toNat)) = false := by
    have small : decide ((ereg q d.toNat).toNat ≥ 2 ^ 32) = false := decide_eq_false (Nat.not_le.mpr cluster)
    rw [decide_eq_false named, small, formD, formX]
    rfl
  have found : (ps.map some).all Option.isSome = true := by simp
  have places : (ps.map some).filterMap (fun p => p) = ps := by simp [List.filterMap_map]
  rw [exchangeOnly_of_exch exch] at meaning
  simpa only [control, right, Bool.false_eq_true, if_false, nonzero, src, dst, found, places, Bool.not_true, limit, read,
    state_of_seqIssues h] using meaning

/-- The ghosts of an XLAT (11 R249). -/
def ghostsOf (s : State) (q : Seq) (ld ls slot node n : Nat) : List XGhost :=
  (upto n).map fun k =>
    { lat := ld, slot := slot + k, state := tgetD (tgetD s.lattices ls {}).state (node + k) false, tag := q.tag }

theorem exec_xlat {sw : Bool} {d x y : BitVec 5} {n ld ls : Nat} (h : SeqIssues s false q) (exch : q.exch = true)
    (control : controlWord (ereg q y.toNat) = some (0, n)) (formD : nodeForm (eNum q d) = true)
    (formX : nodeForm (eNum q x) = true) (nonzero : n ≠ 0) (nodes : eNum q x % 2 ^ 13 + n ≤ Config.nodes)
    (slots : eNum q d % 2 ^ 13 + n ≤ 256) (dst : nodeRef q (eNum q d) = some ld) (src : nodeRef q (eNum q x) = some ls) :
    exec (.xlat sw d x y) s = .next (seqDone q (onExchange s q.l.part fun e =>
      { e with ghosts := e.ghosts ++ ghostsOf s q ld ls (eNum q d % 2 ^ 13) (eNum q x % 2 ^ 13) n })) := by
  have meaning : exec (.xlat sw d x y) s = .next _ := seqIssue_next h _
  have regs (k : BitVec 5) : (ereg q k.toNat).toNat = eNum q k := rfl
  have limits : (decide (eNum q x % 2 ^ 13 + n > Config.nodes) || decide (eNum q d % 2 ^ 13 + n > 256)) = false := by
    rw [decide_eq_false (Nat.not_lt.mpr nodes), decide_eq_false (Nat.not_lt.mpr slots)]
    rfl
  rw [exchangeOnly_of_exch exch] at meaning
  simp only [regs, control, formD, formX, bne_self_eq_false, Bool.not_true, Bool.or_false, Bool.false_eq_true, if_false,
    nonzero, limits, dst, src, state_of_seqIssues h] at meaning
  exact meaning

/-! ### The transposing copy (11 R246) -/

/-- The elements that a transposing copy reads, each located by itself, and the bytes that it writes. -/
def transposeSources (q : Seq) (sh : Shape) : List Nat :=
  (transposed sh).filterMap fun a => if a < 0 then none else locate q q.t.logicalCluster a.toNat (elemSize sh.type)

def transposeLength (sh : Shape) : Nat := sh.dims.getD 1 1 * sh.dims.getD 0 1 * elemSize sh.type

/-- The operands of an XCPT are right: its handle names a record of two dimensions in local memory, and source and
destination lie in memory that the program may touch (11 R244, R246). -/
structure TransposeFits (q : Seq) (d x : BitVec 5) (sh : Shape) (pd : Nat) : Prop where
  form : refForm .loc (ereg q d.toNat) = true
  handle : (ereg q x.toNat).toNat < 2 ^ 32
  shape : engineShape q (ereg q x.toNat).toNat = some sh
  space : sh.space = 0
  flat : (sh.dims.drop 2).all (fun k => k == 1) = true
  small : elemSize sh.type ≤ 2
  whole : sh.type ≠ 8
  dst : locate q (refCluster (ereg q d.toNat)) (refAddr (ereg q d.toNat)) (transposeLength sh) = some pd
  src : (transposeSources q sh).length = (transposed sh).length
  limit : lenFits (transposeLength sh) = true

theorem exec_xcpt {sw : Bool} {d x : BitVec 5} {sh : Shape} {pd : Nat} (h : SeqIssues s false q)
    (fits : TransposeFits q d x sh pd) : exec (.xcpt sw d x) s = .next (
      if q.exch then seqDone q (exchangeWrite q (wordRun (.loc pd) (bytesWords (transposeLength sh)
        ((transposeSources q sh).flatMap fun a => exchangeBytes q a (elemSize sh.type)))) s)
      else if (reservedIn s pd (transposeLength sh)).isSome ||
        (transposeSources q sh).any (fun a => (reservedIn s a (elemSize sh.type)).isSome) then seqFail q 4
      else engineChunk q (slotInput ((ereg q x.toNat).toNat / 2 ^ 20) ::
          (transposed sh).flatMap fun a => lineInputs a.toNat (elemSize sh.type))
        (lineInputs (refAddr (ereg q d.toNat)) (transposeLength sh))
        (fun c => chunkStore c pd ((transposeSources q sh).flatMap fun a => mbytes s.lmem a (elemSize sh.type))) none) := by
  have meaning : exec (.xcpt sw d x) s = .next _ := seqIssue_next h _
  obtain ⟨form, handle, shape, space, flat, small, whole, dst, src, limit⟩ := fits
  have handled : (!refForm .loc (ereg q d.toNat) || decide ((ereg q x.toNat).toNat ≥ 2 ^ 32)) = false := by
    simpa [form] using handle
  have typed : (sh.space != 0 || !(sh.dims.drop 2).all (fun k => k == 1) || decide (elemSize sh.type > 2) || sh.type == 8) =
      false := by simpa [space, flat, whole] using small
  rw [transposeLength] at dst limit
  rw [transposeSources] at src
  simp only [handled, typed, shape, dst, src, limit, bne_self_eq_false, Bool.false_eq_true, if_false, Bool.not_true,
    state_of_seqIssues h] at meaning
  exact meaning

end

/-- A read of n words returns n. -/
theorem length_of_exchangeWords {q : Seq} {p : Place} {n : Nat} {ws : List Word} (read : exchangeWords q p n = some ws) :
    ws.length = n := by
  suffices each : ∀ (ks : List Nat) (ws : List Word), ks.foldr (fun k acc =>
      match acc, exchangeWord q (placeAdd p (4 * k)) with
      | some ws, some w => some (w :: ws)
      | _, _ => none) (some []) = some ws → ws.length = ks.length by
    simpa [upto] using each (upto n) ws read
  intro ks
  induction ks with
  | nil =>
    intro ws done
    cases done
    rfl
  | cons k ks ih =>
    intro ws done
    rw [List.foldr_cons] at done
    split at done
    case h_1 rest w earlier _ =>
      cases done
      rw [List.length_cons, List.length_cons, ih rest earlier]
    case h_2 => cases done

theorem getElem?_wordRun {p : Place} {ws : List Word} {k : Nat} (inside : k < ws.length) :
    (wordRun p ws)[k]? = some (placeAdd p (4 * k), ws.getD k 0#32) := by
  simp [wordRun, upto, inside]

/-- The words of a run that stand at given numbers. -/
theorem filterMap_wordRun {p : Place} {ws : List Word} {ks : List Nat} (inside : ∀ k ∈ ks, k < ws.length) :
    (ks.filterMap fun k => (wordRun p ws)[k]?) = ks.map fun k => (placeAdd p (4 * k), ws.getD k 0#32) := by
  rw [← List.filterMap_eq_map]
  exact List.filterMap_congr fun k hk => getElem?_wordRun (inside k hk)

end Sys2Proof.Machine

namespace Sys2Proof

open Sys2Proof.Machine

/-- Settles O43: each transfer enters its words, contributions or ghosts in the exchange and goes on. -/
theorem exchangeTransfersEnterTheExchange : Obligations.ExchangeTransfersEnterTheExchange := by
  unfold Obligations.ExchangeTransfersEnterTheExchange
  refine ⟨fun ins d x y kd kx nd nx op s q n pd px ws issues exch stands fits read => ?copy,
    fun sw d x y s q n pd px ws issues exch stands fits read => ?dirty,
    fun sw d x s q sh pd issues exch stands => ?transpose,
    fun sw d x y s q op n pd px ws issues exch stands fits read => ?reduce,
    fun sw d x y s q size n pl gs ws issues exch stands refs read => ?gather,
    fun sw d x y s q size n pl gs ws issues exch stands refs read => ?scatter,
    fun sw d x y s q mask n g ps ws issues exch stands control named cluster formD formX nonzero limit src dst read =>
      ?broadcast,
    fun sw d x y s q n ld ls issues exch stands control formD formX nonzero nodes slots dst src => ?ghosts⟩
  case copy =>
    have meaning := exec_copyOp op issues exch fits
    simp only [exchangeCopy, read, state_of_seqIssues issues] at meaning
    exact exchangeGains_of_write issues stands (noteReads_noted q px n s) meaning
  case dirty =>
    have inside : ∀ k ∈ (upto (n / 4)).filter (fun k => dirtyInView q (physOf px + 4 * k)), k < ws.length := fun k mem => by
      rw [length_of_exchangeWords read]
      exact List.mem_range.mp (List.mem_filter.mp mem).1
    rw [← filterMap_wordRun inside]
    exact exchangeGains_of_write issues stands (.refl q s) (exec_xputd issues exch fits read)
  case transpose =>
    intro srcs n form handle shape space flat small whole dst src limit
    have meaning := exec_xcpt (sw := sw) issues ⟨form, handle, shape, space, flat, small, whole, dst, src, limit⟩
    rw [if_pos exch] at meaning
    exact exchangeGains_of_write issues stands (.refl q s) meaning
  case reduce =>
    refine seqCompletes_mono (seqCompletes_of_noted issues stands (noteWriter_noted q _ _ _) (exec_xred issues exch fits read))
      fun t ⟨only, exchange⟩ => ?_
    obtain ⟨writes, -, folds, -⟩ := books_of_withoutNotes exchange
    exact ⟨only, writes, folds⟩
  case gather =>
    have noted : Noted q s (gs.foldl (fun s g => noteReads q (.glob g) size s) s) :=
      gs.foldlRecOn (motive := Noted q s) _ (.refl q s) fun _ known g _ => known.trans (noteReads_noted q (.glob g) size _)
    exact exchangeGains_of_write issues stands noted (exec_xgth issues exch refs read)
  case scatter => exact exchangeGains_of_write issues stands (.refl q s) (exec_xsct issues exch refs read)
  case broadcast =>
    exact exchangeGains_of_write issues stands (noteReads_noted q g n s)
      (exec_xbc issues exch control named cluster formD formX nonzero limit src dst read)
  case ghosts =>
    refine seqCompletes_mono (seqCompletes_of_onExchange issues stands
      (exec_xlat issues exch control formD formX nonzero nodes slots dst src)) fun t ⟨only, exchange⟩ => ?_
    rw [exchange]
    exact ⟨only, rfl, rfl, rfl⟩

end Sys2Proof
end

section
/-! SUPPORT. Operations that wait for their commit, fabric writes, fences, signals and waits of a copy program (10 R219,
11 R245, R246, R250, R252, R253). -/

namespace Sys2Proof.Machine

open Sys2Proof

/-! ### The chunk of an operation (10 R219) -/

/-- What a chunk holds besides its signatures. -/
def chunkContents (c : Chunk) : ChunkKind × List Host.Cell × List TagStore × List Eff := (c.kind, c.stores, c.tags, c.effs)

/-- An access that enters a chunk's signatures, or finds no room, leaves what it holds. -/
theorem contents_enterAccess (c : Chunk) (reads writes : List Nat) :
    chunkContents ((enterAccess c reads writes).getD c) = chunkContents c := by
  unfold enterAccess
  dsimp only
  split
  · rfl
  · split <;> rfl

section

variable {ins : Instr} {s : State} {lat : Bool} {q : Seq}

/-- An operation that stores bytes waits in an engine chunk that holds them. -/
theorem chunkWaits_of_store (h : SeqIssues s lat q) {reads writes : List Nat} {p : Nat} {bs : List Byte}
    (meaning : exec ins s = .next (engineChunk q reads writes (fun c => chunkStore c p bs) none)) :
    ChunkWaits ins s q (storedCells p bs) (dirtyTags p bs.length) [] := by
  simp only [engineChunk, state_of_seqIssues h] at meaning
  set fresh : Chunk := { uid := s.nextId, kind := .engine, endCycle := s.cycle }
  have contents := contents_enterAccess fresh reads writes
  simp only [chunkContents, Prod.mk.injEq] at contents
  obtain ⟨kind, stores, tags, effs⟩ := contents
  refine ⟨_, _, seqCompletes_of_setProg (t := { s with nextId := s.nextId + 1 }) h rfl meaning rfl, kind, ?_, ?_, effs, rfl⟩
  · rw [chunkStore, stores]
    exact List.append_nil _
  · rw [chunkStore, tags]
    exact List.append_nil _

/-- XCP in a compute phase, with no reservation in the way (08 R170). -/
theorem exec_xcp_compute {sw : Bool} {d x y : BitVec 5} {n a b : Nat} (h : SeqIssues s false q) (compute : q.exch = false)
    (fits : TransferFits q .loc .loc d x y 0 0 1 0 n (.loc a) (.loc b)) (freeD : reservedIn s a n = none)
    (freeX : reservedIn s b n = none) : exec (.xcp sw d x y) s = .next (engineChunk q
      (lineInputs (refAddr (ereg q x.toNat)) n) (lineInputs (refAddr (ereg q d.toNat)) n)
      (fun c => chunkStore c a (mbytes s.lmem b n)) none) := by
  have meaning : exec (.xcp sw d x y) s = .next _ := seqIssue_next h _
  rw [transferOp_of_fits fits] at meaning
  simpa only [compute, Bool.false_eq_true, if_false, physOf, state_of_seqIssues h, freeD, freeX, Option.isSome_none,
    Bool.or_false] using meaning

/-! ### Fabric writes (11 R250) -/

/-- The fabric write of an XFAB. -/
def fabricWrite (s : State) (q : Seq) (dst : Nat) (ws : List Word) : FabWrite :=
  { device := s.dev.number, tag := q.tag, part := q.l.part, window := dst / 2 ^ 48 % 16, offset := dst % 2 ^ 48, data := ws,
    sent := (tget s.parts q.l.part).bind fun p => if p.spanTag = 0 then none else some p.boundary }

theorem exec_xfab {sw : Bool} {d x y : BitVec 5} {n : Nat} {px : Place} {ws : List Word} (h : SeqIssues s false q)
    (exch : q.exch = true) (control : controlWord (ereg q y.toNat) = some (0, n)) (window : eNum q d < 2 ^ 62)
    (aligned : eNum q d % 4 = 0) (form : refForm .loc (ereg q x.toNat) = true) (nonzero : n ≠ 0) (limit : lenFits n = true)
    (src : placeOf q .loc (ereg q x.toNat) n 0 = some px) (live : livePorts q ≠ [])
    (read : exchangeWords q px (n / 4) = some ws) : exec (.xfab sw d x y) s = .next (
      if (livePorts q).any (fun k => s.dev.portStop.contains k) then s
      else setProg { s with fabricOut := s.fabricOut ++ [(eNum q d / 2 ^ 52, fabricWrite s q (eNum q d) ws)] } q.core q.unit
        { q.p with fabWait := true }) := by
  have meaning : exec (.xfab sw d x y) s = .next _ := seqIssue_next h _
  have reg : (ereg q d.toNat).toNat = eNum q d := rfl
  have right : ((0 : Nat) != 0 || decide (eNum q d ≥ 2 ^ 62) || eNum q d % 4 != 0 || !refForm .loc (ereg q x.toNat)) =
      false := by
    rw [decide_eq_false (Nat.not_le.mpr window), aligned, form]
    rfl
  rw [exchangeOnly_of_exch exch] at meaning
  simp only [reg, control, right, Bool.false_eq_true, if_false, nonzero, src, limit, Bool.not_true, read, Option.getD_some,
    List.isEmpty_eq_false_iff.mpr live, state_of_seqIssues h] at meaning
  exact meaning

/-! ### Fences, signals and waits (11 R252, R253) -/

/-- The join of a fence. -/
def fenced (q : Seq) (other : Nat) (e : Exch) : Exch :=
  joinQueue e q.key other (tgetD e.seqs other 0) (tgetD e.joins other [])

theorem exec_xfen {sw : Bool} {x : BitVec 5} {core : Nat} (h : SeqIssues s false q) (form : eNum q x < 2 ^ 12)
    (named : (clusterNamed q (eNum q x / 2 ^ 8)).bind (fun c => physicalCore s c (eNum q x / 2 ^ 2 % 64)) = some core) :
    exec (.xfen sw x) s = .next (
      if core * 8 + eNum q x % 4 ≠ q.key ∧
        ((engineAt s core (eNum q x % 4)).run ≠ none ∨ (engineAt s core (eNum q x % 4)).list ≠ []) then s
      else if q.exch then seqDone q (onExchange s q.l.part (fenced q (core * 8 + eNum q x % 4)))
      else seqDone q s) := by
  have meaning : exec (.xfen sw x) s = .next _ := seqIssue_next h _
  have reg : (ereg q x.toNat).toNat = eNum q x := rfl
  have busy (other : Nat) (e : Engine) : (other != q.key && (e.run.isSome || !e.list.isEmpty)) = true ↔
      other ≠ q.key ∧ (e.run ≠ none ∨ e.list ≠ []) := by simp [Option.isSome_iff_ne_none]
  rw [state_of_seqIssues h] at meaning
  simp only [reg, decide_eq_false (Nat.not_le.mpr form), Bool.false_eq_true, if_false, named, ge_iff_le] at meaning
  refine meaning.trans (congrArg _ ?_)
  exact if_congr (busy _ _) rfl rfl

/-- The clusters with one more count at counter k of cluster c. -/
def counted (s : State) (c k : Nat) : State :=
  setCluster s c { clusterAt s c with
    counters := tput (clusterAt s c).counters k (tgetD (clusterAt s c).counters k 0#32 + 1#32) }

theorem counters_counted (s : State) (c k j m : Nat) : tgetD (clusterAt (counted s c k) j).counters m 0#32 =
    if j = c ∧ m = k then tgetD (clusterAt s c).counters k 0#32 + 1#32 else tgetD (clusterAt s j).counters m 0#32 := by
  by_cases cluster : j = c
  · subst cluster
    simp only [counted, clusterAt_setCluster_self, tgetD_tput, true_and]
  · rw [counted, clusterAt_setCluster_ne _ _ _ _ cluster, if_neg fun both => cluster both.1]

/-- State t holds the counters, memories, groups, teams, lattices and engines of state s. -/
structure CountsKept (s t : State) : Prop where
  counters : ∀ j, (clusterAt t j).counters = (clusterAt s j).counters
  engines : t.engines = s.engines
  rest : t.gmem = s.gmem ∧ t.lmem = s.lmem ∧ t.groups = s.groups ∧ t.teams = s.teams ∧ t.lattices = s.lattices

theorem postEvent_countsKept (s : State) (c type source : Nat) (payload : BitVec 128) :
    CountsKept s (postEvent s c type source payload) := by
  have port := postEvent_port s c type source payload
  obtain ⟨lmem, -, -, -, gmem⟩ := port.memory
  obtain ⟨-, -, teams, groups, clusters, engines, lattices, -⟩ := port.tables
  refine ⟨fun j => ?_, engines, gmem, lmem, groups, teams, lattices⟩
  by_cases cluster : j = c
  · rw [cluster, clusterAt_postEvent]
  · rw [clusterAt, clusters]
    exact congrArg Cluster.counters (clusterAt_setCluster_ne s c j _ cluster)

/-- XSIG counts; in an exchange it is recorded, and a posting signal posts a record. -/
theorem exec_xsig {sw : Bool} {x y : BitVec 5} {c k : Nat} {post : Bool} (h : SeqIssues s false q)
    (named : counterRef q (eNum q x) = .ok (c, k, post)) :
    ∃ u, CountsKept (counted s c k) u ∧ exec (.xsig sw x y) s = .next (setProg u q.core q.unit (onward q.p)) := by
  have meaning : exec (.xsig sw x y) s = .next _ := seqIssue_next h _
  have reg : (ereg q x.toNat).toNat = eNum q x := rfl
  simp only [reg, named, state_of_seqIssues h] at meaning
  refine ⟨_, ?_, meaning⟩
  cases q.exch <;> cases post
  · exact ⟨fun _ => rfl, rfl, rfl, rfl, rfl, rfl, rfl⟩
  · exact postEvent_countsKept _ _ _ _ _
  · exact ⟨fun _ => rfl, rfl, rfl, rfl, rfl, rfl, rfl⟩
  · obtain ⟨counters, engines, rest⟩ := postEvent_countsKept _ _ _ _ _
    exact ⟨counters, engines, rest⟩

/-- The joins of a wait: those of every signal that its counter held. -/
def awaited (q : Seq) (c k : Nat) (e : Exch) : Exch :=
  (e.sigs.filter fun g => g.1 == c * 64 + k).foldl (fun e g => joinQueue e q.key g.2.1 g.2.2.1 g.2.2.2) e

theorem exec_xwte {sw : Bool} {x y : BitVec 5} {c k : Nat} (h : SeqIssues s false q)
    (named : counterRef q (eNum q x) = .ok (c, k, false)) : exec (.xwte sw x y) s = .next (
      if eNum q y % 2 ^ 32 ≤ (tgetD (clusterAt s c).counters k 0#32).toNat then
        if q.exch then seqDone q (onExchange s q.l.part (awaited q c k)) else seqDone q s
      else s) := by
  have meaning : exec (.xwte sw x y) s = .next _ := seqIssue_next h _
  have reg : (ereg q x.toNat).toNat = eNum q x := rfl
  have threshold : (loWord (ereg q y.toNat)).toNat = eNum q y % 2 ^ 32 := BitVec.toNat_setWidth 32 (ereg q y.toNat)
  simp only [reg, named, threshold, Bool.false_eq_true, if_false, state_of_seqIssues h] at meaning
  rw [meaning]
  by_cases reached : eNum q y % 2 ^ 32 ≤ (tgetD (clusterAt s c).counters k 0#32).toNat
  · rw [if_pos reached, if_neg (Nat.not_lt.mpr reached)]
    rfl
  · rw [if_neg reached, if_pos (Nat.lt_of_not_le reached)]

end

end Sys2Proof.Machine

namespace Sys2Proof

open Sys2Proof.Machine

/-- Settles O44: a copy in a compute phase leaves its engine chunk, XFAB and XWTE stand or go on, and XFEN and XSIG
change what their lemmas say. -/
theorem sequencerChunksSignalsAndFabric : Obligations.SequencerChunksSignalsAndFabric := by
  unfold Obligations.SequencerChunksSignalsAndFabric
  refine ⟨fun sw d x y s q n a b issues compute fits freeD freeX => ?copy, fun sw d x s q sh pd issues compute => ?transpose,
    fun sw d x y s q n px ws issues exch control window aligned form nonzero limit src live read => ?fabric,
    fun sw x s q core issues form named => ?fence, fun sw x y s q c k post issues named => ?signal,
    fun sw x y s q c k issues named => ?wait⟩
  case copy =>
    have waits := chunkWaits_of_store issues (exec_xcp_compute (sw := sw) issues compute fits freeD freeX)
    rwa [length_mbytes] at waits
  case transpose =>
    intro srcs n bs form handle shape space flat small whole dst src limit freeD freeX
    have meaning := exec_xcpt (sw := sw) issues ⟨form, handle, shape, space, flat, small, whole, dst, src, limit⟩
    have free : ((reservedIn s pd (transposeLength sh)).isSome ||
        (transposeSources q sh).any fun a => (reservedIn s a (elemSize sh.type)).isSome) = false := by
      have freeDst : reservedIn s pd (transposeLength sh) = none := freeD
      have freeSrc : ∀ a ∈ transposeSources q sh, reservedIn s a (elemSize sh.type) = none := freeX
      rw [freeDst, Option.isSome_none, Bool.false_or, List.any_eq_false]
      exact fun a mem => by simp [freeSrc a mem]
    rw [compute, free] at meaning
    exact chunkWaits_of_store issues meaning
  case fabric =>
    have meaning := exec_xfab (sw := sw) issues exch control window aligned form nonzero limit src live read
    refine ⟨fun ⟨k, port, up⟩ => ?_, fun clear => ?_⟩
    · rw [meaning, if_pos (List.any_eq_true.mpr ⟨k, port, List.contains_iff_mem.mpr up⟩)]
    · rw [if_neg fun any => ?_] at meaning
      · exact seqCompletes_of_setProg (t := { s with
          fabricOut := s.fabricOut ++ [(eNum q d / 2 ^ 52, fabricWrite s q (eNum q d) ws)] }) issues rfl meaning ⟨rfl, rfl⟩
      · obtain ⟨k, port, up⟩ := List.any_eq_true.mp any
        exact clear k port (List.contains_iff_mem.mp up)
  case fence =>
    have meaning := exec_xfen (sw := sw) issues form named
    refine ⟨fun busy => meaning.trans (by rw [if_pos busy]), fun idle => ?_⟩
    rw [if_neg (by tauto)] at meaning
    refine ⟨fun compute => ?_, fun exch stands => ?_⟩
    · rw [if_neg (by simp [compute])] at meaning
      exact seqCompletes_of_program issues meaning
    · rw [if_pos exch] at meaning
      exact seqCompletes_of_onExchange issues stands meaning
  case signal =>
    obtain ⟨u, kept, meaning⟩ := exec_xsig (sw := sw) (y := y) issues named
    refine seqCompletes_of_setProg issues kept.engines meaning ⟨fun j m => ?_, kept.rest⟩
    rw [← counters_counted]
    exact congrArg (tgetD · m 0#32) (kept.counters j)
  case wait =>
    have meaning := exec_xwte (sw := sw) (y := y) issues named
    intro reached
    refine ⟨fun early => meaning.trans (by rw [if_neg (of_decide_eq_false early)]), fun late => ?_⟩
    rw [if_pos (of_decide_eq_true late)] at meaning
    refine ⟨fun compute => ?_, fun exch stands => ?_⟩
    · rw [if_neg (by simp [compute])] at meaning
      exact seqCompletes_of_program issues meaning
    · rw [if_pos exch] at meaning
      exact seqCompletes_of_onExchange issues stands meaning

end Sys2Proof
end

section
/-! SUPPORT. Engine control by groups: forks and joins, which end the parts of their lanes, engine registers, and handles
of shape records (11 R239-R241, R257-R260). -/

namespace Sys2Proof.Machine

open Sys2Proof

/-! ### The joins of a group (11 R239) -/

theorem takeTrap_joining (g : Group) (ls : List Nat) (traps : Table (Nat × Word)) (pc after : Word) (nd : Bool)
    (cs : Table Nat) (win : Option Nat) : (takeTrap g ls traps pc after nd cs win).regs.joining = g.regs.joining := by
  unfold takeTrap
  split <;> rfl

theorem freeSlot_joining (c : GroupCore) : (freeSlot c).joining = c.joining := by
  unfold freeSlot
  split <;> rfl

theorem releaseMasks_joining (q : Nat) (g : Group) : (releaseMasks q g).regs.joining = g.regs.joining :=
  (upto 12).foldlRecOn (motive := fun b => b.regs.joining = g.regs.joining) (fun b m => releaseMask q b m) rfl
    fun b same m _ => by
      rw [← same]
      unfold releaseMask
      dsimp only
      split <;> rfl

theorem placedGroup_joining (i : In) (w : Work) (causes : Table Nat) (win : Option Nat) :
    (placedGroup i w causes win).regs.joining = w.g.regs.joining := by
  rw [placedGroup_eq, releaseMasks_joining]
  exact (freeSlot_joining _).trans (takeTrap_joining ..)

theorem endChunk_joining (cycle : Nat) (g : Group) : (endChunk cycle g).regs.joining = g.regs.joining := by
  unfold endChunk
  split
  · rfl
  · split <;> rfl

theorem closedGroup_joining (i : In) (doomed : Bool) (g : Group) :
    (closedGroup i doomed g).regs.joining = g.regs.joining := by
  have parts : (if endsWithWord g then endParts g else g).regs.joining = g.regs.joining := by split <;> rfl
  unfold closedGroup
  generalize (if endsWithWord g then endParts g else g) = b at parts ⊢
  obtain ⟨ls, switched⟩ := endSwitch_lanes b.regs
  rw [endChunk_joining, ← parts, switched]
  cases doomed <;> rfl

/-- The end of a word leaves the joins that its meaning has made. -/
theorem finish_joining {i : In} {w : Work} (plain : Plain i w) {g : Group} (ends : tget (finish i w).groups i.gid = some g) :
    g.regs.joining = w.g.regs.joining := by
  obtain ⟨doomed, causes, win, closed⟩ := finish_closedGroup plain
  obtain rfl := Option.some.inj (ends.symm.trans closed)
  rw [closedGroup_joining, placedGroup_joining]

/-! ### Words that end the parts of their lanes -/

section

variable {ins : Instr} {s : State} {form : Form} {i : In} {r : GroupCore} {es : List Eff} {w : Work}

/-- What a word leaves in its group that makes the registers r, adds effects, and ends the part of every lane of its
ready set. -/
structure PartsEnd (i : In) (r : GroupCore) (es : List Eff) (g : Group) : Prop where
  files : g.regs.v = r.v ∧ g.regs.s = r.s ∧ g.regs.p = r.p
  gain : ChunksGain i g [] [] es []
  unjoined : g.regs.unjoined = r.unjoined
  rest : besidesJoins g.regs = besidesJoins r
  joining : g.regs.joining = r.joining
  lanes : ∀ k ∈ i.lanes, standsAt g k (i.pc + 4#32) .ready ∧ PartOver g k

theorem LeavesWork.gain (work : LeavesWork i r es w) {g : Group} (q : Quiet w.g g) : ChunksGain i g [] [] es [] := by
  obtain ⟨c, c1, hc, stores, tags, effs, rfl⟩ := work
  refine ⟨?_, ?_, ?_, ?_⟩
  · rw [q.stores]
    simp [ownStores, ownChunks, hc, stores]
  · rw [q.tags]
    simp [ownTags, ownChunks, hc, tags]
  · rw [q.effs]
    simp [ownEffs, ownChunks, hc, effs]
  · simp [q.flights]

theorem LeavesWork.partsEnd_completes (work : LeavesWork i r es w) (h : GroupIssues s form i) (ready : setReady i)
    (lanes : r.lanes = i.g.regs.lanes) (meaning : exec ins s = .next (finish i (setFates w i.lanes .nextEnd))) :
    Completes ins s i (PartsEnd i r es) := by
  have plain := work.setFates_plain i.lanes .nextEnd nofun
  have fates := work.setFates_fates i.lanes .nextEnd
  have untrapped : trapTable (setFates w i.lanes .nextEnd).fates = [] :=
    fates ▸ untrapped_of_fate (fun _ mem => (mem_oneFate.mp mem).2) nofun
  obtain ⟨g, hg, q, rest⟩ := finish_plain h plain
  obtain ⟨g', hg', stands⟩ := finish_standsAt plain
  obtain rfl : g = g' := Option.some.inj (hg.symm.trans hg')
  have regs : (setFates w i.lanes .nextEnd).g.regs = r := work.regs
  have lane (k : Nat) : laneAt r k = laneAt i.g.regs k := by rw [laneAt, lanes, laneAt]
  refine ⟨_, g, meaning, hg, ⟨⟨by rw [q.v, regs], by rw [q.s, regs], by rw [q.p, regs]⟩, work.gain q, by rw [q.unjoined, regs],
    ?_, by rw [finish_joining plain hg, regs], fun k hk => ⟨?_, ?_⟩⟩, rest⟩
  · have trap := q.trap
    simp only [Prod.mk.injEq] at trap
    simp only [besidesJoins, q.tiles, q.accs, q.masks, trap, regs]
  · refine stands k hk (by simp [untrapped]) _ _ ?_ ?_ rfl <;> rw [fates, tgetD_oneFate _ hk]
    · rfl
    · rw [regs, lane]
      exact ready k hk
  · refine finish_partOver plain untrapped hg hk ?_ ?_ <;> rw [placedAt, fates, tgetD_oneFate _ hk]
    · simp [lanePlaced, retire]
    · change atMask (laneAt (setFates w i.lanes .nextEnd).g.regs k).wait = false
      rw [regs, lane, ready k hk]
      rfl

/-! ### Forks and joins (11 R239) -/

/-- The registers once a fork on unit u has released its sources: a lattice program is unjoined. -/
def forked (i : In) (u : Nat) : GroupCore :=
  if u < 4 then released i i.act else { released i i.act with unjoined := once ((released i i.act).unjoined ++ [u]) }

/-- The work of a fork before its lanes have their fate. -/
def forkWork (i : In) (u off : Nat) : Work :=
  let w := addEffs (onRegs (issueWork i) (releaseSources i i.act)) [.fork u off]
  if u < 4 then w else onRegs w fun c => { c with unjoined := once (c.unjoined ++ [u]) }

theorem forkWork_leaves (h : GroupIssues s form i) (u off : Nat) :
    LeavesWork i (forked i u) [.fork u off] (forkWork i u off) := by
  have work := ((issueWork_leaves h).onRegs (releaseSources i i.act)).addEffs [.fork u off]
  unfold forked forkWork
  split
  · exact work
  · exact work.onRegs _

theorem forked_lanes (i : In) (u : Nat) : (forked i u).lanes = i.g.regs.lanes := by
  have rel := releaseSources_special i i.act i.g.regs
  unfold forked
  split <;> exact rel.lanes

theorem forked_files (i : In) (u : Nat) : (forked i u).v = (released i i.act).v ∧ (forked i u).s = (released i i.act).s ∧
    (forked i u).p = (released i i.act).p := by
  unfold forked
  split <;> exact ⟨rfl, rfl, rfl⟩

theorem mem_forked_unjoined (i : In) (u n : Nat) :
    n ∈ (forked i u).unjoined ↔ n ∈ i.g.regs.unjoined ∨ (4 ≤ u ∧ n = u) := by
  have rel : (released i i.act).unjoined = i.g.regs.unjoined := (releaseSources_special i i.act i.g.regs).unjoined
  unfold forked
  split
  case isTrue copy => rw [rel, or_iff_left fun lattice => Nat.not_le.mpr copy lattice.1]
  case isFalse lattice =>
    rw [mem_once, List.mem_append, List.mem_singleton, rel]
    exact or_congr Iff.rfl (and_iff_right (Nat.not_lt.mp lattice)).symm

theorem besidesJoins_of_special {c d : GroupCore} (h : SameSpecials c d) : besidesJoins d = besidesJoins c := by
  simp only [besidesJoins, h.tiles, h.accs, h.masks, h.trap]

theorem besidesJoins_forked (i : In) (u : Nat) : besidesJoins (forked i u) = besidesJoins i.g.regs := by
  have rel := besidesJoins_of_special (releaseSources_special i i.act i.g.regs)
  unfold forked
  split <;> exact rel

/-- A fork whose offset names a word of its section, of the lowest executing lane, ends the parts of its set. -/
theorem exec_fork {sw : Bool} {x : Src} {u : Nat} {words : In → List Word} (op : ForkOp ins sw x u words)
    (h : GroupIssues s { sw := sw, x := some x, low := true } i) (active : i.act ≠ [])
    (aligned : (xVal i (i.act.headD 0)).toNat % 4 = 0) (inside : (xVal i (i.act.headD 0)).toNat < 4 * (words i).length) :
    exec ins s = .next (finish i (setFates (forkWork i u (xVal i (i.act.headD 0)).toNat) i.lanes .nextEnd)) := by
  have body : exec ins s = .next (finish i (forkBody u words i (issueWork i))) := by
    cases op <;> exact groupOnly_next h _
  obtain ⟨l, rest, act⟩ := List.exists_cons_of_ne_nil active
  rw [body]
  simp only [act, List.headD_cons] at aligned inside
  have legal : ((xVal i l).toNat % 4 != 0 || decide (4 * (words i).length ≤ (xVal i l).toNat)) = false := by
    rw [decide_eq_false (Nat.not_le.mpr inside), aligned]
    rfl
  simp only [forkBody, act, List.headD_cons, legal, Bool.false_eq_true, if_false, forkWork]

/-- The forks on unit u that come before an RDV: those of the group and of its chunks in flight. -/
def forksBefore (i : In) (u : Nat) : Nat :=
  i.g.forks.countP (fun f => f.unit == u) + (i.g.inflight.map (forksOn u)).sum

/-- The registers once an RDV has joined unit u. -/
def rendezvous (i : In) (u : Nat) (c : GroupCore) : GroupCore :=
  { c with
    joining := c.joining ++ [(u, forksBefore i u)]
    unjoined := if total (i.g.cur.toList.map (forksOn u)) = 0 then c.unjoined.filter (fun k => k != u) else c.unjoined }

theorem total_eq_sum (l : List Nat) : total l = l.sum := List.sum_eq_foldl.symm

theorem exec_rdv {sw : Bool} {u : BitVec 3} (h : GroupIssues s { sw := sw } i) (active : i.act ≠ []) :
    exec (.rdv sw u) s = .next (finish i (setFates (onRegs (issueWork i) (rendezvous i u.toNat)) i.lanes .nextEnd)) := by
  have meaning : exec (.rdv sw u) s = .next _ := groupOnly_next h _
  rw [if_neg (by simpa using active)] at meaning
  simp only [total_eq_sum (i.g.inflight.map _), ← List.countP_eq_length_filter] at meaning
  exact meaning

/-- The open chunk holds no fork on a unit. -/
theorem no_forks_iff {c : Option Chunk} {u : Nat} : total (c.toList.map (forksOn u)) = 0 ↔
    ¬∃ d, c = some d ∧ ∃ off, Eff.fork u off ∈ d.effs := by
  cases c with
  | none => simp [total]
  | some d =>
    have none : forksOn u d = 0 ↔ ∀ off, Eff.fork u off ∉ d.effs := by
      rw [forksOn, List.length_eq_zero_iff, List.filter_eq_nil_iff]
      constructor
      · exact fun quiet off mem => quiet _ mem (by simp)
      · intro free e mem
        cases e with
        | fork v off =>
          simp only [beq_iff_eq]
          exact fun same => free off (same ▸ mem)
        | _ => simp
    simpa [total_eq_sum] using none

theorem mem_rendezvous_unjoined (i : In) (u n : Nat) : n ∈ (rendezvous i u i.g.regs).unjoined ↔
    n ∈ i.g.regs.unjoined ∧ (n ≠ u ∨ ∃ c, i.g.cur = some c ∧ ∃ off, Eff.fork u off ∈ c.effs) := by
  unfold rendezvous
  dsimp only
  split
  case isTrue none =>
    rw [List.mem_filter, bne_iff_ne, or_iff_left (no_forks_iff.mp none)]
  case isFalse some =>
    rw [and_iff_left (.inr (not_not.mp fun without => some (no_forks_iff.mpr without)))]

end

end Sys2Proof.Machine
end

section
/-! SUPPORT. Engine registers and handles of shape records (11 R240, R257-R260). -/

namespace Sys2Proof.Machine

open Sys2Proof

section

variable {ins : Instr} {s : State} {form : Form} {i : In} {r : GroupCore} {es : List Eff} {w : Work}

/-- A word that leaves vector results outstanding after its effects. -/
theorem LeavesWork.flyAll_completes (work : LeavesWork i r es w) (h : GroupIssues s form i) {ls : List Nat}
    (regs : r = released i ls) {vs : List (Nat × Word)} (meaning : exec ins s = .next (finish i (flyAll w 0 vs))) :
    Completes ins s i (fun g => VectorsPending i g ls (vs.map (·.1)) ∧
      ChunksGain i g [] [] es (resultsOf (released i ls).v 0 vs) ∧ SpecialsKept i g) := by
  subst regs
  have special := releaseSources_special i ls i.g.regs
  obtain ⟨c, c1, hc, stores, tags, effs, rfl⟩ := work
  obtain ⟨file, flights, ⟨fl, group⟩, n, others⟩ :=
    flyAll_vector vs { issueWork i with g := { i.g with regs := released i ls, cur := some c1 } }
  generalize flyAll { issueWork i with g := { i.g with regs := released i ls, cur := some c1 } } 0 vs = flown
    at meaning file flights group others
  have plain : Plain i flown := by
    rw [others]
    refine ⟨rfl, rfl, rfl, nofun, fun _ _ => rfl, rfl, ?_⟩
    rw [group]
    rfl
  obtain ⟨g, hg, q, rest⟩ := finish_plain h plain
  have held : flown.g.cur = some c1 ∧ flown.g.inflight = i.g.inflight := by
    rw [group]
    exact ⟨rfl, rfl⟩
  have kept : flown.g.regs = { released i ls with v := flown.g.regs.v } := congrArg Group.regs group
  refine ⟨_, g, meaning, hg, ⟨⟨q.v.trans file, ?_, ?_⟩, ⟨?_, ?_, ?_, ?_⟩, ?_, ?_, ?_, ?_, ?_⟩, rest⟩
  · rw [q.s, kept]
  · rw [q.p, kept]
  · rw [q.stores]
    simp [ownStores, ownChunks, held, hc, stores]
  · rw [q.tags]
    simp [ownTags, ownChunks, held, hc, tags]
  · rw [q.effs]
    simp [ownEffs, ownChunks, held, hc, effs]
  · rw [q.flights]
    exact flights
  · rw [q.tiles, kept]
    exact special.tiles
  · rw [q.accs, kept]
    exact special.accs
  · rw [q.masks, kept]
    exact special.masks
  · rw [q.unjoined, kept]
    exact special.unjoined
  · rw [q.trap, kept]
    simp only [released, special.trap]

/-- The registers of a word that only releases its sources. -/
theorem WordLeaves.released {g : Group} (h : WordLeaves i (released i i.act) es g) :
    ChunksGain i g [] [] es [] ∧ FilesKept i g i.act ∧ SpecialsKept i g :=
  ⟨h.gain, ⟨h.v, h.s, h.p⟩, h.specials (releaseSources_special i i.act i.g.regs) rfl⟩

theorem WordLeaves.vreg_eq {g : Group} (h : WordLeaves i r es g) (k n : Nat) : vreg g.regs k n = vreg r k n := by
  simp only [vreg, h.v]

/-! ### Engine registers (11 R240) -/

theorem erset_completes {sw : Bool} {n y : BitVec 5} {q : BitVec 2} {u : Use}
    (h : GroupIssues s { sw := sw, y := some (pairSrc y u), pairY := true, low := true } i) (active : i.act ≠ [])
    (room : signatureRoom i [] [engineInput i.t (coreIndex i.g i.t) q.toNat n.toNat]) :
    Completes (.erset sw n q y u) s i (WordLeaves i (released i i.act)
      [.erset q.toNat n.toNat (yVal2 i (i.act.headD 0) ++ yVal i (i.act.headD 0))]) := by
  have work := ((access_leaves room).onRegs (releaseSources i i.act)).addEffs
    [.erset q.toNat n.toNat (yVal2 i (i.act.headD 0) ++ yVal i (i.act.headD 0))]
  refine work.completes h ((groupOnly_next h _).trans ?_)
  obtain ⟨l, rest, act⟩ := List.exists_cons_of_ne_nil active
  simp only [act]
  rfl

theorem erget_completes {sw : Bool} {d n : BitVec 5} {q : BitVec 2} (h : GroupIssues s { sw := sw, v := [2 * d.toNat + 1] } i)
    (active : i.act ≠ []) (room : signatureRoom i [engineInput i.t (coreIndex i.g i.t) q.toNat n.toNat] []) :
    Completes (.erget sw d q n) s i (WordLeaves i (writePair (2 * d.toNat)
      (viewEreg i.g i.t (coreIndex i.g i.t) q.toNat n.toNat) i i.g.regs) []) := by
  refine ((access_leaves room).onRegs (writePair (2 * d.toNat) _ i)).completes h ((groupOnly_next h _).trans ?_)
  simp only [List.isEmpty_eq_false_iff.mpr active, Bool.false_eq_true, if_false]
  rfl

/-! ### Handles (11 R257-R260) -/

theorem checkLocal_of_accessAt {a : Word} {n align p : Nat} (passes : accessAt i (fun _ => a) n align 0 = some p) :
    checkLocal i.s i.t i.l a n align = .ok p := by
  unfold accessAt at passes
  split at passes
  case h_1 found => rw [found, Option.some.inj passes]
  case h_2 => cases passes

/-- The record of an HLOAD with the generation that its slot gets, when it loads. -/
def loadedShape (i : In) (k p : Nat) : Option (Shape × Nat) :=
  (parseShape (seenBytes i p 64)).bind fun sh => (hloadSlot i k).map fun n => (sh, n)

/-- The handle and the effect of an HLOAD. -/
def loadedHandle (k : Nat) (r : Option (Shape × Nat)) : Word :=
  match r with
  | some e => BitVec.ofNat 32 (k * 2 ^ 20 + e.2)
  | none => 0#32

def loadedEffs (k : Nat) (r : Option (Shape × Nat)) : List Eff :=
  match r with
  | some e => [.hload k e.2 e.1]
  | none => []

/-- The slots that an HLOAD reads, and those that it writes. -/
def slotReads (k : Nat) : List Nat := if k < 4096 then [slotInput k] else []

def slotWrites (k : Nat) (r : Option (Shape × Nat)) : List Nat := if r.isSome ∧ k < 4096 then [slotInput k] else []

/-- The work of an HLOAD before its result is outstanding. -/
def hloadWork (i : In) (a : Word) (k : Nat) (r : Option (Shape × Nat)) : Work :=
  addEffs (onRegs (access (issueWork i) (lineInputs a.toNat 64 ++ slotReads k) (slotWrites k r)) (releaseSources i i.act))
    (loadedEffs k r)

theorem hloadWork_leaves {a : Word} {k : Nat} {r : Option (Shape × Nat)}
    (room : signatureRoom i (lineInputs a.toNat 64 ++ slotReads k) (slotWrites k r)) :
    LeavesWork i (released i i.act) (loadedEffs k r) (hloadWork i a k r) :=
  ((access_leaves room).onRegs (releaseSources i i.act)).addEffs (loadedEffs k r)

theorem exec_hload {sw : Bool} {d : BitVec 6} {x y : Src} {p : Nat}
    (h : GroupIssues s { sw := sw, x := some x, y := some y, v := [d.toNat], low := true } i) (active : i.act ≠ [])
    (passes : accessAt i (fun _ => xVal i (i.act.headD 0)) 64 64 0 = some p) :
    let k := (yVal i (i.act.headD 0)).toNat
    exec (.hload sw d x y) s = .next (finish i (flyAll (hloadWork i (xVal i (i.act.headD 0)) k (loadedShape i k p)) 0
      (i.act.map fun l => (64 * l + d.toNat, loadedHandle k (loadedShape i k p))))) := by
  dsimp only
  have meaning : exec (.hload sw d x y) s = .next _ := groupOnly_next h _
  have checked := checkLocal_of_accessAt passes
  have shape (k : Nat) : (parseShape (lmemBytes i.s i.g p 64)).bind (fun sh => (hloadSlot i k).map fun g => (sh, g)) =
      loadedShape i k p := rfl
  have reads (k : Nat) : (if k < 4096 then [slotInput k] else []) = slotReads k := rfl
  have writes (k : Nat) (r : Option (Shape × Nat)) : (if r.isSome then slotReads k else []) = slotWrites k r := by
    unfold slotReads slotWrites
    split_ifs <;> simp_all
  obtain ⟨l, rest, act⟩ := List.exists_cons_of_ne_nil active
  have first : l = i.act.headD 0 := by rw [act, List.headD_cons]
  subst first
  rw [meaning, ← flyLanes_eq, hloadWork]
  conv_lhs => rw [act]
  simp only [checked, shape, reads, writes]
  rw [← act]
  cases loadedShape i (yVal i (i.act.headD 0)).toNat p with
  | none =>
    rw [loadedEffs, addEffs_nil]
    rfl
  | some e => rfl

theorem hdrop_completes {sw : Bool} {x : Src} {sh : Shape} (h : GroupIssues s { sw := sw, x := some x, low := true } i)
    (active : i.act ≠ []) (valid : handleShape i (xVal i (i.act.headD 0)) = some sh)
    (room : signatureRoom i [slotInput ((xVal i (i.act.headD 0)).toNat / 2 ^ 20)]
      [slotInput ((xVal i (i.act.headD 0)).toNat / 2 ^ 20)]) :
    Completes (.hdrop sw x) s i (WordLeaves i (released i i.act) [.hdrop ((xVal i (i.act.headD 0)).toNat / 2 ^ 20)]) := by
  refine (((access_leaves room).onRegs (releaseSources i i.act)).addEffs _).completes h ((groupOnly_next h _).trans ?_)
  obtain ⟨l, rest, act⟩ := List.exists_cons_of_ne_nil active
  simp only [act, List.headD_cons] at valid ⊢
  simp only [valid]

end

end Sys2Proof.Machine

namespace Sys2Proof

open Sys2Proof.Machine

/-- Settles O41: forks and joins end the parts of their set; the other words access the engine register or the slot, and
enter their effect or return their value. -/
theorem engineControlEntersTheChunk : Obligations.EngineControlEntersTheChunk := by
  unfold Obligations.EngineControlEntersTheChunk
  refine ⟨fun ins sw x u words op s i issues ready active => ?fork, fun sw u s i issues ready active => ?rdv,
    fun sw n q y u s i issues active room => ?erset, fun sw d q n s i issues active room => ?erget,
    fun sw d x y s i p issues active => ?hload, fun sw x s i sh issues active => ?hdrop, fun sw d u s i issues => ?estat⟩
  case fork =>
    intro off aligned inside
    refine completes_mono ((forkWork_leaves issues u off).partsEnd_completes issues ready (forked_lanes i u)
      (exec_fork op issues active aligned inside)) fun g ends => ⟨ends.gain, ?_, fun n => ?_, ?_, ends.lanes⟩
    · obtain ⟨v, s, p⟩ := ends.files
      obtain ⟨v', s', p'⟩ := forked_files i u
      exact ⟨v.trans v', s.trans s', p.trans p'⟩
    · rw [ends.unjoined, mem_forked_unjoined]
    · rw [ends.rest, besidesJoins_forked]
  case rdv =>
    refine completes_mono (((issueWork_leaves issues).onRegs (rendezvous i u.toNat)).partsEnd_completes issues ready rfl
      (exec_rdv issues active)) fun g ends => ⟨ends.gain, ?_, fun n => ?_, ends.rest, ends.joining, ends.lanes⟩
    · obtain ⟨v, s, p⟩ := ends.files
      rw [← released_nil i] at v s p
      exact ⟨v, s, p⟩
    · rw [ends.unjoined, mem_rendezvous_unjoined]
  case erset => exact completes_mono (erset_completes issues active room) fun g left => left.released
  case erget =>
    intro v
    obtain ⟨read, others, uniform, preds⟩ := writePair_written (i := i) v (d := 2 * d.toNat) (by omega) i.g.regs
    refine completes_mono (erget_completes issues active room) fun g left => ⟨fun k hk => ?_, fun k r hr other => ?_,
      left.s.trans uniform, left.p.trans preds, left.gain,
      left.specials ((writeLanes_special _ _ _).trans (writeLanes_special _ _ _)) rfl⟩
    · simp only [readV, left.vreg_eq]
      exact read k hk
    · exact (left.vreg_eq k r).trans (others k r hr other)
  case hload =>
    intro a k passes r room h vs
    exact (hloadWork_leaves room).flyAll_completes issues rfl (exec_hload issues active passes)
  case hdrop =>
    intro h valid room
    exact completes_mono (hdrop_completes issues active valid room) fun g left => left.released
  case estat => exact vector_completes issues d.toNat d.isLt _ (groupOnly_next issues _)

end Sys2Proof
end

section
/-! SUPPORT. Floating-point words: the outcome that each row of the tables gives a lane, the lanes that raise an enabled cause
and park, and the special functions, whose results are outstanding until they return (14 R286, 15 R294-R305, 06 R127). -/

namespace Sys2Proof.Machine

open Sys2Proof

/-! ### Traps of lanes -/

/-- Where no lane has two traps, the lanes that trap are those that the traps name. -/
theorem mem_trapTable_withTraps {ts : List (Nat × Nat × Word)} (single : ∀ a ∈ ts, ∀ b ∈ ts, a.1 = b.1 → a = b)
    (e : Nat × Nat × Word) : e ∈ trapTable (withTraps [] ts) ↔ e ∈ ts := by
  rw [mem_trapTable (rising_withTraps .nil _)]
  by_cases listed : e.1 ∈ ts.map (·.1)
  · obtain ⟨x, mem, same⟩ := List.mem_map.mp listed
    have trap : tget (withTraps [] ts) e.1 = some (.trap x.2.1 x.2.2) :=
      tget_foldl_tput_of_forall (key := fun e : Nat × Nat × Word => e.1) (val := fun e => Fate.trap e.2.1 e.2.2) _
        (fun y hy hk => by rw [single y hy x mem (hk.trans same.symm)]) listed
    rw [trap]
    constructor
    · intro found
      injection found with found
      injection found with cause address
      have found : e = x := Prod.ext same.symm (Prod.ext cause.symm address.symm)
      exact found ▸ mem
    · exact fun found => by rw [single x mem e found same]
  · rw [tget_withTraps_of_not_mem listed]
    exact iff_of_false nofun fun mem => listed (List.mem_map_of_mem mem)

/-! ### What a group keeps at the end of a word -/

section

variable {i : In} {a b : Group} (q : Quiet a b)

include q

theorem Quiet.chunksGain {stores : List Host.Cell} {tags : List TagStore} {effs : List Eff}
    {results : List (Nat × Nat × Nat × Word)} (h : ChunksGain i a stores tags effs results) :
    ChunksGain i b stores tags effs results :=
  ⟨q.stores.trans h.stores, q.tags.trans h.tags, q.effs.trans h.effs, by rw [q.flights]; exact h.flights⟩

theorem Quiet.vectorsPending {ls keys : List Nat} (h : VectorsPending i a ls keys) : VectorsPending i b ls keys :=
  ⟨q.v.trans h.vector, q.s.trans h.uniform, q.p.trans h.preds⟩

theorem Quiet.filesKept {ls : List Nat} (h : FilesKept i a ls) : FilesKept i b ls :=
  ⟨q.v.trans h.vector, q.s.trans h.uniform, q.p.trans h.preds⟩

theorem Quiet.specialsKept (h : SpecialsKept i a) : SpecialsKept i b :=
  ⟨q.tiles.trans h.tiles, q.accs.trans h.accs, q.masks.trans h.masks, q.unjoined.trans h.unjoined, q.trap.trans h.trap⟩

end

/-- A group whose registers keep their specials, whatever the three files hold. -/
theorem SameSpecials.kept {i : In} {r : GroupCore} (h : SameSpecials i.g.regs r) {v s p : Table Reg} {c : Option Chunk}
    {fl : List Flight} :
    SpecialsKept i { i.g with regs := { r with v := v, s := s, p := p }, cur := c, flights := fl } :=
  ⟨h.tiles, h.accs, h.masks, h.unjoined, by rw [h.trap]⟩

/-- The group that a plain word leaves is the one that its work made, but for its lanes and the end of its chunk. -/
theorem work_completes {ins : Instr} {s : State} {f : Form} {i : In} {w : Work} (h : GroupIssues s f i) (plain : Plain i w)
    (meaning : exec ins s = .next (finish i w)) :
    Completes ins s i (fun g => Quiet w.g g ∧ tget (finish i w).groups i.gid = some g) := by
  obtain ⟨g, hg, q, rest⟩ := finish_plain h plain
  exact ⟨_, g, meaning, hg, ⟨q, hg⟩, rest⟩

/-! ### The lanes of a floating-point word -/

/-- The traps of the lanes that raise an enabled cause: lane, cause, address (14 R286). -/
def fpTraps (i : In) (op : Nat → FpOut) : List (Nat × Nat × Word) :=
  (badLanes i op).map (fun k => (k, fpCauseOf (raisedMask i op k), 0#32))

theorem fpTraps_single {i : In} {op : Nat → FpOut} : ∀ a ∈ fpTraps i op, ∀ b ∈ fpTraps i op, a.1 = b.1 → a = b := by
  intro a ha b hb same
  obtain ⟨j, -, rfl⟩ := List.mem_map.mp ha
  obtain ⟨k, -, rfl⟩ := List.mem_map.mp hb
  obtain rfl : j = k := same
  rfl

/-- A floating-point word places the results of its sound lanes, counts their events and traps the other lanes. -/
theorem fpLanes_traps (op : Nat → FpOut) (amax : Bool) (put : Nat → FpOut → Work → Work) (i : In) (w : Work) :
    ∃ causes, let base := addEffs ((soundLanes i op).foldl (fun w k => put k (op k) w)
        (onRegs w (releaseSources i (soundLanes i op)))) (fpEffects i amax op)
      fpLanes op amax put i w = { base with fates := withTraps base.fates (fpTraps i op), causes := causes } := by
  rw [fpLanes_eq]
  simp only [withTraps, fpTraps, List.foldl_map]
  exact ⟨_, rfl⟩

theorem flyAll_fated (w : Work) (fates : Table Fate) (causes : Table Nat) (cls : Nat) (vs : List (Nat × Word)) :
    flyAll { w with fates := fates, causes := causes } cls vs =
      { flyAll w cls vs with fates := fates, causes := causes } := by
  induction vs generalizing w with
  | nil => rfl
  | cons e rest ih => exact ih (flyOut w cls e.1 e.2)

/-- Results at fixed latency change the registers only, and those of the three files only. -/
theorem foldl_putVec (d : Nat) (op : Nat → FpOut) (ls : List Nat) (w : Work) : ∃ r, SameSpecials w.g.regs r ∧
    ls.foldl (fun w k => putVec d k (op k) w) w = { w with g := { w.g with regs := r } } := by
  induction ls generalizing w with
  | nil => exact ⟨_, .refl _, rfl⟩
  | cons k rest ih =>
    obtain ⟨r, same, eq⟩ := ih (putVec d k (op k) w)
    exact ⟨r, (writeV_special _ _ _ _).trans same, eq⟩

section

variable {ins : Instr} {s : State} {f : Form} {i : In} {d : BitVec 6} {amax : Bool} {op : Nat → FpOut}

/-- The raising lanes of a word of fixed latency park. -/
theorem float_parks (h : GroupIssues s f i) (raising : badLanes i op ≠ []) {g : Group}
    (ends : tget (finish i (fpLanes op amax (putVec d.toNat) i (issueWork i))).groups i.gid = some g) :
    SubgroupParked i g (fpTraps i op) := by
  obtain ⟨causes, work⟩ := fpLanes_traps op amax (putVec d.toNat) i (issueWork i)
  obtain ⟨r, same, put⟩ := foldl_putVec d.toNat op (soundLanes i op)
    (onRegs (issueWork i) (releaseSources i (soundLanes i op)))
  have trap : r.trap = i.g.regs.trap := same.trap.trans (releaseSources_special i _ _).trap
  rw [put] at work
  rw [work] at ends
  refine finish_subgroupParked h ?plain rfl ?parks (rising_withTraps .nil _) (mem_trapTable_withTraps fpTraps_single)
    ?inside ?nonempty ends
  case plain => exact ⟨rfl, rfl, rfl, withTraps_stay (fates := []) nofun _, fun _ _ => rfl, rfl, rfl⟩
  case parks => exact congrArg (·.parks) trap
  case inside =>
    intro e mem
    obtain ⟨k, bad, rfl⟩ := List.mem_map.mp mem
    exact act_subset_lanes h _ (List.mem_filter.mp bad).1
  case nonempty => simpa [fpTraps] using raising

/-- A special function: the results of the sound lanes are outstanding. -/
theorem late_float_completes (h : GroupIssues s f i)
    (meaning : exec ins s = .next (finish i (fpLanes op amax (putLate d.toNat) i (issueWork i)))) :
    let vs := (soundLanes i op).map (fun k => (64 * k + d.toNat, BitVec.ofNat 32 (op k).code))
    Completes ins s i (fun g => VectorsPending i g (soundLanes i op) (vs.map (·.1)) ∧
      ChunksGain i g [] [] (fpEffects i amax op) (resultsOf (released i (soundLanes i op)).v 0 vs) ∧ SpecialsKept i g) := by
  intro vs
  obtain ⟨causes, work⟩ := fpLanes_traps op amax (putLate d.toNat) i (issueWork i)
  have put (w : Work) : (soundLanes i op).foldl (fun w k => putLate d.toNat k (op k) w) w = flyAll w 0 vs := by
    simp only [vs, flyAll, List.foldl_map]
    rfl
  have none : (addEffs (flyAll (onRegs (issueWork i) (releaseSources i (soundLanes i op))) 0 vs)
      (fpEffects i amax op)).fates = [] := flyAll_fates _ _ _
  have fated := flyAll_fated (onRegs (issueWork i) (releaseSources i (soundLanes i op))) (withTraps [] (fpTraps i op))
    causes 0 vs
  refine late_completes h _ vs _ { issueWork i with fates := withTraps [] (fpTraps i op), causes := causes } rfl
    ((issueWork_plain h).fated _ _ (withTraps_stay (fates := []) nofun _)) ?_
  rw [meaning, work, put, none]
  exact congrArg (fun w => Host.Outcome.next (finish i (addEffs w (fpEffects i amax op)))) fated.symm

end

/-- Every word of the tables of fixed latency computes the outcome of its row in its lanes. -/
theorem exec_float {d : BitVec 6} {amax : Bool} {ins : Instr} {f : Form} {op : In → Nat → FpOut}
    (row : FloatOp ins f d amax op) {s : State} {i : In} (h : GroupIssues s f i) :
    exec ins s = .next (finish i (fpLanes (op i) amax (putVec d.toNat) i (issueWork i))) := by
  have half (w : Word) : halfOf w 0 < 2 ^ 16 := Nat.mod_lt _ (by decide)
  cases row with
  | pk2h sw d x y =>
    have fits : ∀ i k, (quietOut (BitVec.ofNat 32 (halfOf (xVal i k) 0 + 2 ^ 16 * halfOf (yVal i k) 0))) =
        { code := halfOf (xVal i k) 0 + 2 ^ 16 * halfOf (yVal i k) 0 } := by
      intro i k
      have := half (xVal i k)
      have := half (yVal i k)
      rw [quietOut, BitVec.toNat_ofNat, Nat.mod_eq_of_lt (by omega)]
    simp only [fits]
    exact groupOnly_next h _
  | pk4b sw d x y =>
    have fits : ∀ i k, (quietOut (BitVec.ofNat 32 ((dVal i d k).toNat * 2 ^ 16 % 2 ^ 32 + 2 ^ 8 * ((yVal i k).toNat % 256) +
        (xVal i k).toNat % 256))) =
        { code := (dVal i d k).toNat * 2 ^ 16 % 2 ^ 32 + 2 ^ 8 * ((yVal i k).toNat % 256) + (xVal i k).toNat % 256 } := by
      intro i k
      rw [quietOut, BitVec.toNat_ofNat, Nat.mod_eq_of_lt (by omega)]
    simp only [fits]
    exact groupOnly_next h _
  | _ => exact groupOnly_next h _

end Sys2Proof.Machine

namespace Sys2Proof

open Sys2Proof.Machine

/-- Settles O8: the sound lanes of every row write, count and release. -/
theorem floatWritesOutcome : Obligations.FloatWritesOutcome := by
  intro ins f d amax op row s i issues
  exact float_completes issues d.toNat d.isLt amax (op i) (exec_float row issues)

/-- Settles O9: the results of the sound lanes are placed as outstanding ones. -/
theorem sfuResultOutstanding : Obligations.SfuResultOutstanding := by
  intro ins sw d x op row s i issues out vs
  have meaning : exec ins s = .next (finish i (fpLanes out false (putLate d.toNat) i (issueWork i))) := by
    cases row <;> exact groupOnly_next issues _
  exact late_float_completes issues meaning

/-- Settles O10: the raising lanes are the only ones with a fate, a trap each. -/
theorem fpTrapParksLanes : Obligations.FpTrapParksLanes := by
  intro ins f d amax op row s i issues raising
  have word := float_completes issues d.toNat d.isLt amax (op i) (exec_float row issues)
  exact completes_mono (completes_also word (exec_float row issues) fun g => float_parks issues raising) fun g h => h.2

end Sys2Proof
end

section
/-! SUPPORT. Cross-lane words and random numbers: each executing lane has a result outstanding that is made of the values of
the executing lanes, or of the team's key (16 R308-R318, 02 R43). -/

namespace Sys2Proof.Machine

open Sys2Proof

/-! ### Outstanding results -/

/-- What a group's chunk and its results gain when its registers are replaced. -/
theorem chunksGain_of_chunk {i : In} {c c1 : Chunk} {r : GroupCore} {fl : List Flight} {stores : List Host.Cell}
    {tags : List TagStore} {es : List Eff} {results : List (Nat × Nat × Nat × Word)} (hc : i.g.cur = some c)
    (hs : c1.stores = stores ++ c.stores) (ht : c1.tags = tags ++ c.tags) (he : c1.effs = c.effs ++ es)
    (hf : fl.map flightFacts = i.g.flights.map flightFacts ++ results) :
    ChunksGain i { i.g with regs := r, cur := some c1, flights := fl } stores tags es results :=
  ⟨by simp [ownStores, ownChunks, hc, hs], by simp [ownTags, ownChunks, hc, ht], by simp [ownEffs, ownChunks, hc, he], hf⟩

section

variable {ins : Instr} {s : State} {f : Form} {i : In} {r : GroupCore} {es : List Eff} {w : Work}

/-- A word that leaves registers and effects and then results of a predicate, none of them for p7. -/
theorem LeavesWork.preds_completes (h : GroupIssues s f i) (leaves : LeavesWork i r es w) (same : SameSpecials i.g.regs r)
    (d : BitVec 3) (b : Nat → Word) (ls : List Nat)
    (meaning : exec ins s = .next (finish i (flyAll w 2 (ls.map (fun k => (8 * k + d.toNat, b k)))))) :
    let vs := if d = 7#3 then [] else ls.map (fun k => (8 * k + d.toNat, b k))
    Completes ins s i (fun g => g.regs.v = r.v ∧ g.regs.s = r.s ∧ g.regs.p = pendingFile r.p (vs.map (·.1)) ∧
      ChunksGain i g [] [] es (resultsOf r.p 2 vs) ∧ SpecialsKept i g) := by
  intro vs
  by_cases seventh : d = 7#3
  case pos =>
    obtain ⟨n, work⟩ := flyAll_seventh (ls.map (fun k => (8 * k + d.toNat, b k)))
      (by simp only [List.mem_map]; rintro _ ⟨k, -, rfl⟩; subst seventh; simp) w
    have none : vs = [] := if_pos seventh
    obtain ⟨c, c1, hc, hs, ht, he, rfl⟩ := leaves
    rw [work] at meaning
    have plain : Plain i { issueWork i with g := { i.g with regs := r, cur := some c1 }, nextId := n } :=
      ⟨rfl, rfl, rfl, nofun, fun _ _ => rfl, rfl, rfl⟩
    refine completes_mono (work_completes h plain meaning) fun g ⟨q, _⟩ => ⟨q.v, q.s, ?_, ?_, q.specialsKept same.kept⟩
    · rw [none]
      exact q.p
    · rw [none]
      exact q.chunksGain (chunksGain_of_chunk (fl := i.g.flights) hc hs ht he (List.append_nil _).symm)
  case neg =>
    have vs_eq : vs = ls.map (fun k => (8 * k + d.toNat, b k)) := if_neg seventh
    have named : ∀ e ∈ vs, e.1 % 8 ≠ 7 := by
      intro e mem
      rw [vs_eq] at mem
      obtain ⟨k, -, rfl⟩ := List.mem_map.mp mem
      have := d.isLt
      have : d.toNat ≠ 7 := fun e => seventh (BitVec.eq_of_toNat_eq e)
      omega
    rw [← vs_eq] at meaning
    obtain ⟨pending, flights, ⟨fl, group⟩, n, work⟩ := flyAll_pred vs named w
    obtain ⟨c, c1, hc, hs, ht, he, rfl⟩ := leaves
    rw [group] at pending flights work
    have plain : Plain i (flyAll { issueWork i with g := { i.g with regs := r, cur := some c1 } } 2 vs) := by
      rw [work]
      exact ⟨rfl, rfl, rfl, nofun, fun _ _ => rfl, rfl, rfl⟩
    refine completes_mono (work_completes h plain meaning) fun g ⟨q, _⟩ => ?_
    rw [group] at q
    exact ⟨q.v, q.s, q.p.trans pending, q.chunksGain (chunksGain_of_chunk hc hs ht he flights), q.specialsKept same.kept⟩

/-- A word that only releases its sources and leaves results of vector registers. -/
theorem results_complete (h : GroupIssues s f i) (vs : List (Nat × Word))
    (meaning : exec ins s = .next (finish i (flyAll (onRegs (issueWork i) (releaseSources i i.act)) 0 vs))) :
    Completes ins s i (fun g => VectorsPending i g i.act (vs.map (·.1)) ∧
      ChunksGain i g [] [] [] (resultsOf (released i i.act).v 0 vs) ∧ SpecialsKept i g) :=
  ((issueWork_leaves h).onRegs (releaseSources i i.act)).flyAll_completes h rfl meaning

/-- A word without sources does the work of one that releases them. -/
theorem onRegs_of_no_sources (h : GroupIssues s f i) (hx : f.x = none) (hy : f.y = none) (hsx : f.sx = none)
    (hsy : f.sy = none) : onRegs (issueWork i) (releaseSources i i.act) = issueWork i :=
  congrArg (fun c => onRegs (issueWork i) fun _ => c) (released_of_no_sources h i.act hx hy hsx hsy)

end

/-! ### What the executing lanes make together (16 R311, R313) -/

theorem laneSum_eq (i : In) (ls : List Nat) : laneSum i ls = sumOver i ls := by
  have sum (a : Word) : ls.foldl (fun a l => a + xVal i l) a = a + sumOver i ls := by
    induction ls generalizing a with
    | nil => simp [sumOver]
    | cons k rest ih => simp [ih, sumOver, BitVec.ofNat_add, BitVec.add_assoc]
  exact (sum 0#32).trans (BitVec.zero_add _)

/-- A signed extremum of words is that of their values. -/
theorem toInt_foldl {f : Word → Word → Word} {g : Int → Int → Int} (same : ∀ a b, (f a b).toInt = g a.toInt b.toInt)
    (val : Nat → Word) (ls : List Nat) (a : Word) :
    ls.foldl (fun a l => f a (val l)) a = BitVec.ofInt 32 ((ls.map (fun l => (val l).toInt)).foldl g a.toInt) := by
  induction ls generalizing a with
  | nil => exact (BitVec.ofInt_toInt).symm
  | cons k rest ih =>
    rw [List.foldl_cons, ih, same]
    rfl

theorem toInt_iminW (a b : Word) : (iminW a b).toInt = min a.toInt b.toInt := by
  unfold iminW pickWord sval
  by_cases h : a.toInt ≤ b.toInt
  · simp [h]
  · simp [h, Int.le_of_lt (Int.not_le.mp h)]

theorem toInt_imaxW (a b : Word) : (imaxW a b).toInt = max a.toInt b.toInt := by
  unfold imaxW pickWord sval
  by_cases h : b.toInt ≤ a.toInt
  · simp [h]
  · simp [h, Int.le_of_lt (Int.not_le.mp h)]

/-- Each word of the table leaves the results of its row outstanding. -/
theorem exec_cross {ins : Instr} {f : Form} {vals : In → List (Nat × Word)} (row : CrossOp ins f vals) {s : State} {i : In}
    (h : GroupIssues s f i) :
    exec ins s = .next (finish i (flyAll (onRegs (issueWork i) (releaseSources i i.act)) 0 (vals i))) := by
  cases row with
  | rsumi =>
    simp only [← laneSum_eq]
    exact (groupOnly_next h _).trans (by rw [flyLanes_eq])
  | scani | scanxi =>
    simp only [← laneSum_eq]
    exact (groupOnly_next h _).trans (by rw [flyLanes_eq])
  | rmini =>
    refine (groupOnly_next h _).trans ?_
    simp only [flyLanes_eq, toInt_foldl toInt_iminW]
    rfl
  | rmaxi =>
    refine (groupOnly_next h _).trans ?_
    simp only [flyLanes_eq, toInt_foldl toInt_imaxW]
    rfl
  | first => exact (groupOnly_next h _).trans (by rw [flyLanes_eq])
  | popm =>
    rw [onRegs_of_no_sources h rfl rfl rfl rfl]
    exact (groupOnly_next h _).trans (by rw [flyLanes_eq]; rfl)
  | cmpct =>
    rw [onRegs_of_no_sources h rfl rfl rfl rfl]
    simp only [List.countP_eq_length_filter]
    exact (groupOnly_next h _).trans (by rw [flyLanes_eq]; rfl)
  | ballot =>
    rw [onRegs_of_no_sources h rfl rfl rfl rfl, ← flyAll_append]
    exact (groupOnly_next h _).trans (by simp only [flyLanes_eq]; rfl)
  | matchx =>
    rw [← flyAll_append]
    exact (groupOnly_next h _).trans (by simp only [flyLanes_eq]; rfl)

/-! ### SHFL, RSUMF and SCANF (16 R308, R311, R312) -/

section

variable {s : State} {i : In} {sw : Bool} {d : BitVec 6} {x y : Src}

/-- The read of the lane that y names (16 R308): value, hazard, and whether it waits for another set. -/
def namedRead (i : In) (x : Src) (k : Nat) : Word × Bool × Bool :=
  crossRead i.g.regs i.set x.reg.toNat (some ((yVal i k).toNat % i.l.alloc.w))

theorem exec_shfl (h : GroupIssues s { sw := sw, x := some x, y := some y, v := [d.toNat], shfl := true } i)
    (free : ∀ k ∈ i.act, (namedRead i x k).2.2 = false) : ∃ hazard, exec (.shfl sw d x y) s =
      .next (finish i (addEffs (flyAll (onRegs { issueWork i with hazard := hazard } (releaseSources i i.act)) 0
        (i.act.map (fun k => (64 * k + d.toNat, (namedRead i x k).1)))) [])) := by
  have goes : i.act.any (fun k => (namedRead i x k).2.2) = false := List.any_eq_false.mpr fun k hk => by simp [free k hk]
  refine ⟨(issueWork i).hazard || i.act.any (fun k => (namedRead i x k).2.1), (groupOnly_next h _).trans ?_⟩
  rw [addEffs_nil]
  simp only [flyLanes_eq]
  simp only [namedRead] at goes ⊢
  rw [goes]
  rfl

theorem exec_rsumf (h : GroupIssues s { sw := sw, x := some x, v := [d.toNat] } i) (active : i.act ≠ []) :
    exec (.rsumf sw d x) s = .next (finish i (addEffs (flyAll (onRegs (issueWork i) (releaseSources i i.act)) 0
      (i.act.map (fun k => (64 * k + d.toNat, (treeSum i).val)))) (nodeCounts (treeSum i)))) := by
  refine (groupOnly_next h _).trans ?_
  rw [if_neg (by simpa using active)]
  simp only [flyLanes_eq]

theorem exec_scanf (h : GroupIssues s { sw := sw, x := some x, v := [d.toNat] } i) :
    exec (.scanf sw d x) s = .next (finish i (addEffs (flyAll (onRegs (issueWork i) (releaseSources i i.act)) 0
      ((scanNodes i).map (fun e => (64 * e.1 + d.toNat, e.2.val)))) ((scanNodes i).flatMap (fun e => nodeCounts e.2)))) := by
  refine (groupOnly_next h _).trans ?_
  rw [flyAll, List.foldl_map]

end

/-! ### Votes (16 R311, 02 R40) -/

theorem exec_vote {sw : Bool} {d x : BitVec 3} {ins : Instr} {b : Bool} {s : State} {i : In}
    (h : GroupIssues s { sw := sw, pr := [x.toNat] } i) (row : ins = .vany sw d x ∧ b = decide (votersOf i x ≠ []) ∨
      ins = .vall sw d x ∧ b = decide ((votersOf i x).length = i.act.length)) :
    exec ins s = .next (finish i (flyAll (issueWork i) 2 (i.act.map (fun k => (8 * k + d.toNat, boolWord b))))) := by
  obtain ⟨rfl, rfl⟩ | ⟨rfl, rfl⟩ := row
  case inl =>
    refine (groupOnly_next h _).trans ?_
    have any : (!(voters i x).isEmpty) = decide (votersOf i x ≠ []) := by
      rw [decide_not, Bool.not_inj_iff, Bool.eq_iff_iff, List.isEmpty_iff, decide_eq_true_iff]
      rfl
    rw [flyPreds_eq, any]
  case inr =>
    refine (groupOnly_next h _).trans ?_
    rw [flyPreds_eq]
    rfl

/-! ### Random numbers (16 R314-R317) -/

theorem keyInputs_eq (i : In) (stream : Bool) : keyInputs i stream = keyReads i stream := by
  simp only [keyInputs, keyReads, List.isEmpty_iff]

theorem exec_random {ins : Instr} {f : Form} {d : BitVec 6} {stream : Bool} {val : In → Nat → Word}
    (row : RandomOp ins f d stream val) {s : State} {i : In} (h : GroupIssues s f i) :
    exec ins s = .next (finish i (flyAll (onRegs (access (issueWork i) (keyReads i stream) []) (releaseSources i i.act)) 0
      (i.act.map (fun k => (64 * k + d.toNat, val i k))))) := by
  cases row with
  | rng | rng2 | unif => exact (groupOnly_next h _).trans (by rw [flyLanes_eq, keyInputs_eq]; rfl)
  | bern =>
    refine (groupOnly_next h _).trans ?_
    simp only [flyLanes_eq, keyInputs_eq, boolWord, decide_eq_true_eq]
    rfl

/-- What BERNP leaves for a lane (16 R316). -/
def bernoulli (i : In) (k : Nat) : Word :=
  if (keyed i (viewReg i.g i.t 2) (xVal i k)).toNat < (yVal i k).toNat then 1#32 else 0#32

theorem exec_bernp {sw : Bool} {d : BitVec 3} {x y : Src} {s : State} {i : In}
    (h : GroupIssues s { sw := sw, x := some x, y := some y } i) :
    exec (.bernp sw d x y) s = .next (finish i (flyAll (onRegs (access (issueWork i) (keyReads i true) [])
      (releaseSources i i.act)) 2 (i.act.map (fun k => (8 * k + d.toNat, bernoulli i k))))) := by
  refine (groupOnly_next h _).trans ?_
  simp only [keyInputs_eq, boolWord, decide_eq_true_eq, flyAll, List.foldl_map]
  rfl

theorem exec_stochastic {ins : Instr} {sw : Bool} {d : BitVec 6} {x y : Src} {amax : Bool} {out : In → Nat → FpOut}
    (row : StochasticOp ins sw d x y amax out) {s : State} {i : In}
    (h : GroupIssues s { sw := sw, x := some x, y := some y, v := [d.toNat] } i) :
    exec ins s = .next (finish i (fpLanes (out i) amax (putLate d.toNat) i (issueWork i))) := by
  cases row <;> exact groupOnly_next h _

end Sys2Proof.Machine

namespace Sys2Proof

open Sys2Proof.Machine

/-- Settles O12: SHFL does not stall where no read waits, and the sums are those of the tree and of the prefixes. -/
theorem shuffleReadsNamedLane : Obligations.ShuffleReadsNamedLane := by
  refine ⟨fun sw d x y s i issues free => ?shfl, fun sw d x s i issues active => ?rsumf, fun sw d x s i issues => ?scanf⟩
  case shfl =>
    obtain ⟨hazard, meaning⟩ := exec_shfl issues free
    exact late_completes issues i.act _ [] { issueWork i with hazard := hazard } rfl
      ⟨rfl, rfl, rfl, nofun, fun _ _ => rfl, rfl, rfl⟩ meaning
  case rsumf => exact late_completes issues i.act _ _ _ rfl (issueWork_plain issues) (exec_rsumf issues active)
  case scanf => exact late_completes issues i.act _ _ _ rfl (issueWork_plain issues) (exec_scanf issues)

/-- Settles O13: both votes are results of a predicate, which p7 discards. -/
theorem votesIssuePredicates : Obligations.VotesIssuePredicates := by
  intro sw d x s i issues ins b row
  exact (issueWork_leaves issues).preds_completes issues (.refl _) d (fun _ => boolWord b) i.act (exec_vote issues row)

/-- Settles O36: a number reads its key and is outstanding; a stochastic conversion is a floating-point word with outstanding
results. -/
theorem randomNumbersOutstanding : Obligations.RandomNumbersOutstanding := by
  refine ⟨fun ins f d stream val row s i issues room => ?numbers, fun sw d x y s i issues room => ?bernp,
    fun ins sw d x y amax out row s i issues => ?stochastic⟩
  case numbers =>
    exact ((access_leaves room).onRegs (releaseSources i i.act)).flyAll_completes issues rfl (exec_random row issues)
  case bernp =>
    have word := ((access_leaves room).onRegs (releaseSources i i.act)).preds_completes issues
      (releaseSources_special i i.act i.g.regs) d (bernoulli i) i.act (exec_bernp issues)
    obtain ⟨uniform, preds⟩ := released_sameScalars issues i.act rfl rfl
    simp only [released] at uniform preds
    simp only [uniform, preds] at word
    exact word
  case stochastic => exact late_float_completes issues (exec_stochastic row issues)

/-- Settles O11: each row leaves one result for each register of each executing lane. -/
theorem crossLaneResults : Obligations.CrossLaneResults := by
  intro ins f vals row s i issues
  exact results_complete issues _ (exec_cross row issues)

end Sys2Proof
end

section
/-! SUPPORT. Software traps, the return from a handler, and writes of team registers (21 R390, R391, R393, 05 R105). -/

namespace Sys2Proof.Machine

open Sys2Proof

/-! ### Lanes once the traps of a word are taken (06 R127) -/

section

variable {g : Group} {ls : List Nat} {traps : Table (Nat × Word)} {runPc after : Word} {nd : Bool} {cs : Table Nat}
  {win : Option Nat} {k : Nat}

/-- A trap ends the part of a lane and parks it. -/
theorem takeTrap_ends {x : Lane} (found : tget g.regs.lanes k = some x) (trapped : k ∈ traps.map (·.1)) :
    (laneAt (takeTrap g ls traps runPc after nd cs win).regs k).wait = .parked ∧
      (laneAt (takeTrap g ls traps runPc after nd cs win).regs k).ended = true := by
  unfold takeTrap
  split
  · cases trapped
  · simp only [laneAt, tgetD, tget_tmap, found, Option.map_some, Option.getD_some, List.contains_iff_mem, trapped, if_true,
      and_self]

theorem takeTrap_lane_of_free (free : k ∉ traps.map (·.1)) :
    laneAt (takeTrap g ls traps runPc after nd cs win).regs k = laneAt g.regs k := by
  unfold takeTrap
  split
  · rfl
  · exact view_laneAt_tmap id g.regs _ k fun x => by simp only [List.contains_iff_mem, free, if_false]

end

section

variable {i : In} {w : Work} (plain : Plain i w) {g : Group} (ends : tget (finish i w).groups i.gid = some g) {k : Nat}
  (hk : k ∈ i.lanes)

include plain ends hk

/-- The part of a lane that traps ends before the word. -/
theorem finish_partOver_of_trap (trapped : k ∈ (trapTable w.fates).map (·.1)) : PartOver g k := by
  obtain ⟨doomed, causes, win, closed⟩ := finish_closedGroup plain
  obtain rfl := Option.some.inj (ends.symm.trans closed)
  obtain ⟨n, -, found⟩ := tget_placeLanes_of_mem w.fates w.g hk
  obtain ⟨waits, parted⟩ := takeTrap_ends (ls := i.lanes) (runPc := i.runPc) (after := i.pc + 4#32) (nd := w.illegal)
    (cs := causes) (win := win) found trapped
  rw [laneAt, ← beforeRelease_lanes] at waits parted
  refine closedGroup_partOver _ _ ?_
  rw [placedGroup_eq, releaseMasks_lane_of_unmasked]
  · exact parted
  · rw [laneAt, waits]
    rfl

/-- Whether a thread is in its handler, and whether FP traps are suppressed for its next word. -/
def serviceOf (x : Lane) : Bool × Bool := (x.handler, x.quiet)

omit plain ends hk in
/-- The end of a word for the chunk leaves the service of every lane. -/
theorem closedGroup_serviceOf (doomed : Bool) (g : Group) (k : Nat) :
    serviceOf (laneAt (closedGroup i doomed g).regs k) = serviceOf (laneAt g.regs k) := by
  have parts : serviceOf (laneAt (if endsWithWord g then endParts g else g).regs k) = serviceOf (laneAt g.regs k) := by
    split
    · exact view_laneAt_tmap serviceOf g.regs _ k fun x => by split <;> rfl
    · rfl
  have switched (c : GroupCore) : serviceOf (laneAt (endSwitch c) k) = serviceOf (laneAt c k) := by
    unfold endSwitch
    split
    · rfl
    · exact view_laneAt_tmap serviceOf c _ k fun x => by split <;> rfl
  have chunk (b : Group) : serviceOf (laneAt (endChunk i.s.cycle b).regs k) = serviceOf (laneAt b.regs k) := by
    unfold endChunk
    split
    · rfl
    · split
      · exact view_laneAt_tmap serviceOf b.regs _ k fun _ => rfl
      · rfl
  refine (chunk _).trans (Eq.trans ?_ ((switched _).trans parts))
  cases doomed <;> rfl

/-- A lane that takes no trap and waits at no mask has the service that its fate gives it. -/
theorem finish_serviceOf (free : k ∉ (trapTable w.fates).map (·.1))
    (unmasked : atMask (placedAt i w.fates w.g k).wait = false) :
    serviceOf (laneAt g.regs k) = serviceOf (placedAt i w.fates w.g k) := by
  obtain ⟨doomed, causes, win, closed⟩ := finish_closedGroup plain
  obtain rfl := Option.some.inj (ends.symm.trans closed)
  obtain ⟨n, -, placed⟩ := laneAt_placeLanes_of_mem w.fates w.g hk
  have before : laneAt (beforeRelease i w causes win).regs k = inSet (placedAt i w.fates w.g k) n := by
    rw [laneAt, beforeRelease_lanes, ← placed]
    exact takeTrap_lane_of_free free
  rw [closedGroup_serviceOf, placedGroup_eq, releaseMasks_lane_of_unmasked _ (by rw [before]; exact unmasked), before]
  rfl

end

/-! ### TRAP and BRK (21 R390) -/

/-- One trap for each of some lanes, all with one cause and one address. -/
def sameTraps (ls : List Nat) (c : Nat) (a : Word) : List (Nat × Nat × Word) := ls.map (fun k => (k, c, a))

theorem mem_trapTable_oneFate {ls : List Nat} {c : Nat} {a : Word} (e : Nat × Nat × Word) :
    e ∈ trapTable (oneFate ls (.trap c a)) ↔ e ∈ sameTraps ls c a := by
  have fates : oneFate ls (.trap c a) = withTraps [] (sameTraps ls c a) := by
    simp only [oneFate, withTraps, sameTraps, List.foldl_map]
  rw [fates]
  refine mem_trapTable_withTraps (fun x hx y hy same => ?_) e
  obtain ⟨j, -, rfl⟩ := List.mem_map.mp hx
  obtain ⟨k, -, rfl⟩ := List.mem_map.mp hy
  obtain rfl : j = k := same
  rfl

theorem exec_softTrap {ins : Instr} {sw : Bool} {c : BitVec 8} {cause : Nat} (op : SoftTrapOp ins sw c cause) {s : State}
    {i : In} (h : GroupIssues s { sw := sw } i) :
    exec ins s = .next (finish i (setFates (issueWork i) i.act (.trap cause (c.setWidth 32)))) := by
  cases op <;> exact groupOnly_next h _

/-! ### TRET (21 R391) -/

/-- Fates given to lanes one by one. -/
def laneFates (ls : List Nat) (fate : Nat → Fate) : Table Fate := ls.foldl (fun t k => tput t k (fate k)) []

section

variable {ls : List Nat} {fate : Nat → Fate}

theorem foldl_setFates (ls : List Nat) (fate : Nat → Fate) (w : Work) : ls.foldl (fun w k => setFates w [k] (fate k)) w =
    { w with fates := ls.foldl (fun t k => tput t k (fate k)) w.fates } := by
  induction ls generalizing w with
  | nil => rfl
  | cons k rest ih => exact ih _

theorem rising_laneFates : Rising (laneFates ls fate) := rising_foldl_tput id fate ls .nil

theorem tget_laneFates (k : Nat) : tget (laneFates ls fate) k = if k ∈ ls then some (fate k) else none :=
  tget_foldl_tput fate ls [] k

theorem tgetD_laneFates {k : Nat} (h : k ∈ ls) : tgetD (laneFates ls fate) k .next = fate k := by
  rw [tgetD, tget_laneFates, if_pos h, Option.getD_some]

theorem laneFates_stay (stays : ∀ k, fate k ≠ .leave) : ∀ e ∈ laneFates ls fate, e.2 ≠ .leave := by
  intro e mem
  rw [((mem_foldl_tput fate ls).mp mem).2]
  exact stays _

end

/-- The trap of lane k of a TRET, if it takes one: it is in no handler, or its return address is in no text section. -/
def returnTrap (i : In) (k : Nat) : Option (Nat × Nat × Word) :=
  if (laneAt i.g.regs k).handler = false then some (k, 1, 0#32)
  else if inText i.l (returnsTo i.g.regs.trap).1 then none else some (k, 1, (returnsTo i.g.regs.trap).1)

/-- The fate of lane k of a TRET. -/
def returnFate (i : In) (k : Nat) : Fate :=
  match returnTrap i k with
  | some e => .trap e.2.1 e.2.2
  | none => .back (returnsTo i.g.regs.trap).1 (returnsTo i.g.regs.trap).2

theorem returnPc_eq (t : TrapState) : returnPc t = returnsTo t := by
  simp only [returnPc, returnsTo, Bool.or_eq_true, beq_iff_eq]

/-- The work of a TRET: its fates. -/
def returnWork (i : In) : Work := { issueWork i with fates := laneFates i.act (returnFate i) }

section

variable {s : State} {i : In} {sw : Bool}

theorem returnTrap_lane {k : Nat} {e : Nat × Nat × Word} (h : returnTrap i k = some e) : e.1 = k := by
  unfold returnTrap at h
  split_ifs at h <;> exact (congrArg Prod.fst (Option.some.inj h)).symm

theorem returnFate_stays (k : Nat) : returnFate i k ≠ .leave := by
  unfold returnFate
  split <;> nofun

theorem exec_tret (h : GroupIssues s { sw := sw } i) : exec (.tret sw) s = .next (finish i (returnWork i)) := by
  have fate (k : Nat) : (if !(laneAt i.g.regs k).handler then Fate.trap 1 0#32
      else if inText i.l (returnsTo i.g.regs.trap).1 then .back (returnsTo i.g.regs.trap).1 (returnsTo i.g.regs.trap).2
      else .trap 1 (returnsTo i.g.regs.trap).1) = returnFate i k := by
    unfold returnFate returnTrap
    cases (laneAt i.g.regs k).handler
    · rfl
    · cases inText i.l (returnsTo i.g.regs.trap).1 <;> rfl
  refine (groupOnly_next h _).trans ?_
  simp only [returnPc_eq, fate]
  rw [foldl_setFates]
  rfl

theorem returnWork_plain (i : In) : Plain i (returnWork i) :=
  ⟨rfl, rfl, rfl, laneFates_stay returnFate_stays, fun _ _ => rfl, rfl, rfl⟩

theorem mem_returnTraps (e : Nat × Nat × Word) :
    e ∈ trapTable (returnWork i).fates ↔ e ∈ i.act.filterMap (returnTrap i) := by
  have rising : Rising (returnWork i).fates := rising_laneFates
  rw [mem_trapTable rising, returnWork, tget_laneFates, List.mem_filterMap]
  constructor
  · intro trapped
    split at trapped
    case isFalse => cases trapped
    case isTrue listed =>
      refine ⟨e.1, listed, ?_⟩
      have fate := Option.some.inj trapped
      unfold returnFate at fate
      split at fate
      case h_2 => cases fate
      case h_1 x found =>
        obtain ⟨cause, address⟩ := Fate.trap.inj fate
        rw [found, ← (Prod.ext (returnTrap_lane found) (Prod.ext cause address) : x = e)]
  · rintro ⟨k, listed, found⟩
    obtain rfl := returnTrap_lane found
    rw [if_pos listed, returnFate, found]

/-- A lane that goes back stands where the trap registers say, in no handler. -/
theorem returns (h : GroupIssues s { sw := sw } i) (ready : setReady i) {g : Group}
    (ends : tget (finish i (returnWork i)).groups i.gid = some g) {k : Nat} (hk : k ∈ i.act)
    (free : k ∉ (i.act.filterMap (returnTrap i)).map (·.1)) : standsAt g k (returnsTo i.g.regs.trap).1 .ready ∧
      (laneAt g.regs k).handler = false ∧ (laneAt g.regs k).quiet = (returnsTo i.g.regs.trap).2 := by
  have lane := act_subset_lanes h k hk
  have untrapped : k ∉ (trapTable (returnWork i).fates).map (·.1) := by
    simpa only [List.mem_map, mem_returnTraps] using free
  have fate : tgetD (returnWork i).fates k .next = .back (returnsTo i.g.regs.trap).1 (returnsTo i.g.regs.trap).2 := by
    rw [returnWork, tgetD_laneFates hk, returnFate]
    cases found : returnTrap i k with
    | none => rfl
    | some e => exact absurd (List.mem_map.mpr ⟨e, List.mem_filterMap.mpr ⟨k, hk, found⟩, returnTrap_lane found⟩) free
  have waits : (lanePlaced i (tgetD (returnWork i).fates k .next) (laneAt (returnWork i).g.regs k)).wait = .ready := by
    rw [fate]
    exact ready k lane
  obtain ⟨g', found, stands⟩ := finish_standsAt (returnWork_plain i)
  obtain rfl : g = g' := Option.some.inj (ends.symm.trans found)
  refine ⟨stands k lane untrapped _ _ (by rw [fate]; rfl) waits rfl, ?_⟩
  have service := finish_serviceOf (returnWork_plain i) ends lane untrapped (by rw [placedAt, waits]; rfl)
  rw [placedAt, fate] at service
  exact Prod.mk.inj service

/-- TRET changes no register and no byte, parks the lanes that may not return, and sends the others back. -/
theorem tret_completes (h : GroupIssues s { sw := sw } i) (ready : setReady i) :
    Completes (.tret sw) s i (fun g =>
      (i.act.filterMap (returnTrap i) ≠ [] → SubgroupParked i g (i.act.filterMap (returnTrap i))) ∧
      (∀ k ∈ i.act, k ∉ (i.act.filterMap (returnTrap i)).map (·.1) → standsAt g k (returnsTo i.g.regs.trap).1 .ready ∧
        (laneAt g.regs k).handler = false ∧ (laneAt g.regs k).quiet = (returnsTo i.g.regs.trap).2) ∧
      FilesKept i g [] ∧ ChunksKept i g ∧ SpecialsKept i g) := by
  refine completes_mono (work_completes h (returnWork_plain i) (exec_tret h)) fun g ⟨q, ends⟩ =>
    ⟨fun bad => ?_, fun k => returns h ready ends, q.kept⟩
  refine finish_subgroupParked h (returnWork_plain i) rfl rfl rising_laneFates mem_returnTraps (fun e mem => ?_) bad ends
  obtain ⟨k, listed, found⟩ := List.mem_filterMap.mp mem
  exact returnTrap_lane found ▸ act_subset_lanes h k listed

end

/-! ### Writes of team registers (05 R105, 21 R393) -/

theorem lowLane_eq (i : In) : lowLane i = i.act.headD 0 := List.headD_eq_head?_getD.symm

/-- Each write of the table is one access of the chunk with its registers. -/
theorem exec_teamWrite {ins : Instr} {f : Form} {regs : In → List (Nat × Word)} (op : TeamWrite ins f regs) {s : State}
    {i : In} (h : GroupIssues s f i) : exec ins s = .next (finish i (setTeamRegs i (regs i) (issueWork i))) := by
  cases op with
  | setkey | setstrm | sethnd =>
    simp only [← lowLane_eq]
    exact groupOnly_next h _
  | wrst sw n y =>
    refine (groupOnly_next h _).trans ?_
    rw [setTeamRegs]
    cases act : i.act with
    | nil => rfl
    | cons l rest => simp only [act, List.headD_cons]; rfl

theorem teamWrite_leaves {i : In} {regs : List (Nat × Word)} (active : i.act ≠ [])
    (room : signatureRoom i [] (regs.map (fun r => teamInput i.t r.1))) :
    LeavesWork i (released i i.act) (regs.map (fun r => Eff.wrst r.1 r.2)) (setTeamRegs i regs (issueWork i)) := by
  rw [setTeamRegs, if_neg (by simpa using active)]
  exact ((access_leaves room).onRegs (releaseSources i i.act)).addEffs _

/-- The group sees the values that its chunk has gained, where each register is named once. -/
theorem teamWrite_viewed {i : In} {ins : Instr} {f : Form} {regs : In → List (Nat × Word)} (op : TeamWrite ins f regs)
    {g : Group} (gain : ChunksGain i g [] [] ((regs i).map (fun r => Eff.wrst r.1 r.2)) []) :
    ∀ r ∈ regs i, viewReg g i.t r.1 = r.2 := by
  intro r mem
  rw [viewReg, gain.effs, applyReg, List.foldl_append]
  cases op with
  | setkey =>
    simp only [List.mem_cons, List.not_mem_nil, or_false] at mem
    rcases mem with rfl | rfl <;> simp
  | setstrm | sethnd | wrst =>
    simp only [List.mem_singleton] at mem
    subst mem
    simp

end Sys2Proof.Machine

namespace Sys2Proof

open Sys2Proof.Machine

/-- Settles O32: the executing lanes have the fate of one trap, which ends their parts. -/
theorem softwareTrapsPark : Obligations.SoftwareTrapsPark := by
  intro ins sw c cause op s i issues active
  have work := issueWork_leaves issues
  have plain := work.setFates_plain i.act (.trap cause (c.setWidth 32)) nofun
  have fates := work.setFates_fates i.act (.trap cause (c.setWidth 32))
  have named (e : Nat × Nat × Word) := fates ▸ mem_trapTable_oneFate (ls := i.act) (c := cause) (a := c.setWidth 32) e
  refine completes_mono (work_completes issues plain (exec_softTrap op issues)) fun g ⟨q, ends⟩ => ⟨?_, fun k hk => ?_, q.kept⟩
  · refine finish_subgroupParked issues plain rfl rfl (fates ▸ rising_oneFate _ _) named (fun e mem => ?_)
      (by simpa [sameTraps] using active) ends
    obtain ⟨k, listed, rfl⟩ := List.mem_map.mp mem
    exact act_subset_lanes issues k listed
  · exact finish_partOver_of_trap plain ends (act_subset_lanes issues k hk)
      (List.mem_map.mpr ⟨_, (named (k, cause, c.setWidth 32)).mpr (List.mem_map.mpr ⟨k, hk, rfl⟩), rfl⟩)

/-- Settles O33: a lane of a TRET has a trap or goes back, and which of the two holds follows from its handler mark and the
return address. -/
theorem trapReturnResumes : Obligations.TrapReturnResumes := by
  intro sw s i issues ready
  have word := tret_completes issues ready
  constructor
  · intro inside legal
    have untrapped : i.act.filterMap (returnTrap i) = [] := by
      refine List.filterMap_eq_nil_iff.mpr fun k hk => ?_
      simp [returnTrap, inside k hk, legal]
    rw [untrapped] at word
    exact completes_mono word fun g ⟨_, back, kept⟩ => ⟨fun k hk => back k hk (by simp), kept⟩
  · intro back bad trapped
    refine completes_mono word fun g ⟨parked, sent, kept⟩ => ⟨parked trapped, fun k hk free => ?_, kept⟩
    obtain ⟨stands, left, -⟩ := sent k hk free
    exact ⟨stands, left⟩

/-- Settles O34: the writes are one access of the chunk; without an executing lane there is none. -/
theorem teamRegisterWritesWait : Obligations.TeamRegisterWritesWait := by
  intro ins f regs op s i issues
  have meaning := exec_teamWrite op issues
  refine ⟨fun active room => ?_, fun idle => ?_⟩
  · refine completes_mono ((teamWrite_leaves active room).completes issues meaning) fun g left => ?_
    obtain ⟨gain, files, specials⟩ := left.released
    exact ⟨gain, teamWrite_viewed op gain, files, specials⟩
  · rw [setTeamRegs, if_pos (by simp [idle])] at meaning
    refine completes_mono (work_completes issues (issueWork_plain issues) meaning) fun g ⟨q, _⟩ => ?_
    obtain ⟨files, chunks, specials⟩ := q.kept
    exact ⟨chunks, files, specials⟩

end Sys2Proof
end

section
/-! SUPPORT. The state after reset (24 R442, R443). -/

namespace Sys2Proof.Machine

open Sys2Proof

/-- A table with one entry for each of some keys. -/
theorem tget_map_keys {α : Type} (f : Nat → α) (ks : List Nat) (k : Nat) :
    tget (ks.map (fun j => (j, f j))) k = if k ∈ ks then some (f k) else none := by
  induction ks with
  | nil => rfl
  | cons j rest ih =>
    rw [List.map_cons, tget, ih]
    by_cases same : j = k
    · simp [same]
    · simp [same, Ne.symm same]

theorem tgetD_map_upto {α : Type} (f : Nat → α) {n k : Nat} (below : k < n) (d : α) :
    tgetD ((upto n).map (fun j => (j, f j))) k d = f k := by
  rw [tgetD, tget_map_keys, if_pos (show k ∈ upto n from List.mem_range.mpr below), Option.getD_some]

end Sys2Proof.Machine

namespace Sys2Proof

open Sys2Proof.Machine

/-- Settles O58: reset fills the tables of cores and lattices, and leaves everything else empty. -/
theorem resetState : Obligations.ResetState := by
  have cores (c : Nat) (below : c < 16) : tgetD State.reset.dev.cores c [] = List.range 64 :=
    tgetD_map_upto (fun _ => upto 64) below []
  have lats (k : Nat) (below : k < 1024) : tgetD State.reset.dev.lats k [] = [0, 1] := by
    have table : State.reset.dev.lats = (upto 1024).map (fun k => (k, [0, 1])) := by rw [State.reset]
    rw [table]
    exact tgetD_map_upto (fun _ => [0, 1]) below []
  have erased : Erased State.reset :=
    ⟨⟨rfl, rfl, rfl, rfl, rfl⟩, ⟨rfl, rfl, rfl, rfl, rfl⟩, ⟨rfl, rfl, rfl, rfl, rfl, rfl, rfl⟩, rfl⟩
  exact ⟨rfl, rfl, rfl, rfl, cores, lats, rfl, rfl, erased, fun _ => ⟨rfl, rfl, rfl, rfl⟩, rfl, rfl, rfl, rfl⟩

end Sys2Proof
end

section
/-! SUPPORT. Sampling: the order of logits, what one request does, and the requests of a word in the order of their lanes
(16 R319-R323). -/

namespace Sys2Proof.Machine

open Sys2Proof

/-! ### Stable sorting -/

section

variable {α : Type} (lt : α → α → Bool) (place : α → Nat)

/-- `a` may stand before `b` in a list that is sorted by `lt`, with equal entries in the order of their places. -/
def MayPrecede (a b : α) : Prop := lt b a = false ∧ (lt a b = true ∨ place a < place b)

theorem insertBy_perm (a : α) (l : List α) : (insertBy lt a l).Perm (a :: l) := by
  induction l with
  | nil => exact .refl _
  | cons b rest ih =>
    rw [insertBy]
    split
    · exact .refl _
    · exact (ih.cons b).trans (.swap a b rest)

theorem sortBy_append (l : List α) (a : α) : sortBy lt (l ++ [a]) = insertBy lt a (sortBy lt l) := by
  rw [sortBy, List.foldl_append]
  rfl

theorem sortBy_perm (l : List α) : (sortBy lt l).Perm l := by
  induction l using List.reverseRecOn with
  | nil => exact .refl _
  | append_singleton l a ih =>
    rw [sortBy_append]
    exact (insertBy_perm lt a _).trans ((ih.cons a).trans (List.perm_append_singleton a l).symm)

variable {lt place} {P : α → Prop} (asymm : ∀ x y, P x → P y → lt x y = true → lt y x = false)
  (below : ∀ x y z, P x → P y → P z → lt x y = true → lt z y = false → lt x z = true)

include asymm below

theorem insertBy_sorted {a : α} {l : List α} (sorted : l.Pairwise (MayPrecede lt place)) (ha : P a) (hl : ∀ x ∈ l, P x)
    (last : ∀ x ∈ l, place x < place a) : (insertBy lt a l).Pairwise (MayPrecede lt place) := by
  induction l with
  | nil => exact List.pairwise_singleton _ _
  | cons b rest ih =>
    obtain ⟨first, tail⟩ := List.pairwise_cons.mp sorted
    obtain ⟨hb, hrest⟩ := List.forall_mem_cons.mp hl
    obtain ⟨lastB, lastRest⟩ := List.forall_mem_cons.mp last
    rw [insertBy]
    split
    case isTrue lower =>
      refine List.pairwise_cons.mpr ⟨List.forall_mem_cons.mpr ⟨⟨asymm a b ha hb lower, .inl lower⟩, fun x mem => ?_⟩, sorted⟩
      have lowest := below a b x ha hb (hrest x mem) lower (first x mem).1
      exact ⟨asymm a x ha (hrest x mem) lowest, .inl lowest⟩
    case isFalse notLower =>
      refine List.pairwise_cons.mpr ⟨fun x mem => ?_, ih tail hrest lastRest⟩
      rcases List.mem_cons.mp ((insertBy_perm lt a rest).mem_iff.mp mem) with rfl | old
      · exact ⟨Bool.not_eq_true _ ▸ notLower, .inr lastB⟩
      · exact first x old

/-- Sorting keeps equal entries in the order of rising places. -/
theorem sortBy_sorted {l : List α} (rising : l.Pairwise (fun a b => place a < place b)) (hl : ∀ x ∈ l, P x) :
    (sortBy lt l).Pairwise (MayPrecede lt place) := by
  induction l using List.reverseRecOn with
  | nil => exact .nil
  | append_singleton l a ih =>
    obtain ⟨before, -, last⟩ := List.pairwise_append.mp rising
    have hold (x : α) (mem : x ∈ sortBy lt l) := (sortBy_perm lt l).mem_iff.mp mem
    rw [sortBy_append]
    exact insertBy_sorted asymm below (ih before fun x mem => hl x (by simp [mem])) (hl a (by simp))
      (fun x mem => hl x (by simp [hold x mem])) fun x mem => last x (hold x mem) a (by simp)

end

/-! ### The order of logits (16 R320) -/

/-- The value of a code that is no NaN. -/
def IsLogit (v : Fp) : Prop := ∃ w, orderedCode w = true ∧ v = fpOf w

theorem isLogit_lowest : IsLogit (.inf true) := ⟨0xFF800000#32, by decide, by decide⟩

theorem isLogit_logitsOf (ws : List Word) : ∀ v ∈ logitsOf ws, IsLogit v := by
  intro v mem
  obtain ⟨w, -, rfl⟩ := List.mem_map.mp mem
  split
  · exact isLogit_lowest
  · next number => exact ⟨w, by simpa [isNan_fpOf] using number, rfl⟩

theorem fpLt_asymm {x y : Fp} (hx : IsLogit x) (hy : IsLogit y) (h : fpLt x y = true) : fpLt y x = false := by
  obtain ⟨a, ha, rfl⟩ := hx
  obtain ⟨b, hb, rfl⟩ := hy
  simp only [fpLt_fpOf, ha, hb, decide_eq_true_eq, decide_eq_false_iff_not] at h ⊢
  omega

theorem fpLt_of_fpLt_of_not {x y z : Fp} (hx : IsLogit x) (hy : IsLogit y) (hz : IsLogit z) (h : fpLt y x = true)
    (up : fpLt y z = false) : fpLt z x = true := by
  obtain ⟨a, ha, rfl⟩ := hx
  obtain ⟨b, hb, rfl⟩ := hy
  obtain ⟨c, hc, rfl⟩ := hz
  simp only [fpLt_fpOf, ha, hb, hc, decide_eq_true_eq, decide_eq_false_iff_not] at h up ⊢
  omega

theorem lowest_of_not_above {v : Fp} (hv : IsLogit v) (h : fpLt (.inf true) v = false) : v = .inf true := by
  cases v with
  | nan =>
    obtain ⟨w, number, value⟩ := hv
    have ordered := isNan_fpOf w
    rw [← value, number] at ordered
    cases ordered
  | inf n => cases n with
    | true => rfl
    | false => cases h
  | fin => cases h

section

variable {ls : List Fp} (logits : ∀ v ∈ ls, IsLogit v)

/-- The sorted indices. -/
def sigma (ls : List Fp) : List Nat := (sigmaOf ls).map (·.1)

theorem sigmaOf_perm (ls : List Fp) : (sigmaOf ls).Perm ((upto ls.length).map (fun k => (k, ls.getD k (.inf true)))) :=
  sortBy_perm _ _

theorem sigmaOf_value {e : Nat × Fp} (h : e ∈ sigmaOf ls) : e.2 = ls.getD e.1 (.inf true) := by
  obtain ⟨k, -, rfl⟩ := List.mem_map.mp ((sigmaOf_perm ls).mem_iff.mp h)
  rfl

theorem sigma_perm (ls : List Fp) : (sigma ls).Perm (upto ls.length) := by
  have places := (sigmaOf_perm ls).map Prod.fst
  rw [List.map_map] at places
  exact places.trans (.of_eq (List.map_id _))

theorem length_sigma (ls : List Fp) : (sigma ls).length = ls.length := (sigma_perm ls).length_eq.trans List.length_range

theorem length_sigmaOf (ls : List Fp) : (sigmaOf ls).length = ls.length := by simpa [sigma] using length_sigma ls

theorem sigma_lt {k : Nat} (h : k ∈ sigma ls) : k < ls.length := List.mem_range.mp ((sigma_perm ls).mem_iff.mp h)

include logits

theorem isLogit_getD (k : Nat) : IsLogit (ls.getD k (.inf true)) := by
  rw [List.getD_eq_getElem?_getD]
  cases found : ls[k]? with
  | none => exact isLogit_lowest
  | some v => exact logits v (List.mem_of_getElem? found)

theorem sigmaOf_sorted : (sigmaOf ls).Pairwise (MayPrecede (fun a b : Nat × Fp => fpLt b.2 a.2) (·.1)) := by
  refine sortBy_sorted (P := fun e : Nat × Fp => IsLogit e.2) (fun x y hx hy => fpLt_asymm hy hx)
    (fun x y z hx hy hz => fpLt_of_fpLt_of_not hx hy hz) ?_ ?_
  · exact List.pairwise_map.mpr List.pairwise_lt_range
  · intro e mem
    obtain ⟨k, -, rfl⟩ := List.mem_map.mp mem
    exact isLogit_getD logits k

theorem sigma_order : LogitOrder ls (sigma ls) := by
  refine ⟨sigma_perm ls, List.pairwise_map.mpr ((sigmaOf_sorted logits).imp_of_mem fun {a b} ha hb known => ?_)⟩
  rw [← sigmaOf_value ha, ← sigmaOf_value hb]
  exact known

/-- The first logit of the order is minus infinity only where every logit is. -/
theorem all_lowest {e : Nat × Fp} {rest : List (Nat × Fp)} (sorted : sigmaOf ls = e :: rest) :
    e.2 = .inf true ↔ ∀ v ∈ ls, v = .inf true := by
  constructor
  · intro lowest v mem
    obtain ⟨k, hk, rfl⟩ := List.mem_iff_getElem.mp mem
    have listed : (k, ls[k]) ∈ sigmaOf ls := by
      refine (sigmaOf_perm ls).mem_iff.mpr (List.mem_map.mpr ⟨k, List.mem_range.mpr hk, ?_⟩)
      rw [List.getD_eq_getElem _ _ hk]
    have order := sigmaOf_sorted logits
    rw [sorted] at listed order
    rcases List.mem_cons.mp listed with rfl | later
    · exact lowest
    · exact lowest_of_not_above (logits _ mem) (lowest ▸ ((List.pairwise_cons.mp order).1 _ later).1)
  · intro all
    rw [sigmaOf_value (sorted ▸ List.mem_cons_self ..), List.getD_eq_getElem?_getD]
    cases found : ls[e.1]? with
    | none => rfl
    | some v => exact all v (List.mem_of_getElem? found)

end

/-! ### The words of a record and of logits -/

theorem bytesWords_eq (n : Nat) (bs : List Byte) (full : bs.length = 4 * n) :
    bytesWords n bs = (upto n).map (fun j => wordAt j bs) := by
  induction n generalizing bs with
  | zero => rfl
  | succ n ih =>
    have some : bs.isEmpty = false := by
      rw [List.isEmpty_eq_false_iff]
      exact List.ne_nil_of_length_pos (by omega)
    have rest := ih (bs.drop 4) (by rw [List.length_drop]; omega)
    rw [bytesWords, groupsOf, some, if_neg (by decide), List.map_cons, ← bytesWords, rest,
      show upto (n + 1) = 0 :: (upto n).map (· + 1) from List.range_succ_eq_map, List.map_cons,
      List.map_map]
    congr 1
    refine List.map_congr_left fun j _ => ?_
    simp only [Function.comp_apply, wordAt, List.drop_drop]
    congr 3
    omega

/-! ### Comparisons with zero -/

theorem scaled_zero (n : Bool) (e e0 : Int) : scaled n 0 e e0 = 0 := by
  cases n <;> simp [scaled]

theorem scaled_neg_iff (n : Bool) (m : Nat) (e e0 : Int) : scaled n m e e0 < 0 ↔ n = true ∧ 0 < m := by
  have some : 0 < m * 2 ^ (e - e0).toNat ↔ 0 < m := Nat.mul_pos_iff_of_pos_right (Nat.two_pow_pos _)
  simp only [scaled]
  generalize m * 2 ^ (e - e0).toNat = k at some
  cases n <;> simp [some]

theorem scaled_pos_iff (n : Bool) (m : Nat) (e e0 : Int) : 0 < scaled n m e e0 ↔ n = false ∧ 0 < m := by
  have some : 0 < m * 2 ^ (e - e0).toNat ↔ 0 < m := Nat.mul_pos_iff_of_pos_right (Nat.two_pow_pos _)
  simp only [scaled]
  generalize m * 2 ^ (e - e0).toNat = k at some
  cases n <;> simp [some]

/-- Every exponent of a zero compares alike. -/
theorem fpLt_zero (x : Fp) (a b : Int) : fpLt x (.fin false 0 a) = fpLt x (.fin false 0 b) := by
  cases x with
  | fin n m e => simp only [fpLt, scaled_zero, scaled_neg_iff]
  | _ => rfl

theorem zero_fpLt (x : Fp) (a b : Int) : fpLt (.fin false 0 a) x = fpLt (.fin false 0 b) x := by
  cases x with
  | fin n m e => simp only [fpLt, scaled_zero, scaled_pos_iff]
  | _ => rfl

theorem fpLt_fpOf_zero (x : Fp) : fpLt x (fpOf 0#32) = fpLt x (.fin false 0 0) := fpLt_zero x _ _

theorem fpEq_fpOf_zero (x : Fp) : fpEq x (fpOf 0#32) = fpEq x (.fin false 0 0) := by
  rw [fpEq, fpEq, fpLt_fpOf_zero, show fpOf 0#32 = .fin false 0 (-149) by decide, zero_fpLt x (-149) 0]
  rfl

/-! ### One request (16 R320-R323) -/

theorem topLimit_eq (r : SampRec) : topLimit r = if r.topK = 0 ∨ r.n < r.topK then r.n else r.topK := by
  simp only [topLimit, Bool.or_eq_true, decide_eq_true_eq, gt_iff_lt]

theorem topLimit_bounds {r : SampRec} (some : 0 < r.n) : 0 < topLimit r ∧ topLimit r ≤ r.n := by
  rw [topLimit_eq]
  split <;> omega

/-- The draw chooses one of the first indices of the order. -/
theorem sampPick_chooses (u : Word) (r : SampRec) {ls : List Fp} (positive : 0 < topLimit r) (enough : topLimit r ≤ ls.length) :
    ∃ j v, j < topLimit r ∧ (sigma ls)[j]? = some v ∧ sampPick u r (sigmaOf ls) = v := by
  have chosen {n : Nat} (p : Nat → Bool) (hn : 0 < n ∧ n ≤ topLimit r) :
      ((upto n).find? p).getD (n - 1) < topLimit r := by
    cases found : (upto n).find? p with
    | none => rw [Option.getD_none]; omega
    | some j =>
      have := List.mem_range.mp (List.mem_of_find?_eq_some found)
      rw [Option.getD_some]
      omega
  have limited (p : Nat → Bool) : 0 < (((upto (topLimit r)).find? p).map (fun j => j + 1)).getD (topLimit r) ∧
      (((upto (topLimit r)).find? p).map (fun j => j + 1)).getD (topLimit r) ≤ topLimit r := by
    cases found : (upto (topLimit r)).find? p with
    | none => exact ⟨positive, le_rfl⟩
    | some j =>
      have := List.mem_range.mp (List.mem_of_find?_eq_some found)
      simp only [Option.map_some, Option.getD_some]
      omega
  have index {j : Nat} (hj : j < topLimit r) : ∃ v, (sigma ls)[j]? = some v ∧
      (((sigmaOf ls)[j]?).map (·.1)).getD 0 = v := by
    have inside : j < (sigmaOf ls).length := by rw [length_sigmaOf]; omega
    exact ⟨(sigmaOf ls)[j].1, by simp [sigma, inside], by simp [inside]⟩
  unfold sampPick
  dsimp only
  split
  · obtain ⟨v, found, same⟩ := index (chosen _ ⟨positive, le_rfl⟩)
    exact ⟨_, v, chosen _ ⟨positive, le_rfl⟩, found, same⟩
  · obtain ⟨v, found, same⟩ := index (chosen _ (limited _))
    exact ⟨_, v, chosen _ (limited _), found, same⟩

/-- What SAMPLE answers for the temperature t (16 R321). -/
theorem sampleValue_cases (i : In) (r : SampRec) {ls : List Fp} (logits : ∀ v ∈ ls, IsLogit v) (some : 0 < r.n)
    (full : ls.length = r.n) :
    let invalid := isNan (fpOf r.temp) = true ∨ fpLt (fpOf r.temp) (fpOf 0#32) = true
    (invalid → sampleValue i r ls = (0xFFFFFFFF#32, [(27, 1)], true)) ∧
    (¬invalid → (∀ v ∈ ls, v = .inf true) → sampleValue i r ls = (0#32, [(26, 1)], false)) ∧
    (¬invalid → ¬(∀ v ∈ ls, v = .inf true) → fpEq (fpOf r.temp) (fpOf 0#32) = true →
      sampleValue i r ls = (BitVec.ofNat 32 ((sigma ls).headD 0), [], false)) ∧
    (¬invalid → ¬(∀ v ∈ ls, v = .inf true) → fpEq (fpOf r.temp) (fpOf 0#32) = false →
      ∃ j v, j < topLimit r ∧ (sigma ls)[j]? = Option.some v ∧ sampleValue i r ls = (BitVec.ofNat 32 v, [], false)) := by
  have long : (sigmaOf ls).length = r.n := (length_sigmaOf ls).trans full
  obtain ⟨e, rest, sorted⟩ := List.exists_cons_of_ne_nil (List.ne_nil_of_length_pos (long ▸ some))
  have head : (sigma ls).headD 0 = e.1 := by rw [sigma, sorted]; rfl
  have lowest : (e.2 == .inf true) = true ↔ ∀ v ∈ ls, v = .inf true := by rw [beq_iff_eq, all_lowest logits sorted]
  obtain ⟨positive, bound⟩ := topLimit_bounds some
  simp only [fpLt_fpOf_zero, fpEq_fpOf_zero, ← lowest, head, Bool.not_eq_true]
  refine ⟨fun invalid => ?_, fun valid low => ?_, fun valid high zero => ?_, fun valid high nonzero => ?_⟩ <;>
    unfold sampleValue <;> simp only [sorted, List.head?_cons, Option.getD_some]
  · rw [if_pos (by simpa using invalid)]
  · rw [if_neg (by simpa using valid), if_pos low]
  · rw [if_neg (by simpa using valid), high, if_neg (by decide), if_pos zero]
  · obtain ⟨j, v, hj, found, same⟩ := sampPick_chooses (unifOf (teamChx i (viewReg i.g i.t 2) r.ctr)) r positive
      (bound.trans full.ge)
    refine ⟨j, v, hj, found, ?_⟩
    rw [if_neg (by simpa using valid), high, if_neg (by decide), nonzero, if_neg (by decide), ← sorted, same]

/-- What a request does that passes no check of its record or of n (16 R320). -/
theorem sampDoes_trap (e : Nat × Word) (reads : List Nat) :
    SampDoes { trap := some e, reads := reads } (some e) 0 [] none := ⟨rfl, nofun, rfl⟩

theorem sampDoes_value {n : Nat} (fits : n < 2 ^ 32) (counts : List (Nat × Nat)) (reads writes : List Nat)
    (store : Option (Nat × List Byte)) :
    SampDoes { val := BitVec.ofNat 32 n, counts := counts, reads := reads, writes := writes, store := store } none n
      counts store :=
  ⟨rfl, fun _ => ⟨by simpa using Nat.mod_eq_of_lt fits, rfl⟩, rfl⟩

section

variable {i : In} {h : Group} {kind : SampKind} {l rp lp : Nat}

theorem sigma_headD (ls : List Fp) : (sigma ls).headD 0 = ((sigmaOf ls).head?.map (·.1)).getD 0 := by
  rw [sigma]
  cases sigmaOf ls <;> rfl

theorem sigma_headD_lt {ls : List Fp} (some : 0 < ls.length) : (sigma ls).headD 0 < ls.length := by
  obtain ⟨k, rest, sorted⟩ := List.exists_cons_of_ne_nil (List.ne_nil_of_length_pos ((length_sigma ls).symm ▸ some))
  refine sigma_lt (?_ : (sigma ls).headD 0 ∈ sigma ls)
  rw [sorted]
  exact List.mem_cons_self ..

/-- A request whose record and logits pass their checks is served as its kind says. -/
theorem sampRequest_served (record : checkLocal i.s i.t i.l (yVal i l) 32 32 = .ok rp)
    (positive : 0 < (sampRec (lmemBytes i.s h rp 32)).n) (bound : (sampRec (lmemBytes i.s h rp 32)).n ≤ 262144)
    (logits : checkLocal i.s i.t i.l (xVal i l) (4 * (sampRec (lmemBytes i.s h rp 32)).n) 4 = .ok lp) :
    SampServed i h kind l (sampRequest i h kind l) (fun j => wordAt j (viewBytes i.s.lmem (ownStores h) rp 32)) lp := by
  unfold SampServed
  intro n ws ls nans c k
  have inRange : ((sampRec (lmemBytes i.s h rp 32)).n = 0 || decide ((sampRec (lmemBytes i.s h rp 32)).n > 262144)) = false := by
    simp only [Bool.or_eq_false_iff, decide_eq_false_iff_not]
    omega
  have words : bytesWords (sampRec (lmemBytes i.s h rp 32)).n
      (lmemBytes i.s h lp (4 * (sampRec (lmemBytes i.s h rp 32)).n)) = ws := bytesWords_eq n _ (length_viewBytes ..)
  have limit : topLimit (sampRec (lmemBytes i.s h rp 32)) = k := topLimit_eq _
  have full : ls.length = n := by simp [ls, ws, upto]
  have numbers : ∀ v ∈ ls, IsLogit v := isLogit_logitsOf ws
  have first := sigma_headD_lt (full ▸ positive : 0 < ls.length)
  obtain ⟨low, high⟩ := topLimit_bounds positive
  let lines := lineInputs (yVal i l).toNat 32 ++ lineInputs (xVal i l).toNat (4 * n)
  refine ⟨sigma ls, sigma_order numbers, ?_⟩
  cases kind with
  | argmax =>
    have request : sampRequest i h .argmax l =
        { val := BitVec.ofNat 32 ((sigma ls).headD 0), counts := c, reads := lines } := by
      simp only [sampRequest, record, inRange, logits, words, sigma_headD]
      rfl
    rw [request]
    exact sampDoes_value (by omega) ..
  | topk =>
    dsimp only
    refine ⟨fun e bad => ?_, fun p ok => ?_⟩
    · have request : sampRequest i h .topk l = { trap := some e, reads := lineInputs (yVal i l).toNat 32 } := by
        have bad : checkLocal i.s i.t i.l (sampRec (lmemBytes i.s h rp 32)).out (4 * min k 64) 4 = .error e := bad
        simp only [sampRequest, record, inRange, logits, limit, bad]
        rfl
      rw [request]
      exact sampDoes_trap ..
    · have request : sampRequest i h .topk l =
          { val := BitVec.ofNat 32 (min k 64), counts := c, reads := lines,
            writes := lineInputs (sampRec (lmemBytes i.s h rp 32)).out.toNat (4 * min k 64),
            store := some (p, ((sigma ls).take (min k 64)).flatMap (natLE 4)) } := by
        have indices : ((sigma ls).take (min k 64)).flatMap (natLE 4) = ((sigmaOf ls).take (min k 64)).flatMap (fun e => natLE 4 e.1) := by
          rw [sigma, ← List.map_take, List.flatMap_map]
        have ok : checkLocal i.s i.t i.l (sampRec (lmemBytes i.s h rp 32)).out (4 * min k 64) 4 = .ok p := ok
        simp only [sampRequest, record, inRange, logits, words, limit, ok, indices]
        rfl
      rw [request]
      exact sampDoes_value (by omega) ..
  | sample =>
    dsimp only
    obtain ⟨invalid, empty, zero, drawn⟩ := sampleValue_cases i (sampRec (lmemBytes i.s h rp 32)) numbers positive full
    have request {v : Word × List (Nat × Nat) × Bool} (value : sampleValue i (sampRec (lmemBytes i.s h rp 32)) ls = v) :
        sampRequest i h .sample l =
          if v.2.2 && (viewReg i.g i.t 4).getLsbD 0 && !(laneAt i.g.regs l).quiet then { trap := some (7, 0#32), reads := lines }
          else { val := v.1, counts := c ++ v.2.1, reads := lines } := by
      rw [← value]
      simp only [sampRequest, record, inRange, logits, words]
      rfl
    have counted {v : Nat} (fits : v < 2 ^ 32) {counts : List (Nat × Nat)}
        (value : sampleValue i (sampRec (lmemBytes i.s h rp 32)) ls = (BitVec.ofNat 32 v, counts, false)) :
        SampDoes (sampRequest i h .sample l) none v (c ++ counts) none := by
      rw [request value]
      exact sampDoes_value fits ..
    have plain {v : Nat} (fits : v < 2 ^ 32)
        (value : sampleValue i (sampRec (lmemBytes i.s h rp 32)) ls = (BitVec.ofNat 32 v, [], false)) :
        SampDoes (sampRequest i h .sample l) none v c none := by
      simpa only [List.append_nil] using counted fits value
    refine ⟨fun bad ⟨enabled, loud⟩ => ?_, fun bad quiet => ?_, fun valid low => ?_, fun valid high atZero => ?_,
      fun valid high warm => ?_⟩
    · rw [request (invalid bad), enabled, loud]
      exact sampDoes_trap ..
    · have silent : ((viewReg i.g i.t 4).getLsbD 0 && !(laneAt i.g.regs l).quiet) = false := by
        simpa only [Bool.and_eq_false_iff, Bool.not_eq_false', not_and_or, Bool.not_eq_true, Bool.not_eq_false] using quiet
      rw [request (invalid bad), Bool.true_and, silent]
      exact sampDoes_value (by decide) ..
    · exact counted (by decide) (empty valid low)
    · exact plain (by omega) (zero valid high atZero)
    · obtain ⟨j, v, hj, found, value⟩ := drawn valid high warm
      have inside := sigma_lt (List.mem_of_getElem? found)
      exact ⟨j, v, limit ▸ hj, found, plain (by omega) value⟩

end

/-- A request does what the checks of its record, of n and of its logits say (16 R320). -/
theorem sampRequest_answers (i : In) (h : Group) (kind : SampKind) (l : Nat) :
    SampAnswers i h kind l (sampRequest i h kind l) := by
  refine ⟨fun e bad => ?_, fun rp record => ⟨fun outside => ?_, fun positive bound => ⟨fun e bad => ?_, fun lp logits => ?_⟩⟩⟩
  · rw [sampRequest, bad]
    exact ⟨rfl, nofun, rfl⟩
  · have range : ((sampRec (lmemBytes i.s h rp 32)).n = 0 || decide ((sampRec (lmemBytes i.s h rp 32)).n > 262144)) = true := by
      simp only [Bool.or_eq_true, decide_eq_true_eq]
      exact outside
    simp only [sampRequest, record, range, if_true]
    exact sampDoes_value (by decide) ..
  · have range : ((sampRec (lmemBytes i.s h rp 32)).n = 0 || decide ((sampRec (lmemBytes i.s h rp 32)).n > 262144)) = false := by
      simp only [Bool.or_eq_false_iff, decide_eq_false_iff_not]
      exact ⟨positive.ne', Nat.not_lt.mpr bound⟩
    have bad : checkLocal i.s i.t i.l (xVal i l) (4 * (sampRec (lmemBytes i.s h rp 32)).n) 4 = .error e := bad
    simp only [sampRequest, record, range, bad]
    exact sampDoes_trap ..
  · exact sampRequest_served record positive bound logits

/-! ### The requests of a word, in the order of its lanes (16 R319) -/

section

variable (i : In) (kind : SampKind)

/-- The request of one more lane, and the view after its store. -/
def serveLane (acc : List (Nat × SampOut) × Group) (l : Nat) : List (Nat × SampOut) × Group :=
  let o := sampRequest i acc.2 kind l
  let g := match o.store with
    | some st => { acc.2 with cur := acc.2.cur.map (fun c => chunkStore c st.1 st.2) }
    | none => acc.2
  (acc.1 ++ [(l, o)], g)

/-- The requests of some lanes, and the view after them. -/
def served (ls : List Nat) : List (Nat × SampOut) × Group := ls.foldl (serveLane i kind) ([], i.g)

/-- The stores of requests, newest first. -/
def requestStores (rs : List (Nat × SampOut)) : List (Nat × List Byte) := rs.filterMap (fun e => e.2.store)

/-- The bytes that stores leave, newest first. -/
def cellsOf (sts : List (Nat × List Byte)) : List Host.Cell := (sts.map (fun e => storedCells e.1 e.2)).reverse.flatten

/-- The dirty bits that stores set, newest first. -/
def dirtOf (sts : List (Nat × List Byte)) : List TagStore := (sts.map (fun e => dirtyTags e.1 e.2.length)).reverse.flatten

variable {i kind}

theorem served_append (ls : List Nat) (l : Nat) : served i kind (ls ++ [l]) = serveLane i kind (served i kind ls) l := by
  rw [served, List.foldl_append]
  rfl

theorem served_lanes (ls : List Nat) : (served i kind ls).1.map (·.1) = ls := by
  induction ls using List.reverseRecOn with
  | nil => rfl
  | append_singleton ls l ih =>
    rw [served_append, serveLane, List.map_append, ih]
    rfl

theorem length_served (ls : List Nat) : (served i kind ls).1.length = ls.length := by
  rw [← List.length_map (f := (·.1)), served_lanes]

/-- The requests of more lanes come after those of the first ones. -/
theorem served_prefix (ls more : List Nat) : (served i kind ls).1 <+: (served i kind (ls ++ more)).1 := by
  induction more using List.reverseRecOn with
  | nil => rw [List.append_nil]
  | append_singleton more l ih =>
    rw [← List.append_assoc, served_append]
    exact ih.trans (List.prefix_append _ _)

theorem served_take (ls more : List Nat) : (served i kind (ls ++ more)).1.take ls.length = (served i kind ls).1 := by
  rw [← length_served (i := i) (kind := kind) ls]
  exact (List.prefix_iff_eq_take.mp (served_prefix ls more)).symm

/-- The request of a lane sees the view after those of the lanes before it. -/
theorem served_lane (below : List Nat) (l : Nat) (above : List Nat) :
    (served i kind (below ++ l :: above)).1[below.length]? = some (l, sampRequest i (served i kind below).2 kind l) := by
  have first : (served i kind (below ++ [l])).1[below.length]? = some (l, sampRequest i (served i kind below).2 kind l) := by
    rw [served_append, serveLane, List.getElem?_append_right (length_served below).le, length_served, Nat.sub_self]
    rfl
  have order := served_prefix (i := i) (kind := kind) (below ++ [l]) above
  rw [List.append_assoc, List.singleton_append] at order
  obtain ⟨rest, whole⟩ := order
  rw [← whole, List.getElem?_append_left (by rw [length_served]; simp), first]

theorem chunkStore_eq (c : Chunk) (p : Nat) (bs : List Byte) :
    chunkStore c p bs = chunkGain (storedCells p bs) (dirtyTags p bs.length) c := rfl

/-- A store after others. -/
theorem chunkGain_append (sts : List (Nat × List Byte)) (st : Nat × List Byte) (c : Chunk) :
    chunkStore (chunkGain (cellsOf sts) (dirtOf sts) c) st.1 st.2 =
      chunkGain (cellsOf (sts ++ [st])) (dirtOf (sts ++ [st])) c := by
  simp [chunkStore_eq, chunkGain, cellsOf, dirtOf]

theorem chunkGain_none (c : Chunk) : chunkGain (cellsOf []) (dirtOf []) c = c := rfl

/-- The view after some requests: the chunk holds their stores. -/
theorem served_view {c : Chunk} (opened : i.g.cur = some c) (ls : List Nat) : (served i kind ls).2 =
    { i.g with cur := some (chunkGain (cellsOf (requestStores (served i kind ls).1))
        (dirtOf (requestStores (served i kind ls).1)) c) } := by
  induction ls using List.reverseRecOn with
  | nil =>
    rw [served, List.foldl_nil, requestStores, List.filterMap_nil, chunkGain_none, ← opened]
  | append_singleton ls l ih =>
    rw [served_append]
    simp only [serveLane, requestStores, List.filterMap_append] at ih ⊢
    cases store : (sampRequest i (served i kind ls).2 kind l).store with
    | none => simpa [store] using ih
    | some st =>
      simp only [store, List.filterMap_cons, List.filterMap_nil, ← chunkGain_append]
      rw [ih]
      rfl

/-- The requests that perform put their stores into a chunk. -/
theorem sampPut_eq (rs : List (Nat × SampOut)) : sampPut rs =
    chunkGain (cellsOf (requestStores (sampGood rs))) (dirtOf (requestStores (sampGood rs))) := by
  funext c
  rw [sampPut]
  generalize sampGood rs = good
  induction good using List.reverseRecOn with
  | nil => rfl
  | append_singleton good e ih =>
    rw [List.foldl_append, ih, requestStores, requestStores, List.filterMap_append]
    cases store : e.2.store with
    | none => simp [store]
    | some st => simp [store, chunkGain_append]

end

/-! ### The word (16 R319) -/

theorem endIfCut_whole {α : Type} (as : List α) (c : Chunk) : endIfCut as as c = c := by simp [endIfCut]

theorem holdRest_whole {α : Type} (as : List (Nat × α)) (x : Wait) (w : Work) : holdRest as as x w = w := by
  simp [holdRest, setFates]

theorem performing_self {α : Type} {i : In} {as : List α} {fits : List α → Bool} (h : fits as = true) :
    performing i as fits = as := by
  simp [performing, h]

section

variable {ins : Instr} {s : State} {f : Form} {i : In} {r u ls : List Nat} {stores : List Host.Cell} {tags : List TagStore}
  {vs : List (Nat × Word)} {es : List Eff} {fates : Table Fate}

/-- What the work of a word that accesses memory leaves in its group. -/
theorem accessWork_group (room : roomFor i r u (chunkGain stores tags)) {g : Group}
    (q : Quiet (accessWork i r u (chunkGain stores tags) ls vs es fates).g g) :
    VectorsPending i g ls (vs.map (·.1)) ∧ ChunksGain i g stores tags es (resultsOf (released i ls).v 0 vs) ∧
      SpecialsKept i g := by
  obtain ⟨c, c1, hc, entered, performed⟩ := memAccess_room (w := issueWork i) rfl room
  obtain ⟨sameStores, sameTags, sameEffs⟩ := enterAccess_contents entered
  obtain ⟨pending, flights, ⟨fl, group⟩, -, -⟩ :=
    flyAll_vector vs (onRegs (memAccess i (issueWork i) r u (chunkGain stores tags)) (releaseSources i ls))
  simp only [performed] at pending flights group
  have work : (accessWork i r u (chunkGain stores tags) ls vs es fates).g = { i.g with
      regs := { released i ls with v := pendingFile (released i ls).v (vs.map (·.1)) },
      cur := some { chunkGain stores tags c1 with effs := c1.effs ++ es }, flights := fl } := by
    rw [accessWork, performed]
    simp only [addEffs, onChunk]
    rw [group, pending]
    rfl
  have chunk : (chunkGain stores tags c1).stores = stores ++ c.stores ∧ (chunkGain stores tags c1).tags = tags ++ c.tags :=
    ⟨congrArg (stores ++ ·) sameStores, congrArg (tags ++ ·) sameTags⟩
  rw [work] at q
  rw [group] at flights
  exact ⟨q.vectorsPending ⟨rfl, rfl, rfl⟩,
    q.chunksGain (chunksGain_of_chunk hc chunk.1 chunk.2 (congrArg (· ++ es) sameEffs) flights),
    q.specialsKept (releaseSources_special i ls i.g.regs).kept⟩

/-- A word that accesses memory and notes the FP causes of lanes that trap. -/
theorem caused_completes (h : GroupIssues s f i) (room : roomFor i r u (chunkGain stores tags))
    (stay : ∀ e ∈ fates, e.2 ≠ Fate.leave) (causes : Table Nat)
    (meaning : exec ins s =
      .next (finish i { accessWork i r u (chunkGain stores tags) ls vs es fates with causes := causes })) :
    Completes ins s i (fun g => VectorsPending i g ls (vs.map (·.1)) ∧
      ChunksGain i g stores tags es (resultsOf (released i ls).v 0 vs) ∧ SpecialsKept i g) :=
  completes_mono (work_completes h ((accessWork_plain room stay).fated fates causes stay) meaning)
    fun _ ⟨q, _⟩ => accessWork_group (fates := fates) room q

/-- Bytes outside the stores that a word performs read as before. -/
theorem viewByte_of_outside (m : Memory) {sts : List (Nat × List Byte)} {old : List Host.Cell} {a : Nat}
    (outside : ∀ e ∈ sts, a < e.1 ∨ e.1 + e.2.length ≤ a) : viewByte m (cellsOf sts ++ old) a = viewByte m old a := by
  refine viewByte_append_of_outside m fun c mem => ?_
  simp only [cellsOf, List.mem_flatten, List.mem_reverse, List.mem_map] at mem
  obtain ⟨_, ⟨e, listed, rfl⟩, inside⟩ := mem
  have := mem_storedCells inside
  have := outside e listed
  omega

/-- The lanes whose requests trap, and the FP causes that they note. -/
def sampTraps (i : In) (kind : SampKind) : Table (Nat × Word) :=
  (sampRequests i kind).1.filterMap (fun e => e.2.trap.map (fun t => (e.1, t)))

def sampCauses (i : In) (kind : SampKind) : Table Nat :=
  (sampTraps i kind).map (fun e => (e.1, if e.2.1 == 7 then 1 else 0))

theorem trapLanes_of_no_fates {w : Work} (none : w.fates = []) (ts : Table (Nat × Word)) :
    trapLanes w ts = { w with fates := withTraps [] ts } := by
  rw [trapLanes, none]
  rfl

theorem exec_sampling {sw : Bool} {d : BitVec 6} {x y : Src} {kind : SampKind} (op : SampOp ins sw d x y kind)
    (h : GroupIssues s { sw := sw, x := some x, y := some y, v := [d.toNat] } i)
    (room : roomFor i (sampReads i kind (sampRequests i kind).1) (sampWrites (sampRequests i kind).1)
      (chunkGain (cellsOf (sampStores i kind)) (dirtOf (sampStores i kind)))) :
    exec ins s = .next (finish i { accessWork i (sampReads i kind (sampRequests i kind).1)
      (sampWrites (sampRequests i kind).1) (chunkGain (cellsOf (sampStores i kind)) (dirtOf (sampStores i kind)))
      ((performed i kind).map (·.1)) ((performed i kind).map (fun e => (64 * e.1 + d.toNat, e.2.val)))
      ((performed i kind).flatMap (fun e => e.2.counts.map (fun c => Eff.count c.1 c.2))) (withTraps [] (sampTraps i kind))
      with causes := sampCauses i kind }) := by
  have meaning : exec ins s = sampLanes sw d x y s kind := by cases op <;> rfl
  have put : sampPut (sampRequests i kind).1 = chunkGain (cellsOf (sampStores i kind)) (dirtOf (sampStores i kind)) :=
    sampPut_eq _
  have fits := performing_self (i := i) (as := (sampRequests i kind).1)
    (fits := fun rs => accessFits i (sampReads i kind rs) (sampWrites rs) (sampPut rs)) (put ▸ accessFits_room room)
  have lanes (w : Work) (ls : List (Nat × SampOut)) :
      ls.foldl (fun w e => flyOut w 0 (64 * e.1 + d.toNat) e.2.val) w =
        flyAll w 0 (ls.map (fun e => (64 * e.1 + d.toNat, e.2.val))) := by
    rw [flyAll, List.foldl_map]
  have unfated (w : Work) (r u : List Nat) (upd : Chunk → Chunk) (F : GroupCore → GroupCore) (vs : List (Nat × Word))
      (es : List Eff) : (addEffs (flyAll (onRegs (memAccess i w r u upd) F) 0 vs) es).fates = w.fates :=
    (flyAll_fates _ _ _).trans (memAccess_fates ..)
  refine meaning.trans ((groupOnly_next h _).trans ?_)
  simp only [fits, endIfCut_whole, holdRest_whole, lanes, put]
  rw [trapLanes_of_no_fates (unfated ..)]
  rfl

end

end Sys2Proof.Machine

namespace Sys2Proof

open Sys2Proof.Machine

/-- Settles O37: the requests of a word are those of its lanes one by one, each in the view after the stores before it; the
word is one access with their lines, stores and results. -/
theorem samplingServesLanesInOrder : Obligations.SamplingServesLanesInOrder := by
  refine ⟨fun i kind => served_lanes i.act, fun i kind below l above act => ?_, fun ins sw d x y kind op s i issues => ?_⟩
  · have requests : sampRequests i kind = served i kind (below ++ l :: above) := congrArg (served i kind) act
    refine ⟨_, (served i kind below).2, requests ▸ served_lane below l above, sampRequest_answers .., fun opened => ?_⟩
    obtain ⟨c, hc⟩ := Option.isSome_iff_exists.mp opened
    rw [requests, served_take, served_view hc]
    simp [ownStores, ownChunks, hc, chunkGain, cellsOf, requestStores]
  · intro good sts cells tags reads room vs
    have lines : reads ++ (if kind = .sample ∧ reads ≠ [] then keyReads i true else []) =
        sampReads i kind (sampRequests i kind).1 := by
      simp only [sampReads, keyInputs_eq, reads, Bool.and_eq_true, beq_iff_eq, Bool.not_eq_true', ne_eq,
        ← List.isEmpty_iff, Bool.not_eq_true]
    rw [lines] at room
    refine completes_mono (caused_completes issues room (withTraps_stay (fates := []) nofun _) _
      (exec_sampling op issues room)) fun g ⟨pending, gain, specials⟩ => ⟨pending, gain, fun a outside => ?_, specials⟩
    rw [gain.stores]
    exact viewByte_of_outside s.lmem outside

end Sys2Proof
end

section
/-! SUPPORT. Tiles and accumulators: what their bytes and elements are after a change, what a word over them leaves, and the
operations that hold them (17 R325-R339, 02 R44). -/

namespace Sys2Proof.Machine

open Sys2Proof

/-! ### Bytes and elements (17 R325) -/

/-- A table with an entry for those of some keys that have a value. -/
theorem tget_filterMap {α : Type} (val : Nat → Option α) (ks : List Nat) (k : Nat) :
    tget (ks.filterMap (fun j => (val j).map (fun a => (j, a)))) k = if k ∈ ks then val k else none := by
  induction ks with
  | nil => rfl
  | cons j rest ih =>
    cases value : val j with
    | none =>
      rw [List.filterMap_cons_none (by rw [value]; rfl), ih]
      by_cases same : k = j
      · subst same
        simp [value]
      · simp [same]
    | some a =>
      rw [List.filterMap_cons_some (by rw [value]; rfl), tget, ih]
      by_cases same : j = k
      · subst same
        simp [value]
      · simp [same, Ne.symm same]

/-- A table of the bytes below n that are not the default one. -/
theorem tgetD_bytes (f : Nat → Byte) (n k : Nat) (d : Byte) :
    tgetD ((upto n).filterMap (fun j => if f j = d then none else some (j, f j))) k d = if k < n then f k else d := by
  have table : (upto n).filterMap (fun j => if f j = d then none else some (j, f j)) =
      (upto n).filterMap (fun j => (if f j = d then none else some (f j)).map (fun a => (j, a))) :=
    List.filterMap_congr fun j _ => by split <;> rfl
  rw [tgetD, table, tget_filterMap]
  simp only [upto, List.mem_range]
  split
  · split
    case isTrue same => exact same.symm
    case isFalse => rfl
  · rfl

section

variable (c : GroupCore) (n m : Nat) (t : Tile)

theorem tileAt_setTile : tileAt (setTile c n t) m = if m = n then t else tileAt c m := tgetD_tput _ _ _ _ _

theorem tileAt_setTile_self : tileAt (setTile c n t) n = t := (tileAt_setTile c n n t).trans (if_pos rfl)

theorem tileAt_setTile_other {c : GroupCore} {n m : Nat} {t : Tile} (other : m ≠ n) : tileAt (setTile c n t) m = tileAt c m :=
  (tileAt_setTile c n m t).trans (if_neg other)

theorem accElem_setAcc_other {es : List (Nat × Word)} {c : GroupCore} {n m : Nat} (other : m ≠ n) (l e : Nat) :
    accElem (setAcc c n es) m l e = accElem c m l e := by
  simp only [accElem, setAcc, tgetD_tput, if_neg other]

/-- An element that a word writes, always with one value. -/
theorem accElem_setAcc_of_mem {es : List (Nat × Word)} {l e : Nat} {v : Word} (written : 64 * l + e ∈ es.map (·.1))
    (all : ∀ x ∈ es, x.1 = 64 * l + e → x.2 = v) : accElem (setAcc c n es) n l e = v := by
  simp only [accElem, setAcc, tgetD_tput, if_true]
  rw [tgetD, tget_foldl_tput_of_forall (key := fun x : Nat × Word => x.1) (val := fun x => x.2) _ all written]
  rfl

theorem accElem_setAcc_of_not_mem {es : List (Nat × Word)} {l e : Nat} (unwritten : 64 * l + e ∉ es.map (·.1)) :
    accElem (setAcc c n es) n l e = accElem c n l e := by
  simp only [accElem, setAcc, tgetD_tput, if_true]
  rw [tgetD, tget_foldl_tput_of_not_mem (key := fun x : Nat × Word => x.1) (val := fun x => x.2) _ unwritten]
  rfl

end

/-- The elements that a word writes for some accesses: `n` from column `c0` on, in the row of the lane of each. -/
def rowCells {α : Type} (lane : α → Nat) (c0 n : Nat) (val : α → Nat → Word) (xs : List α) : List (Nat × Word) :=
  xs.flatMap (fun x => (upto n).map (fun j => (64 * lane x + c0 + j, val x j)))

section

variable {α : Type} {lane : α → Nat} {c0 n : Nat} {val : α → Nat → Word} {xs : List α}

theorem mem_rowCells {x : Nat × Word} :
    x ∈ rowCells lane c0 n val xs ↔ ∃ y ∈ xs, ∃ j, j < n ∧ (64 * lane y + c0 + j, val y j) = x := by
  simp [rowCells, upto]

theorem accElem_rowCells_of_mem (single : ∀ x ∈ xs, ∀ y ∈ xs, lane x = lane y → val x = val y) (fits : c0 + n ≤ 64)
    (c : GroupCore) (a : Nat) {x : α} (hx : x ∈ xs) {j : Nat} (hj : j < n) :
    accElem (setAcc c a (rowCells lane c0 n val xs)) a (lane x) (c0 + j) = val x j := by
  refine accElem_setAcc_of_mem c a (List.mem_map.mpr ⟨_, mem_rowCells.mpr ⟨x, hx, j, hj, rfl⟩, Nat.add_assoc ..⟩)
    fun e mem same => ?_
  obtain ⟨y, hy, j', hj', rfl⟩ := mem_rowCells.mp mem
  have : lane y = lane x := by simp only at same; omega
  obtain rfl : j' = j := by simp only at same; omega
  rw [single y hy x hx this]

theorem accElem_rowCells_of_not_mem (fits : c0 + n ≤ 64) (c : GroupCore) (a : Nat) {l e : Nat} (he : e < 64)
    (outside : ¬(l ∈ xs.map lane ∧ c0 ≤ e ∧ e < c0 + n)) :
    accElem (setAcc c a (rowCells lane c0 n val xs)) a l e = accElem c a l e := by
  refine accElem_setAcc_of_not_mem c a fun mem => outside ?_
  obtain ⟨x, listed, same⟩ := List.mem_map.mp mem
  obtain ⟨y, hy, j, hj, rfl⟩ := mem_rowCells.mp listed
  simp only at same
  exact ⟨List.mem_map.mpr ⟨y, hy, by omega⟩, by omega, by omega⟩

end

/-! ### What a word over tiles and accumulators leaves -/

/-- The registers and the gain of the chunk that a word leaves in its group, without results. -/
structure TilesLeft (i : In) (r : GroupCore) (stores : List Host.Cell) (tags : List TagStore) (es : List Eff) (g : Group) :
    Prop where
  v : g.regs.v = r.v
  s : g.regs.s = r.s
  p : g.regs.p = r.p
  tiles : g.regs.tiles = r.tiles
  accs : g.regs.accs = r.accs
  rest : restSpecials g.regs = restSpecials r
  gain : ChunksGain i g stores tags es []

section

variable {i : In} {r : GroupCore} {stores : List Host.Cell} {tags : List TagStore} {es : List Eff} {g : Group}

theorem filesKept_nil (v : g.regs.v = i.g.regs.v) (s : g.regs.s = i.g.regs.s) (p : g.regs.p = i.g.regs.p) :
    FilesKept i g [] := by
  constructor <;> rw [released_nil] <;> assumption

theorem TilesLeft.tileAt (h : TilesLeft i r stores tags es g) (n : Nat) : tileAt g.regs n = Machine.tileAt r n := by
  rw [Machine.tileAt, h.tiles, Machine.tileAt]

theorem TilesLeft.accElem (h : TilesLeft i r stores tags es g) (n l e : Nat) :
    accElem g.regs n l e = Machine.accElem r n l e := by
  rw [Machine.accElem, h.accs, Machine.accElem]

/-- A word that changes one tile. -/
theorem TilesLeft.tile {n : Nat} {t : Tile} (h : TilesLeft i (setTile i.g.regs n t) [] [] [] g) :
    Machine.tileAt g.regs n = t ∧ OtherTilesKept i g n ∧ FilesKept i g [] ∧ ChunksKept i g :=
  ⟨(h.tileAt n).trans (tileAt_setTile_self ..), ⟨fun m other => (h.tileAt m).trans (tileAt_setTile_other other), h.accs, h.rest⟩,
    filesKept_nil h.v h.s h.p, h.gain⟩

/-- A word that changes elements of one accumulator. -/
theorem TilesLeft.acc {n : Nat} {cells : List (Nat × Word)} (h : TilesLeft i (setAcc i.g.regs n cells) stores tags es g) :
    OtherAccsKept i g n ∧ FilesKept i g [] :=
  ⟨⟨fun m l e other => (h.accElem m l e).trans (accElem_setAcc_other other l e), h.tiles, h.rest⟩,
    filesKept_nil h.v h.s h.p⟩

/-- The group of a word, whatever it holds, once the word has ended. -/
theorem Quiet.tilesLeft {c c1 : Chunk} {b : List BusyOp} (hc : i.g.cur = some c)
    (q : Quiet { i.g with regs := r, cur := some c1, busy := b } g) (hs : c1.stores = stores ++ c.stores)
    (ht : c1.tags = tags ++ c.tags) (he : c1.effs = c.effs ++ es) : TilesLeft i r stores tags es g := by
  obtain ⟨cause, pc, addr, done, after⟩ := by simpa only [Prod.mk.injEq] using q.trap
  have gain := chunksGain_of_chunk (r := r) (fl := i.g.flights) hc hs ht he (List.append_nil _).symm
  refine ⟨q.v, q.s, q.p, q.tiles, q.accs, ?_, q.chunksGain ⟨gain.stores, gain.tags, gain.effs, gain.flights⟩⟩
  simp only [restSpecials, q.masks, q.unjoined, cause, pc, addr, done, after]

theorem WordLeaves.tilesLeft (h : WordLeaves i r es g) : TilesLeft i r [] [] es g := by
  obtain ⟨cause, pc, addr, done, after⟩ := by simpa only [Prod.mk.injEq] using h.trap
  refine ⟨h.v, h.s, h.p, h.tiles, h.accs, ?_, h.gain⟩
  simp only [restSpecials, h.masks, h.unjoined, cause, pc, addr, done, after]

end

/-! ### Tile words that touch no memory (17 R336, R339) -/

theorem withTiles_free {ts accs : List Nat} {body : In → Work → Work} {i : In} (free : tileBusy i.g ts accs = false)
    (w : Work) : withTiles ts accs false body i w = body i w := by
  rw [withTiles, free]
  rfl

section

variable {ins : Instr} {s : State} {f : Form} {i : In}

/-- A word that changes the registers only. -/
theorem tiles_complete (h : GroupIssues s f i) {ts accs : List Nat} (free : tileBusy i.g ts accs = false)
    (F : In → GroupCore → GroupCore)
    (meaning : exec ins s = groupOnly s f (withTiles ts accs false (fun i w => onRegs w (F i)))) :
    Completes ins s i (TilesLeft i (F i i.g.regs) [] [] []) := by
  have body := meaning.trans (groupOnly_next h _)
  rw [withTiles_free free] at body
  exact completes_mono (((issueWork_leaves h).onRegs (F i)).completes h body) fun g left => left.tilesLeft

end

/-! ### Words read out of an accumulator (17 R336, R339) -/

/-- Vector results and effects enter their lists independently. -/
theorem flyOut_addEffs (w : Work) (es : List Eff) (k : Nat) (v : Word) :
    flyOut (addEffs w es) 0 k v = addEffs (flyOut w 0 k v) es := by
  cases opened : w.g.cur <;> simp [flyOut, addEffs, onChunk, issueResult, opened]

theorem flyAll_addEffs (w : Work) (es : List Eff) (vs : List (Nat × Word)) :
    flyAll (addEffs w es) 0 vs = addEffs (flyAll w 0 vs) es := by
  induction vs generalizing w with
  | nil => rfl
  | cons e rest ih =>
    rw [flyAll, List.foldl_cons, flyOut_addEffs]
    exact ih _

theorem addEffs_addEffs (w : Work) (as bs : List Eff) : addEffs (addEffs w as) bs = addEffs w (as ++ bs) := by
  simp [addEffs, onChunk, Option.map_map, Function.comp_def]

/-- Lanes that one after another leave results and effects. -/
theorem foldl_flyAll {α : Type} (vals : α → List (Nat × Word)) (effs : α → List Eff) (ls : List α) (w : Work) :
    ls.foldl (fun w l => addEffs (flyAll w 0 (vals l)) (effs l)) w =
      addEffs (flyAll w 0 (ls.flatMap vals)) (ls.flatMap effs) := by
  induction ls generalizing w with
  | nil => exact (addEffs_nil w).symm
  | cons l rest ih =>
    rw [List.foldl_cons, ih, flyAll_addEffs, addEffs_addEffs, List.flatMap_cons, List.flatMap_cons, flyAll_append]

section

variable {ins : Instr} {s : State} {f : Form} {i : In}

/-- A word whose lanes only leave results and effects. -/
theorem read_completes (h : GroupIssues s f i) {ts accs : List Nat} (free : tileBusy i.g ts accs = false)
    {body : In → Work → Work} {vs : List (Nat × Word)} {es : List Eff}
    (meaning : exec ins s = groupOnly s f (withTiles ts accs false body))
    (work : body i (issueWork i) = addEffs (flyAll (issueWork i) 0 vs) es) :
    Completes ins s i (fun g => VectorsPending i g [] (vs.map (·.1)) ∧
      ChunksGain i g [] [] es (resultsOf i.g.regs.v 0 vs) ∧ SpecialsKept i g) := by
  have unchanged : onRegs (issueWork i) (releaseSources i []) = issueWork i :=
    congrArg (fun c => onRegs (issueWork i) fun _ => c) (released_nil i)
  have done := late_completes h [] vs es (issueWork i) rfl (issueWork_plain h) (by
    rw [unchanged, meaning, groupOnly_next h, withTiles_free free, work])
  rw [released_nil] at done
  exact done

theorem exec_accRead {hints : Hints} {n : BitVec 4} {vals : In → List (Nat × Word)} {effs : In → List Eff}
    (op : AccReadOp ins hints f n vals effs) (h : GroupIssues s f i) (same : s.issue.hints = hints) :
    ∃ body, exec ins s = groupOnly s f (withTiles [] [n.toNat] false body) ∧
      body i (issueWork i) = addEffs (flyAll (issueWork i) 0 (vals i)) (effs i) := by
  subst same
  cases op with
  | ard sw _ d n q =>
    refine ⟨_, rfl, ?_⟩
    have lane (w : Work) (l : Nat) : (upto 8).foldl (fun w j =>
          flyOut w 0 (64 * l + 8 * d.toNat + j) (accElem i.g.regs n.toNat l (8 * q.toNat + j))) w =
        addEffs (flyAll w 0 ((upto 8).map (fun j =>
          (64 * l + 8 * d.toNat + j, accElem i.g.regs n.toNat l (8 * q.toNat + j))))) [] := by
      rw [addEffs_nil, flyAll, List.foldl_map]
    simp only [lane]
    have quiet : i.lanes.flatMap (fun _ => ([] : List Eff)) = [] := by simp
    rw [foldl_flyAll, quiet]
  | acvb sw _ d n q =>
    refine ⟨_, rfl, ?_⟩
    let value := fun (l k : Nat) => fpConvert .bf16 .rne false (fpOf (accElem i.g.regs n.toNat l (8 * q.toNat + k)))
    have pairs (l : Nat) : (upto 4).flatMap (fun j => outCounts [value l (2 * j + 0), value l (2 * j + 1)]) =
        (upto 8).flatMap (fun j => (value l j).counts.map (fun k => Eff.count k 1)) := by
      simp [upto, List.range_succ, outCounts]
    have lane (w : Work) (l : Nat) : (upto 4).foldl (fun w j => addEffs (flyOut w 0 (64 * l + 4 * d.toNat + j)
          (BitVec.ofNat 32 ((value l (2 * j + 0)).code + 2 ^ 16 * (value l (2 * j + 1)).code)))
          (outCounts [value l (2 * j + 0), value l (2 * j + 1)])) w =
        addEffs (flyAll w 0 ((upto 4).map (fun j => (64 * l + 4 * d.toNat + j,
          BitVec.ofNat 32 ((value l (2 * j)).code + 2 ^ 16 * (value l (2 * j + 1)).code)))))
          ((upto 8).flatMap (fun j => (value l j).counts.map (fun k => Eff.count k 1))) := by
      rw [← pairs, ← List.flatMap_singleton' ((upto 4).map _), List.flatMap_map]
      exact foldl_flyAll (fun j => [(64 * l + 4 * d.toNat + j, _)]) _ (upto 4) w
    have lanes := foldl_flyAll (fun l => (upto 4).map (fun j => (64 * l + 4 * d.toNat + j,
          BitVec.ofNat 32 ((value l (2 * j)).code + 2 ^ 16 * (value l (2 * j + 1)).code))))
        (fun l => (upto 8).flatMap (fun j => (value l j).counts.map (fun k => Eff.count k 1))) i.lanes (issueWork i)
    simp only [← lane] at lanes
    exact lanes
  | acv8 sw _ d n q =>
    refine ⟨_, rfl, ?_⟩
    let out := narrowed i s.issue.hints n q
    have format : (if q.toNat / 8 = 0 then Fmt.e4m3 else Fmt.e5m2) = if q.toNat < 8 then Fmt.e4m3 else Fmt.e5m2 := by
      simp only [Nat.div_eq_zero_iff, OfNat.ofNat_ne_zero, false_or]
    have narrow (l : Nat) : ((upto 8).map (fun j => accElem i.g.regs n.toNat l (8 * (q.toNat % 8) + j))).map (fun v =>
        fpNarrow (if q.toNat / 8 = 0 then Fmt.e4m3 else Fmt.e5m2) .rne (fpOf v) (match auxField s.issue.hints with
          | some a => (readV i.g.regs l a).1.toNat % 256
          | none => 127)) = (upto 8).map (out l) := by
      rw [List.map_map, format]
      rfl
    have lane (w : Work) (l : Nat) : addEffs (flyOut (flyOut w 0 (64 * l + 2 * d.toNat)
          (BitVec.ofNat 32 (leNat (((((upto 8).map (out l)).drop (4 * 0)).take 4).map (fun o => BitVec.ofNat 8 o.code)))))
          0 (64 * l + 2 * d.toNat + 1)
          (BitVec.ofNat 32 (leNat (((((upto 8).map (out l)).drop (4 * 1)).take 4).map (fun o => BitVec.ofNat 8 o.code)))))
          (((upto 8).map (fun j => accElem i.g.regs n.toNat l (8 * (q.toNat % 8) + j))).map amaxEff ++
            outCounts ((upto 8).map (out l))) =
        addEffs (flyAll w 0 ((upto 2).map (fun j => (64 * l + 2 * d.toNat + j,
          BitVec.ofNat 32 (leNat ((upto 4).map (fun b => BitVec.ofNat 8 (out l (4 * j + b)).code)))))))
          ((upto 8).map (fun j => amaxEff (accElem i.g.regs n.toNat l (8 * (q.toNat % 8) + j))) ++
            (upto 8).flatMap (fun j => (out l j).counts.map (fun k => Eff.count k 1))) := by
      rw [List.map_map, outCounts, List.flatMap_map]
      rfl
    have lanes := foldl_flyAll (fun l => (upto 2).map (fun j => (64 * l + 2 * d.toNat + j,
          BitVec.ofNat 32 (leNat ((upto 4).map (fun b => BitVec.ofNat 8 (out l (4 * j + b)).code))))))
        (fun l => (upto 8).map (fun j => amaxEff (accElem i.g.regs n.toNat l (8 * (q.toNat % 8) + j))) ++
            (upto 8).flatMap (fun j => (out l j).counts.map (fun k => Eff.count k 1))) i.lanes (issueWork i)
    simp only [← lane, ← narrow] at lanes
    exact lanes

end

end Sys2Proof.Machine

namespace Sys2Proof

open Sys2Proof.Machine

/-- Settles O38: the words write one tile or one accumulator, or leave the elements that they read outstanding. -/
theorem tileAndAccumulatorRegisters : Obligations.TileAndAccumulatorRegisters := by
  refine ⟨fun sw n s i issues free => ?tzero, fun sw n q s i issues free => ?tmov, fun sw n s i issues free => ?azero,
    fun sw x u n q s i => ?awr, fun ins h f n vals effs op s i same issues free => ?read⟩
  case tzero =>
    refine completes_mono (tiles_complete issues free (fun _ c => setTile c n.toNat {}) rfl) fun g left => ?_
    obtain ⟨tile, kept⟩ := left.tile
    exact ⟨fun k => by rw [tile]; exact ⟨rfl, rfl⟩, kept⟩
  case tmov =>
    exact completes_mono (tiles_complete issues free (fun _ c => setTile c n.toNat (tileAt c q.toNat)) rfl)
      fun g left => left.tile
  case azero =>
    refine completes_mono (tiles_complete issues free (fun _ c => { c with accs := tput c.accs n.toNat [] }) rfl)
      fun g left => ⟨fun l e => ?_, ⟨fun m l e other => ?_, left.tiles, left.rest⟩, filesKept_nil left.v left.s left.p, left.gain⟩
    · rw [left.accElem, accElem, tgetD_tput, if_pos rfl]
      rfl
    · rw [left.accElem, accElem, tgetD_tput, if_neg other, accElem]
  case awr =>
    intro rs issues free
    refine completes_mono (tiles_complete issues free (fun i c => setAcc c n.toNat (rowCells id (8 * q.toNat) 8
      (fun l j => (readV i.g.regs l (8 * x.toNat + j)).1) i.lanes)) rfl) fun g left => ?_
    have columns : 8 * q.toNat + 8 ≤ 64 := by omega
    obtain ⟨others, files⟩ := left.acc
    refine ⟨fun l hl j hj => ?_, fun l e he outside => ?_, others, files, left.gain⟩
    · rw [left.accElem]
      exact accElem_rowCells_of_mem (fun _ _ _ _ same => congrArg _ same) columns _ _ hl hj
    · rw [left.accElem]
      exact accElem_rowCells_of_not_mem columns _ _ he (by rwa [List.map_id])
  case read =>
    obtain ⟨body, meaning, work⟩ := exec_accRead op issues same
    exact read_completes issues free meaning work

end Sys2Proof
end

section
/-! SUPPORT. Words that hold their tiles and accumulators: accesses of local memory by tile words, and MMA (17 R328-R338,
02 R44). -/

namespace Sys2Proof.Machine

open Sys2Proof

/-! ### Holding tiles and accumulators (02 R44) -/

/-- The work of a word over tiles: registers, the gain of the chunk, a hazard, and the A latch of the core (17 R333). -/
def TileWork (i : In) (r : GroupCore) (stores : List Host.Cell) (tags : List TagStore) (es : List Eff) (w : Work) : Prop :=
  ∃ c c1 hazard core, i.g.cur = some c ∧ c1.stores = stores ++ c.stores ∧ c1.tags = tags ++ c.tags ∧
    c1.effs = c.effs ++ es ∧ ({ core with latch := none } : Core) = { tgetD i.s.cores i.g.core {} with latch := none } ∧
    w = { issueWork i with g := { i.g with regs := r, cur := some c1 }, hazard := hazard, core := core }

section

variable {i : In} {r : GroupCore} {stores : List Host.Cell} {tags : List TagStore} {es : List Eff} {w : Work}

theorem memAccess_tileWork {reads writes : List Nat} (room : roomFor i reads writes (chunkGain stores tags)) (hazard : Bool) :
    TileWork i i.g.regs stores tags [] (memAccess i { issueWork i with hazard := hazard } reads writes
      (chunkGain stores tags)) := by
  obtain ⟨c, c1, hc, entered, performed⟩ := memAccess_room (w := { issueWork i with hazard := hazard }) rfl room
  obtain ⟨sameStores, sameTags, sameEffs⟩ := enterAccess_contents entered
  exact ⟨c, chunkGain stores tags c1, hazard, _, hc, congrArg (stores ++ ·) sameStores, congrArg (tags ++ ·) sameTags,
    sameEffs.trans (List.append_nil _).symm, rfl, performed⟩

/-- An access that leaves the contents of the chunk. -/
theorem memAccess_reads {reads writes : List Nat} (room : roomFor i reads writes id) (hazard : Bool) :
    TileWork i i.g.regs [] [] [] (memAccess i { issueWork i with hazard := hazard } reads writes (fun c => c)) :=
  memAccess_tileWork (stores := []) (tags := []) room hazard

theorem LeavesWork.tileWork (h : LeavesWork i r es w) : TileWork i r [] [] es w := by
  obtain ⟨c, c1, hc, hs, ht, he, rfl⟩ := h
  exact ⟨c, c1, _, _, hc, hs, ht, he, rfl, rfl⟩

theorem TileWork.onRegs (h : TileWork i r stores tags es w) (F : GroupCore → GroupCore) :
    TileWork i (F r) stores tags es (Machine.onRegs w F) := by
  obtain ⟨c, c1, hazard, core, hc, hs, ht, he, latched, rfl⟩ := h
  exact ⟨c, c1, hazard, core, hc, hs, ht, he, latched, rfl⟩

theorem TileWork.addEffs (h : TileWork i r stores tags es w) (more : List Eff) :
    TileWork i r stores tags (es ++ more) (Machine.addEffs w more) := by
  obtain ⟨c, c1, hazard, core, hc, hs, ht, he, latched, rfl⟩ := h
  exact ⟨c, { c1 with effs := c1.effs ++ more }, hazard, core, hc, hs, ht, by rw [he, List.append_assoc], latched, rfl⟩

theorem TileWork.withHazard (h : TileWork i r stores tags es w) (hazard : Bool) :
    TileWork i r stores tags es { w with hazard := hazard } := by
  obtain ⟨c, c1, -, core, hc, hs, ht, he, latched, rfl⟩ := h
  exact ⟨c, c1, hazard, core, hc, hs, ht, he, latched, rfl⟩

theorem TileWork.withLatch (h : TileWork i r stores tags es w) (latch : Option ALatch) :
    TileWork i r stores tags es { w with core := { w.core with latch := latch } } := by
  obtain ⟨c, c1, hazard, core, hc, hs, ht, he, latched, rfl⟩ := h
  exact ⟨c, c1, hazard, { core with latch := latch }, hc, hs, ht, he, latched, rfl⟩

end

/-- The end of a word whose core differs. -/
theorem finish_withCore {i : In} {w : Work} (stall : w.stall = false) (retry : w.retry = false) (kill : w.kill = false)
    (c : Core) : finish i { w with core := c } = { finish i w with
      cores := if c = tgetD i.s.cores i.g.core {} then i.s.cores else tput i.s.cores i.g.core c } := by
  simp only [finish, stall, retry, kill, Bool.false_eq_true, if_false]
  rfl

/-- A core that a word puts back differs at most in its latch. -/
theorem latch_cores {cores : Table Core} {n : Nat} {c : Core}
    (latched : ({ c with latch := none } : Core) = { tgetD cores n {} with latch := none }) (k : Nat) :
    ({ tgetD (if c = tgetD cores n {} then cores else tput cores n c) k {} with latch := none } : Core) =
      { tgetD cores k {} with latch := none } := by
  split
  · rfl
  · rw [tgetD_tput]
    split
    case isTrue same => rw [same, latched]
    case isFalse => rfl

section

variable {ins : Instr} {s : State} {f : Form} {i : In} {r : GroupCore} {stores : List Host.Cell} {tags : List TagStore}
  {es : List Eff}

/-- A word that holds its tiles and accumulators until its operation completes. -/
theorem TileWork.holds (h : GroupIssues s f i) {ts accs : List Nat} {body : In → Work → Work}
    (work : TileWork i r stores tags es (body i (issueWork i))) (free : tileBusy i.g ts accs = false)
    (meaning : exec ins s = groupOnly s f (withTiles ts accs true body)) :
    CompletesHolding ins s i ts accs (TilesLeft i r stores tags es) := by
  obtain ⟨c, c1, hazard, core, hc, hs, ht, he, latched, work⟩ := work
  have facts := groupIssues_facts h
  let held : List BusyOp := i.g.busy ++ [{ op := (issueWork i).nextId, tiles := ts, accs := accs }]
  let w : Work := { issueWork i with
    g := { i.g with regs := r, cur := some c1, busy := held }, hazard := hazard, nextId := (issueWork i).nextId + 1 }
  have ends : exec ins s = .next (finish i { w with core := core }) := by
    rw [meaning, groupOnly_next h, withTiles, free, work]
    rfl
  rw [finish_withCore rfl rfl rfl] at ends
  obtain ⟨g, hg, q, outer⟩ := finish_group i w rfl rfl rfl nofun (by rw [facts.teams]; exact facts.team)
    (fun _ _ => rfl) rfl
  exact ⟨_, g, _, ends, hg, q.tilesLeft hc hs ht he, outer.device.trans facts.device,
    fun k => (latch_cores latched k).trans (by rw [facts.cores]),
    fun k other => (outer.groups k other).trans (by rw [facts.groups]),
    fun k n hn => (outer.teams k n hn).trans (by rw [facts.teams]), q.place⟩

end

/-! ### TLD, TSCL and TST (17 R336, R337) -/

section

variable {i : In} {n align p : Nat}

theorem tileRead_work (passes : accessAt i (fun _ => xVal i (i.lanes.headD 0)) n align 0 = some p)
    (room : roomFor i (lineInputs (xVal i (i.lanes.headD 0)).toNat n) [] id) (upd : List Byte → GroupCore → GroupCore) :
    TileWork i (upd (seenBytes i p n) i.g.regs) [] [] [] (tileRead n align upd i (issueWork i)) := by
  have work := (memAccess_reads room (issueWork i).hazard).onRegs (upd (seenBytes i p n))
  rw [tileRead, firstLane, checkLocal_of_accessAt passes]
  exact work

theorem tileWrite_work {bs : List Byte} (passes : accessAt i (fun _ => xVal i (i.lanes.headD 0)) bs.length align 0 = some p)
    (room : roomFor i [] (lineInputs (xVal i (i.lanes.headD 0)).toNat bs.length) (fun c => chunkStore c p bs)) :
    TileWork i i.g.regs (storedCells p bs) (dirtyTags p bs.length) [] (tileWrite bs align i (issueWork i)) := by
  have work := memAccess_tileWork (stores := storedCells p bs) (tags := dirtyTags p bs.length) room (issueWork i).hazard
  rw [tileWrite, firstLane, checkLocal_of_accessAt passes]
  exact work

theorem tileByte_tileData (t : Tile) (f : Nat → Byte) {k : Nat} (hk : k < 2048) :
    tileByte { t with data := tileData f } k = (f k).toNat := by
  rw [tileByte, tileData, tgetD_bytes, if_pos hk]

theorem sideByte_tileSide (t : Tile) (f : Nat → Byte) {k : Nat} (hk : k < 64) :
    sideByte { t with side := tileSide f } k = (f k).toNat := by
  rw [sideByte, tileSide, tgetD_bytes, if_pos hk]

/-- The bytes that TST stores are those of its case. -/
theorem tst_body (n q : Nat) (i : In) (w : Work) : (let t := tileAt i.g.regs n
    if q = 2 then tileWrite ((upto 64).map (fun k => BitVec.ofNat 8 (sideByte t k))) 64 i w
    else tileWrite ((upto 1024).map (fun k => BitVec.ofNat 8 (tileByte t (1024 * q + k)))) 1024 i w) =
      tileWrite (tstBytes i n q) (tstBytes i n q).length i w := by
  unfold tstBytes
  split <;> simp [upto]

/-- Bytes that a word stores nowhere read as before. -/
theorem viewByte_storedCells_of_outside (m : Memory) {p a : Nat} {bs : List Byte} {old : List Host.Cell}
    (outside : a < p ∨ p + bs.length ≤ a) : viewByte m (storedCells p bs ++ old) a = viewByte m old a :=
  viewByte_append_of_outside m fun c mem => by
    have := mem_storedCells mem
    omega

theorem TilesLeft.specialsKept {stores : List Host.Cell} {tags : List TagStore} {es : List Eff} {g : Group}
    (h : TilesLeft i i.g.regs stores tags es g) : FilesKept i g [] ∧ SpecialsKept i g := by
  have rest := h.rest
  simp only [restSpecials, Prod.mk.injEq] at rest
  obtain ⟨masks, unjoined, trap⟩ := rest
  exact ⟨filesKept_nil h.v h.s h.p, h.tiles, h.accs, masks, unjoined, Prod.ext_iff.mpr (by simpa using trap)⟩

end

/-! ### TLDT8 and TLDT16 (17 R338) -/

/-- A table made of a list without two entries of one key. -/
theorem tget_map_single {α β : Type} {key : α → Nat} {val : α → β} {xs : List α}
    (single : ∀ x ∈ xs, ∀ y ∈ xs, key x = key y → x = y) {x : α} (hx : x ∈ xs) :
    tget (xs.map (fun y => (key y, val y))) (key x) = some (val x) := by
  induction xs with
  | nil => cases hx
  | cons y rest ih =>
    rw [List.map_cons, tget]
    split
    case isTrue same => rw [single y (List.mem_cons_self ..) x hx same]
    case isFalse other =>
      refine ih (fun a ha b hb => single a (List.mem_cons_of_mem _ ha) b (List.mem_cons_of_mem _ hb)) ?_
      exact (List.mem_cons.mp hx).resolve_left fun same => other (same ▸ rfl)

theorem tget_map_absent {α β : Type} {key : α → Nat} {val : α → β} {xs : List α} {k : Nat} (absent : k ∉ xs.map key) :
    tget (xs.map (fun y => (key y, val y))) k = none := by
  induction xs with
  | nil => rfl
  | cons y rest ih =>
    rw [List.map_cons, List.mem_cons, not_or] at absent
    rw [List.map_cons, tget, if_neg (Ne.symm absent.1), ih absent.2]

section

variable {r : Shape} {rows k0 c0 : Nat}

theorem mem_blockCells {e : Nat × Nat} : e ∈ blockCells r rows k0 c0 ↔
    ∃ k c, k < rows ∧ c < 64 ∧ tldtAddr r (k0 + k) (c0 + c) = some e.2 ∧ e.1 = 64 * k + c := by
  simp only [blockCells, upto, List.mem_flatMap, List.mem_filterMap, List.mem_range, Option.map_eq_some_iff]
  constructor
  · rintro ⟨k, hk, c, hc, a, found, rfl⟩
    exact ⟨k, c, hk, hc, found, rfl⟩
  · rintro ⟨k, c, hk, hc, found, same⟩
    exact ⟨k, hk, c, hc, e.2, found, by rw [← same]⟩

theorem blockCells_single : ∀ x ∈ blockCells r rows k0 c0, ∀ y ∈ blockCells r rows k0 c0, x.1 = y.1 → x = y := by
  intro x hx y hy same
  obtain ⟨k, c, -, hc, found, hx⟩ := mem_blockCells.mp hx
  obtain ⟨k', c', -, hc', found', hy⟩ := mem_blockCells.mp hy
  obtain rfl : k = k' := by omega
  obtain rfl : c = c' := by omega
  exact Prod.ext same (Option.some.inj (found.symm.trans found'))

theorem blockCells_lt {e : Nat × Nat} (h : e ∈ blockCells r rows k0 c0) : e.1 < 64 * rows := by
  obtain ⟨k, c, hk, hc, -, same⟩ := mem_blockCells.mp h
  omega

end

/-- The bytes of the element at address a, which passes its check. -/
def cellBytes (i : In) (size a : Nat) : List Byte :=
  seenBytes i ((accessAt i (fun _ => BitVec.ofNat 32 a) size size 0).getD 0) size

/-- Byte k of a block: of its element, or 0 outside the tensor. -/
def blockByte (i : In) (size : Nat) (cells : List (Nat × Nat)) (k : Nat) : Byte :=
  (tgetD (cells.map (fun e => (e.1, cellBytes i size e.2))) (k / size) []).getD (k % size) 0#8

section

variable {i : In} {r : Shape} {size rows d n k0 c0 : Nat}

theorem blockByte_of_mem {e : Nat × Nat} (he : e ∈ blockCells r rows k0 c0) {b : Nat} (hb : b < size) :
    blockByte i size (blockCells r rows k0 c0) (size * e.1 + b) = (cellBytes i size e.2).getD b 0#8 := by
  have element : (size * e.1 + b) / size = e.1 := by
    rw [Nat.mul_add_div (by omega), Nat.div_eq_of_lt hb, Nat.add_zero]
  have byte : (size * e.1 + b) % size = b := by rw [Nat.mul_add_mod, Nat.mod_eq_of_lt hb]
  rw [blockByte, element, byte, tgetD, tget_map_single blockCells_single he]
  rfl

theorem blockByte_of_not_mem {k b : Nat} (outside : k ∉ (blockCells r rows k0 c0).map (·.1)) (hb : b < size) :
    blockByte i size (blockCells r rows k0 c0) (size * k + b) = 0#8 := by
  have element : (size * k + b) / size = k := by
    rw [Nat.mul_add_div (by omega), Nat.div_eq_of_lt hb, Nat.add_zero]
  rw [blockByte, element, tgetD, tget_map_absent outside]
  rfl

/-- The elements with their bytes, where all pass their checks. -/
theorem blockValues {cells : List (Nat × Nat)}
    (passes : ∀ e ∈ cells, (accessAt i (fun _ => BitVec.ofNat 32 e.2) size size 0).isSome) :
    let chk := cells.map (fun e => (e, checkLocal i.s i.t i.l (BitVec.ofNat 32 e.2) size size))
    chk.findSome? (fun e => match e.2 with | .error x => some x | .ok _ => none) = none ∧
    chk.filterMap (fun e => match e.2 with
      | .ok p => some (e.1.1, lmemBytes i.s i.g p size)
      | .error _ => none) = cells.map (fun e => (e.1, cellBytes i size e.2)) := by
  have checked (e : Nat × Nat) (mem : e ∈ cells) : ∃ p, checkLocal i.s i.t i.l (BitVec.ofNat 32 e.2) size size = .ok p ∧
      cellBytes i size e.2 = lmemBytes i.s i.g p size := by
    obtain ⟨p, found⟩ := Option.isSome_iff_exists.mp (passes e mem)
    exact ⟨p, checkLocal_of_accessAt found, by rw [cellBytes, found]; rfl⟩
  constructor
  · refine List.findSome?_eq_none_iff.mpr fun x mem => ?_
    obtain ⟨e, listed, rfl⟩ := List.mem_map.mp mem
    obtain ⟨p, ok, -⟩ := checked e listed
    simp only [ok]
  · rw [List.filterMap_map, ← List.filterMap_eq_map]
    refine List.filterMap_congr fun e mem => ?_
    obtain ⟨p, ok, bytes⟩ := checked e mem
    simp only [Function.comp_apply, ok, bytes]

/-- The elements of the block that register d of the lowest lane names in the tensor r. -/
def blockOf (i : In) (r : Shape) (rows d : Nat) : List (Nat × Nat) :=
  blockCells r rows ((readV i.g.regs (i.lanes.headD 0) d).1.toNat % 2 ^ 16)
    ((readV i.g.regs (i.lanes.headD 0) d).1.toNat / 2 ^ 16)

theorem tldtBody_work (shape : handleShape i (xVal i (i.lanes.headD 0)) = some r) (space : r.space = 0)
    (flat : r.dims.getD 2 1 = 1) (single : r.dims.getD 3 1 = 1)
    (type : (size = 1 ∧ r.type ≤ 3) ∨ (size = 2 ∧ (r.type = 4 ∨ r.type = 5)))
    (passes : ∀ e ∈ blockOf i r rows d, (accessAt i (fun _ => BitVec.ofNat 32 e.2) size size 0).isSome)
    (room : roomFor i (slotInput ((xVal i (i.lanes.headD 0)).toNat / 2 ^ 20) ::
      (blockOf i r rows d).flatMap (fun e => lineInputs e.2 size)) [] id) :
    TileWork i (setTile i.g.regs n { tileAt i.g.regs n with data := tileData (blockByte i size (blockOf i r rows d)) })
      [] [] [] (tldtBody size rows d n i (issueWork i)) := by
  have typeOk : (if size = 1 then decide (r.type ≤ 3) else r.type == 4 || r.type == 5) = true := by
    obtain ⟨rfl, low⟩ | ⟨rfl, wide⟩ := type
    · simpa using low
    · simpa using wide
  have legal : (r.space != 0 || r.dims.getD 2 1 != 1 || r.dims.getD 3 1 != 1 ||
      !(if size = 1 then decide (r.type ≤ 3) else r.type == 4 || r.type == 5)) = false := by
    rw [typeOk, space, flat, single]
    rfl
  obtain ⟨none, values⟩ := blockValues passes
  have work := (memAccess_reads room ((issueWork i).hazard || (readV i.g.regs (i.lanes.headD 0) d).2)).onRegs (fun c =>
    setTile c n { tileAt c n with data := tileData (blockByte i size (blockOf i r rows d)) })
  rw [tldtBody]
  simp only [firstLane, shape, legal, Bool.false_eq_true, if_false]
  generalize found : List.findSome? _ _ = trap
  obtain rfl : trap = Option.none := found.symm.trans none
  dsimp only
  generalize read : List.filterMap _ (List.map _ (List.flatMap _ _)) = vals
  obtain rfl := read.symm.trans values
  unfold blockByte blockOf blockCells at work
  unfold blockOf blockCells
  exact work

end

/-! ### ALD and AST (17 R336) -/

section

variable {i : In} {n q : Nat}

theorem passing_single {addr : Nat → Word} {size align : Nat} {x y : Nat × Nat} (hx : x ∈ passing i addr size align)
    (hy : y ∈ passing i addr size align) (same : x.1 = y.1) : x = y := by
  have found := (mem_passing.mp hx).2
  rw [same, (mem_passing.mp hy).2] at found
  exact Prod.ext same (Except.ok.inj found).symm

/-- The work of an ALD. -/
def aldBody (n q : Nat) (i : In) (w : Work) : Work :=
  let c := checkLanes i (fun l => xVal i l) 16 16
  let w1 := memAccess i w (accessLines c.1 16) [] (fun k => k)
  trapLanes (onRegs w1 (fun r => setAcc r n (c.1.flatMap (fun a =>
    let bs := lmemBytes i.s i.g a.2.2 16
    (upto 4).map (fun j => (64 * a.1 + 4 * q + j, wordAt j bs)))))) c.2

/-- The elements that an ALD writes. -/
def aldCells (i : In) (q : Nat) : List (Nat × Word) :=
  rowCells (fun e : Nat × Nat => e.1) (4 * q) 4 (fun e j => wordAt j (seenBytes i e.2 16)) (passing i (xVal i) 16 16)

theorem aldBody_work (pass : failing i (xVal i) 16 16 = [])
    (room : roomFor i (linesAt (xVal i) 16 ((passing i (xVal i) 16 16).map (·.1))) [] id) :
    TileWork i (setAcc i.g.regs n (aldCells i q)) [] [] [] (aldBody n q i (issueWork i)) := by
  have work := (memAccess_reads room (issueWork i).hazard).onRegs (fun r => setAcc r n (aldCells i q))
  rw [← accessLines_accessesOf] at work
  rw [aldBody, checkLanes_passing_failing, pass]
  dsimp only
  rw [accessesOf, List.flatMap_map]
  exact work

/-- The bytes of four elements of a row. -/
def rowBytes (i : In) (n q l : Nat) : List Byte := (upto 4).flatMap (fun j => wordBytes (accElem i.g.regs n l (4 * q + j)))

theorem length_rowBytes (i : In) (n q l : Nat) : (rowBytes i n q l).length = 16 := by
  simp [rowBytes, wordBytes, upto, List.range_succ, length_natLE]

/-- The stores of an AST. -/
def astStores (i : In) (n q : Nat) : List (Nat × List Byte) :=
  (passing i (xVal i) 16 16).map (fun e => (e.2, rowBytes i n q e.1))

theorem foldl_stores (sts : List (Nat × List Byte)) (c : Chunk) :
    sts.foldl (fun c st => chunkStore c st.1 st.2) c = chunkGain (cellsOf sts) (dirtOf sts) c := by
  induction sts using List.reverseRecOn with
  | nil => rfl
  | append_singleton sts st ih =>
    rw [List.foldl_append, ih]
    exact chunkGain_append sts st c

/-- The work of an AST. -/
def astBody (n q : Nat) (i : In) (w : Work) : Work :=
  let c := checkLanes i (fun l => xVal i l) 16 16
  let put := fun as (k : Chunk) => as.foldl (fun k (a : LaneAccess) => chunkStore k a.2.2 (rowBytes i n q a.1)) k
  let now := performing i c.1 (fun as => accessFits i [] (accessLines as 16) (put as))
  let w1 := memAccess i w [] (accessLines now 16) (fun k => endIfCut c.1 now (put now k))
  trapLanes (holdRest c.1 now .ready w1) c.2

theorem astBody_work (pass : failing i (xVal i) 16 16 = [])
    (room : roomFor i [] (linesAt (xVal i) 16 ((passing i (xVal i) 16 16).map (·.1)))
      (chunkGain (cellsOf (astStores i n q)) (dirtOf (astStores i n q)))) :
    TileWork i i.g.regs (cellsOf (astStores i n q)) (dirtOf (astStores i n q)) [] (astBody n q i (issueWork i)) := by
  have put : (fun k : Chunk => (accessesOf (xVal i) (passing i (xVal i) 16 16)).foldl
      (fun k (a : LaneAccess) => chunkStore k a.2.2 (rowBytes i n q a.1)) k) =
        chunkGain (cellsOf (astStores i n q)) (dirtOf (astStores i n q)) := by
    funext c
    rw [← foldl_stores, astStores, accessesOf, List.foldl_map, List.foldl_map]
  rw [← accessLines_accessesOf] at room
  have all := performing_all (as := accessesOf (xVal i) (passing i (xVal i) 16 16)) (i := i)
    (fits := fun as => accessFits i [] (accessLines as 16) (fun k => as.foldl
      (fun k (a : LaneAccess) => chunkStore k a.2.2 (rowBytes i n q a.1)) k)) (put ▸ accessFits_room room)
  have work := memAccess_tileWork room (issueWork i).hazard
  rw [astBody, checkLanes_passing_failing, pass]
  dsimp only
  rw [all]
  simp only [endIfCut_self, holdRest_self]
  rw [put]
  exact work

end

end Sys2Proof.Machine

namespace Sys2Proof

open Sys2Proof.Machine

/-- A word that holds its tiles leaves at least what it leaves. -/
theorem holding_mono {ins : Instr} {s : State} {i : In} {ts accs : List Nat} {P Q : Group → Prop}
    (h : CompletesHolding ins s i ts accs P) (hPQ : ∀ g, P g → Q g) : CompletesHolding ins s i ts accs Q := by
  obtain ⟨t, g, op, meaning, found, holds, rest⟩ := h
  exact ⟨t, g, op, meaning, found, hPQ g holds, rest⟩

/-- Settles O39: each word makes one access, changes its tile or accumulator or enters its bytes, and holds what it names. -/
theorem tileMemoryWords : Obligations.TileMemoryWords := by
  refine ⟨fun sw x n s i p issues free => ?once, fun ins sw d x n size rows op s i r issues free => ?block,
    fun sw x n q s i issues free pass => ?rows⟩
  case once =>
    refine ⟨fun passes room => ?tld, fun passes room => ?tscl, fun q small => ?tst⟩
    case tld =>
      refine holding_mono ((tileRead_work passes room (fun bs c =>
        setTile c n.toNat { tileAt c n.toNat with data := tileData (fun k => bs.getD k 0#8) })).holds issues free rfl)
        fun g left => ?_
      obtain ⟨tile, kept⟩ := left.tile
      exact ⟨fun k hk => by rw [tile, tileByte_tileData _ _ hk], by rw [tile], kept⟩
    case tscl =>
      refine holding_mono ((tileRead_work passes room (fun bs c =>
        setTile c n.toNat { tileAt c n.toNat with side := tileSide (fun k => bs.getD k 0#8) })).holds issues free rfl)
        fun g left => ?_
      obtain ⟨tile, kept⟩ := left.tile
      exact ⟨fun k hk => by rw [tile, sideByte_tileSide _ _ hk], by rw [tile], kept⟩
    case tst =>
      intro size passes room
      have work := tileWrite_work passes room
      rw [← tst_body] at work
      refine holding_mono (TileWork.holds issues (body := fun i w => let t := tileAt i.g.regs n.toNat
        if q.toNat = 2 then tileWrite ((upto 64).map (fun k => BitVec.ofNat 8 (sideByte t k))) 64 i w
        else tileWrite ((upto 1024).map (fun k => BitVec.ofNat 8 (tileByte t (1024 * q.toNat + k)))) 1024 i w)
        work free rfl) fun g left => ?_
      obtain ⟨files, specials⟩ := left.specialsKept
      refine ⟨left.gain, fun b outside => ?_, files, specials⟩
      rw [left.gain.stores]
      exact viewByte_storedCells_of_outside s.lmem outside
  case block =>
    intro l0 o cells shape space flat single type passes room
    have work := tldtBody_work (n := n.toNat) shape space flat single type passes room
    have meaning : exec ins s = groupOnly s { sw := sw, x := some x, guarded := false, low := true, t := [n.toNat], v := [d.toNat] }
      (withTiles [n.toNat] [] true (tldtBody size rows d.toNat n.toNat)) := by cases op <;> rfl
    have range : 0 < size ∧ size * (64 * rows) = 2048 := by cases op <;> exact ⟨by decide, rfl⟩
    obtain ⟨positive, whole⟩ := range
    have inside {k b : Nat} (hk : k < 64 * rows) (hb : b < size) : size * k + b < 2048 := by
      have := Nat.mul_le_mul_left size hk
      rw [whole] at this
      rw [Nat.mul_succ] at this
      omega
    refine holding_mono (work.holds issues free meaning) fun g left => ?_
    obtain ⟨tile, kept⟩ := left.tile
    refine ⟨fun e he p b found hb => ?_, fun k b hk hb outside => ?_, by rw [tile], kept⟩
    · rw [tile, tileByte_tileData _ _ (inside (blockCells_lt he) hb)]
      refine congrArg BitVec.toNat ((blockByte_of_mem he hb).trans ?_)
      rw [cellBytes, found, Option.getD_some]
    · rw [← whole, Nat.mul_div_cancel_left _ positive] at hk
      rw [tile, tileByte_tileData _ _ (inside hk hb)]
      exact congrArg BitVec.toNat (blockByte_of_not_mem outside hb)
  case rows =>
    have columns : 4 * q.toNat + 4 ≤ 64 := by omega
    refine ⟨fun room => ?ald, ?ast⟩
    case ald =>
      refine holding_mono ((aldBody_work pass room).holds (body := aldBody n.toNat q.toNat) issues free rfl) fun g left => ?_
      obtain ⟨others, files⟩ := left.acc
      refine ⟨fun e he j hj => ?_, fun l c hc outside => ?_, others, files, left.gain⟩
      · rw [left.accElem]
        exact accElem_rowCells_of_mem (fun a ha b hb same => by rw [passing_single ha hb same]) columns _ _ he hj
      · rw [left.accElem]
        exact accElem_rowCells_of_not_mem columns _ _ hc outside
    case ast =>
      intro row cells tags room
      have stores : cellsOf (astStores i n.toNat q.toNat) = cells := by
        simp only [cellsOf, astStores, List.map_map]
        rfl
      have dirt : dirtOf (astStores i n.toNat q.toNat) = tags := by
        simp only [dirtOf, astStores, List.map_map, Function.comp_def, length_rowBytes]
        rfl
      have work := astBody_work (n := n.toNat) (q := q.toNat) pass (by rw [stores, dirt]; exact room)
      refine holding_mono (work.holds issues free rfl) fun g left => ?_
      obtain ⟨files, specials⟩ := left.specialsKept
      refine ⟨stores ▸ dirt ▸ left.gain, fun b outside => ?_, files, specials⟩
      rw [left.gain.stores]
      refine viewByte_of_outside s.lmem fun st mem => ?_
      obtain ⟨e, listed, rfl⟩ := List.mem_map.mp mem
      rw [length_rowBytes]
      exact outside e listed

end Sys2Proof
end

section
/-! SUPPORT. MMA: the elements of active rows and columns (17 R328-R333). -/

namespace Sys2Proof.Machine

open Sys2Proof

section

variable {i : In} {m : MmaArgs}

/-- The elements of active rows and columns, each with its new bits and its counts. -/
def mmaCells (i : In) (m : MmaArgs) : List (Nat × (Option Word × List Nat)) :=
  (mmaRows i m).flatMap (fun l => (mmaCols i m).map (fun c => (64 * l + c, mmaAt i m l c)))

/-- The elements that an MMA writes. -/
def mmaWrites (i : In) (m : MmaArgs) : List (Nat × Word) :=
  (mmaCells i m).filterMap (fun e => e.2.1.map (fun v => (e.1, v)))

/-- The counts of an MMA. -/
def mmaCounts (i : In) (m : MmaArgs) : List Eff := (mmaCells i m).flatMap (fun e => e.2.2.map (fun k => Eff.count k 1))

theorem mem_mmaWrites {x : Nat × Word} : x ∈ mmaWrites i m ↔
    ∃ l ∈ mmaRows i m, ∃ c ∈ mmaCols i m, x.1 = 64 * l + c ∧ (mmaAt i m l c).1 = some x.2 := by
  simp only [mmaWrites, mmaCells, List.mem_filterMap, List.mem_flatMap, List.mem_map, Option.map_eq_some_iff]
  constructor
  · rintro ⟨_, ⟨l, hl, c, hc, rfl⟩, v, found, rfl⟩
    exact ⟨l, hl, c, hc, rfl, found⟩
  · rintro ⟨l, hl, c, hc, place, found⟩
    exact ⟨_, ⟨l, hl, c, hc, rfl⟩, x.2, found, by rw [← place]⟩

theorem mmaCols_lt {c : Nat} (h : c ∈ mmaCols i m) : c < 64 := List.mem_range.mp (List.mem_filter.mp h).1

/-- An element after an MMA. -/
theorem accElem_mma (r : GroupCore) (l : Nat) {e : Nat} (he : e < 64) :
    accElem (setAcc r m.acc (mmaWrites i m)) m.acc l e = if l ∈ mmaRows i m ∧ e ∈ mmaCols i m then
      (mmaAt i m l e).1.getD (accElem r m.acc l e) else accElem r m.acc l e := by
  have one {x : Nat × Word} (mem : x ∈ mmaWrites i m) (same : x.1 = 64 * l + e) :
      (l ∈ mmaRows i m ∧ e ∈ mmaCols i m) ∧ (mmaAt i m l e).1 = some x.2 := by
    obtain ⟨l', hl, c, hc, place, found⟩ := mem_mmaWrites.mp mem
    have := mmaCols_lt hc
    obtain rfl : l' = l := by omega
    obtain rfl : c = e := by omega
    exact ⟨⟨hl, hc⟩, found⟩
  by_cases written : 64 * l + e ∈ (mmaWrites i m).map (·.1)
  · obtain ⟨x, mem, same⟩ := List.mem_map.mp written
    obtain ⟨active, bits⟩ := one mem same
    rw [if_pos active, bits, Option.getD_some]
    exact accElem_setAcc_of_mem _ _ written fun y hy place =>
      Option.some.inj ((one hy place).2.symm.trans bits)
  · rw [accElem_setAcc_of_not_mem _ _ written]
    split
    case isFalse => rfl
    case isTrue active =>
      cases bits : (mmaAt i m l e).1 with
      | none => rfl
      | some v =>
        exact absurd (List.mem_map.mpr ⟨(64 * l + e, v), mem_mmaWrites.mpr ⟨l, active.1, e, active.2, rfl, bits⟩, rfl⟩) written

theorem mmaBody_work {s : State} {f : Form} (h : GroupIssues s f i)
    (together : (liveLanes i.g.regs).all (fun l => i.lanes.contains l) = true) :
    TileWork i (setAcc i.g.regs m.acc (mmaWrites i m)) [] [] (mmaCounts i m) (mmaBody m i (issueWork i)) := by
  have apart : (liveLanes i.g.regs).any (fun l => !i.lanes.contains l) = false := by
    rw [← Bool.not_eq_true', ← List.not_all_eq_any_not]
    simpa using together
  have work := ((((issueWork_leaves h).tileWork.withHazard ((issueWork i).hazard || (mmaRows i m).any (fun l =>
    ((upto 8).map (fun k => m.base + k) ++ m.scale.toList).any (fun r => (readV i.g.regs l r).2)))).onRegs (fun c =>
      setAcc c m.acc (mmaWrites i m))).addEffs (mmaCounts i m)).withLatch (some (mmaLatch i m))
  rw [mmaBody, apart]
  exact work

end

end Sys2Proof.Machine

namespace Sys2Proof

open Sys2Proof.Machine

/-- Settles O40: an MMA writes the elements of active rows and columns that an accumulation writes, counts and holds. -/
theorem mmaAccumulatesActiveElements : Obligations.MmaAccumulatesActiveElements := by
  intro sw a b t r p c k s i scaled m ts issues together free mask rows cols
  refine holding_mono ((mmaBody_work (m := m) issues together).holds issues free rfl) fun g left => ?_
  obtain ⟨others, files⟩ := left.acc
  have counts : mmaCounts i m = rows.flatMap (fun l => cols.flatMap (fun e => (mmaAt i m l e).2.map (fun n => Eff.count n 1))) := by
    simp only [mmaCounts, mmaCells, List.flatMap_assoc, List.flatMap_map]
    rfl
  exact ⟨fun l e he => (left.accElem a.toNat l e).trans (accElem_mma (m := m) i.g.regs l he), others, files, counts ▸ left.gain⟩

end Sys2Proof
end

section
/-! SUPPORT. Lattice words: loads and stores that wait in their chunk, LRSTC, LSWP, LHLTH and LBRC.SIG (18 R348-R361). -/

namespace Sys2Proof.Machine

open Sys2Proof

section

variable {ins : Instr} {s : State} {q : Seq}

/-- An operation that has one effect waits in an engine chunk that holds it. -/
theorem chunkWaits_of_effect (h : SeqIssues s true q) {reads writes : List Nat} {e : Eff}
    (meaning : exec ins s = .next (engineChunk q reads writes (fun c => { c with effs := [e] }) none)) :
    ChunkWaits ins s q [] [] [e] := by
  simp only [engineChunk, state_of_seqIssues h] at meaning
  set fresh : Chunk := { uid := s.nextId, kind := .engine, endCycle := s.cycle }
  have contents := contents_enterAccess fresh reads writes
  simp only [chunkContents, Prod.mk.injEq] at contents
  obtain ⟨kind, stores, tags, -⟩ := contents
  exact ⟨_, _, seqCompletes_of_setProg (t := { s with nextId := s.nextId + 1 }) h rfl meaning rfl, kind, stores, tags, rfl, rfl⟩

/-! ### Loads and stores (18 R352-R355) -/

theorem latticeLoad_of_passes {fn first count n p : Nat} {a : Word} (passes : operandAt q a n 4 = .ok p) :
    latticeLoad q fn first count a n = engineChunk q (lineInputs a.toNat n) []
      (fun c => { c with effs := [.lat fn first count (mreadN q.s.lmem p n)] }) none := by
  rw [latticeLoad, passes]

theorem latticeStore_of_passes {p : Nat} {a : Word} {bs : List Byte} (passes : operandAt q a bs.length 4 = .ok p) :
    latticeStore q a bs = engineChunk q [] (lineInputs a.toNat bs.length) (fun c => chunkStore c p bs) none := by
  rw [latticeStore, passes]

/-- A bulk transfer of no items goes on. -/
theorem bulk_none (h : SeqIssues s true q) {d x y : BitVec 4} {limit : Nat} {bits : Bool} {act : Seq → Nat → Nat → Word → State}
    (meaning : exec ins s = bulk s d x y limit bits act) (zero : nNum q d = 0) :
    SeqCompletes ins s q (onward q.p) (OnlyEngines s) := by
  have count : (nreg q d.toNat).toNat = 0 := zero
  rw [bulk, seqIssue_next h] at meaning
  simp only [count, if_true, seqDone, state_of_seqIssues h] at meaning
  exact seqCompletes_of_program h meaning

/-- A bulk transfer within its limits acts. -/
theorem bulk_acts (h : SeqIssues s true q) {d x y : BitVec 4} {limit : Nat} {bits : Bool} {act : Seq → Nat → Nat → Word → State}
    (meaning : exec ins s = bulk s d x y limit bits act) (nonzero : nNum q d ≠ 0) (inside : nNum q y + nNum q d ≤ limit)
    (aligned : bits = true → nNum q y % 32 = 0 ∧ nNum q d % 32 = 0) :
    exec ins s = .next (act q (nNum q y) (nNum q d) (nreg q x.toNat)) := by
  have right : (decide (nNum q y + nNum q d > limit) || (bits && (nNum q y % 32 != 0 || nNum q d % 32 != 0))) = false := by
    rw [decide_eq_false (Nat.not_lt.mpr inside), Bool.false_or]
    cases bits with
    | false => rfl
    | true =>
      obtain ⟨first, count⟩ := aligned rfl
      rw [first, count]
      rfl
  rw [meaning, bulk, seqIssue_next h]
  show Host.Outcome.next (if nNum q d = 0 then _ else if _ then _ else _) = _
  rw [if_neg nonzero, if_neg]
  · rfl
  · exact Bool.eq_false_iff.mp right

theorem exec_loadLatOp {d x y : BitVec 4} {fn limit : Nat} {bits : Bool} {bytes : Nat → Nat}
    (op : LoadLatOp ins d x y fn limit bits bytes) (s : State) :
    exec ins s = bulk s d x y limit bits (fun q f n a => latticeLoad q fn f n a (bytes n)) := by
  cases op <;> rfl

theorem exec_storeLatOp {d x y : BitVec 4} {bits : Bool} {bytes : Seq → Nat → Nat → List Byte}
    (op : StoreLatOp ins d x y bits bytes) (s : State) :
    exec ins s = bulk s d x y Config.nodes bits (fun q f n a => latticeStore q a (bytes q f n)) := by
  cases op <;> rfl

theorem exec_paramLatOp {x : BitVec 4} {fn bytes : Nat} (op : ParamLatOp ins x fn bytes) (h : SeqIssues s true q) :
    exec ins s = .next (latticeLoad q fn 0 0 (nreg q x.toNat) bytes) := by
  cases op with
  | lcfg | lkey => exact seqIssue_next h _

/-- A load whose operand passes waits with the bytes that it read. -/
theorem chunkWaits_of_latticeLoad (h : SeqIssues s true q) {fn first count n p : Nat} {a : Word}
    (meaning : exec ins s = .next (latticeLoad q fn first count a n)) (passes : operandAt q a n 4 = .ok p) :
    ChunkWaits ins s q [] [] [.lat fn first count (mreadN s.lmem p n)] := by
  rw [latticeLoad_of_passes passes, state_of_seqIssues h] at meaning
  exact chunkWaits_of_effect h meaning

/-! ### LRSTC, LSWP, LHLTH and LBRC.SIG (18 R353, R356, R358, R361) -/

/-- LSWP with a configuration that may run. -/
theorem exec_lswp {sw : Bool} {d x : BitVec 4} {c : LatCfg} (h : SeqIssues s true q) (cfg : (ownLattice q).2.cfg = some c) :
    exec (.lswp sw d x) s = .next (
      if !c.replay && s.biased.contains (q.core * 2 + (ownLattice q).1) then seqFail q 8
      else
        let p := { q.p with n := tput q.p.n d.toNat (BitVec.ofNat 32 (samePairs c (ownLattice q).2)) }
        if nNum q x = 0 then setProg s q.core q.unit (onward p)
        else setProg s q.core q.unit
          { p with sweeps := nNum q x, swept := 0, shadows := [(s.cycle, takeShadow (ownLattice q).2 (nNum q x))] }) := by
  have meaning : exec (.lswp sw d x) s = .next _ := seqIssue_next h _
  simp only [cfg, state_of_seqIssues h] at meaning
  exact meaning

/-- A record of type 10 enters the ring of its cluster, and nothing else of the device changes. -/
theorem postEvent_ten (s : State) (c source : Nat) (payload : BitVec 128) :
    postEvent s c 10 source payload = setCluster s c { clusterAt s c with
      events := pushEvent (clusterAt s c).events
        { type := 10, source := source, seq := (clusterAt s c).eventSeq, phase := s.chipPhase, payload := payload }
      eventSeq := ((clusterAt s c).eventSeq + 1) % 2 ^ 32 } := rfl

end

end Sys2Proof.Machine

namespace Sys2Proof

open Sys2Proof.Machine

/-- Settles O45: transfers leave their engine chunk, and each other word puts back the program that the statement names or
ends it. -/
theorem latticeWordsLoadStoreAndSweep : Obligations.LatticeWordsLoadStoreAndSweep := by
  unfold Obligations.LatticeWordsLoadStoreAndSweep
  refine ⟨fun ins x fn bytes op s q p issues passes => chunkWaits_of_latticeLoad issues (exec_paramLatOp op issues) passes,
    fun ins d x y fn limit bits bytes op s q issues => ⟨bulk_none issues (exec_loadLatOp op s),
      fun p nonzero inside aligned passes => ?load⟩,
    fun ins d x y bits bytes op s q issues => ⟨bulk_none issues (exec_storeLatOp op s),
      fun p nonzero inside aligned => ?store⟩,
    fun sw x s q issues => ?reset, fun sw d x s q c issues cfg legal => ?sweep, fun sw d x s q issues cfg => ?unset,
    fun sw d x s q c issues cfg physical biased => ?biased, fun sw x y s q p issues threshold nodes passes => ?health,
    fun sw x s q issues => ?signal⟩
  case load =>
    exact chunkWaits_of_latticeLoad issues (bulk_acts issues (exec_loadLatOp op s) nonzero inside aligned) passes
  case store =>
    intro bs passes
    have meaning := bulk_acts issues (exec_storeLatOp op s) nonzero inside aligned
    rw [latticeStore_of_passes passes] at meaning
    exact chunkWaits_of_store issues meaning
  case reset =>
    have meaning : exec (.lrstc sw x) s = .next _ := seqIssue_next issues _
    simp only [state_of_seqIssues issues] at meaning
    refine seqCompletes_of_setProg (t := setLattice s q.core (ownLattice q).1 _) issues rfl meaning
      ⟨?_, fun k other => tget_tput_ne _ _ _ _ other, rfl⟩
    exact tgetD_tput_self ..
  case sweep =>
    intro p
    have meaning := exec_lswp (sw := sw) (d := d) (x := x) issues cfg
    have runs : (!c.replay && s.biased.contains (q.core * 2 + (ownLattice q).1)) = false := by
      obtain replay | fit := legal
      · rw [replay]
        rfl
      · rw [Bool.and_eq_false_iff]
        exact .inr (by simpa using fit)
    rw [runs] at meaning
    simp only [Bool.false_eq_true, if_false] at meaning
    refine ⟨fun zero => ?_, fun nonzero => ⟨[(s.cycle, takeShadow (ownLattice q).2 (nNum q x))], ?_⟩⟩
    · rw [if_pos zero] at meaning
      exact seqCompletes_of_program issues meaning
    · rw [if_neg nonzero] at meaning
      exact seqCompletes_of_program issues meaning
  case unset =>
    have meaning : exec (.lswp sw d x) s = .next _ := seqIssue_next issues _
    simp only [cfg, seqFail_eq issues] at meaning
    exact endsWith_of_endProgram issues meaning
  case biased =>
    have meaning := exec_lswp (sw := sw) (d := d) (x := x) issues cfg
    rw [if_pos (by simp [physical, biased]), seqFail_eq issues] at meaning
    exact endsWith_of_endProgram issues meaning
  case health =>
    have meaning : exec (.lhlth sw x y) s = .next _ := seqIssue_next issues _
    have right : ((nreg q y.toNat).toNat / 2 ^ 13 % 8 != 0 || decide ((nreg q y.toNat).toNat % 2 ^ 13 > Config.nodes)) =
        false := by
      have zero : (nreg q y.toNat).toNat / 2 ^ 13 % 8 = 0 := threshold
      have small : ¬ (nreg q y.toNat).toNat % 2 ^ 13 > Config.nodes := Nat.not_lt.mpr nodes
      rw [zero, decide_eq_false small]
      rfl
    simp only [right, Bool.false_eq_true, if_false, passes, state_of_seqIssues issues] at meaning
    exact seqCompletes_of_program issues meaning
  case signal =>
    have meaning : exec (.lbrcSig sw x) s = .next _ := seqIssue_next issues _
    rw [seqDone, state_of_seqIssues issues, postEvent_ten] at meaning
    refine seqCompletes_of_setProg (t := setCluster s (q.core / 64) _) issues rfl meaning
      ⟨?_, ?_, fun c other => clusterAt_setCluster_ne _ _ _ _ other, rfl, rfl, rfl, rfl, rfl⟩
    · exact congrArg Cluster.events (clusterAt_setCluster_self ..)
    · exact congrArg Cluster.eventSeq (clusterAt_setCluster_self ..)

end Sys2Proof
end

section
/-! SUPPORT. CKPT and RSTOR of a control core: what a request answers at once, and what it waits for (23 R418-R423). -/

namespace Sys2Proof.Machine

open Sys2Proof

section

variable {s : State} {c n : Nat} {p : Part}

/-- What a request makes of the device once it is answered, or waits. -/
def requestEnd (s : State) (c d : Nat) (w : CtlWait) (r : State × Option Nat) : State :=
  match r.2 with
  | some v => answered s r.1 c d (BitVec.ofNat 32 v)
  | none => ctlWaiting s r.1 c w

theorem requestEnd_eq {d : Nat} {w : CtlWait} {r : State × Option Nat} (same : r.1.issue = s.issue) :
    (match r.2 with | some v => ctlDone r.1 c d (BitVec.ofNat 32 v) | none => ctlWait r.1 c w) = requestEnd s c d w r := by
  unfold requestEnd
  cases r.2 with
  | some v => exact ctlDone_eq_answered same ..
  | none => simp only [ctlWait, onCtl, same, ctlWaiting, withCtl, ctlAt]

theorem ckptRequest_issue (s : State) (n : Nat) (p : Part) (m : Nat) (desc : List Byte) (who : CkptWaiter) :
    (ckptRequest s n p m desc who).1.issue = s.issue := by
  simp only [ckptRequest]
  split_ifs
  · rfl
  · rfl
  · rfl
  · split <;> rfl
  · split <;> rfl

theorem restoreRequest_issue (s : State) (n : Nat) (p : Part) (desc : List Byte) (who : CkptWaiter) :
    (restoreRequest s n p desc who).1.issue = s.issue := by
  simp only [restoreRequest]
  split_ifs <;> rfl

theorem ckptBusy_iff (k : Ckpt) : ckptBusy k = true ↔ k.phase = 1 ∨ k.phase = 2 := by simp [ckptBusy]

/-- A launch of the partition has not ended. -/
theorem anyLive_iff : (s.launches.any fun e => e.2.part == n && e.2.phase != .ended) = true ↔
    ∃ e ∈ s.launches, e.2.part = n ∧ e.2.phase ≠ .ended := by simp

/-! ### Requests (23 R421, R423) -/

section

variable {m : Nat} {desc : List Byte} {who : CkptWaiter}

theorem ckptRequest_bad (bad : 2 < m ∨ descFits desc = false) : ckptRequest s n p m desc who = (s, some 3) := by
  have refused : (decide (m > 2) || !descFits desc) = true := by simpa using bad
  simp only [ckptRequest, refused, if_true]

/-- A right request of mode 0 starts a checkpoint, or finds one under way. -/
theorem ckptRequest_start (fits : descFits desc = true) : ckptRequest s n p 0 desc who =
    if ckptBusy p.ckpt then (s, some 2) else
      (withPart s n { p with ckpt := { p.ckpt with phase := 1, desc := desc, starter := some who, waiters := [] } }, none) := by
  simp only [ckptRequest, fits]
  rfl

/-- A right request of mode 1 or 2 asks for the checkpoint's state. -/
theorem ckptRequest_ask (mode : 1 ≤ m ∧ m ≤ 2) (fits : descFits desc = true) : ckptRequest s n p m desc who =
    match p.ckpt.phase with
    | 0 => (s, some 6)
    | 3 => (s, some 0)
    | 4 => (s, some 5)
    | _ => if m = 2 then (s, some 1) else
      (withPart s n { p with ckpt := { p.ckpt with waiters := p.ckpt.waiters ++ [who] } }, none) := by
  have right : (decide (m > 2) || !descFits desc) = false := by simpa [fits] using mode.2
  simp only [ckptRequest, right, Bool.false_eq_true, if_false, Nat.ne_of_gt mode.1]
  rfl

theorem restoreRequest_bad (bad : descFits desc = false) : restoreRequest s n p desc who = (s, some 3) := by
  simp [restoreRequest, bad]

theorem restoreRequest_fits (fits : descFits desc = true) : restoreRequest s n p desc who =
    if p.ckpt.phase = 1 ∨ p.ckpt.phase = 2 ∨ p.ckpt.restoring ≠ none then (s, some 2)
    else if ∃ e ∈ s.launches, e.2.part = n ∧ e.2.phase ≠ .ended then (s, some 9)
    else (withPart s n { p with ckpt := { p.ckpt with restoring := some (who, desc) } }, none) := by
  have busy : (ckptBusy p.ckpt || p.ckpt.restoring.isSome) = true ↔
      p.ckpt.phase = 1 ∨ p.ckpt.phase = 2 ∨ p.ckpt.restoring ≠ none := by
    rw [Bool.or_eq_true, ckptBusy_iff, Option.isSome_iff_ne_none, or_assoc]
  simp only [restoreRequest, fits, Bool.not_true, Bool.false_eq_true, if_false]
  exact if_congr busy rfl (if_congr anyLive_iff rfl rfl)

end

/-! ### The words (23 R418) -/

/-- A descriptor in control memory passes the check of its access. -/
theorem controlFits_desc {x : BitVec 6} (aligned : cNum s c x % 64 = 0) (inside : cNum s c x + 64 ≤ 2 ^ 20) :
    controlFits (ctlReg (ctlAt s c) x.toNat) 64 64 = true := by
  have place : (ctlReg (ctlAt s c) x.toNat).toNat = cNum s c x := rfl
  simp only [controlFits, place, aligned, beq_self_eq_true, Bool.true_and, decide_eq_true_eq]
  exact inside

section

variable (h : CtlIssues s c n) (found : tget s.parts n = some p) (idle : (ctlAt s c).wait = .none) {x : BitVec 6}
  (aligned : cNum s c x % 64 = 0) (inside : cNum s c x + 64 ≤ 2 ^ 20)

include h found idle aligned inside

theorem exec_ckpt (sw : Bool) (d y : BitVec 6) : exec (.ckpt sw d x y) s = .next (requestEnd s c d.toNat
    (if cNum s c y = 0 then .capture d.toNat else .drained d.toNat)
    (ckptRequest s n p (cNum s c y) (mbytes s.cmem (c * 2 ^ 20 + cNum s c x) 64) (.ctl c))) := by
  have meaning : exec (.ckpt sw d x y) s = execCkpt sw d x y s := rfl
  have mode : (ctlReg (ctlAt s c) y.toNat == 0#32) = true ↔ cNum s c y = 0 := by
    rw [beq_iff_eq]
    exact BitVec.toNat_inj.symm
  rw [meaning, execCkpt, ctlOp_acts h]
  simp only [idle, controlFits_desc aligned inside, Bool.not_true, Bool.false_eq_true, if_false, found]
  rw [← requestEnd_eq (ckptRequest_issue ..)]
  simp only [mode]
  rfl

theorem exec_rstor (sw : Bool) (d : BitVec 6) : exec (.rstor sw d x) s = .next (requestEnd s c d.toNat (.restore d.toNat)
    (restoreRequest s n p (mbytes s.cmem (c * 2 ^ 20 + cNum s c x) 64) (.ctl c))) := by
  have meaning : exec (.rstor sw d x) s = execRstor sw d x s := rfl
  rw [meaning, execRstor, ctlOp_acts h]
  simp only [idle, controlFits_desc aligned inside, Bool.not_true, Bool.false_eq_true, if_false, found]
  rw [← requestEnd_eq (restoreRequest_issue ..)]
  rfl

end

end

end Sys2Proof.Machine

namespace Sys2Proof

open Sys2Proof.Machine

/-- Settles O47: each word ends its request, which the descriptor, the mode and the checkpoint's state decide. -/
theorem checkpointWordsAnswerOrWait : Obligations.CheckpointWordsAnswerOrWait := by
  unfold Obligations.CheckpointWordsAnswerOrWait
  refine ⟨fun sw d x y s c n p issues found idle aligned inside => ?ckpt,
    fun sw d x s c n p issues found idle aligned inside => ?rstor⟩
  case ckpt =>
    have meaning := exec_ckpt issues found idle aligned inside sw d y
    intro desc m phase
    change exec _ s = .next (requestEnd s c d.toNat (if m = 0 then _ else _) (ckptRequest s n p m desc (.ctl c))) at meaning
    refine ⟨fun bad => ?_, fun zero fits under => ?_, fun zero fits rests => ?_, fun mode fits settled => ?_,
      fun two fits under => ?_, fun one fits under => ?_⟩
    · rw [meaning, ckptRequest_bad bad]
      rfl
    · rw [meaning, zero, ckptRequest_start fits, if_pos ((ckptBusy_iff _).mpr under)]
      rfl
    · rw [meaning, zero, ckptRequest_start fits, if_neg (mt (ckptBusy_iff _).mp rests)]
      rfl
    · rw [meaning, ckptRequest_ask mode fits]
      change (p.ckpt.phase = 0 ∨ p.ckpt.phase = 3 ∨ p.ckpt.phase = 4) at settled
      show _ = Host.Outcome.next (answered s s c d.toNat (if p.ckpt.phase = 0 then _ else if p.ckpt.phase = 3 then _ else _))
      obtain at0 | at3 | at4 := settled
      · rw [at0]
        rfl
      · rw [at3]
        rfl
      · rw [at4]
        rfl
    · rw [meaning, ckptRequest_ask (by omega) fits, two]
      change (p.ckpt.phase = 1 ∨ p.ckpt.phase = 2) at under
      obtain at1 | at2 := under
      · rw [at1]
        rfl
      · rw [at2]
        rfl
    · rw [meaning, ckptRequest_ask (by omega) fits, one]
      change (p.ckpt.phase = 1 ∨ p.ckpt.phase = 2) at under
      obtain at1 | at2 := under
      · rw [at1]
        rfl
      · rw [at2]
        rfl
  case rstor =>
    have meaning := exec_rstor issues found idle aligned inside sw d
    intro desc busy live
    refine ⟨fun bad => ?_, fun fits under => ?_, fun fits free running => ?_, fun fits free ended => ?_⟩
    · rw [meaning, restoreRequest_bad bad]
      rfl
    · rw [meaning, restoreRequest_fits fits, if_pos under]
      rfl
    · rw [meaning, restoreRequest_fits fits, if_neg free, if_pos running]
      rfl
    · rw [meaning, restoreRequest_fits fits, if_neg free, if_neg ended]
      rfl

end Sys2Proof
end

section
/-! SUPPORT. Strikes and scrubs: what squashes a group, relaunches a gang or loses a word, and what else stays
(23 R408-R417). -/

namespace Sys2Proof.Machine

open Sys2Proof

section

variable {s : State}

/-! ### Detections in a shadow (23 R411) -/

/-- Every group that has no chunk keeps all but its registers. -/
def BareKept (s t : State) : Prop :=
  ∀ k g, tget s.groups k = some g → g.inflight = [] → g.cur = none →
    ∃ h, tget t.groups k = some h ∧ { h with regs := {} } = { g with regs := {} }

theorem BareKept.of_groups {s t : State} (same : t.groups = s.groups) : BareKept s t :=
  fun _ g found _ _ => ⟨g, same ▸ found, rfl⟩

theorem assignWindow_bareKept (s : State) (tid n : Nat) (pick : Park → Bool) : BareKept s (assignWindow s tid n pick) := by
  intro k g found inflight cur
  simp only [assignWindow, tget_tmap, found, Option.map_some]
  refine ⟨_, rfl, ?_⟩
  split
  · simp [mapCores, inflight, cur]
  · rfl

theorem openWindow_bareKept (s : State) (tid : Nat) : BareKept s (openWindow s tid) := by
  unfold openWindow
  split
  · exact .of_groups rfl
  · split
    · exact .of_groups rfl
    · dsimp only
      split
      · exact .of_groups rfl
      · split
        · split <;> exact .of_groups rfl
        · split
          · exact .of_groups rfl
          · exact fun k g found => assignWindow_bareKept (setTeam s tid _) _ _ _ k g found

theorem settleWindow_bareKept (s : State) (tid : Nat) : BareKept s (settleWindow s tid) := by
  unfold settleWindow
  split
  · exact .of_groups rfl
  · dsimp only
    split
    · exact openWindow_bareKept (setTeam ..) tid
    · exact .of_groups rfl

/-- A team whose window is not in service has nothing to settle. -/
theorem settleWindow_of_idle {tid : Nat} (idle : ∀ u, tget s.teams tid = some u → u.fp.service = false) :
    settleWindow s tid = s := by
  unfold settleWindow
  split
  · rfl
  · next t found => simp [idle t found]

/-- The group and the team at the start of the oldest uncommitted chunk of the group. -/
def squashed (s : State) (gid : Nat) (g : Group) (ch : Chunk) (rest : List Chunk) : State :=
  { setGroup s gid { g with
      regs := restoreCore g.regs ch.start, inflight := [], cur := none, running := none, nextQuantum := ch.quantum, busy := [] } with
    teams := tmod s.teams g.team (fun t => bumpTeam t 8 (rest.length + 1)) }

/-- A group with its count of strikes. -/
def struck (s : State) (gid n : Nat) : State := { s with groups := tmod s.groups gid (fun x => { x with strikes := n }) }

section

variable {gid : Nat} {g : Group}

theorem strikeGroup_of_chunks {ch : Chunk} {rest : List Chunk} (found : tget s.groups gid = some g)
    (chunks : g.inflight ++ g.cur.toList = ch :: rest) :
    strikeGroup s gid = struck (settleWindow (squashed s gid g ch rest) g.team) gid (g.strikes + 1) := by
  have holds : ¬(g.inflight.isEmpty && g.cur.isNone) = true := by
    intro empty
    obtain ⟨inflight, cur⟩ := (Bool.and_eq_true_iff ..).mp empty
    rw [List.isEmpty_iff.mp inflight, Option.isNone_iff_eq_none.mp cur] at chunks
    cases chunks
  simp only [strikeGroup, found, if_neg holds, squashGroup, chunks]
  rfl

theorem strikeGroup_of_none (none : ∀ g, tget s.groups gid = some g → g.inflight ++ g.cur.toList = []) :
    strikeGroup s gid = s := by
  unfold strikeGroup
  split
  · rfl
  · next g found =>
    obtain ⟨inflight, cur⟩ := List.append_eq_nil_iff.mp (none g found)
    rw [if_pos (by simpa [inflight] using cur)]

theorem squashed_self {ch : Chunk} {rest : List Chunk} : tget (squashed s gid g ch rest).groups gid = some { g with
    regs := restoreCore g.regs ch.start, inflight := [], cur := none, running := none, nextQuantum := ch.quantum, busy := [] } :=
  tget_tput_self ..

theorem squashed_ne {ch : Chunk} {rest : List Chunk} {k : Nat} (other : k ≠ gid) :
    tget (squashed s gid g ch rest).groups k = tget s.groups k := tget_tput_ne _ _ _ _ other

theorem struck_self {n : Nat} (found : tget s.groups gid = some g) :
    tget (struck s gid n).groups gid = some { g with strikes := n } := by
  rw [struck, tget_tmod, if_pos rfl, found, Option.map_some]

theorem struck_ne {n k : Nat} (other : k ≠ gid) : tget (struck s gid n).groups k = tget s.groups k := by
  rw [struck, tget_tmod, if_neg other]

/-- The service of a window that the squash leaves is that from before. -/
theorem squashed_idle {ch : Chunk} {rest : List Chunk} (idle : ∀ u, tget s.teams g.team = some u → u.fp.service = false) :
    ∀ u, tget (squashed s gid g ch rest).teams g.team = some u → u.fp.service = false := by
  intro u found
  rw [squashed, tget_tmod, if_pos rfl, Option.map_eq_some_iff] at found
  obtain ⟨v, before, rfl⟩ := found
  exact idle v before

end

theorem WindowOnly.regs {s t : State} (h : WindowOnly s t) (k : Nat) :
    (tget t.groups k).map (fun x => withoutTrap x.regs) = (tget s.groups k).map (fun x => withoutTrap x.regs) := by
  cases found : tget s.groups k with
  | none => rw [h.none k found]
  | some g =>
    obtain ⟨g', found', -, regs⟩ := h.some k g found
    rw [found', Option.map_some, Option.map_some, regs]

theorem WindowOnly.memory {s t : State} (h : WindowOnly s t) : t.lmem = s.lmem ∧ t.lbits = s.lbits ∧ t.gmem = s.gmem := by
  have lmem := congrArg State.lmem h.device
  have lbits := congrArg State.lbits h.device
  have gmem := congrArg State.gmem h.device
  exact ⟨lmem, lbits, gmem⟩

/-! ### Relaunches (23 R412, R416) -/

theorem inExchange_iff {l : Launch} : inExchange s l = true ↔ (tget s.parts l.part).map (·.pstate) = some .exchange :=
  beq_iff_eq

theorem revive_launches (s : State) (tid : Nat) : (revive s tid).launches = s.launches := by
  unfold revive
  split <;> rfl

theorem revive_teams {tid k : Nat} (other : k ≠ tid) : tget (revive s tid).teams k = tget s.teams k := by
  unfold revive
  split
  · rfl
  · exact tget_tput_ne _ _ _ _ other

/-- A charge leaves the gangs that a launch has saved. -/
theorem chargeTeam_saved (s : State) (tid lid : Nat) :
    (tget (chargeTeam s tid).launches lid).map (·.saved) = (tget s.launches lid).map (·.saved) := by
  unfold chargeTeam
  split
  · rfl
  · split
    · rfl
    · next t _ l found =>
      simp only [setLaunch, tget_tput]
      split
      case isTrue same => rw [same, found]; rfl
      case isFalse => rfl

theorem killTeam_saved (s : State) (tid lid : Nat) :
    (tget (killTeam s tid false).launches lid).map (·.saved) = (tget s.launches lid).map (·.saved) := by
  unfold killTeam
  split
  · rfl
  · split
    · rfl
    · next t _ _ =>
      rw [← chargeTeam_saved s tid lid]
      simp only [tget_tmod, Bool.false_eq_true, if_false]
      split
      · rw [Option.map_map]; rfl
      · rfl

/-- A kill marks its team, and unmarks none. -/
theorem killTeam_marks {tid k : Nat} {v : Team} (placed : tget s.teams k = some v) :
    ∃ w, tget (killTeam s tid false).teams k = some w ∧ (tid = k ∨ v.killed = true → w.killed = true) ∧ w.relaunch = v.relaunch := by
  unfold killTeam
  split
  case h_1 none =>
    refine ⟨v, placed, fun marked => marked.elim (fun same => ?_) id, rfl⟩
    rw [same, placed] at none
    cases none
  case h_2 t found =>
    split
    case isTrue dead =>
      refine ⟨v, placed, fun marked => marked.elim (fun same => ?_) id, rfl⟩
      rw [same, placed] at found
      cases found
      exact dead
    case isFalse =>
      simp only [tget_tput]
      split
      case isTrue same =>
        rw [same, found] at placed
        cases placed
        exact ⟨_, rfl, fun _ => rfl, rfl⟩
      case isFalse other => exact ⟨v, placed, fun marked => marked.elim (fun same => absurd same.symm other) id, rfl⟩

/-- A team killed for its gang's relaunch. -/
def killForRelaunch (s : State) (tid : Nat) : State :=
  { killTeam s tid false with teams := tmod (killTeam s tid false).teams tid (fun u => { u with relaunch := true }) }

/-- A team that is killed and marked for its gang's relaunch. -/
def Relaunches (v : Team) : Prop := v.killed = true ∧ v.relaunch = true

theorem killForRelaunch_marks {tid k : Nat} {v : Team} (placed : tget s.teams k = some v) :
    ∃ w, tget (killForRelaunch s tid).teams k = some w ∧ (tid = k ∨ Relaunches v → Relaunches w) := by
  obtain ⟨w, found, killed, relaunch⟩ := killTeam_marks (tid := tid) placed
  rw [killForRelaunch, tget_tmod, found]
  split
  case isTrue same => exact ⟨_, rfl, fun _ => ⟨killed (.inl same.symm), rfl⟩⟩
  case isFalse other =>
    refine ⟨w, rfl, fun marked => marked.elim (fun same => absurd same.symm other) fun ⟨dead, again⟩ => ?_⟩
    exact ⟨killed (.inr dead), relaunch.trans again⟩

theorem killAll_marks {k : Nat} (tids : List Nat) {s : State} {v : Team} (placed : tget s.teams k = some v) :
    ∃ w, tget (tids.foldl killForRelaunch s).teams k = some w ∧ (k ∈ tids ∨ Relaunches v → Relaunches w) := by
  induction tids generalizing s v with
  | nil => exact ⟨v, placed, fun marked => marked.resolve_left List.not_mem_nil⟩
  | cons tid tids ih =>
    obtain ⟨u, found, first⟩ := killForRelaunch_marks (tid := tid) placed
    obtain ⟨w, last, marks⟩ := ih found
    refine ⟨w, last, fun marked => marks ?_⟩
    rw [List.mem_cons, or_assoc] at marked
    obtain same | later | before := marked
    · exact .inr (first (.inl same.symm))
    · exact .inl later
    · exact .inr (first (.inr before))

theorem killAll_saved (tids : List Nat) (s : State) (lid : Nat) :
    (tget (tids.foldl killForRelaunch s).launches lid).map (·.saved) = (tget s.launches lid).map (·.saved) :=
  tids.foldlRecOn (motive := fun u : State => (tget u.launches lid).map (·.saved) = (tget s.launches lid).map (·.saved)) _ rfl
    fun _ same _ _ => (killTeam_saved ..).trans same

/-- The device with the retired teams of a gang placed again. -/
def revivedGang (s : State) (lid gang : Nat) : State :=
  (s.retired.filter (fun e => e.2.launch == lid && e.2.gang == gang)).foldl (fun s e => revive s e.1) s

/-- The placed teams of a gang that are not killed. -/
def gangOf (s : State) (lid gang : Nat) : Table Team :=
  s.teams.filter (fun e => e.2.launch == lid && e.2.gang == gang && !e.2.killed)

theorem revivedGang_launches (s : State) (lid gang : Nat) : (revivedGang s lid gang).launches = s.launches :=
  List.foldlRecOn (motive := fun u : State => u.launches = s.launches) _ _ rfl fun _ same _ _ => (revive_launches ..).trans same

theorem revivedGang_teams {lid gang k : Nat} (active : ∀ e ∈ s.retired, k ≠ e.1) :
    tget (revivedGang s lid gang).teams k = tget s.teams k :=
  List.foldlRecOn (motive := fun u : State => tget u.teams k = tget s.teams k) _ _ rfl fun _ same e mem =>
    (revive_teams (active e (List.mem_of_mem_filter mem))).trans same

/-- The device with one more gang saved in a launch. -/
def withSaved (s : State) (lid : Nat) (g : Gang) : State :=
  { s with launches := tmod s.launches lid (fun l => { l with saved := l.saved ++ [g] }) }

theorem withSaved_self {lid : Nat} {g : Gang} {l : Launch} (found : tget s.launches lid = some l) :
    tget (withSaved s lid g).launches lid = some { l with saved := l.saved ++ [g] } := by
  rw [withSaved, tget_tmod, if_pos rfl, found, Option.map_some]

/-- The gang that a relaunch of a team saves. -/
def relaunchedGang (s : State) (u : Team) (avoid : List Nat) : Gang :=
  { index := u.gang, size := u.gangSize, saved := gangOf (revivedGang s u.launch u.gang) u.launch u.gang, relaunch := true
    avoid := avoid }

/-- The device once every team of the gang of a team is killed for the relaunch. -/
def gangKilled (s : State) (u : Team) : State :=
  ((gangOf (revivedGang s u.launch u.gang) u.launch u.gang).map (·.1)).foldl killForRelaunch (revivedGang s u.launch u.gang)

section

variable {tid : Nat} {avoid : List Nat} {u : Team} {l : Launch}

theorem relaunchTeam_eq (named : anyTeam s tid = some u) (launched : tget s.launches u.launch = some l)
    (alive : u.killed = false) : relaunchTeam s tid avoid =
      if inExchange s l then killNow (revive s tid) tid
      else withSaved (gangKilled s u) u.launch (relaunchedGang s u avoid) := by
  simp only [relaunchTeam, named, launched, alive, Bool.false_eq_true, if_false, gangKilled, List.foldl_map]
  rfl

theorem gangKilled_launch (launched : tget s.launches u.launch = some l) :
    ∃ m, tget (gangKilled s u).launches u.launch = some m ∧ m.saved = l.saved := by
  have saved := killAll_saved ((gangOf (revivedGang s u.launch u.gang) u.launch u.gang).map (·.1))
    (revivedGang s u.launch u.gang) u.launch
  rwa [revivedGang_launches, launched, Option.map_some, Option.map_eq_some_iff] at saved

theorem gangKilled_teams (apart : ∀ e ∈ s.retired, tget s.teams e.1 = none) {k : Nat} {v : Team}
    (placed : tget s.teams k = some v) (launch : v.launch = u.launch) (own : v.gang = u.gang) (active : v.killed = false) :
    ∃ w, tget (gangKilled s u).teams k = some w ∧ Relaunches w := by
  have before : tget (revivedGang s u.launch u.gang).teams k = some v := by
    refine (revivedGang_teams fun e mem same => ?_).trans placed
    have gone := apart e mem
    rw [← same, placed] at gone
    cases gone
  have member : k ∈ (gangOf (revivedGang s u.launch u.gang) u.launch u.gang).map (·.1) :=
    List.mem_map.mpr ⟨(k, v), List.mem_filter.mpr ⟨mem_of_tget before, by simp [launch, own, active]⟩, rfl⟩
  obtain ⟨w, found, marks⟩ := killAll_marks _ before
  exact ⟨w, found, marks (.inl member)⟩

/-- A relaunch saves the gang, and kills every team of it. -/
theorem relaunchTeam_saves (named : anyTeam s tid = some u) (launched : tget s.launches u.launch = some l)
    (alive : u.killed = false) (compute : inExchange s l = false) (apart : ∀ e ∈ s.retired, tget s.teams e.1 = none) :
    ∃ m g, tget (relaunchTeam s tid avoid).launches u.launch = some m ∧ m.saved = l.saved ++ [g] ∧ g.index = u.gang ∧
      g.relaunch = true ∧ g.avoid = avoid ∧
      ∀ k v, tget s.teams k = some v → v.launch = u.launch → v.gang = u.gang → v.killed = false →
        ∃ w, tget (relaunchTeam s tid avoid).teams k = some w ∧ Relaunches w := by
  rw [relaunchTeam_eq named launched alive, compute, if_neg Bool.false_ne_true]
  obtain ⟨m, held, same⟩ := gangKilled_launch launched
  exact ⟨_, relaunchedGang s u avoid, withSaved_self held, congrArg (· ++ [relaunchedGang s u avoid]) same, rfl, rfl, rfl,
    fun k v placed launch own active => gangKilled_teams apart placed launch own active⟩

end

/-! ### Words that a scrub finds (23 R412, R417) -/

theorem loseWord_mread {a x : Nat} (other : x / 4 ≠ a / 4) : mread (loseWord s a).gmem x = mread s.gmem x := by
  refine mread_mwrites_ne _ _ _ _ fun inside => other ?_
  rw [length_natLE] at inside
  omega

theorem stopControl_pc (s : State) (c type : Nat) (word off access : Word) :
    (ctlAt (stopControl s c type word off access) c).pc = (ctlAt s c).pc := by
  have cluster : clusterAt (stopControl s c type word off access) c = _ := clusterAt_postEvent _ _ _ _ _
  rw [ctlAt, cluster, clusterAt_setCluster_self]
  rfl

end

end Sys2Proof.Machine
end

section
/-! SUPPORT. The drain of a checkpoint, how an image reads back, and what its restore leaves; recovery events (23 R408-R423). -/

namespace Sys2Proof.Machine

open Sys2Proof

/-- An event of a running device has its effect. -/
theorem next_of_runs {ins : Instr} {s t : State} (runs : deviceRuns s = true)
    (meaning : exec ins s = .next (if deviceRuns s then t else s)) : exec ins s = .next t := by
  rwa [if_pos runs] at meaning

/-! ### Images as they are read back (23 R419, R423) -/

theorem magic_of_headerHolds {b : Byte} {rest : List Byte} (holds : headerHolds (b :: rest) = true) : b = 0x43#8 := by
  simp only [headerHolds, Bool.and_eq_true, beq_iff_eq] at holds
  obtain ⟨⟨⟨magic, -⟩, -⟩, -⟩ := holds
  simp only [byteField, List.drop_zero, List.take_succ_cons, leNat] at magic
  have small := b.isLt
  exact BitVec.eq_of_toNat_eq (by rw [BitVec.toNat_ofNat]; omega)

/-- The header of an image begins with its byte 0. -/
theorem header_cons (byte : Nat → Byte) (n : Nat) : (upto (n + 1)).map byte = byte 0 :: (upto n).map (byte ∘ Nat.succ) := by
  rw [upto, List.range_succ_eq_map, List.map_cons, List.map_map]
  rfl

theorem imageHolds_badMagic (i : Image) {v : Byte} (bad : v ≠ 0x43#8) : imageHolds i [(0, v)] = false := by
  refine Bool.eq_false_iff.mpr fun holds => bad ?_
  simp only [imageHolds, List.isEmpty_cons, Bool.false_eq_true, if_false, Bool.and_eq_true] at holds
  obtain ⟨header, -⟩ := holds
  rw [header_cons (readBack i [(0, v)]) 4095] at header
  exact magic_of_headerHolds header

/-! ### Memory after a restore (23 R423) -/

/-- Cells written one by one, in their order. -/
def writeCells (m : Memory) (cs : List Host.Cell) : Memory := cs.foldl (fun m c => mwrite m c.1 c.2) m

theorem mread_writeCells_of_absent {cs : List Host.Cell} {a : Nat} (absent : ∀ c ∈ cs, c.1 ≠ a) (m : Memory) :
    mread (writeCells m cs) a = mread m a :=
  cs.foldlRecOn (motive := fun u => mread u a = mread m a) _ rfl fun u same c mem =>
    (mread_mwrite_ne u c.1 a c.2 (absent c mem).symm).trans same

/-- The addresses of a memory in canonical form above a bound are above it. -/
theorem lt_of_mem_wfFrom {lo : Nat} {m : Memory} (wf : mwfFrom (some lo) m = true) : ∀ c ∈ m, lo < c.1 := by
  induction m generalizing lo with
  | nil => exact fun c mem => nomatch mem
  | cons c rest ih =>
    obtain ⟨above, -, tail⟩ := mwfFrom_head wf
    exact List.forall_mem_cons.mpr ⟨above lo rfl, fun d mem => (above lo rfl).trans (ih tail d mem)⟩

/-- Where a memory reads 0, it reads the cells of a canonical memory once they are written. -/
theorem mread_writeCells {cs : Memory} {a : Nat} {lo : Option Nat} (canonical : mwfFrom lo cs = true) {m : Memory}
    (wf : Memory.wf m = true) (clear : mread m a = 0#8) : mread (writeCells m cs) a = mread cs a := by
  induction cs generalizing lo m with
  | nil => exact clear
  | cons c rest ih =>
    obtain ⟨b, v⟩ := c
    obtain ⟨-, -, tail⟩ := mwfFrom_head canonical
    by_cases here : b = a
    · subst here
      have absent : ∀ c ∈ rest, c.1 ≠ b := fun c mem => Nat.ne_of_gt (lt_of_mem_wfFrom tail c mem)
      have first : mread (writeCells (mwrite m b v) rest) b = v :=
        (mread_writeCells_of_absent absent _).trans (mread_mwrite_self m b v wf)
      rw [mread, if_pos rfl]
      exact first
    · rw [mread, if_neg here]
      exact ih tail (mwrite_wf m b v wf) ((mread_mwrite_ne m b a v (Ne.symm here)).trans clear)

theorem mread_filter_absent {p : Host.Cell → Bool} {a : Nat} (dropped : ∀ v, p (a, v) = false) (m : Memory) :
    mread (m.filter p) a = 0#8 := by
  induction m with
  | nil => rfl
  | cons c rest ih =>
    obtain ⟨b, v⟩ := c
    rw [List.filter_cons]
    split
    case isTrue kept =>
      have other : b ≠ a := fun same => by rw [same, dropped] at kept; cases kept
      rw [mread, if_neg other, ih]
    case isFalse => exact ih

/-- Whether an address lies in a page of an image's ranges. -/
def inRanges (i : Image) (a : Nat) : Bool := (i.ranges.flatMap (fun r => pagesOf r.base r.len)).contains (a / Config.pageBytes)

theorem inRanges_iff {i : Image} {a : Nat} : inRanges i a = true ↔ ∃ e ∈ i.ranges, a / Config.pageBytes ∈ pagesOf e.base e.len := by
  rw [inRanges, List.contains_iff_mem, List.mem_flatMap]

theorem restoreImage_gmem (s : State) (n : Nat) (p : Part) (i : Image) :
    (restoreImage s n p i).gmem = writeCells (s.gmem.filter (fun c => !inRanges i c.1)) i.bytes := rfl

theorem restoreImage_outside {s : State} {n : Nat} {p : Part} {i : Image} {a : Nat}
    (outside : ∀ e ∈ i.ranges, a / Config.pageBytes ∉ pagesOf e.base e.len) (absent : ∀ c ∈ i.bytes, c.1 ≠ a) :
    mread (restoreImage s n p i).gmem a = mread s.gmem a := by
  have kept : inRanges i a = false :=
    Bool.eq_false_iff.mpr fun inside => (inRanges_iff.mp inside).elim fun e both => outside e both.1 both.2
  rw [restoreImage_gmem, mread_writeCells_of_absent absent]
  exact mread_filter _ _ _ fun v => by simp only [kept, Bool.not_false]

theorem restoreImage_inside {s : State} {n : Nat} {p : Part} {i : Image} {a : Nat} (wf : Memory.wf s.gmem = true)
    (canonical : Memory.wf i.bytes = true) (inside : ∃ e ∈ i.ranges, a / Config.pageBytes ∈ pagesOf e.base e.len) :
    mread (restoreImage s n p i).gmem a = mread i.bytes a := by
  rw [restoreImage_gmem]
  refine mread_writeCells canonical (filter_wf _ _ wf) (mread_filter_absent (fun v => ?_) _)
  simp only [inRanges_iff.mpr inside, Bool.not_true]

/-! ### The drain and RSTOR_COMPLETE (23 R422, R423) -/

section

variable {s : State} {n : Nat} {p : Part} (runs : deviceRuns s = true) (found : tget s.parts n = some p)

include runs

theorem exec_drains : exec (.checkpointDrainEnd n) s = .next (endDrain s n true) ∧
    exec (.checkpointDrainTimeout n) s = .next (endDrain s n false) := by
  have ends : exec (.checkpointDrainEnd n) s = .next (if deviceRuns s then endDrain s n true else s) := rfl
  have stops : exec (.checkpointDrainTimeout n) s = .next (if deviceRuns s then endDrain s n false else s) := rfl
  rw [if_pos runs] at ends stops
  exact ⟨ends, stops⟩

include found

omit runs in
theorem endDrain_draining {i : Image} (draining : p.ckpt.phase = 2) (image : p.ckpt.image = some i) (ok : Bool) :
    endDrain s n ok = answerAll (setCkpt
      (if ok then { s with pool := tput s.pool (descTarget p.ckpt.desc) { i with complete := true } } else s) n
      (fun k => { k with phase := if ok then 3 else 4, image := none, waiters := [] })) p.ckpt.waiters (if ok then 0 else 5) := by
  simp only [endDrain, found, draining, image]

omit runs in
theorem endDrain_idle (idle : p.ckpt.phase ≠ 2) (ok : Bool) : endDrain s n ok = s := by
  unfold endDrain
  rw [found]
  dsimp only
  split
  · next draining _ => exact absurd draining idle
  · rfl

theorem rstorComplete_idle {b : Option (List (Nat × Byte))} (idle : p.ckpt.restoring = none) :
    exec (.rstorComplete n b) s = .next s := by
  have meaning : exec (.rstorComplete n b) s = execRstorComplete n b s := rfl
  simp only [meaning, execRstorComplete, runs, found, idle, Bool.not_true, Bool.false_eq_true, if_false]

/-- A restore that has been read ends as its checks say. -/
theorem rstorComplete_restoring {b : Option (List (Nat × Byte))} {who : CkptWaiter} {desc : List Byte} {t : State} {v : Nat}
    (waits : p.ckpt.restoring = some (who, desc))
    (checks : finishRestore (setCkpt s n (fun k => { k with restoring := none })) n p desc b = (t, v)) :
    exec (.rstorComplete n b) s = .next (answerWaiter t who v) := by
  have meaning : exec (.rstorComplete n b) s = execRstorComplete n b s := rfl
  simp only [meaning, execRstorComplete, runs, found, waits, checks, Bool.not_true, Bool.false_eq_true, if_false]

end

section

variable {s : State} {n : Nat} {p : Part} {desc : List Byte} {changed : List (Nat × Byte)}

theorem finishRestore_live (live : ∃ e ∈ s.launches, e.2.part = n ∧ e.2.phase ≠ .ended) :
    finishRestore s n p desc (some changed) = (s, 9) := if_pos (anyLive_iff.mpr live)

variable (still : ¬∃ e ∈ s.launches, e.2.part = n ∧ e.2.phase ≠ .ended)

include still

theorem finishRestore_lacking (lacks : tget s.pool (descTarget desc) = none ∨
    ∃ i, tget s.pool (descTarget desc) = some i ∧ imageHolds i changed = false) :
    finishRestore s n p desc (some changed) = (s, 7) := by
  rw [finishRestore, if_neg (mt anyLive_iff.mp still)]
  obtain absent | ⟨i, held, broken⟩ := lacks
  · simp only [absent]
  · simp only [held, broken, Bool.not_false, if_true]

variable {i : Image} (held : tget s.pool (descTarget desc) = some i) (whole : imageHolds i changed = true)

include held whole

theorem finishRestore_misfit (misfits : i.clusters ≠ p.clusters.length ∨ rangesMapped s n i = false) :
    finishRestore s n p desc (some changed) = (s, 8) := by
  have mismatch : (i.clusters != p.clusters.length || !rangesMapped s n i) = true := by simpa using misfits
  rw [finishRestore, if_neg (mt anyLive_iff.mp still)]
  simp only [held, whole, mismatch, Bool.not_true, Bool.false_eq_true, if_false, if_true]

theorem finishRestore_fits (clusters : i.clusters = p.clusters.length) (mapped : rangesMapped s n i = true) :
    finishRestore s n p desc (some changed) = (restoreImage s n p { i with bytes := pagesRead i changed }, 0) := by
  have fits : (i.clusters != p.clusters.length || !rangesMapped s n i) = false := by simp [clusters, mapped]
  rw [finishRestore, if_neg (mt anyLive_iff.mp still)]
  simp only [held, whole, fits, Bool.not_true, Bool.false_eq_true, if_false]

end

theorem lateDetection_eq {s : State} {tid : Nat} {u : Team} {l : Launch} (named : anyTeam s tid = some u)
    (launched : tget s.launches u.launch = some l) :
    lateDetection s tid = if inExchange s l then killNow (revive s tid) tid else rollback s tid := by
  simp only [lateDetection, named, Option.bind_some, launched]

end Sys2Proof.Machine

namespace Sys2Proof

open Sys2Proof.Machine

/-- Settles O51: each event does what the lemma about its response says. -/
theorem recoveryEvents : Obligations.RecoveryEvents := by
  unfold Obligations.RecoveryEvents
  refine ⟨fun s c j runs small => ?strike, fun s k runs => ⟨next_of_runs runs rfl, next_of_runs runs rfl, next_of_runs runs rfl⟩, fun s gid g ch rest runs found chunks => ?shadow,
    fun s gid runs bare => ?bare, fun s runs => ⟨next_of_runs runs rfl, _, next_of_runs runs rfl, tgetD_tput_self .., rfl, rfl⟩,
    fun s line runs clean => ?unchanged, fun s line tid runs changed owner => ?owned,
    fun s tid u l runs named launched => ⟨fun exchange => ?lateExchange, fun compute => ?lateCompute⟩,
    fun s tid core u l runs named launched alive => ⟨fun exchange => ?consumedExchange, fun compute apart => ?consumedCompute⟩,
    fun s a runs => ⟨loseWord s a, next_of_runs runs rfl, mem_insertNat.mpr (.inl rfl), fun w => mem_insertNat.mp,
      fun x other => loseWord_mread other, rfl, rfl, rfl, rfl⟩,
    fun s c a runs stopped => ?stopped, fun s c a runs running => ?control,
    fun s tid u runs found => ⟨spoilSnapshot s tid, next_of_runs runs rfl, ?snapshot, rfl, rfl⟩,
    fun s n p i runs found draining image => ?drain, fun s n p runs found idle => ?idle,
    fun s n p b runs found idle => rstorComplete_idle runs found idle,
    fun s n p who desc runs found waits => ?restore,
    fun i => ⟨rfl, fun v bad => imageHolds_badMagic i bad, rfl⟩, fun s n p i found => ?image⟩
  case strike =>
    have meaning : exec (.strikeReport (.cores c j)) s = execStrikeReport (.cores c j) s := rfl
    rw [meaning, execStrikeReport, whenRuns_of_runs runs]
    simp only [Nat.mod_eq_of_lt small]
    rfl
  case shadow =>
    have scrub : exec (.scrub (.shadowed gid)) s = .next (strikeGroup s gid) := next_of_runs runs rfl
    rw [strikeGroup_of_chunks found chunks] at scrub
    have window := settleWindow_windowOnly (squashed s gid g ch rest) g.team
    obtain ⟨h, held, rest_kept⟩ := settleWindow_bareKept (squashed s gid g ch rest) g.team _ _ squashed_self rfl rfl
    have regs := window.regs gid
    rw [held, squashed_self, Option.map_some, Option.map_some, Option.some.injEq] at regs
    refine ⟨_, scrub, ⟨_, struck_self held, regs, ?_⟩, fun k other => ?_, fun idle => ?_, window.memory⟩
    · exact congrArg (fun x : Group => { x with strikes := g.strikes + 1 }) rest_kept
    · rw [struck_ne other, window.regs k, squashed_ne other]
    · rw [settleWindow_of_idle (squashed_idle idle), struck_self squashed_self]
      exact ⟨rfl, fun k other => (struck_ne other).trans (squashed_ne other)⟩
  case bare =>
    have scrub : exec (.scrub (.shadowed gid)) s = .next (strikeGroup s gid) := next_of_runs runs rfl
    rwa [strikeGroup_of_none bare] at scrub
  case unchanged =>
    refine next_of_runs runs (congrArg Host.Outcome.next (if_congr Iff.rfl ?_ rfl))
    exact if_pos (beq_iff_eq.mpr clean)
  case owned =>
    have late : exec (.scrub (.late tid)) s = .next (lateDetection s tid) := next_of_runs runs rfl
    rw [late]
    refine next_of_runs runs (congrArg Host.Outcome.next (if_congr Iff.rfl ?_ rfl))
    simp only [beq_iff_eq, changed, if_false, owner]
  case lateExchange =>
    have late : exec (.scrub (.late tid)) s = .next (lateDetection s tid) := next_of_runs runs rfl
    rw [late, lateDetection_eq named launched, if_pos (inExchange_iff.mpr exchange)]
  case lateCompute =>
    have late : exec (.scrub (.late tid)) s = .next (lateDetection s tid) := next_of_runs runs rfl
    rw [late, lateDetection_eq named launched, if_neg (mt inExchange_iff.mp compute)]
  case consumedExchange =>
    have consumed : exec (.scrub (.consumed tid core)) s = .next (relaunchTeam s tid (regionOf core)) := next_of_runs runs rfl
    rw [consumed, relaunchTeam_eq named launched alive, if_pos (inExchange_iff.mpr exchange)]
  case consumedCompute =>
    have phase : inExchange s l = false := Bool.eq_false_iff.mpr (mt inExchange_iff.mp compute)
    obtain ⟨m, g, saved⟩ := relaunchTeam_saves (avoid := regionOf core) named launched alive phase apart
    exact ⟨_, m, g, next_of_runs runs rfl, saved⟩
  case stopped =>
    refine next_of_runs runs (congrArg Host.Outcome.next (if_congr Iff.rfl ?_ rfl))
    exact if_neg (Bool.eq_false_iff.mp stopped)
  case control =>
    have scrub : exec (.scrub (.controlWord c a)) s = .next (controlDue s c a) := next_of_runs runs rfl
    have stops : controlDue s c a = stopControl s c 7 _ _ _ := if_pos running
    rw [stops] at scrub
    obtain ⟨halted, -, events, cmem, -⟩ := stopControl_stops s c 7 _ _ _
    exact ⟨_, scrub, halted, stopControl_pc .., cmem, _, events, rfl, rfl⟩
  case snapshot =>
    rw [spoilSnapshot, onTeam]
    simp only [tget_tmod, if_true, found, Option.map_some]
  case drain =>
    intro ended
    obtain ⟨ends, stops⟩ := exec_drains (n := n) runs
    rw [ends, stops, endDrain_draining found draining image, endDrain_draining found draining image]
    exact ⟨rfl, rfl⟩
  case idle =>
    obtain ⟨ends, stops⟩ := exec_drains (n := n) runs
    rw [ends, stops, endDrain_idle found idle, endDrain_idle found idle]
    exact ⟨rfl, rfl⟩
  case restore =>
    intro u live
    exact ⟨rstorComplete_restoring runs found waits rfl, fun changed =>
      ⟨fun running => rstorComplete_restoring runs found waits (finishRestore_live running),
      fun still lacks => rstorComplete_restoring runs found waits (finishRestore_lacking still lacks),
      fun i still held whole misfits => rstorComplete_restoring runs found waits (finishRestore_misfit still held whole misfits),
      fun i still held whole clusters mapped =>
        rstorComplete_restoring runs found waits (finishRestore_fits (s := u) still held whole clusters mapped)⟩⟩
  case image =>
    intro t
    refine ⟨?_, rfl, rfl, rfl, rfl, fun a outside absent => restoreImage_outside outside absent,
      fun wf canonical a inside => restoreImage_inside wf canonical inside⟩
    have kept : (restorePages s i).parts = s.parts := rfl
    simp only [t, restoreImage, tget_tmod, if_true, kept, found, Option.map_some]

end Sys2Proof
end

section
/-! SUPPORT. Management commands: how a message of a session reaches its command, and what the command and its reply change
(01 R20, 21 R381-R383, 24 R430-R445). -/

namespace Sys2Proof.Machine

open Sys2Proof

/-! ### Datagrams at the host port (01 R19, R20) -/

section

variable {s : State} {h : MsgHdr} {f : State → State}

theorem portUp_iff : (s.dev.frozen == .none && (s.dev.run == .running || s.dev.run == .safe)) = true ↔ PortUp s := by
  simp [PortUp]

theorem ownAddress_iff {d : Device} {a : Nat} : ownAddress d a = true ↔ a = linkLocal d.mac ∨ globalAddress d = some a := by
  simp [ownAddress]

theorem whenDatagram_of_down (down : ¬PortUp s) : whenDatagram s h f = .next s := by
  rw [whenDatagram, whenFrame, whenPort, if_neg (mt portUp_iff.mp down)]

theorem whenDatagram_of_stray (up : PortUp s) (stray : h.vlan ≠ s.dev.vlan ∨ Unaddressed s h) :
    whenDatagram s h f = .next (bumpMgmt s 0 1) := by
  rw [whenDatagram, whenFrame, whenPort, if_pos (portUp_iff.mpr up)]
  by_cases tag : h.vlan = s.dev.vlan
  · obtain ⟨a, dest, link, global⟩ := stray.resolve_left (not_not_intro tag)
    have foreign : ¬h.dest.all (ownAddress s.dev) = true := by
      rw [dest, Option.all_some, ownAddress_iff]
      exact fun own => own.elim link global
    rw [if_pos tag, if_neg foreign]
  · rw [if_neg tag]

theorem whenDatagram_of_arrives (arrives : DatagramArrives s h) : whenDatagram s h f = .next (f s) := by
  obtain ⟨⟨up, tag⟩, addressed⟩ := arrives
  have own : h.dest.all (ownAddress s.dev) = true := by
    cases dest : h.dest with
    | none => rfl
    | some a => exact ownAddress_iff.mpr (addressed a dest)
  rw [whenDatagram, whenFrame, whenPort, if_pos (portUp_iff.mpr up), if_pos tag, if_pos own]

end

/-! ### Sessions that hold back no command (21 R382, 24 R432) -/

/-- Session sid is open, and no frame behind its window carries a command. -/
def NoCommand (s : State) (sid : Nat) : Prop := ∃ x, tget s.sessions sid = some x ∧ ∀ f ∈ x.backlog, f.command = none

section

variable {s : State} {sid : Nat}

/-- What the window admits lets go no command. -/
theorem pumpSession_noCommand (n : Nat) {s : State} (quiet : NoCommand s sid) :
    (pumpSession s sid n).dev = s.dev ∧ NoCommand (pumpSession s sid n) sid := by
  induction n generalizing s with
  | zero => exact ⟨rfl, quiet⟩
  | succ n ih =>
    obtain ⟨x, found, none⟩ := quiet
    simp only [pumpSession, found]
    cases backlog : x.backlog with
    | nil => exact ⟨rfl, x, found, none⟩
    | cons fr rest =>
      dsimp only
      split
      · exact ⟨rfl, x, found, none⟩
      · rw [backlog, List.forall_mem_cons] at none
        obtain ⟨first, later⟩ := none
        simp only [first, Option.toList_none, List.append_nil]
        exact ih ⟨_, tget_tput_self .., later⟩

theorem sendFrame_noCommand (quiet : NoCommand s sid) {fr : Frame} (plain : fr.command = none) :
    (sendFrame s sid fr).dev = s.dev := by
  obtain ⟨x, found, none⟩ := quiet
  simp only [sendFrame, found]
  refine (pumpSession_noCommand _ ⟨_, tget_tput_self .., fun f mem => ?_⟩).1
  rcases List.mem_append.mp mem with before | last
  · exact none f before
  · rw [List.mem_singleton.mp last, plain]

theorem replyTo_noCommand (quiet : NoCommand s sid) (o : Origin) (status : Nat) (payload : List Byte) :
    (replyTo s sid o status payload).dev = s.dev := sendFrame_noCommand quiet rfl

theorem actCommands_of_none (none : s.dev.cmds = []) : actCommands s = s := by rw [actCommands, none]

end

/-- A session with its acknowledged frames retired. -/
def retiring (x : Session) (ack : Nat) : Session := { x with unacked := x.unacked.filter fun u => decide (ack < u.1.seq) }

theorem takeAck_found {s : State} {sid ack : Nat} {x : Session} (found : tget s.sessions sid = some x) :
    takeAck s sid ack = actCommands (pumpSession (onSession s sid (retiring · ack)) sid (x.backlog.length + 1)) := by
  simp only [takeAck, found]
  rfl

section

variable {s : State} {h : MsgHdr} {x : Session} (next : NextInOrder s h x)

include next

theorem takeAck_noCommand : (takeAck s h.session h.ack).dev = s.dev ∧ NoCommand (takeAck s h.session h.ack) h.session ∧
    PortOnly s (takeAck s h.session h.ack) := by
  obtain ⟨-, found, -, cmds, plain⟩ := next
  have retired : NoCommand (onSession s h.session (retiring · h.ack)) h.session := by
    refine ⟨retiring x h.ack, ?_, plain⟩
    simp only [onSession, tget_tmod, if_true, found, Option.map_some]
  obtain ⟨dev, quiet⟩ := pumpSession_noCommand (x.backlog.length + 1) retired
  rw [takeAck_found found, actCommands_of_none ((congrArg Device.cmds dev).trans cmds)]
  exact ⟨dev, quiet, (onSession_port ..).trans (pumpSession_port ..)⟩

theorem received_dev : (received s h).dev = s.dev := (takeAck_noCommand next).1

theorem received_noCommand : NoCommand (received s h) h.session := by
  obtain ⟨-, ⟨y, found, plain⟩, -⟩ := takeAck_noCommand next
  refine ⟨{ y with rxNext := y.rxNext + 1 }, ?_, plain⟩
  simp only [received, tget_tmod, if_true, found, Option.map_some]

/-- The next message in order of a session is acted on once it is received. -/
theorem onMessage_next (header : HeaderOf h) (type : Nat) (act : State → Session → State) :
    onMessage s h type act = act (received s h) x := by
  obtain ⟨dev, ⟨y, stands, -⟩, -⟩ := takeAck_noCommand next
  obtain ⟨⟨⟨⟨frozen, -⟩, -⟩, -⟩, found, order, -⟩ := next
  obtain ⟨fits, plain, -⟩ := header
  have own : headerFits h type = true := by simp [headerFits, typeOf, fits, plain]
  have turn : ¬(decide (x.rxNext < h.seq) || (tget (takeAck s h.session h.ack).sessions h.session).isNone ||
      (takeAck s h.session h.ack).dev.frozen != .none) = true := by simp [order, stands, dev, frozen]
  simp only [onMessage, found]
  rw [if_neg (by omega), if_neg turn, if_pos own]
  rfl

theorem received_port : PortOnly s (received s h) := by
  obtain ⟨-, -, port⟩ := takeAck_noCommand next
  exact port.trans (onSession_port _ h.session fun y => { y with rxNext := y.rxNext + 1 })

end

/-! ### Command words (24 R432) -/

section

variable {ins : Instr} {s : State} {h : MsgHdr} {v : Nat} {f : StartFacts} {x : Session}

/-- Each command is a LOAD of its value to the command word. -/
theorem exec_commandWord (word : CommandWord ins h v f) (s : State) : exec ins s = commandMessage s h v f := by
  cases word with
  | freeze | warmStart | recalibrate => rfl
  | coldStart _ c => cases c <;> rfl
  | clearMonitor _ i =>
    have value : 4 + 256 * i.toNat = 4 + i.toNat * 2 ^ 8 := by omega
    rw [value]
    rfl
  | setBinning _ i l b w =>
    have value : 5 + 256 * i.toNat + (if l then 2 ^ 20 else 0) + 2 ^ 21 * b.toNat + 2 ^ 37 * w.toNat =
        5 + i.toNat * 2 ^ 8 + (if l then 2 ^ 20 else 0) + b.toNat * 2 ^ 21 + w.toNat * 2 ^ 37 := by
      omega
    rw [value]
    rfl

/-- A command of an administrator that is next in order. -/
theorem exec_adminCommand (word : CommandWord ins h v f) (next : NextInOrder s h x) (header : HeaderOf h)
    (admin : x.admin = true) : exec ins s = .next (runCommand (received s h) h v f) := by
  rw [exec_commandWord word, commandMessage, whenDatagram_of_arrives next.frame, onMessage_next next header, if_pos admin]

/-- In a partition session it is a LOAD. -/
theorem exec_partCommand (word : CommandWord ins h v f) (next : NextInOrder s h x) (header : HeaderOf h)
    (part : x.admin = false) : exec ins s = exec (.load h 0x200 0x1000 (natLE 8 v)) s := by
  have load : exec (.load h 0x200 0x1000 (natLE 8 v)) s = execLoad h 0x200 0x1000 (natLE 8 v) s := rfl
  have session : ¬x.admin = true := Bool.eq_false_iff.mp part
  rw [exec_commandWord word, commandMessage, load, execLoad, whenDatagram_of_arrives next.frame,
    whenDatagram_of_arrives next.frame, onMessage_next next header, onMessage_next next header, if_neg session, if_neg session]

end

section

variable {s : State}

theorem commandOf_freeze (runs : s.dev.run = .running) : commandOf s 1 = .later := by
  simp [commandOf, runs]

theorem commandOf_warmStart (s : State) : commandOf s 2 = .later := rfl

theorem commandOf_coldStart (s : State) : commandOf s 3 = .later := rfl

theorem commandOf_coldStartClear (s : State) : commandOf s 259 = .later := rfl

/-- In safe mode the starts only are accepted. -/
theorem commandOf_safe (safe : s.dev.run = .safe) {v : Nat} (other : v % 256 ≠ 2 ∧ v % 256 ≠ 3) : commandOf s v = .refused := by
  simp only [commandOf, safe, beq_self_eq_true, Bool.true_or, if_true]
  split
  · rfl
  · next two => exact absurd two other.1
  · next three => exact absurd three other.2
  · rfl
  · rfl
  · rfl
  · rfl

theorem commandOf_four {v : Nat} (code : v % 256 = 4) : commandOf s v =
    if s.dev.run == .safe || decide (2 ^ 20 ≤ v) || (v / 2 ^ 8 % 2 ^ 12 != 0xFFF && decide (monitorCount ≤ v / 2 ^ 8 % 2 ^ 12))
    then .refused else .now (clearMonitors s (v / 2 ^ 8 % 2 ^ 12)) := by
  simp only [commandOf, code]

theorem commandOf_five {v : Nat} (code : v % 256 = 5) : commandOf s v =
    if s.dev.run == .safe || decide (2 ^ 42 ≤ v) || decide (monitorCount ≤ v / 2 ^ 8 % 2 ^ 12) then .refused
    else .now (setBins s (v / 2 ^ 8 % 2 ^ 12) (v / 2 ^ 20 % 2 = 1) (v / 2 ^ 21 % 2 ^ 16) (v / 2 ^ 37 % 2 ^ 5)) := by
  simp only [commandOf, code]

/-- CLEAR_MONITOR of a monitor, or of all. -/
theorem commandOf_clearMonitor (runs : s.dev.run = .running) {i : Nat} (known : i < monitorCount ∨ i = 0xFFF) :
    commandOf s (4 + 256 * i) = .now (clearMonitors s i) := by
  have small : i < 4096 := by
    have count : monitorCount = 2182 := rfl
    omega
  have index : (4 + 256 * i) / 2 ^ 8 % 2 ^ 12 = i := by omega
  have fits : decide (2 ^ 20 ≤ 4 + 256 * i) = false := decide_eq_false (by omega)
  have named : (i != 0xFFF && decide (monitorCount ≤ i)) = false := by
    obtain low | all := known
    · rw [decide_eq_false (Nat.not_le.mpr low), Bool.and_false]
    · rw [all]
      rfl
  rw [commandOf_four (by omega), index, fits, named, runs]
  rfl

theorem commandOf_clearMonitor_unknown {i : Nat} (small : i < 4096) (unknown : monitorCount ≤ i) (single : i ≠ 0xFFF) :
    commandOf s (4 + 256 * i) = .refused := by
  have index : (4 + 256 * i) / 2 ^ 8 % 2 ^ 12 = i := by omega
  rw [commandOf_four (by omega), index, decide_eq_true unknown, bne_iff_ne.mpr single, Bool.and_true, Bool.or_true, if_pos rfl]

/-- The value of SET_BINNING for an index and a binning. -/
def binningValue (i : BitVec 12) (log2 : Bool) (base : BitVec 16) (width : BitVec 5) : Nat :=
  5 + 256 * i.toNat + (if log2 then 2 ^ 20 else 0) + 2 ^ 21 * base.toNat + 2 ^ 37 * width.toNat

/-- The fields of the value of SET_BINNING are what it was made of. -/
theorem binningValue_fields (i : BitVec 12) (log2 : Bool) (base : BitVec 16) (width : BitVec 5) :
    let v := binningValue i log2 base width
    v % 256 = 5 ∧ v / 2 ^ 8 % 2 ^ 12 = i.toNat ∧ v / 2 ^ 20 % 2 = log2.toNat ∧ v / 2 ^ 21 % 2 ^ 16 = base.toNat ∧
      v / 2 ^ 37 % 2 ^ 5 = width.toNat ∧ v < 2 ^ 42 := by
  intro v
  have value : v = 5 + 256 * i.toNat + 2 ^ 20 * log2.toNat + 2 ^ 21 * base.toNat + 2 ^ 37 * width.toNat := by
    cases log2 <;> rfl
  have smallI := i.isLt
  have smallL := log2.toNat_lt
  have smallB := base.isLt
  have smallW := width.isLt
  omega

theorem commandOf_setBinning (runs : s.dev.run = .running) {i : BitVec 12} (known : i.toNat < monitorCount) (log2 : Bool)
    (base : BitVec 16) (width : BitVec 5) : commandOf s (binningValue i log2 base width) =
      .now (clearInto s i.toNat log2 width.toNat base.toNat) := by
  obtain ⟨code, index, kind, low, wide, fits⟩ := binningValue_fields i log2 base width
  rw [commandOf_five code, index, kind, low, wide, decide_eq_false (Nat.not_le.mpr fits),
    decide_eq_false (Nat.not_le.mpr known), runs]
  cases log2 <;> rfl

theorem commandOf_setBinning_unknown {i : BitVec 12} (unknown : monitorCount ≤ i.toNat) (log2 : Bool) (base : BitVec 16)
    (width : BitVec 5) : commandOf s (binningValue i log2 base width) = .refused := by
  obtain ⟨code, index, -⟩ := binningValue_fields i log2 base width
  rw [commandOf_five code, index, decide_eq_true unknown, Bool.or_true, if_pos rfl]

theorem commandOf_recalibrate (runs : s.dev.run = .running) : commandOf s 6 =
    .now (onDevice s fun d => { d with recal := once (d.recal ++ freeClusters s) }) := by
  simp [commandOf, runs, onDevice]

theorem mem_freeClusters {c : Nat} :
    c ∈ freeClusters s ↔ c < 16 ∧ ∀ e ∈ s.parts, c ∉ e.2.clusters ∧ c ∉ e.2.joining := by
  simp [freeClusters, upto, not_or]

end

/-! ### Monitors that a command clears (24 R434, R436) -/

/-- Only the counts and binnings of monitors, and the cycles of those of HBM, may differ. -/
structure OnlyMonitors (s t : State) : Prop where
  rest : t = onDevice s (fun _ => t.dev)
  device : { t.dev with monitors := [], hbmAt := [] } = { s.dev with monitors := [], hbmAt := [] }

theorem OnlyMonitors.refl (s : State) : OnlyMonitors s s := ⟨rfl, rfl⟩

theorem OnlyMonitors.trans {a b c : State} (h : OnlyMonitors a b) (k : OnlyMonitors b c) : OnlyMonitors a c where
  rest := by
    have same := congrArg (fun x : State => onDevice x (fun _ => c.dev)) h.rest
    exact k.rest.trans same
  device := k.device.trans h.device

/-- A clear takes the samples of the cycle in which it comes. -/
theorem OnlyMonitors.clearedTo {s t : State} (h : OnlyMonitors s t) (k : Nat) (log2 : Bool) (base width : Nat) :
    clearedTo t k log2 base width = clearedTo s k log2 base width := by
  have fresh := congrArg Device.fresh h.device
  have freshAt := congrArg Device.freshAt h.device
  have cycle := congrArg State.cycle h.rest
  change t.dev.fresh = s.dev.fresh at fresh
  change t.dev.freshAt = s.dev.freshAt at freshAt
  change t.cycle = s.cycle at cycle
  rw [Sys2Proof.clearedTo, Sys2Proof.clearedTo, fresh, freshAt, cycle]

theorem clearInto_only (s : State) (i : Nat) (log2 : Bool) (width base : Nat) :
    OnlyMonitors s (clearInto s i log2 width base) := ⟨rfl, rfl⟩

theorem monitorAt_clearInto (s : State) (i : Nat) (log2 : Bool) (width base k : Nat) :
    monitorAt (clearInto s i log2 width base).dev k = if k = i then clearedTo s i log2 base width else monitorAt s.dev k := by
  have table : monitorAt (clearInto s i log2 width base).dev k =
      tgetD (tput s.dev.monitors i (clearedTo s i log2 base width)) k (defaultMonitor k) := rfl
  rw [table, tgetD_tput]
  rfl

/-- Monitor k cleared with its own binning. -/
def clearedOwn (s : State) (k : Nat) : Monitor :=
  clearedTo s k (monitorAt s.dev k).log2 (monitorAt s.dev k).base (monitorAt s.dev k).width

theorem monitorAt_clearMonitor (s : State) (i k : Nat) :
    monitorAt (clearMonitor s i).dev k = if k = i then clearedOwn s k else monitorAt s.dev k := by
  rw [clearMonitor, monitorAt_clearInto]
  split
  · next same => rw [same, clearedOwn]
  · rfl

/-- Monitors cleared one by one. -/
theorem clearAll_spec (s : State) (n : Nat) : let t := (upto n).foldl clearMonitor s
    OnlyMonitors s t ∧ ∀ k, monitorAt t.dev k = if k < n then clearedOwn s k else monitorAt s.dev k := by
  induction n with
  | zero => exact ⟨.refl s, fun k => rfl⟩
  | succ n ih =>
    obtain ⟨only, cleared⟩ := ih
    simp only [upto, List.range_succ, List.foldl_append, List.foldl_cons, List.foldl_nil] at only cleared ⊢
    refine ⟨only.trans (clearInto_only ..), fun k => ?_⟩
    rw [monitorAt_clearMonitor]
    obtain low | same | high := Nat.lt_trichotomy k n
    · rw [if_neg (Nat.ne_of_lt low), cleared, if_pos low, if_pos (Nat.lt_succ_of_lt low)]
    · subst same
      rw [if_pos rfl, if_pos (Nat.lt_succ_self k), clearedOwn, cleared, if_neg (Nat.lt_irrefl k), only.clearedTo]
      rfl
    · rw [if_neg (Nat.ne_of_gt high), cleared, if_neg (Nat.not_lt.mpr high.le), if_neg (Nat.not_lt.mpr high)]

/-! ### Commands that are done at once, and refused ones -/

section

variable {ins : Instr} {s u : State} {h : MsgHdr} {v : Nat} {f : StartFacts} {x : Session}
  (word : CommandWord ins h v f) (next : NextInOrder s h x) (header : HeaderOf h) (admin : x.admin = true)

include word next header admin

theorem exec_refusedCommand (refused : commandOf (received s h) v = .refused) :
    exec ins s = .next (replyTo (received s h) h.session (originOf h 2) 4 []) := by
  rw [exec_adminCommand word next header admin, runCommand, refused]

/-- A command that changes the device record only is answered after it. -/
theorem exec_commandNow {d : Device} (now : commandOf (received s h) v = .now (onDevice (received s h) (fun _ => d))) :
    ∃ t, exec ins s = .next t ∧ t.dev = d ∧
      t = replyTo (onDevice (received s h) (fun _ => t.dev)) h.session (originOf h 2) 0 [] := by
  have quiet : NoCommand (onDevice (received s h) (fun _ => d)) h.session := received_noCommand next
  have dev := replyTo_noCommand quiet (originOf h 2) 0 []
  refine ⟨_, ?_, dev, ?_⟩
  · rw [exec_adminCommand word next header admin, runCommand, now]
  · rw [dev]
    rfl

/-- A command that clears monitors. -/
theorem exec_commandClears (now : commandOf (received s h) v = .now u) (only : OnlyMonitors (received s h) u) :
    ∃ t, exec ins s = .next t ∧ t = replyTo (onDevice (received s h) (fun _ => t.dev)) h.session (originOf h 2) 0 [] ∧
      { t.dev with monitors := [], hbmAt := [] } = { s.dev with monitors := [], hbmAt := [] } ∧ t.dev = u.dev := by
  obtain ⟨t, meaning, dev, reply⟩ := exec_commandNow word next header admin (now.trans (congrArg Command.now only.rest))
  refine ⟨t, meaning, reply, ?_, dev⟩
  rw [dev, only.device, received_dev next]

omit word admin header in
theorem clearedTo_received (k : Nat) (log2 : Bool) (base width : Nat) :
    clearedTo (received s h) k log2 base width = clearedTo s k log2 base width := by
  have cycle := congrArg State.cycle (received_port next).rest
  change (received s h).cycle = s.cycle at cycle
  rw [clearedTo, clearedTo, received_dev next, cycle]

end

/-! ### Commands that wait for their reply -/

section

variable {s : State} {sid : Nat} {x : Session} {fr : Frame} (found : tget s.sessions sid = some x) (empty : x.backlog = [])

include found empty

/-- A frame of a session whose window has room is sent at once. -/
theorem sendFrame_room (room : x.unacked.length < 64) : sendFrame s sid fr =
    onDevice (sendFrame s sid { fr with command := none }) (fun d => { d with cmds := d.cmds ++ fr.command.toList }) := by
  have window : ¬64 ≤ x.unacked.length := Nat.not_le.mpr room
  simp [sendFrame, pumpSession, found, empty, window, onDevice, tput_tput_same]

/-- A frame of a session whose window is full waits. -/
theorem sendFrame_full (full : 64 ≤ x.unacked.length) :
    sendFrame s sid fr = { s with sessions := tput s.sessions sid { x with backlog := [fr] } } := by
  simp [sendFrame, pumpSession, found, empty, full]

end

theorem pumpSession_empty {s : State} {sid : Nat} {x : Session} (found : tget s.sessions sid = some x) (empty : x.backlog = [])
    (n : Nat) : pumpSession s sid n = s := by
  cases n with
  | zero => rfl
  | succ n => simp only [pumpSession, found, empty]

/-- A session with nothing behind its window, once the next message is received. -/
def awaitingNext (x : Session) (ack : Nat) : Session := { retiring x ack with rxNext := x.rxNext + 1 }

theorem actCommands_one {s : State} (none : s.dev.cmds = []) (v : Nat) (f : StartFacts) :
    actCommands (onDevice s (fun d => { d with cmds := d.cmds ++ [(v, f)] })) = actCommand s v f := by
  have same : { s.dev with cmds := [] } = s.dev := by rw [← none]
  simp only [actCommands, onDevice, none, List.nil_append, same]

section

variable {ins : Instr} {s : State} {h : MsgHdr} {v : Nat} {f : StartFacts} {x : Session}
  (word : CommandWord ins h v f) (next : NextInOrder s h x) (header : HeaderOf h) (admin : x.admin = true)
  (empty : x.backlog = [])

include next empty

theorem received_empty : tget (received s h).sessions h.session = some (awaitingNext x h.ack) ∧ (received s h).sent = s.sent := by
  obtain ⟨-, found, -, cmds, -⟩ := next
  have retired : tget (onSession s h.session (retiring · h.ack)).sessions h.session = some (retiring x h.ack) := by
    simp only [onSession, tget_tmod, if_true, found, Option.map_some]
  have acks : takeAck s h.session h.ack = onSession s h.session (retiring · h.ack) := by
    have still := pumpSession_empty retired empty 1
    rw [takeAck_found found, empty, List.length_nil, still]
    exact actCommands_of_none cmds
  have sent : (received s h).sent = (takeAck s h.session h.ack).sent := rfl
  refine ⟨?_, by rw [sent, acks]; rfl⟩
  simp only [received, acks, tget_tmod, if_true, retired, Option.map_some, awaitingNext]
  rfl

include word header admin

/-- A command with room for its reply is acted on once that is sent. -/
theorem exec_commandLater (later : commandOf (received s h) v = .later)
    (room : (x.unacked.filter fun u => decide (h.ack < u.1.seq)).length < 64) :
    exec ins s = .next (actCommand (replied s h) v f) := by
  obtain ⟨found, -⟩ := received_empty next empty
  have cmds : (replied s h).dev.cmds = [] := by
    rw [replied, replyTo_noCommand (received_noCommand next), received_dev next]
    exact next.quiet.1
  rw [exec_adminCommand word next header admin, runCommand, later]
  dsimp only
  rw [sendFrame_room found empty room]
  exact congrArg _ (actCommands_one cmds v f)

/-- A command whose reply waits for the window is not acted on. -/
theorem exec_commandWaits (later : commandOf (received s h) v = .later)
    (full : 64 ≤ (x.unacked.filter fun u => decide (h.ack < u.1.seq)).length) :
    ∃ t y fr, exec ins s = .next t ∧ t.dev = s.dev ∧ t.sent = s.sent ∧ tget t.sessions h.session = some y ∧
      y.backlog = [fr] ∧ fr.command = some (v, f) ∧ fr.status = 0 := by
  obtain ⟨found, sent⟩ := received_empty next empty
  have dev := received_dev next
  have meaning := exec_adminCommand word next header admin
  simp only [runCommand, later, sendFrame_full found empty full] at meaning
  have cmds : (received s h).dev.cmds = [] := (congrArg Device.cmds dev).trans next.quiet.1
  exact ⟨_, _, _, meaning.trans (congrArg _ (actCommands_of_none cmds)), dev, sent, tget_tput_self .., rfl, rfl, rfl⟩

end

/-- A freeze or a start acts once its reply is sent. -/
theorem commandOf_later {ins : Instr} {h : MsgHdr} {v : Nat} {f : StartFacts} {s : State} (word : CommandWord ins h v f)
    (code : v % 256 ≤ 3) (runs : s.dev.run = .running) : commandOf s v = .later := by
  cases word with
  | freeze => exact commandOf_freeze runs
  | warmStart => rfl
  | coldStart _ c => cases c <;> rfl
  | clearMonitor | recalibrate => omega
  | setBinning _ i l b w =>
    obtain ⟨five, -⟩ := binningValue_fields i l b w
    change binningValue i l b w % 256 ≤ 3 at code
    omega

/-! ### The host-port record (01 R20) -/

theorem exec_loadHostPortRecord (h : MsgHdr) (data : List Byte) (s : State) :
    exec (.loadHostPortRecord h data) s = exec (.load h 0x200 0x3000 data) s := rfl

section

variable {s : State} {h : MsgHdr} {x : Session} {data : List Byte} (next : NextInOrder s h x) (header : HeaderOf h)

include next header

theorem exec_adminRecord (admin : x.admin = true) : exec (.loadHostPortRecord h data) s = .next (
    if hostRecordFits data && s.dev.run != .safe then
      replyTo (writeHostRecord (received s h) data) h.session (originOf h 2) 0 []
    else replyTo (received s h) h.session (originOf h 2) 4 []) := by
  have meaning : exec (.loadHostPortRecord h data) s = execLoadHostPortRecord h data s := rfl
  rw [meaning, execLoadHostPortRecord, whenDatagram_of_arrives next.frame, onMessage_next next header, if_pos admin,
    ← received_dev next]
  rfl

end

end Sys2Proof.Machine

namespace Sys2Proof

open Sys2Proof.Machine

/-- Settles O53: a command is received, its value says what it does, and its lemma what that changes. -/
theorem managementCommands : Obligations.ManagementCommands := by
  unfold Obligations.ManagementCommands
  refine ⟨fun ins h v f s word down => ?down, fun ins h v f s word up stray => ?stray,
    fun ins h v f s x word next header part => exec_partCommand word next header part,
    fun s h x next header admin room runs => ?freeze, fun s h x f next header admin room => ?starts,
    fun ins h v f s x word code next header admin empty full runs => ?waits,
    fun s h x i next header admin runs => ?clear, fun s h x i log2 base width next header admin runs => ?bins,
    fun s h x next header admin runs => ?recalibrate, fun s h x i log2 base width next header admin safe => ?safe,
    fun s h x data next header admin => ?record,
    fun s h x data _ _ _ => exec_loadHostPortRecord h data s⟩
  case down => rw [exec_commandWord word, commandMessage, whenDatagram_of_down down]
  case stray => rw [exec_commandWord word, commandMessage, whenDatagram_of_stray up stray]
  case freeze =>
    obtain ⟨empty, room⟩ := room
    have dev := received_dev next
    have acted := exec_commandLater (.freeze h) next header admin empty (commandOf_freeze (dev ▸ runs)) room
    have same : (replied s h).dev = s.dev := (replyTo_noCommand (received_noCommand next) ..).trans dev
    have on : (replied s h).dev.run ≠ .off := by simp [same, runs]
    have awake : (replied s h).dev.frozen = .none := by rw [same, next.frame.frame.port.1]
    rw [acted]
    exact congrArg Host.Outcome.next (freezeDevice_of_on on awake)
  case starts =>
    obtain ⟨empty, room⟩ := room
    exact ⟨exec_commandLater (.warmStart h f) next header admin empty rfl room,
      exec_commandLater (.coldStart h false f) next header admin empty rfl room,
      exec_commandLater (.coldStart h true f) next header admin empty rfl room⟩
  case waits =>
    exact exec_commandWaits word next header admin empty (commandOf_later word code ((received_dev next) ▸ runs)) full
  case clear =>
    have runsNow : (received s h).dev.run = .running := (received_dev next) ▸ runs
    have own : ∀ k, clearedOwn (received s h) k =
        clearedTo s k (monitorAt s.dev k).log2 (monitorAt s.dev k).base (monitorAt s.dev k).width := fun k => by
      rw [clearedOwn, clearedTo_received next, received_dev next]
    refine ⟨fun known => ?_, fun all => ?_, fun unknown single => ?_⟩
    · have single : clearMonitors (received s h) i.toNat = clearMonitor (received s h) i.toNat := if_neg (by omega)
      obtain ⟨t, meaning, reply, device, dev⟩ := exec_commandClears (.clearMonitor h i) next header admin
        ((commandOf_clearMonitor runsNow (.inl known)).trans (congrArg _ single)) (clearInto_only ..)
      refine ⟨t, meaning, reply, device, fun k => ?_⟩
      rw [dev, monitorAt_clearMonitor, own, received_dev next]
    · have every : clearMonitors (received s h) i.toNat = (upto monitorCount).foldl clearMonitor (received s h) := by
        rw [all]
        rfl
      obtain ⟨only, monitors⟩ := clearAll_spec (received s h) monitorCount
      obtain ⟨t, meaning, reply, device, dev⟩ := exec_commandClears (.clearMonitor h i) next header admin
        ((commandOf_clearMonitor runsNow (.inr (by rw [all]; rfl))).trans (congrArg _ every)) only
      refine ⟨t, meaning, reply, device, fun k known => ?_⟩
      rw [dev, monitors, if_pos (c := k < monitorCount) known, own]
    · have all : i.toNat ≠ 0xFFF := fun same => single (BitVec.eq_of_toNat_eq same)
      exact exec_refusedCommand (.clearMonitor h i) next header admin (commandOf_clearMonitor_unknown i.isLt unknown all)
  case bins =>
    have runsNow : (received s h).dev.run = .running := (received_dev next) ▸ runs
    refine ⟨fun known => ?_, fun unknown => ?_⟩
    · obtain ⟨t, meaning, reply, device, dev⟩ := exec_commandClears (.setBinning h i log2 base width) next header admin
        (commandOf_setBinning runsNow known log2 base width) (clearInto_only ..)
      refine ⟨t, meaning, reply, device, fun k => ?_⟩
      rw [dev, monitorAt_clearInto, clearedTo_received next, received_dev next]
      split
      · next same => rw [same]
      · rfl
    · exact exec_refusedCommand (.setBinning h i log2 base width) next header admin
        (commandOf_setBinning_unknown unknown log2 base width)
  case recalibrate =>
    have runsNow : (received s h).dev.run = .running := (received_dev next) ▸ runs
    obtain ⟨parts, -⟩ := (received_port next).tables
    obtain ⟨t, meaning, dev, reply⟩ := exec_commandNow (.recalibrate h) next header admin (commandOf_recalibrate runsNow)
    refine ⟨t, meaning, ?_, fun c => ?_⟩
    · rw [dev] at reply ⊢
      exact reply
    · rw [dev]
      show c ∈ once ((received s h).dev.recal ++ freeClusters (received s h)) ↔ _
      rw [mem_once, List.mem_append, mem_freeClusters, parts, received_dev next]
  case safe =>
    have safeNow : (received s h).dev.run = .safe := (received_dev next) ▸ safe
    obtain ⟨five, -⟩ := binningValue_fields i log2 base width
    exact ⟨exec_refusedCommand (.freeze h) next header admin (commandOf_safe safeNow (by decide)),
      exec_refusedCommand (.clearMonitor h i) next header admin (commandOf_safe safeNow (by omega)),
      exec_refusedCommand (.setBinning h i log2 base width) next header admin (commandOf_safe safeNow (by
        change binningValue i log2 base width % 256 ≠ 2 ∧ binningValue i log2 base width % 256 ≠ 3
        omega)),
      exec_refusedCommand (.recalibrate h) next header admin (commandOf_safe safeNow (by decide))⟩
  case record =>
    have meaning := exec_adminRecord (data := data) next header admin
    have cycle := congrArg State.cycle (received_port next).rest
    have freeCount := congrArg State.freeCount (received_port next).rest
    change (received s h).cycle = s.cycle at cycle
    change (received s h).freeCount = s.freeCount at freeCount
    refine ⟨fun fits runs => ?_, fun refused => ?_⟩
    · rw [meaning, if_pos (by simp [fits, runs])]
      rw [← cycle, ← freeCount]
      rfl
    · rw [meaning, if_neg]
      obtain broken | safe := refused
      · simp [broken]
      · simp [safe]

end Sys2Proof
end
